-- ==== Sys2Proof/Word.lean ====
section
/-! DEFINITION. The word types of the block: a byte, and the words its structures are built of. -/

namespace Sys2Proof

/-- One byte. -/
abbrev Byte := BitVec 8
/-- A 16-bit word. -/
abbrev U16 := BitVec 16
/-- A 32-bit word; also an FP32 pattern (R173, Table 7-1). -/
abbrev U32 := BitVec 32
/-- A 64-bit word. -/
abbrev U64 := BitVec 64
/-- A 128-bit command word (R122, R160). -/
abbrev U128 := BitVec 128

end Sys2Proof
end

