-- ==== Sys2Proof/Records.lean ====
section
/-! DEFINITION. The records the block keeps in its tables and the operands its commands carry, as plain data.
Each field's comment names the field of the spec it holds; each record's comment names the rule and the table. The value
after := is what a new record starts at. -/

namespace Sys2Proof

/-- The three variants of Table 0-1 (R1, 00_scope.md). -/
inductive Variant where
  | xf
  | xl
  | cb
  deriving DecidableEq, Repr, Inhabited

/-- Device states of Table 18-1 (R403, 18_startup.md), in the order of their codes 0x0 to 0x7. -/
inductive DevState where
  | off
  | boot
  | train
  | ready
  | serving
  | degraded
  | maintenance
  | safeHalt
  deriving DecidableEq, Repr, Inhabited

/-- Request states, encoded 0x0 to 0x8 (R72, 03_requests.md). -/
inductive ReqState where
  | free
  | admitted
  | importing
  | prefilling
  | decoding
  | paused
  | parked
  | resuming
  | closing
  deriving DecidableEq, Repr, Inhabited

/-- Model-slot states 0x0 to 0x4 (R289, Table 12-1, 12_models_alloys.md). -/
inductive SlotState where
  | empty
  | loading
  | resident
  | evicting
  | broken
  deriving DecidableEq, Repr, Inhabited

/-- Page-group states 0b000 to 0b101 (R266, Table 11-6, 11_tiers.md). -/
inductive GroupState where
  | unused
  | resident
  | demoting
  | parked
  | promoting
  | freeing
  deriving DecidableEq, Repr, Inhabited

/-- Accumulation-group states (R162, Table 6-10, 06_matrix_units.md). -/
inductive AccState where
  | free
  | opened
  | closed
  deriving DecidableEq, Repr, Inhabited

/-- Alloy generation states (R297, 12_models_alloys.md). -/
inductive GenState where
  | loading
  | resident
  | retiring
  deriving DecidableEq, Repr, Inhabited

/-- Kinds of plan row: decode step, prefill chunk (R82, 04_step_plans.md), rebuild row (R387, 17_faults.md). -/
inductive RowKind where
  | decode
  | prefill
  | rebuild
  deriving DecidableEq, Repr, Inhabited

/-- Command classes I, T and L (R358, Table 16-2, 16_sceol.md). -/
inductive CmdClass where
  | immediate
  | tick
  | long
  deriving DecidableEq, Repr, Inhabited

/-- Central Store classes 0 to 7 (R204, Table 8-2, 08_central_store.md). -/
inductive StoreClass where
  | act
  | logit
  | ship
  | host
  | tier
  | journal
  | rtcache
  | pindex
  deriving DecidableEq, Repr, Inhabited

/-- Phases of a live firmware activation (R368, Table 16-8, 16_sceol.md). -/
inductive ActPhase where
  | none
  | booting
  | caughtUp
  | probation
  | formerBooting
  deriving DecidableEq, Repr, Inhabited

/-- Sampler parameters, descriptor bytes 72-103 (R219, Table 9-1, 09_sampling.md). -/
structure SamplerParams where
  /-- FP32; 0 selects greedy -/
  temperature : BitVec 32 := 0
  /-- FP32 top_p -/
  topP : BitVec 32 := 0
  /-- FP32 min_p -/
  minP : BitVec 32 := 0
  /-- FP32 rep_penalty -/
  repPenalty : BitVec 32 := 0
  /-- FP32 presence -/
  presence : BitVec 32 := 0
  /-- u16 top_k, 0 means 256 -/
  topK : Nat := 0
  /-- u16, logit-bias entries -/
  nbias : Nat := 0
  /-- sflags[0] -/
  promptSeen : Bool := false
  /-- sflags[1] -/
  allowedEn : Bool := false
  /-- sflags[2] -/
  numericRetry : Bool := false
  /-- stop sequences, 0 to 8 -/
  nstop : Nat := 0
  deriving DecidableEq, Repr, Inhabited

/-- Speculation policy (R239, Table 10-1, 10_speculation.md). -/
structure SpecPolicy where
  /-- 0 none, 1 n-gram, 2 draft model, 3 host text -/
  source : Nat := 0
  /-- pflags[0] -/
  reject : Bool := false
  /-- nodes, root included, 2 to 64 -/
  maxNodes : Nat := 0
  /-- nodes on the longest chain, 2 to 16 -/
  maxDepth : Nat := 0
  /-- key length 1 to 8 -/
  matchN : Nat := 0
  /-- children per node 1 to 3 -/
  fanout : Nat := 0
  /-- tokens of draft text -/
  draftLen : Nat := 0
  /-- host address of the draft text -/
  draftAddr : Nat := 0
  deriving DecidableEq, Repr, Inhabited

/-- rflags of the Request Table entry (R55, Table 3-1, 03_requests.md). -/
structure ReqFlags where
  /-- [0] -/
  recomputeOk : Bool := false
  /-- [1] -/
  follow : Bool := false
  /-- [2] -/
  noShare : Bool := false
  /-- [3] -/
  logprob : Bool := false
  /-- [4] -/
  notify : Bool := false
  /-- [5] R50 -/
  held : Bool := false
  /-- [6] R5 -/
  specDegraded : Bool := false
  /-- [7] R70 -/
  streamStalled : Bool := false
  /-- [8] import -/
  imported : Bool := false
  /-- [9] R232 -/
  retried : Bool := false
  /-- [10] R232 -/
  bf16Pending : Bool := false
  deriving DecidableEq, Repr, Inhabited

/-- Page-list entry (R270, Table 11-8, 11_tiers.md). -/
structure PageRef where
  /-- 21 bits -/
  handle : Nat := 0
  /-- bit 31 -/
  weak : Bool := false
  /-- 32 bits -/
  incarnation : Nat := 0
  deriving DecidableEq, Repr, Inhabited

/-- One carried activation scale of a request (R185, 07_quantisation.md). -/
structure CarriedScale where
  /-- tensor slot 8 x layer + kind -/
  tslot : Nat := 0
  /-- cluster that converts the slot -/
  cluster : Nat := 0
  /-- normalised mantissa -/
  mant : BitVec 16 := 0
  /-- signed exponent -/
  exp : BitVec 8 := 0
  /-- tree node or position that gave it, 0 in the entry -/
  node : Nat := 0
  deriving DecidableEq, Repr, Inhabited

/-- One carried maximum of a request (R130, 05_bank_units.md). -/
structure CarriedMax where
  /-- layer -/
  layer : Nat := 0
  /-- query head -/
  head : Nat := 0
  /-- i16 Q7.8 -/
  value : BitVec 16 := 0
  /-- tree node that gave it, 0 in the entry -/
  node : Nat := 0
  deriving DecidableEq, Repr, Inhabited

/-- A committed generated token not yet written or held for its stream entry (R235, R237, 09_sampling.md). -/
structure OutToken where
  /-- token id -/
  token : Nat := 0
  /-- FP16 log-probability, zero unless logprob -/
  logprob : BitVec 16 := 0
  /-- the step's path had two or more tokens -/
  spec : Bool := false
  /-- first generated token -/
  first : Bool := false
  /-- tokens the step committed minus 1 -/
  stepCount : Nat := 0
  /-- place within the step -/
  stepIndex : Nat := 0
  deriving DecidableEq, Repr, Inhabited

/-- A provisional frame of a request (R249, Table 11-9). -/
structure ProvFrame where
  /-- logical cluster -/
  cluster : Nat := 0
  /-- layer -/
  layer : Nat := 0
  /-- stack -/
  stack : Nat := 0
  /-- granule index of its frame row -/
  granule : Nat := 0
  /-- row granules -/
  rows : Nat := 0
  deriving DecidableEq, Repr, Inhabited

/-- A GATHER that a commit still owes: the accepted nodes of one path whose entries land in one page of one layer (R253). -/
structure GatherDue where
  /-- request slot -/
  slot : Nat := 0
  /-- stack that holds both frames -/
  cluster : Nat := 0
  /-- row granule of the provisional frame -/
  src : Nat := 0
  /-- row granule of the page frame -/
  dst : Nat := 0
  /-- cache format of both, 1 or 2 -/
  fmt : Nat := 1
  /-- (tree node, position mod 128) of the entries it moves -/
  lanes : List (Nat × Nat) := []
  /-- planes still to move: 1 K, 2 V, 3 both -/
  planes : Nat := 3
  deriving DecidableEq, Repr, Inhabited

/-- Request Table entry (R55, Table 3-1, 03_requests.md) with the objects the device keeps for the request (R271, Table 11-9). -/
structure Request where
  /-- [3:0] of byte 0 -/
  state : ReqState := .free
  /-- 3 bits -/
  priority : Nat := 0
  /-- rflags -/
  flags : ReqFlags := {}
  /-- 32 bits (R71) -/
  committedLen : Nat := 0
  /-- 32 bits (R68) -/
  nextSeq : Nat := 0
  /-- 32 bits -/
  promptLen : Nat := 0
  /-- tier-1 address of the page list -/
  pageRoot : Nat := 0
  /-- 64 bits, Invar ns, 0 none -/
  deadline : Nat := 0
  /-- 16 bits -/
  tenant : Nat := 0
  /-- 16 bits -/
  domain : Nat := 0
  /-- 4 bits -/
  modelSlot : Nat := 0
  /-- alloy[15] -/
  alloyEn : Bool := false
  /-- alloy[11:0] -/
  alloyId : Nat := 0
  /-- bound generation -/
  alloyGen : Nat := 0
  /-- 64 bits -/
  promptAddr : Nat := 0
  /-- 64 bits -/
  ringAddr : Nat := 0
  /-- 6 to 16 -/
  ringLog2 : Nat := 0
  /-- 0 to 15 (R235) -/
  withheld : Nat := 0
  /-- 32 bits (R69) -/
  creditCount : Nat := 0
  /-- 64 bits (R77) -/
  timer : Nat := 0
  /-- 32 bits -/
  holdMs : Nat := 0
  /-- 32 bits -/
  ttlS : Nat := 0
  /-- sampler seed -/
  seed : BitVec 64 := 0
  /-- bytes 88-119 -/
  sampler : SamplerParams := {}
  /-- eight end ids -/
  endIds : List Nat := []
  /-- tier-1 address of the auxiliary block -/
  auxRoot : Nat := 0
  /-- bytes 160-175 -/
  spec : SpecPolicy := {}
  /-- tier-1 address of the draft block -/
  draftRoot : Nat := 0
  /-- generated tokens committed -/
  newCount : Nat := 0
  /-- maximum new tokens -/
  maxNew : Nat := 0
  /-- 64 bits -/
  admitTick : Nat := 0
  /-- 64 bits (R374) -/
  commitTick : Nat := 0
  /-- 64 bits -/
  importHandle : Nat := 0
  /-- opaque -/
  userTag : BitVec 64 := 0
  /-- state before PAUSED or PARKED -/
  priorState : ReqState := .free
  /-- host port bound (R348) -/
  port : Nat := 0
  /-- stop sequences of the auxiliary block (R221) -/
  stops : List (List Nat) := []
  /-- logit bias entries (R221) -/
  bias : List (Nat × BitVec 32) := []
  /-- allowed-token bitmap (R221) -/
  allowed : Nat := 0
  /-- seen-set, oldest first, at most 4,096 (R222) -/
  seen : List Nat := []
  /-- draft text of source 0x03 (R241) -/
  draftText : List Nat := []
  /-- the prompt as the device reads it from the host buffer R64 keeps unchanged -/
  prompt : List Nat := []
  /-- generated tokens committed, in order; the last is the pending token (R71) -/
  generated : List Nat := []
  /-- committed tokens still withheld (R235) -/
  outs : List OutToken := []
  /-- page list (R270) -/
  pages : List PageRef := []
  /-- draft model's page list (R270) -/
  draftPages : List PageRef := []
  /-- carried scales (R185) -/
  scales : List CarriedScale := []
  /-- carried maxima (R130) -/
  maxima : List CarriedMax := []
  /-- tier-1 granules charged for the objects of Table 11-9 -/
  granules : Nat := 0
  /-- where its page list, auxiliary block, draft block and carried-estimate records lie: (stack, first granule, count) (Table 11-9) -/
  objects : List (Nat × Nat × Nat) := []
  /-- provisional frames (R249) -/
  prov : List ProvFrame := []
  /-- draft provisional frames (R249) -/
  draftProv : List ProvFrame := []
  /-- identities of the devices that hold its shards, home first; empty when all of it lies here (R47, R49) -/
  shards : List Nat := []
  /-- rebuilt by RECOVER (R378) -/
  recovered : Bool := false
  /-- generated tokens before which no stop match may begin (R379) -/
  stopFloor : Nat := 0
  /-- positions of the recovery context still prefilled without sampling, 0 for an ordinary request (R378) -/
  recoverLen : Nat := 0
  /-- switched generation under FOLLOW (R302) -/
  alloyFollowed : Bool := false
  /-- status fixed at close (R80) -/
  closeStatus : Nat := 0
  /-- sequence number of the first of its stream entries whose write failed (R344) -/
  failedSeq : Option Nat := none
  /-- status of a fault that closes it in step 4 of R80, 0 for none -/
  faultDue : Nat := 0
  /-- stopped for migration (R381) -/
  migrating : Bool := false
  /-- tree built for the next row: (parent, token) per node (R243) -/
  probeTree : List (Nat × Nat) := []
  /-- the MODEL's own field: Invar at which IMPORTING began, from which the import time-out runs (R73) -/
  importFrom : Nat := 0
  /-- its shipment has failed and R73 is still to apply (R73, R335) -/
  importFailed : Bool := false
  deriving DecidableEq, Repr, Inhabited

/-- A submission ring (R56, R57, 03_requests.md). -/
structure Ring where
  /-- registered through Sceol -/
  registered : Bool := false
  /-- 64 bits, host address -/
  addr : Nat := 0
  /-- 6 to 16 -/
  sizeLog2 : Nat := 0
  /-- 64 bits -/
  headAddr : Nat := 0
  /-- 32-bit free-running count -/
  consumed : Nat := 0
  /-- 32-bit free-running count, last valid -/
  tail : Nat := 0
  /-- bound host port (R348) -/
  port : Nat := 0
  /-- R56 -/
  stopped : Bool := false
  /-- (tail, stamp) of doorbells not yet wholly taken (R30, R57) -/
  marks : List (Nat × Nat) := []
  /-- the head word is still to be written in this window (R56) -/
  headDue : Bool := false
  deriving DecidableEq, Repr, Inhabited

/-- A host write the device has posted (R345, R374, 15_host_ports.md, 17_faults.md). -/
structure HostWrite where
  /-- port it was issued on -/
  port : Nat := 0
  /-- host address -/
  addr : Nat := 0
  /-- bytes written -/
  bytes : List (BitVec 8) := []
  /-- tick of the commit window that made it -/
  tick : Nat := 0
  /-- its flush read has completed (R345) -/
  confirmed : Bool := false
  /-- request slot plus one, 0 for a write of no request -/
  slot : Nat := 0
  /-- tick in which it was last issued on its port (R345, R349) -/
  issued : Nat := 0
  deriving DecidableEq, Repr, Inhabited

/-- The RW configuration registers of control space, as the configuration commands write them (R362). -/
structure Registers where
  /-- SV_PLAN_CTL (R112, Table 4-4) -/
  planCtl : BitVec 32 := 0x00084000#32
  /-- SV_PREFILL_CTL (R112, Table 4-5) -/
  prefillCtl : BitVec 32 := 0x00080040#32
  /-- SV_COST_W (R112, Table 4-6) -/
  costW : BitVec 32 := 0x00101010#32
  /-- SV_PWR_CTL (R112, Table 4-7) -/
  pwrCtl : BitVec 32 := 0x00000103#32
  /-- SV_SPEC_CTL (R257, Table 10-4) -/
  specCtl : BitVec 32 := 0x00000119#32
  /-- BU_CFG of CL0 to CL15 (R144, Table 5-14) -/
  buCfg : List (BitVec 32) := List.replicate 16 0x00600300#32
  /-- BU_SCRUB of CL0 to CL15 (R144, Table 5-16) -/
  buScrub : List (BitVec 32) := List.replicate 16 0x0000103C#32
  /-- MX_CFG of CL0 to CL15 (R172, Table 6-13) -/
  mxCfg : List (BitVec 32) := List.replicate 16 0x00080200#32
  /-- QZ_CTL (R196, Table 7-7) -/
  qzCtl : BitVec 32 := 0x00000001#32
  /-- HB_STORE_CTL (R218, Table 8-8) -/
  storeCtl : BitVec 32 := 0x000103E8#32
  /-- HB_CLASS_CFG of classes 0 to 7 in MiB (R218, Table 8-9; values of R204, Table 8-2) -/
  classCfg : List (BitVec 32) := [0x00880400#32, 0x00100080#32, 0x00100080#32, 0x00080020#32, 0x00140040#32, 0x00040040#32, 0x00060020#32, 0x00080020#32]
  /-- TM_CTL (R288, Table 11-18) -/
  tmCtl : BitVec 32 := 0x00010400#32
  /-- TM_T2_CTL (R288, Table 11-19) -/
  t2Ctl : BitVec 32 := 0x00320005#32
  /-- TM_MATCH_CTL (R288, Table 11-20) -/
  matchCtl : BitVec 32 := 0x00001000#32
  /-- GL_CTL (R336, Table 14-13) -/
  glCtl : BitVec 32 := 0x00013201#32
  /-- GL_VIOL_CFG (R336, Table 14-14) -/
  glViol : BitVec 32 := 0x00640010#32
  /-- GL_SHIP_CTL (R336, Table 14-15) -/
  glShip : BitVec 32 := 0x27100020#32
  /-- HX_CTL (R354, Table 15-8) -/
  hxCtl : BitVec 32 := 0x00000003#32
  /-- MD_CTL (R305, Table 12-9) -/
  mdCtl : BitVec 32 := 0x00001000#32
  /-- SC_CTL (R370, Table 16-10) -/
  scCtl : BitVec 32 := 0x000007D0#32
  deriving DecidableEq, Repr, Inhabited

/-- Tenant settings (R91 Table 4-1, 04_step_plans.md; R280 Table 11-13, 11_tiers.md). -/
structure Tenant where
  /-- may be named -/
  enabled : Bool := false
  /-- 1 to 65,535 -/
  weight : Nat := 1
  /-- 0 to 7 -/
  maxClass : Nat := 3
  /-- 0 means no limit -/
  budgetTokens : Nat := 0
  /-- 1 to 65,535 -/
  windowTicks : Nat := 100
  /-- organisation -/
  org : Nat := 0
  /-- 0 means no limit -/
  t1QuotaMib : Nat := 0
  /-- 0 means no limit -/
  t2QuotaMib : Nat := 0
  deriving DecidableEq, Repr, Inhabited

/-- Sharing-domain settings (R273, Table 11-10, 11_tiers.md). -/
structure Domain where
  /-- may be named -/
  enabled : Bool := false
  /-- tenant charged -/
  owner : Nat := 0
  /-- 0 open to owner only -/
  org : Nat := 0
  /-- evict: false demote, true drop -/
  dropPolicy : Bool := false
  /-- HMAC key -/
  key : BitVec 256 := 0
  /-- changes of key made, so that a change to an equal key is seen (R273) -/
  keyGen : Nat := 0
  deriving DecidableEq, Repr, Inhabited

/-- One row's step-attempt as the step result buffer holds it (R34). -/
structure Attempt where
  /-- request slot -/
  slot : Nat := 0
  /-- completion stamp, Invar ns -/
  stamp : Nat := 0
  /-- a stamp has been recorded -/
  done : Bool := false
  /-- accepted path: (token, FP16 log-probability, tree node that carried it) -/
  path : List (Nat × BitVec 16 × Nat) := []
  /-- a candidate record carried the nonfinite flag (R232) -/
  nonfinite : Bool := false
  /-- made with the BF16 unembedding (R232) -/
  bf16 : Bool := false
  /-- read poisoned or uncorrectable data (R159, R199, R384) -/
  poisoned : Bool := false
  /-- its job was torn down (R109), lost a semaphore (R216) or its pair failed (R395) -/
  faulted : Bool := false
  /-- largest per-token pairs of the positions made committed, each times 1.25 (R187) -/
  scales : List CarriedScale := []
  /-- largest M of the positions made committed (R130) -/
  maxima : List CarriedMax := []
  /-- cluster nanoseconds charged (R95) -/
  clusterNs : Nat := 0
  /-- bank-unit nanoseconds charged (R95) -/
  bankNs : Nat := 0
  /-- Central Store bytes charged (R95) -/
  hubBytes : Nat := 0
  deriving DecidableEq, Repr, Inhabited

/-- A row of a step plan (R82, R84, 04_step_plans.md). -/
structure PlanRow where
  /-- request slot, or 1,048,576 plus the page-group handle of a rebuild row -/
  slot : Nat := 0
  /-- decode, prefill or rebuild -/
  kind : RowKind := .decode
  /-- row tokens -/
  tokens : Nat := 0
  /-- job -/
  modelSlot : Nat := 0
  /-- priority class -/
  cls : Nat := 0
  /-- tenant -/
  tenant : Nat := 0
  /-- tentative virtual time just after the row was added (R99) -/
  vtTent : Nat := 0
  /-- depth limit of the row's tree (R246, R249) -/
  depth : Nat := 0
  /-- listed by a SHARD_PLAN or sent in one, so that R99 removes nothing of it (R101) -/
  sharded : Bool := false
  /-- runs the BF16 unembedding (R232) -/
  bf16 : Bool := false
  deriving DecidableEq, Repr, Inhabited

/-- The job of one model slot while its kernels run (R83, R104). -/
structure Job where
  /-- model slot -/
  modelSlot : Nat := 0
  /-- number of kernels, L + 2 -/
  kernels : Nat := 0
  /-- ordinal of the running or next kernel -/
  next : Nat := 0
  /-- slots of its rows in the order in which its passes take them (R304) -/
  rows : List Nat := []
  /-- a kernel of it is running -/
  active : Bool := false
  /-- its rows include class 7 -/
  urgent : Bool := false
  /-- torn down (R109) -/
  faulted : Bool := false
  /-- ran to its end -/
  finished : Bool := false
  /-- tier-1 ranges granted: (cluster, first row granule, count) (R109) -/
  t1 : List (Nat × Nat × Nat) := []
  /-- scratchpad regions granted: (cluster, first 256 B unit, count) (R127) -/
  sp : List (Nat × Nat × Nat) := []
  /-- semaphores granted to its kernels at plan time (R216) -/
  sems : List Nat := []
  /-- a kernel of it was stopped before its end and has not been measured (R95) -/
  stopped : Bool := false
  /-- ACT_DATA packets that its next kernel still waits for: while there are any, it has no kernel ready (R104) -/
  waits : Nat := 0
  deriving DecidableEq, Repr, Inhabited

/-- A mailbox command the device has taken and not completed (R356). -/
structure MbCommand where
  /-- mailbox slot -/
  slot : Nat := 0
  /-- 16 bits (Table 16-3) -/
  opcode : Nat := 0
  /-- 8 bits -/
  tag : Nat := 0
  /-- Invar arrival stamp of its doorbell -/
  stamp : Nat := 0
  /-- arrival port -/
  port : Nat := 0
  /-- 224 payload bytes as handed over -/
  payload : List (BitVec 8) := []
  /-- payload bytes in the command, from its header -/
  length : Nat := 0
  /-- returned unchanged -/
  hostRef : BitVec 32 := 0
  /-- its effect has begun to commit (R360) -/
  applied : Bool := false
  /-- progress of a class-L command -/
  phase : Nat := 0
  /-- what its progress concerns: model slot, Alloy generation, entry count -/
  aux : Nat := 0
  /-- its place in the order in which host events arrived (R42) -/
  arrival : Nat := 0
  deriving DecidableEq, Repr, Inhabited

/-- Event record (R364, Table 16-5). -/
structure EventRec where
  /-- 16 bits -/
  code : Nat := 0
  /-- 16 bits -/
  arg16 : Nat := 0
  /-- 32 bits -/
  arg32 : Nat := 0
  /-- Invar instant -/
  stamp : Nat := 0
  deriving DecidableEq, Repr, Inhabited

/-- A firmware image in flash (R367, R407). -/
structure FwImage where
  /-- verified -/
  valid : Bool := false
  /-- fw_version -/
  version : Nat := 0
  /-- security version -/
  svn : Nat := 0
  /-- hflags[0] -/
  raiseSvn : Bool := false
  /-- measured-boot records of its components (R409) -/
  digests : List (Nat × BitVec 384) := []
  deriving DecidableEq, Repr, Inhabited

/-- Taint log entry (R134, Table 5-12). -/
structure TaintEntry where
  /-- 6 bits -/
  column : Nat := 0
  /-- 0 to 23 -/
  rowOffset : Nat := 0
  /-- 0 K, 1 V, 2 sidecar, 3 scrub, 4 copy source, 5 gather mismatch -/
  kind : Nat := 0
  /-- frame row or first row -/
  row : Nat := 0
  /-- w of sets 0 to 7 for kind 1 -/
  w : List (BitVec 16) := []
  /-- the MODEL's own field: which PASS since the last drain logged it, counted from 0 (R135) -/
  pass : Nat := 0
  deriving DecidableEq, Repr, Inhabited

/-- A column whose cells, TSVs or both return another word than the encoder wrote (R134, R383). -/
structure BadColumn where
  /-- logical bank -/
  bank : Nat := 0
  /-- row of the bank -/
  row : Nat := 0
  /-- column 0 to 63 -/
  column : Nat := 0
  /-- the 36 bytes read: 32 data bytes and 4 check bytes (R13) -/
  word : List (BitVec 8) := []
  deriving DecidableEq, Repr, Inhabited

/-- A command in the queue of a bank-unit sequencer (R122, R125). -/
structure BuCmd where
  /-- opcode of Table 5-7, or 16 for KVFLUSH, which enters the same queue (R125) -/
  op : Nat := 0
  /-- model slot of the job, 16 from control space, 17 for a GATHER of a commit -/
  job : Nat := 0
  /-- command word -/
  word : BitVec 128 := 0
  /-- extension word -/
  ext : BitVec 128 := 0
  /-- payload words -/
  payload : List (BitVec 128) := []
  /-- QLOAD: tree node of the query (R247) -/
  node : Nat := 0
  /-- QLOAD: page group whose rebuild row the query is of, if it is of one (R388) -/
  rebuild : Option Nat := none
  /-- QLOAD: the query is of the draft model (R245) -/
  draft : Bool := false
  /-- KVFLUSH: first row granule -/
  first : Nat := 0
  /-- KVFLUSH: row granules -/
  count : Nat := 0
  /-- columns that read otherwise than written -/
  bad : List BadColumn := []
  deriving DecidableEq, Repr, Inhabited

/-- One query set: 256 INT8 elements and the set registers (R118, Table 5-4). -/
structure QuerySet where
  /-- elements, absent ones zero -/
  q : List (BitVec 8) := []
  /-- scale mantissa -/
  qmant : BitVec 16 := 0
  /-- 0 to 31 -/
  qshift : Nat := 0
  /-- sflags[0] -/
  valid : Bool := false
  /-- carried maximum, Q7.8 -/
  cmax : BitVec 16 := 0
  /-- layer -/
  layer : Nat := 0
  /-- head and D -/
  head : BitVec 8 := 0
  /-- dead positions begin -/
  limit : Nat := 0
  /-- request slot -/
  owner : Nat := 0
  /-- sharing domain -/
  domain : Nat := 0
  /-- live lanes -/
  nodeMask : BitVec 64 := 0
  /-- the MODEL's own field: page group whose rebuild row the query is of (R388) -/
  rebuild : Option Nat := none
  /-- the MODEL's own field: a query of the draft model (R245) -/
  draft : Bool := false
  deriving DecidableEq, Repr, Inhabited

/-- Accumulators and flags of one set (R113, Table 5-1). -/
structure SetAcc where
  /-- 128 accumulators, absent ones zero -/
  acc : List (BitVec 32) := []
  /-- probability sum -/
  psum : BitVec 32 := 0
  /-- observed maximum, zero at reset; ACLR sets 0x8000 -/
  omax : BitVec 16 := 0
  /-- OVERRANGE -/
  overRange : Bool := false
  /-- UNDERRANGE -/
  underRange : Bool := false
  /-- any token live since ACLR -/
  live : Bool := false
  /-- PASSes since ACLR, 10 bits -/
  passes : Nat := 0
  deriving DecidableEq, Repr, Inhabited

/-- State of one bank unit (R113, Table 5-1, 05_bank_units.md). -/
structure BankUnit where
  /-- query buffer, 8 sets -/
  sets : List (Nat × QuerySet) := []
  /-- codebook register -/
  codebook : List (BitVec 8) := []
  /-- Electrum tables, the front copies the lanes read (R113, R115) -/
  front : List (List (BitVec 16)) := []
  /-- Electrum tables, the back copies the builder writes (R113, R115) -/
  back : List (List (BitVec 16)) := []
  /-- lane sums of the last K phase -/
  lanes : List (BitVec 24) := []
  /-- score/probability buffer of the last PASS -/
  scores : List (List (BitVec 16)) := []
  /-- accumulators, sums, maxima, flags, counts; at reset omax is zero (R113) -/
  accs : List (Nat × SetAcc) := []
  /-- exponent table -/
  exptab : List (BitVec 16) := []
  /-- exponent table valid bit -/
  exptabValid : Bool := false
  /-- taint log, 16 entries -/
  taints : List TaintEntry := []
  /-- taint overflow bit -/
  taintOvf : Bool := false
  /-- gather list, 16 entries -/
  gather : List (BitVec 16) := []
  /-- passes since the last drain: (frame row, set mask, format, query sets as loaded) (R135, R136) -/
  sinceDrain : List (Nat × Nat × Nat × List (Nat × QuerySet)) := []
  /-- Invar from which the refresh interval in progress is counted (R133) -/
  refreshed : Nat := 0
  /-- Invar at which the burst in progress began (R133) -/
  burstFrom : Nat := 0
  /-- nanoseconds from there to the end of its last command; 0 between bursts (R133) -/
  burst : Nat := 0
  /-- taint entries that a TLOGRD has taken from the log since the last drain, still to be corrected (R135, R143) -/
  pulled : List TaintEntry := []
  /-- a TLOGRD has taken a set overflow bit since the last drain (R136) -/
  pulledOvf : Bool := false
  /-- next row of the patrol scrub (R143) -/
  patrolRow : Nat := 0
  deriving DecidableEq, Repr, Inhabited

/-- An entry of the cache append buffer (R138). -/
structure AppendEntry where
  /-- row-granule index of its frame -/
  row : Nat := 0
  /-- token in the frame -/
  token : Nat := 0
  /-- frame format -/
  isInt8 : Bool := false
  /-- head dimension D -/
  dim : Nat := 0
  /-- K codes -/
  kcodes : List (BitVec 8) := []
  /-- V codes -/
  vcodes : List (BitVec 8) := []
  /-- K scale mantissa -/
  kmant : BitVec 16 := 0
  /-- V scale mantissa -/
  vmant : BitVec 16 := 0
  deriving DecidableEq, Repr, Inhabited

/-- A drain record as the sequencer returned it, kept for the combination (R127, R128, Table 5-8). -/
structure DrainRec where
  /-- model slot of the job -/
  job : Nat := 0
  /-- logical bank -/
  bank : Nat := 0
  /-- device address of the record (R127) -/
  addr : Nat := 0
  /-- query sets as loaded when the bank was drained -/
  sets : List (Nat × QuerySet) := []
  /-- accumulators and flags as drained -/
  accs : List (Nat × SetAcc) := []
  /-- taint entries -/
  taints : List TaintEntry := []
  /-- taint_ovf -/
  taintOvf : Bool := false
  /-- passes the record covers -/
  passed : List (Nat × Nat × Nat × List (Nat × QuerySet)) := []
  deriving DecidableEq, Repr, Inhabited

/-- One query's attention output (R128). -/
structure AttnOut where
  /-- layer -/
  layer : Nat := 0
  /-- query head -/
  head : Nat := 0
  /-- row of the plan: request slot, or 1,048,576 plus the page-group handle of a rebuild row -/
  owner : Nat := 0
  /-- limit of its set, its position plus one (R121) -/
  limit : Nat := 0
  /-- node mask of its set -/
  nodeMask : BitVec 64 := 0
  /-- elements o_e, FP32 -/
  o : List (BitVec 32) := []
  deriving DecidableEq, Repr, Inhabited

/-- The bank-unit sequencer and stack side of one cluster (05_bank_units.md). -/
structure BankCluster where
  /-- bank units by logical bank; one not listed is as reset (R113) -/
  units : List (Nat × BankUnit) := []
  /-- words written to BU_CMD that do not yet make a whole command (Table 5-7, R144) -/
  port : List (BitVec 128) := []
  /-- cache append buffer, 4,096 entries (R138) -/
  append : List AppendEntry := []
  /-- drain records of the layer, combined by LAYER_COMBINE (R128) -/
  drains : List DrainRec := []
  /-- attention outputs of the last combination, query by query (R128) -/
  outputs : List AttnOut := []
  /-- commands taken that have not started, in queue order (R125) -/
  queue : List BuCmd := []
  /-- Invar from which the controller refreshes the stack: its banks owe nothing before it (R133) -/
  refreshFrom : Nat := 0
  /-- BU_RCHK_ADDR, 64 bits (R140) -/
  rchkAddr : Nat := 0
  /-- BU_RCHK_INFO (R140, Table 5-17) -/
  rchkInfo : BitVec 32 := 0
  /-- BU_STAT.hot (R133) -/
  hot : Bool := false
  /-- BU_STAT.streaming, banks streaming now (R125) -/
  streaming : Nat := 0
  /-- BU_STAT.tload_valid -/
  tloadValid : Bool := false
  /-- spare banks brought in: (logical bank, spare) (R123, R392) -/
  spareMap : List (Nat × Nat) := []
  deriving DecidableEq, Repr, Inhabited

/-- An ingot in staging or in weight registers (R151, R152, R155). -/
structure Ingot where
  /-- format -/
  fmt : Nat := 0
  /-- reduction group selector -/
  gsel : Nat := 0
  /-- hflags[0] -/
  zp : Bool := false
  /-- hflags[1] -/
  outl : Bool := false
  /-- layer -/
  layer : Nat := 0
  /-- tensor -/
  tensor : Nat := 0
  /-- valid reduction rows minus 1 -/
  krows : Nat := 0
  /-- valid output columns minus 1 -/
  ncols : Nat := 0
  /-- scale exponent -/
  wexp : BitVec 8 := 0
  /-- weight zero point -/
  wzp : BitVec 8 := 0
  /-- outlier map -/
  omap : BitVec 128 := 0
  /-- 16-entry codebook -/
  cb16 : List (BitVec 8) := []
  /-- 256-entry codebook -/
  cb256 : List (BitVec 8) := []
  /-- group scales, group-major -/
  gscale : List (BitVec 16) := []
  /-- column sums -/
  colsum : List (BitVec 32) := []
  /-- code plane -/
  codes : List (BitVec 8) := []
  /-- R159 -/
  poisoned : Bool := false
  deriving DecidableEq, Repr, Inhabited

/-- An ingot fetch in staging (R155). -/
structure Staged where
  /-- directory ordinal -/
  ordinal : Nat := 0
  /-- model slot -/
  model : Nat := 0
  /-- kernel ordinal -/
  kernel : Nat := 0
  /-- matrix unit named by the directory -/
  mu : Nat := 0
  /-- row-granule index -/
  granule : Nat := 0
  /-- the fetch has completed -/
  arrived : Bool := false
  /-- staging half -/
  half : Bool := false
  /-- contents -/
  ingot : Ingot := {}
  deriving DecidableEq, Repr, Inhabited

/-- One matrix unit (R145, R149). -/
structure MatrixUnit where
  /-- front weight and scale registers -/
  front : Option Ingot := none
  /-- back weight and scale registers -/
  back : Option Ingot := none
  deriving DecidableEq, Repr, Inhabited

/-- One accumulation group (R162). -/
structure AccGroup where
  /-- Table 6-10 -/
  state : AccState := .free
  /-- mode: false INT32, true FP32 -/
  fp32 : Bool := false
  /-- model slot of the job that opened it -/
  owner : Nat := 0
  /-- lane (r, n) at 128 r + n; lanes not listed are zero -/
  lanes : List (Nat × BitVec 32) := []
  deriving DecidableEq, Repr, Inhabited

/-- Hold-table entry (R170). -/
structure Hold where
  /-- model slot of the job -/
  job : Nat := 0
  /-- first row granule -/
  first : Nat := 0
  /-- row granules -/
  count : Nat := 0
  /-- made by an ingot fetch -/
  ingot : Bool := false
  /-- its directory ordinal -/
  ordinal : Nat := 0
  deriving DecidableEq, Repr, Inhabited

/-- A matrix command that waits at its cluster's sequencer (R156, R160). -/
structure MxCmd where
  /-- model slot of the job -/
  job : Nat := 0
  /-- opcode -/
  op : Nat := 0
  /-- command word -/
  word : BitVec 128 := 0
  /-- request slots of the activation rows of an MPASS -/
  rows : List Nat := []
  deriving DecidableEq, Repr, Inhabited

/-- Matrix units, loader and hold table of one cluster (06_matrix_units.md). -/
structure MatrixCluster where
  /-- MU0 to MU11; one not listed is clear -/
  units : List (Nat × MatrixUnit) := []
  /-- group 8 m + g; one not listed is FREE with zero lanes -/
  groups : List (Nat × AccGroup) := []
  /-- staged and outstanding fetches in issue order (R155) -/
  staging : List Staged := []
  /-- next directory ordinal an ILOAD may name (R156) -/
  nextOrdinal : Nat := 0
  /-- MX_STAT.fill_half -/
  fillHalf : Bool := false
  /-- hold table, 1,024 entries (R170) -/
  holds : List Hold := []
  /-- MX_FAULT_ADDR, 64 bits -/
  faultAddr : Nat := 0
  /-- MX_FAULT_INFO (Table 6-15) -/
  faultInfo : BitVec 32 := 0
  /-- KiB allotted in each staging half since it last returned to the loader (R155) -/
  halfUsed : List Nat := [0, 0]
  /-- commands that wait for an ingot, or behind one of their unit that does (R156, R160) -/
  queue : List MxCmd := []
  /-- groups whose lanes the save area holds: their mode and owner (R106) -/
  save : List (Nat × AccGroup) := []
  /-- dirty scratchpad regions that the save area holds: (first 256 B unit, units) (R105, R106) -/
  savedScratch : List (Nat × Nat) := []
  deriving DecidableEq, Repr, Inhabited

/-- A vector engine: 0 to 15 cluster pipes, 16 to 25 hub engines (R210, R212). -/
structure VectorEngine where
  /-- 256 constant registers -/
  consts : List (Nat × BitVec 32) := []
  /-- 4 row registers for each row, by its slot and node; those of a row not listed are zero (R211) -/
  rowRegs : List (Nat × List (BitVec 32)) := []
  /-- function tables loaded by kernels; one not listed holds its firmware contents (R212) -/
  tables : List (Nat × List (BitVec 8)) := []
  deriving DecidableEq, Repr, Inhabited

/-- A store request that waits (R206). -/
structure Waiter where
  /-- class -/
  cls : StoreClass := .act
  /-- blocks asked for -/
  blocks : Nat := 0
  /-- who asks -/
  holder : Nat := 0
  deriving DecidableEq, Repr, Inhabited

/-- Store blocks granted to a holder (R205, R208). -/
structure Holding where
  /-- class -/
  cls : StoreClass := .act
  /-- job (model slot) or engine -/
  holder : Nat := 0
  /-- first block of the holding -/
  first : Nat := 0
  /-- blocks -/
  blocks : Nat := 0
  deriving DecidableEq, Repr, Inhabited

/-- A hub semaphore in use (R215). -/
structure Semaphore where
  /-- 16 bits -/
  value : Nat := 0
  /-- initial value of its kernel's header (R216) -/
  initial : Nat := 0
  /-- model slot of the kernel that holds the grant -/
  job : Nat := 0
  /-- (waiter, v), first in first out -/
  waiters : List (Nat × Nat) := []
  deriving DecidableEq, Repr, Inhabited

/-- A candidate record (R225, Table 9-4, 09_sampling.md). -/
structure CandRec where
  /-- request slot of the row -/
  slot : Nat := 0
  /-- tree node -/
  node : Nat := 0
  /-- logical cluster -/
  cluster : Nat := 0
  /-- FP32 local log-sum-exp -/
  lse : BitVec 32 := 0
  /-- FP32 largest logit -/
  zmax : BitVec 32 := 0
  /-- candidates (token, adjusted logit) in order -/
  cands : List (Nat × BitVec 32) := []
  /-- cflags[0] -/
  nonfinite : Bool := false
  /-- device address of the record in the job's LOGIT blocks -/
  addr : Nat := 0
  deriving DecidableEq, Repr, Inhabited

/-- A transfer between the tiers in progress (R286). -/
structure TierMove where
  /-- 0 promotion, 1 model load, 2 Alloy load, 3 demotion -/
  kind : Nat := 0
  /-- handle; model slot; Alloy id and 4,096 times generation -/
  key : Nat := 0
  /-- priority class of the requesting request, plus one; 0 where no request asks -/
  cls : Nat := 0
  /-- its admit_tick -/
  taken : Nat := 0
  /-- bytes still to move, in units of 1/800 byte -/
  left : Nat := 0
  /-- index of the tick in whose commit window it began (R264) -/
  tick : Nat := 0
  /-- Invar by which the last of its bytes had its share of the rate; 0 before (R285) -/
  servedBy : Nat := 0
  /-- a commit window has closed over its time-out (Table 12-4, check 7) -/
  late : Bool := false
  deriving DecidableEq, Repr, Inhabited

/-- Page Group Table entry with its maps and rebuild records (R265, Table 11-4, 11_tiers.md; R388, Table 17-4, 17_faults.md). -/
structure PageGroup where
  /-- state word [63:32] -/
  incarnation : Nat := 0
  /-- state word [31:11] -/
  refs : Nat := 0
  /-- state word [7] -/
  pinned : Bool := false
  /-- state word [6] -/
  indexed : Bool := false
  /-- state word [5] -/
  rebuild : Bool := false
  /-- state word [2:0] -/
  state : GroupState := .unused
  /-- block digest -/
  digest : BitVec 128 := 0
  /-- position of token 0 -/
  start : Nat := 0
  /-- sharing domain -/
  domain : Nat := 0
  /-- tenant charged -/
  charge : Nat := 0
  /-- request slot while unpublished -/
  owner : Option Nat := none
  /-- model slot -/
  modelSlot : Nat := 0
  /-- cache format -/
  cfmt : Nat := 1
  /-- Alloy id -/
  alloyId : Nat := 0
  /-- alloy[15] -/
  alloyEn : Bool := false
  /-- bound generation -/
  alloyGen : Nat := 0
  /-- 32 bits -/
  lastUse : Nat := 0
  /-- tier-2 address of the parked copy -/
  t2Addr : Nat := 0
  /-- number of the region that holds its tier-2 granules (R283) -/
  t2Region : Nat := 0
  /-- a read of its promotion has failed and its owner closes for it (Table 11-15) -/
  readLost : Bool := false
  /-- (cluster, granule index of its map granule) (Table 11-4) -/
  map : List (Nat × Nat) := []
  /-- (cluster, granule index of frame row F) in page order (Table 11-5) -/
  frames : List (Nat × Nat) := []
  /-- token ids of the CL0 map granule (Table 11-5) -/
  tokens : List Nat := []
  /-- positions of the block that began a commit (Table 17-4) -/
  cbound : List Nat := []
  /-- rebuild record holds a complete snapshot (Table 17-4, R389) -/
  snapValid : Bool := true
  /-- snapshot of carried scales (Table 17-4) -/
  snapScales : List CarriedScale := []
  /-- snapshot of carried maxima (Table 17-4) -/
  snapMaxima : List CarriedMax := []
  /-- chain length: blocks before it -/
  prefixLen : Nat := 0
  /-- digest of the block before it -/
  prevDigest : BitVec 128 := 0
  /-- granules of its page frames -/
  frameGranules : Nat := 0
  /-- granules of its maps and rebuild records -/
  metaGranules : Nat := 0
  /-- group of the draft model, never published (R270) -/
  draft : Bool := false
  /-- tick of its publication mark (R277) -/
  markTick : Option Nat := none
  /-- sidecar rewrites ended (R277) -/
  rewritten : Bool := false
  /-- tier-2 granules held -/
  t2Granules : Nat := 0
  /-- tenant whose reclaim began its departure (R280) -/
  fillTenant : Option Nat := none
  deriving DecidableEq, Repr, Inhabited

/-- Prefix-index entry (R275, Table 11-12). -/
structure IndexEntry where
  /-- block digest -/
  digest : BitVec 128 := 0
  /-- page-group handle -/
  handle : Nat := 0
  /-- of the group -/
  incarnation : Nat := 0
  /-- sharing domain -/
  domain : Nat := 0
  /-- model slot -/
  modelSlot : Nat := 0
  /-- 32 bits -/
  lastMatch : Nat := 0
  /-- place in its bucket, 0 to 63 -/
  place : Nat := 0
  deriving DecidableEq, Repr, Inhabited

/-- A registered tier-2 region (R283). -/
structure Region where
  /-- 0 to 63 -/
  number : Nat := 0
  /-- kind 1 -/
  isFixed : Bool := false
  /-- draining flag -/
  draining : Bool := false
  /-- window offset -/
  offset : Nat := 0
  /-- bytes -/
  length : Nat := 0
  /-- host address -/
  hostAddr : Nat := 0
  deriving DecidableEq, Repr, Inhabited

/-- Freed tier-1 granules whose fill has not ended (R263). -/
structure PendingFill where
  /-- granules -/
  granules : Nat := 0
  /-- tenant still charged, if any -/
  tenant : Option Nat := none
  /-- tenant whose own groups the departure frees (R280) -/
  forTenant : Option Nat := none
  /-- handle of a FREEING group -/
  group : Option Nat := none
  /-- model slot being emptied -/
  slotOf : Option Nat := none
  /-- tick after whose execute window it may end -/
  endsAt : Nat := 0
  /-- row granules it writes with zero, where a record named them: (cluster, first, count) -/
  spans : List (Nat × Nat × Nat) := []
  deriving DecidableEq, Repr, Inhabited

/-- Kernel header (R291, Table 12-5). -/
structure Kernel where
  /-- 0 embedding, 1 layer, 2 output -/
  kkind : Nat := 0
  /-- layer index, 0xFFFF for kinds 0 and 2 -/
  layer : Nat := 0
  /-- ACT blocks per job -/
  actFixed : Nat := 0
  /-- ACT blocks per 16 row tokens -/
  actPer16 : Nat := 0
  /-- LOGIT blocks per row -/
  logitPerRow : Nat := 0
  /-- semaphores, 0 to 64 -/
  nsem : Nat := 0
  /-- initial value -/
  semInit : Nat := 0
  deriving DecidableEq, Repr, Inhabited

/-- Ingot directory entry (R154, Table 6-6). -/
structure DirEntry where
  /-- row-granule index -/
  granule : Nat := 0
  /-- matrix unit -/
  mu : Nat := 0
  /-- expected format -/
  fmt : Nat := 0
  deriving DecidableEq, Repr, Inhabited

/-- Cache format record (R176, Table 7-2). -/
structure CacheFmt where
  /-- 1 codebook, 2 INT8 -/
  fmt : Nat := 1
  /-- 0 D 64, 1 D 128, 2 D 256 -/
  dsel : Nat := 1
  /-- K scale exponent -/
  ek : BitVec 8 := 0
  /-- V scale exponent -/
  ev : BitVec 8 := 0
  /-- K codebook -/
  cbk : List (BitVec 8) := []
  /-- V codebook -/
  cbv : List (BitVec 8) := []
  deriving DecidableEq, Repr, Inhabited

/-- Tensor-slot record (R182, Table 7-5). -/
structure TensorSlot where
  /-- mode[0] -/
  carried : Bool := false
  /-- activation zero point -/
  zx : BitVec 8 := 0
  /-- initial carried mantissa -/
  initMant : BitVec 16 := 0
  /-- initial carried exponent -/
  initExp : BitVec 8 := 0
  /-- outlier channels -/
  nout : Nat := 0
  /-- tier-1 address of the channel list -/
  outList : Nat := 0
  deriving DecidableEq, Repr, Inhabited

/-- What the cache of a draft model needs of its image (section 0x09, R270, R293). -/
structure DraftModel where
  /-- L -/
  layers : Nat := 0
  /-- key/value heads -/
  kvHeads : Nat := 0
  /-- query heads per key/value head -/
  groupQ : Nat := 0
  /-- cache format records -/
  cacheFmts : List CacheFmt := []
  /-- tensor slots -/
  tslots : List TensorSlot := []
  /-- page order: (layer, head) per cluster -/
  pageOrder : List (List (Nat × Nat)) := []
  deriving DecidableEq, Repr, Inhabited

/-- What the header, directory and sections of a model image state (R290, Tables 12-2, 12-3). -/
structure ModelInfo where
  /-- tier-2 address -/
  addr : Nat := 0
  /-- image bytes -/
  length : Nat := 0
  /-- L -/
  layers : Nat := 0
  /-- V -/
  vocab : Nat := 0
  /-- key/value heads -/
  kvHeads : Nat := 0
  /-- query heads per key/value head -/
  groupQ : Nat := 0
  /-- iflags[0] -/
  draft : Bool := false
  /-- iflags[1] -/
  bf16 : Bool := false
  /-- iflags[2] -/
  alloyShapes : Bool := false
  /-- model fingerprint -/
  fp : BitVec 256 := 0
  /-- section 0x01 -/
  cacheFmts : List CacheFmt := []
  /-- section 0x02 -/
  tslots : List TensorSlot := []
  /-- section 0x03 -/
  initMax : List (BitVec 16) := []
  /-- section 0x04: (layer, head) per cluster -/
  pageOrder : List (List (Nat × Nat)) := []
  /-- section 0x05 -/
  kernels : List Kernel := []
  /-- section 0x06: per cluster, per kernel -/
  dirs : List (List (List DirEntry)) := []
  /-- the draft model of section 0x09 -/
  draftModel : DraftModel := {}
  /-- section 0x0A: (input, output width) of the cluster slice, per cluster and projection -/
  shapes : List (List (Nat × Nat)) := []
  /-- tier-1 granules it needs; 0 once they are released -/
  granules : Nat := 0
  /-- row granules it was placed in: (cluster, first, count) -/
  spans : List (Nat × Nat × Nat) := []
  deriving DecidableEq, Repr, Inhabited

/-- A model slot (R289). -/
structure ModelSlot where
  /-- Table 12-1 -/
  state : SlotState := .empty
  /-- last tick whose plan held its job -/
  lastUse : Nat := 0
  /-- pinned bit in force -/
  pinned : Bool := false
  /-- the image -/
  info : ModelInfo := {}
  /-- ingots and embedding rows as the golden copy holds them: (stack, granule, bytes) where they lie (R294) -/
  golden : List (Nat × Nat × List (BitVec 8)) := []
  /-- mailbox slot of the MODEL_LOAD -/
  loadMb : Option Nat := none
  /-- mailbox slots of MODEL_EVICTs that wait for EMPTY -/
  evictMbs : List Nat := []
  /-- a MODEL_LOAD that waits for this slot to become EMPTY (R292, step 5) -/
  loadNext : Option (Nat × ModelInfo) := none
  /-- tick in which it became BROKEN (R386) -/
  brokenAt : Nat := 0
  /-- poisoned ingots: (cluster, granule) not yet repaired (R385) -/
  poisoned : List (Nat × Nat) := []
  deriving DecidableEq, Repr, Inhabited

/-- A generation of an Alloy (R297). -/
structure AlloyGen where
  /-- Alloy id, 12 bits -/
  id : Nat := 0
  /-- generation 1 to 255 -/
  gen : Nat := 0
  /-- model slot -/
  modelSlot : Nat := 0
  /-- state -/
  state : GenState := .loading
  /-- tier-2 address of its image -/
  addr : Nat := 0
  /-- Alloy fingerprint -/
  fp : BitVec 256 := 0
  /-- 1 to 64 -/
  rank : Nat := 0
  /-- projections -/
  projMask : Nat := 0
  /-- 7 x FP32 -/
  alpha : List (BitVec 32) := []
  /-- granules in use -/
  granules : Nat := 0
  /-- of these on each stack -/
  perStack : List Nat := []
  /-- row granules it was placed in: (cluster, first, count) -/
  spans : List (Nat × Nat × Nat) := []
  /-- (cluster, layer, tier-1 address of the run of its factors) -/
  base : List (Nat × Nat × Nat) := []
  /-- order of acceptance, for which generation is newer -/
  order : Nat := 0
  /-- its factors as its golden copy holds them: (stack, granule, bytes) where they lie (R294) -/
  golden : List (Nat × Nat × List (BitVec 8)) := []
  deriving DecidableEq, Repr, Inhabited

/-- A Gelcon packet (R316, Table 14-6). -/
structure Packet where
  /-- Table 14-8 -/
  ptype : Nat := 0
  /-- traffic class -/
  tc : Nat := 0
  /-- hop class -/
  hop : Nat := 0
  /-- pflags[4] -/
  ordered : Bool := false
  /-- pflags[3] -/
  viaValid : Bool := false
  /-- pflags[2] -/
  urgent : Bool := false
  /-- pflags[1] -/
  viaDone : Bool := false
  /-- destination identity -/
  dst : Nat := 0
  /-- source identity -/
  src : Nat := 0
  /-- via_group -/
  viaGroup : Nat := 0
  /-- det -/
  det : Bool := false
  /-- hops taken -/
  hops : Nat := 0
  /-- det_member -/
  detMember : Nat := 0
  /-- flow label -/
  flow : Nat := 0
  /-- message tag -/
  tag : Nat := 0
  /-- per ptype -/
  addr : Nat := 0
  /-- per ptype -/
  handle : Nat := 0
  /-- payload -/
  payload : List (BitVec 8) := []
  /-- a reserved bit of the header was nonzero -/
  reservedBad : Bool := false
  /-- as it arrives: a flit's first field has located its header since the last drop on its virtual channel (R317) -/
  located : Bool := true
  deriving DecidableEq, Repr, Inhabited

/-- A sequenced flit held for resending (R312). -/
structure Flit where
  /-- 12 bits -/
  seq : Nat := 0
  /-- Table 14-4 -/
  ftype : Nat := 0
  /-- virtual channel -/
  vc : Nat := 0
  /-- first field -/
  first : Nat := 0xFF
  /-- 240 bytes, absent ones zero -/
  data : List (BitVec 8) := []
  /-- of an urgent packet (R314) -/
  urgent : Bool := false
  /-- of a packet in transit (R319) -/
  forwarded : Bool := false
  /-- of a packet that came by a local port (R323) -/
  fromLocal : Bool := false
  /-- ack field, none where ack_valid is 0 -/
  ack : Option Nat := none
  /-- lane it is put on (R311) -/
  lane : Nat := 0
  /-- in the first flit of a packet, the packet as this device held it before its hop (R329) -/
  packet : Option Packet := none
  deriving DecidableEq, Repr, Inhabited

/-- Credits and stream state of one virtual channel of a port (R313 to R317). -/
structure VcState where
  /-- DATA flits sent, 16 bits -/
  sent : Nat := 0
  /-- cumulative credits held as sender, 16 bits -/
  allowed : Nat := 0
  /-- DATA flits accepted, 16 bits -/
  received : Nat := 0
  /-- cumulative credits given as receiver, 16 bits -/
  granted : Nat := 0
  /-- credits owed -/
  owed : Nat := 0
  /-- of the credits given, those for flits of the shared pool (R314) -/
  lent : Nat := 0
  /-- flits that stay in the receive buffer for want of room in the transit partition (R319) -/
  buffered : Nat := 0
  /-- discarding until VC_RESET (Table 14-10, cause 0x01) -/
  dropping : Bool := false
  /-- discarding until the next located header (R317) -/
  resync : Bool := false
  /-- the packet whose flits arrive is urgent (R314) -/
  marked : Bool := false
  /-- the packet whose flits arrive is for this device (R319) -/
  here : Bool := true
  deriving DecidableEq, Repr, Inhabited

/-- A Gelcon port (R307, Table 14-16). -/
structure Port where
  /-- training complete -/
  trained : Bool := false
  /-- carries traffic -/
  up : Bool := false
  /-- R322 -/
  miscabled : Bool := false
  /-- R331 -/
  quarantined : Bool := false
  /-- active lanes -/
  laneMask : Nat := 0
  /-- lanes trained at link-up -/
  cabled : Nat := 0
  /-- peer identity -/
  peer : Nat := 0
  /-- violations in the window -/
  viol : Nat := 0
  /-- Invar at which the window began (R331) -/
  violStart : Nat := 0
  /-- next seq to send, 12 bits -/
  nextSeq : Nat := 0
  /-- next seq expected, 12 bits -/
  expect : Nat := 0
  /-- seq last acknowledged by the peer -/
  acked : Nat := 0xFFF
  /-- seq last accepted in order, none yet at link-up -/
  lastIn : Option Nat := none
  /-- unacknowledged flits, at most 1,024, oldest first (R312) -/
  resend : List Flit := []
  /-- a NAK is outstanding (R312) -/
  nakWait : Bool := false
  /-- Invar at which the last NAK was sent (R312) -/
  nakAt : Nat := 0
  /-- Invar at which ack last rose, or the resend buffer was last sent from empty or sent again (R312) -/
  ackAt : Nat := 0
  /-- sequenced flits put on the lanes, which gives the next one its lane (R311) -/
  turn : Nat := 0
  /-- accepted flits not yet acknowledged -/
  ackOwed : Nat := 0
  /-- virtual channels -/
  vcs : List (Nat × VcState) := []
  /-- shared pool flits free (Table 14-5) -/
  pool : Nat := 512
  /-- retired lanes (R328) -/
  retired : List Nat := []
  /-- mask that a LANE exchange has named, with the frame count from which it holds (R328) -/
  laneAt : Option (Nat × Nat) := none
  /-- frame count of the last frame word of each lane (R309) -/
  frames : List (Nat × Nat) := []
  /-- sequenced flits that wait for lanes whose frames are behind: (frame count, bytes) (R309, R311) -/
  held : List (Nat × List (BitVec 8)) := []
  /-- sequenced flits that wait for a credit or for room in the resend buffer (R312, R314) -/
  txq : List Flit := []
  /-- flits put on the lanes, oldest first; unsequenced ones have seq zero (R311) -/
  wire : List Flit := []
  deriving DecidableEq, Repr, Inhabited

/-- An open shipment (R332 to R335). -/
structure Shipment where
  /-- 64 bits -/
  handle : Nat := 0
  /-- fingerprint of the sender's model -/
  modelFp : BitVec 256 := 0
  /-- cache format -/
  cfmt : Nat := 0
  /-- blocks in the body -/
  blocks : Nat := 0
  /-- Invar at SHIP_OPEN -/
  openedAt : Nat := 0
  /-- request that claims it -/
  slot : Option Nat := none
  /-- this device is the sender -/
  outgoing : Bool := false
  /-- first granted block -/
  firstBlock : Nat := 0
  /-- window end as a body offset -/
  windowEnd : Nat := 0
  /-- end of the last block that may be granted -/
  grantEnd : Nat := 0
  /-- received body ranges [lo, hi) -/
  got : List (Nat × Nat) := []
  /-- body bytes whose frames reached tier 1 -/
  landed : Nat := 0
  /-- received body bytes not yet placed -/
  body : List (Nat × BitVec 8) := []
  /-- (block, CRC-32) of SHIP_DONE -/
  crcs : List (Nat × Nat) := []
  /-- re-grants made, at most three -/
  regrants : Nat := 0
  /-- verification passed -/
  verified : Bool := false
  /-- Invar at which the last frame was in tier 1 -/
  verifiedAt : Nat := 0
  /-- traffic class of its packets -/
  tc : Nat := 2
  /-- of an outgoing one, the identity it goes to -/
  dest : Nat := 0
  deriving DecidableEq, Repr, Inhabited

/-- MSI-X table entry (R346). -/
structure MsixEntry where
  /-- message address -/
  addr : Nat := 0
  /-- message data -/
  data : Nat := 0
  /-- vector control mask bit -/
  masked : Bool := true
  deriving DecidableEq, Repr, Inhabited

/-- A host port (R338). -/
structure HostPort where
  /-- HX_STAT.up -/
  up : Bool := false
  /-- memory space, bus mastering and MSI-X enabled (R339) -/
  memEnable : Bool := false
  /-- trained rate 16, 32 or 64 GT/s -/
  gts : Nat := 0
  /-- trained width 8 or 16 -/
  lanes : Nat := 0
  /-- its BAR0 is assigned and its memory space enabled (R340, R353) -/
  bar : Bool := false
  /-- declared down and not yet rebound (R349) -/
  declared : Bool := false
  /-- ATS translation cache: pages held, at most 4,096 (R344) -/
  cache : List Nat := []
  /-- zero-length flush reads outstanding, oldest first: (tick, host address read) (R345) -/
  flushes : List (Nat × Nat) := []
  deriving DecidableEq, Repr, Inhabited

/-- Step record (R437, Table 20-3, 20_telemetry.md). -/
structure StepCounters where
  /-- u64 -/
  ticks : Nat := 0
  /-- u64 -/
  attempts : Nat := 0
  /-- u64 -/
  committed : Nat := 0
  /-- u64 -/
  late : Nat := 0
  /-- u64 -/
  discardedEvent : Nat := 0
  /-- u64 -/
  droppedGroup : Nat := 0
  /-- u64 -/
  droppedPoison : Nat := 0
  /-- u64 -/
  nonfinite : Nat := 0
  /-- u64 -/
  genTokens : Nat := 0
  /-- u64 -/
  prefillTokens : Nat := 0
  /-- u64 -/
  treeRows : Nat := 0
  /-- u64 -/
  treeNodes : Nat := 0
  /-- u64 -/
  draftedAccepted : Nat := 0
  /-- u64 -/
  overrange : Nat := 0
  /-- u64 -/
  underrange : Nat := 0
  /-- u64 -/
  scaleFallbacks : Nat := 0
  /-- u64 -/
  preemptions : Nat := 0
  /-- u64 -/
  jobFaults : Nat := 0
  /-- u64 -/
  governorSteps : Nat := 0
  /-- u64 -/
  skippedPower : Nat := 0
  /-- u64 -/
  skippedBudget : Nat := 0
  /-- u64 -/
  skippedOther : Nat := 0
  /-- u64 -/
  cutGather : Nat := 0
  /-- u64 -/
  discardedReset : Nat := 0
  /-- u64 -/
  discardedFault : Nat := 0
  deriving DecidableEq, Repr, Inhabited

/-- Stack record (Table 20-4). -/
structure StackCounters where
  /-- u64 -/
  corrected : Nat := 0
  /-- u64 -/
  uncorrectable : Nat := 0
  /-- u64 -/
  taints : Nat := 0
  /-- u64 -/
  taintOverflows : Nat := 0
  /-- u64 -/
  scrubRows : Nat := 0
  /-- u64 -/
  poisons : Nat := 0
  /-- u64 -/
  rebuilds : Nat := 0
  /-- u64 -/
  retiredBanks : Nat := 0
  deriving DecidableEq, Repr, Inhabited

/-- Store record (Table 20-4). -/
structure StoreCounters where
  /-- u64 -/
  reservationWaits : Nat := 0
  /-- u64 -/
  storeBounds : Nat := 0
  /-- u64 -/
  poisonedReads : Nat := 0
  deriving DecidableEq, Repr, Inhabited

/-- Gelcon port record (Table 20-5). -/
structure PortCounters where
  /-- u64 -/
  flitsTx : Nat := 0
  /-- u64 -/
  flitsRx : Nat := 0
  /-- u64 -/
  fecCorrected : Nat := 0
  /-- u64 -/
  fecUncorrectable : Nat := 0
  /-- u64 -/
  crcErrors : Nat := 0
  /-- u64 -/
  seqGaps : Nat := 0
  /-- u64 -/
  violations : Nat := 0
  /-- u16 -/
  laneRetirements : Nat := 0
  /-- u8 -/
  quarantines : Nat := 0
  deriving DecidableEq, Repr, Inhabited

/-- Conversion statistics of one tensor slot (R195, Table 20-7). -/
structure ConvStat where
  /-- model slot -/
  slot : Nat := 0
  /-- tensor slot -/
  tslot : Nat := 0
  /-- elements converted in the tick -/
  n : Nat := 0
  /-- FP32 sum of squared errors -/
  sse : BitVec 32 := 0
  /-- FP32 sum of squares -/
  ssx : BitVec 32 := 0
  /-- FP32 sum of magnitude differences -/
  mag : BitVec 32 := 0
  /-- u64 -/
  fallbacks : Nat := 0
  /-- u64 -/
  clips : Nat := 0
  deriving DecidableEq, Repr, Inhabited

/-- Tenant record (Table 20-8). -/
structure TenantCounters where
  /-- u64 -/
  clusterNs : Nat := 0
  /-- u64 -/
  bankNs : Nat := 0
  /-- u64 -/
  hubBytes : Nat := 0
  /-- u64 -/
  genTokens : Nat := 0
  /-- u64 -/
  prefillTokens : Nat := 0
  deriving DecidableEq, Repr, Inhabited

/-- The counters that a snapshot copies (R433, R435). -/
structure Counters where
  /-- Table 20-3 -/
  step : StepCounters := {}
  /-- Table 20-4 -/
  stackRecs : List (Nat × StackCounters) := []
  /-- Table 20-4 -/
  store : StoreCounters := {}
  /-- Table 20-5 -/
  ports : List (Nat × PortCounters) := []
  /-- Table 20-6 -/
  logicThrottleMs : Nat := 0
  /-- Table 20-6 -/
  dramThrottleMs : Nat := 0
  /-- Table 20-6 -/
  alerts : Nat := 0
  /-- Table 20-6 -/
  msWMax : Nat := 0
  /-- Table 20-7 -/
  conv : List ConvStat := []
  /-- Table 20-8 -/
  tenants : List (Nat × TenantCounters) := []
  deriving DecidableEq, Repr, Inhabited

/-- A statistics snapshot (R435): counters and the gauges beside them. -/
structure Snapshot where
  /-- snap_tick -/
  tick : Nat := 0
  /-- snap_stamp -/
  stamp : Nat := 0
  /-- counters as frozen -/
  counters : Counters := {}
  /-- gauge -/
  energyMj : Nat := 0
  /-- gauge -/
  tickW : Nat := 0
  /-- gauge -/
  logicMax : Nat := 0
  /-- gauge -/
  dramMax : Nat := 0
  /-- gauge: port widths -/
  widths : List (Nat × Nat) := []
  /-- reconstructed reads -/
  recon : Nat := 0
  /-- uncorrectable rows -/
  uncorr : Nat := 0
  /-- gauge: (stack, rows, columns, banks, TSV spares used) -/
  spares : List (Nat × Nat × Nat × Nat × Nat) := []
  /-- gauge: (tenant, t1 granules, t2 granules, remaining), of the tenants configured -/
  tenants : List (Nat × Nat × Nat × Int) := []
  /-- (model slot RESIDENT, tensor records) (Table 20-1) -/
  slots : List (Nat × Nat) := []
  /-- measured-boot log (R409) -/
  bootLog : List (Nat × BitVec 384) := []
  deriving DecidableEq, Repr, Inhabited

/-- Kinds of failed host transfer (R344, Table 15-4). -/
inductive XferKind where
  | descriptor
  | completion
  | head
  | prompt
  | stream
  | tier2
  | image
  deriving DecidableEq, Repr, Inhabited

/-- Causes for which a host port is declared down, but for the cleared port_en bit (R349). -/
inductive PortCause where
  | link
  | reset
  | timeouts
  | busMaster
  deriving DecidableEq, Repr, Inhabited

/-- Classes of uncorrectable tier-1 data (R384, Table 17-3). -/
inductive UncorrKind where
  | ingot
  | page
  | tableEntry
  | pageList
  | auxBlock
  | estimates
  | draft
  | manager
  | commitLog
  deriving DecidableEq, Repr, Inhabited

/-- State changes that follow from a loss and wait for a commit window (R37, R264): those of a failed pair with its logical clusters and the
map that takes them, of a retired bank, and of uncorrectable data. -/
inductive LossDue where
  | pair (pair : Nat) (lost map : List Nat)
  | bank (stack bank : Nat)
  | data (kind : UncorrKind) (target : Nat) (bothLost : Bool)
  | tier2 (handle : Nat)
  | image (target : Nat)
  deriving DecidableEq, Repr

/-- What the device reads from the host for one descriptor (R58, R59, R62, Table 9-3). -/
structure DescRead where
  /-- the 256 descriptor bytes -/
  bytes : List (BitVec 8) := []
  /-- stop table -/
  stop : List (BitVec 8) := []
  /-- bias entries and allowed-token bitmap -/
  bias : List (BitVec 8) := []
  /-- prompt token ids -/
  prompt : List Nat := []
  /-- draft text of source 0x03 -/
  draft : List Nat := []
  /-- the descriptor read failed -/
  descFail : Bool := false
  /-- the completion field cannot be written -/
  complFail : Bool := false
  /-- a stop-table, bias or bitmap read failed -/
  bufFail : Bool := false
  /-- a prompt read for matching failed -/
  promptFail : Bool := false
  /-- translation of the stream ring's range is refused -/
  ringRefused : Bool := false
  /-- the draft-text read failed -/
  draftFail : Bool := false
  deriving DecidableEq, Repr, Inhabited

/-- What the device reads for one recovery-list entry (R377, Table 17-1). -/
structure RecoverRead where
  /-- the 64 bytes -/
  entry : List (BitVec 8) := []
  /-- the descriptor copy and its buffers -/
  desc : DescRead := {}
  /-- the last_seq token ids -/
  tokens : List Nat := []
  /-- place in the list -/
  index : Nat := 0
  deriving DecidableEq, Repr, Inhabited

/-- The header and section directory of a model image as read (R290, R292). -/
structure HeaderRead where
  /-- 64 B header and 24 B directory entries -/
  bytes : List (BitVec 8) := []
  /-- the read failed or timed out -/
  fail : Bool := false
  deriving DecidableEq, Repr, Inhabited

/-- A model image as read in LOADING (R293). -/
structure ModelRead where
  /-- a tier-2 read failed or timed out -/
  fail : Bool := false
  /-- the image -/
  image : List (BitVec 8) := []
  deriving DecidableEq, Repr, Inhabited

/-- An Alloy image as read (R296, R298); its header alone when its load is accepted. -/
structure AlloyRead where
  /-- a tier-2 read failed or timed out -/
  fail : Bool := false
  /-- the image -/
  image : List (BitVec 8) := []
  deriving DecidableEq, Repr, Inhabited

/-- A firmware image as read for verification (R407). -/
structure FwRead where
  /-- bytes of the image as read, header first (Table 18-3a) -/
  image : List (BitVec 8) := []
  /-- the host buffer, or the flash, could not be read -/
  readFail : Bool := false
  deriving DecidableEq, Repr, Inhabited

/-- Draft distribution q_v of one tree node (R245). -/
structure DraftDist where
  /-- request slot -/
  slot : Nat := 0
  /-- tree node -/
  node : Nat := 0
  /-- kept candidates (token, FP32 probability) in list order -/
  q : List (Nat × BitVec 32) := []
  deriving DecidableEq, Repr, Inhabited

/-- What the draft model's unembedding gives for one tree node (R245). -/
structure DraftLogits where
  /-- request slot -/
  slot : Nat := 0
  /-- tree node, numbered as the tree is built -/
  node : Nat := 0
  /-- FP32 outputs by token -/
  x : List (BitVec 32) := []
  deriving DecidableEq, Repr, Inhabited

/-- What the Alloy unit takes with an activation row: its format, scale pair and outlier row (R168, R303). -/
structure ApassRow where
  /-- 0 INT8, 1 FP8, 2 BF16 -/
  fmt : Nat := 0
  /-- scale mantissa of the row -/
  xm : BitVec 16 := 0
  /-- scale exponent of the row -/
  xe : BitVec 8 := 0
  /-- (channel, BF16 value) of its outlier row -/
  outliers : List (Nat × BitVec 16) := []
  deriving DecidableEq, Repr, Inhabited

/-- The ranges granted to a kernel (R109, R127). -/
structure Grant where
  /-- tier-1 ranges: (cluster, first row granule, count) -/
  t1 : List (Nat × Nat × Nat) := []
  /-- scratchpad regions: (cluster, first 256 B unit, count) -/
  sp : List (Nat × Nat × Nat) := []
  deriving DecidableEq, Repr, Inhabited

/-- What the device measures of a kernel (R94, R95). -/
structure KernelMeasure where
  /-- cluster nanoseconds summed over clusters -/
  clusterNs : Nat := 0
  /-- Central Store bytes -/
  hubBytes : Nat := 0
  /-- its bank passes, each with its page reads: (requests whose query sets the read served, bank-unit nanoseconds) -/
  passes : List (List (List Nat × Nat)) := []
  /-- at the end of the kernel, ACT_DATA packets of other devices that the job's next kernel still waits for (R104) -/
  waits : Nat := 0
  deriving DecidableEq, Repr, Inhabited

/-- A regulator's reading of one die or stack over one interval of 10 us (R100). -/
structure Meter where
  /-- die code (as TH_STAT.hot_code) -/
  die : Nat := 0
  /-- energy drawn in the interval in uJ -/
  uj : Nat := 0
  /-- kernels that ran there in the interval: (model slot, kkind, engine nanoseconds) -/
  ran : List (Nat × Nat × Nat) := []
  deriving DecidableEq, Repr, Inhabited

/-- What one MEASUREMENT_UPDATE reads beside the supply (R95, R100, R432). -/
structure Readings where
  /-- TH_STAT.hot_code -/
  hot : Nat := 0
  /-- engine quantities so far of the kernels in progress: (model slot, kernel, quantities) -/
  running : List (Nat × Nat × KernelMeasure) := []
  /-- the regulators' readings since the last one -/
  meters : List Meter := []
  deriving DecidableEq, Repr, Inhabited

/-- What a VOTE exchange carries (R49, R101). -/
structure VoteIn where
  /-- payload of the VOTE (Table 2-4) -/
  payload : List (BitVec 8) := []
  /-- measured costs of rows homed at the receiver: (slot, cluster ns, bank ns, hub bytes) -/
  costs : List (Nat × Nat × Nat × Nat) := []
  /-- shards of the requests it votes on: (home identity, slot, identities) -/
  shards : List (Nat × Nat × List Nat) := []
  deriving DecidableEq, Repr, Inhabited

/-- The payload of a QLOAD (R118). -/
structure QueryData where
  /-- tree node of the query -/
  node : Nat := 0
  /-- page group whose rebuild row it is of, if it is of one (R388) -/
  rebuild : Option Nat := none
  /-- it is a query of the draft model (R245) -/
  draft : Bool := false
  /-- its words -/
  words : List (BitVec 128) := []
  deriving DecidableEq, Repr, Inhabited

/-- What an APASS takes with its word (R168, R303). -/
structure ApassData where
  /-- logical cluster whose factors it uses -/
  logical : Nat := 0
  /-- activation rows -/
  rows : List ApassRow := []
  deriving DecidableEq, Repr, Inhabited

/-- The ingot that a fetch is for (R155). -/
structure FetchId where
  /-- model slot of the job -/
  job : Nat := 0
  /-- kernel -/
  kernel : Nat := 0
  /-- ordinal within it -/
  ordinal : Nat := 0
  deriving DecidableEq, Repr, Inhabited

/-- A packet as it arrives. -/
structure Arrival where
  /-- Gelcon port it came by -/
  port : Nat := 0
  /-- the packet -/
  pkt : Packet := {}
  deriving DecidableEq, Repr, Inhabited

/-- A flit as it arrives. -/
structure FlitIn where
  /-- its 256 bytes -/
  bytes : List (BitVec 8) := []
  /-- codewords that the FEC corrected and left uncorrected since the flit before (R309) -/
  fec : Nat × Nat := (0, 0)
  /-- lane it comes on (R311) -/
  lane : Nat := 0
  /-- frame count in the frame word of its frame, 32 bits (R309) -/
  frame : Nat := 0
  deriving DecidableEq, Repr, Inhabited

/-- Why a lane retires (R328). -/
structure LaneReport where
  /-- the lane -/
  lane : Nat := 0
  /-- its uncorrectable codewords within 1 ms; 0 where it failed training -/
  codewords : Nat := 0
  deriving DecidableEq, Repr, Inhabited

/-- The alignment exchange of SYNC (R47). -/
structure SyncMsg where
  /-- sending group -/
  group : Nat := 0
  /-- sending member -/
  member : Nat := 0
  /-- the sender is in SERVING or DEGRADED and aligned (R48) -/
  fit : Bool := true
  /-- the tick master the sender follows -/
  master : Nat := 0
  /-- this device's measured offset in ns -/
  offset : Int := 0
  /-- tick index of the master -/
  index : Nat := 0
  /-- edge of that tick -/
  edge : Nat := 0
  /-- T in us -/
  tickUs : Nat := 0
  /-- C in us -/
  commitUs : Nat := 0
  /-- from the tick master, T and C that it has pending, with the tick at which they apply (R53) -/
  pend : Option (Nat × Nat × Nat) := none
  /-- the sender's Invar -/
  time : Nat := 0
  deriving DecidableEq, Repr, Inhabited

/-- What a boot stage finds (R410 to R415). -/
structure StageReport where
  /-- stage 3 verified the stored curves -/
  regulatorsOk : Bool := true
  /-- HX0 and HX1 train and pass -/
  hostOk : List Bool := [true, true]
  /-- rate in GT/s and width in lanes to which HX0 and HX1 train -/
  hostLinks : List (Nat × Nat) := [(64, 16), (64, 16)]
  /-- die codes (as TH_STAT.hot_code) that fail self-test -/
  badDies : List Nat := []
  /-- stacks whose stored trims fail -/
  badTrims : List Nat := []
  /-- link dies whose stored Gelcon presets fail -/
  badPresets : List Nat := []
  /-- rows spared in stack BIST -/
  spareRows : List (Nat × Nat × Nat) := []
  /-- columns spared in stack BIST -/
  spareCols : List (Nat × Nat × Nat) := []
  /-- banks replaced in stack BIST -/
  spareBanks : List (Nat × Nat) := []
  /-- banks retired in stack BIST -/
  retiredBanks : List (Nat × Nat) := []
  /-- TSV spares switched in -/
  tsvSpares : List (Nat × Nat) := []
  /-- record with the derived sections, as it would be written -/
  newRecord : List (BitVec 8) := []
  deriving DecidableEq, Repr, Inhabited

/-- A place that an engine reads or writes: a Central Store address, or a byte of a cluster tile by its 16-bit handle (R166, Table 6-11). -/
inductive Place where
  | store (addr : Nat)
  | tile (handle offset : Nat)
  deriving DecidableEq, Repr, Inhabited

/-- One run of a vector-engine chain (R210, R211). -/
structure ChainRun where
  /-- 0 to 15 cluster pipe, 16 to 25 hub engine -/
  engine : Nat := 0
  /-- logical cluster whose slice a cluster pipe runs (R395); a hub engine converts for CL0 (R185) -/
  logical : Nat := 0
  /-- model slot of the job -/
  job : Nat := 0
  /-- 64 B configuration word -/
  config : List (BitVec 8) := []
  /-- FP32 rows of input streams 0 to 2, where the kernel attaches them -/
  in0 : Option Place := none
  in1 : Option Place := none
  in2 : Option Place := none
  /-- FP32 column vector -/
  colvec : Option Place := none
  /-- constant registers that the kernel sets before the row: (number, value) -/
  consts : List (Nat × BitVec 32) := []
  /-- per-row record that the row registers are loaded from, if any -/
  loadRegs : Option Place := none
  /-- the output row -/
  out : Place := .store 0
  /-- the row record -/
  record : Place := .store 0
  /-- request slot of the row, or 1,048,576 plus the page-group handle of a rebuild row -/
  slot : Nat := 0
  /-- tree node or position of the row -/
  node : Nat := 0
  /-- channel of the tensor at which the instance's scope begins (R190) -/
  base : Nat := 0
  deriving DecidableEq, Repr, Inhabited

/-- Output conversion of closed groups for one row and column block (R189). -/
structure TileConv where
  /-- cluster -/
  cluster : Nat := 0
  /-- model slot of the job -/
  job : Nat := 0
  /-- handles of the accumulator tiles summed -/
  groups : List Nat := []
  /-- handle of the FP32 tile of the outlier ingot -/
  outlierGroup : Option Nat := none
  /-- wexp of the outlier ingot -/
  outlierExp : BitVec 8 := 0
  /-- row r -/
  row : Nat := 0
  /-- columns -/
  ncols : Nat := 128
  /-- the row record that the row's conversion wrote -/
  record : Place := .store 0
  /-- scale exponent of the tensor -/
  wexp : BitVec 8 := 0
  /-- the Alloy delta row -/
  delta : Option Place := none
  /-- the FP32 output row -/
  out : Place := .store 0
  deriving DecidableEq, Repr, Inhabited

/-- Conversion of one new K and V entry into the cache append buffer (R192, R138). -/
structure EntryConv where
  /-- logical cluster -/
  cluster : Nat := 0
  /-- model slot -/
  job : Nat := 0
  /-- layer -/
  layer : Nat := 0
  /-- key/value head -/
  head : Nat := 0
  /-- request slot of the row, or 1,048,576 plus the page-group handle of a rebuild row -/
  slot : Nat := 0
  /-- tree node of a decode row, else position within the chunk or the block -/
  node : Nat := 0
  /-- of the draft model's cache (R245) -/
  draft : Bool := false
  /-- the FP32 K vector -/
  k : Place := .store 0
  /-- the FP32 V vector -/
  v : Place := .store 0
  deriving DecidableEq, Repr, Inhabited

/-- Conversion and folding of one query head (R193). -/
structure QueryConv where
  /-- logical cluster -/
  cluster : Nat := 0
  /-- model slot -/
  job : Nat := 0
  /-- layer -/
  layer : Nat := 0
  /-- key/value head -/
  head : Nat := 0
  /-- request slot of the row, or 1,048,576 plus the page-group handle of a rebuild row -/
  slot : Nat := 0
  /-- tree node of a decode row, else position within the chunk or the block -/
  node : Nat := 0
  /-- of the draft model's cache (R245) -/
  draft : Bool := false
  /-- the FP32 query -/
  x : Place := .store 0
  /-- 256 B of elements, then qmant and qshift -/
  out : Place := .store 0
  deriving DecidableEq, Repr, Inhabited

/-- Adjusted logits and local reduction of one row node on one cluster (R223, R224, R225). -/
structure LogitRun where
  /-- logical cluster -/
  cluster : Nat := 0
  /-- request slot -/
  slot : Nat := 0
  /-- tree node -/
  node : Nat := 0
  /-- unembedding outputs of the cluster's slice -/
  x : List (BitVec 32) := []
  /-- device address of its candidate record in the job's LOGIT blocks -/
  addr : Nat := 0
  deriving DecidableEq, Repr, Inhabited

/-- Sceol-to-Sceol messages (R318, R324, R381). -/
inductive MgmtMsg where
  | prepare (slot : Nat) (r : Request) (modelFp alloyFp : Nat)
  | reply (slot : Nat) (status : Nat)
  | portStates (member : Nat) (ports : List (Nat × Bool))
  | verified (slot : Nat) (ok : Bool)
  | other (bytes : List (BitVec 8))
  deriving DecidableEq, Repr

/-- What a vector engine is asked to run: a configured chain, the output conversion of a tile, a cache-entry or query conversion, or the
local reduction of the output kernel (R211, R189, R192, R193, R224). -/
inductive VecOp where
  | chain (r : ChainRun)
  | tile (r : TileConv)
  | entry (r : EntryConv)
  | query (r : QueryConv)
  | logits (r : LogitRun)
  deriving DecidableEq, Repr

end Sys2Proof
end

