-- ==== Sys2Proof/Syntax.lean ====
section
/-! DEFINITION. The commands of the block: one constructor for each row of spec/opcode_table.json, in the order of the table.
An operand t is the Invar instant at which the event arrives (R30); mb is the mailbox slot whose command acts; port is a
host port or a Gelcon port; cl is a cluster; job is the model slot of the job that issues a kernel command. -/

namespace Sys2Proof

/-- A command or event of the block. -/
inductive Instr where
  /-- TICK_EDGE (R33): At each tick edge t_k the device starts tick k: plan k begins and each row takes its inputs from committed state. -/
  | tickEdge
  /-- COMMIT_OPEN (R36): At o_k the sequencers stop the kernels of plan k, the inputs of plan k+1 are frozen and the commit window begins. -/
  | commitOpen
  /-- COMMIT_GATHERS_DONE (R306): Once a request's commit GATHERs have ended, its stream entries, completion words and head word are
  written. -/
  | commitGathersDone (slot : Nat)
  /-- BUDGET_WINDOW_START (R92): At an edge whose index is a multiple of window_ticks, a tenant's remaining budget is refilled,
  keeping any debt. -/
  | budgetWindowStart (tenant : Nat)
  /-- DEADLINE_EXPIRY (R78): A request whose deadline is passed by t_{k+1} closes with DEADLINE, and its step is discarded. -/
  | deadlineExpiry (slot : Nat)
  /-- HOLD_EXPIRY (R77): A PAUSED request whose hold has ended becomes PARKED, and its time-to-live timer starts. -/
  | holdExpiry (slot : Nat)
  /-- TTL_EXPIRY (R77): A PARKED request whose time-to-live has ended closes with TTL_EXPIRED. -/
  | ttlExpiry (slot : Nat)
  /-- IMPORT_TIMEOUT (R73): An import not complete within the import time-out goes to PREFILLING or closes with FAULT_IMPORT. -/
  | importTimeout (t slot : Nat)
  /-- RESUME_COMPLETE (R76): A RESUMING request returns to its prior state in the first commit window in which all its groups are RESIDENT. -/
  | resumeComplete (slot : Nat)
  /-- SUBMISSION_RING_DOORBELL (R57): A tail write to a submission-ring doorbell makes descriptors visible with its stamp, or is
  logged as misuse. -/
  | submissionRingDoorbell (t port ring offset width : Nat) (value : BitVec 32)
  /-- STREAM_CREDIT_DOORBELL (R69): A credit doorbell returns stream-ring space for a slot, taken into credit_count in its commit window. -/
  | streamCreditDoorbell (t port offset width : Nat) (value : BitVec 64)
  /-- MB_DOORBELL (R356): A write naming a mailbox slot hands that slot's command to the device. -/
  | mbDoorbell (t port offset width : Nat) (value : BitVec 32)
  /-- SUBMIT (R61): A descriptor taken from a submission ring is checked, and is either admitted with its ADMITTED entry or refused. -/
  | submit (ring : Nat) (d : DescRead)
  /-- IDENTIFY (R365): Returns identity, serial, firmware versions and the Capability Block generation. -/
  | identify (mb : Nat)
  /-- DEVICE_STATE (R404): Requests a transition of the device state. -/
  | deviceState (mb : Nat)
  /-- WARM_RESET (R376): The Sceol command requests a warm reset. -/
  | warmReset (mb : Nat)
  /-- EVENT_READ (R364): Removes and returns up to max event records, oldest first, and clears the lost flag. -/
  | eventRead (mb : Nat)
  /-- POWER_CONFIG (R24): Sets the power envelope. -/
  | powerConfig (mb : Nat)
  /-- ABORT (R361): Cancels an outstanding MODEL_LOAD, ALLOY_LOAD, FW_STAGE or CAL_WRITE and undoes its work. -/
  | abort (mb : Nat)
  /-- TICK_CONFIG (R53): Sets T, C and Invar control, to apply from the tick whose inputs are frozen after completion. -/
  | tickConfig (mb : Nat)
  /-- GROUP_CONFIG_JOIN (R48): Joins the device to a group, which steps Invar once to the group's time. -/
  | groupConfigJoin (mb groupTime : Nat)
  /-- GROUP_CONFIG_LEAVE (R48): Removes the device from its group. -/
  | groupConfigLeave (mb : Nat)
  /-- TENANT_CONFIG (R91): Sets the selected fields of a tenant. -/
  | tenantConfig (mb : Nat)
  /-- DOMAIN_CONFIG (R273): Sets a sharing domain's settings; a key change removes all of the domain's index entries. -/
  | domainConfig (mb : Nat)
  /-- RING_REGISTER (R56): Registers a submission ring and binds it to the arrival port. -/
  | ringRegister (mb : Nat)
  /-- RING_RELEASE (R56): Releases a drained or stopped submission ring. -/
  | ringRelease (mb : Nat)
  /-- REQ_CANCEL (R75): Cancels a request, discarding its attempt of the tick and writing FINAL with CANCELLED. -/
  | reqCancel (mb : Nat)
  /-- REQ_PAUSE (R76): Moves a PREFILLING or DECODING request to PAUSED after its attempt settles. -/
  | reqPause (mb : Nat)
  /-- REQ_RESUME (R76): Returns a PAUSED request to its prior state, or moves a PARKED request to RESUMING. -/
  | reqResume (mb : Nat)
  /-- REQ_DRAFT (R244): Replaces the draft text of a source-0x03 request. -/
  | reqDraft (mb : Nat) (text : Option (List Nat))
  /-- REQ_QUERY (R361): Returns a request's committed state as of the last edge. -/
  | reqQuery (mb : Nat)
  /-- REQ_MIGRATE (R381): Moves a request to another member of its group by PREPARE, shipment and a sharded handover. -/
  | reqMigrate (mb : Nat)
  /-- RECOVER (R377): Names a recovery list of requests to rebuild after a cold reset. -/
  | recover (mb : Nat)
  /-- RECOVER_ENTRY (R378): One recovery-list entry is checked and either rebuilt as a request that re-prefills its context or skipped. -/
  | recoverEntry (mb : Nat) (r : RecoverRead)
  /-- PLAN_CONFIG (R362): Writes the planner and speculation registers. -/
  | planConfig (mb : Nat)
  /-- BANK_CONFIG (R144): Writes BU_CFG and BU_SCRUB of a cluster. -/
  | bankConfig (mb : Nat)
  /-- MATRIX_CONFIG (R172): Writes MX_CFG of a cluster. -/
  | matrixConfig (mb : Nat)
  /-- QUANT_CONFIG (R196): Writes QZ_CTL. -/
  | quantConfig (mb : Nat)
  /-- STORE_CONFIG (R209): Writes the store patrol and the class reserves and ceilings. -/
  | storeConfig (mb : Nat)
  /-- TIER_CONFIG (R288): Writes the Tier Manager registers. -/
  | tierConfig (mb : Nat)
  /-- GELCON_CONFIG (R336): Writes the Gelcon registers (action 0). -/
  | gelconConfig (mb : Nat)
  /-- GELCON_QUARANTINE_RELEASE (R362): Port action 1 releases a port's quarantine, and the port trains again from the start. -/
  | gelconQuarantineRelease (mb : Nat)
  /-- GELCON_SPARE_ASSIGN (R321): Port action 2 assigns a spare global port to the role of a failed port. -/
  | gelconSpareAssign (mb : Nat)
  /-- HOST_CONFIG (R354): Writes HX_CTL; a cleared port_en declares that port down. -/
  | hostConfig (mb : Nat)
  /-- MODEL_CONFIG (R305): Writes MD_CTL. -/
  | modelConfig (mb : Nat)
  /-- SCEOL_CONFIG (R370): Writes SC_CTL. -/
  | sceolConfig (mb : Nat)
  /-- TIER_REGISTER (R283): Registers a tier-2 region, or updates its draining flag. -/
  | tierRegister (mb : Nat)
  /-- TIER_RELEASE (R283): Releases a tier-2 region that holds no live granule or image. -/
  | tierRelease (mb : Nat)
  /-- PIN (R281): Pins a group and its chain back to block 0, promoting a PARKED group. -/
  | pin (mb : Nat)
  /-- UNPIN (R281): Clears pinned on the named group. -/
  | unpin (mb : Nat)
  /-- PROMOTE (R281): Sets a DEMOTING or PARKED group toward RESIDENT. -/
  | promote (mb : Nat)
  /-- DEMOTE (R281): Demotes a group if R268 allows it. -/
  | demote (mb : Nat)
  /-- DROP (R281): Removes a group's index entry so that it is freed once its references reach 0. -/
  | drop (mb : Nat)
  /-- PARK_NOW (R281): Sets a PAUSED request's timer so that it parks in the next commit window. -/
  | parkNow (mb : Nat)
  /-- PREFIX_PROBE (R276): Reports how many leading tokens would match, without taking references. -/
  | prefixProbe (mb : Nat) (tokens : Option (List Nat))
  /-- MODEL_LOAD (R292): Checks the image address and target slot and starts the read of the image header. -/
  | modelLoad (mb : Nat)
  /-- MODEL_HEADER_READ_DONE (R292): After the header and directory are read, they are checked, a slot is chosen and space is allocated. -/
  | modelHeaderReadDone (mb : Nat) (r : HeaderRead)
  /-- MODEL_LOAD_COMPLETE (R293): Once every section is placed and the fingerprint verified, the slot becomes RESIDENT, or EVICTING on
  a failed check. -/
  | modelLoadComplete (slot : Nat) (r : ModelRead)
  /-- MODEL_EVICT (R295): Begins eviction of a slot, closing its bound requests with MODEL_EVICTED when force is set. -/
  | modelEvict (mb : Nat)
  /-- MODEL_SLOT_EMPTY (R289): An EVICTING or BROKEN slot becomes EMPTY once every fill of its granules has ended. -/
  | modelSlotEmpty (slot : Nat)
  /-- MODEL_PIN (R289): Sets a slot's pinned bit. -/
  | modelPin (mb : Nat)
  /-- MODEL_UNPIN (R289): Clears a slot's pinned bit. -/
  | modelUnpin (mb : Nat)
  /-- MODEL_RELEASE (R110): Ends a slot's quarantine and returns its fault count to 0. -/
  | modelRelease (mb : Nat)
  /-- ALLOY_LOAD (R298): Starts loading a new Alloy generation. -/
  | alloyLoad (mb : Nat) (r : AlloyRead)
  /-- ALLOY_GEN_RESIDENT (R298): After the last granule is verified the generation becomes RESIDENT, or the load fails. -/
  | alloyGenResident (id gen : Nat) (r : AlloyRead)
  /-- ALLOY_RETIRE (R300): Frees a generation, or marks it RETIRING until its references reach 0. -/
  | alloyRetire (mb : Nat)
  /-- STATS_READ (R436): Writes a statistics block from the latest readable snapshot to a host buffer. -/
  | statsRead (mb : Nat) (ok : Bool)
  /-- CAL_READ (R417): Returns the Calibration Record in force. -/
  | calRead (mb : Nat) (ok : Bool)
  /-- CAL_WRITE (R417): Replaces the Calibration Record while in MAINTENANCE. -/
  | calWrite (mb : Nat) (buffer : Option (List (BitVec 8)))
  /-- FW_STAGE (R367): Writes and verifies a firmware image in the flash not named by the boot pointer. -/
  | fwStage (mb : Nat) (r : FwRead)
  /-- FW_ACTIVATE_NEXT_RESET (R368): Mode 1 sets the boot pointer to the staged image, which takes effect at the next cold reset. -/
  | fwActivateNextReset (mb : Nat)
  /-- FW_ACTIVATE_LIVE (R368): Mode 0 starts live activation, with the standby booting the staged image. -/
  | fwActivateLive (mb : Nat)
  /-- STANDBY_CAUGHT_UP (R368): The standby has caught up from the journal, or fails to within 30 s and FW_ACTIVATE is rejected. -/
  | standbyCaughtUp (t : Nat) (ok : Bool)
  /-- ACTIVATION_HANDOVER (R368): At the tick edge the standby becomes active and CONTROL_FAILOVER is posted. -/
  | activationHandover
  /-- PROBATION_END (R368): After 1,000 ticks of probation the boot pointer moves to the new image and the former active reboots it. -/
  | probationEnd
  /-- FORMER_ACTIVE_STANDBY (R368): The former active control die reaches standby on the new image and FW_ACTIVATE completes. -/
  | formerActiveStandby (t : Nat)
  /-- SAMPLER_ROW_MERGE (R231): A free sampler lane merges a row's candidate records, draws or walks its tree, and records completion. -/
  | samplerRowMerge (t slot : Nat)
  /-- TREE_BUILD (R243): Before the row's job starts, the serving die builds the row's tree from n-gram lookup or draft text. -/
  | treeBuild (slot : Nat)
  /-- KERNEL_START (R216): A kernel of a job starts, and the sequencer sets its granted semaphores to their initial values. -/
  | kernelStart (model kernel : Nat) (g : Grant) (drafts : List DraftLogits)
  /-- KERNEL_END (R107): At kernel end held semaphores are released and fault the job, registers clear and closed groups free. -/
  | kernelEnd (t model kernel : Nat) (m : KernelMeasure)
  /-- PREEMPT (R104): When a class-7 job has a ready kernel, the running job is saved at its next kernel boundary and the class-7 job runs. -/
  | preempt (model : Nat) (dirty : List (Nat × Nat × Nat))
  /-- JOB_RESUME (R104): A saved job is restored and resumes once no class-7 job has a ready kernel. -/
  | jobResume (model : Nat)
  /-- BU_NOP (R122): Bank-unit NOP command; no effect. -/
  | buNop (cl job : Nat) (word : BitVec 128)
  /-- QLOAD (R118): Writes one query set and its set registers into a bank unit. -/
  | qload (cl job : Nat) (word : BitVec 128) (q : QueryData)
  /-- GLOAD (R141): Writes a bank unit's gather list. -/
  | gload (cl job : Nat) (word : BitVec 128) (payload : List (BitVec 128))
  /-- TLOAD (R126): Broadcasts the exponent table and marks it valid. -/
  | tload (cl job : Nat) (word : BitVec 128) (payload : List (BitVec 128))
  /-- ACLR (R113): Clears the accumulators, sums, maxima, flags and pass counts of the selected sets. -/
  | aclr (cl job : Nat) (word : BitVec 128)
  /-- PASS (R126): One page pass: K phase, conversion and V phase over the frame at a bank slot for the selected sets. -/
  | pass (cl job : Nat) (word : BitVec 128) (bad : List BadColumn)
  /-- DRAIN (R127): Each bank returns its drain record to scratchpad and empties its taint log. -/
  | drain (cl job : Nat) (word ext : BitVec 128)
  /-- COPY (R137): Copies rows within a bank through the encoder. -/
  | copy (cl job : Nat) (word ext : BitVec 128) (bad : List BadColumn)
  /-- GATHER (R141): Moves listed tokens from a provisional frame to their destination frame. -/
  | gather (cl job : Nat) (word ext : BitVec 128) (bad : List BadColumn)
  /-- FILL (R142): Writes zero data with correct check bytes into rows. -/
  | fill (cl job : Nat) (word : BitVec 128)
  /-- SCRUB (R143): Controller syndrome check of rows. -/
  | scrub (cl : Nat) (kernel : Option Nat) (word : BitVec 128) (bad : List BadColumn)
  /-- TLOGRD (R127): Writes one bank's taint log to scratchpad and empties it. -/
  | tlogrd (cl job : Nat) (word ext : BitVec 128)
  /-- KVFLUSH (R138): Writes the cache append buffer's entries in a range into the bank with check bytes. -/
  | kvflush (cl job first count : Nat)
  /-- APPEND_BUFFER_WRITEBACK (R138): The cache append buffer writes entries back on its own once it is 75 % full. -/
  | appendBufferWriteback (cl entries : Nat)
  /-- LAYER_COMBINE (R128): The cluster vector pipe combines a layer's drain records into attention outputs. -/
  | layerCombine (cl job layer : Nat) (bad : List BadColumn)
  /-- BANK_REFRESH (R133): The controller refreshes a bank once per tREFI on average, between its bursts. -/
  | bankRefresh (cl bank : Nat)
  /-- STACK_HOT_CHANGE (R133): A core die crossing 85 °C or 83 °C halves or restores tREFI for the stack. -/
  | stackHotChange (cl temp : Nat)
  /-- PATROL_SCRUB (R143): The controller patrols every row once per period and rewrites correctable codewords. -/
  | patrolScrub (cl bank : Nat) (bad : List BadColumn)
  /-- MX_NOP (R160): Matrix NOP command; no effect. -/
  | mxNop (cl job : Nat) (word : BitVec 128)
  /-- ILOAD (R156): Loads the next directory ingot into a unit's back registers, waiting for it if needed. -/
  | iload (cl job : Nat) (word : BitVec 128)
  /-- GOPEN (R162): Opens an accumulation group in a mode and zeroes it. -/
  | gopen (cl job : Nat) (word : BitVec 128)
  /-- MPASS (R179): Streams activation rows through the front ingot into an accumulation group. -/
  | mpass (cl job : Nat) (word : BitVec 128) (rows : List Nat)
  /-- GCLOSE (R162): Closes a group after its queued MPASSes end. -/
  | gclose (cl job : Nat) (word : BitVec 128)
  /-- GFREE (R162): Frees a group after its earlier reads end. -/
  | gfree (cl job : Nat) (word : BitVec 128)
  /-- APASS (R168): Computes Alloy deltas for the rows of a segment list. -/
  | apass (cl job : Nat) (word : BitVec 128) (tensor layer : Nat) (zx : BitVec 8) (a : ApassData)
  /-- SPLOAD (R170): Copies row granules into scratchpad and makes a hold entry. -/
  | spload (cl job : Nat) (word : BitVec 128)
  /-- SPINV (R171): Drops the job's hold entries that overlap a range. -/
  | spinv (cl job : Nat) (word : BitVec 128)
  /-- GSAVE (R162): The sequencer writes an open group to the save area and frees it. -/
  | gsave (cl group : Nat) (kernel : Option Nat)
  /-- GRSTR (R162): The sequencer restores a saved group to OPEN. -/
  | grstr (cl group : Nat) (kernel : Option Nat)
  /-- INGOT_FETCH_ISSUE (R155): The loader issues an ingot fetch in directory order once staging space and a hold entry are free. -/
  | ingotFetchIssue (cl job kernel : Nat)
  /-- INGOT_FETCH_DONE (R159): An ingot fetch completes into staging, or the ingot is poisoned on an uncorrectable codeword or bad header. -/
  | ingotFetchDone (cl : Nat) (f : FetchId) (uncorrectable : Bool)
  /-- VECTOR_CHAIN (R211): A vector engine runs a row through a configured stage chain with its reductions. -/
  | vectorChain (op : VecOp)
  /-- FUNCTION_TABLE_LOAD (R212): A kernel loads a vector-engine function table. -/
  | functionTableLoad (engine job table : Nat) (bytes : List (BitVec 8))
  /-- ROW_REDUCTION (R214): Once every source has written, the hub adds the partials in fixed order to the residual. -/
  | rowReduction (job sem : Nat) (sources addrs : List Nat) (residual n : Nat)
  /-- STORE_RESERVE (R205): A class requests store blocks, granted whole or queued. -/
  | storeReserve (cls : StoreClass) (holder blocks : Nat)
  /-- STORE_RESERVE_RETRY (R206): When blocks are released, the head of each class queue is retried. -/
  | storeReserveRetry
  /-- STORE_RELEASE (R208): A holder releases store blocks, or a class release event does. -/
  | storeRelease (cls : StoreClass) (holder : Nat)
  /-- STORE_POISONED_READ (R390): A read of an uncorrectable stripe row returns poisoned zeros and is handled by its class. -/
  | storePoisonedRead (cls : StoreClass) (addr holder : Nat)
  /-- STORE_PATROL (R218): The store patrol reads every unit once per period and rebuilds CRC failures. -/
  | storePatrol (bad : List (Nat × Nat))
  /-- SEM_SIGNAL (R215): Adds v to a semaphore, faulting the job on overflow. -/
  | semSignal (job n v : Nat)
  /-- SEM_WAIT (R215): Waits until a semaphore is at least v. -/
  | semWait (job n v waiter : Nat)
  /-- SEM_WAIT_SATISFIED (R215): A waiter, first in first out, subtracts v once the value reaches it. -/
  | semWaitSatisfied (n : Nat)
  /-- SEM_READ (R215): Returns a semaphore's value and waiter count. -/
  | semRead (n : Nat)
  /-- HUB_DIE_FAILED (R201): A hub die is declared failed; reads reconstruct and an empty tick is planned for restriping. -/
  | hubDieFailed (t die : Nat)
  /-- STORE_RESTRIPE (R201): During the empty tick the hub restripes the standing pool into 7 + 2. -/
  | storeRestripe
  /-- SYNC (R47): A SYNC exchange at an edge aligns the member's Invar and edges to the tick master. -/
  | sync (t : Nat) (m : SyncMsg)
  /-- ALIGNMENT_RESTORED (R47): After 16 ticks within ±50 ns, the member sets aligned again. -/
  | alignmentRestored (t : Nat)
  /-- TICK_MASTER_RECOMPUTE (R48): After two edges with no SYNC from the master, members recompute the tick master. -/
  | tickMasterRecompute (found : List (Nat × List (Nat × Nat × Nat × Nat)))
  /-- VOTE (R49): A VOTE payload from a shard arrives at the tick master. -/
  | vote (t port : Nat) (v : VoteIn)
  /-- VOTE_CUTOFF (R49): At o_k + C/2 the master closes voting and broadcasts COMMIT_SET. -/
  | voteCutoff
  /-- COMMIT_SET (R49): A member applies COMMIT_SET, committing listed sharded requests and dropping others. -/
  | commitSet (t port : Nat) (payload : List (BitVec 8))
  /-- CSET_REQ (R50): A fetch of a kept COMMIT_SET is answered. -/
  | csetReq (t src tick : Nat)
  /-- SHARD_PLAN (R101): A shard places the rows a counted SHARD_PLAN lists first in its plan. -/
  | shardPlan (t port : Nat) (payload : List (BitVec 8))
  /-- ACT_DATA (R318): Activation or partial bytes are written into the receiver's reservation. -/
  | actData (t : Nat) (a : Arrival)
  /-- SHIP_OPEN (R334): Opens a shipment handle awaiting a claiming descriptor. -/
  | shipOpen (t : Nat) (a : Arrival)
  /-- SHIP_GRANT (R334): The sender receives a window of body it may send. -/
  | shipGrant (t : Nat) (a : Arrival)
  /-- SHIP_DATA (R334): Body bytes of a shipment are received at their offset. -/
  | shipData (t port : Nat) (p : Packet)
  /-- SHIP_WINDOW_ADVANCE (R334): The receiver moves a grant window forward as frames reach tier 1. -/
  | shipWindowAdvance (handle upto : Nat)
  /-- SHIP_DONE (R335): Carries block CRCs; missing ranges are re-granted or the shipment is verified. -/
  | shipDone (t port : Nat) (p : Packet)
  /-- SHIP_END (R335): A shipment ends, failing the import if it came from the sender. -/
  | shipEnd (t port : Nat) (p : Packet)
  /-- SHIP_UNCLAIMED_TIMEOUT (R334): A handle unclaimed after unclaimed_ms is closed with cause 0x03. -/
  | shipUnclaimedTimeout (t handle : Nat)
  /-- SHIPMENT_APPLY (R335): A verified shipment is applied, setting committed_len and moving IMPORTING to PREFILLING. -/
  | shipmentApply (handle : Nat)
  /-- MGMT (R318): A Sceol-to-Sceol management message is received. -/
  | mgmt (t : Nat) (a : Arrival) (msg : MgmtMsg)
  /-- ERR (R330): An ERR packet naming a cause and offending packet is received. -/
  | err (t : Nat) (a : Arrival)
  /-- PACKET_FORWARD (R324): A transit packet gets its next hop by the routing rules. -/
  | packetForward (t port : Nat) (p : Packet) (queues : List (Nat × Nat))
  /-- FLIT_DATA (R312): A sequenced DATA flit is accepted in order or discarded with a NAK. -/
  | flitData (t port : Nat) (f : FlitIn)
  /-- FLIT_IDLE (R310): An IDLE flit delivers its ack and credit fields. -/
  | flitIdle (t port : Nat) (f : FlitIn)
  /-- FLIT_CREDIT (R315): A CREDIT flit delivers cumulative credits per VC. -/
  | flitCredit (t port : Nat) (f : FlitIn)
  /-- FLIT_NAK (R312): A NAK makes the sender resend from the named seq. -/
  | flitNak (t port : Nat) (f : FlitIn)
  /-- FLIT_VC_RESET (R330): A VC_RESET restarts a VC's stream after a credit overrun. -/
  | flitVcReset (t port : Nat) (f : FlitIn)
  /-- FLIT_IDENT (R322): An IDENT flit identifies the peer, or marks the port miscabled. -/
  | flitIdent (t port : Nat) (f : FlitIn) (tags : List (BitVec 8))
  /-- FLIT_LANE (R328): A LANE flit changes the port's lane mask from a named frame. -/
  | flitLane (t port : Nat) (f : FlitIn)
  /-- NAK_REPEAT (R312): The receiver repeats its NAK every 1 µs until the expected seq arrives. -/
  | nakRepeat (t port : Nat)
  /-- RESEND_TIMEOUT (R312): After 4 µs without a rise in ack, the sender resends from its oldest unacknowledged flit. -/
  | resendTimeout (t port : Nat)
  /-- ACK_TIMER (R312): The receiver acknowledges at least every 200 ns. -/
  | ackTimer (t port : Nat)
  /-- CREDIT_RETURN_TIMER (R315): Owed credits are returned at least every 1 µs. -/
  | creditReturnTimer (t port : Nat)
  /-- PARTNER_VIOLATION (R330): A violation is answered by its cause and counted toward the port's window. -/
  | partnerViolation (t port cause vc : Nat) (p : Packet)
  /-- PORT_TRAINED (R322): A Gelcon port completes training and exchanges IDENT. -/
  | portTrained (t port lanes : Nat)
  /-- LANE_RETIRE (R328): A lane that fails training or has too many uncorrectable codewords is retired. -/
  | laneRetire (t port : Nat) (l : LaneReport) (frame : Nat)
  /-- LANE_RETRAIN (R328): A retired lane is retrained every 60 s and rejoins if it passes. -/
  | laneRetrain (t port lane frame : Nat) (ok : Bool)
  /-- GELCON_PORT_DOWN (R329): A port at width 0 goes down and its resend buffer is discarded. -/
  | gelconPortDown (t port : Nat)
  /-- HOST_PORT_DOWN (R349): A host port is declared down on link loss, reset, D3hot, time-outs or disabled bus mastering. -/
  | hostPortDown (t port : Nat) (cause : PortCause)
  /-- HOST_PORT_UP (R349): A host port comes back up, taking bindings only if no port was up. -/
  | hostPortUp (t port gts lanes : Nat)
  /-- HOST_DMA_FAIL (R344): A host transfer fails on translation refusal, error completion or time-out, and is handled by kind. -/
  | hostDmaFail (t : Nat) (kind : XferKind) (target : Nat) (seq : Nat)
  /-- ATS_INVALIDATION (R344): The device completes transactions using a translation and then acknowledges its invalidation. -/
  | atsInvalidation (t port page : Nat)
  /-- FLUSH_READ_COMPLETE (R345): A zero-length flush read's completion confirms the writes issued before it. -/
  | flushReadComplete (t port : Nat)
  /-- MSIX_TABLE_WRITE (R347): A write to an MSI-X entry; unmasking raises a pending vector. -/
  | msixTableWrite (offset : Nat) (value : BitVec 32)
  /-- DEBUG_WINDOW_ACCESS (R343): An access to the debug window maps control space in MAINTENANCE, or is counted in HX_DBG_DENIED. -/
  | debugWindowAccess (write : Bool) (offset : Nat) (bytes : List (BitVec 8))
  /-- REGISTER_WRITE (R8): A write to a register with no row of its own, following its access code. -/
  | registerWrite (t : Nat) (bar : Bool) (addr : Nat) (bytes : List (BitVec 8))
  /-- PPS_EDGE (R29): A PPS rising edge is stamped and may snap Invar before the first SERVING. -/
  | ppsEdge (t : Nat)
  /-- REFERENCE_LOST (R28): Loss of the selected reference sets ref_lost and holdover. -/
  | referenceLost (t : Nat)
  /-- REFERENCE_RESTORED (R28): The reference returns and discipline resumes without a step. -/
  | referenceRestored (t : Nat)
  /-- GOVERNOR_STEP_DOWN (R25): When measured power would breach a limit, the governor steps the cluster and then the hub domain down. -/
  | governorStepDown (t watts : Nat)
  /-- OVERCURRENT_STEP (R422): Current above 130 A for 20 µs steps the cluster and hub domains to half frequency. -/
  | overcurrentStep (t : Nat)
  /-- OVERCURRENT_HALT (R422): Current above 130 A for 1 ms enters SAFE_HALT. -/
  | overcurrentHalt (t : Nat)
  /-- THERMAL_ALERT (R426): A sensor reaching its alert threshold asserts THERM_ALERT_N and posts THERMAL_ALERT. -/
  | thermalAlert (t code temp : Nat)
  /-- THERMAL_THROTTLE_STEP (R426): While above throttle, a domain is stepped down each 1 ms, or a stack's streaming is capped. -/
  | thermalThrottleStep (t code temp : Nat)
  /-- THERMAL_TRIP (R428): A trip discards the tick's attempts, stops clocks and enters SAFE_HALT. -/
  | thermalTrip (t code temp : Nat)
  /-- DRAM_OVERTEMP_POWER_OFF (R428): A DRAM sensor at 105 °C for 1 s in SAFE_HALT deasserts PWR_REQ, losing tier 1. -/
  | dramOvertempPowerOff (t code temp : Nat)
  /-- POWER_ON (R405): AUX12 within range with RESET_N high starts BOOT: Sentinels start, Invar starts at 0. -/
  | powerOn (memberId : Nat)
  /-- FIRMWARE_VERIFIED (R407): Boot ROMs verify an image and assert PWR_REQ, or stay in BOOT with FAULT_N. -/
  | firmwareVerified (t : Nat) (a b : FwRead)
  /-- PWR_GOOD (R405): PWR_GOOD asserted starts rail sequencing and TRAIN. -/
  | pwrGood (t : Nat)
  /-- PWR_GOOD_TIMEOUT (R406): With no PWR_GOOD within 1 s, PWR_REQ is deasserted, FAULT_N asserted and retried every 10 s. -/
  | pwrGoodTimeout (t : Nat)
  /-- BOOT_STAGE_DONE (R410): A training stage completes; the last enters READY or SAFE_HALT. -/
  | bootStageDone (t : Nat) (r : StageReport)
  /-- RESET_N (R404): RESET_N low causes a cold reset, with BOOT once it returns high. -/
  | resetN (t : Nat) (high : Bool) (memberId : Nat)
  /-- WARM_RESET_N (R376): A held falling edge on WARM_RESET_N requests a warm reset. -/
  | warmResetN (t : Nat)
  /-- WARM_RESET_COMPLETE (R418): After the warm reset sequence the device returns to its prior state and reissues unconfirmed writes. -/
  | warmResetComplete (t : Nat) (ctOk : Bool)
  /-- MAIN48_LOSS (R406): PWR_GOOD falling or MAIN48 leaving range acts as a cold reset. -/
  | main48Loss (t : Nat)
  /-- AUX12_LOSS (R422): AUX12 out of range for 100 µs switches off MAIN48 loads and enters OFF. -/
  | aux12Loss (t : Nat)
  /-- CONTROL_HEARTBEAT_TIMEOUT (R397): After 3 ms without a control heartbeat the lease holder resets the die and promotes the standby. -/
  | controlHeartbeatTimeout (t : Nat)
  /-- SERVING_HEARTBEAT_TIMEOUT (R397): After 2 edges without a serving heartbeat the lease holder promotes the standby serving die. -/
  | servingHeartbeatTimeout (t : Nat)
  /-- CONTROL_TAKEOVER (R398): A promoted control die becomes active at an edge after applying the journal. -/
  | controlTakeover
  /-- ORPHAN_ENTER (R400): With no healthy control die, the device enters ORPHAN mode at the next edge. -/
  | orphanEnter
  /-- LEASE_RENEW (R401): The lease holder renews the Sentinel lease every 10 ms. -/
  | leaseRenew (t : Nat)
  /-- LEASE_EXPIRY (R401): An unrenewed SN0 lease expires after 50 ms and SN1 acquires it. -/
  | leaseExpiry (t : Nat)
  /-- LEASE_RECLAIM (R401): SN0 reclaims the lease by request and SN1 yields. -/
  | leaseReclaim (t : Nat)
  /-- I3C_WRITE (R425): An I3C private write sets the Sentinel index byte. -/
  | i3cWrite (index : Nat)
  /-- I3C_READ (R425): An I3C private read returns Sentinel registers from the index. -/
  | i3cRead (count : Nat)
  /-- UNCORRECTABLE_DATA (R384): Uncorrectable tier-1 data is handled by its class, and attempts that read it are dropped. -/
  | uncorrectableData (t : Nat) (kind : UncorrKind) (addr target : Nat) (bothLost : Bool) (readers : List Nat)
  /-- INGOT_REPAIR_DONE (R385): A poisoned ingot fetched from a peer or the golden image is rewritten, or the slot becomes BROKEN. -/
  | ingotRepairDone (slot cl granule : Nat) (ok : Bool) (bytes : List (BitVec 8))
  /-- BROKEN_SLOT_TIMEOUT (R386): At the 200th tick after BROKEN, the slot's remaining requests close with FAULT_MODEL. -/
  | brokenSlotTimeout (slot : Nat)
  /-- REBUILD_COMMIT (R387): A rebuild row's commit rewrites the group's pages and clears rebuild. -/
  | rebuildCommit (handle : Nat)
  /-- SPARE_ROW_SWAP (R392): A spare row replaces a failing row between bursts. -/
  | spareRowSwap (stack bank row : Nat)
  /-- SPARE_COLUMN_SWAP (R392): A spare column replaces a failing column. -/
  | spareColumnSwap (stack bank column : Nat)
  /-- SPARE_BANK_COPY_DONE (R392): After the bank copy, the spare bank is switched in at a tick edge. -/
  | spareBankCopyDone (stack bank spare : Nat)
  /-- TSV_SPARE_SWITCH (R392): A TSV spare is switched in a commit window with the channel idle 20 µs. -/
  | tsvSpareSwitch (stack lane : Nat)
  /-- BANK_RETIRE (R393): A bank with no spare left is retired; its objects are moved, replaced or rebuilt. -/
  | bankRetire (t stack bank : Nat)
  /-- CLUSTER_PAIR_FAILED (R394): A cluster or stack failure takes the pair out and moves the device along the ladder. -/
  | clusterPairFailed (t pair : Nat)
  /-- CLMAP_SWITCH (R395): After every lost shard is placed, the logical cluster map switches at a tick edge. -/
  | clmapSwitch
  /-- DEMOTION_COMPLETE (R267): Every granule and the manifest are written to tier 2 and the group becomes PARKED. -/
  | demotionComplete (handle t2Addr : Nat)
  /-- DEMOTION_FAIL (R267): A failed tier-2 write returns the group to RESIDENT and frees its tier-2 granules. -/
  | demotionFail (handle : Nat)
  /-- PROMOTION_COMPLETE (R284): Every granule is read and verified and the group becomes RESIDENT. -/
  | promotionComplete (handle : Nat) (data : List (BitVec 8))
  /-- TIER2_READ_FAIL (R285): A tier-2 read that errors or times out sets rebuild or closes the owner with FAULT_TIER2. -/
  | tier2ReadFail (handle : Nat)
  /-- PUBLISH_REWRITE_DONE (R277): After the sidecar rewrites end, the group's digest is looked up and inserted or switched. -/
  | publishRewriteDone (handle : Nat)
  /-- GRANULE_FILL_DONE (R263): A freed granule's fill ends, its bitmap bit clears and a FREEING group becomes unused. -/
  | granuleFillDone (index : Nat)
  /-- DIE_REBOOTED_HEALTHY (R397): A failed control or serving die that the Sentinel rebooted finishes its boot healthy and becomes
  the standby, clearing its failed mark. -/
  | dieRebootedHealthy (t code : Nat)
  /-- THERMAL_THRESHOLD_LEFT (R426): A sensor falling 3 °C below an alert or throttle threshold it had entered leaves that threshold,
  releasing THERM_ALERT_N or lifting the DRAM streaming cap. -/
  | thermalThresholdLeft (t code temp : Nat)
  /-- SNAPSHOT_READABLE (R435): The snapshot frozen at an edge becomes readable within 1 ms, after which STATS_READ returns it and
  TL_STAT.copying clears. -/
  | snapshotReadable (t : Nat)
  /-- FW_STAGE_VERIFIED (R367): The flash write of a staged image ends and its signature is verified, so that FW_STAGE completes with
  OK, BAD_SIGNATURE or FAULT_FLASH and fw_staged changes. -/
  | fwStageVerified (intact flashOk : Bool)
  /-- CAL_RECORD_SWITCHED (R416): A CAL_WRITE's new Calibration Record is written, verified and the record-area pointer switched, so
  that CAL_WRITE completes and new thermal offsets take effect. -/
  | calRecordSwitched
  /-- MEASUREMENT_UPDATE (R432): Every 1 ms the power and thermal registers and TL_ENERGY_MJ are updated from the measured MAIN48
  power, voltage, current and temperatures. -/
  | measurementUpdate (t watts volts amps logic dram : Nat) (r : Readings)
  deriving DecidableEq, Repr

end Sys2Proof
end

