-- ==== Sys2Proof/Decode.lean ====
section
/-! DEFINITION. Reading a command from a word. The spec's table gives none of its rows an encoding in bits: commands reach
the block as register writes, mailbox slots, packets, flits and events, whose own layouts the meanings read. -/

namespace Sys2Proof

/-- The command that a word spells by the table's bits: none, since no row of the table has bits. -/
def decodeTableWord (_nbits _w : Nat) : Option Instr := none

end Sys2Proof
end

