-- ==== Sys2Proof/Config.lean ====
section
/-! DEFINITION. The values the spec leaves open, as constants with no body: nothing can be proved of what they are, so a
statement that holds in this model holds whatever they are (log 6). A constant applied to the state's counter of drawn free
values gives a fresh value each time; one applied to operands gives the same value for the same operands. -/

namespace Sys2Proof.Config

open Sys2Proof

/-- The unused handle a new page group takes (R265 names no rule of choice), as an index into the unused handles. -/
opaque freeHandle : Nat → Nat
/-- The permitted placement the Tier Manager chooses (R262): bank of a frame or granule, by draw, cluster and ordinal. -/
opaque place : Nat → Nat → Nat → Nat
/-- The planner's estimate of a kernel's energy in mJ before correction (R98 gives its inputs, not its formula): model slot and
kkind, which are its kind (R100), row tokens, context lengths. -/
opaque kernelEnergy : Nat → Nat → Nat → List Nat → Nat
/-- The first semaphore number from which the planner grants free ones (R216 names no rule of choice), by draw. -/
opaque semStart : Nat → Nat
/-- Units in the last place, modulo 5, less 2, by which the firmware's function tables 0 to 2 differ from the exact value (R212 bounds the
difference by 2): table, operand. -/
opaque tableError : Nat → U32 → Nat
/-- What the firmware's function tables 0 to 2 return below and above their domain (R212 does not say): table, above. -/
opaque tableEdge : Nat → Bool → U32
/-- The bucket of an n-gram key in the lookup table (R241 gives no hash). -/
opaque ngramBucket : List Nat → Nat
/-- Sign and payload of the NaN an operation forms (R174 names IEEE 754, which fixes neither), by operands. -/
opaque nanBits : U32 → U32 → U32
/-- Place of a lane in the fixed binary tree that combines lane results (R213 fixes no shape): lanes are taken in the order
of this key, ties in lane order, and added pairwise level by level. -/
opaque laneKey : Nat → Nat
/-- A word that a vector chain reads where R210 to R212 state none, by draw, lane and stage: a table of a mode or div
that no row defines, a tap past the last stage; and a draft logit that a KERNEL_START does not carry (R245). -/
opaque openWord : Nat → Nat → Nat → U32
/-- The run of free blocks at which a grant of Central Store blocks begins (no rule fixes the placement), by draw. -/
opaque startRun : Nat → Nat
/-- The second to which Invar steps at the first PPS edge (R29 fixes only that it is a whole one), by draw. -/
opaque ppsSecond : Nat → Nat
/-- The token settled at a position where no candidate is finite (R226 gives none), by what R230 lets it depend on: seed, position, and
the tokens before it. -/
opaque openToken : U64 → Nat → List Nat → Nat
/-- Bytes that a sharded row receives in its tick (R102 gives no figure): tick index, slot, row tokens. -/
opaque receiveBytes : Nat → Nat → Nat → Nat
/-- Tree node that token number i of a path came by, at a shard that is not the home: COMMIT_SET gives the path's length alone (R49, R50, R255),
by tick index, home, slot and i. -/
opaque shardNode : Nat → Nat → Nat → Nat → Nat
/-- Capacity in flits of the queue toward a set of global ports, of which GL_CTL.nonmin_pct is a part (R325). -/
opaque portQueue : Nat
/-- Flits queued at a global port of another member, at an Invar, as the device that routes takes them to be (R324, R325). -/
opaque peerQueue : Nat → Nat → Nat
/-- Shared pool flits that a port adds to the count of a virtual channel as it returns credits (R314). -/
opaque poolLend : Nat → Nat → Nat

/-- The bytes of the boot pointer and of the fuse state, which the boot log measures (R409; R407 gives their fields, not their layout): image
selected and write count; fused security version, key slots and revoked slots. -/
opaque pointerBytes : Bool → Nat → List Byte
opaque fuseBytes : Nat → List (BitVec 384) → List Nat → List Byte

end Sys2Proof.Config
end

