-- ==== Sys2Proof/Machine/State.lean ====
section
/-! DEFINITION. The state of the block, as plain data: every register, table, FIFO, buffer, counter, mode and pin the spec
gives it, and the queue of waiting commands. The value after := is the value after reset; State.reset takes each field there.
Readings of the spec: logs 3, 4, 23. -/

namespace Sys2Proof.Machine

open Sys2Proof

/-- Sparse byte memory over device addresses (R258): addresses strictly rising, no byte equal to 0, which is what an
unlisted address reads as (log 5). -/
abbrev Memory := List Host.Cell

/-- Requests, rings and the commit-write log (03, 17). -/
structure ReqUnit where
  /-- 1,048,576 entries of 256 B; a slot not listed is FREE (R54, R81) -/
  table : List (Nat × Request) := []
  /-- 64 submission rings; a ring not listed is unregistered (R56) -/
  rings : List (Nat × Ring) := []
  /-- descriptors and recovery entries taken in this window, at most 4,096 (R43) -/
  taken : Nat := 0
  /-- an event of this window has been taken, after which no class-L command completes in it (R358) -/
  begun : Bool := false
  /-- ring whose turn it is to give a descriptor next, if it has one (R43) -/
  turn : Nat := 0
  /-- commit-write log, 4 MiB (R374) -/
  log : List HostWrite := []
  /-- slots not yet settled in this commit window (R306) -/
  unsettled : List Nat := []
  /-- (slot, mailbox slot) of pauses that wait on settlement (R74, R76) -/
  pauseMarks : List (Nat × Nat) := []
  /-- (slot, mailbox slot) of resumes that cancel a pause of the same window (R80) -/
  resumeMarks : List (Nat × Nat) := []
  /-- credit doorbells waiting for their window: (slot, value written, stamp, port, arrival) (R42, R69) -/
  credits : List (Nat × Nat × Nat × Nat × Nat) := []
  /-- GATHERs of this window's commits that have not ended (R253, R306) -/
  gathersDue : List GatherDue := []
  /-- (slot, entries to write, closing status plus one or 0) once its GATHERs end (R306) -/
  outsDue : List (Nat × List (OutToken × Bool) × Nat) := []
  /-- the table as committed at the last edge, which REQ_QUERY reports (Table 16-3) -/
  edgeTable : List (Nat × Request) := []
  /-- stacks that hold the two Request Table mirrors (R54) -/
  mirrors : List Nat := [0, 8]
  deriving DecidableEq, Repr, Inhabited

/-- Configuration that applies under R44: the registers, tenants, domains, power envelope and pins of model slots. -/
structure Settings where
  /-- RW registers -/
  regs : Registers := {}
  /-- 65,536 tenants; one not listed has the defaults (R91) -/
  tenants : List (Nat × Tenant) := []
  /-- 65,536 domains; one not listed has the defaults (R273) -/
  domains : List (Nat × Domain) := []
  /-- W (R24) -/
  envelope : Nat := 3600
  /-- pinned model slots as MODEL_PIN and MODEL_UNPIN set them (R289) -/
  pins : List Nat := []
  /-- IV_CTL as TICK_CONFIG sets it (R28, Table 2-8) -/
  ivCtl : BitVec 32 := 0
  deriving DecidableEq, Repr, Inhabited

/-- Invar, the tick and the group tick (02_tick.md). -/
structure TickUnit where
  /-- IV_COUNT, 64 bits (R26, Table 2-5) -/
  iv : Nat := 0
  /-- IV_STAT.offset_ns, 16 bits signed, saturating (Table 2-9) -/
  ivOffset : Int := 0
  /-- IV_STAT.ref_lost (R28) -/
  refLost : Bool := false
  /-- IV_STAT.holdover (R28) -/
  holdover : Bool := false
  /-- IV_STAT.locked -/
  locked : Bool := false
  /-- IV_STAT.pps_seen (R29) -/
  ppsSeen : Bool := false
  /-- IV_PPS_STAMP, 64 bits (R29) -/
  ppsStamp : Nat := 0
  /-- TK_CFG.tick_len_us, 16 bits (R52, Table 2-6) -/
  tickUs : Nat := 10000
  /-- TK_CFG.commit_len_us, 16 bits (R52, Table 2-6) -/
  commitUs : Nat := 400
  /-- TK_PEND_CFG: pending T and C, reads 0 when none (R53) -/
  pendCfg : Option (Nat × Nat) := none
  /-- TK_PEND_INDEX, 64 bits, 0 none (R53) -/
  pendIndex : Nat := 0
  /-- T and C frozen at this o_k for the next tick (R44, R53) -/
  frozenCfg : Option (Nat × Nat) := none
  /-- TK_INDEX, 64 bits (R33) -/
  index : Nat := 0
  /-- TK_EDGE, t_k, 64 bits -/
  edge : Nat := 0
  /-- TK_COMMIT_OPEN, o_k, 64 bits -/
  commitOpenAt : Nat := 0
  /-- a tick is in progress (R33) -/
  running : Bool := false
  /-- TK_STAT.commit_open (Table 2-7) -/
  inCommit : Bool := false
  /-- edge at which ticks start or resume, 64 bits, 0 none (R33) -/
  firstEdge : Nat := 0
  /-- index of the tick that starts at firstEdge (R33) -/
  firstIndex : Nat := 0
  /-- SERVING entered since the last cold reset (R27) -/
  everServing : Bool := false
  /-- TK_STAT.in_group -/
  inGroup : Bool := false
  /-- group number, 0x1F while unset (R365) -/
  group : Nat := 31
  /-- TK_STAT.is_master -/
  isMaster : Bool := false
  /-- TK_STAT.master_member, 4 bits -/
  master : Nat := 0
  /-- TK_STAT.aligned (Table 2-5, Table 2-7) -/
  aligned : Bool := true
  /-- consecutive edges within 50 ns while not aligned (R47) -/
  alignedRun : Nat := 0
  /-- membership view: (member, consecutive edges at which it sent SYNC) (R48) -/
  syncRuns : List (Nat × Nat) := []
  /-- consecutive edges with no SYNC from the tick master (R48) -/
  masterMisses : Nat := 0
  /-- members whose SYNC arrived since the last edge (R48) -/
  syncSeen : List Nat := []
  /-- (member, consecutive edges without its SYNC) (R380) -/
  syncGaps : List (Nat × Nat) := []
  /-- votes of the tick: (sender, home identity, slot, on time, tokens, chunk tokens) (R49) -/
  votes : List (Nat × Nat × Nat × Bool × Nat × Nat) := []
  /-- shards that the votes of the tick name for their requests: (home identity, slot, identities) (R49) -/
  named : List (Nat × Nat × List Nat) := []
  /-- the cutoff o_k + C/2 has not passed (R49) -/
  votingOpen : Bool := false
  /-- COMMIT_SET of the last 16 ticks: (tick, entries (home, slot, tokens, chunk tokens)) (R50) -/
  commitSets : List (Nat × List (Nat × Nat × Nat × Nat)) := []
  /-- ticks whose COMMIT_SET this member has applied (R50) -/
  applied : List Nat := []
  /-- the member runs on the group's grid (R33) -/
  gridSynced : Bool := true
  /-- the one step of Invar that R27 leaves after SERVING has been taken -/
  joinStepped : Bool := false
  /-- members whose last SYNC said that they are in SERVING or DEGRADED and aligned (R48) -/
  syncFit : List Nat := []
  /-- groups whose tick master's SYNC arrived since the last edge (R47) -/
  groupsSeen : List Nat := []
  /-- lowest-numbered of the groups heard, this one with them, 32 before any edge in a group (R47) -/
  lowGroup : Nat := 32
  /-- the group number has been set (R365, Table 2-7) -/
  groupSet : Bool := false
  /-- Invar at which the gap between ticks that R41 names began: the last warm reset, or the cold reset -/
  gapFrom : Nat := 0
  /-- edge at which ticks started or resumed after that gap (R41) -/
  gapTo : Nat := 0
  /-- tick masters of other groups as last heard: (group, member) (R47) -/
  peerMasters : List (Nat × Nat) := []
  /-- ticks that this device, as the new tick master, is to settle in the next commit window (R37, R51) -/
  settling : List Nat := []
  /-- COMMIT_SETs fetched for earlier ticks, to be applied in the next commit window: (tick, entries) (R37, R50) -/
  fetched : List (Nat × List (Nat × Nat × Nat × Nat)) := []
  deriving DecidableEq, Repr, Inhabited

/-- The planner, plans, accounts and step results (04_step_plans.md, 10). -/
structure PlanUnit where
  /-- plan k in plan order of the planner (R82) -/
  rows : List PlanRow := []
  /-- plan k+1 as built (R87) -/
  nextRows : List PlanRow := []
  /-- jobs of plan k in plan order (R85) -/
  jobs : List Job := []
  /-- model slot of the saved job (R104) -/
  saved : Option Nat := none
  /-- step result buffer of tick k (R34) -/
  attempts : List Attempt := []
  /-- virtual times: (tenant, class, vt), 64 bits each (R94, R95) -/
  vts : List (Nat × Nat × Nat) := []
  /-- pairs that have an eligible row (R96) -/
  activePairs : List (Nat × Nat) := []
  /-- remaining budget of tenants that keep an account, 1/64 token (R92) -/
  accounts : List (Nat × Int) := []
  /-- (tenant, tick index) of the last budget window begun (R92) -/
  windowsBegun : List (Nat × Nat) := []
  /-- SV_PLAN_STAT (Table 4-8) -/
  planStat : BitVec 64 := 0
  /-- SV_SPEC_STAT (Table 10-5) -/
  specStat : BitVec 32 := 0
  /-- quarantined model slots, SV_QUAR (R110) -/
  quar : List Nat := []
  /-- model slots released from quarantine since o_k, which plan k+1 does not see (R38, R110) -/
  released : List Nat := []
  /-- fault counts of model slots, SV_FAULT_RUN (R110) -/
  faultRun : List (Nat × Nat) := []
  /-- measured energy of the last 64 row-less ticks in mJ (R98) -/
  emptyEnergies : List Nat := []
  /-- sum of measured power since READY in W, one per ms (R98) -/
  readyPowerSum : Nat := 0
  /-- measurements in readyPowerSum (R98) -/
  readyPowerN : Nat := 0
  /-- correction factors of (model slot, kkind) in 1/65,536 units; absent 1.0 (R100) -/
  corr : List ((Nat × Nat) × Nat) := []
  /-- estimated energy in mJ, before correction, of this tick's kernels by (model slot, kkind) (R100) -/
  kindEnergy : List ((Nat × Nat) × Nat) := []
  /-- energy that each die and stack drew in row-less ticks: (die code, uJ, intervals of 10 us) (R100) -/
  idleEnergy : List (Nat × Nat × Nat) := []
  /-- measures of the last 16 jobs of each slot: (cluster ns, hub bytes, row tokens) (R97) -/
  tokenCost : List (Nat × List (Nat × Nat × Nat)) := []
  /-- measures of the last 16 bank passes: (bank ns, pages read) (R97) -/
  pageCost : List (Nat × Nat) := []
  /-- rows of plan k+1 sent in SHARD_PLANs in this window, none before they are sent (R101) -/
  sent : Option (List PlanRow) := none
  /-- engine quantities last read of the kernels in progress: (model slot, kernel, quantities) (R95) -/
  running : List (Nat × Nat × KernelMeasure) := []
  /-- readings of the regulators since the last commit-open (R100) -/
  meters : List Meter := []
  /-- measured costs of sharded rows reported in the VOTE exchange: (destination, slot, cluster ns, bank ns, hub bytes) (R101) -/
  costsOut : List (Nat × Nat × Nat × Nat × Nat) := []
  /-- costs that VOTEs brought before this device's own o_k: (slot, cluster ns, bank ns, hub bytes) (R49, R101) -/
  costsEarly : List (Nat × Nat × Nat × Nat) := []
  /-- semaphores granted to the jobs of the plan last built (R216) -/
  nextSems : Nat := 0
  /-- rows of several shards homed here, to be charged when the window ends: (slot, tenant, class, cluster ns, bank ns, hub bytes) (R101) -/
  costsDue : List (Nat × Nat × Nat × Nat × Nat × Nat) := []
  /-- rows of counted SHARD_PLANs: (home, slot, nodes, chunk) (R101) -/
  shardListed : List (Nat × Nat × Nat × Nat) := []
  /-- receive reservations of rows: (traffic class, SHIP blocks, tick of the plan, slot) (R102) -/
  reservations : List (Nat × Nat × Nat × Nat) := []
  /-- the next plan built holds no jobs (R201) -/
  emptyTick : Bool := false
  /-- the tick in progress is the empty tick of R201 -/
  emptyRunning : Bool := false
  /-- model slots whose job faulted in this tick (R110) -/
  faultedJobs : List Nat := []
  /-- model slots whose job ran to its end in this tick (R110) -/
  finishedJobs : List Nat := []
  /-- plan builds still to be skipped after a serving takeover (R399) -/
  noPlanTicks : Nat := 0
  /-- draft distributions of the tick's draft passes (R245) -/
  drafts : List DraftDist := []
  /-- rows whose attention outputs in a layer are NaN in this tick: (slot, node, layer) (R184) -/
  nanRows : List (Nat × Nat × Nat) := []
  /-- rows of sharded requests that wait for a COMMIT_SET: (tick, row) (R50) -/
  heldRows : List (Nat × PlanRow) := []
  /-- model slots with a poisoned ingot not yet repaired (R385) -/
  repairing : List Nat := []
  deriving DecidableEq, Repr, Inhabited

/-- Sceol: mailbox, events, Capability Block, firmware (16_sceol.md). -/
structure MbUnit where
  /-- the 64 KiB of the 256 mailbox slots by BAR0 offset from 0x001_0000, zero bytes not listed (R355) -/
  bytes : List (Nat × BitVec 8) := []
  /-- MB_DONE: slots whose bit is set (R355) -/
  done : List Nat := []
  /-- commands taken and not completed, oldest first (R356) -/
  outstanding : List MbCommand := []
  /-- SC_BUSY_DOORBELLS, 64 bits (R356) -/
  busyDoorbells : Nat := 0
  /-- doorbells latched while no control die is active: (slot, stamp, port, arrival) (R359) -/
  latched : List (Nat × Nat × Nat × Nat) := []
  /-- event queue of 1,024 records, oldest first (R364) -/
  events : List EventRec := []
  /-- records dropped since the last read (R364) -/
  lost : Bool := false
  /-- event_count, 32 bits (R342) -/
  eventCount : Nat := 0
  /-- SC_EVENT_LOST, 64 bits (R364) -/
  eventLost : Nat := 0
  /-- Capability Block generation, 32 bits (R366) -/
  capGen : Nat := 0
  /-- Device Serial Number, 64 bits (R365) -/
  serial : Nat := 0
  /-- part number, ASCII (R365) -/
  part : BitVec 128 := 0
  /-- flash 0 (R407) -/
  imageA : FwImage := {}
  /-- flash 1 (R407) -/
  imageB : FwImage := {}
  /-- boot pointer names image B (R407) -/
  bootB : Bool := false
  /-- boot pointer write count (R407) -/
  bootWrites : Nat := 0
  /-- FW_STAGE under way: (mailbox slot, image being written) (R367) -/
  staging : Option (Nat × FwImage) := none
  /-- live activation phase (R368) -/
  act : ActPhase := .none
  /-- mailbox slot of the FW_ACTIVATE -/
  actMb : Nat := 0
  /-- Invar at which the phase began -/
  actSince : Nat := 0
  /-- ticks of probation run (R368) -/
  actTicks : Nat := 0
  /-- image that CT0 and CT1 run: true B (R368) -/
  runsB : List Bool := [false, false]
  /-- CAL_WRITE under way: (mailbox slot, new record) (R416, R417) -/
  calWrite : Option (Nat × List (BitVec 8)) := none
  deriving DecidableEq, Repr, Inhabited

/-- Central Store, vector engines and semaphores (08_central_store.md). -/
structure StoreUnit where
  /-- HB_STRIPE_STAT.failed_mask (Table 8-7) -/
  failed : List Nat := []
  /-- geometry 7 + 2: data_units reads 0x7 (R201) -/
  sevenTwo : Bool := false
  /-- dies of the 7 + 2 geometry in ascending order (R201) -/
  survivors : List Nat := []
  /-- HB_STRIPE_STAT.reconf_pending -/
  reconfPending : Bool := false
  /-- the standing pool has been copied in the empty tick (R201) -/
  restriped : Bool := false
  /-- units whose CRC fails: (stripe row, die) (R199) -/
  bad : List (Nat × Nat) := []
  /-- blocks held (R205) -/
  held : List Holding := []
  /-- waiting requests, oldest first (R206) -/
  queue : List Waiter := []
  /-- HB_RECON_COUNT, 64 bits (R199) -/
  reconCount : Nat := 0
  /-- HB_UNCORR_COUNT, 64 bits (R199) -/
  uncorrCount : Nat := 0
  /-- granted semaphores; one not listed is free and zero (R215, R217) -/
  sems : List (Nat × Semaphore) := []
  /-- vector engines -/
  engines : List (Nat × VectorEngine) := []
  /-- candidate records in LOGIT blocks (R225) -/
  records : List CandRec := []
  deriving DecidableEq, Repr, Inhabited

/-- Tier Manager (11_tiers.md). -/
structure TierUnit where
  /-- Page Group Table by handle; a handle not listed is unused (R265) -/
  groups : List (Nat × PageGroup) := []
  /-- incarnations of unused handles (R266) -/
  incarnations : List (Nat × Nat) := []
  /-- prefix index (R275) -/
  index : List IndexEntry := []
  /-- registered tier-2 regions (R283) -/
  regions : List Region := []
  /-- TM_T1_FREE: free tier-1 granules of all pools, 64 bits -/
  t1Free : Nat := 0
  /-- TM_T2_FREE: free granules of paging regions, 64 bits -/
  t2Free : Nat := 0
  /-- tier-1 granules charged per tenant (R280) -/
  used1 : List (Nat × Nat) := []
  /-- tier-2 granules charged per tenant (R280) -/
  used2 : List (Nat × Nat) := []
  /-- granules awaiting their fill (R263) -/
  fills : List PendingFill := []
  /-- TM_EVENT_STAT[63:48] -/
  evFailures : Nat := 0
  /-- TM_EVENT_STAT[47:32] -/
  evVictims : Nat := 0
  /-- TM_EVENT_STAT[31:16] -/
  evReplaced : Nat := 0
  /-- TM_EVENT_STAT[15:0] -/
  evRefused : Nat := 0
  /-- TM_EVENT_STAT as of the last tick -/
  evLast : BitVec 64 := 0
  /-- nanoseconds from o_k for which each digest pipeline is taken in this window (R276) -/
  pipes : List Nat := []
  /-- handles marked for publication in marking order (R277) -/
  publish : List Nat := []
  /-- promotions under way: (handle, requesting slot plus one or 0) (R284) -/
  promoting : List (Nat × Nat) := []
  /-- demotions under way (R284) -/
  demoting : List Nat := []
  /-- transfers between the tiers, in the order they were begun (R286) -/
  moves : List TierMove := []
  /-- Invar up to which the transfers have been served (R286) -/
  servedAt : Nat := 0
  /-- what demotions have written to tier 2: (tier-2 address, bytes), oldest first (R284) -/
  t2Writes : List (Nat × List (BitVec 8)) := []
  /-- buckets of the index whose operation in this tick met a poisoned read, once for each (R390) -/
  poisonedBuckets : List Nat := []
  deriving DecidableEq, Repr, Inhabited

/-- Model slots and Alloys (12_models_alloys.md). -/
structure ModelUnit where
  /-- 16 slots; one not listed is EMPTY (R305) -/
  slots : List (Nat × ModelSlot) := []
  /-- live generations, oldest first (R297) -/
  gens : List AlloyGen := []
  /-- newest generation number each id has held, with the order of its acceptance (R298) -/
  lastGen : List (Nat × Nat × Nat) := []
  /-- loads accepted -/
  accepted : Nat := 0
  deriving DecidableEq, Repr, Inhabited

/-- Gelcon (14_gelcon.md). -/
structure GelconUnit where
  /-- ports 0 to 20; one not listed is down and untrained (R337) -/
  ports : List (Nat × Port) := []
  /-- spare global port assignments: (group port index 93 to 95, role) (R321) -/
  spares : List (Nat × Nat) := []
  /-- port states reported in the group: (member, port, up) (R324) -/
  view : List (Nat × Nat × Bool) := []
  /-- open shipments, at most 4,096 (R332) -/
  ships : List Shipment := []
  /-- packets this device has sent, oldest first -/
  outbox : List Packet := []
  /-- Sceol-to-Sceol messages this device has sent, oldest first: (destination, message) (R318) -/
  mgmtOut : List (Nat × MgmtMsg) := []
  /-- message tag of the next message, 32 bits (R318) -/
  nextTag : Nat := 0
  /-- ERR packets received: (cause, offending ptype, tag) (Table 14-8) -/
  errs : List (Nat × Nat × Nat) := []
  /-- migrations this device sends: (slot, destination, progress through Table 17-2) (R381) -/
  migrations : List (Nat × Nat × Nat) := []
  /-- migrations this device receives: (slot, source, entry as PREPARE carried it) (R381) -/
  incoming : List (Nat × Nat × Request) := []
  /-- MGMT messages that wait for their commit window: (stamp, link port, source, message) (R30, R42, R318) -/
  mgmtIn : List (Nat × Nat × Nat × MgmtMsg) := []
  /-- bytes in the TC0 area: packets of the messages that this tick's commit takes (R319) -/
  tc0Used : Nat := 0
  deriving DecidableEq, Repr, Inhabited

/-- Host ports and BAR0 (15_host_ports.md). -/
structure HostUnit where
  /-- HX0 and HX1 -/
  ports : List HostPort := [{}, {}]
  /-- HX_STAT.single_port (R339) -/
  singlePort : Bool := false
  /-- host events that have arrived, which gives the next one its place (R42) -/
  arrivals : Nat := 0
  /-- HX_MISUSE_COUNT, 64 bits (R351) -/
  misuseCount : Nat := 0
  /-- HX_MISUSE_LOG ring buffer (R351, Table 15-9) -/
  misuseLog : List (BitVec 128) := List.replicate 16 0
  /-- HX_DBG_DENIED, 32 bits (R343) -/
  dbgDenied : Nat := 0
  /-- DBG_BASE, 64 bits (R343) -/
  dbgBase : Nat := 0
  /-- MSI-X table, 2,048 entries; one not listed is masked and zero -/
  msix : List (Nat × MsixEntry) := []
  /-- MSI-X pending bits -/
  pba : List Nat := []
  /-- MSI-X writes sent: (vector, port), oldest first -/
  raised : List (Nat × Nat) := []
  /-- (vector, port) due at the end of this commit window, each vector once (R347) -/
  windowVectors : List (Nat × Nat) := []
  /-- ports byte of the Device Status Block (R342) -/
  portsByte : BitVec 8 := 0
  /-- host writes issued, oldest first, until their flush (R345) -/
  posted : List HostWrite := []
  /-- a port was declared down and the rebinding of R349 is due -/
  rebind : Bool := false
  /-- a port came up with none up: bindings move to it (R350) -/
  rejoin : Bool := false
  deriving DecidableEq, Repr, Inhabited

/-- Faults, spares, dies and Sentinels (17_faults.md). -/
structure FaultUnit where
  /-- FT_CLMAP (R395, R402) -/
  clmap : List Nat := [0, 1, 2, 3, 4, 5, 6, 7, 8, 9, 10, 11, 12, 13, 14, 15]
  /-- failed pairs, cl_failed (R365, R394) -/
  clFailed : List Nat := []
  /-- failed link dies, lk_failed -/
  lkFailed : List Nat := []
  /-- failed control dies -/
  ctFailed : List Nat := []
  /-- failed serving dies -/
  svFailed : List Nat := []
  /-- failed host dies -/
  hxFailed : List Nat := []
  /-- FT_SPARE_LOW -/
  spareLow : BitVec 16 := 0
  /-- FT_LAST_UNCORR, 64 bits -/
  lastUncorr : Nat := 0
  /-- FT_STAT.lease: SN1 holds it (R401) -/
  lease1 : Bool := false
  /-- Invar at which the lease expires (R401) -/
  leaseUntil : Nat := 50000000
  /-- SN0 has asked for the lease back (R401) -/
  reclaim : Bool := false
  /-- FT_STAT.sv_active -/
  svActive : Nat := 0
  /-- FT_STAT.ct_active -/
  ctActive : Nat := 0
  /-- FT_STAT.sv_standby_ok -/
  svStandby : Bool := false
  /-- FT_STAT.ct_standby_ok -/
  ctStandby : Bool := false
  /-- FT_STAT.draining -/
  draining : Bool := false
  /-- FT_STAT.needs_service -/
  needsService : Bool := false
  /-- FT_STAT.orphan -/
  orphan : Bool := false
  /-- control_lost (R400) -/
  controlLost : Bool := false
  /-- control promotion declared at this Invar, not yet active (R398) -/
  takeover : Option Nat := none
  /-- dies rebooted once: 34, 35 CT; 36, 37 SV (R397) -/
  rebooted : List Nat := []
  /-- spare rows brought in: (stack, bank, row) (R391) -/
  spareRows : List (Nat × Nat × Nat) := []
  /-- spare columns: (stack, bank, column) (R391) -/
  spareCols : List (Nat × Nat × Nat) := []
  /-- spare banks used: (stack, bank) (R391) -/
  spareBanks : List (Nat × Nat) := []
  /-- TSV spares used: (stack, group of 64) (R391) -/
  tsvSpares : List (Nat × Nat) := []
  /-- retired banks (R393) -/
  retiredBanks : List (Nat × Nat) := []
  /-- poisonings: (stack, granule, Invar) of the last 24 h (R385) -/
  poisonHist : List (Nat × Nat × Nat) := []
  /-- new FT_CLMAP to switch at a tick edge once shards are placed (R395) -/
  remapDue : Option (List Nat) := none
  /-- logical clusters whose shards are being placed (R395) -/
  clsToPlace : List Nat := []
  /-- losses whose state changes wait for a commit window, oldest first (R37, R264) -/
  lossDue : List LossDue := []
  /-- spare banks copied that switch in at the next edge: (stack, bank, spare) (R392) -/
  bankSwaps : List (Nat × Nat × Nat) := []
  deriving DecidableEq, Repr, Inhabited

/-- Clock domains, power and temperature (01, 19). -/
structure PowerUnit where
  /-- MHz the governor allows each cluster domain (R25); the domain runs at the lower of this and clusterTherm (R427) -/
  clusterGov : List Nat := List.replicate 16 1600
  /-- MHz the thermal rule allows each cluster domain (R426) -/
  clusterTherm : List Nat := List.replicate 16 1600
  /-- MHz the governor allows the hub domain (R25) -/
  hubGov : Nat := 2000
  /-- MHz the thermal rule allows the hub domain (R426) -/
  hubTherm : Nat := 2000
  /-- die codes at or above throttle (R426, R427) -/
  thermHold : List Nat := []
  /-- PW_STAT.tick_w (R432) -/
  tickW : Nat := 0
  /-- PW_STAT.ms_w -/
  msW : Nat := 0
  /-- PW_MAIN48.volts_10mv -/
  volts10mv : Nat := 0
  /-- PW_MAIN48.amps_10ma -/
  amps10ma : Nat := 0
  /-- TH_STAT.logic_max -/
  logicMax : Nat := 0
  /-- TH_STAT.dram_max -/
  dramMax : Nat := 0
  /-- TH_STAT.hot_code -/
  hotCode : Nat := 0
  /-- sensors (die codes) that entered alert and have not left it (R426) -/
  alerts : List Nat := []
  /-- stacks at their DRAM throttle threshold (R426) -/
  dramThrottle : List Nat := []
  /-- Table 19-5, index 0x01 [4] -/
  tripped : Bool := false
  /-- Table 19-5, index 0x08 -/
  tripCode : Nat := 0
  /-- Table 19-5, index 0x09 -/
  tripTemp : Nat := 0
  /-- TL_ENERGY_MJ, 64 bits (R440) -/
  energyMj : Nat := 0
  /-- sum of ms_w over the tick in progress -/
  tickPowerSum : Nat := 0
  /-- measurements in tickPowerSum -/
  tickPowerN : Nat := 0
  deriving DecidableEq, Repr, Inhabited

/-- Device state, boot, straps and pins (18, 19). -/
structure StartUnit where
  /-- ST_STATE (R419) -/
  state : DevState := .boot
  /-- state before a warm reset (R418) -/
  prior : DevState := .boot
  /-- ST_BOOT_STAT.cause (Table 18-8) -/
  cause : Nat := 0
  /-- ST_BOOT_STAT.image -/
  imageB : Bool := false
  /-- security version fused, 0 to 63 (R408) -/
  fusedSvn : Nat := 0
  /-- fused key slots 0 to 3: SHA-384 of a public key (R407); slot 0 at reset that of the curve's base point (log 43) -/
  keySlots : List (BitVec 384) := [0x6b36f46e385e98d339da8dcafbca306cc657dc792eb8d970c7597084f8ce27319ee64fc2b6c8dbc24a43434c202d8e6e, 0, 0, 0]
  /-- revoked key slots (R407) -/
  revoked : List Nat := []
  /-- ST_BOOT_STAT.stage (Table 18-8) -/
  stage : Nat := 0
  /-- CAL_STAT (Table 18-9) -/
  calStat : BitVec 32 := 0
  /-- ST_READY_MS -/
  readyMs : Nat := 0
  /-- ST_MEAS (R409) -/
  meas : BitVec 384 := 0
  /-- measured-boot log: (component, digest), at most 32 (R409) -/
  bootLog : List (Nat × BitVec 384) := []
  /-- a warm reset takes effect at the end of the window (R376) -/
  warmPending : Bool := false
  /-- the warm reset sequence runs (R418) -/
  warmRunning : Bool := false
  /-- mailbox slots of WARM_RESETs to complete (R360) -/
  warmMb : List Nat := []
  /-- warm resets since cold reset, 16 bits (R342) -/
  resetCount : Nat := 0
  /-- RESET_N high -/
  resetN : Bool := true
  /-- WARM_RESET_N high -/
  warmN : Bool := true
  /-- PWR_REQ asserted -/
  pwrReq : Bool := false
  /-- Invar at which PWR_REQ was last asserted (R406) -/
  pwrReqAt : Nat := 0
  /-- PWR_GOOD asserted -/
  pwrGood : Bool := false
  /-- FAULT_N asserted (low) -/
  faultN : Bool := false
  /-- THERM_ALERT_N asserted (low) -/
  thermAlertN : Bool := false
  /-- MEMBER_ID[3:0] as sampled (R405) -/
  memberId : Nat := 0
  /-- index byte of the Sentinel (R425) -/
  i3cIndex : Nat := 0
  /-- byte 0x01 as last reported by an in-band interrupt (R425) -/
  i3cByte1 : BitVec 8 := 0
  /-- in-band interrupts raised (R425) -/
  ibi : Nat := 0
  /-- Invar at which PWR_REQ is asserted again after a time-out, 0 none (R406) -/
  pwrRetryAt : Nat := 0
  /-- a firmware image has been verified since the cold start (R407) -/
  firmwareOk : Bool := false
  /-- Calibration Record in force (R413) -/
  record : List (BitVec 8) := []
  /-- sections derived from scratch in this boot: (kind, index) (R411, R415) -/
  derived : List (Nat × Nat) := []
  /-- pairs that fail self-test in this boot (R412) -/
  stackBad : List Nat := []
  deriving DecidableEq, Repr, Inhabited

/-- Telemetry (20_telemetry.md). -/
structure TelUnit where
  /-- live counters -/
  live : Counters := {}
  /-- latest readable snapshot (TL_SNAP_TICK, TL_SNAP_STAMP) -/
  readable : Option Snapshot := none
  /-- snapshot frozen and not yet readable (TL_STAT.copying) -/
  frozen : Option Snapshot := none
  /-- QZ_FALLBACK, 64 bits (R196) -/
  qzFallback : Nat := 0
  /-- QZ_CLIP, 64 bits (R196) -/
  qzClip : Nat := 0
  /-- QZ_NONFINITE, 64 bits (R196) -/
  qzNonfinite : Nat := 0
  deriving DecidableEq, Repr, Inhabited

/-- The block: every piece of state the spec gives it, and the queue of waiting commands. -/
structure State where
  /-- the variant, fixed at manufacture (R1) -/
  variant : Variant := .xf
  /-- device state, boot, pins -/
  start : StartUnit := {}
  /-- clock domains, power, temperature -/
  power : PowerUnit := {}
  /-- Invar and ticks -/
  tick : TickUnit := {}
  /-- requests and rings -/
  req : ReqUnit := {}
  /-- configuration in force, as frozen at the last commit-open (R44) -/
  cfg : Settings := {}
  /-- configuration as the commands have set it (R44) -/
  cfgNext : Settings := {}
  /-- Sceol -/
  mb : MbUnit := {}
  /-- planner -/
  plan : PlanUnit := {}
  /-- bank units of CL0 to CL15; a cluster not listed is as reset -/
  banks : List (Nat × BankCluster) := []
  /-- matrix units of CL0 to CL15; a cluster not listed is as reset -/
  matrix : List (Nat × MatrixCluster) := []
  /-- Central Store -/
  store : StoreUnit := {}
  /-- Tier Manager -/
  tier : TierUnit := {}
  /-- models and Alloys -/
  models : ModelUnit := {}
  /-- Gelcon -/
  gelcon : GelconUnit := {}
  /-- host ports -/
  host : HostUnit := {}
  /-- faults and sparing -/
  faults : FaultUnit := {}
  /-- telemetry -/
  tel : TelUnit := {}
  /-- bytes of the Central Store, the scratchpads and tier 1 by device address (R258) -/
  mem : Memory := []
  /-- the MODEL's own field: the bytes the block last returned to a command that reads (SEM_READ, I3C_READ, DEBUG_WINDOW_ACCESS) -/
  reply : List (BitVec 8) := []
  /-- the MODEL's own field, not the spec's: counts the free values drawn -/
  freeCtr : Nat := 0
  /-- the MODEL's own field: commands waiting, first in first out -/
  pending : List Instr := []
  deriving DecidableEq, Repr

/-- The block right after a cold reset: BOOT, Invar at 0, every table void, every register at the value its table gives
(R26, R81, R113, R167, R217, R287, R305, R337, R402, R419, R433), the queue of commands empty. -/
def State.reset : State := {}

/-- Why a step stops with a fault. No rule of the spec stops the block on a command, so nothing raises one. -/
inductive Fault where
  /-- Raised by no meaning: no rule of the spec stops the block on a command. Safe. -/
  | unreachable
  deriving DecidableEq, Repr

/-- Why a command has no meaning. -/
inductive Refusal where
  /-- Raised by a dispatch arm of a command whose meaning is not written yet. Safe: nothing is claimed of it. -/
  | notModelled (mnemonic : String)
  deriving DecidableEq, Repr

/-- Updates the start part of the state. -/
def State.onStart (s : State) (f : StartUnit → StartUnit) : State := { s with start := f s.start }

/-- Updates the power part of the state. -/
def State.onPower (s : State) (f : PowerUnit → PowerUnit) : State := { s with power := f s.power }

/-- Updates the tick part of the state. -/
def State.onTick (s : State) (f : TickUnit → TickUnit) : State := { s with tick := f s.tick }

/-- Updates the req part of the state. -/
def State.onReq (s : State) (f : ReqUnit → ReqUnit) : State := { s with req := f s.req }

/-- Updates the cfg part of the state. -/
def State.onCfg (s : State) (f : Settings → Settings) : State := { s with cfg := f s.cfg }

/-- Updates the cfgNext part of the state. -/
def State.onCfgNext (s : State) (f : Settings → Settings) : State := { s with cfgNext := f s.cfgNext }

/-- Updates the mb part of the state. -/
def State.onMb (s : State) (f : MbUnit → MbUnit) : State := { s with mb := f s.mb }

/-- Updates the plan part of the state. -/
def State.onPlan (s : State) (f : PlanUnit → PlanUnit) : State := { s with plan := f s.plan }

/-- Updates the store part of the state. -/
def State.onStore (s : State) (f : StoreUnit → StoreUnit) : State := { s with store := f s.store }

/-- Updates the tier part of the state. -/
def State.onTier (s : State) (f : TierUnit → TierUnit) : State := { s with tier := f s.tier }

/-- Updates the models part of the state. -/
def State.onModels (s : State) (f : ModelUnit → ModelUnit) : State := { s with models := f s.models }

/-- Updates the gelcon part of the state. -/
def State.onGelcon (s : State) (f : GelconUnit → GelconUnit) : State := { s with gelcon := f s.gelcon }

/-- Updates the host part of the state. -/
def State.onHost (s : State) (f : HostUnit → HostUnit) : State := { s with host := f s.host }

/-- Updates the faults part of the state. -/
def State.onFaults (s : State) (f : FaultUnit → FaultUnit) : State := { s with faults := f s.faults }

/-- Updates the tel part of the state. -/
def State.onTel (s : State) (f : TelUnit → TelUnit) : State := { s with tel := f s.tel }

end Sys2Proof.Machine
end

