-- ==== Sys2Proof/Machine/Ops.lean ====
section
/-! DEFINITION. The named operations over the state that every meaning is written in: sparse tables, little-endian bytes, the
device memory, Invar, host writes, interrupts, events, and the completion of a mailbox command.
Readings of the spec: logs 1, 2, 5, 6, 7. -/

namespace Sys2Proof.Machine

open Sys2Proof

/-! ## Sparse tables: lists of (key, value) with the keys rising -/

/-- The quotient rounded up. -/
def ceilDiv (a b : Nat) : Nat := (a + b - 1) / b

/-- The value at key k. -/
def tabGet {α : Type} (k : Nat) : List (Nat × α) → Option α
  | [] => none
  | (a, v) :: r => if a = k then some v else tabGet k r

/-- The table with v at key k. -/
def tabPut {α : Type} (k : Nat) (v : α) : List (Nat × α) → List (Nat × α)
  | [] => [(k, v)]
  | (a, w) :: r => if k < a then (k, v) :: (a, w) :: r else if a = k then (k, v) :: r else (a, w) :: tabPut k v r

/-- The table with nothing at key k. -/
def tabDel {α : Type} (k : Nat) (t : List (Nat × α)) : List (Nat × α) := t.filter (fun p => p.1 ≠ k)

/-- The value at key k, or d where none is listed. -/
def tabGetD {α : Type} (k : Nat) (d : α) (t : List (Nat × α)) : α := (tabGet k t).getD d

/-- The table with f applied to the value at key k, where one is listed. -/
def tabMod {α : Type} (k : Nat) (f : α → α) (t : List (Nat × α)) : List (Nat × α) :=
  match tabGet k t with
  | none => t
  | some v => tabPut k (f v) t

/-- The table with f applied to the value at key k, or to d where none is listed. -/
def tabUpd {α : Type} (k : Nat) (d : α) (f : α → α) (t : List (Nat × α)) : List (Nat × α) :=
  tabPut k (f (tabGetD k d t)) t

/-- The keys of a table rise strictly. -/
def tabSorted {α : Type} : List (Nat × α) → Bool
  | [] => true
  | (a, _) :: r => (match r with | [] => true | (b, _) :: _ => decide (a < b)) && tabSorted r

/-- A list of numbers as a set: x added once. -/
def setAdd (x : Nat) (l : List Nat) : List Nat := if l.contains x then l else l ++ [x]

/-- The list without x. -/
def setDel (x : Nat) (l : List Nat) : List Nat := l.filter (· ≠ x)

/-- The element at index i of a list, or d. -/
def nth {α : Type} (l : List α) (i : Nat) (d : α) : α := (l[i]?).getD d

/-- The numbers a, a+1, … a+n-1. -/
def upFrom (a : Nat) : Nat → List Nat
  | 0 => []
  | n + 1 => a :: upFrom (a + 1) n

/-! ## Little-endian bytes (R10) -/

/-- The number a little-endian byte string holds. -/
def leNat : List Byte → Nat
  | [] => 0
  | b :: r => b.toNat + 256 * leNat r

/-- The n little-endian bytes of a number, modulo 2^(8n). -/
def leBytes : Nat → Nat → List Byte
  | 0, _ => []
  | n + 1, v => BitVec.ofNat 8 v :: leBytes n (v / 256)

/-- The len bytes from offset off; a byte past the end reads zero. -/
def slice (bs : List Byte) (off len : Nat) : List Byte :=
  let t := (bs.drop off).take len
  t ++ List.replicate (len - t.length) 0

/-- The little-endian field of len bytes at offset off. -/
def field (bs : List Byte) (off len : Nat) : Nat := leNat (slice bs off len)

/-- Bits [hi:lo] of a number. -/
def bits (v hi lo : Nat) : Nat := v / 2 ^ lo % 2 ^ (hi + 1 - lo)

/-- Bit i of a number. -/
def bit (v i : Nat) : Bool := v / 2 ^ i % 2 = 1

/-- 1 or 0. -/
def b2n (b : Bool) : Nat := if b then 1 else 0

/-- Every byte of a range is zero. -/
def allZero (bs : List Byte) : Bool := bs.all (· = 0)

/-- The number with the bits of a list of bit numbers set. -/
def maskOf (l : List Nat) : Nat := l.foldl (fun a i => if bit a i then a else a + 2 ^ i) 0

/-- Sum of a list of numbers. -/
def sumN (l : List Nat) : Nat := l.foldl (· + ·) 0

/-! ## Device memory (R258): bytes by device address, an unlisted byte reading zero (log 5) -/

/-- The byte at a device address. -/
def Memory.read (m : Memory) (a : Nat) : Byte := tabGetD a 0 m

/-- The memory with byte b at address a; a zero byte is not listed. -/
def Memory.write (m : Memory) (a : Nat) (b : Byte) : Memory := if b = 0 then tabDel a m else tabPut a b m

/-- The n bytes from address a. -/
def Memory.readN (m : Memory) (a : Nat) : Nat → List Byte
  | 0 => []
  | n + 1 => m.read a :: Memory.readN m (a + 1) n

/-- The memory with the bytes at address a onward. -/
def Memory.writeN (m : Memory) (a : Nat) : List Byte → Memory
  | [] => m
  | b :: r => Memory.writeN (m.write a b) (a + 1) r

/-- The canonical form: addresses strictly rising, no byte listed that equals what an unlisted one reads as. -/
def Memory.wf (m : Memory) : Bool := tabSorted m && m.all (fun p => p.2 ≠ 0)

/-- The memory with n zero bytes from address a. -/
def Memory.clear (m : Memory) (a n : Nat) : Memory := m.filter (fun p => p.1 < a || a + n ≤ p.1)

/-- Changes the device memory. -/
def State.onMem (s : State) (f : Memory → Memory) : State := { s with mem := f s.mem }

/-- Stores bytes at a device address. -/
def State.putBytes (s : State) (a : Nat) (bs : List Byte) : State := s.onMem (fun m => m.writeN a bs)

/-- Loads n bytes from a device address. -/
def State.getBytes (s : State) (a n : Nat) : List Byte := s.mem.readN a n

/-! ## Device address map (R258, Table 11-1; R260; R127) -/

/-- Base address of stack n. -/
def stackBase (n : Nat) : Nat := 0x010000000000 + n * 0x1000000000

/-- Tier-1 address of byte y of row r of bank b of stack n (R260). -/
def t1Addr (n b r y : Nat) : Nat := stackBase n + (b * 32768 + r) * 2048 + y

/-- Address of granule index g of stack n, byte y: a granule is a 2 KiB row. -/
def granAddr (n g y : Nat) : Nat := stackBase n + g * 2048 + y

/-- Active banks per stack (R13, R14). -/
def banksOf : Variant → Nat
  | .cb => 768
  | _ => 1024

/-- Base of the scratchpad of cluster c: 48 MiB each in a window of 256 MiB (Table 11-1). -/
def spBase (c : Nat) : Nat := 0x000100000000 + c * 0x10000000

/-! ## The registers in force -/

/-- The configuration registers in force. -/
def State.regs (s : State) : Registers := s.cfg.regs

/-- Field [hi:lo] of a 32-bit register. -/
def rf (r : BitVec 32) (hi lo : Nat) : Nat := bits r.toNat hi lo

/-! ## Variants (R1, Table 0-1) -/

/-- Alloy units present. -/
def hasAlloy : Variant → Bool
  | .cb => false
  | _ => true

/-- Tree-verification mask unit present. -/
def hasMask : Variant → Bool
  | .cb => false
  | _ => true

/-- Global Gelcon lanes present. -/
def hasGlobal : Variant → Bool
  | .xf => true
  | _ => false

/-! ## Invar -/

/-- 2^64 and 2^32, the moduli of the wrapping counts. -/
def two64 : Nat := 18446744073709551616
def two32 : Nat := 4294967296

/-- A 64-bit counter one up (R433). -/
def inc64 (n : Nat) : Nat := (n + 1) % two64

/-- A 64-bit counter k up. -/
def add64 (n k : Nat) : Nat := (n + k) % two64

/-- The state at the Invar instant t, or as it is where Invar has passed t (log 2). -/
def State.atTime (s : State) (t : Nat) : State :=
  s.onTick (fun k => { k with iv := if k.iv < t ∧ t < two64 then t else k.iv })

/-- One nanosecond passes with nothing commanded (R26; log 1). -/
def idle (s : State) : State := s.onTick (fun k => { k with iv := (k.iv + 1) % two64 })

/-- Invar. -/
def State.now (s : State) : Nat := s.tick.iv

/-- The next edge t_{k+1}, while a tick runs (R31). -/
def State.nextEdge (s : State) : Nat := s.tick.edge + s.tick.tickUs * 1000

/-- Returns bytes to the command that reads. -/
def State.answerWith (s : State) (bs : List Byte) : State := { s with reply := bs }

/-- Draws a free value: the number of values drawn before. -/
def State.draw (s : State) : State := { s with freeCtr := s.freeCtr + 1 }

/-! ## Host ports -/

/-- The state of a host port. -/
def State.hport (s : State) (p : Nat) : HostPort := nth s.host.ports p {}

/-- Updates a host port. -/
def State.modHport (s : State) (p : Nat) (f : HostPort → HostPort) : State :=
  s.onHost (fun h => { h with ports := h.ports.modify p f })

/-- A port is up and may be used. -/
def State.portUp (s : State) (p : Nat) : Bool := (s.hport p).up

/-- The lowest-numbered host port that is up. -/
def State.lowPort (s : State) : Option Nat := [0, 1].find? (fun p => s.portUp p)

/-- No host port is up (R350). -/
def State.noPort (s : State) : Bool := s.lowPort.isNone

/-- The port that work bound to a port goes through: that port, or, while it is down, one that is up (R349). -/
def State.livePort (s : State) (p : Nat) : Nat := if s.portUp p then p else s.lowPort.getD p

/-- BAR0 of a host port can be reached: its function's memory space is there, whatever its port_en bit (R340, R353). -/
def State.barUp (s : State) (p : Nat) : Bool := (s.hport p).bar

/-- BAR0 can be reached through some port. -/
def State.barAny (s : State) : Bool := s.host.ports.any (·.bar)

/-! ## Interrupts (R346, R347) -/

/-- The MSI-X write of a vector through a port: pending where masked, sent where not. -/
def State.sendVector (s : State) (v p : Nat) : State :=
  if (tabGetD v ({} : MsixEntry) s.host.msix).masked then s.onHost (fun h => { h with pba := setAdd v h.pba })
  else s.onHost (fun h => { h with raised := h.raised ++ [(v, p)] })

/-- Raises a vector through the port of its source. In a commit window, and while no port is up, it is due once, after the writes that it
reports (R347). -/
def State.raiseVector (s : State) (v p : Nat) : State :=
  if s.tick.inCommit || s.noPort then
    if s.host.windowVectors.any (fun q => q.1 = v) then s
    else s.onHost (fun h => { h with windowVectors := h.windowVectors ++ [(v, p)] })
  else s.sendVector v (s.livePort p)

/-- Raises vector 0 or 1 through the lowest-numbered port that is up (R346). -/
def State.raiseLow (s : State) (v : Nat) : State := s.raiseVector v (s.lowPort.getD 0)

/-- The vectors due at the end of a commit window are sent: 0 and 1 through the lowest port that is up, the others through that of their
source or, where it has gone down, the one that is up; with none up they stay due (R346, R347). -/
def State.flushVectors (s : State) : State :=
  if s.noPort then s
  else
    let port := fun (q : Nat × Nat) => if q.1 < 2 then s.lowPort.getD 0 else s.livePort q.2
    (s.host.windowVectors.foldl (fun u q => u.sendVector q.1 (port q)) s).onHost (fun h => { h with windowVectors := [] })

/-! ## Status codes (R369, Table 16-7) -/

def St.ok : Nat := 0x0000
def St.endToken : Nat := 0x0100
def St.stopSequence : Nat := 0x0101
def St.maxTokens : Nat := 0x0102
def St.cancelled : Nat := 0x0103
def St.deadline : Nat := 0x0104
def St.ttlExpired : Nat := 0x0105
def St.modelEvicted : Nat := 0x0106
def St.migrated : Nat := 0x0107
def St.faultNumeric : Nat := 0x0180
def St.faultTier2 : Nat := 0x0181
def St.faultImport : Nat := 0x0182
def St.faultModel : Nat := 0x0183
def St.faultHostDma : Nat := 0x0184
def St.faultAlloyGen : Nat := 0x0185
def St.faultDevice : Nat := 0x0186
def St.badOpcode : Nat := 0x0200
def St.badReserved : Nat := 0x0201
def St.badArgument : Nat := 0x0202
def St.badLength : Nat := 0x0203
def St.badAddress : Nat := 0x0204
def St.badRing : Nat := 0x0205
def St.badImage : Nat := 0x0206
def St.badSignature : Nat := 0x0207
def St.tagBusy : Nat := 0x0208
def St.badState : Nat := 0x0300
def St.busy : Nat := 0x0301
def St.busyGeneration : Nat := 0x0302
def St.notFound : Nat := 0x0303
def St.reqClosed : Nat := 0x0304
def St.slotBusy : Nat := 0x0305
def St.groupManaged : Nat := 0x0306
def St.deadlinePassed : Nat := 0x0307
def St.importUnknown : Nat := 0x0308
def St.reset : Nat := 0x0309
def St.badTenant : Nat := 0x0400
def St.badDomain : Nat := 0x0401
def St.notPermitted : Nat := 0x0402
def St.unsupportedUnit : Nat := 0x0403
def St.modelNotResident : Nat := 0x0404
def St.alloyUnknown : Nat := 0x0405
def St.quotaExceeded : Nat := 0x0500
def St.noSpace : Nat := 0x0501
def St.faultFlash : Nat := 0x0600
def St.fwRejected : Nat := 0x0601
def St.modelQuarantined : Nat := 0x0800
def St.storeBounds : Nat := 0x0801
def St.gelconMiscabled : Nat := 0x0802
def St.gelconQuarantine : Nat := 0x0803
def St.hostDmaFault : Nat := 0x0804
def St.controlLost : Nat := 0x0805
def St.controlFailover : Nat := 0x0806
def St.fwRollback : Nat := 0x0807
def St.capabilityChanged : Nat := 0x0808
def St.modelBroken : Nat := 0x0809
def St.degraded : Nat := 0x080A
def St.needsService : Nat := 0x080B
def St.thermalAlert : Nat := 0x080C

/-! ## Events (R364, Table 16-5) and misuse (R351, Table 15-9) -/

/-- Posts an event: the oldest record of a full queue of 1,024 is dropped; event_count rises; vector 0 is raised. -/
def State.postEvent (s : State) (code arg16 arg32 : Nat) : State :=
  let full := 1024 ≤ s.mb.events.length
  let rec' : EventRec := { code := code, arg16 := arg16 % 65536, arg32 := arg32 % two32, stamp := s.now }
  (s.onMb (fun m => { m with
    events := (if full then m.events.drop 1 else m.events) ++ [rec']
    lost := m.lost || full
    eventLost := if full then inc64 m.eventLost else m.eventLost
    eventCount := (m.eventCount + 1) % two32 })).raiseLow 0

/-- The Capability Block changes: its generation goes to the next even value and CAPABILITY_CHANGED is posted (R366). -/
def State.capChanged (s : State) : State :=
  (s.onMb (fun m => { m with capGen := (m.capGen + 2) % two32 })).postEvent St.capabilityChanged 0 0

/-- An entry of HX_MISUSE_LOG (Table 15-9). -/
def misuseEntry (stamp value cause port target : Nat) : BitVec 128 :=
  BitVec.ofNat 128 (stamp % two64 * 2 ^ 64 + value % two32 * 2 ^ 32 + cause % 16 * 2 ^ 28 + port % 2 * 2 ^ 24 + target % 2 ^ 20)

/-- A misused doorbell: logged at the next place of the ring of 16, counted, and counted toward event_count (R351). -/
def State.misuse (s : State) (stamp value cause port target : Nat) : State :=
  ((s.onHost (fun h => { h with
      misuseLog := h.misuseLog.set (h.misuseCount % 16) (misuseEntry stamp value cause port target)
      misuseCount := inc64 h.misuseCount })).onMb
    (fun m => { m with eventCount := (m.eventCount + 1) % two32 })).raiseLow 0

/-! ## Host writes (R345, R374) -/

/-- The cache of a port takes the translation of a page: it holds at most 4,096 (R344, Table 15-1). -/
def cachePage (h : HostPort) (page : Nat) : HostPort :=
  if h.cache.contains page then h else { h with cache := (h.cache ++ [page]).drop (h.cache.length - 4095) }

/-- A port uses the translations of n bytes from a host address, of which its cache keeps the last 4,096 pages (R344). -/
def State.translate (s : State) (port addr n : Nat) : State :=
  let last := (addr + max n 1 - 1) / 4096
  let first := max (addr / 4096) (last - 4095)
  s.modHport port (fun h => (upFrom first (last + 1 - first)).foldl cachePage h)

/-- The device reads n bytes of host memory for something bound to a port (R344, R348). -/
def State.hostRead (s : State) (port addr n : Nat) : State := if s.noPort then s else s.translate (s.livePort port) addr n

/-- A host write is issued on its port, where that port is up. -/
def State.issue (s : State) (w : HostWrite) : State :=
  if s.portUp w.port then (s.translate w.port w.addr w.bytes.length).onHost (fun h => { h with posted := h.posted ++ [{ w with issued := s.tick.index }] }) else s

/-- A write of request data, a completion word or a head word: it enters the commit-write log and, while a port it may use
is up, is issued on that port (R345, R350, R374). -/
def State.hostWrite (s : State) (port addr slotPlus : Nat) (bs : List Byte) : State :=
  let w : HostWrite := { port := port, addr := addr, bytes := bs, tick := s.tick.index, slot := slotPlus, issued := s.tick.index }
  (s.onReq (fun r => { r with log := r.log ++ [w] })).issue w

/-- A write into a host buffer that a command names, outside the commit-write log; it goes through the surviving port where the command's
has gone down (R349, R361). -/
def State.bufferWrite (s : State) (port addr : Nat) (bs : List Byte) : State :=
  s.issue { port := s.livePort port, addr := addr, bytes := bs, tick := s.tick.index }

/-! ## Mailbox (R355 to R361) -/

/-- BAR0 offset of mailbox slot n within the slots' 64 KiB. -/
def mbOff (n : Nat) : Nat := n * 256

/-- The bytes of mailbox slot n. -/
def State.mbBytes (s : State) (n : Nat) : List Byte := Memory.readN s.mb.bytes (mbOff n) 256

/-- The header fields and payload the device writes at completion (R355). -/
def completionBytes (c : MbCommand) (status now : Nat) (data : List Byte) : List Byte :=
  leBytes 2 data.length ++ leBytes 2 status ++ leBytes 8 c.stamp ++ leBytes 8 now ++ leBytes 4 c.hostRef.toNat
    ++ leBytes 4 0 ++ slice data 0 224

/-- Completes a command: payload and header are written, its MB_DONE bit is set, vector 1 is raised (R355). -/
def State.complete (s : State) (c : MbCommand) (status : Nat) (data : List Byte) : State :=
  (s.onMb (fun m => { m with
    bytes := Memory.writeN m.bytes (mbOff c.slot + 4) (completionBytes c status s.now data)
    done := setAdd c.slot m.done
    outstanding := m.outstanding.filter (fun x => x.slot ≠ c.slot) })).raiseLow 1

/-- The outstanding command of a mailbox slot with one of the opcodes. -/
def State.cmdAt (s : State) (mb : Nat) (ops : List Nat) : Option MbCommand :=
  s.mb.outstanding.find? (fun c => c.slot = mb && ops.contains c.opcode)

/-- Replaces the record of an outstanding command. -/
def State.setCmd (s : State) (c : MbCommand) : State :=
  s.onMb (fun m => { m with outstanding := m.outstanding.map (fun x => if x.slot = c.slot then c else x) })

/-- Sceol takes and completes commands: a control die is active and no warm reset runs (R359, R360, R400). -/
def State.sceolUp (s : State) : Bool :=
  !s.faults.orphan && s.faults.takeover.isNone && !s.start.warmRunning && s.start.state ≠ .off

/-- Completes a command with its result: with OK, the new state and its data, or with the status of the check that failed and
no effect (R357). -/
def answer (s : State) (c : MbCommand) : Except Nat (State × List Byte) → State
  | .ok (t, d) => t.complete c St.ok d
  | .error e => s.complete c e []

/-- An event stamped t is taken in the commit window open now (R41); one stamped before the first edge is taken as stamped
at that edge. -/
def State.taken (s : State) (stamp : Nat) : Bool := s.tick.inCommit && decide (stamp < s.tick.commitOpenAt)

/-- The stamp under which R42 orders an event: one that lies in no tick's interval, after the reset and before the edge at which ticks start or
resume, is taken as stamped at that edge (R41). -/
def State.stampOf (s : State) (stamp : Nat) : Nat := if s.tick.gapFrom ≤ stamp ∧ stamp < s.tick.gapTo then s.tick.gapTo else stamp

/-- An event's place in the order of R42: its stamp, its host port, its arrival. -/
abbrev EventKey := Nat × Nat × Nat

/-- The order of R42: by stamp, HX0 before HX1, then by arrival. -/
def EventKey.before (a b : EventKey) : Bool :=
  decide (a.1 < b.1) || (a.1 = b.1 && (decide (a.2.1 < b.2.1) || (a.2.1 = b.2.1 && decide (a.2.2 < b.2.2))))

/-- The place of a mailbox command. -/
def State.cmdKey (s : State) (c : MbCommand) : EventKey := (s.stampOf c.stamp, c.port, c.arrival)

/-- The values of a list in the order of their keys. -/
def inOrder {α : Type} (key : α → EventKey) (l : List α) : List α := l.foldl (fun acc x => put x acc) []
where
  /-- A value in its place among those before it. -/
  put (x : α) : List α → List α
    | [] => [x]
    | h :: r => if (key x).before (key h) then x :: h :: r else h :: put x r

/-- A host event arrives: it takes the next place in the order of arrival (R42). -/
def State.arrive (s : State) : State := s.onHost (fun h => { h with arrivals := h.arrivals + 1 })

/-- A command's turn has come among those of its class: none of them that is outstanding comes before it (R42). -/
def turnOf (s : State) (l : List MbCommand) (c : MbCommand) : Bool := l.all (fun d => !(s.cmdKey d).before (s.cmdKey c))

/-- Fails a check with a status. -/
def need (b : Bool) (e : Nat) : Except Nat Unit := if b then .ok () else .error e

/-- A payload field of a command. -/
def cf (c : MbCommand) (off len : Nat) : Nat := field c.payload off len

/-! ## Requests -/

/-- The entry of a request slot; a slot not listed is FREE (R54, R55). -/
def State.req? (s : State) (n : Nat) : Option Request := tabGet n s.req.table

/-- The state of a request slot. -/
def State.reqState (s : State) (n : Nat) : ReqState :=
  match s.req? n with
  | none => .free
  | some r => r.state

/-- Writes a Request Table entry. -/
def State.setReq (s : State) (n : Nat) (r : Request) : State := s.onReq (fun u => { u with table := tabPut n r u.table })

/-- Changes a Request Table entry. -/
def State.modReq (s : State) (n : Nat) (f : Request → Request) : State :=
  s.onReq (fun u => { u with table := tabMod n f u.table })

/-- A request that is neither FREE nor CLOSING. -/
def reqLive : ReqState → Bool
  | .free => false
  | .closing => false
  | _ => true

/-- A tenant's settings in force; one never configured has the defaults (R91). -/
def State.tenant (s : State) (n : Nat) : Tenant := tabGetD n {} s.cfg.tenants

/-- A domain's settings in force (R273). -/
def State.domain (s : State) (n : Nat) : Domain := tabGetD n {} s.cfg.domains

/-- A model slot; one not listed is EMPTY (R305). -/
def State.mslot (s : State) (n : Nat) : ModelSlot := tabGetD n {} s.models.slots

/-- Changes a model slot. -/
def State.modMslot (s : State) (n : Nat) (f : ModelSlot → ModelSlot) : State :=
  s.onModels (fun m => { m with slots := tabUpd n {} f m.slots })

/-! ## Counters -/

/-- Changes the live counters (R433). -/
def State.count (s : State) (f : Counters → Counters) : State := s.onTel (fun t => { t with live := f t.live })

/-- Changes the step counters (R437). -/
def State.countStep (s : State) (f : StepCounters → StepCounters) : State := s.count (fun c => { c with step := f c.step })

/-- Changes the counters of a stack (Table 20-4). -/
def State.countStack (s : State) (n : Nat) (f : StackCounters → StackCounters) : State :=
  s.count (fun c => { c with stackRecs := tabUpd n {} f c.stackRecs })

/-- Changes the counters of a Gelcon port (Table 20-5). -/
def State.countPort (s : State) (n : Nat) (f : PortCounters → PortCounters) : State :=
  s.count (fun c => { c with ports := tabUpd n {} f c.ports })

/-- Changes the counters of a tenant (Table 20-8). -/
def State.countTenant (s : State) (n : Nat) (f : TenantCounters → TenantCounters) : State :=
  s.count (fun c => { c with tenants := tabUpd n {} f c.tenants })

/-! ## Clusters -/

/-- Changes the bank-unit sides of the clusters. -/
def State.onBanks (s : State) (f : List (Nat × BankCluster) → List (Nat × BankCluster)) : State := { s with banks := f s.banks }

/-- Changes the matrix sides of the clusters. -/
def State.onMatrix (s : State) (f : List (Nat × MatrixCluster) → List (Nat × MatrixCluster)) : State := { s with matrix := f s.matrix }

/-- The bank-unit side of a cluster. -/
def State.bcl (s : State) (c : Nat) : BankCluster := tabGetD c {} s.banks

/-- Changes the bank-unit side of a cluster. -/
def State.modBcl (s : State) (c : Nat) (f : BankCluster → BankCluster) : State :=
  s.onBanks (tabUpd c {} f)

/-- The matrix side of a cluster. -/
def State.mcl (s : State) (c : Nat) : MatrixCluster := tabGetD c {} s.matrix

/-- Changes the matrix side of a cluster. -/
def State.modMcl (s : State) (c : Nat) (f : MatrixCluster → MatrixCluster) : State :=
  s.onMatrix (tabUpd c {} f)

/-- The job of a model slot. -/
def State.job? (s : State) (m : Nat) : Option Job := s.plan.jobs.find? (fun j => j.modelSlot = m)

/-- Changes the job of a model slot. -/
def State.modJob (s : State) (m : Nat) (f : Job → Job) : State :=
  s.onPlan (fun p => { p with jobs := p.jobs.map (fun j => if j.modelSlot = m then f j else j) })

end Sys2Proof.Machine
end

