-- ==== Sys2Proof/Machine/Operands.lean ====
section
/-! DEFINITION. Operand forms: the opcodes of mailbox commands with their lengths, classes and reserved bytes (R358, R361,
Table 16-3), the RW registers that configuration commands name with the range of each field (R362), and how they are read and
written. -/

namespace Sys2Proof.Machine

open Sys2Proof

/-! ## Commands of the mailbox (Table 16-3) -/

/-- A configuration command's opcode (R362). -/
def isConfig (op : Nat) : Bool := 0x50 ≤ op && op ≤ 0x59

/-- The opcodes of Table 16-3. -/
def opcodeKnown (op : Nat) : Bool :=
  [0x01, 0x02, 0x03, 0x04, 0x05, 0x06, 0x10, 0x11, 0x20, 0x21, 0x30, 0x31, 0x40, 0x41, 0x42, 0x43, 0x44, 0x45, 0x46].contains op
    || isConfig op
    || [0x60, 0x61, 0x62, 0x63, 0x70, 0x71, 0x72, 0x73, 0x74, 0x75, 0x76, 0x80, 0x90, 0x91, 0xA0, 0xA1].contains op

/-- Class of an opcode (Table 16-2, Table 16-3). -/
def opcodeClass (op : Nat) : CmdClass :=
  if [0x06, 0x31, 0x40, 0x41, 0x42, 0x43, 0x61, 0x62, 0x63, 0x76].contains op then .tick
  else if [0x02, 0x03, 0x45, 0x46, 0x70, 0x71, 0x75, 0x91, 0xA0, 0xA1].contains op then .long
  else .immediate

/-- Length of the payload of an opcode that has one length. -/
def opcodeLength (op : Nat) : Nat :=
  if op = 0x01 || op = 0x03 then 0
  else if [0x10, 0x45, 0x46, 0x70, 0x75, 0x80, 0x90, 0x91, 0xA0].contains op then 16
  else if [0x20, 0x30, 0x43, 0x63].contains op then 24
  else if op = 0x21 then 48
  else if op = 0x40 || op = 0x41 || op = 0x42 || op = 0x44 then 8
  else if op = 0x60 || op = 0x62 then 32
  else 4

/-- A length that Table 16-3 gives for the opcode: 4 + 12 n with n from 1 to 18, or 4 for the port actions of GELCON_CONFIG. -/
def lengthOk (op len : Nat) : Bool :=
  if isConfig op then (16 ≤ len && len ≤ 220 && len % 12 = 4) || (op = 0x56 && len = 4)
  else len = opcodeLength op

/-- Bytes of a payload that hold fields: (first byte, bytes, mask of each byte). -/
def definedFields (op : Nat) (p : List Byte) : List (Nat × Nat × Nat) :=
  let fm := field p 2 2
  let sel : Nat → Nat → Nat → List (Nat × Nat × Nat) := fun i off n => if bit fm i then [(off, n, 255)] else []
  if op = 0x02 || op = 0x04 || op = 0x06 then [(0, 1, 255)]
  else if op = 0x05 || op = 0x76 then [(0, 2, 255)] ++ (if op = 0x76 then [(2, 1, 255)] else [])
  else if op = 0x10 then [(0, 4, 255), (4, 1, 15), (5, 1, 3), (8, 8, 255)]
  else if op = 0x11 then [(0, 1, 255), (1, 1, 1)]
  else if op = 0x20 then
    [(0, 3, 255)] ++ sel 0 4 1 ++ sel 1 5 1 ++ sel 2 6 2 ++ sel 3 8 4 ++ sel 4 12 2 ++ sel 5 14 2 ++ sel 6 16 4 ++ sel 7 20 4
  else if op = 0x21 then [(0, 2, 255), (2, 1, 31)] ++ sel 0 4 1 ++ sel 1 5 1 ++ sel 2 6 2 ++ sel 3 8 2 ++ sel 4 16 32
  else if op = 0x30 then [(0, 2, 255), (4, 20, 255)]
  else if op = 0x31 || op = 0x61 || op = 0x72 || op = 0x73 || op = 0x74 || op = 0xA1 then [(0, 1, 255)]
  else if op = 0x40 || op = 0x41 || op = 0x42 || op = 0x44 then [(0, 8, 255)]
  else if op = 0x43 then [(0, 18, 255)]
  else if op = 0x45 then [(0, 10, 255)]
  else if op = 0x46 then [(0, 4, 255), (8, 8, 255)]
  else if isConfig op then
    (if op = 0x56 && field p 0 1 = 1 then [(0, 2, 255)] else if op = 0x56 && field p 0 1 = 2 then [(0, 3, 255)] else [(0, 1, 255)])
      ++ [(4, 220, 255)]
  else if op = 0x60 then [(0, 2, 255), (2, 1, 1), (8, 24, 255)]
  else if op = 0x62 then [(0, 12, 255), (16, 16, 255)]
  else if op = 0x63 then [(0, 3, 255), (4, 1, 255), (5, 1, 0x8F), (8, 4, 255), (16, 8, 255)]
  else if op = 0x70 then [(0, 1, 255), (8, 8, 255)]
  else if op = 0x71 then [(0, 1, 255), (1, 1, 1)]
  else if op = 0x75 then [(0, 3, 255), (8, 8, 255)]
  else if op = 0x80 then [(0, 2, 255), (4, 12, 255)]
  else if op = 0x90 || op = 0x91 || op = 0xA0 then [(4, 12, 255)]
  else []

/-- Mask of the defined bits of payload byte i. -/
def fieldMask (l : List (Nat × Nat × Nat)) (i : Nat) : Nat :=
  ((l.find? (fun f => f.1 ≤ i && i < f.1 + f.2.1)).map (·.2.2)).getD 0

/-! ## RW registers (R362) -/

/-- The RW registers of control space that configuration commands write. -/
inductive RwReg where
  | planCtl
  | prefillCtl
  | costW
  | pwrCtl
  | specCtl
  | buCfg (n : Nat)
  | buScrub (n : Nat)
  | mxCfg (n : Nat)
  | qzCtl
  | storeCtl
  | classCfg (n : Nat)
  | tmCtl
  | t2Ctl
  | matchCtl
  | glCtl
  | glViol
  | glShip
  | hxCtl
  | mdCtl
  | scCtl
  deriving DecidableEq, Repr

/-- The RW register of the opcode's row of Table 16-3 at an offset from 0xFF00_0000_0000. -/
def rwAt (op off : Nat) : Option RwReg :=
  let page := off / 65536
  let low := off % 65536
  if op = 0x50 then
    if off = 0x50000 then some .planCtl
    else if off = 0x50004 then some .prefillCtl
    else if off = 0x50008 then some .costW
    else if off = 0x5000C then some .pwrCtl
    else if off = 0x80000 then some .specCtl
    else none
  else if op = 0x51 then
    if 0x10 ≤ page && page < 0x20 && low = 0x10 then some (.buCfg (page - 0x10))
    else if 0x10 ≤ page && page < 0x20 && low = 0x18 then some (.buScrub (page - 0x10))
    else none
  else if op = 0x52 then if 0x20 ≤ page && page < 0x30 && low = 0x10 then some (.mxCfg (page - 0x20)) else none
  else if op = 0x53 then if off = 0x60000 then some .qzCtl else none
  else if op = 0x54 then
    if off = 0x70004 then some .storeCtl
    else if page = 7 && 0x10 ≤ low && low ≤ 0x48 && low % 8 = 0 then some (.classCfg ((low - 0x10) / 8))
    else none
  else if op = 0x55 then
    if off = 0x90000 then some .tmCtl else if off = 0x90004 then some .t2Ctl else if off = 0x90008 then some .matchCtl else none
  else if op = 0x56 then
    if off = 0xB0000 then some .glCtl else if off = 0xB0008 then some .glViol else if off = 0xB000C then some .glShip else none
  else if op = 0x57 then if off = 0xC0000 then some .hxCtl else none
  else if op = 0x58 then if off = 0xA0000 then some .mdCtl else none
  else if op = 0x59 then if off = 0xD0000 then some .scCtl else none
  else none

/-- The RW register at an offset, whatever command names it. -/
def rwAny (off : Nat) : Option RwReg := (upFrom 0x50 10).findSome? (fun op => rwAt op off)

/-- The value of an RW register. -/
def rwGet (r : Registers) : RwReg → BitVec 32
  | .planCtl => r.planCtl
  | .prefillCtl => r.prefillCtl
  | .costW => r.costW
  | .pwrCtl => r.pwrCtl
  | .specCtl => r.specCtl
  | .buCfg n => nth r.buCfg n 0
  | .buScrub n => nth r.buScrub n 0
  | .mxCfg n => nth r.mxCfg n 0
  | .qzCtl => r.qzCtl
  | .storeCtl => r.storeCtl
  | .classCfg n => nth r.classCfg n 0
  | .tmCtl => r.tmCtl
  | .t2Ctl => r.t2Ctl
  | .matchCtl => r.matchCtl
  | .glCtl => r.glCtl
  | .glViol => r.glViol
  | .glShip => r.glShip
  | .hxCtl => r.hxCtl
  | .mdCtl => r.mdCtl
  | .scCtl => r.scCtl

/-- The registers with one RW register written. -/
def rwSet (r : Registers) (v : BitVec 32) : RwReg → Registers
  | .planCtl => { r with planCtl := v }
  | .prefillCtl => { r with prefillCtl := v }
  | .costW => { r with costW := v }
  | .pwrCtl => { r with pwrCtl := v }
  | .specCtl => { r with specCtl := v }
  | .buCfg n => { r with buCfg := r.buCfg.set n v }
  | .buScrub n => { r with buScrub := r.buScrub.set n v }
  | .mxCfg n => { r with mxCfg := r.mxCfg.set n v }
  | .qzCtl => { r with qzCtl := v }
  | .storeCtl => { r with storeCtl := v }
  | .classCfg n => { r with classCfg := r.classCfg.set n v }
  | .tmCtl => { r with tmCtl := v }
  | .t2Ctl => { r with t2Ctl := v }
  | .matchCtl => { r with matchCtl := v }
  | .glCtl => { r with glCtl := v }
  | .glViol => { r with glViol := v }
  | .glShip => { r with glShip := v }
  | .hxCtl => { r with hxCtl := v }
  | .mdCtl => { r with mdCtl := v }
  | .scCtl => { r with scCtl := v }

/-- A field lies in a range. -/
def inRange (v lo hi : Nat) : Bool := lo ≤ v && v ≤ hi

/-- The reserved bits of an RW register (Tables 4-4 to 4-7, 5-14, 5-16, 6-13, 7-7, 8-8, 8-9, 10-4, 11-18 to 11-20, 12-9, 14-13
to 14-15, 15-8, 16-10). -/
def rwReserved : RwReg → BitVec 32
  | .planCtl => 0xFFF00000
  | .prefillCtl => 0xFF00FE00
  | .costW => 0xFF000000
  | .pwrCtl => 0xFFFFFE00
  | .specCtl => 0xFFFFFE80
  | .buCfg _ => 0xFF0EF800
  | .buScrub _ => 0xFFFFE000
  | .mxCfg _ => 0xFF00FC00
  | .qzCtl => 0xFFFFFFFC
  | .storeCtl => 0xFFFE0000
  | .classCfg _ => 0xFF000000
  | .tmCtl => 0xFFFE0000
  | .t2Ctl => 0xFF00FF00
  | .matchCtl => 0xFFFF8000
  | .glCtl => 0xFFFE00FE
  | .glViol => 0x0000FF00
  | .glShip => 0x0000FF00
  | .hxCtl => 0xFFFFFFFC
  | .mdCtl => 0xFFFFE000
  | .scCtl => 0xFFFF0000

/-- Every field of a resulting value lies in its range (the same tables). -/
def rwOk (v : Nat) : RwReg → Bool
  | .planCtl => inRange (bits v 18 0) 128 262144
  | .prefillCtl => bits v 23 16 ≤ 64 && inRange (bits v 8 0) 1 256
  | .costW => true
  | .pwrCtl => bits v 7 0 ≤ 20
  | .specCtl => inRange (bits v 6 0) 5 50
  | .buCfg _ => inRange (bits v 23 20) 1 15 && inRange (bits v 10 0) 64 768
  | .buScrub _ => inRange (bits v 11 0) 1 3600
  | .mxCfg _ => inRange (bits v 23 16) 2 32 && bits v 23 16 % 2 = 0 && inRange (bits v 9 0) 1 512
  | .qzCtl => true
  | .storeCtl => inRange (bits v 15 0) 10 60000
  | .classCfg _ => true
  | .tmCtl => bits v 15 0 ≤ 16384
  | .t2Ctl => inRange (bits v 23 16) 5 100 && inRange (bits v 7 0) 1 100
  | .matchCtl => inRange (bits v 14 0) 1 16384
  | .glCtl => inRange (bits v 15 8) 10 90
  | .glViol => inRange (bits v 31 16) 1 10000 && inRange (bits v 7 0) 1 255
  | .glShip => inRange (bits v 31 16) 100 60000 && inRange (bits v 7 0) 1 64
  | .hxCtl => true
  | .mdCtl => bits v 12 0 ≤ 4096
  | .scCtl => inRange (bits v 15 0) 100 60000

/-- The classes of a pool: ACT and LOGIT, or the six standing classes (R203). -/
def poolClasses (tick : Bool) : List Nat := if tick then [0, 1] else [2, 3, 4, 5, 6, 7]

/-- Both sum rules of R204 in one geometry, in MiB: reserves fit the pool, and each ceiling fits beside the other reserves. -/
def classSums (cfg : List (BitVec 32)) (sevenTwo tick : Bool) : Bool :=
  let pool := if tick then (if sevenTwo then 1920 else 2304) else 768
  let res := fun n => rf (nth cfg n 0) 11 0
  let ceil := fun n => rf (nth cfg n 0) 23 12 - (if sevenTwo && n = 0 then 384 else 0)
  let all := sumN ((poolClasses tick).map res)
  all ≤ pool && (poolClasses tick).all (fun n => ceil n + (all - res n) ≤ pool)

/-- R209 for a whole setting of the classes: both sum rules in both geometries. -/
def classesOk (cfg : List (BitVec 32)) : Bool :=
  classSums cfg false true && classSums cfg false false && classSums cfg true true && classSums cfg true false

/-- One entry of a configuration command: (offset, value, mask) (R362). -/
def configEntry (p : List Byte) (i : Nat) : Nat × BitVec 32 × BitVec 32 :=
  (field p (4 + 12 * i) 4, BitVec.ofNat 32 (field p (8 + 12 * i) 4), BitVec.ofNat 32 (field p (12 + 12 * i) 4))

/-- No entry writes a reserved bit of the register it names (R9, R362). -/
def entriesClean (op len : Nat) (p : List Byte) : Bool :=
  (List.range ((len - 4) / 12)).all (fun i =>
    let e := configEntry p i
    match rwAt op e.1 with
    | none => true
    | some g => e.2.1 &&& e.2.2 &&& rwReserved g = 0)

/-- Every reserved bit of the command's payload bytes is zero (R9, R357 check 5, R361). -/
def payloadClean (op len : Nat) (p : List Byte) : Bool :=
  (slice p 0 len).zipIdx.all (fun b => b.1 &&& ~~~(BitVec.ofNat 8 (fieldMask (definedFields op p) b.2)) = 0) &&
    (!isConfig op || entriesClean op len p)

/-- A register with the bits that a mask sets taken from a value. -/
def maskWrite (old v m : BitVec 32) : BitVec 32 := (old &&& ~~~m) ||| (v &&& m)

/-- Writes of a configuration command in order: the registers and the resulting values, or the first failed check. -/
def configWrites (op : Nat) (p : List Byte) : List Nat → Registers → Except Nat (Registers × List (BitVec 32))
  | [], r => .ok (r, [])
  | i :: l, r =>
    let e := configEntry p i
    match rwAt op e.1 with
    | none => .error St.badArgument
    | some g =>
      let v := maskWrite (rwGet r g) e.2.1 e.2.2
      if rwOk v.toNat g && g ≠ .classCfg 5 then
        match configWrites op p l (rwSet r v g) with
        | .error e => .error e
        | .ok (r', vs) => .ok (r', v :: vs)
      else .error St.badArgument

end Sys2Proof.Machine
end

