-- ==== Sys2Proof/Machine/Fp.lean ====
section
/-! DEFINITION. The number formats of the device and their arithmetic (R173 to R177, R213, R441): FP32 rounding toward zero
with overflow to infinity and subnormals flushed, the narrower formats, scale pairs, exp and ln, lane sums.
Readings of the spec: logs 6, 34. -/

namespace Sys2Proof.Machine

open Sys2Proof

/-! ## FP32 values -/

/-- What an FP32 pattern stands for: a finite value (-1)^neg x m x 2^e, subnormals flushed (R174). -/
inductive Fp where
  | nan
  | inf (neg : Bool)
  | fin (neg : Bool) (m : Nat) (e : Int)
  deriving DecidableEq, Repr

/-- The value of an FP32 pattern, a subnormal read as a zero of its sign (R174). -/
def fpDecode (x : U32) : Fp :=
  let n := x.toNat
  let s := bit n 31
  let ex := bits n 30 23
  let fr := bits n 22 0
  if ex = 255 then (if fr = 0 then .inf s else .nan)
  else if ex = 0 then .fin s 0 0
  else .fin s (2 ^ 23 + fr) (Int.ofNat ex - 150)

/-- The infinity and the zero of a sign. -/
def fpInf (neg : Bool) : U32 := if neg then 0xFF800000 else 0x7F800000
def fpZero (neg : Bool) : U32 := if neg then 0x80000000 else 0

/-- The NaN an operation on two operands forms; its sign and payload are free. -/
def fpNaN (a b : U32) : U32 := 0x7FC00000 ||| (Config.nanBits a b &&& 0x803FFFFF)

/-- The pattern of (-1)^neg x m x 2^e, rounded toward zero: a magnitude above the largest finite value gives infinity, a subnormal result a
zero (R174). -/
def fpEncode (neg : Bool) (m : Nat) (e : Int) : U32 :=
  if m = 0 then fpZero neg else
  let l := Nat.log2 m
  let ex := e + Int.ofNat l
  let sig := if 23 ≤ l then m / 2 ^ (l - 23) else m * 2 ^ (23 - l)
  let cut := 23 ≤ l && m % 2 ^ (l - 23) ≠ 0
  if ex > 127 || (ex = 127 && sig = 2 ^ 24 - 1 && cut) then fpInf neg
  else if ex < -126 then fpZero neg
  else BitVec.ofNat 32 ((if neg then 2 ^ 31 else 0) + (ex + 127).toNat * 2 ^ 23 + (sig - 2 ^ 23))

/-- A subnormal pattern flushed to a zero of its sign (R174). -/
def fpFlush (x : U32) : U32 := if bits x.toNat 30 23 = 0 then fpZero (bit x.toNat 31) else x

/-- A pattern is a NaN, an infinity, or not finite. -/
def fpIsNaN (x : U32) : Bool := fpDecode x = .nan
def fpFinite (x : U32) : Bool :=
  match fpDecode x with
  | .fin _ _ _ => true
  | _ => false

/-- Negation and magnitude of a pattern. -/
def fpNeg (x : U32) : U32 := x ^^^ 0x80000000
def fpAbs (x : U32) : U32 := x &&& 0x7FFFFFFF

/-- The signed integer of a finite value scaled by 2^-lo, where lo is at most its exponent. -/
def fpInt (neg : Bool) (m : Nat) (e lo : Int) : Int :=
  let v : Int := Int.ofNat (m * 2 ^ (e - lo).toNat)
  if neg then -v else v

/-- The exact sum of two finite values, encoded; the sum of opposite values is +0. -/
def fpAddFin (s1 : Bool) (m1 : Nat) (e1 : Int) (s2 : Bool) (m2 : Nat) (e2 : Int) : U32 :=
  let lo := min e1 e2
  let v := fpInt s1 m1 e1 lo + fpInt s2 m2 e2 lo
  if v = 0 then fpZero (s1 && s2) else fpEncode (v < 0) v.natAbs lo

/-- a + b. -/
def fpAdd (a b : U32) : U32 :=
  match fpDecode a, fpDecode b with
  | .nan, _ => fpNaN a b
  | _, .nan => fpNaN a b
  | .inf s, .inf t => if s = t then fpInf s else fpNaN a b
  | .inf s, .fin _ _ _ => fpInf s
  | .fin _ _ _, .inf t => fpInf t
  | .fin s1 m1 e1, .fin s2 m2 e2 => fpAddFin s1 m1 e1 s2 m2 e2

/-- a - b. -/
def fpSub (a b : U32) : U32 := if fpIsNaN b then fpNaN a b else fpAdd a (fpNeg b)

/-- a x b. -/
def fpMul (a b : U32) : U32 :=
  match fpDecode a, fpDecode b with
  | .nan, _ => fpNaN a b
  | _, .nan => fpNaN a b
  | .inf s, .inf t => fpInf (s ≠ t)
  | .inf s, .fin t m _ => if m = 0 then fpNaN a b else fpInf (s ≠ t)
  | .fin s m _, .inf t => if m = 0 then fpNaN a b else fpInf (s ≠ t)
  | .fin s1 m1 e1, .fin s2 m2 e2 => fpEncode (s1 ≠ s2) (m1 * m2) (e1 + e2)

/-- a x b + c with one rounding. -/
def fpFma (a b c : U32) : U32 :=
  match fpDecode a, fpDecode b, fpDecode c with
  | .fin s1 m1 e1, .fin s2 m2 e2, .fin s3 m3 e3 =>
    if m1 * m2 = 0 then fpAddFin (s1 ≠ s2) 0 0 s3 m3 e3 else fpAddFin (s1 ≠ s2) (m1 * m2) (e1 + e2) s3 m3 e3
  | .fin _ _ _, .fin _ _ _, _ => if fpIsNaN c then fpNaN a c else c
  | _, _, _ => fpAdd (fpMul a b) c

/-- a / b. -/
def fpDiv (a b : U32) : U32 :=
  match fpDecode a, fpDecode b with
  | .nan, _ => fpNaN a b
  | _, .nan => fpNaN a b
  | .inf _, .inf _ => fpNaN a b
  | .inf s, .fin t _ _ => fpInf (s ≠ t)
  | .fin s _ _, .inf t => fpZero (s ≠ t)
  | .fin s m1 e1, .fin t m2 e2 =>
    if m2 = 0 then (if m1 = 0 then fpNaN a b else fpInf (s ≠ t))
    else
      let n := m1 * 2 ^ 64
      fpEncode (s ≠ t) (2 * (n / m2) + (if n % m2 = 0 then 0 else 1)) (e1 - e2 - 65)

/-- x x 2^k (R189). -/
def fpScale (x : U32) (k : Int) : U32 :=
  match fpDecode x with
  | .fin s m e => fpEncode s m (e + k)
  | _ => x

/-- The pattern of an integer, rounded toward zero. -/
def fpOfInt (v : Int) : U32 := fpEncode (v < 0) v.natAbs 0

/-- The integer part of a finite value, toward zero; 0 for a value that is not finite. -/
def fpTrunc (x : U32) : Int :=
  match fpDecode x with
  | .fin s m e =>
    let v : Int := if 0 ≤ e then Int.ofNat (m * 2 ^ e.toNat) else Int.ofNat (m / 2 ^ (-e).toNat)
    if s then -v else v
  | _ => 0

/-- a < b and a = b on values that are not NaN; both are false where one is. -/
def fpLt (a b : U32) : Bool :=
  match fpDecode a, fpDecode b with
  | .nan, _ => false
  | _, .nan => false
  | .inf s, .inf t => s && !t
  | .inf s, .fin _ _ _ => s
  | .fin _ _ _, .inf t => !t
  | .fin s1 m1 e1, .fin s2 m2 e2 => let lo := min e1 e2; fpInt s1 m1 e1 lo < fpInt s2 m2 e2 lo
def fpEq (a b : U32) : Bool := !fpIsNaN a && !fpIsNaN b && !fpLt a b && !fpLt b a
def fpLe (a b : U32) : Bool := fpLt a b || fpEq a b

/-- The larger and the smaller operand, NaN where either is NaN (R211). -/
def fpMax (a b : U32) : U32 := if fpIsNaN a || fpIsNaN b then fpNaN a b else if fpLt a b then b else a
def fpMin (a b : U32) : U32 := if fpIsNaN a || fpIsNaN b then fpNaN a b else if fpLt b a then b else a

/-- 1.0. -/
def fpOne : U32 := 0x3F800000

/-- An integer limited to a range. -/
def sat (v lo hi : Int) : Int := if v < lo then lo else if hi < v then hi else v

/-! ## Narrower formats (R173, R174) -/

/-- FP8 E4M3 to FP32: subnormals flushed, 0x7F and 0xFF NaN. -/
def fp8Decode (b : Byte) : U32 :=
  let n := b.toNat
  let s := bit n 7
  let ex := bits n 6 3
  let fr := bits n 2 0
  if ex = 15 && fr = 7 then (if s then 0xFFC00000 else 0x7FC00000)
  else if ex = 0 then fpZero s
  else fpEncode s (8 + fr) (Int.ofNat ex - 10)

/-- FP32 to FP8 E4M3: truncated to three fraction bits, saturated to 448, subnormals flushed, NaN of the same sign. -/
def fp8Encode (x : U32) : Byte :=
  let sgn := if bit x.toNat 31 then 128 else 0
  match fpDecode x with
  | .nan => BitVec.ofNat 8 (sgn + 0x7F)
  | .inf _ => BitVec.ofNat 8 (sgn + 0x7F)
  | .fin _ m e =>
    if m = 0 then BitVec.ofNat 8 sgn
    else
      let ex := e + 23 + 7
      if ex < 1 then BitVec.ofNat 8 sgn
      else
        let code := ex.toNat * 8 + (m / 2 ^ 20 - 8)
        BitVec.ofNat 8 (sgn + (if 0x7E < code then 0x7E else code))

/-- BF16 to FP32, a subnormal flushed; FP32 to BF16 drops the low 16 bits. -/
def bf16Decode (b : U16) : U32 :=
  let x : U32 := BitVec.ofNat 32 (b.toNat * 65536)
  if bits x.toNat 30 23 = 0 then fpZero (bit x.toNat 31) else x
/-- FP32 to BF16 (R174). A NaN is kept as a NaN: one whose upper fraction bits are all zero gets bit 6 of the fraction (DESIGN CHOICE,
log 34: dropping the low bits alone would give an infinity). -/
def bf16Encode (x : U32) : U16 :=
  if bits x.toNat 30 23 = 0 then BitVec.ofNat 16 ((fpZero (bit x.toNat 31)).toNat / 65536)
  else if fpIsNaN x && bits x.toNat 22 16 = 0 then BitVec.ofNat 16 (x.toNat / 65536 + 64)
  else BitVec.ofNat 16 (x.toNat / 65536)

/-- FP32 to FP16 toward zero, saturating at the largest finite value and flushing below 2^-14 (R238). -/
def fp16Encode (x : U32) : U16 :=
  let sgn := if bit x.toNat 31 then 0x8000 else 0
  match fpDecode x with
  | .nan => BitVec.ofNat 16 (sgn + 0x7E00)
  | .inf _ => BitVec.ofNat 16 (sgn + 0x7BFF)
  | .fin _ m e =>
    if m = 0 then BitVec.ofNat 16 sgn
    else
      let ex := e + 23 + 15
      if ex < 1 then BitVec.ofNat 16 sgn
      else if 30 < ex then BitVec.ofNat 16 (sgn + 0x7BFF)
      else BitVec.ofNat 16 (sgn + ex.toNat * 1024 + (m / 2 ^ 13 - 1024))

/-- The two's-complement value of a byte. -/
def i8 (b : Byte) : Int := b.toInt

/-- The byte of an integer. -/
def toI8 (v : Int) : Byte := BitVec.ofInt 8 v

/-! ## Scale pairs (R177, Table 7-3) -/

/-- enc: a value s of at least zero to a normalised pair. -/
def encScale (s : U32) : U16 × Byte :=
  match fpDecode s with
  | .fin _ m e => if m = 0 then (0, 0) else (BitVec.ofNat 16 (m / 256), BitVec.ofInt 8 (e + 24))
  | _ => (0, 0)

/-- dec: a pair to FP32, m x 2^(x - 16). -/
def decScale (m : U16) (x : Byte) : U32 := fpEncode false m.toNat (x.toInt - 16)

/-- A carried scale after a commit that has formed some per-token pairs: the largest, times 1.25, encoded (R187). -/
def moveScale (got : List CarriedScale) (old : U16 × Byte) : U16 × Byte :=
  if got.isEmpty then old
  else encScale (fpMul (got.foldl (fun v x => fpMax v (decScale x.mant x.exp)) 0) 0x3FA00000)

/-! ## exp and ln, correctly rounded toward zero (R441)

Both are formed in fixed point with 192 fraction bits, far past the distance of any FP32 argument's result from an FP32
boundary, and cut to FP32. -/

/-- ln 2 x 2^192. -/
def ln2Fix : Int := 0xb17217f7d1cf79abc9e3b39803f2f6af40f343267298b62d

/-- Terms of e^r from the n-th, for r in units of 2^-192. -/
def expTerms (r : Int) : Nat → Nat → Int → Int
  | 0, _, _ => 0
  | f + 1, n, t => t + expTerms r f (n + 1) (t * r / 2 ^ 192 / Int.ofNat n)

/-- e^x for a finite x, as a mantissa and exponent. -/
def expFix (x : Int) : Nat × Int :=
  let k := x / ln2Fix
  let r := x - k * ln2Fix
  ((expTerms r 60 1 (2 ^ 192)).toNat, k - 192)

/-- exp of an FP32 value. -/
def fpExp (a : U32) : U32 :=
  match fpDecode a with
  | .nan => fpNaN a a
  | .inf s => if s then 0 else fpInf false
  | .fin s m e =>
    if m = 0 then fpOne
    else if 8 < e + 24 then (if s then 0 else fpInf false)
    else
      let v : Int := if -192 ≤ e then Int.ofNat (m * 2 ^ (e + 192).toNat) else 1
      let q := expFix (if s then -v else v)
      fpEncode false q.1 q.2

/-- 2^x of a finite FP32 value. -/
def fpExp2 (a : U32) : U32 :=
  match fpDecode a with
  | .fin s m e =>
    if m = 0 then fpOne
    else if 8 < e + 24 then (if s then 0 else fpInf false)
    else
      let v : Int := if -192 ≤ e then Int.ofNat (m * 2 ^ (e + 192).toNat) else 1
      let v := if s then -v else v
      let k := v / 2 ^ 192
      fpEncode false (expTerms ((v - k * 2 ^ 192) * ln2Fix / 2 ^ 192) 60 1 (2 ^ 192)).toNat (k - 192)
  | _ => a

/-- The largest n with n^2 at most a number, by its bits from the k-th down. -/
def sqrtBits (x : Nat) : Nat → Nat → Nat
  | 0, r => r
  | k + 1, r => sqrtBits x k (if (r + 2 ^ k) * (r + 2 ^ k) ≤ x then r + 2 ^ k else r)

/-- 1 / sqrt x of a positive finite FP32 value. -/
def fpRsqrt (a : U32) : U32 :=
  match fpDecode a with
  | .fin _ m e =>
    let odd := e % 2 ≠ 0
    let m := if odd then 2 * m else m
    let e := if odd then e - 1 else e
    fpEncode false (2 ^ 200 / sqrtBits (m * 2 ^ 200) 120 0) (-(e / 2) - 100)
  | _ => a

/-- Terms of the series of atanh from the n-th odd power, for z in units of 2^-192. -/
def atanhTerms (z2 : Int) : Nat → Nat → Int → Int
  | 0, _, _ => 0
  | f + 1, n, p => p / Int.ofNat n + atanhTerms z2 f (n + 2) (p * z2 / 2 ^ 192)

/-- ln of an FP32 value. -/
def fpLn (a : U32) : U32 :=
  match fpDecode a with
  | .nan => fpNaN a a
  | .inf s => if s then fpNaN a a else fpInf false
  | .fin s m e =>
    if m = 0 then fpInf true
    else if s then fpNaN a a
    else if m = 2 ^ 23 && e = -23 then 0
    else
      let num : Int := Int.ofNat m - 2 ^ 23
      let den : Int := Int.ofNat m + 2 ^ 23
      let z := num * 2 ^ 192 / den
      let v := (e + 23) * ln2Fix + 2 * atanhTerms (z * z / 2 ^ 192) 70 1 z
      fpEncode (v < 0) v.natAbs (-192)

/-! ## Lane sums (R213) -/

/-- Lane accumulators after the elements from index i: element i adds into lane i mod W. -/
def laneAcc (w : Nat) : List U32 → Nat → List U32 → List U32
  | lanes, _, [] => lanes
  | lanes, i, x :: r => laneAcc w (lanes.modify (i % w) (fun a => fpAdd a x)) (i + 1) r

/-- Neighbours added. -/
def pairUp : List U32 → List U32
  | a :: b :: r => fpAdd a b :: pairUp r
  | l => l

/-- Levels of the tree. -/
def treeLevels : Nat → List U32 → List U32
  | 0, l => l
  | f + 1, l => treeLevels f (pairUp l)

/-- A value put before the first whose key is greater. -/
def insertKey {α : Type} (k : Nat) (v : α) : List (Nat × α) → List (Nat × α)
  | [] => [(k, v)]
  | p :: r => if k < p.1 then (k, v) :: p :: r else p :: insertKey k v r

/-- The lanes in the order of their keys. -/
def laneOrder (l : List U32) : List U32 :=
  ((l.zipIdx.foldl (fun acc p => insertKey (Config.laneKey p.2) p.1 acc) []).map (·.2))

/-- The sum of a row on W lanes: element i into lane i mod W in element order, the lanes combined by the fixed tree. -/
def laneSum (w : Nat) (xs : List U32) : U32 :=
  nth (treeLevels 8 (laneOrder (laneAcc w (List.replicate w 0) 0 xs))) 0 0

/-- The largest magnitude of a row, NaN where an element is NaN (R213). -/
def absMax : List U32 → U32
  | [] => 0
  | x :: r => fpMax (fpAbs x) (absMax r)

end Sys2Proof.Machine
end

