-- ==== Sys2Proof/Machine/Hash.lean ====
section
/-! DEFINITION. The named functions of the outside standards that the spec calls by name: SHA-256 and HMAC (R274), SHA-384
(R409), ECDSA P-384 (R407), CRC-32 (R335), Philox4x32-10 (R229), GF(2^8) arithmetic of the store's parity (R198), and the Reed-Solomon code of a
stack's columns (R383). Readings of the spec: log 51. -/

namespace Sys2Proof.Machine

open Sys2Proof

/-- The bytes of a string of words, most significant byte first. -/
def beBytes (n v : Nat) : List Byte := (leBytes n v).reverse

/-- The number a big-endian byte string holds. -/
def beNat (bs : List Byte) : Nat := leNat bs.reverse

/-- A list cut into n pieces of k elements. -/
def chunks {α : Type} (k : Nat) : Nat → List α → List (List α)
  | 0, _ => []
  | n + 1, l => l.take k :: chunks k n (l.drop k)

/-! ## SHA-2: one function, of which SHA-256 and SHA-384 are two members -/

/-- What distinguishes a member of the family: its word, its rounds, its rotations, and the primes its initial value comes from. -/
structure ShaKind where
  /-- bytes of a word -/
  word : Nat
  /-- rounds of a block -/
  rounds : Nat
  /-- rotations of the word the round adds last -/
  turnA : List Nat
  /-- rotations of the word the round adds first -/
  turnE : List Nat
  /-- two rotations and the shift of the older schedule word -/
  early : Nat × Nat × Nat
  /-- two rotations and the shift of the newer schedule word -/
  late : Nat × Nat × Nat
  /-- how many primes come before those of the initial value -/
  skip : Nat
  /-- bytes of the digest -/
  out : Nat
  deriving DecidableEq, Repr

/-- SHA-256 (FIPS 180-4). -/
def kind256 : ShaKind := ⟨4, 64, [2, 13, 22], [6, 11, 25], (7, 18, 3), (17, 19, 10), 0, 32⟩
/-- SHA-384 (FIPS 180-4). -/
def kind384 : ShaKind := ⟨8, 80, [28, 34, 39], [14, 18, 41], (1, 8, 7), (19, 61, 6), 8, 48⟩

/-- The largest number whose k-th power is at most n, found bit by bit. -/
def iroot (k n : Nat) : Nat → Nat → Nat
  | 0, r => r
  | b + 1, r => iroot k n b (if (r + 2 ^ b) ^ k ≤ n then r + 2 ^ b else r)

/-- The primes below 410, of which there are 80. -/
def smallPrimes : List Nat := (List.range 410).filter (fun p => 2 ≤ p && (List.range p).all (fun d => d < 2 || p % d ≠ 0))

/-- The leading bits of the fractional part of the k-th root of a number, as many as a word holds. -/
def rootFraction (k bits p : Nat) : Nat := iroot k (p * 2 ^ (k * bits)) (bits + 9) 0 % 2 ^ bits

/-- The round constants, from cube roots of primes. -/
def ShaKind.consts (h : ShaKind) : List Nat := (smallPrimes.take h.rounds).map (rootFraction 3 (8 * h.word))
/-- The initial value, from square roots of primes. -/
def ShaKind.start (h : ShaKind) : List Nat := ((smallPrimes.drop h.skip).take 8).map (rootFraction 2 (8 * h.word))

/-- A sum modulo the word. -/
def ShaKind.add (h : ShaKind) (l : List Nat) : Nat := sumN l % 2 ^ (8 * h.word)

/-- A word rotated to the right. -/
def ShaKind.turn (h : ShaKind) (x n : Nat) : Nat := x / 2 ^ n + x % 2 ^ n * 2 ^ (8 * h.word - n)

/-- Two rotations of a word and a shift of it, combined. -/
def ShaKind.mix (h : ShaKind) (p : Nat × Nat × Nat) (x : Nat) : Nat := (h.turn x p.1).xor ((h.turn x p.2.1).xor (x / 2 ^ p.2.2))

/-- Rotations of a word combined. -/
def ShaKind.spin (h : ShaKind) (ts : List Nat) (x : Nat) : Nat := ts.foldl (fun a t => a.xor (h.turn x t)) 0

/-- The schedule of a block, the newest word first; n words are added. -/
def ShaKind.schedule (h : ShaKind) : Nat → List Nat → List Nat
  | 0, ws => ws
  | n + 1, ws => h.schedule n (h.add [h.mix h.late (nth ws 1 0), nth ws 6 0, h.mix h.early (nth ws 14 0), nth ws 15 0] :: ws)

/-- One round: the eight words move down one place, a new one comes in at the head, and one is added to in the middle. -/
def ShaKind.round (h : ShaKind) (v : List Nat) (kw : Nat) : List Nat :=
  let at' := fun i => nth v i 0
  let pick := (at' 6).xor ((at' 4).land ((at' 5).xor (at' 6)))
  let most := ((at' 0).land (at' 1)).lor ((at' 2).land ((at' 0).lor (at' 1)))
  let t := h.add [at' 7, h.spin h.turnE (at' 4), pick, kw]
  h.add [t, h.spin h.turnA (at' 0), most] :: (v.take 3 ++ h.add [at' 3, t] :: (v.drop 4).take 3)

/-- A block taken into the running value. -/
def ShaKind.absorb (h : ShaKind) (hv : List Nat) (blk : List Byte) : List Nat :=
  let ws := h.schedule (h.rounds - 16) ((chunks h.word 16 blk).map beNat).reverse
  let v := (List.zipWith (· + ·) h.consts ws.reverse).foldl h.round hv
  List.zipWith (fun a b => h.add [a, b]) hv v

/-- The message with its closing one bit, zeros, and its length in bits in two words. -/
def ShaKind.pad (h : ShaKind) (m : List Byte) : List Byte :=
  let b := 16 * h.word
  m ++ [0x80] ++ List.replicate ((b - (m.length + 1 + 2 * h.word) % b) % b) 0 ++ beBytes (2 * h.word) (8 * m.length)

/-- The digest of a byte string. -/
def ShaKind.digest (h : ShaKind) (m : List Byte) : List Byte :=
  let p := h.pad m
  (((chunks (16 * h.word) (p.length / (16 * h.word)) p).foldl h.absorb h.start).flatMap (beBytes h.word)).take h.out

/-- SHA-256 of a byte string. -/
def sha256 (m : List Byte) : List Byte := kind256.digest m

/-- SHA-384 of a byte string. -/
def sha384 (m : List Byte) : List Byte := kind384.digest m

/-- HMAC-SHA-256: the key fills one block, a longer one as its digest. -/
def hmac256 (key : List Byte) (m : List Byte) : List Byte :=
  let k := slice (if 64 < key.length then sha256 key else key) 0 64
  sha256 (k.map (· ^^^ 0x5C) ++ sha256 (k.map (· ^^^ 0x36) ++ m))

/-! ## ECDSA P-384 (R407): the curve y² = x³ - 3x + b of FIPS 186, over a prime field -/

/-- The prime of the field. -/
def curveP : Nat := 2 ^ 384 - 2 ^ 128 - 2 ^ 96 + 2 ^ 32 - 1
/-- The order of the base point. -/
def curveN : Nat := 0xFFFFFFFFFFFFFFFFFFFFFFFFFFFFFFFFFFFFFFFFFFFFFFFFC7634D81F4372DDF581A0DB248B0A77AECEC196ACCC52973
/-- The constant term of the curve. -/
def curveB : Nat := 0xB3312FA7E23EE7E4988E056BE3F82D19181D9C6EFE8141120314088F5013875AC656398D8A2ED19D2A85C8EDD3EC2AEF
/-- The base point. -/
def baseX : Nat := 0xAA87CA22BE8B05378EB1C71EF320AD746E1D3B628BA79B9859F741E082542A385502F25DBF55296C3A545E3872760AB7
def baseY : Nat := 0x3617DE4A96262C6F5D9E98BF9292DC29F8F41DBD289A147CE9DA3113B5F0B8C00A60B1CE1D7E819D7A431D7C90EA0E5F

/-- A power modulo m, bit by bit of the exponent. -/
def powMod (m : Nat) : Nat → Nat → Nat → Nat → Nat
  | 0, _, _, r => r
  | f + 1, b, e, r => powMod m f (b * b % m) (e / 2) (if e % 2 = 1 then r * b % m else r)

/-- The inverse modulo a prime of 384 bits. -/
def invMod (m a : Nat) : Nat := powMod m 384 a (m - 2) 1

/-- A point as (X, Y, Z), which stands for (X / Z², Y / Z³); Z = 0 is the point at infinity. -/
abbrev CurvePoint := Nat × Nat × Nat

/-- A difference in the field. -/
def subP (a b : Nat) : Nat := (a + curveP - b % curveP) % curveP

/-- A point added to itself. -/
def pointTwice (q : CurvePoint) : CurvePoint :=
  let yy := q.2.1 * q.2.1 % curveP
  let c := 4 * q.1 * yy % curveP
  let zz := q.2.2 * q.2.2 % curveP
  let slope := 3 * (q.1 + zz) * subP q.1 zz % curveP
  let x := subP (slope * slope) (2 * c)
  (x, subP (slope * subP c x) (8 * yy * yy), 2 * q.2.1 * q.2.2 % curveP)

/-- The sum of two points. -/
def pointAdd (q r : CurvePoint) : CurvePoint :=
  if q.2.2 = 0 then r
  else if r.2.2 = 0 then q
  else
    let qq := q.2.2 * q.2.2 % curveP
    let rr := r.2.2 * r.2.2 % curveP
    let u := q.1 * rr % curveP
    let v := q.2.1 * r.2.2 * rr % curveP
    let run := subP (r.1 * qq) u
    let rise := subP (r.2.1 * q.2.2 * qq) v
    if run = 0 then if rise = 0 then pointTwice q else (1, 1, 0)
    else
      let sq := run * run % curveP
      let cube := run * sq % curveP
      let x := subP (rise * rise) (cube + 2 * u * sq)
      (x, subP (rise * subP (u * sq) x) (v * cube), q.2.2 * r.2.2 * run % curveP)

/-- A multiple of a point, bit by bit. -/
def pointTimes : Nat → Nat → CurvePoint → CurvePoint
  | 0, _, _ => (1, 1, 0)
  | f + 1, k, q =>
    let twice := pointTwice (pointTimes f (k / 2) q)
    if k % 2 = 1 then pointAdd twice q else twice

/-- A signature (r, s) over a digest verifies under a public key (x, y). -/
def ecdsaOk (x y r s z : Nat) : Bool :=
  let w := invMod curveN s
  let t := pointAdd (pointTimes 384 (z * w % curveN) (baseX, baseY, 1)) (pointTimes 384 (r * w % curveN) (x, y, 1))
  let zi := invMod curveP t.2.2
  x < curveP && y < curveP && y * y % curveP = (x * x % curveP * x + 3 * (curveP - x) + curveB) % curveP
    && 0 < r && r < curveN && 0 < s && s < curveN && t.2.2 ≠ 0 && t.1 * (zi * zi % curveP) % curveP % curveN = r

/-! ## CRC-32 (IEEE 802.3) -/

/-- One bit of the CRC register. -/
def crcBits : Nat → U32 → U32
  | 0, c => c
  | n + 1, c => crcBits n (if c.getLsbD 0 then (c >>> 1) ^^^ 0xEDB88320 else c >>> 1)

/-- CRC-32 of a byte string. -/
def crc32 (m : List Byte) : U32 := ~~~ (m.foldl (fun c b => crcBits 8 (c ^^^ BitVec.ofNat 32 b.toNat)) 0xFFFFFFFF)

/-! ## Philox4x32-10 (R229) -/

/-- Rounds of Philox on counter (c0, c1, c2, c3) and key (k0, k1). -/
def philoxRounds : Nat → (U32 × U32 × U32 × U32) → (U32 × U32) → U32 × U32 × U32 × U32
  | 0, c, _ => c
  | n + 1, (c0, c1, c2, c3), (k0, k1) =>
    let p0 := 0xD2511F53 * c0.toNat
    let p1 := 0xCD9E8D57 * c2.toNat
    let hi0 := BitVec.ofNat 32 (p0 / two32)
    let hi1 := BitVec.ofNat 32 (p1 / two32)
    philoxRounds n (hi1 ^^^ c1 ^^^ k0, BitVec.ofNat 32 p1, hi0 ^^^ c3 ^^^ k1, BitVec.ofNat 32 p0)
      (k0 + 0x9E3779B9, k1 + 0xBB67AE85)

/-- Output words 0 to 3 for key (seed[31:0], seed[63:32]) and counter (position, draw, 0, 0). -/
def philoxWords (seed : U64) (position draw : Nat) : List U32 :=
  let w := philoxRounds 10 (BitVec.ofNat 32 position, BitVec.ofNat 32 draw, 0, 0)
    (BitVec.ofNat 32 seed.toNat, BitVec.ofNat 32 (seed.toNat / two32))
  [w.1, w.2.1, w.2.2.1, w.2.2.2]

/-- Output word i of a draw. -/
def philox (seed : U64) (position draw i : Nat) : U32 := (philoxWords seed position draw)[i]?.getD 0

/-! ## GF(2^8) with polynomial 0x11D (R198) -/

/-- Multiplication by g = 2. -/
def gfDouble (a : Byte) : Byte := if a.getLsbD 7 then (a <<< 1) ^^^ 0x1D else a <<< 1

/-- Multiplication by g^u. -/
def gfPow : Nat → Byte → Byte
  | 0, a => a
  | u + 1, a => gfPow u (gfDouble a)

/-- The P byte and the Q byte of a column of data units (R198). -/
def parityP (d : List Byte) : Byte := d.foldl (· ^^^ ·) 0
def parityQ (d : List Byte) : Byte := d.zipIdx.foldl (fun a p => a ^^^ gfPow p.2 p.1) 0

/-- Multiplication in the field, by the bits of the second factor. -/
def gfMul (a b : Byte) : Byte := (List.range 8).foldl (fun x i => if b.getLsbD i then x ^^^ gfPow i a else x) 0

/-- The power of a in the field. -/
def gfExp (a : Byte) : Nat → Byte
  | 0 => 1
  | n + 1 => gfMul a (gfExp a n)

/-- The inverse of a nonzero element: the field has 255 of them. -/
def gfInv (a : Byte) : Byte := gfExp a 254

/-! ## RS(36,32), the code of a column (R383): 32 data bytes, the first the coefficient of the highest power, then 4 check bytes (log 51) -/

/-- Coefficients of the generator with roots g^0 to g^3 below the leading one, highest power first: the product of the four factors. -/
def rsGen : List Byte :=
  ((List.range 4).foldl (fun p i =>
    List.zipWith (· ^^^ ·) (p ++ [0]) (0 :: p.map (gfPow i))) ([1] : List Byte)).drop 1

/-- The four check bytes of 32 data bytes, the remainder of the division by the generator. -/
def rsCheck (d : List Byte) : List Byte :=
  d.foldl (fun r x =>
    let f := x ^^^ nth r 0 0
    List.zipWith (fun a g => a ^^^ gfMul f g) (r.drop 1 ++ [0]) rsGen) ([0, 0, 0, 0] : List Byte)

/-- The codeword the encoder writes for 32 data bytes. -/
def rsWord (d : List Byte) : List Byte := d ++ rsCheck d

/-- Syndrome j of a word read: its value at g^j. -/
def rsSyndrome (w : List Byte) (j : Nat) : Byte := w.foldl (fun a x => gfPow j a ^^^ x) 0

/-- Every syndrome is zero. -/
def rsClean (w : List Byte) : Bool := (List.range 4).all (fun j => rsSyndrome w j = 0)

/-- What the correcting path makes of a word read: one erroneous byte is corrected, every other nonzero syndrome is reported as
uncorrectable (R383). -/
def rsCorrect (w : List Byte) : Option (List Byte) :=
  let s := fun j => rsSyndrome w j
  if rsClean w then some w
  else
    match (List.range 36).find? (fun i =>
      s 0 ≠ 0 && s 1 = gfPow (35 - i) (s 0) && s 2 = gfPow (35 - i) (s 1) && s 3 = gfPow (35 - i) (s 2)) with
    | none => none
    | some i => some (w.modify i (· ^^^ s 0))

end Sys2Proof.Machine
end

