-- ==== Sys2Proof/Machine/Jobs.lean ====
section
/-! DEFINITION. Operations on a job that several families share: what it may touch, its teardown on a fault (R109), the return
of its resources (R36, R107, R162).
Readings of the spec: logs 37, 38. -/

namespace Sys2Proof.Machine

open Sys2Proof

/-- A kernel of the job is running: a tick is in its execute window and the job has not ended (R37, R83). -/
def State.jobRuns (s : State) (m : Nat) : Bool :=
  s.tick.running && !s.tick.inCommit &&
    match s.job? m with
    | none => false
    | some j => j.active && !j.faulted && !j.finished

/-- A kernel command may enter a cluster's queue: from a running job, or from control space in MAINTENANCE (R144, R172). -/
def State.mayQueue (s : State) (m : Nat) : Bool := s.jobRuns m || s.start.state = .maintenance

/-- A range of n units from a lies inside one of the ranges granted on a cluster. -/
def inGrants (cl a n : Nat) (g : List (Nat × Nat × Nat)) : Bool :=
  g.any (fun r => r.1 = cl && r.2.1 ≤ a && a + n ≤ r.2.1 + r.2.2)

/-- First bank past the pool: 1,018 on XF and XL, 762 on CB (R261, Table 11-2). -/
def poolBanks (v : Variant) : Nat := banksOf v - 6

/-- Banks that a job may be granted rows of: not the Tier Manager region, nor the table reserve (R261, Table 11-2). -/
def poolBank (v : Variant) (b : Nat) : Bool := b < banksOf v - 6 || b = banksOf v - 5

/-- Rows of a bank from r, n of them, touch a reserved region: the save area, or the Request Table on a mirror stack
(R106, R54, R124). -/
def reservedRows (s : State) (cl b r n : Nat) : Bool :=
  (b = banksOf s.variant - 5 && 5120 < r + n) || (banksOf s.variant - 4 ≤ b && s.req.mirrors.contains cl)

/-- Rows of a bank lie inside the tier-1 ranges granted to the job and outside the reserved regions and those of Table 11-2 (R124, R261). In
MAINTENANCE no job holds a grant, and the reserved regions alone are closed. -/
def State.rowsOk (s : State) (m cl b r n : Nat) : Bool :=
  !reservedRows s cl b r n && r + n ≤ 32768 && poolBank s.variant b &&
    match s.job? m with
    | none => s.start.state = .maintenance
    | some j => inGrants cl (b * 32768 + r) n j.t1

/-- A scratchpad range in 256 B units lies inside the regions granted to the job, and below the staging area (R127, R161). -/
def State.spOk (s : State) (m cl u n : Nat) : Bool :=
  let stage := rf (nth s.regs.mxCfg cl 0) 23 16
  u + n ≤ 196608 - stage * 4096 &&
    match s.job? m with
    | none => s.start.state = .maintenance
    | some j => inGrants cl u n j.sp

/-- A cluster whose pair is in service (R15). -/
def State.clusterUp (s : State) (cl : Nat) : Bool := cl < 16 && !s.faults.clFailed.contains cl

/-- The group of a handle; a handle not listed is unused (R265). -/
def State.group? (s : State) (h : Nat) : Option PageGroup := tabGet h s.tier.groups

/-- The step-attempt of a slot. -/
def State.attempt? (s : State) (slot : Nat) : Option Attempt := s.plan.attempts.find? (fun a => a.slot = slot)

/-! ## Tier traffic (R286) -/

/-- A host port trains to a rate and a width that Table 15-1 supports. -/
def linkOk (gts lanes : Nat) : Bool := [16, 32, 64].contains gts && [8, 16].contains lanes

/-- Combined rate of the host ports that are up, in bytes per ns: 128 at x16 and 64 GT/s (Table 15-1). -/
def hostRate (s : State) : Nat := sumN ((s.host.ports.filter (fun p => p.up)).map (fun p => p.lanes * p.gts / 8))

/-- A transfer is served before another: promotions first, by class of the requesting request and then its admit_tick; loads next;
demotions last; within a kind in the order begun (R286, R293). -/
def moveBefore (a b : TierMove) : Bool :=
  let rank := fun (m : TierMove) => if m.kind = 0 then 0 else if m.kind = 3 then 2 else 1
  decide (rank a < rank b) || (a.kind = 0 && b.kind = 0 && (decide (b.cls < a.cls) || (a.cls = b.cls && decide (a.taken < b.taken))))

/-- A transfer in its place among those served before it. -/
def insertMove (m : TierMove) : List TierMove → List TierMove
  | [] => [m]
  | h :: r => if moveBefore m h then m :: h :: r else h :: insertMove m r

/-- A budget spent on transfers in turn, from an Invar on at a rate in units of 1/800 byte per ns; spent is what those before have had. One
that has its last byte notes when. -/
def serveMoves (from' rate : Nat) : Nat → Nat → List TierMove → List TierMove
  | _, _, [] => []
  | n, spent, m :: r =>
    { m with left := m.left - n, servedBy := if m.left ≠ 0 && m.left ≤ n then from' + ceilDiv (spent + m.left) rate else m.servedBy }
      :: serveMoves from' rate (n - m.left) (spent + min n m.left) r

/-- Rate of tier traffic, in units of 1/800 byte per ns: bw_pct of the combined rate of the host ports that are up (R286). -/
def tierRate (s : State) : Nat := hostRate s * 8 * rf s.regs.t2Ctl 23 16

/-- Tier traffic is served up to now: at most bw_pct of the combined rate of the host ports that are up, promotions and demotions sharing
it (R286). -/
def State.serveTier (s : State) : State :=
  s.onTier (fun t => { t with
    moves := serveMoves t.servedAt (tierRate s) ((s.now - t.servedAt) * tierRate s) 0 t.moves
    servedAt := max s.now t.servedAt })

/-- A transfer of n bytes begins. -/
def State.beginMove (s : State) (kind key cls taken n : Nat) : State :=
  s.serveTier.onTier (fun t => { t with moves := insertMove { kind := kind, key := key, cls := cls, taken := taken, left := 800 * n, tick := s.tick.index } t.moves })

/-- A transfer ends, by completion or because it is abandoned. -/
def State.endMove (s : State) (kind key : Nat) : State :=
  s.serveTier.onTier (fun t => { t with moves := t.moves.filter (fun m => !(m.kind = kind && m.key = key)) })

/-- No part of a transfer is still to be served, and an execute window lies between its beginning and now, in which its bank work has run
(R264). -/
def moveDone (s : State) (kind key : Nat) : Bool :=
  s.serveTier.tier.moves.all (fun m => !(m.kind = kind && m.key = key) || (m.left = 0 && m.tick < s.tick.index))

/-! ## What a job may touch, and its ends -/

/-- Applies a change to the bank side of every cluster that lists one. -/
def State.allBcl (s : State) (f : BankCluster → BankCluster) : State :=
  s.onBanks (fun l => l.map (fun p => (p.1, f p.2)))

/-- Drops the commands of a job that wait at a sequencer, and its drain records not yet combined (R36, R109). -/
def dropQueue (owner : Nat) (c : BankCluster) : BankCluster :=
  { c with queue := c.queue.filter (fun q => q.job ≠ owner), drains := c.drains.filter (fun r => r.job ≠ owner) }

/-- The refresh interval of a bank in ns, halved while its stack is hot (Table 5-10). -/
def trefi (c : BankCluster) : Nat := if c.hot then 1953 else 3906

/-- The Invar from which a bank's refresh interval in progress counts. -/
def refreshBase (c : BankCluster) (b : Nat) : Nat := max c.refreshFrom (tabGetD b ({} : BankUnit) c.units).refreshed

/-- Refreshes a bank owes: one for each interval gone by, two at most (nPOST). -/
def refreshDebt (now : Nat) (c : BankCluster) (b : Nat) : Nat := min 2 ((now - refreshBase c b) / trefi c)

/-- Frees every accumulation group of a job, or those of one state. -/
def freeGroups (owner : Nat) (p : AccGroup → Bool) (mc : MatrixCluster) : MatrixCluster :=
  { mc with groups := mc.groups.filter (fun g => !(g.2.owner = owner && p g.2)) }

/-- A staging half returns to the loader once none of its ingots is left (R155). -/
def settleHalves (mc : MatrixCluster) : MatrixCluster :=
  { mc with halfUsed := [false, true].map (fun h => if mc.staging.any (fun f => f.half = h) then nth mc.halfUsed (b2n h) 0 else 0) }

/-- Drops the scratchpad holds, staged ingots and waiting commands of a job on a cluster (R155, R170). -/
def dropHolds (owner : Nat) (mc : MatrixCluster) : MatrixCluster :=
  settleHalves { mc with
    holds := mc.holds.filter (fun h => h.job ≠ owner)
    queue := mc.queue.filter (fun q => q.job ≠ owner)
    staging := mc.staging.filter (fun f => f.model ≠ owner) }

/-- Applies a change to the matrix side of every cluster that lists one. -/
def State.allMcl (s : State) (f : MatrixCluster → MatrixCluster) : State :=
  s.onMatrix (fun l => l.map (fun p => (p.1, f p.2)))

/-- Clears the front and back registers of every unit (R150). -/
def clearUnits (mc : MatrixCluster) : MatrixCluster := { mc with units := [] }

/-- Model slots of rows in plan order: by the highest class of their rows, ties to the lower slot (R85). -/
def planOrder (rows : List PlanRow) : List Nat :=
  let cls := fun m => (rows.filter (fun r => r.modelSlot = m)).foldl (fun c r => max c r.cls) 0
  [7, 6, 5, 4, 3, 2, 1, 0].flatMap (fun c =>
    (List.range 16).filter (fun m => rows.any (fun r => r.modelSlot = m) && cls m = c))

/-- The tick classes ACT and LOGIT, which draw on the tick pool (R203). -/
def isTick : StoreClass → Bool
  | .act => true
  | .logit => true
  | _ => false

/-- Returns the ACT and LOGIT blocks and the semaphores of a job (R107, R109, Table 8-2). -/
def State.returnStore (s : State) (m : Nat) : State :=
  s.onStore (fun u => { u with
    held := u.held.filter (fun h => !(isTick h.cls && h.holder = m))
    sems := u.sems.filter (fun p => p.2.job ≠ m) })

/-- What every kernel end does on the engines: CLOSED groups freed, weight registers cleared, tables 0 to 2 restored. -/
def State.kernelClear (s : State) (m : Nat) : State :=
  (s.allMcl (fun c => clearUnits (freeGroups m (fun g => g.state = .closed) c))).onStore (fun u => { u with
    sems := u.sems.filter (fun p => p.2.job ≠ m)
    engines := u.engines.map (fun e => (e.1, { e.2 with tables := e.2.tables.filter (fun t => t.1 = 3) })) })

/-- Marks the attempts of a job's rows. -/
def markAttempts (slots : List Nat) (f : Attempt → Attempt) (l : List Attempt) : List Attempt :=
  l.map (fun a => if slots.contains a.slot then f a else a)

/-- The slots of the rows of a job in the plan that runs. -/
def State.jobSlots (s : State) (m : Nat) : List Nat := (s.plan.rows.filter (fun r => r.modelSlot = m)).map (·.slot)

/-- A job faults: its context is torn down and nothing else, its attempts are discarded, the fault is counted (R109). -/
def State.jobFault (s : State) (m : Nat) : State :=
  match s.job? m with
  | none => s
  | some j =>
    if j.faulted then s
    else
      let slots := s.jobSlots m
      let s := (if j.active then s.kernelClear m else s).allBcl (dropQueue m)
      let t := (s.modJob m (fun j => { j with faulted := true, active := false, stopped := j.stopped || j.active, t1 := [], sp := [] })).allMcl
        (fun mc => let d := dropHolds m (freeGroups m (fun _ => true) mc)
          { d with save := d.save.filter (fun g => g.2.owner ≠ m)
                   savedScratch := if s.plan.saved = some m then [] else d.savedScratch })
      ((t.returnStore m).onPlan (fun p => { p with
          saved := if p.saved = some m then none else p.saved
          faultedJobs := setAdd m p.faultedJobs
          attempts := markAttempts slots (fun a => { a with faulted := true }) p.attempts })).countStep
        (fun c => { c with jobFaults := inc64 c.jobFaults })

/-- Faults the jobs of a list in turn. -/
def State.jobFaults (s : State) (l : List Nat) : State := l.foldl State.jobFault s

end Sys2Proof.Machine
end

