-- ==== Sys2Proof/Machine/Store.lean ====
section
/-! DEFINITION. The Central Store: classes and reservations (R203 to R209), stripe rows, units and erasures (R197 to R201), patrol
(R218), semaphores (R215, R216).
Readings of the spec: logs 35, 36. -/

namespace Sys2Proof.Machine

open Sys2Proof

/-! ## Classes and pools (R203, R204, R209) -/

/-- Index of a class (Table 8-2). -/
def classIx : StoreClass → Nat
  | .act => 0
  | .logit => 1
  | .ship => 2
  | .host => 3
  | .tier => 4
  | .journal => 5
  | .rtcache => 6
  | .pindex => 7

/-- The eight classes in order of index. -/
def allClasses : List StoreClass := [.act, .logit, .ship, .host, .tier, .journal, .rtcache, .pindex]

/-- First block and number of blocks of a pool: the tick pool or the standing pool (R203). -/
def poolOf (sevenTwo tick : Bool) : Nat × Nat := if tick then (12288, if sevenTwo then 30720 else 36864) else (0, 12288)

/-- Reserve of a class in blocks, in force. -/
def classReserve (s : State) (c : StoreClass) : Nat := rf (nth s.regs.classCfg (classIx c) 0) 11 0 * 16

/-- Ceiling of a class in blocks, in force: in 7 + 2 the ACT ceiling is 384 MiB lower (Table 8-9). -/
def classCeiling (s : State) (c : StoreClass) : Nat :=
  (rf (nth s.regs.classCfg (classIx c) 0) 23 12 - (if s.store.sevenTwo && c = .act then 384 else 0)) * 16

/-- Blocks a class holds. -/
def heldBy (held : List Holding) (c : StoreClass) : Nat := sumN ((held.filter (fun h => h.cls = c)).map (·.blocks))

/-- A request for n blocks of class c is granted (R205). -/
def mayGrant (s : State) (c : StoreClass) (n : Nat) : Bool :=
  let peers := allClasses.filter (fun d => isTick d = isTick c)
  let free := (poolOf s.store.sevenTwo (isTick c)).2 - sumN (peers.map (heldBy s.store.held))
  let owed := sumN ((peers.filter (fun d => d ≠ c)).map (fun d => classReserve s d - heldBy s.store.held d))
  heldBy s.store.held c + n ≤ classCeiling s c && owed + n ≤ free

/-- The most blocks that a class would be granted now (R205). -/
def grantable (s : State) (c : StoreClass) : Nat :=
  let peers := allClasses.filter (fun d => isTick d = isTick c)
  let free := (poolOf s.store.sevenTwo (isTick c)).2 - sumN (peers.map (heldBy s.store.held))
  min (classCeiling s c - heldBy s.store.held c) (free - sumN ((peers.filter (fun d => d ≠ c)).map (fun d => classReserve s d - heldBy s.store.held d)))

/-! ## Placing blocks: which free blocks a grant takes is left open (log 6) -/

/-- Free runs of a pool between its sorted holdings. -/
def gapsFrom (cur stop : Nat) : List (Nat × Holding) → List (Nat × Nat)
  | [] => if cur < stop then [(cur, stop - cur)] else []
  | (_, h) :: r => (if cur < h.first then [(cur, h.first - cur)] else []) ++ gapsFrom (max cur (h.first + h.blocks)) stop r

/-- The free runs of a pool. -/
def freeRuns (s : State) (tick : Bool) : List (Nat × Nat) :=
  let p := poolOf s.store.sevenTwo tick
  gapsFrom p.1 (p.1 + p.2)
    ((s.store.held.filter (fun h => isTick h.cls = tick)).foldl (fun acc h => insertKey h.first h acc) [])

/-- n blocks taken from runs in turn. -/
def takeRuns : Nat → List (Nat × Nat) → List (Nat × Nat)
  | _, [] => []
  | n, (a, k) :: r => if n = 0 then [] else if n ≤ k then [(a, n)] else (a, k) :: takeRuns (n - k) r

/-- Grants n blocks to a holder: an open choice of free blocks, each read as zero from now on (R208). -/
def State.grantBlocks (s : State) (c : StoreClass) (holder n : Nat) : State :=
  let runs := freeRuns s (isTick c)
  let k := Config.startRun s.freeCtr % max 1 runs.length
  let got := takeRuns n (runs.drop k ++ runs.take k)
  let new := got.map (fun g => ({ cls := c, holder := holder, first := g.1, blocks := g.2 } : Holding))
  let s := (s.draw).onStore (fun u => { u with held := u.held ++ new })
  s.onMem (fun m => got.foldl (fun m (g : Nat × Nat) => m.clear (g.1 * 65536) (g.2 * 65536)) m)

/-- Releases a holder's blocks of a class. JOURNAL is never released (Table 8-2). -/
def State.releaseBlocks (s : State) (c : StoreClass) (holder : Nat) : State :=
  if c = .journal then s
  else s.onStore (fun u => { u with held := u.held.filter (fun h => !(h.cls = c && h.holder = holder)) })

/-- Blocks a holder has of a class. -/
def heldOf (s : State) (c : StoreClass) (holder : Nat) : Nat := sumN ((s.store.held.filter (fun h => h.cls = c && h.holder = holder)).map (·.blocks))

/-- The holdings with at most n blocks left of those a test names; the last of them go. -/
def trimHeld (p : Holding → Bool) : Nat → List Holding → List Holding
  | _, [] => []
  | n, h :: r =>
    if p h then
      if n = 0 then trimHeld p 0 r else { h with blocks := min h.blocks n } :: trimHeld p (n - h.blocks) r
    else h :: trimHeld p n r

/-- A holder has n blocks of a class from now on: more are granted, or the last are released. -/
def State.setHeld (s : State) (c : StoreClass) (holder n : Nat) : State :=
  if heldOf s c holder < n then s.grantBlocks c holder (n - heldOf s c holder)
  else s.onStore (fun u => { u with held := trimHeld (fun h => h.cls = c && h.holder = holder) n u.held })

/-- STORE_RESERVE: an engine of a standing class asks for blocks: granted whole, queued, or answered BAD_ARGUMENT where it
exceeds the class's ceiling (R205, R206). Tick classes are reserved at plan time alone (R207). -/
def execStoreReserve (cls : StoreClass) (holder blocks : Nat) (s : State) : Host.Outcome State Fault Refusal :=
  .next (
    if isTick cls then s
    else if classCeiling s cls < blocks then s.answerWith (leBytes 2 St.badArgument)
    else if mayGrant s cls blocks then (s.grantBlocks cls holder blocks).answerWith (leBytes 2 St.ok)
    else
      (s.onStore (fun u => { u with queue := u.queue ++ [{ cls := cls, blocks := blocks, holder := holder }] })).count
        (fun x => { x with store := { x.store with reservationWaits := inc64 x.store.reservationWaits } }))

/-- Retries the head of one class's queue (R206). -/
def retryClass (s : State) (c : StoreClass) : State :=
  match s.store.queue.find? (fun w => w.cls = c) with
  | none => s
  | some w =>
    if mayGrant s c w.blocks then
      (s.grantBlocks c w.holder w.blocks).onStore (fun u => { u with queue := u.queue.erase w })
    else s

/-- STORE_RELEASE: a holder, or a class's release event, releases blocks (R208). -/
def execStoreRelease (cls : StoreClass) (holder : Nat) (s : State) : Host.Outcome State Fault Refusal :=
  .next (s.releaseBlocks cls holder)

/-! ## Stripe rows, units and erasures (R197 to R201) -/

/-- Data bytes of a stripe row (Table 8-1). -/
def rowData (s : State) : Nat := if s.store.sevenTwo then 448 else 512

/-- Stripe row of a store address. -/
def stripeRow (s : State) (a : Nat) : Nat := a / rowData s

/-- Dies of the geometry in use, in the order that numbers them: ten, or the nine survivors. -/
def geometryDies (s : State) : List Nat := if s.store.sevenTwo then s.store.survivors else List.range 10

/-- Die i of the geometry, counted round it. -/
def stripeDie (s : State) (i : Nat) : Nat := nth (geometryDies s) (i % max 1 (geometryDies s).length) 0

/-- Dies of the P unit, the Q unit and data unit u of a row (R197, R201). -/
def pDie (s : State) (row : Nat) : Nat := stripeDie s row
def qDie (s : State) (row : Nat) : Nat := stripeDie s (row + 1)
def dataDie (s : State) (row u : Nat) : Nat := stripeDie s (row + 2 + u)

/-- Data unit of its row that holds a store address. -/
def stripeUnit (s : State) (a : Nat) : Nat := a % rowData s / 64

/-- Die-local offset of a store address: every unit of row r lies at 64 r (R197). -/
def dieOffset (s : State) (a : Nat) : Nat := stripeRow s a * 64 + a % 64

/-- The 64 bytes of data unit u of a row. -/
def dataUnit (s : State) (row u : Nat) : List Byte := s.getBytes (row * rowData s + 64 * u) 64

/-- The bytes of a row's data units at one place within a unit. -/
def rowColumn (s : State) (row k : Nat) : List Byte := (List.range (rowData s / 64)).map (fun u => s.mem.read (row * rowData s + 64 * u + k))

/-- The unit of a row that a die holds: P, Q or data (R197, R198). -/
def unitOn (s : State) (row d : Nat) : List Byte :=
  if d = pDie s row then (List.range 64).map (fun k => parityP (rowColumn s row k))
  else if d = qDie s row then (List.range 64).map (fun k => parityQ (rowColumn s row k))
  else ((List.range (rowData s / 64)).find? (fun u => dataDie s row u = d)).elim [] (dataUnit s row)

/-- A byte of data unit u rebuilt from P and the other data units of its column (R198). -/
def rebuildByP (col : List Byte) (u : Nat) (p : Byte) : Byte := p ^^^ parityP (col.set u 0)

/-- The bytes of data units u and v, u < v, rebuilt from P, Q and the others: with a and b what P and Q lack, D_v is
(g^u a + b) over (g^u + g^v), and D_u is a + D_v (R198). -/
def rebuildByPQ (col : List Byte) (u v : Nat) (p q : Byte) : Byte × Byte :=
  let rest := (col.set u 0).set v 0
  let a := p ^^^ parityP rest
  let b := q ^^^ parityQ rest
  let d := gfMul (gfExp (gfPow u 1 ^^^ gfPow v 1) 254) (gfPow u a ^^^ b)
  (a ^^^ d, d)

/-- Dies of a row that are erasures: failed dies and dies whose unit of the row fails its CRC (R199). -/
def rowErasures (s : State) (row : Nat) : List Nat :=
  (geometryDies s).filter (fun d => s.store.failed.contains d || s.store.bad.contains (row, d))

/-- A row is uncorrectable (R199). -/
def rowLost (s : State) (row : Nat) : Bool := decide (3 ≤ (rowErasures s row).length)

/-- Units of a row on healthy dies are whole again: each has been rebuilt and rewritten, or written anew (R199, R200). -/
def mendRow (row : Nat) (u : StoreUnit) : StoreUnit := { u with bad := u.bad.filter (fun x => x.1 ≠ row || u.failed.contains x.2) }

/-- Rows that a range of n bytes from a touches. -/
def rowsTouched (s : State) (a n : Nat) : List Nat := if n = 0 then [] else upFrom (stripeRow s a) (stripeRow s (a + n - 1) + 1 - stripeRow s a)

/-- Dies of the data units of a row that a range covers. -/
def diesTouched (s : State) (a n row : Nat) : List Nat :=
  ((List.range (rowData s / 64)).filter (fun u => decide (row * rowData s + 64 * u < a + n) && decide (a < row * rowData s + 64 * u + 64))).map (dataDie s row)

/-- A read of part of one row: one that meets an erasure is counted and the row's units rewritten where their dies are healthy; an
uncorrectable row is counted (R199). -/
def readRow (a n : Nat) (s : State) (row : Nat) : State :=
  if rowLost s row then
    (s.onStore (fun u => { u with uncorrCount := inc64 u.uncorrCount })).count
      (fun c => { c with store := { c.store with poisonedReads := inc64 c.store.poisonedReads } })
  else if (diesTouched s a n row).any (fun d => (rowErasures s row).contains d) then
    s.onStore (fun u => { mendRow row u with reconCount := inc64 u.reconCount })
  else s

/-- A read of a store range (R199). -/
def State.readStore (s : State) (a n : Nat) : State := (rowsTouched s a n).foldl (readRow a n) s

/-- A read of a store range meets an uncorrectable row: what it returns is poisoned. -/
def poisonedRange (s : State) (a n : Nat) : Bool := (rowsTouched s a n).any (rowLost s)

/-- The bytes that a read of a store range returns: those of an uncorrectable row are zero (R199). -/
def State.storeBytes (s : State) (a n : Nat) : List Byte := (upFrom a n).map (fun b => if rowLost s (stripeRow s b) then 0 else s.mem.read b)

/-- The write of one row of a range: a row written whole is whole again; a partial write reads the row first, and rewrites it (R200). -/
def writeRow (a n : Nat) (s : State) (row : Nat) : State :=
  if decide (a ≤ row * rowData s) && decide ((row + 1) * rowData s ≤ a + n) then s.onStore (mendRow row)
  else if rowLost s row then readRow (row * rowData s) (rowData s) s row
  else (readRow (row * rowData s) (rowData s) s row).onStore (mendRow row)

/-- Writes bytes to the store, row by row (R200). -/
def State.putStore (s : State) (a : Nat) (bs : List Byte) : State := ((rowsTouched s a bs.length).foldl (writeRow a bs.length) s).putBytes a bs

/-- Size of the store in bytes (Table 8-1). -/
def storeBytes (s : State) : Nat := if s.store.sevenTwo then 0xA8000000 else 0xC0000000

/-- A store range lies in blocks of holdings that a test names. -/
def holdsIn (s : State) (p : Holding → Bool) (a n : Nat) : Bool :=
  a + n ≤ storeBytes s && (upFrom (a / 65536) ((a + n + 65535) / 65536 - a / 65536)).all (fun b =>
    s.store.held.any (fun h => p h && h.first ≤ b && b < h.first + h.blocks))

/-- A holding of a job under ACT or LOGIT. -/
def jobHolding (job : Nat) (h : Holding) : Bool := isTick h.cls && h.holder = job

/-- A poisoned read under ACT or LOGIT drops every step-attempt of the reading job in its tick; it is no fault (R199, R35). -/
def State.poisonJob (s : State) (job : Nat) : State :=
  s.onPlan (fun p => { p with attempts := markAttempts (s.jobSlots job) (fun a => { a with poisoned := true }) p.attempts })

/-- A job reads a store range. -/
def State.jobReads (s : State) (job : Nat) (r : Nat × Nat) : State := (if poisonedRange s r.1 r.2 then s.poisonJob job else s).readStore r.1 r.2

/-- Units whose CRC fails from now on, of dies of the geometry (R199). -/
def State.markBad (s : State) (l : List (Nat × Nat)) : State :=
  s.onStore (fun x => { x with bad := (l.filter (fun u => (geometryDies s).contains u.2)).foldl (fun b u => if b.contains u then b else b ++ [u]) x.bad })

/-- Patrol of one bad unit: a row with at most two erasures is rebuilt and the unit rewritten if its die is healthy; a row
with more is uncorrectable (R199). -/
def patrolUnit (s : State) (u : Nat × Nat) : State :=
  if !s.store.bad.contains u then s
  else if !rowLost s u.1 then
    s.onStore (fun x => { x with
      reconCount := inc64 x.reconCount
      bad := if x.failed.contains u.2 then x.bad else x.bad.filter (· ≠ u) })
  else s.onStore (fun x => { x with uncorrCount := inc64 x.uncorrCount })

/-- STORE_PATROL: bad lists units whose CRC has come to fail. With scrub_en set the patrol reads them all and rebuilds each failure; without it
they stay as they are until a read meets them (R199, Table 8-8). -/
def execStorePatrol (bad : List (Nat × Nat)) (s : State) : Host.Outcome State Fault Refusal :=
  .next (
    let t := s.markBad bad
    if bit s.regs.storeCtl.toNat 16 then bad.foldl patrolUnit t else t)

/-- Stripe rows of the standing pool in 8 + 2 (R203). -/
def standingRows : Nat := 1572864

/-- Rows of the standing pool that hold a unit with a failing CRC, each once. -/
def markedRows (s : State) : List Nat := ((s.store.bad.map (·.1)).filter (fun r => r < standingRows)).dedup

/-- A data unit of a row is an erasure. -/
def dataErased (s : State) (row : Nat) : Bool := (List.range 8).any (fun u => (rowErasures s row).contains (dataDie s row u))

/-- Reads of the re-striping copy that rebuild a unit: of the rows with a failing CRC each by itself, of the others by the die that each of the
ten row classes has a data unit on (R199, R201). -/
def copyRebuilds (s : State) : Nat :=
  let marked := markedRows s
  let cls := fun (k : Nat) => (standingRows - k + 9) / 10 - (marked.filter (fun r => r % 10 = k)).length
  let plain := { s with store := { s.store with bad := [] } }
  sumN ((List.range 10).map (fun k => if dataErased plain k then cls k else 0)) + (marked.filter (fun r => !rowLost s r && dataErased s r)).length

/-- The copy of the standing pool into 7 + 2: it reads every row, rebuilding what it can; a row that it cannot read is written as the zero data
that its read returns, and counted (R199, R201). -/
def copyPool (s : State) : State :=
  let all := decide (3 ≤ (s.store.failed.filter (geometryDies s).contains).length)
  let lost := if all then standingRows else ((markedRows s).filter (rowLost s)).length
  let t := s.onMem (fun m => if all then m.clear 0 (standingRows * 512) else ((markedRows s).filter (rowLost s)).foldl (fun m r => m.clear (r * 512) 512) m)
  (t.onStore (fun u => { u with
    restriped := true
    reconCount := add64 u.reconCount (if all then 0 else copyRebuilds s), uncorrCount := add64 u.uncorrCount lost })).count
      (fun c => { c with store := { c.store with poisonedReads := add64 c.store.poisonedReads lost } })

/-- STORE_RESTRIPE: in the execute window of the empty tick the standing pool is copied into 7 + 2 over the nine survivors. The geometry takes
effect at the edge that ends the tick (R201). -/
def execStoreRestripe (s : State) : Host.Outcome State Fault Refusal :=
  .next (
    if s.store.reconfPending && !s.store.sevenTwo && !s.store.restriped && s.plan.emptyRunning && s.tick.running && !s.tick.inCommit then copyPool s
    else s)

/-- A transfer through the store takes blocks of its class for its holder, as far as the ceiling lets it: granted, or queued until they can be
(R202, R206). -/
def State.openTransit (s : State) (c : StoreClass) (holder n : Nat) : State :=
  let n := min n (classCeiling s c)
  if n = 0 then s
  else if mayGrant s c n then s.grantBlocks c holder n
  else (s.onStore (fun u => { u with queue := u.queue ++ [{ cls := c, blocks := n, holder := holder }] })).count
    (fun x => { x with store := { x.store with reservationWaits := inc64 x.store.reservationWaits } })

/-- A transfer has completed or failed: its blocks are released, and it waits for none (Table 8-2). -/
def State.closeTransit (s : State) (c : StoreClass) (holder : Nat) : State :=
  retryClass ((s.releaseBlocks c holder).onStore (fun u => { u with queue := u.queue.filter (fun w => !(w.cls = c && w.holder = holder)) })) c

/-- Every transfer of a class has ended. -/
def State.endTransits (s : State) (c : StoreClass) : State :=
  (((s.store.held.filter (fun h => h.cls = c)).map (·.holder)) ++ ((s.store.queue.filter (fun w => w.cls = c)).map (·.holder))).foldl (fun t h => t.closeTransit c h) s

/-! ## Semaphores (R215, R216) -/

/-- A semaphore has a die that serves it: its home or its mirror. -/
def semServed (s : State) (n : Nat) : Bool := !(s.store.failed.contains (n % 10) && s.store.failed.contains ((n + 5) % 10))

/-- Changes a granted semaphore. -/
def State.modSem (s : State) (n : Nat) (f : Semaphore → Semaphore) : State :=
  s.onStore (fun u => { u with sems := tabMod n f u.sems })

/-- SEM_SIGNAL: adds v; a result above 65,535 faults the issuing job. -/
def execSemSignal (job n v : Nat) (s : State) : Host.Outcome State Fault Refusal :=
  .next (
    match tabGet n s.store.sems with
    | none => s
    | some q =>
      if s.jobRuns job && q.job = job && semServed s n then
        if 65535 < q.value + v then s.jobFault job else s.modSem n (fun x => { x with value := x.value + v })
      else s)

/-- SEM_WAIT: takes v off at once where the value reaches it and no waiter stands before; else waits. -/
def execSemWait (job n v waiter : Nat) (s : State) : Host.Outcome State Fault Refusal :=
  .next (
    match tabGet n s.store.sems with
    | none => s
    | some q =>
      if s.jobRuns job && q.job = job && semServed s n then
        if q.waiters.isEmpty && v ≤ q.value then s.modSem n (fun x => { x with value := x.value - v })
        else s.modSem n (fun x => { x with waiters := x.waiters ++ [(waiter, v)] })
      else s)

/-- SEM_WAIT_SATISFIED: the first waiter takes its v once the value reaches it. -/
def execSemWaitSatisfied (n : Nat) (s : State) : Host.Outcome State Fault Refusal :=
  .next (
    match tabGet n s.store.sems with
    | none => s
    | some q =>
      match q.waiters with
      | [] => s
      | w :: r => if w.2 ≤ q.value && semServed s n then s.modSem n (fun x => { x with value := x.value - w.2, waiters := r }) else s)

/-- SEM_READ: the value and the waiter count. -/
def execSemRead (n : Nat) (s : State) : Host.Outcome State Fault Refusal :=
  .next (
    if n < 4096 && semServed s n then
      let q := tabGetD n ({} : Semaphore) s.store.sems
      s.answerWith (leBytes 2 q.value ++ leBytes 2 q.waiters.length)
    else s)

end Sys2Proof.Machine
end

