-- ==== Sys2Proof/Machine/Flags.lean ====
section
/-! DEFINITION. Status: every read-only register of control space as its table composes it from the state, the Device Status
Block (R342), the Identity and Capability Block (R365), and what a read of BAR0 returns (R340, R341). -/

namespace Sys2Proof.Machine

open Sys2Proof

/-! ## Composed registers -/

/-- An integer as a 16-bit two's-complement field. -/
def i16Field (i : Int) : Nat := (BitVec.ofInt 16 i).toNat

/-- IV_STAT (Table 2-9). -/
def ivStat (s : State) : Nat :=
  i16Field s.tick.ivOffset * 65536 + b2n s.tick.refLost * 8 + b2n s.tick.holdover * 4 + b2n s.tick.locked * 2 + b2n s.tick.ppsSeen

/-- The reference in use (Table 2-8): hardware selects Gelcon in a member that is not the tick master. -/
def refSel (s : State) : Nat :=
  if s.tick.inGroup && !s.tick.isMaster then 2 else bits s.cfg.ivCtl.toNat 1 0

/-- IV_CTL as it reads: the host's setting, with ref_sel as hardware has selected it in a group (R28, Table 2-8). -/
def ivCtlReg (s : State) : Nat := s.cfgNext.ivCtl.toNat / 4 * 4 + (if s.tick.inGroup && !s.tick.isMaster then 2 else s.cfgNext.ivCtl.toNat % 4)

/-- TK_CFG: T and C as Table 2-6 lays them out. -/
def tkCfgOf (t c : Nat) : Nat := c * 65536 + t

/-- TK_STAT (Table 2-7). -/
def tkStat (s : State) : Nat :=
  (if s.tick.groupSet then s.tick.group * 256 else 0) + (if s.tick.inGroup then s.tick.master * 16 else 0) + b2n s.tick.inCommit * 8
    + b2n (!s.tick.inGroup || s.tick.aligned) * 4 + b2n s.tick.isMaster * 2 + b2n s.tick.inGroup

/-- T and C pending, with the tick at which they apply: a change carried over to the tick at which ticks resume shows until then (R33, R53). -/
def pending? (s : State) : Option ((Nat × Nat) × Nat) :=
  match s.tick.running, s.tick.frozenCfg, s.tick.pendCfg with
  | false, some p, _ => some (p, s.tick.firstIndex)
  | _, _, some p => some (p, s.tick.pendIndex)
  | _, _, none => none

/-- TK_PEND_CFG (R53). -/
def tkPend (s : State) : Nat := match pending? s with | none => 0 | some p => tkCfgOf p.1.1 p.1.2

/-- TK_PEND_INDEX (R53). -/
def tkPendIndex (s : State) : Nat := match pending? s with | none => 0 | some p => p.2

/-- TH_STAT (Table 19-11). -/
def thStat (s : State) : Nat :=
  s.power.logicMax % 256 * 2 ^ 24 + s.power.dramMax % 256 * 65536 + s.power.hotCode % 64 * 1024 + b2n (!s.power.dramThrottle.isEmpty) * 8
    + b2n (!s.power.thermHold.isEmpty) * 4 + b2n s.start.thermAlertN * 2 + b2n (bit s.start.calStat.toNat 4)

/-- SV_FAULT_RUN (R112). -/
def faultRunReg (s : State) : Nat := sumN ((List.range 16).map (fun n => min 15 (tabGetD n 0 s.plan.faultRun) * 16 ^ n))

/-- A die of the geometry in use has failed (Table 8-7). -/
def storeDegraded (s : State) : Bool := (geometryDies s).any (fun d => s.store.failed.contains d)

/-- HB_STRIPE_STAT (Table 8-7). -/
def stripeStat (s : State) : Nat :=
  maskOf s.store.failed * 65536 + (if s.store.sevenTwo then 7 else 8) * 256 + b2n s.store.reconfPending * 2 + b2n (storeDegraded s)

/-- Semaphores granted: to the jobs of the tick but those torn down or pre-empted; once the tick's are returned at o_k, to those of the plan built
(R216, Table 8-6). -/
def semsGranted (s : State) : Nat :=
  if s.tick.inCommit then s.plan.nextSems
  else sumN ((s.plan.jobs.filter (fun j => !j.faulted && s.plan.saved ≠ some j.modelSlot)).map (·.sems.length))

/-- HB_CLASS_USE of class c (Table 8-10). -/
def classUse (s : State) (c : StoreClass) : Nat :=
  (s.store.queue.filter (fun w => w.cls = c)).length % 65536 * 65536 + heldBy s.store.held c

/-- MD_SLOT_STATE: Table 12-1's codes. -/
def slotCode : SlotState → Nat
  | .empty => 0
  | .loading => 1
  | .resident => 2
  | .evicting => 3
  | .broken => 4

/-- MD_SLOT_STATE. -/
def slotStates (s : State) : Nat := sumN ((List.range 16).map (fun n => slotCode (s.mslot n).state * 16 ^ n))

/-- MD_ALLOY_STAT (Table 12-10). -/
def alloyStat (s : State) : Nat := sumN (s.models.gens.map (·.granules)) * 2 ^ 32 + s.models.gens.length

/-- A Gelcon port; one not listed is down and untrained. -/
def State.gport (s : State) (p : Nat) : Port := tabGetD p {} s.gelcon.ports

/-- Gelcon ports present: 21 on XF, 15 on XL and CB (R307). -/
def portCount (v : Variant) : Nat := if hasGlobal v then 21 else 15

/-- Number of bits set below n. -/
def popCount (m n : Nat) : Nat := ((List.range n).filter (fun i => bit m i)).length

/-- GL_PORT_STAT of a port (Table 14-16). -/
def portStat (s : State) (p : Nat) : Nat :=
  if portCount s.variant ≤ p then 0
  else
    let g := s.gport p
    g.peer % 512 * 2 ^ 48 + g.cabled % 16 * 2 ^ 40 + popCount g.laneMask 4 * 2 ^ 36 + g.laneMask % 16 * 2 ^ 32
      + (if g.violStart + rf s.regs.glViol 31 16 * 1000000 ≤ s.now then 0 else min 255 g.viol * 65536)
      + b2n g.quarantined * 8 + b2n g.miscabled * 4 + b2n g.up * 2 + b2n g.trained

/-- GL_STAT: one bit per port that is up. -/
def glStat (s : State) : Nat := maskOf ((List.range (portCount s.variant)).filter (fun p => (s.gport p).up))

/-- HX_STAT (Table 15-8). -/
def hxStat (s : State) : Nat :=
  let p := match s.lowPort with | none => ({} : HostPort) | some n => s.hport n
  b2n s.host.singlePort * 256 + (if p.gts = 64 then 3 else if p.gts = 32 then 2 else if p.gts = 16 then 1 else 0) * 16
    + (if p.lanes = 16 then 2 else if p.lanes = 8 then 1 else 0) * 4 + b2n (s.portUp 1) * 2 + b2n (s.portUp 0)

/-- Class-L commands outstanding. -/
def longCount (s : State) : Nat := (s.mb.outstanding.filter (fun c => opcodeClass c.opcode = .long)).length

/-- The class-I commands that are outstanding. -/
def askedCommands (s : State) : List MbCommand := s.mb.outstanding.filter (fun c => opcodeClass c.opcode = .immediate)

/-- A class-I command acts at once (R358), in its turn among those outstanding (R42). -/
def runI (s : State) (mb op : Nat) (f : MbCommand → State → Except Nat (State × List Byte)) : State :=
  match s.cmdAt mb [op] with
  | none => s
  | some c => if s.sceolUp && turnOf s (askedCommands s) c then answer s c (f c s) else s

/-- The commands of class T, and of class L not yet started, that this window is to apply (R41, R358). -/
def windowCommands (s : State) : List MbCommand :=
  s.mb.outstanding.filter (fun c => s.taken c.stamp && c.phase = 0 && opcodeClass c.opcode ≠ .immediate)

/-- A command's turn has come among those of the window: stamp, then host port, then arrival (R42). -/
def firstDue (s : State) (c : MbCommand) : Bool := turnOf s (windowCommands s) c

/-- The window's events have begun to be taken. -/
def State.begin (s : State) : State := s.onReq (fun u => { u with begun := true })

/-- A class-T command acts in the commit window that R41 selects, in its turn (R42, R358). -/
def runT (s : State) (mb op : Nat) (f : MbCommand → State → Except Nat (State × List Byte)) : State :=
  match s.cmdAt mb [op] with
  | none => s
  | some c => if s.sceolUp && firstDue s c then answer s.begin c (f c s.begin) else s

/-- A class-L command starts in the commit window that R41 selects, in its turn (R42, R358). The body gives the state in which it has
started, having completed it there or not; a check that fails completes it. -/
def runL (s : State) (mb op : Nat) (f : MbCommand → State → Except Nat State) : State :=
  match s.cmdAt mb [op] with
  | none => s
  | some c =>
    if s.sceolUp && firstDue s c then
      match f c s.begin with
      | .ok t => t
      | .error e => s.begin.complete c e []
    else s

/-- In a commit window before its events: class-L completions are settled then (R289, R358). -/
def settlesLong (s : State) : Bool := s.tick.inCommit && !s.req.begun

/-- SC_STAT (Table 16-9). -/
def scStat (s : State) : Nat :=
  b2n (s.mb.act ≠ .none) * 32768 + longCount s * 512 + s.mb.outstanding.length

/-- Healthy cluster pairs. -/
def pairsHealthy (s : State) : Nat := 16 - s.faults.clFailed.length

/-- FT_STAT (Table 17-9). -/
def ftStat (s : State) : Nat :=
  b2n s.faults.svStandby * 32768 + b2n s.faults.ctStandby * 16384 + b2n s.faults.lease1 * 8192 + s.faults.svActive % 2 * 4096
    + s.faults.ctActive % 2 * 2048 + b2n s.faults.draining * 1024 + b2n s.faults.needsService * 512 + b2n s.faults.orphan * 256
    + min 7 s.store.failed.length * 32 + pairsHealthy s

/-- Code of a device state (Table 18-1). -/
def devCode : DevState → Nat
  | .off => 0
  | .boot => 1
  | .train => 2
  | .ready => 3
  | .serving => 4
  | .degraded => 5
  | .maintenance => 6
  | .safeHalt => 7

/-- ST_BOOT_STAT (Table 18-8). -/
def bootStat (s : State) : Nat :=
  s.start.cause % 16 * 4096 + b2n s.start.imageB * 256 + s.start.fusedSvn / 4 % 16 * 16 + s.start.stage % 16

/-- BU_STAT of a cluster (Table 5-15). No command of the model lies inside a running one (log 1), so streaming reads 0. -/
def buStat (s : State) (n : Nat) : Nat :=
  let c := s.bcl n
  b2n c.hot * 32768 + ((List.range (banksOf s.variant)).foldl (fun m b => max m (refreshDebt s.now c b)) 0) * 8192 + b2n c.tloadValid * 4096 + c.streaming % 2048

/-- MX_STAT of a cluster (Table 6-14). -/
def mxStat (s : State) (n : Nat) : Nat :=
  let c := s.mcl n
  (c.groups.filter (fun g => g.2.state ≠ .free)).length * 65536 + b2n c.fillHalf * 32768 + (c.staging.filter (fun f => !f.arrived)).length

/-- The registers of one 64 KiB page of control space: (offset, bytes, value). An RW register reads as it was last written;
TK_CFG reads the values in force. -/
def pageRegs (s : State) (page : Nat) : List (Nat × Nat × Nat) :=
  let r := s.cfgNext.regs
  if page = 2 then
    let sn := s.tel.readable.getD {}
    [(0, 8, sn.tick), (8, 8, sn.stamp), (0x10, 8, s.power.energyMj),
     (0x18, 4, b2n s.tel.frozen.isSome * 2 + b2n (s.tel.readable.isSome || s.tel.frozen.isSome))]
  else if page = 3 then
    [(0, 4, s.power.tickW % 65536 * 65536 + s.power.msW % 65536), (4, 4, s.power.volts10mv % 65536 * 65536 + s.power.amps10ma % 65536), (8, 4, thStat s)]
  else if page = 4 then
    [(0, 8, s.tick.iv), (8, 4, ivCtlReg s), (0xC, 4, ivStat s), (0x10, 8, s.tick.ppsStamp), (0x100, 4, tkCfgOf s.tick.tickUs s.tick.commitUs),
     (0x104, 4, tkStat s), (0x108, 4, tkPend s), (0x110, 8, tkPendIndex s), (0x118, 8, s.tick.index), (0x120, 8, s.tick.edge),
     (0x128, 8, s.tick.commitOpenAt)]
  else if page = 5 then
    [(0, 4, r.planCtl.toNat), (4, 4, r.prefillCtl.toNat), (8, 4, r.costW.toNat), (0xC, 4, r.pwrCtl.toNat), (0x10, 8, s.plan.planStat.toNat),
     (0x18, 4, maskOf s.plan.quar), (0x20, 8, faultRunReg s)]
  else if page = 6 then [(0, 4, r.qzCtl.toNat), (8, 8, s.tel.qzFallback), (0x10, 8, s.tel.qzClip), (0x18, 8, s.tel.qzNonfinite)]
  else if page = 7 then
    [(0, 4, stripeStat s), (4, 4, r.storeCtl.toNat)] ++ allClasses.map (fun c => (0x10 + 8 * classIx c, 4, (nth r.classCfg (classIx c) 0).toNat))
      ++ allClasses.map (fun c => (0x14 + 8 * classIx c, 4, classUse s c))
      ++ [(0x50, 8, s.store.reconCount), (0x58, 8, s.store.uncorrCount), (0x60, 4, semsGranted s)]
  else if page = 8 then [(0, 4, r.specCtl.toNat), (8, 4, s.plan.specStat.toNat)]
  else if page = 9 then
    [(0, 4, r.tmCtl.toNat), (4, 4, r.t2Ctl.toNat), (8, 4, r.matchCtl.toNat), (0x10, 8, s.tier.t1Free), (0x18, 8, s.tier.t2Free),
     (0x20, 8, s.tier.index.length * 2 ^ 32 + s.tier.groups.length), (0x28, 8, s.tier.evLast.toNat)]
  else if page = 10 then
    [(0, 4, if hasAlloy s.variant then r.mdCtl.toNat else 0), (8, 8, slotStates s), (0x10, 4, maskOf ((List.range 16).filter (fun n => (s.mslot n).pinned))), (0x18, 8, alloyStat s)]
  else if page = 11 then
    [(0, 4, r.glCtl.toNat), (4, 4, glStat s), (8, 4, r.glViol.toNat), (0xC, 4, r.glShip.toNat), (0x10, 4, (s.gelcon.ships.filter (fun x => !x.outgoing)).length)]
      ++ (List.range 21).map (fun p => (0x100 + 8 * p, 8, portStat s p))
  else if page = 12 then
    [(0, 4, r.hxCtl.toNat), (4, 4, hxStat s), (8, 8, s.host.misuseCount), (0x10, 4, s.host.dbgDenied)]
      ++ (List.range 16).map (fun n => (0x100 + 16 * n, 16, (nth s.host.misuseLog n 0).toNat))
  else if page = 13 then [(0, 4, r.scCtl.toNat), (4, 4, scStat s), (8, 8, s.mb.busyDoorbells), (0x10, 8, s.mb.eventLost)]
  else if page = 14 then
    [(0, 4, ftStat s), (8, 8, sumN (s.faults.clmap.zipIdx.map (fun p => p.1 % 16 * 16 ^ p.2))), (0x10, 4, s.faults.spareLow.toNat), (0x18, 8, s.faults.lastUncorr)]
  else if page = 15 then
    [(0, 4, devCode s.start.state), (4, 4, bootStat s), (8, 4, s.start.calStat.toNat), (0x10, 4, s.start.readyMs), (0x40, 48, s.start.meas.toNat)]
  else if 0x10 ≤ page && page < 0x20 then
    let n := page - 0x10
    [(0x10, 4, (nth r.buCfg n 0).toNat), (0x14, 4, buStat s n), (0x18, 4, (nth r.buScrub n 0).toNat), (0x20, 8, (s.bcl n).rchkAddr),
     (0x28, 4, (s.bcl n).rchkInfo.toNat)]
  else if 0x20 ≤ page && page < 0x30 then
    let n := page - 0x20
    [(0x10, 4, (nth r.mxCfg n 0).toNat), (0x14, 4, mxStat s n), (0x18, 4, (s.mcl n).holds.length), (0x20, 8, (s.mcl n).faultAddr),
     (0x28, 4, (s.mcl n).faultInfo.toNat)]
  else []

/-- The accumulators of CL0 to CL15 stand in control space (R167). -/
def accAt (off : Nat) : Bool := 0x2000000 ≤ off && off < 0x12000000 && (off - 0x2000000) % 0x1000000 < 96 * 65536

/-- Accumulators are reached outside SERVING and DEGRADED (R167). -/
def accOpen (s : State) : Bool := s.start.state ≠ .serving && s.start.state ≠ .degraded

/-- Cluster, group and lane of an accumulator address. -/
def accPlace (off : Nat) : Nat × Nat × Nat :=
  ((off - 0x2000000) / 0x1000000, (off - 0x2000000) % 0x1000000 / 65536, off % 65536 / 4)

/-- A lane of an accumulation group as it stands. -/
def accLane (s : State) (off : Nat) : BitVec 32 :=
  let p := accPlace off
  tabGetD p.2.2 0 (tabGetD p.2.1 ({} : AccGroup) (s.mcl p.1).groups).lanes

/-- One byte of control space, by offset from 0xFF00_0000_0000; an offset that holds no register reads zero. -/
def ctlByte (s : State) (off : Nat) : Byte :=
  if accAt off then
    if accOpen s then BitVec.ofNat 8 ((accLane s off).toNat / 256 ^ (off % 4)) else 0
  else
    match (pageRegs s (off / 65536)).find? (fun r => r.1 ≤ off % 65536 && off % 65536 < r.1 + r.2.1) with
    | none => 0
    | some r => BitVec.ofNat 8 (r.2.2 / 256 ^ (off % 65536 - r.1))

/-! ## The Device Status Block (R342, Table 15-3) -/

/-- The ports byte. -/
def portsByteOf (s : State) : Byte :=
  BitVec.ofNat 8 (b2n (s.portUp 0) + 2 * b2n (s.portUp 1) + 4 * b2n s.faults.controlLost + 8 * b2n s.faults.orphan)

/-- A byte of a list of fields (offset, bytes, value); zero where no field lies. -/
def blockByte (l : List (Nat × Nat × Nat)) (off : Nat) : Byte :=
  match l.find? (fun r => r.1 ≤ off && off < r.1 + r.2.1) with
  | none => 0
  | some r => BitVec.ofNat 8 (r.2.2 / 256 ^ (off - r.1))

/-- The Device Status Block. -/
def statusBlock (s : State) : List (Nat × Nat × Nat) :=
  [(0, 1, devCode s.start.state), (1, 1, (portsByteOf s).toNat), (2, 1, s.faults.ctActive % 2), (4, 4, s.mb.eventCount), (8, 8, s.tick.iv),
   (16, 8, s.tick.index), (24, 8, s.tick.edge), (32, 8, s.tick.commitOpenAt), (40, 4, tkCfgOf s.tick.tickUs s.tick.commitUs), (44, 4, tkStat s),
   (48, 4, s.host.misuseCount % two32), (52, 4, s.start.resetCount % 65536)]

/-! ## The Identity and Capability Block (R365, Table 16-6) -/

/-- This device's identity: group, and member from MEMBER_ID. -/
def identityOf (s : State) : Nat := s.tick.group % 32 * 16 + s.start.memberId % 16

/-- This device decides whether the request has a row: it is not a shard of a request homed elsewhere. -/
def homedHere (s : State) (r : Request) : Bool := match r.shards with | [] => true | h :: _ => h = identityOf s

/-- The image that the boot pointer names, and the other. -/
def bootImage (s : State) : FwImage := if s.mb.bootB then s.mb.imageB else s.mb.imageA
def otherImage (s : State) : FwImage := if s.mb.bootB then s.mb.imageA else s.mb.imageB

/-- Failed members of the control, serving and host pairs as pair_failed gives them. -/
def pairFailed (s : State) : Nat := maskOf (s.faults.ctFailed ++ s.faults.svFailed.map (· + 2) ++ s.faults.hxFailed.map (· + 4))

/-- Link field of a host port: zero while it is down. -/
def linkField (s : State) (p : Nat) : Nat := if s.portUp p then (s.hport p).gts % 256 + (s.hport p).lanes % 256 * 256 else 0

/-- A die-local bank is active: not retired (R14, R123). -/
def bankMask (s : State) (st d : Nat) : Nat :=
  maskOf ((List.range (banksOf s.variant / 16)).filter (fun j => !s.faults.retiredBanks.contains (st, d * (banksOf s.variant / 16) + j)))

/-- The Identity and Capability Block. -/
def identityBlock (s : State) : List (Nat × Nat × Nat) :=
  let v := s.variant
  let al := hasAlloy v
  [(0, 4, 0x53434231), (4, 2, 1), (8, 8, s.mb.serial), (16, 16, s.mb.part.toNat), (32, 4, s.mb.capGen), (36, 2, identityOf s),
   (40, 4, (bootImage s).version), (44, 4, if (otherImage s).valid then (otherImage s).version else 0),
   (64, 8, b2n al + 2 * b2n (hasMask v) + 4 * b2n (hasGlobal v) + 8 + 16 + 32), (80, 2, maskOf s.faults.clFailed), (82, 2, maskOf s.store.failed),
   (84, 1, maskOf s.faults.lkFailed), (85, 1, pairFailed s), (88, 4, 2 ^ portCount v - 1), (128, 4, 1048576), (132, 4, 64), (136, 4, 256),
   (140, 4, 65536), (144, 4, 65536), (148, 4, if al then 4096 else 0), (152, 4, 16), (156, 4, 8), (160, 4, 4096), (164, 4, 128), (168, 4, 2097152),
   (172, 4, if hasMask v then 64 else 8), (176, 4, if hasMask v then 16 else 8), (180, 4, if v = .cb then 49152 else 65536), (184, 4, banksOf v),
   (188, 4, if s.store.sevenTwo then 2688 else 3072), (192, 4, 16777216), (196, 4, if hasGlobal v then 32 else 1), (200, 4, 16), (204, 4, 1000),
   (208, 4, 50000), (212, 4, linkField s 0), (216, 4, linkField s 1), (220, 4, 262144), (224, 4, if al then 64 else 0)]

/-- One byte of the Identity and Capability Block. -/
def identityByte (s : State) (off : Nat) : Byte :=
  if 2048 ≤ off && off < 4096 then BitVec.ofNat 8 (bankMask s ((off - 2048) / 128) ((off - 2048) % 128 / 8) / 256 ^ (off % 8))
  else blockByte (identityBlock s) off

/-! ## BAR0 (R340, R341, R343, Table 15-2) -/

/-- The debug window is open (R343). -/
def debugOpen (s : State) : Bool := s.start.state = .maintenance

/-- A byte of the debug window by BAR0 offset. -/
def debugByte (s : State) (off : Nat) : Byte :=
  if !debugOpen s then 0
  else if 0x1000000 ≤ off && off < 0x1000008 then BitVec.ofNat 8 (s.host.dbgBase / 256 ^ (off - 0x1000000))
  else if 0x2000000 ≤ off && off < 0x4000000 then ctlByte s (s.host.dbgBase + (off - 0x2000000))
  else 0

/-- A byte of the MSI-X table: address, data, vector control. -/
def msixByte (s : State) (off : Nat) : Byte :=
  let e := tabGetD (off / 16) ({} : MsixEntry) s.host.msix
  blockByte [(0, 8, e.addr), (8, 4, e.data), (12, 4, b2n e.masked)] (off % 16)

/-- One byte of BAR0 as a host read returns it. During a warm reset all but the Device Status Block reads zero (R353). -/
def barByte (s : State) (off : Nat) : Byte :=
  if 0x1000 ≤ off && off < 0x2000 then blockByte (statusBlock s) (off - 0x1000)
  else if s.start.warmRunning then 0
  else if off < 0x1000 then identityByte s off
  else if 0x10000 ≤ off && off < 0x20000 then Memory.read s.mb.bytes (off - 0x10000)
  else if 0x20100 ≤ off && off < 0x20120 then BitVec.ofNat 8 (maskOf s.mb.done / 256 ^ (off - 0x20100))
  else if 0x300000 ≤ off && off < 0x308000 then msixByte s (off - 0x300000)
  else if 0x310000 ≤ off && off < 0x310100 then BitVec.ofNat 8 (maskOf s.host.pba / 256 ^ (off - 0x310000))
  else if 0x1000000 ≤ off && off < 0x4000000 then debugByte s off
  else 0

/-- The ports byte has changed: the mirror is brought up and vector 0 is raised (R342, R346). -/
def State.portsChanged (s : State) : State :=
  let b := portsByteOf s
  if b = s.host.portsByte then s else (s.onHost (fun h => { h with portsByte := b })).raiseLow 0

end Sys2Proof.Machine
end

