-- ==== Sys2Proof/Machine/Mailbox.lean ====
section
/-! DEFINITION. Sceol's mailbox: doorbells and the checks of a command (R341, R351, R356 to R359), and the class-I commands that
report or configure: IDENTIFY, EVENT_READ, POWER_CONFIG, TICK_CONFIG, TENANT_CONFIG, DOMAIN_CONFIG and the register commands
(R24, R52, R53, R91, R273, R361 to R365).
Readings of the spec: logs 13, 28. -/

namespace Sys2Proof.Machine

open Sys2Proof

/-! ## Doorbells -/

/-- A state in which the mailbox takes every command; in the others it takes IDENTIFY, EVENT_READ and CAL_READ (Table 18-1). -/
def mailboxOpen (st : DevState) (op : Nat) : Bool :=
  match st with
  | .off => false
  | .boot | .train | .safeHalt => op = 0x01 || op = 0x04 || op = 0x90
  | .ready | .serving | .degraded | .maintenance => true

/-- The first check of R357 that a command fails, from its header and payload, and those of R358 and R403; 0 where none fails. -/
def commandCheck (s : State) (b : List Byte) : Nat :=
  let op := field b 0 2
  let len := field b 4 2
  if !opcodeKnown op then St.badOpcode
  else if !allZero (slice b 3 1) || !allZero (slice b 6 18) || !allZero (slice b 28 4) then St.badReserved
  else if !lengthOk op len then St.badLength
  else if s.mb.outstanding.any (fun c => c.tag = field b 2 1) then St.tagBusy
  else if !payloadClean op len (b.drop 32) then St.badReserved
  else if !mailboxOpen s.start.state op then St.badState
  else if opcodeClass op = .long && 32 ≤ longCount s then St.busy
  else St.ok

/-- The command in a mailbox slot as the device takes it. -/
def commandOf (b : List Byte) (slot stamp port : Nat) : MbCommand :=
  { slot := slot, opcode := field b 0 2, tag := field b 2 1, stamp := stamp, port := port, length := field b 4 2, payload := slice (b.drop 32) 0 224
    hostRef := BitVec.ofNat 32 (field b 24 4) }

/-- The device takes the command of a rung slot: ignored and counted while outstanding; else a stale MB_DONE bit is cleared,
and the command is outstanding, or completed with the check it fails (R356, R357). -/
def State.takeDoorbell (s : State) (slot stamp port arrival : Nat) : State :=
  if s.mb.outstanding.any (fun c => c.slot = slot) then s.onMb (fun m => { m with busyDoorbells := inc64 m.busyDoorbells })
  else
    let b := s.mbBytes slot
    let c := { commandOf b slot stamp port with arrival := arrival }
    let st := commandCheck s b
    let t := s.onMb (fun m => { m with done := setDel slot m.done })
    if st = St.ok then t.onMb (fun m => { m with outstanding := m.outstanding ++ [c] }) else t.complete c st []

/-- MB_DOORBELL: a write of 4 bytes at its offset with bits [31:8] zero rings a slot; others are misuse. While no control die is
active the doorbell stays latched with its stamp (R359); during a warm reset writes are dropped (R353). -/
def execMbDoorbell (t port offset width : Nat) (value : BitVec 32) (s : State) : Host.Outcome State Fault Refusal :=
  let s := s.atTime t
  .next (
    if !s.barUp port || s.start.warmRunning || s.start.state = .off then s
    else if width ≠ 4 || offset ≠ 0x20000 then s.misuse t value.toNat 5 port (value.toNat % 256)
    else if value.toNat / 256 ≠ 0 then s.misuse t value.toNat 6 port (value.toNat % 256)
    else if s.sceolUp then s.arrive.takeDoorbell value.toNat t port s.host.arrivals
    else s.arrive.onMb (fun m => { m with latched := m.latched ++ [(value.toNat, t, port, s.host.arrivals)] }))

/-- A control die takes over: the latched doorbells are taken in the order of R42 (R359). -/
def State.takeLatched (s : State) : State :=
  (inOrder (fun (a : Nat × Nat × Nat × Nat) => (s.stampOf a.2.1, a.2.2)) s.mb.latched).foldl (fun u a => u.takeDoorbell a.1 a.2.1 a.2.2.1 a.2.2.2)
    (s.onMb (fun m => { m with latched := [] }))

/-! ## Identity and events -/

/-- Version of the image a control die runs. -/
def runVersion (s : State) (ct : Nat) : Nat := (if nth s.mb.runsB ct false then s.mb.imageB else s.mb.imageA).version

/-- IDENTIFY: identity, serial, versions and the Capability Block generation. -/
def execIdentify (mb : Nat) (s : State) : Host.Outcome State Fault Refusal :=
  .next (runI s mb 0x01 (fun _ s => .ok (s,
    leBytes 2 (identityOf s) ++ leBytes 6 0 ++ leBytes 8 s.mb.serial ++ leBytes 4 (runVersion s 0) ++ leBytes 4 (runVersion s 1) ++ leBytes 4 s.mb.capGen)))

/-- An event record's 16 bytes (Table 16-5). -/
def eventBytes (e : EventRec) : List Byte := leBytes 2 e.code ++ leBytes 2 e.arg16 ++ leBytes 4 e.arg32 ++ leBytes 8 e.stamp

/-- EVENT_READ: removes up to max records, oldest first, and clears the lost flag (Table 16-4). -/
def execEventRead (mb : Nat) (s : State) : Host.Outcome State Fault Refusal :=
  .next (runI s mb 0x04 (fun c s => do
    need (inRange (cf c 0 1) 1 13) St.badArgument
    let got := s.mb.events.take (cf c 0 1)
    let left := s.mb.events.drop (cf c 0 1)
    .ok (s.onMb (fun m => { m with events := left, lost := false }),
      leBytes 1 got.length ++ leBytes 1 (b2n s.mb.lost) ++ leBytes 2 0 ++ leBytes 4 left.length ++ leBytes 8 0 ++ got.flatMap eventBytes)))

/-! ## Configuration -/

/-- POWER_CONFIG: a multiple of 25 W from 2,000 W to 4,200 W (R24). -/
def execPowerConfig (mb : Nat) (s : State) : Host.Outcome State Fault Refusal :=
  .next (runI s mb 0x05 (fun c s => do
    need (cf c 0 2 % 25 = 0 && inRange (cf c 0 2) 2000 4200) St.badArgument
    .ok (s.onCfgNext (fun g => { g with envelope := cf c 0 2 }), [])))

/-- The tick whose plan inputs are frozen next, to which new values of T and C first apply (R53). -/
def firstTick (s : State) : Nat :=
  if !s.tick.running then s.tick.firstIndex + 1
  else if s.tick.inCommit || s.tick.commitOpenAt ≤ s.now then s.tick.index + 2
  else s.tick.index + 1

/-- T and C in their ranges (R52). -/
def tickOk (t c : Nat) : Bool := inRange t 1000 50000 && inRange c 100 (t / 4)

/-- T and C are pending from a tick on; a change carried over to the tick at which ticks resume stays in force there (R33, R53). -/
def State.pendLengths (s : State) (t c first : Nat) : State :=
  let carried := !s.tick.running && s.tick.pendIndex ≠ 0 && s.tick.pendIndex ≤ s.tick.firstIndex
  s.onTick (fun k => { k with frozenCfg := if carried then k.pendCfg else k.frozenCfg, pendCfg := some (t, c), pendIndex := first })

/-- TICK_CONFIG: new T and C for a later tick, a change carried over to the tick at which ticks resume staying in force there (R33), and
IV_CTL; in a group only at the tick master (R28, R29, R52, R53). -/
def execTickConfig (mb : Nat) (s : State) : Host.Outcome State Fault Refusal :=
  .next (runI s mb 0x10 (fun c s => do
    let t := cf c 0 2
    let len := cf c 2 2
    let idx := cf c 8 8
    let setTick := bit (cf c 5 1) 0
    need (!s.tick.inGroup || s.tick.isMaster) St.groupManaged
    need (!setTick || tickOk t len) St.badArgument
    need (!bit (cf c 5 1) 1 || cf c 4 1 % 4 ≠ 3) St.badArgument
    need (if s.tick.inGroup && setTick then s.tick.index + 3 ≤ idx else idx = 0) St.badArgument
    let first := if !setTick then 0 else if s.tick.inGroup then idx else firstTick s
    let s := if setTick then s.pendLengths t len first else s
    let s := if bit (cf c 5 1) 1 then s.onCfgNext (fun g => { g with ivCtl := BitVec.ofNat 32 (cf c 4 1 % 16) }) else s
    .ok (s, leBytes 8 first)))

/-- A request that is not FREE names a tenant, or a domain. -/
def anyRequest (s : State) (p : Request → Bool) : Bool := s.req.table.any (fun q => q.2.state ≠ .free && p q.2)

/-- TENANT_CONFIG: the fields that fmask selects (R91, R92, R280, R363). -/
def execTenantConfig (mb : Nat) (s : State) : Host.Outcome State Fault Refusal :=
  .next (runI s mb 0x20 (fun c s => do
    let n := cf c 0 2
    let fm := cf c 2 2
    let old := tabGetD n ({} : Tenant) s.cfgNext.tenants
    let pick := fun (i off len was : Nat) => if bit fm i then cf c off len else was
    let en := pick 0 4 1 (b2n old.enabled)
    let mc := pick 1 5 1 old.maxClass
    let w := pick 2 6 2 old.weight
    let wt := pick 4 12 2 old.windowTicks
    let q1 := pick 6 16 4 old.t1QuotaMib
    let q2 := pick 7 20 4 old.t2QuotaMib
    need (en ≤ 1 && mc ≤ 7 && 1 ≤ w && 1 ≤ wt && q1 ≤ 1048576 && q2 ≤ 16777216) St.badArgument
    need (en = 1 || !bit fm 0 || !anyRequest s (fun r => r.tenant = n)) St.busy
    let new : Tenant := { enabled := en = 1, weight := w, maxClass := mc, budgetTokens := pick 3 8 4 old.budgetTokens
                          windowTicks := wt, org := pick 5 14 2 old.org, t1QuotaMib := q1, t2QuotaMib := q2 }
    .ok (s.onCfgNext (fun g => { g with tenants := tabPut n new g.tenants }), [])))

/-- DOMAIN_CONFIG: the fields that fmask selects; a selected key is a change of key even where it is equal (R273, R363). -/
def execDomainConfig (mb : Nat) (s : State) : Host.Outcome State Fault Refusal :=
  .next (runI s mb 0x21 (fun c s => do
    let n := cf c 0 2
    let fm := cf c 2 2
    let old := tabGetD n ({} : Domain) s.cfgNext.domains
    let pick := fun (i off len was : Nat) => if bit fm i then cf c off len else was
    let en := pick 0 4 1 (b2n old.enabled)
    let ev := pick 1 5 1 (b2n old.dropPolicy)
    need (n ≠ 0 && en ≤ 1 && ev ≤ 1) St.badArgument
    need (en = 1 || !bit fm 0 || !anyRequest s (fun r => r.domain = n)) St.busy
    let new : Domain := { enabled := en = 1, owner := pick 2 6 2 old.owner, org := pick 3 8 2 old.org, dropPolicy := ev = 1
                          key := BitVec.ofNat 256 (pick 4 16 32 old.key.toNat), keyGen := old.keyGen + (if bit fm 4 then 1 else 0) }
    .ok (s.onCfgNext (fun g => { g with domains := tabPut n new g.domains }), [])))

/-- Entries of a register command, by its length. -/
def entryCount (c : MbCommand) : Nat := (c.length - 4) / 12

/-- A register command with action 0: every entry is checked before any applies; the data returns the resulting values (R362). -/
def configBody (op : Nat) (c : MbCommand) (s : State) : Except Nat (State × List Byte) := do
  need (cf c 0 1 = 0 && 1 ≤ entryCount c) St.badArgument
  let r ← configWrites op c.payload (List.range (entryCount c)) s.cfgNext.regs
  need (op ≠ 0x54 || classesOk r.1.classCfg) St.badArgument
  .ok (s.onCfgNext (fun g => { g with regs := r.1 }), r.2.flatMap (fun v => leBytes 4 v.toNat))

/-- PLAN_CONFIG. -/
def execPlanConfig (mb : Nat) (s : State) : Host.Outcome State Fault Refusal := .next (runI s mb 0x50 (configBody 0x50))
/-- BANK_CONFIG. -/
def execBankConfig (mb : Nat) (s : State) : Host.Outcome State Fault Refusal := .next (runI s mb 0x51 (configBody 0x51))
/-- MATRIX_CONFIG. -/
def execMatrixConfig (mb : Nat) (s : State) : Host.Outcome State Fault Refusal := .next (runI s mb 0x52 (configBody 0x52))
/-- QUANT_CONFIG. -/
def execQuantConfig (mb : Nat) (s : State) : Host.Outcome State Fault Refusal := .next (runI s mb 0x53 (configBody 0x53))
/-- STORE_CONFIG, under the sum rules of R209. -/
def execStoreConfig (mb : Nat) (s : State) : Host.Outcome State Fault Refusal := .next (runI s mb 0x54 (configBody 0x54))
/-- TIER_CONFIG. -/
def execTierConfig (mb : Nat) (s : State) : Host.Outcome State Fault Refusal := .next (runI s mb 0x55 (configBody 0x55))
/-- HOST_CONFIG. -/
def execHostConfig (mb : Nat) (s : State) : Host.Outcome State Fault Refusal := .next (runI s mb 0x57 (configBody 0x57))
/-- MODEL_CONFIG: UNSUPPORTED_UNIT on a device without Alloy units (R305). -/
def execModelConfig (mb : Nat) (s : State) : Host.Outcome State Fault Refusal :=
  .next (runI s mb 0x58 (fun c s => do need (hasAlloy s.variant) St.unsupportedUnit; configBody 0x58 c s))
/-- SCEOL_CONFIG. -/
def execSceolConfig (mb : Nat) (s : State) : Host.Outcome State Fault Refusal := .next (runI s mb 0x59 (configBody 0x59))

/-- GELCON_CONFIG with action 0. -/
def execGelconConfig (mb : Nat) (s : State) : Host.Outcome State Fault Refusal :=
  .next (match s.cmdAt mb [0x56] with
    | none => s
    | some c => if cf c 0 1 = 1 || cf c 0 1 = 2 then s else runI s mb 0x56 (configBody 0x56))

/-- A released port trains again from the start, its quarantine cleared (R331). -/
def State.releaseQuarantine (s : State) (p : Nat) : State :=
  s.onGelcon (fun g => { g with ports := tabPut p {} g.ports })

/-- GELCON_CONFIG with action 1: releases the quarantine of a port (R331, R362). -/
def execGelconQuarantineRelease (mb : Nat) (s : State) : Host.Outcome State Fault Refusal :=
  .next (match s.cmdAt mb [0x56] with
    | none => s
    | some c =>
      if cf c 0 1 = 1 then
        runI s mb 0x56 (fun c s => do
          need (entryCount c = 0) St.badArgument
          need (cf c 1 1 < 21) St.badArgument
          need (cf c 1 1 < portCount s.variant) St.unsupportedUnit
          need (s.gport (cf c 1 1)).quarantined St.badState
          .ok (s.releaseQuarantine (cf c 1 1), []))
      else s)

/-- GELCON_CONFIG with action 2: assigns a spare global port to the role of a port of its group (R321, R362). -/
def execGelconSpareAssign (mb : Nat) (s : State) : Host.Outcome State Fault Refusal :=
  .next (match s.cmdAt mb [0x56] with
    | none => s
    | some c =>
      if cf c 0 1 = 2 then
        runI s mb 0x56 (fun c s => do
          need (entryCount c = 0) St.badArgument
          need (hasGlobal s.variant) St.unsupportedUnit
          need (inRange (cf c 1 1) 93 95 && cf c 2 1 ≤ 95) St.badArgument
          .ok (s.onGelcon (fun g => { g with spares := tabPut (cf c 1 1) (cf c 2 1) g.spares }), []))
      else s)

end Sys2Proof.Machine
end

