-- ==== Sys2Proof/Machine/Matrix.lean ====
section
/-! DEFINITION. Matrix units, ingots, accumulation groups, the Alloy unit and the scratchpad holds (R145 to R171, R179, R303,
R304): command words, rejection causes, passes, fetches.
Readings of the spec: log 31. -/

namespace Sys2Proof.Machine

open Sys2Proof

/-! ## Command words (Tables 6-7 and 6-8) -/

/-- Fields of a matrix command word. -/
def mxOp (w : U128) : Nat := bits w.toNat 127 120
def mxMu (w : U128) : Nat := bits w.toNat 119 116
def mxGroup (w : U128) : Nat := bits w.toNat 115 113
def mxNew (w : U128) : Bool := bit w.toNat 112
def mxVariant (w : U128) : Nat := bits w.toNat 111 109
def mxRows (w : U128) : Nat := bits w.toNat 108 102 + 1
def mxSp (w : U128) : Nat := bits w.toNat 101 84
def mxGranule (w : U128) : Nat := bits w.toNat 83 59
def mxCount (w : U128) : Nat := bits w.toNat 58 34
def mxSp2 (w : U128) : Nat := bits w.toNat 33 16

/-- Number of the group a command names. -/
def mxGid (w : U128) : Nat := 8 * mxMu w + mxGroup w

/-- The group, unit and job's running kernel. -/
def State.grp (s : State) (cl g : Nat) : AccGroup := tabGetD g {} (s.mcl cl).groups
def State.mu (s : State) (cl m : Nat) : MatrixUnit := tabGetD m {} (s.mcl cl).units

/-- Ordinal of the kernel a job runs, or would run next. -/
def State.kernelOf (s : State) (m : Nat) : Nat :=
  match s.job? m with
  | none => 0
  | some j => j.next

/-- Logical clusters that a physical cluster hosts, ascending (R395). -/
def hosted (s : State) (cl : Nat) : List Nat :=
  (List.range 16).filter (fun n => nth s.faults.clmap n 16 = cl)

/-- The directories that a kernel of a job walks: its own; the output kernel's are those of the ordinary unembedding, of the BF16 one, or
of both, as its rows ask (R232). -/
def dirKernels (s : State) (m k : Nat) : List Nat :=
  let out := (s.mslot m).info.layers + 1
  if k ≠ out then [k]
  else
    let rows := s.plan.rows.filter (fun r => r.modelSlot = m)
    (if rows.all (·.bf16) && !rows.isEmpty then [] else [out]) ++ (if rows.any (·.bf16) then [out + 1] else [])

/-- The ingot directory of a kernel on a physical cluster: those of the logical clusters it hosts, one after the other. -/
def dirOf (s : State) (cl m k : Nat) : List DirEntry :=
  (hosted s cl).flatMap (fun n => (dirKernels s m k).flatMap (fun j => nth (nth (s.mslot m).info.dirs n []) j []))

/-! ## Ingots (R147, R151 to R153, Tables 6-3 to 6-5) -/

/-- Bytes per reduction row of a format. -/
def ingotW (fmt : Nat) : Nat := if fmt ≤ 2 then 64 else if fmt = 6 then 256 else 128

/-- Group mode of a format: true FP32 (Table 6-1). -/
def fmtFp (fmt : Nat) : Bool := fmt = 5 || fmt = 6

/-- Staging slot of a format in KiB (R155). -/
def slotKib (fmt : Nat) : Nat := if fmt ≤ 2 then 10 else if fmt = 6 then 34 else 18

/-- Reduction rows per group (R178). -/
def groupRows (gsel : Nat) : Nat := if gsel = 0 then 32 else if gsel = 1 then 64 else 128

/-- Sidecar offset of the scale mantissa of a group and column (Table 6-4). -/
def gscaleOff (g n : Nat) : Nat := if g < 2 then 64 + 256 * g + 2 * n else 1536 + 256 * (g - 2) + 2 * n

/-- The ingot of a frame: its sidecar row and code plane. -/
def ingotOf (side codes : List Byte) : Ingot :=
  let fmt := field side 0 1
  let gsel := field side 2 1 % 4
  let zp := bit (field side 3 1) 0
  let outl := bit (field side 3 1) 1
  { fmt := fmt, gsel := gsel, zp := zp, outl := outl, layer := field side 4 2, tensor := field side 6 1
    krows := field side 7 1, ncols := field side 16 1
    wexp := nth side 17 0, wzp := nth side 18 0
    omap := if fmt = 1 || outl then BitVec.ofNat 128 (field side 1104 16) else 0
    cb16 := if fmt = 1 then slice side 1088 16 else []
    cb256 := if fmt = 4 then slice side 1120 256 else []
    gscale := if fmt = 6 then [] else (List.range (128 / groupRows gsel)).flatMap (fun g =>
      (List.range 128).map (fun n => BitVec.ofNat 16 (field side (gscaleOff g n) 2)))
    colsum := if zp then (List.range 128).map (fun n => BitVec.ofNat 32 (field side (576 + 4 * n) 4)) else []
    codes := codes, poisoned := false }

/-- The ingot whose frame starts at a granule of a stack. -/
def readIngot (s : State) (cl g : Nat) : Ingot :=
  let side := s.getBytes (granAddr cl g 0) 2048
  ingotOf side (s.getBytes (granAddr cl (g + 1) 0) (128 * ingotW (field side 0 1)))

/-- The header fails a consistency check of R159: format, version or layer of the consuming kernel. -/
def headerBad (s : State) (cl g : Nat) (e : DirEntry) (layer : Nat) : Bool :=
  let h := s.getBytes (granAddr cl g 0) 64
  field h 0 1 ≠ e.fmt || field h 1 1 ≠ 1 || field h 4 2 ≠ layer

/-- The code of reduction row k and column n (Table 6-3). -/
def ingotCode (i : Ingot) (k n : Nat) : Nat :=
  if i.fmt ≤ 2 then
    let b := (nth i.codes (k * 64 + n / 2) 0).toNat
    if n % 2 = 0 then b % 16 else b / 16
  else if i.fmt = 6 then field i.codes (k * 256 + 2 * n) 2
  else (nth i.codes (k * 128 + n) 0).toNat

/-- The integer value of a code (Table 6-2); format 0x04 takes its codebook entry. -/
def codeVal (i : Ingot) (c : Nat) : Int :=
  if i.fmt = 1 then i8 (nth i.cb16 c 0)
  else if i.fmt = 2 then (if 8 ≤ c then Int.ofNat c - 16 else Int.ofNat c)
  else if i.fmt = 4 then i8 (nth i.cb256 c 0)
  else i8 (BitVec.ofNat 8 c)

/-- Reduction rows of group g that take part: below krows and outside the outlier map (R148, R153). -/
def groupKs (i : Ingot) (g : Nat) : List Nat :=
  let r := groupRows i.gsel
  ((List.range r).map (fun j => g * r + j)).filter (fun k => k ≤ i.krows && !bit i.omap.toNat k)

/-! ## Lanes (R149, R163, R164, R179) -/

/-- Addition into an INT32 lane: at either end value the lane holds it for good (R163). -/
def laneAdd (lane : U32) (v : Int) : U32 :=
  if lane = 0x7FFFFFFF || lane = 0x80000000 then lane
  else
    let r := lane.toInt + v
    if 2147483647 ≤ r then 0x7FFFFFFF else if r ≤ -2147483648 then 0x80000000 else BitVec.ofInt 32 r

/-- What an integer group adds to a lane: the exact sum, the zero-point correction, the group's scale (R179, R180). -/
def groupTerm (i : Ingot) (x : Nat → Int) (n g : Nat) : Int :=
  let ks := groupKs i g
  let p := ks.foldl (fun a k => a + x k * codeVal i (ingotCode i k n)) 0
  let p := if i.zp && (i.fmt = 2 || i.fmt = 3) then p - i8 i.wzp * ks.foldl (fun a k => a + x k) 0 else p
  (p * Int.ofNat (nth i.gscale (g * 128 + n) 0).toNat).tdiv 65536

/-- An integer lane after one activation row (R179, R181). -/
def intLane (i : Ingot) (x : Nat → Int) (n : Nat) (lane : U32) : U32 :=
  let l := (List.range (128 / groupRows i.gsel)).foldl (fun a g => laneAdd a (groupTerm i x n g)) lane
  if i.zp then laneAdd l (-(nth i.colsum n 0).toInt) else l

/-- A floating lane after one activation row: products of the reduction rows outside the outlier map added in ascending order, the FP8
partial scaled, the result added to the lane (R149, R179, R191). -/
def fpLane (i : Ingot) (x : Nat → U32) (n : Nat) (lane : U32) : U32 :=
  let part := ((List.range (i.krows + 1)).filter (fun k => !bit i.omap.toNat k)).foldl (fun a k =>
    fpAdd a (fpMul (x k) (if i.fmt = 6 then bf16Decode (BitVec.ofNat 16 (ingotCode i k n))
      else fp8Decode (BitVec.ofNat 8 (ingotCode i k n))))) 0
  fpAdd lane (if i.fmt = 5 then fpMul part (fpOfInt (Int.ofNat (nth i.gscale n 0).toNat)) else part)

/-- The lanes of a group after an activation row r of bytes xs; columns past ncols keep their value (R153). -/
def rowPass (i : Ingot) (r : Nat) (xs : List Byte) (lanes : List (Nat × U32)) : List (Nat × U32) :=
  (List.range (min 128 (i.ncols + 1))).foldl (fun l n =>
    let old := tabGetD (128 * r + n) 0 lanes
    tabPut (128 * r + n) (
      if i.fmt = 6 then fpLane i (fun k => bf16Decode (BitVec.ofNat 16 (field xs (2 * k) 2))) n old
      else if i.fmt = 5 then fpLane i (fun k => fp8Decode (nth xs k 0)) n old
      else intLane i (fun k => i8 (nth xs k 0)) n old) l) lanes

/-- Lane value as the vector pipe reads it: the sticky end values read as infinities (R164). -/
def laneRead (fp32 : Bool) (l : U32) : U32 :=
  if fp32 then l
  else if l = 0x7FFFFFFF then fpInf false
  else if l = 0x80000000 then fpInf true
  else fpOfInt l.toInt

/-- Scratchpad units of 256 B that n bytes take. -/
def spUnits (n : Nat) : Nat := (n + 255) / 256

/-! ## The Alloy unit (R303, R304) -/

/-- A segment of an APASS segment list (Table 12-7): first row, rows, id, generation, tile. -/
structure Segment where
  /-- first row -/
  first : Nat
  /-- rows -/
  rows : Nat
  /-- Alloy id -/
  id : Nat
  /-- generation -/
  gen : Nat
  /-- delta tile in 256 B units -/
  tile : Nat
  deriving DecidableEq, Repr

/-- The segments of a list at a scratchpad address, or none where the list breaks a rule of R304. -/
def segList (s : State) (cl job sp : Nat) : Option (List Segment) :=
  let a := spBase cl + sp * 256
  let h := s.getBytes a 16
  let n := field h 0 2
  if n = 0 || 128 < n || !allZero (slice h 2 14) then none
  else
    let es := (List.range n).map (fun i => s.getBytes (a + 16 + 16 * i) 16)
    let segs : List Segment := es.map (fun e => { first := field e 0 1, rows := field e 1 1 + 1, id := field e 2 2, gen := field e 4 1, tile := field e 8 4 })
    let ok := es.all (fun e => allZero (slice e 5 3) && allZero (slice e 12 4) && field e 2 2 < 4096
        && field e 0 1 ≤ 127 && field e 0 1 + field e 1 1 ≤ 127)
      && (segs.zip (segs.drop 1)).all (fun p => p.1.first + p.1.rows ≤ p.2.first)
      && segs.all (fun g => s.models.gens.any (fun x => x.id = g.id && x.gen = g.gen && x.modelSlot = job))
    if ok then some segs else none

/-- Bytes of the factors of a projection: the A slice, then the B slice, BF16 (R296). -/
def projBytes (rank : Nat) (w : Nat × Nat) : Nat := 2 * rank * (w.1 + w.2)

/-- Offset of a projection's factors in the run of a layer: projections of the mask in ascending bit order. -/
def projOff (g : AlloyGen) (shape : List (Nat × Nat)) (p : Nat) : Nat :=
  sumN (((List.range p).filter (fun i => bit g.projMask i)).map (fun i => projBytes g.rank (nth shape i (0, 0))))

/-- Code of element i of activation row r: the rows of each block of 128 elements lie together, as an MPASS reads them, block after block
from the address, each from a 256 B unit (log 31). -/
def apassCode (s : State) (base rows fmt r i : Nat) : Nat :=
  let w := if fmt = 2 then 2 else 1
  leNat (s.getBytes (base + i / 128 * (spUnits (rows * 128 * w) * 256) + r * 128 * w + i % 128 * w) w)

/-- The dequantised element i of a row (R303). -/
def apassX (s : State) (base rows r : Nat) (a : ApassRow) (zx : Byte) (i : Nat) : U32 :=
  match tabGet i a.outliers with
  | some b => bf16Decode b
  | none =>
    let c := apassCode s base rows a.fmt r i
    if a.fmt = 2 then bf16Decode (BitVec.ofNat 16 c)
    else if a.fmt = 1 then fpMul (fp8Decode (BitVec.ofNat 8 c)) (decScale a.xm a.xe)
    else fpMul (fpOfInt (i8 (BitVec.ofNat 8 c) - i8 zx)) (decScale a.xm a.xe)

/-- A factor element at a tier-1 address. -/
def factorAt (s : State) (a i : Nat) : U32 := bf16Decode (BitVec.ofNat 16 (leNat (s.getBytes (a + 2 * i) 2)))

/-- The delta row of an activation row x: d[n] = alpha x sum of u[j] b[j][n], u[j] = sum of x[i] a[i][j] (R303). -/
def deltaRow (s : State) (g : AlloyGen) (a : Nat) (w : Nat × Nat) (p : Nat) (x : Nat → U32) : List U32 :=
  let u := (List.range g.rank).map (fun j =>
    (List.range w.1).foldl (fun acc i => fpAdd acc (fpMul (x i) (factorAt s a (i * g.rank + j)))) 0)
  let b := a + 2 * g.rank * w.1
  (List.range w.2).map (fun n => fpMul (nth g.alpha p 0)
    ((List.range g.rank).foldl (fun acc j => fpAdd acc (fpMul (nth u j 0) (factorAt s b (j * w.2 + n)))) 0))

/-- Writes a delta row to a tile: column block c / 128 is a 64 KiB tile, lane (r, n) at 512 r + 4 n within it. -/
def putDelta (cl tile r : Nat) (d : List U32) (s : State) : State :=
  d.zipIdx.foldl (fun t p =>
    t.putBytes (spBase cl + tile * 256 + p.2 / 128 * 65536 + 512 * r + 4 * (p.2 % 128)) (leBytes 4 p.1.toNat)) s

/-- The deltas of one segment, by the factors of a logical cluster that the cluster hosts; base is the address of the activation rows. -/
def segDeltas (cl c job tensor layer : Nat) (zx : Byte) (base nrows : Nat) (rows : List ApassRow) (s : State) (g : Segment) : State :=
  match s.models.gens.find? (fun x => x.id = g.id && x.gen = g.gen && x.modelSlot = job) with
  | none => s
  | some x =>
    if !bit x.projMask tensor then s
    else
      let shape := nth (s.mslot job).info.shapes c []
      match x.base.find? (fun q => q.1 = c && q.2.1 = layer) with
      | none => s
      | some q =>
        (List.range g.rows).foldl (fun t i =>
          match rows[g.first + i]? with
          | some r => putDelta cl g.tile (g.first + i)
              (deltaRow s x (q.2.2 + projOff x shape tensor) (nth shape tensor (0, 0)) tensor (apassX s base nrows (g.first + i) r zx)) t
          | none => t) s

/-! ## Rejection (R161, Table 6-9) -/

/-- Bytes of an activation row of a format (R160). -/
def actBytes (fmt : Nat) : Nat := if fmt = 6 then 256 else 128

/-- The ingot an MPASS uses: the back set where new is 1, the front set where it is 0. -/
def mpassIngot (s : State) (cl : Nat) (w : U128) : Option Ingot :=
  if mxNew w then (s.mu cl (mxMu w)).back else (s.mu cl (mxMu w)).front

/-- Every granule of a range of a stack lies inside the job's tier-1 ranges and outside the reserved regions; a count of 0 or above 24,576 does
not (DESIGN CHOICE: Table 6-9 names no cause for it, log 31). -/
def State.granulesOk (s : State) (m cl g n : Nat) : Bool :=
  1 ≤ n && n ≤ 24576
    && (List.range (n / 32768 + 2)).all (fun i =>
      let b := g / 32768 + i
      let lo := max g (b * 32768)
      let hi := min (g + n) ((b + 1) * 32768)
      if lo < hi then s.rowsOk m cl b (lo - b * 32768) (hi - lo) else true)

/-- The word's own rules: opcode, reserved bits, unit (causes 1 and 3). An ILOAD past the directory's last entry names the ordinal that the
counter has reached; it is no other ordinal than the next, no ingot comes for it, and it waits (DESIGN CHOICE, log 31). -/
def mxWordBad (s : State) (cl op : Nat) (w : U128) : Option (Nat × Nat) :=
  if mxOp w ≠ op || bits w.toNat 15 0 ≠ 0 || 12 ≤ mxMu w || (if op = 2 then 2 ≤ mxVariant w else mxVariant w ≠ 0) then some (1, 0)
  else if op = 1 && mxGranule w ≠ (s.mcl cl).nextOrdinal then some (3, 0)
  else none

/-- The input width of the slice of a projection, and the columns of its output. -/
def projShape (s : State) (job c tensor : Nat) : Nat × Nat := nth (nth (s.mslot job).info.shapes c []) tensor (0, 0)

/-- An APASS stays inside the scratchpad granted to its job: its activation rows, its segment list, and the delta tiles that it names. -/
def apassRangesOk (s : State) (cl job : Nat) (w : U128) (fmt inW outW : Nat) : Bool :=
  let n := 16 + 16 * field (s.getBytes (spBase cl + mxSp2 w * 256) 16) 0 2
  s.spOk job cl (mxSp w) (ceilDiv inW 128 * spUnits (mxRows w * (if fmt = 2 then 256 else 128)))
    && s.spOk job cl (mxSp2 w) (spUnits n)
    && match segList s cl job (mxSp2 w) with
      | none => true
      | some l => l.all (fun x => s.spOk job cl x.tile (256 * ceilDiv outW 128))

/-- What else the sequencer checks when a command comes to run: the lowest cause of Table 6-9 that applies (DESIGN CHOICE where several do, log 31),
with the address it concerns. Without Alloy units there is no segment list to judge, and an APASS has cause 12.
fmt, inW and outW are an APASS's activation format and the widths of its projection. -/
def mxReject (s : State) (cl job op : Nat) (w : U128) (fmt inW outW : Nat) : Option (Nat × Nat) :=
  let g := s.grp cl (mxGid w)
  let u := s.mu cl (mxMu w)
  let spa := spBase cl + mxSp w * 256
  let i := mpassIngot s cl w
  if op = 6 && !hasAlloy s.variant then some (12, 0)
  else if op = 6 && (segList s cl job (mxSp2 w)).isNone then some (1, 0)
  else if op = 1 && u.back.isSome then some (4, 0)
  else if op = 3 && i.isNone then some (5, 0)
  else if op = 2 && g.state ≠ .free then some (6, 0)
  else if op = 3 && (g.state ≠ .opened || (match i with | some i => fmtFp i.fmt ≠ g.fp32 | none => false)) then some (7, 0)
  else if (op = 4 && g.state ≠ .opened) || (op = 5 && g.state = .free) then some (8, 0)
  else if op = 3 && (match i with | some i => !s.spOk job cl (mxSp w) (spUnits (mxRows w * actBytes i.fmt)) | none => false) then some (9, spa)
  else if op = 7 && !s.spOk job cl (mxSp w) (mxCount w * 8) then some (9, spa)
  else if op = 6 && !apassRangesOk s cl job w fmt inW outW then some (9, spa)
  else if (op = 7 || op = 8) && !s.granulesOk job cl (mxGranule w) (mxCount w) then some (10, granAddr cl (mxGranule w) 0)
  else if (op = 3 || op = 4 || op = 5) && g.owner ≠ job then some (13, 0)
  else if op = 7 && 1024 ≤ (s.mcl cl).holds.length then some (14, 0)
  else none

/-- Records a rejection, unless one is recorded, and faults the job (R161, Table 6-15). One that has no address leaves MX_FAULT_ADDR as it was
(DESIGN CHOICE, log 31). -/
def mxFault (s : State) (cl job op cause addr : Nat) : State :=
  (if bit (s.mcl cl).faultInfo.toNat 31 then s
   else s.modMcl cl (fun c => { c with
     faultAddr := if addr = 0 then c.faultAddr else addr
     faultInfo := BitVec.ofNat 32 (2 ^ 31 + cause * 2 ^ 26 + op * 256 + job % 16) })).jobFault job

/-- A matrix sequencer takes commands of a job: its pair has not failed, and the job may queue commands (R15). -/
def mxTakes (s : State) (cl job : Nat) : Bool := s.clusterUp cl && s.mayQueue job

/-- Runs a command whose word is accepted, or rejects it and faults the job. -/
def mxDo (s : State) (cl job op : Nat) (w : U128) (fmt inW outW : Nat) (f : State → State) : State :=
  match mxReject s cl job op w fmt inW outW with
  | some c => mxFault s cl job (mxOp w) c.1 c.2
  | none => f s

/-- Runs a matrix command that names no unit, or rejects it and faults the job. -/
def mxRun (s : State) (cl job op : Nat) (w : U128) (fmt inW outW : Nat) (f : State → State) : State :=
  if mxTakes s cl job then
    match mxWordBad s cl op w with
    | some c => mxFault s cl job (mxOp w) c.1 c.2
    | none => mxDo s cl job op w fmt inW outW f
  else s

/-! ## Commands of Table 6-8 -/

/-- Changes a group. -/
def State.setGrp (s : State) (cl g : Nat) (v : AccGroup) : State :=
  s.modMcl cl (fun c => { c with groups := tabPut g v c.groups })

/-- A group becomes FREE: not listed, its dead lanes reading zero (R162; DESIGN CHOICE, log 31). -/
def State.dropGrp (s : State) (cl g : Nat) : State := s.modMcl cl (fun c => { c with groups := tabDel g c.groups })

/-! ## Commands that name a unit (R150, R156, R160, R162) -/

/-- ILOAD: the arrived ingot of the ordinal moves to the back registers; its staging slot and hold entry are freed (R150, R155, R170). -/
def loadIngot (t : State) (cl job : Nat) (w : U128) : State :=
  let o := mxGranule w
  match (t.mcl cl).staging.find? (fun f => f.model = job && f.kernel = t.kernelOf job && f.ordinal = o && f.arrived) with
  | none => t
  | some f => t.modMcl cl (fun c => settleHalves { c with
      units := tabUpd (mxMu w) {} (fun u => { u with back := some f.ingot }) c.units
      staging := c.staging.erase f
      holds := c.holds.filter (fun h => !(h.ingot && h.job = job && h.ordinal = o && h.first = f.granule)) })

/-- GOPEN: a FREE group opens with every lane zero (Table 6-10). -/
def openGroup (t : State) (cl job : Nat) (w : U128) : State :=
  t.setGrp cl (mxGid w) { state := .opened, fp32 := bit (mxVariant w) 0, owner := job, lanes := [] }

/-- MPASS: rows from the scratchpad pass the ingot into the group; an ingot taken with new moves to the front set first; rows
that meet a poisoned ingot are marked (R145 to R149, R159, R179). -/
def passRows (t : State) (cl : Nat) (w : U128) (rows : List Nat) : State :=
  match mpassIngot t cl w with
  | none => t
  | some i =>
    let g := t.grp cl (mxGid w)
    let lanes := (List.range (mxRows w)).foldl (fun l r =>
      rowPass i r (t.getBytes (spBase cl + mxSp w * 256 + r * actBytes i.fmt) (actBytes i.fmt)) l) g.lanes
    let t := (t.setGrp cl (mxGid w) { g with lanes := lanes }).modMcl cl (fun c =>
      if mxNew w then { c with units := tabUpd (mxMu w) {} (fun _ => { front := some i, back := none }) c.units } else c)
    if i.poisoned then t.onPlan (fun p => { p with attempts := markAttempts rows (fun a => { a with poisoned := true }) p.attempts })
    else t

/-- GCLOSE: an OPEN group closes. -/
def closeGroup (t : State) (cl : Nat) (w : U128) : State := t.setGrp cl (mxGid w) { t.grp cl (mxGid w) with state := .closed }

/-- The effect of a command that names a unit. -/
def mxEffect (cl : Nat) (q : MxCmd) (t : State) : State :=
  match q.op with
  | 1 => loadIngot t cl q.job q.word
  | 2 => openGroup t cl q.job q.word
  | 3 => passRows t cl q.word q.rows
  | 4 => closeGroup t cl q.word
  | _ => t.dropGrp cl (mxGid q.word)

/-- Runs a command that names a unit, its wait over. -/
def mxUnitDo (cl : Nat) (s : State) (q : MxCmd) : State := mxDo s cl q.job q.op q.word 0 0 0 (mxEffect cl q)

/-- An ILOAD still waits for its ingot (R156). -/
def mxWaits (s : State) (cl : Nat) (q : MxCmd) : Bool :=
  q.op = 1 && !(s.mcl cl).staging.any (fun f => f.model = q.job && f.kernel = s.kernelOf q.job && f.ordinal = mxGranule q.word && f.arrived)

/-- A command stands behind a waiting one of its unit; an MPASS of the front ingot overlaps a waiting ILOAD (R160). -/
def mxBehind (pre : List MxCmd) (q : MxCmd) : Bool :=
  pre.any (fun p => mxMu p.word = mxMu q.word && !(p.op = 1 && q.op = 3 && !mxNew q.word))

/-- The first waiting command that may run, with those before it and after it. -/
def mxNext (s : State) (cl : Nat) : List MxCmd → List MxCmd → Option (MxCmd × List MxCmd)
  | _, [] => none
  | pre, q :: r => if mxWaits s cl q || mxBehind pre q then mxNext s cl (pre ++ [q]) r else some (q, pre ++ r)

/-- Runs waiting commands until none may run, n at most. -/
def mxPump (cl : Nat) : Nat → State → State
  | 0, s => s
  | n + 1, s =>
    match mxNext s cl [] (s.mcl cl).queue with
    | none => s
    | some x => mxPump cl n (mxUnitDo cl (s.modMcl cl (fun c => { c with queue := x.2 })) x.1)

/-- Issues a command that names a unit: rejected by its word, run at once, or left to wait in queue order. The next ordinal is named as the
ILOAD is issued. -/
def mxIssue (s : State) (cl : Nat) (q : MxCmd) : State :=
  if mxTakes s cl q.job then
    match mxWordBad s cl q.op q.word with
    | some c => mxFault s cl q.job (mxOp q.word) c.1 c.2
    | none =>
      let s := if q.op = 1 then s.modMcl cl (fun c => { c with nextOrdinal := c.nextOrdinal + 1 }) else s
      if mxWaits s cl q || mxBehind (s.mcl cl).queue q then s.modMcl cl (fun c => { c with queue := c.queue ++ [q] })
      else mxUnitDo cl s q
  else s

/-- ILOAD: loads the ingot of the next ordinal, waiting for one that has not arrived (R150, R156). -/
def execIload (cl job : Nat) (word : BitVec 128) (s : State) : Host.Outcome State Fault Refusal :=
  .next (mxIssue s cl { job := job, op := 1, word := word })

/-- GOPEN: opens a FREE group with every lane zero. -/
def execGopen (cl job : Nat) (word : BitVec 128) (s : State) : Host.Outcome State Fault Refusal :=
  .next (mxIssue s cl { job := job, op := 2, word := word })

/-- MPASS: streams activation rows through an ingot into a group. -/
def execMpass (cl job : Nat) (word : BitVec 128) (rows : List Nat) (s : State) : Host.Outcome State Fault Refusal :=
  .next (mxIssue s cl { job := job, op := 3, word := word, rows := rows })

/-- GCLOSE: an OPEN group closes. -/
def execGclose (cl job : Nat) (word : BitVec 128) (s : State) : Host.Outcome State Fault Refusal :=
  .next (mxIssue s cl { job := job, op := 4, word := word })

/-- GFREE: a group becomes FREE. -/
def execGfree (cl job : Nat) (word : BitVec 128) (s : State) : Host.Outcome State Fault Refusal :=
  .next (mxIssue s cl { job := job, op := 5, word := word })

/-! ## The other commands of a kernel -/

/-- NOP: no effect but its checks. -/
def execMxNop (cl job : Nat) (word : BitVec 128) (s : State) : Host.Outcome State Fault Refusal :=
  .next (mxRun s cl job 0 word 0 0 0 id)

/-- The activation format of an APASS's rows. -/
def apassFmt (rows : List ApassRow) : Nat := (nth rows 0 {}).fmt

/-- APASS: the Alloy deltas of the rows, by the segment list, with the factors of a logical cluster that the cluster hosts (R168, R303,
R304, R395). -/
def execApass (cl job : Nat) (word : BitVec 128) (tensor layer : Nat) (zx : BitVec 8) (a : ApassData) (s : State) :
    Host.Outcome State Fault Refusal :=
  let w := projShape s job a.logical tensor
  .next (mxRun s cl job 6 word (apassFmt a.rows) w.1 w.2 (fun t =>
    match segList t cl job (mxSp2 word) with
    | none => t
    | some l => if nth t.faults.clmap a.logical 16 = cl then
        l.foldl (segDeltas cl a.logical job tensor layer zx (spBase cl + mxSp word * 256) (mxRows word) (a.rows.take (mxRows word))) t
      else t))

/-- SPLOAD: copies granules of the stack into scratchpad and makes one hold entry (R170). -/
def execSpload (cl job : Nat) (word : BitVec 128) (s : State) : Host.Outcome State Fault Refusal :=
  .next (mxRun s cl job 7 word 0 0 0 (fun t =>
    (t.putBytes (spBase cl + mxSp word * 256) (t.getBytes (granAddr cl (mxGranule word) 0) (mxCount word * 2048))).modMcl cl
      (fun c => { c with holds := c.holds ++ [{ job := job, first := mxGranule word, count := mxCount word, ingot := false, ordinal := 0 }] })))

/-- SPINV: drops every hold of the job that overlaps the named granules (R171). -/
def execSpinv (cl job : Nat) (word : BitVec 128) (s : State) : Host.Outcome State Fault Refusal :=
  .next (mxRun s cl job 8 word 0 0 0 (fun t =>
    t.modMcl cl (fun c => { c with holds := c.holds.filter (fun h =>
      !(h.job = job && h.first < mxGranule word + mxCount word && mxGranule word < h.first + h.count)) })))

/-! ## Save and restore of groups (R105, R106) -/

/-- The save area of a stack (R106): scratchpad offset x is saved at x, group g at 48 MiB + g x 64 KiB (log 37). -/
def saveArea (s : State) (cl : Nat) : Nat := granAddr cl ((banksOf s.variant - 5) * 32768 + 5120) 0
def groupArea (s : State) (cl g : Nat) : Nat := saveArea s cl + 0x3000000 + g * 65536

/-- Saves a group's lanes to the save area and frees it; its mode and owner are kept beside. -/
def State.saveGroup (s : State) (cl g : Nat) : State :=
  let x := s.grp cl g
  let a := groupArea s cl g
  let s := s.onMem (fun m => m.clear a 65536)
  let s := x.lanes.foldl (fun t l => t.putBytes (a + 4 * l.1) (leBytes 4 l.2.toNat)) s
  (s.modMcl cl (fun c => { c with save := tabPut g { x with lanes := [] } c.save })).dropGrp cl g

/-- The lanes that the save area holds for a group. -/
def savedLanes (s : State) (cl g : Nat) : List (Nat × U32) :=
  ((List.range 16384).map (fun i => (i, BitVec.ofNat 32 (leNat (s.getBytes (groupArea s cl g + 4 * i) 4))))).filter (fun l => l.2 ≠ 0)

/-- Restores a saved group to OPEN. -/
def State.restoreGroup (s : State) (cl g : Nat) : State :=
  match tabGet g (s.mcl cl).save with
  | none => s
  | some x => (s.setGrp cl g { x with lanes := savedLanes s cl g }).modMcl cl (fun c => { c with save := tabDel g c.save })

/-- A kernel that issues a sequencer command is rejected with cause 2. -/
def kernelIssued (s : State) (cl m op : Nat) : State := if cl < 16 && s.mayQueue m then mxFault s cl m op 2 0 else s

/-- GSAVE: the sequencer saves an OPEN group of the job it saves and frees it (R105, Table 6-10). -/
def execGsave (cl group : Nat) (kernel : Option Nat) (s : State) : Host.Outcome State Fault Refusal :=
  .next (
    match kernel with
    | some m => kernelIssued s cl m 9
    | none =>
      if cl < 16 && group < 96 && (s.grp cl group).state = .opened then s.saveGroup cl group else s)

/-- GRSTR: the sequencer restores a saved group to OPEN (Table 6-10). -/
def execGrstr (cl group : Nat) (kernel : Option Nat) (s : State) : Host.Outcome State Fault Refusal :=
  .next (
    match kernel with
    | some m => kernelIssued s cl m 10
    | none =>
      if cl < 16 && group < 96 && (s.grp cl group).state = .free then s.restoreGroup cl group else s)

/-! ## The ingot loader (R155, R157 to R159, R170) -/

/-- The half that can take a slot of n KiB: the one being filled, or the other once every ingot in it has been taken; no space of a half is
used again before that. -/
def halfFor (s : State) (cl n : Nat) : Option Bool :=
  let mc := s.mcl cl
  let cap := rf (nth s.regs.mxCfg cl 0) 23 16 * 512
  let used := fun (h : Bool) => nth mc.halfUsed (b2n h) 0
  if used mc.fillHalf + n ≤ cap then some mc.fillHalf
  else if used (!mc.fillHalf) = 0 && n ≤ cap then some (!mc.fillHalf)
  else none

/-- ILOADs of a job that wait for their ingots. -/
def waitingLoads (s : State) (cl m : Nat) : Nat := ((s.mcl cl).queue.filter (fun q => q.op = 1 && q.job = m)).length

/-- Ordinal of the next fetch of a kernel: those taken by ILOAD in the running kernel, then those staged. -/
def nextFetch (s : State) (cl m k : Nat) : Nat :=
  (if s.jobRuns m && s.kernelOf m = k then (s.mcl cl).nextOrdinal - waitingLoads s cl m else 0)
    + ((s.mcl cl).staging.filter (fun f => f.model = m && f.kernel = k)).length

/-- Kernels from the running one to k have had every ingot fetched. -/
def fetchedTo (s : State) (cl m k : Nat) : Bool :=
  (upFrom (s.kernelOf m) (k - s.kernelOf m)).all (fun i => (dirOf s cl m i).length ≤ nextFetch s cl m i)

/-- Issues the next fetch of a kernel's directory, where a fetch, staging space and a hold entry are free: at most
fetch_limit outstanding, the last 64 hold entries left to SPLOAD. -/
def issueFetch (s : State) (cl m k : Nat) : Option State :=
  let o := nextFetch s cl m k
  let mc := s.mcl cl
  match (dirOf s cl m k)[o]? with
  | none => none
  | some e =>
    if (mc.staging.filter (fun f => !f.arrived)).length < rf (nth s.regs.mxCfg cl 0) 9 0 && mc.holds.length < 960 then
      match halfFor s cl (slotKib e.fmt) with
      | none => none
      | some h => some (s.modMcl cl (fun c => { c with
          fillHalf := h, halfUsed := [false, true].map (fun x => nth c.halfUsed (b2n x) 0 + (if x = h then slotKib e.fmt else 0))
          staging := c.staging ++ [{ ordinal := o, model := m, kernel := k, mu := e.mu, granule := e.granule, arrived := false,
                                     half := h, ingot := { fmt := e.fmt } }]
          holds := c.holds ++ [{ job := m, first := e.granule, count := 1 + ingotW e.fmt * 128 / 2048, ingot := true, ordinal := o }] }))
    else none

/-- Issues fetches of a kernel until none can be, at most n of them. -/
def issueFetches (cl m k : Nat) : Nat → State → State
  | 0, s => s
  | n + 1, s =>
    match issueFetch s cl m k with
    | none => s
    | some t => issueFetches cl m k n t

/-- The loader of a cluster prefetches for jobs in order; it goes on to the next job once a job's directory is fetched or on its way (R157). -/
def prefetchJobs (c : Nat) : List Nat → State → State
  | [], s => s
  | m :: rest, s =>
    let t := issueFetches c m 1 (dirOf s c m 1).length s
    if (dirOf s c m 1).length ≤ nextFetch t c m 1 then prefetchJobs c rest t else t

/-- The first layer kernel of each job of plan k+1 is prefetched, in plan order, until staging is full (R157). -/
def State.prefetch (s : State) : State :=
  ((List.range 16).filter s.clusterUp).foldl (fun t c => prefetchJobs c (planOrder s.plan.nextRows) t) s

/-- In the commit window the loader may fetch for a job of plan k+1: its first layer kernel, those of earlier jobs being fetched. -/
def mayPrefetch (s : State) (cl job kernel : Nat) : Bool :=
  let l := planOrder s.plan.nextRows
  s.tick.inCommit && kernel = 1 && l.contains job
    && (l.takeWhile (fun m => m ≠ job)).all (fun m => (dirOf s cl m 1).length ≤ nextFetch s cl m 1)

/-- INGOT_FETCH_ISSUE: the loader issues the next fetch of the running job, walking its kernels in order (R155), or of a job of plan k+1
in the commit window (R157). -/
def execIngotFetchIssue (cl job kernel : Nat) (s : State) : Host.Outcome State Fault Refusal :=
  .next (
    if s.clusterUp cl && ((s.jobRuns job && s.kernelOf job ≤ kernel && fetchedTo s cl job kernel) || mayPrefetch s cl job kernel) then
      (issueFetch s cl job kernel).getD s
    else s)

/-- Layer index that the kernel of a model expects in its ingots: that of its kernel record. So a draft image's ingots, filed under the embedding
kernel, are held to the embedding kernel's layer (DESIGN CHOICE, log 31: R159 names no other). -/
def kernelLayer (s : State) (m k : Nat) : Nat := (nth (s.mslot m).info.kernels k {}).layer

/-- An ingot is poisoned: its job is not planned from the next tick until the ingot is repaired (R159, R385). -/
def State.notePoison (s : State) (m cl g : Nat) : State :=
  (((s.countStack cl (fun c => { c with poisons := inc64 c.poisons })).modMslot m
    (fun q => { q with poisoned := if q.poisoned.contains (cl, g) then q.poisoned else q.poisoned ++ [(cl, g)] })).onFaults
      (fun q => { q with poisonHist := q.poisonHist ++ [(cl, g, s.now)] })).onPlan (fun p => { p with repairing := setAdd m p.repairing })

/-- INGOT_FETCH_DONE: an outstanding fetch completes; an uncorrectable or inconsistent ingot arrives poisoned (R159, R385). The ILOAD that
waits for it loads it, and what waits behind it runs (R156); in the commit window the loader goes on to prefetch (R157). -/
def execIngotFetchDone (cl : Nat) (i : FetchId) (uncorrectable : Bool) (s : State) : Host.Outcome State Fault Refusal :=
  .next (
    match (s.mcl cl).staging.find? (fun f => f.model = i.job && f.kernel = i.kernel && f.ordinal = i.ordinal && !f.arrived) with
    | none => s
    | some f =>
      let e := nth (dirOf s cl f.model f.kernel) i.ordinal {}
      let bad := uncorrectable || headerBad s cl f.granule e (kernelLayer s f.model f.kernel)
      let g := { readIngot s cl f.granule with poisoned := bad, fmt := f.ingot.fmt }
      let t := s.modMcl cl (fun c => { c with
        staging := c.staging.map (fun x => if x = f then { f with arrived := true, ingot := g } else x) })
      let t := if bad then t.notePoison f.model cl f.granule else t
      let t := mxPump cl (t.mcl cl).queue.length t
      if t.tick.inCommit then t.prefetch else t)

end Sys2Proof.Machine
end

