-- ==== Sys2Proof/Machine/Sampler.lean ====
section
/-! DEFINITION. Trees (R242 to R247), adjusted logits and candidate records (R222 to R225), the merge, truncation, draws and the
acceptance walk (R226 to R231, R250, R251).
Readings of the spec: log 33. -/

namespace Sys2Proof.Machine

open Sys2Proof

/-! ## Positions -/

/-- Position at which a request's prefill ends: its prompt, or its recovery context (R378). -/
def prefillEnd (r : Request) : Nat := if r.recoverLen = 0 then r.promptLen else r.recoverLen

/-- The chunk of n tokens that follows samples the first generated token: it ends an ordinary prompt (R71, R378). -/
def chunkSamples (r : Request) (n : Nat) : Bool := r.recoverLen = 0 && r.committedLen + n = r.promptLen

/-- Tokens by position: the prompt, then the generated tokens; the last is the pending one (R71). -/
def contextTokens (r : Request) : List Nat := r.prompt ++ r.generated

/-! ## The seen-set (R222) -/

/-- Inserts an id: nothing where present, the earliest leaving a full set of 4,096. -/
def seenInsert (tok : Nat) (seen : List Nat) : List Nat :=
  if seen.contains tok then seen else (if 4096 ≤ seen.length then seen.drop 1 else seen) ++ [tok]

/-- Seeds the set from a prompt: its last 4,096 distinct ids, each placed by its last occurrence. -/
def seenSeed (prompt : List Nat) : List Nat :=
  let l := prompt.foldr (fun t acc => if acc.contains t then acc else t :: acc) []
  l.drop (l.length - 4096)

/-! ## Trees (R242, Table 10-2): (parent, token) per node, node 0 the root -/

/-- Parent of a node. -/
def nodeParent (t : List (Nat × Nat)) (v : Nat) : Nat := (nth t v (255, 0)).1
/-- Token of a node. -/
def nodeToken (t : List (Nat × Nat)) (v : Nat) : Nat := (nth t v (255, 0)).2

/-- The non-root nodes from below the root down to v; parents have lower numbers, so v + 1 steps suffice. -/
def chainUp (t : List (Nat × Nat)) : Nat → Nat → List Nat
  | 0, _ => []
  | f + 1, v => if v = 0 then [] else chainUp t f (nodeParent t v) ++ [v]

/-- The chain of a node. -/
def nodeChain (t : List (Nat × Nat)) (v : Nat) : List Nat := chainUp t (v + 1) v

/-- Depth of a node: one less than the nodes on its chain from the root. -/
def nodeDepth (t : List (Nat × Nat)) (v : Nat) : Nat := (nodeChain t v).length

/-- The child of v that carries a token. -/
def childOf (t : List (Nat × Nat)) (v tok : Nat) : Option Nat :=
  (upFrom 1 (t.length - 1)).find? (fun c => nodeParent t c = v && nodeToken t c = tok)

/-- Adds one proposal below node v: a token already a child becomes a step down to it; adding stops at maxNodes (R243). -/
def addProposal (maxNodes : Nat) : List Nat → Nat → List (Nat × Nat) → List (Nat × Nat)
  | [], _, t => t
  | x :: r, v, t =>
    match childOf t v x with
    | some c => addProposal maxNodes r c t
    | none => if t.length < maxNodes then addProposal maxNodes r t.length (t ++ [(v, x)]) else t

/-- Merges proposals into a trie rooted at node 0, in candidate order (R243). -/
def mergeProposals (maxNodes root : Nat) (ps : List (List Nat)) : List (Nat × Nat) :=
  ps.foldl (fun t p => addProposal maxNodes p 0 t) [(255, root)]

/-- The nodes a predicate keeps, renumbered in order; the predicate is closed under parents. -/
def keepNodes (p : Nat → Bool) (t : List (Nat × Nat)) : List (Nat × Nat) :=
  let ks := (List.range t.length).filter p
  ks.map (fun v => (if v = 0 then 255 else (ks.filter (· < nodeParent t v)).length, nodeToken t v))

/-- The deepest chain, ties to the leaf of lowest number, cut to its first eight nodes, root included (R5, R247). -/
def chainNodes (t : List (Nat × Nat)) : List Nat :=
  let leaf := (List.range t.length).foldl (fun b v => if nodeDepth t b < nodeDepth t v then v else b) 0
  0 :: (nodeChain t leaf).take 7

/-- The nodes that the device can verify: without the mask unit, those of a chain (R5, R247). -/
def shapeNodes (v : Variant) (t : List (Nat × Nat)) : List Nat :=
  if hasMask v || t.length ≤ 1 then List.range t.length else chainNodes t

/-- The nodes of a tree that a row verifies, ascending: those the device can verify, cut to the nodes planned (R246). -/
def rowNodes (v : Variant) (nodes : Nat) (t : List (Nat × Nat)) : List Nat := (shapeNodes v t).take (max 1 nodes)

/-- The tree that a row verifies, its nodes renumbered in order. -/
def rowTree (v : Variant) (nodes : Nat) (t : List (Nat × Nat)) : List (Nat × Nat) :=
  keepNodes (fun x => (rowNodes v nodes t).contains x) t

/-- A list ends at position e with a key. -/
def keyEnds (l key : List Nat) (e : Nat) : Bool := key.length ≤ e + 1 && (l.drop (e + 1 - key.length)).take key.length = key

/-- End positions of source 0x01: the four most recent in the key's bucket, those below P and equal to the key (R241, R243).
A bucket holds keys of one hash. -/
def ngramEnds (log key : List Nat) (n p : Nat) : List Nat :=
  let ends := ((upFrom (n - 1) (p + 2 - n)).filter (fun e =>
    Config.ngramBucket ((log.drop (e + 1 - n)).take n) % 65536 = Config.ngramBucket key % 65536)).reverse.take 4
  ends.filter (fun e => decide (e < p) && keyEnds log key e)

/-- End positions of source 0x03: at most four, ascending (R243). -/
def draftEnds (text key : List Nat) : List Nat := ((List.range text.length).filter (keyEnds text key)).take 4

/-- The root of a request's trees: its pending token (R242). -/
def rootTree (r : Request) : List (Nat × Nat) := [(255, nth (contextTokens r) r.committedLen 0)]

/-- The tree of sources 0x01 and 0x03 for a request, from committed state, at most depth nodes deep (R243, R246, R249). -/
def lookupTree (r : Request) (depth : Nat) : List (Nat × Nat) :=
  let p := r.committedLen
  let log := (contextTokens r).take (p + 1)
  let root := nth log p 0
  let n := r.spec.matchN
  if p + 1 < n || n = 0 then [(255, root)]
  else
    let key := (log.drop (p + 1 - n)).take n
    let ps :=
      if r.spec.source = 1 then (ngramEnds log key n p).map (fun e => (log.drop (e + 1)).take (min (p - e) (min depth r.spec.maxDepth - 1)))
      else if r.spec.source = 3 then (draftEnds r.draftText key).map (fun e => (r.draftText.drop (e + 1)).take (min depth r.spec.maxDepth - 1))
      else []
    mergeProposals r.spec.maxNodes root ps

/-! ## Adjusted logits and the local reduction (R223, R224) -/

/-- First token and token count of a logical cluster's slice (R442). -/
def sliceOf (vocab c : Nat) : Nat × Nat :=
  let w := (vocab + 15) / 16
  (c * w, min ((c + 1) * w) vocab - c * w)

/-- Minus infinity. -/
def fpNegInf : U32 := fpInf true

/-- The adjusted logit of token i from its unembedding output (R223). -/
def adjusted (p : SamplerParams) (seen : Bool) (bias : U32) (allowed : Bool) (x : U32) : U32 :=
  let z := if seen then fpSub (if fpLt 0 x then fpDiv x p.repPenalty else fpMul x p.repPenalty) p.presence else x
  let z := fpAdd z bias
  let z := if allowed then z else fpNegInf
  fpDiv z (if fpEq p.temperature 0 then fpOne else p.temperature)

/-- The seen-set of a node: the committed set with the tokens of its chain, as if each had committed in turn (R223, R252). -/
def nodeSeen (r : Request) (t : List (Nat × Nat)) (v : Nat) : List Nat := (nodeChain t v).foldl (fun s c => seenInsert (nodeToken t c) s) r.seen

/-- Candidate order: z descending, ties to the lower token id. -/
def candBefore (a b : Nat × U32) : Bool := fpLt b.2 a.2 || (!fpLt a.2 b.2 && decide (a.1 < b.1))

/-- Inserts a candidate in order. -/
def candInsert (a : Nat × U32) : List (Nat × U32) → List (Nat × U32)
  | [] => [a]
  | b :: r => if candBefore a b then a :: b :: r else b :: candInsert a r

/-- The k candidates with the largest z; minus infinity and NaN are never candidates. -/
def topCands (k : Nat) (l : List (Nat × U32)) : List (Nat × U32) :=
  l.foldl (fun acc c => if fpIsNaN c.2 || c.2 = fpNegInf then acc else (candInsert c acc).take k) []

/-- K_c of a request (R224). -/
def candCount (p : SamplerParams) : Nat := if p.topK = 0 || fpEq p.temperature 0 then 256 else p.topK

/-- The candidate record of one node of a tree on one cluster (R224, R225). -/
def localRecord (r : Request) (t : List (Nat × Nat)) (slot node cluster vocab : Nat) (xs : List U32) : CandRec :=
  let sl := sliceOf vocab cluster
  let ids := upFrom sl.1 sl.2
  let seen := nodeSeen r t node
  let zs := ids.map (fun i =>
    adjusted r.sampler (seen.contains i) (((r.bias.find? (fun b => b.1 = i)).map (·.2)).getD 0)
      (!r.sampler.allowedEn || bit r.allowed i) (nth xs (i - sl.1) 0))
  let fin := zs.filter fpFinite
  let m := fin.foldl fpMax fpNegInf
  let lse := if fin.isEmpty then fpNegInf
    else fpAdd m (fpLn (laneSum 128 (zs.map (fun z => if z = fpNegInf then 0 else fpExp (fpSub z m)))))
  { slot := slot, node := node, cluster := cluster, lse := lse, zmax := m
    cands := topCands (candCount r.sampler) (ids.zip zs)
    nonfinite := (ids.map (fun i => nth xs (i - sl.1) 0)).any (fun x => !fpFinite x) }

/-- The bytes of a candidate record (Table 9-4). -/
def candBytes (c : CandRec) : List Byte :=
  leBytes 4 c.lse.toNat ++ leBytes 4 c.zmax.toNat ++ leBytes 2 c.cands.length ++ leBytes 1 (b2n c.nonfinite) ++ List.replicate 5 0
    ++ c.cands.flatMap (fun x => leBytes 4 x.1 ++ leBytes 4 x.2.toNat)

/-- The bytes of a tree record, for a request at position p (Table 10-2). -/
def treeBytes (p : Nat) (t : List (Nat × Nat)) : List Byte :=
  let depth := (List.range t.length).foldl (fun d v => max d (nodeDepth t v)) 0
  leBytes 1 t.length ++ leBytes 1 (depth + 1) ++ [0, 0] ++ leBytes 4 p ++ List.replicate 8 0
    ++ slice (t.flatMap (fun n => leBytes 1 n.1)) 0 64 ++ slice (t.flatMap (fun n => leBytes 4 n.2)) 0 256

/-- Puts a record in place of an earlier one of the same node and cluster. -/
def State.putRecord (s : State) (c : CandRec) : State :=
  s.onStore (fun u =>
    { u with records := u.records.filter (fun d => !(d.slot = c.slot && d.node = c.node && d.cluster = c.cluster)) ++ [c] })

/-! ## Merge, truncation and draw (R226 to R229) -/

/-- The sixteen records of a node in ascending cluster order, where all are there. -/
def nodeRecords (s : State) (slot node : Nat) : Option (List CandRec) :=
  let l := (List.range 16).filterMap (fun c => s.store.records.find? (fun d => d.slot = slot && d.node = node && d.cluster = c))
  if l.length = 16 then some l else none

/-- The merged list of 256. -/
def mergedList (rs : List CandRec) : List (Nat × U32) := topCands 256 (rs.flatMap (·.cands))

/-- The log-sum-exp over the whole vocabulary, in ascending cluster order. -/
def mergedLse (rs : List CandRec) : U32 :=
  let mx := rs.foldl (fun m r => fpMax m r.lse) fpNegInf
  fpAdd mx (fpLn (rs.foldl (fun a r => fpAdd a (fpExp (fpSub r.lse mx))) 0))

/-- The merged list with full-vocabulary probabilities p_n. -/
def mergedProbs (rs : List CandRec) : List (Nat × U32) :=
  let lse := mergedLse rs
  (mergedList rs).map (fun c => (c.1, fpExp (fpSub c.2 lse)))

/-- The shortest leading run whose cumulative probability reaches top_p. -/
def topPRun (topP : U32) : U32 → List (Nat × U32) → List (Nat × U32)
  | _, [] => []
  | acc, c :: r => let a := fpAdd acc c.2; if fpLe topP a then [c] else c :: topPRun topP a r

/-- The kept candidates: top_k, min_p, top_p in turn; candidate 0 is always kept (R227). -/
def keptList (p : SamplerParams) (l : List (Nat × U32)) : List (Nat × U32) :=
  match (if p.topK = 0 then l else l.take p.topK) with
  | [] => []
  | c0 :: r =>
    let l := c0 :: r.filter (fun c => fpLe (fpMul p.minP c0.2) c.2)
    if fpEq p.topP fpOne then l else topPRun p.topP 0 l

/-- u in [0, 1) from a Philox word: (w >> 8) x 2^-24. -/
def unitOf (w : U32) : U32 := fpScale (fpOfInt (Int.ofNat (w.toNat / 256))) (-24)

/-- The candidate whose running sum first exceeds the target; the last one otherwise. -/
def pickRun (target : U32) : U32 → List (Nat × U32) → Nat
  | _, [] => 0
  | acc, c :: r => let a := fpAdd acc c.2; if fpLt target a || r.isEmpty then c.1 else pickRun target a r

/-- Selection in proportion to probability, in list order (R229). -/
def selectBy (u : U32) (l : List (Nat × U32)) : Nat := pickRun (fpMul u (l.foldl (fun a c => fpAdd a c.2) 0)) 0 l

/-- Probabilities normalised over a list. -/
def normalised (l : List (Nat × U32)) : List (Nat × U32) :=
  let t := l.foldl (fun a c => fpAdd a c.2) 0
  l.map (fun c => (c.1, fpDiv c.2 t))

/-- Probability of a token in a list, zero where it is not in it. -/
def probIn (l : List (Nat × U32)) (x : Nat) : U32 := ((l.find? (fun c => c.1 = x)).map (·.2)).getD 0

/-- Proposal i of a node under REJECT: drawn from q_v with word i of draw 1 (R245). -/
def rejectProposal (seed : U64) (position i : Nat) (q : List (Nat × U32)) : Nat := selectBy (unitOf (philox seed position 1 i)) q

/-- The tests of R251 over the proposals of a node, then the selection from what is left of r. -/
def rejectTests (seed : U64) (position : Nat) (q qn : List (Nat × U32)) : List Nat → List (Nat × U32) → Nat
  | [], r => selectBy (unitOf (philox seed position 2 3)) r
  | i :: is, r =>
    let x := rejectProposal seed position i q
    if fpLt (fpMul (unitOf (philox seed position 2 i)) (probIn qn x)) (probIn r x) then x
    else
      let t := r.map (fun c => (c.1, fpMax (fpSub c.2 (probIn qn c.1)) 0))
      let sum := t.foldl (fun a c => fpAdd a c.2) 0
      rejectTests seed position q qn is (if fpLt 0 sum then t.map (fun c => (c.1, fpDiv c.2 sum)) else r)

/-- The token that draw 0 samples: greedy at temperature 0, else the selection of R229. It settles plain decode, the first token after prefill
and a node under MATCH (R229, R250). -/
def sampleToken (r : Request) (position : Nat) (probs : List (Nat × U32)) : Nat :=
  if fpEq r.sampler.temperature 0 then (nth probs 0 (0, 0)).1
  else selectBy (unitOf (philox r.seed position 0 0)) (keptList r.sampler probs)

/-- Settles the token at a node (R250): greedy at temperature 0, the draw of R229 under MATCH, R251 under REJECT. -/
def settleNode (r : Request) (q : List (Nat × U32)) (position : Nat) (probs : List (Nat × U32)) : Nat :=
  if fpEq r.sampler.temperature 0 then (nth probs 0 (0, 0)).1
  else
    if r.spec.reject then rejectTests r.seed position q (normalised q) (List.range r.spec.fanout) (normalised (keptList r.sampler probs))
    else sampleToken r position probs

/-- The log-probability of a token as FP16 (R238). -/
def logprobOf (probs : List (Nat × U32)) (tok : Nat) : BitVec 16 := fp16Encode (fpLn (probIn probs tok))

/-- The walk from node v: settle, move to the child that carries the token, until none does (R250). -/
def walkTree (t : List (Nat × Nat)) (settle : Nat → Nat × BitVec 16) : Nat → Nat → List (Nat × BitVec 16 × Nat)
  | 0, _ => []
  | f + 1, v =>
    let y := settle v
    (y.1, y.2, v) :: match childOf t v y.1 with
      | none => []
      | some c => walkTree t settle f c

/-- The draft distribution of a node of a row in this tick; the node is numbered as in the tree the row verifies. -/
def draftOf (s : State) (slot v : Nat) : List (Nat × U32) := ((s.plan.drafts.find? (fun d => d.slot = slot && d.node = v)).map (·.q)).getD []

/-- Changes the step-attempt of a slot. -/
def State.modAttempt (s : State) (slot : Nat) (f : Attempt → Attempt) : State :=
  s.onPlan (fun p => { p with attempts := markAttempts [slot] f p.attempts })

/-- The row of a slot in the plan that runs. -/
def State.row? (s : State) (slot : Nat) : Option PlanRow := s.plan.rows.find? (fun r => r.slot = slot)

/-- The tree of a row that runs: the one built for it, or its root alone. -/
def runTree (r : Request) : List (Nat × Nat) := if r.probeTree.isEmpty then rootTree r else r.probeTree

/-- The tokens before the position that a node of a row settles: the committed context, with a tree node's chain (R230). -/
def tokensBefore (r : Request) (t : List (Nat × Nat)) (base v : Nat) : List Nat :=
  (contextTokens r).take base ++ (nodeChain t v).map (nodeToken t)

/-- What a row's merge settles: its path, and whether it is non-finite (R231, R232, R250); none while a record is missing. -/
def mergeRow (s : State) (r : Request) (row : PlanRow) : Option (List (Nat × BitVec 16 × Nat) × Bool) :=
  let decode := row.kind = .decode
  let t := if decode then runTree r else [(255, 0)]
  let base := if decode then r.committedLen + 1 else r.committedLen + row.tokens
  let recs := (List.range t.length).map (nodeRecords s row.slot)
  if recs.all Option.isSome then
    let recs := recs.map (fun o => o.getD [])
    let probs := recs.map mergedProbs
    let settle := fun v =>
      let ps := nth probs v []
      let y := if ps.isEmpty then Config.openToken r.seed (base + nodeDepth t v) (tokensBefore r t base v) % max 1 (s.mslot r.modelSlot).info.vocab
        else if !decode then sampleToken r base ps
        else settleNode r (draftOf s row.slot v) (base + nodeDepth t v) ps
      (y, logprobOf ps y)
    some (walkTree t settle 16 0, recs.any (fun l => l.any (fun c => c.nonfinite)))
  else none

/-- The sampler reads a row's candidate records from the LOGIT blocks; an uncorrectable one poisons the attempts of the job (R199, R225). -/
def readRecords (s : State) (job slot : Nat) : State :=
  (s.store.records.filter (fun c => c.slot = slot)).foldl (fun t c => t.jobReads job (c.addr, (candBytes c).length)) s

/-- SAMPLER_ROW_MERGE at Invar t: a lane merges and draws a row's nodes, and the completion stamp is recorded (R34, R231). The
row's job has ended all its kernels; nothing is recorded once the commit window is open (R36). -/
def execSamplerRowMerge (t slot : Nat) (s : State) : Host.Outcome State Fault Refusal :=
  let s := s.atTime t
  .next (
    match s.row? slot, s.req? slot, s.attempt? slot with
    | some row, some r, some a =>
      let finished := match s.job? row.modelSlot with | none => false | some j => j.finished && !j.faulted
      let samples := row.kind = .decode || (row.kind = .prefill && chunkSamples r row.tokens)
      if s.tick.running && !s.tick.inCommit && finished && samples && !a.done then
        match mergeRow s r row with
        | none => s
        | some p => ((readRecords s row.modelSlot slot).draw).modAttempt slot (fun a => { a with path := p.1, nonfinite := a.nonfinite || p.2, stamp := s.now, done := true })
      else s
    | _, _, _ => s)

end Sys2Proof.Machine
end

