-- ==== Sys2Proof/Machine/Kernels.lean ====
section
/-! DEFINITION. Kernels of a job: start, end, semaphores, pre-emption and resumption (R83, R85, R104 to R107, R216), the trees a
draft model gives (R245), and the measures of a kernel (R94, R95, R100).
Readings of the spec: log 37. -/

namespace Sys2Proof.Machine

open Sys2Proof

/-- Header of kernel k of a model (Table 12-5). -/
def kernelHeader (s : State) (m k : Nat) : Kernel := nth (s.mslot m).info.kernels k {}

/-! ## Start (R83, R85, R216) -/

/-- A job is still to run: neither ended nor torn down. -/
def jobOpen (j : Job) : Bool := !j.finished && !j.faulted

/-- A job has a kernel ready: its next kernel waits for no input of another device (R104). -/
def jobReady (j : Job) : Bool := jobOpen j && j.waits = 0

/-- A job stands in the way of another: it runs now; or it is open, and has begun or comes first in plan order. A saved one stands in the way
of jobs without class 7, not of those with it; one with class 7 that waits on an input stands in no way, while others stall in place
(R85, R104). -/
def jobBlocks (s : State) (urgent before : Bool) (j : Job) : Bool :=
  j.active || (jobOpen j && !(j.urgent && !jobReady j) && !(!j.urgent && urgent && s.plan.saved = some j.modelSlot) && (decide (0 < j.next) || before))

/-- No other job stands in the way of a job's next kernel. -/
def jobClear (s : State) (m : Nat) : Bool :=
  let pre := s.plan.jobs.takeWhile (fun j => j.modelSlot ≠ m)
  let urgent := s.plan.jobs.any (fun j => j.modelSlot = m && j.urgent)
  s.plan.jobs.all (fun j => j.modelSlot = m || !jobBlocks s urgent (pre.any (fun x => x.modelSlot = j.modelSlot)) j)

/-- The semaphores of a job's next kernel: of those granted at plan time that a die serves, as many as its header declares (R216). -/
def semGrant (s : State) (j : Job) (n : Nat) : List Nat := (j.sems.filter (semServed s)).take n

/-- Proposals of a node under the policy: the first fanout candidates under MATCH, draws of word i under REJECT (R245). -/
def draftProposals (r : Request) (position : Nat) (q : List (Nat × U32)) : List Nat :=
  if r.spec.reject then (List.range r.spec.fanout).map (fun i => rejectProposal r.seed position i q)
  else (q.take r.spec.fanout).map (·.1)

/-- The FP32 output of the draft model for a token of a node; one that the command does not carry is open. -/
def draftLogit (free : Nat) (ds : List DraftLogits) (v i : Nat) : U32 :=
  match (ds.find? (fun d => d.node = v)).bind (fun d => d.x[i]?) with
  | some x => x
  | none => Config.openWord free i v

/-- q_v: the probabilities of R226 over the draft's merged candidates at a node, under the request's adjustments and truncation (R245). -/
def draftDist (r : Request) (t : List (Nat × Nat)) (vocab : Nat) (x : Nat → U32) (v : Nat) : List (Nat × U32) :=
  let recs := (List.range 16).map (fun c =>
    let sl := sliceOf vocab c
    localRecord r t 0 v c vocab ((upFrom sl.1 sl.2).map x))
  let ps := mergedProbs recs
  if fpEq r.sampler.temperature 0 then ps else keptList r.sampler ps

/-- The tree of source 0x02 with q_v of each of its nodes, level by level: a level's nodes are those of one depth, and nodes are added in
their order. -/
def draftTree (r : Request) (vocab : Nat) (x : Nat → Nat → U32) (nodes depth : Nat) :
    Nat → Nat → List (Nat × Nat) → List (List (Nat × U32)) → List (Nat × Nat) × List (List (Nat × U32))
  | 0, _, t, qs => (t, qs)
  | f + 1, v, t, qs =>
    if t.length ≤ v then (t, qs)
    else
      let d := nodeDepth t v
      let q := draftDist r t vocab (x v) v
      let t := if d + 1 < depth then
          (draftProposals r (r.committedLen + d + 1) q).foldl (fun t y =>
            if (childOf t v y).isNone && t.length < nodes then t ++ [(v, y)] else t) t
        else t
      draftTree r vocab x nodes depth f (v + 1) t (qs ++ [q])

/-- Blocks of a job's LOGIT reservation that one row has: the most that one of its kernels declares. -/
def logitShare (s : State) (m : Nat) : Nat := (s.mslot m).info.kernels.foldl (fun b k => max b k.logitPerRow) 0

/-- Device address of a byte of a job's LOGIT blocks, taken one holding after the other. -/
def logitByte (m : Nat) : Nat → List Holding → Option Nat
  | _, [] => none
  | n, h :: r => if h.cls = .logit && h.holder = m then (if n < h.blocks * 65536 then some (h.first * 65536 + n) else logitByte m (n - h.blocks * 65536) r) else logitByte m n r

/-- Writes the tree record of a row at the start of the row's LOGIT blocks (R242). -/
def State.putTree (s : State) (slot : Nat) : State :=
  match s.row? slot, s.req? slot with
  | some row, some r =>
    let i := ((s.plan.rows.filter (fun x => x.modelSlot = row.modelSlot)).takeWhile (fun x => x.slot ≠ slot)).length
    match logitByte row.modelSlot (i * logitShare s row.modelSlot * 65536) s.store.held with
    | none => s
    | some a => s.putStore a (treeBytes r.committedLen (runTree r))
  | _, _ => s

/-- The tree of a row, and q_v of its nodes, are held; on a chain device each node keeps the distribution of the node it was (R247, R250). -/
def State.holdTree (s : State) (row : PlanRow) (t : List (Nat × Nat)) (qs : List (List (Nat × U32))) : State :=
  let ks := rowNodes s.variant row.tokens t
  let ds := if qs.isEmpty then [] else ks.zipIdx.map (fun k => ({ slot := row.slot, node := k.2, q := nth qs k.1 [] } : DraftDist))
  ((s.modReq row.slot (fun q => { q with probeTree := rowTree s.variant row.tokens t })).onPlan (fun p => { p with drafts := p.drafts ++ ds })).putTree row.slot

/-- The draft passes of one row of source 0x02: its tree, built as large as its policy and depth allow, then held to what was planned. -/
def State.draftRow (s : State) (drafts : List DraftLogits) (row : PlanRow) : State :=
  match s.req? row.slot with
  | none => s
  | some r =>
    if r.spec.source = 2 then
      let on := bit s.regs.specCtl.toNat 8
      let x := draftLogit s.freeCtr (drafts.filter (fun d => d.slot = row.slot))
      let t := draftTree r (s.mslot r.modelSlot).info.vocab x (if on then r.spec.maxNodes else 1) (min row.depth r.spec.maxDepth) 64 0 (rootTree r) []
      s.holdTree row t.1 t.2
    else s

/-- The row tokens of a job's decode rows are the nodes that they verify (R84). -/
def State.settleNodes (s : State) (m : Nat) : State :=
  s.onPlan (fun p => { p with rows := p.rows.map (fun row =>
    if row.modelSlot = m && row.kind = .decode then
      match s.req? row.slot with
      | none => row
      | some r => { row with tokens := (runTree r).length }
    else row) })

/-- The embedding kernel of a job runs the draft passes of its rows of source 0x02 (R245), and every row's tree is as it is verified. -/
def State.buildDrafts (s : State) (m : Nat) (drafts : List DraftLogits) : State :=
  let rows := s.plan.rows.filter (fun r => r.modelSlot = m && r.kind = .decode)
  ((rows.foldl (fun t row => t.draftRow drafts row) s).settleNodes m).draw

/-- TREE_BUILD: before its job starts, a row's tree of source 0x01 or 0x03 is built from committed state and held to what was
planned for the row (R243, R246); SV_SPEC_CTL.spec_en clear leaves the root alone (Table 10-4). -/
def execTreeBuild (slot : Nat) (s : State) : Host.Outcome State Fault Refusal :=
  .next (
    match s.row? slot, s.req? slot with
    | some row, some r =>
      let started := match s.job? row.modelSlot with | none => true | some j => j.active || decide (0 < j.next)
      if row.kind = .decode && s.tick.running && !s.tick.inCommit && !started && (r.spec.source = 1 || r.spec.source = 3) then
        s.holdTree row (if bit s.regs.specCtl.toNat 8 then lookupTree r row.depth else rootTree r) []
      else s
    | _, _ => s)

/-- KERNEL_START: the next kernel of a job starts with its ranges, once its inputs are there and it has the semaphores its header declares; they take the header's
initial value, its clusters start their directories, and the embedding kernel runs the draft passes. -/
def execKernelStart (model kernel : Nat) (g : Grant) (drafts : List DraftLogits) (s : State) : Host.Outcome State Fault Refusal :=
  .next (
    match s.job? model with
    | none => s
    | some j =>
      let h := kernelHeader s model kernel
      let sems := semGrant s j h.nsem
      if s.tick.running && !s.tick.inCommit && jobReady j && !j.active && j.next = kernel && s.plan.saved ≠ some model
          && jobClear s model && !s.plan.emptyRunning && h.nsem ≤ sems.length then
        let s := s.modJob model (fun j => { j with active := true, t1 := g.t1, sp := g.sp })
        let s := s.onStore (fun u =>
          { u with sems := sems.foldl (fun t n => tabPut n { value := h.semInit, initial := h.semInit, job := model, waiters := [] } t) u.sems })
        let s := s.allMcl (fun c => { c with nextOrdinal := 0 })
        if kernel = 0 then s.buildDrafts model drafts else s
      else s)

/-! ## Measures (R94, R95, R97, R100) -/

/-- Bank-unit time of a kernel that is charged to a slot: a page read that serves several requests' query sets is split equally (R95). -/
def bankShare (k : KernelMeasure) (slot : Nat) : Nat :=
  sumN ((k.passes.flatten.filter (fun r => r.1.contains slot)).map (fun r => r.2 / max 1 r.1.length))

/-- The attempt of one of a job's rows with its share of a kernel: cluster time and hub bytes by row tokens, bank time as read. -/
def shareKernel (rows : List PlanRow) (k : KernelMeasure) (a : Attempt) : Attempt :=
  match rows.find? (fun r => r.slot = a.slot) with
  | none => a
  | some r =>
    let total := max 1 (sumN (rows.map (·.tokens)))
    let cn := k.clusterNs * r.tokens / total
    let hb := k.hubBytes * r.tokens / total
    { a with clusterNs := a.clusterNs + cn, hubBytes := a.hubBytes + hb, bankNs := a.bankNs + bankShare k a.slot }

/-- Correction factor of a kernel kind in 1/65,536; 1.0 where none is kept (R98, R100). -/
def corrOf (s : State) (m kk : Nat) : Nat := (((s.plan.corr.find? (fun c => c.1 = (m, kk))).map (·.2)).getD 65536)

/-- Adds to the estimated energy of a kernel kind in this tick. -/
def addEnergy (key : Nat × Nat) (est : Nat) (l : List ((Nat × Nat) × Nat)) : List ((Nat × Nat) × Nat) :=
  if l.any (fun e => e.1 = key) then l.map (fun e => if e.1 = key then (key, e.2 + est) else e) else l ++ [(key, est)]

/-- Estimate of a kernel's energy in mJ, corrected (R98). -/
def kernelEstimate (s : State) (m kk tokens : Nat) (ctxs : List Nat) : Nat := Config.kernelEnergy m kk tokens ctxs * corrOf s m kk / 65536

/-- Context lengths of rows. -/
def rowContexts (s : State) (rows : List PlanRow) : List Nat := rows.map (fun r => ((s.req? r.slot).map (·.committedLen)).getD 0)

/-- Takes the measures of a kernel into the attempts and the planner's estimates; the estimate that R100 compares is the one before
correction. -/
def State.measure (s : State) (m kernel : Nat) (k : KernelMeasure) : State :=
  let rows := s.plan.rows.filter (fun r => r.modelSlot = m)
  let kk := (kernelHeader s m kernel).kkind
  let est := Config.kernelEnergy m kk (sumN (rows.map (·.tokens))) (rowContexts s rows)
  s.onPlan (fun p => { p with
    attempts := p.attempts.map (shareKernel rows k)
    kindEnergy := addEnergy (m, kk) est p.kindEnergy
    pageCost :=
      let l := p.pageCost ++ k.passes.map (fun r => (sumN (r.map (·.2)), r.length))
      l.drop (l.length - 16) })

/-- The kernels that were stopped before their end are measured as far as they ran: their engine time was used (R95). -/
def State.measureStopped (s : State) (l : List (Nat × Nat × KernelMeasure)) : State :=
  l.foldl (fun t x =>
    match t.job? x.1 with
    | none => t
    | some j => if j.stopped && j.next = x.2.1 then (t.measure x.1 j.next x.2.2).modJob x.1 (fun j => { j with stopped := false }) else t) s

/-- The cost of engine quantities in the planner's figure, by the weights of SV_COST_W (R94). -/
def costOf (s : State) (clusterNs bankNs hubBytes : Nat) : Nat :=
  let w := s.regs.costW
  (rf w 7 0 * clusterNs + rf w 15 8 * (bankNs / 1024) + rf w 23 16 * (hubBytes / 1600)) / 16

/-- The measures of a job that has ended join the last 16 of its slot (R97). -/
def State.noteJobCost (s : State) (m : Nat) : State :=
  let slots := s.jobSlots m
  let as := s.plan.attempts.filter (fun a => slots.contains a.slot)
  let toks := sumN ((s.plan.rows.filter (fun r => r.modelSlot = m)).map (·.tokens))
  let x := (sumN (as.map (·.clusterNs)), sumN (as.map (·.hubBytes)), toks)
  s.onPlan (fun p => { p with tokenCost := tabUpd m [] (fun l => let l := l ++ [x]; l.drop (l.length - 16)) p.tokenCost })

/-! ## End (R107, R150, R162, R212) -/

/-- A kernel of a job still holds a semaphore: its value is not the initial one, or a waiter remains (R216). -/
def holdsSem (s : State) (m : Nat) : Bool :=
  s.store.sems.any (fun p => p.2.job = m && (decide (p.2.value ≠ p.2.initial) || !p.2.waiters.isEmpty))

/-- A job has ended: its groups, holds and store blocks are free, and its rows that sample nothing here are complete at t: this shard's
own completion, where another device is the home (R34, R49). -/
def State.jobEnd (s : State) (m : Nat) : State :=
  let rows := s.plan.rows.filter (fun r => r.modelSlot = m)
  let plain := rows.filter (fun r => r.kind = .rebuild || match s.req? r.slot with
    | none => r.kind = .prefill
    | some q => !homedHere s q || (r.kind = .prefill && !chunkSamples q r.tokens))
  let slots := plain.map (·.slot)
  ((((s.modJob m (fun j => { j with finished := true, active := false, t1 := [], sp := [] })).allMcl
    (fun c => dropHolds m (freeGroups m (fun _ => true) c))).returnStore m).onPlan (fun p => { p with
      finishedJobs := setAdd m p.finishedJobs
      attempts := markAttempts slots (fun a => if a.done then a else { a with done := true, stamp := s.now }) p.attempts })).noteJobCost m

/-- A command of the job still waits at a sequencer (R125). -/
def waitsFor (s : State) (m : Nat) : Bool :=
  s.banks.any (fun c => c.2.queue.any (fun q => q.job = m)) || s.matrix.any (fun c => c.2.queue.any (fun q => q.job = m))

/-- KERNEL_END at Invar t: a kernel of the job that runs ends, its commands all having ended. A semaphore still held faults the job. -/
def execKernelEnd (t model kernel : Nat) (m : KernelMeasure) (s : State) : Host.Outcome State Fault Refusal :=
  let s := s.atTime t
  .next (
    match s.job? model with
    | none => s
    | some j =>
      if s.jobRuns model && j.next = kernel && !waitsFor s model then
        let bad := holdsSem s model
        let s := (s.measure model kernel m).kernelClear model
        if bad then s.jobFault model
        else
          let s := s.modJob model (fun j => { j with active := false, next := j.next + 1, waits := m.waits, t1 := [], sp := [] })
          if j.kernels ≤ kernel + 1 then s.jobEnd model else s
      else s)

/-! ## Pre-emption (R104 to R106) -/

/-- Moves the OPEN groups of a job on a cluster to the save area. -/
def saveGroups (m : Nat) (s : State) (p : Nat × MatrixCluster) : State :=
  (p.2.groups.filter (fun g => g.2.owner = m && g.2.state = .opened)).foldl (fun t g => t.saveGroup p.1 g.1) s

/-- Moves the saved groups of a job on a cluster back. -/
def restoreGroups (m : Nat) (s : State) (p : Nat × MatrixCluster) : State :=
  (p.2.save.filter (fun g => g.2.owner = m)).foldl (fun t g => t.restoreGroup p.1 g.1) s

/-- Copies units of 256 B of a cluster's scratchpad to their place in the save area, or back. -/
def saveUnits (s : State) (cl u n : Nat) : State := s.putBytes (saveArea s cl + u * 256) (s.getBytes (spBase cl + u * 256) (n * 256))
def restoreUnits (s : State) (cl u n : Nat) : State := s.putBytes (spBase cl + u * 256) (s.getBytes (saveArea s cl + u * 256) (n * 256))

/-- Saves the dirty scratchpad regions of a job: (cluster, first unit, units) within the 48 MiB of scratchpad, on clusters in service (R15). -/
def State.saveDirty (s : State) (dirty : List (Nat × Nat × Nat)) : State :=
  (dirty.filter (fun d => s.clusterUp d.1 && d.2.1 + d.2.2 ≤ 196608)).foldl (fun t d =>
    (saveUnits t d.1 d.2.1 d.2.2).modMcl d.1 (fun c => { c with savedScratch := c.savedScratch ++ [(d.2.1, d.2.2)] })) s

/-- Writes the saved scratchpad regions of a cluster back. -/
def restoreScratch (s : State) (p : Nat × MatrixCluster) : State :=
  (p.2.savedScratch.foldl (fun t u => restoreUnits t p.1 u.1 u.2) s).modMcl p.1 (fun c => { c with savedScratch := [] })

/-- Drops the staged ingots of a job and their holds; its other holds stay (R105, R170). -/
def dropIngots (owner : Nat) (mc : MatrixCluster) : MatrixCluster :=
  settleHalves { mc with
    holds := mc.holds.filter (fun h => !(h.job = owner && h.ingot))
    staging := mc.staging.filter (fun f => f.model ≠ owner) }

/-- PREEMPT: with a kernel of a job of class 7 ready, the running job stops at its kernel boundary and is saved: dirty scratchpad and open groups to the save area,
prefetched ingots dropped. -/
def execPreempt (model : Nat) (dirty : List (Nat × Nat × Nat)) (s : State) : Host.Outcome State Fault Refusal :=
  .next (
    match s.job? model with
    | none => s
    | some j =>
      if s.tick.running && !s.tick.inCommit && bit s.regs.planCtl.toNat 19 && !j.urgent && jobOpen j && !j.active && decide (0 < j.next)
          && s.plan.saved.isNone && s.plan.jobs.any (fun u => u.urgent && jobReady u) then
        let u := s.saveDirty dirty
        (((u.matrix.foldl (saveGroups model) u).allMcl (dropIngots model)).onPlan (fun p => { p with saved := some model })).countStep
          (fun c => { c with preemptions := inc64 c.preemptions })
      else s)

/-- JOB_RESUME: no job of class 7 having a kernel ready, the saved job is restored; its next kernel may then start (R104). -/
def execJobResume (model : Nat) (s : State) : Host.Outcome State Fault Refusal :=
  .next (
    if s.plan.saved = some model && s.tick.running && !s.tick.inCommit && s.plan.jobs.all (fun j => !j.active && !(j.urgent && jobReady j)) then
      let s := s.matrix.foldl restoreScratch s
      (s.matrix.foldl (restoreGroups model) s).onPlan (fun p => { p with saved := none })
    else s)

end Sys2Proof.Machine
end

