-- ==== Sys2Proof/Machine/Packets.lean ====
section
/-! DEFINITION. Gelcon below its messages: flits, sequence numbers and credits (R309 to R315), packet headers (R316), routes
(R320 to R326), ports that go down (R329), violations and quarantine (R330, R331), and the sending of a message (R318).
Readings of the spec: logs 11, 24. -/

namespace Sys2Proof.Machine

open Sys2Proof

/-! ## Ports -/

/-- Changes a Gelcon port. -/
def State.modPort (s : State) (p : Nat) (f : Port → Port) : State :=
  s.onGelcon (fun g => { g with ports := tabUpd p {} f g.ports })

/-- A virtual channel of a port. -/
def portVc (g : Port) (n : Nat) : VcState := tabGetD n {} g.vcs

/-- Dedicated flits of a virtual channel (Table 14-5). -/
def vcDedicated (n : Nat) : Nat := if n ≤ 1 then 32 else if n ≤ 3 then 256 else 64

/-- Changes a virtual channel of a port. -/
def modVc (n : Nat) (f : VcState → VcState) (g : Port) : Port := { g with vcs := tabUpd n {} f g.vcs }

/-- This device's member number. -/
def memberNo (s : State) : Nat := s.start.memberId % 16

/-! ## Flits (R310, Tables 14-3, 14-4) -/

def flSeq (b : List Byte) : Nat := bits (field b 0 8) 63 52
def flAck (b : List Byte) : Nat := bits (field b 0 8) 51 40
def flAckValid (b : List Byte) : Bool := bit (field b 0 8) 39
def flVc (b : List Byte) : Nat := bits (field b 0 8) 38 36
def flType (b : List Byte) : Nat := bits (field b 0 8) 35 32
def flFirst (b : List Byte) : Nat := bits (field b 0 8) 31 24
def flData (b : List Byte) : List Byte := slice b 8 240
def flCredit (b : List Byte) : Nat := field b 248 4

/-- The CRC of a flit is good. -/
def flCrcOk (b : List Byte) : Bool := field b 252 4 = (crc32 (slice b 0 252)).toNat

/-- A sequenced flit type. -/
def sequenced (ft : Nat) : Bool := ft = 1 || ft = 2 || ft = 4

/-- A flit may be put on the lanes: room for it among 1,024 unacknowledged flits and, for DATA, a credit; an unmarked flit of
VC2 or VC3 leaves 64 credits (R312, R314). -/
def mayPut (g : Port) (f : Flit) : Bool :=
  g.resend.length < 1024 && (f.ftype ≠ 1 ||
    let v := portVc g f.vc
    let left := (v.allowed + 65536 - v.sent) % 65536
    if (f.vc = 2 || f.vc = 3) && !f.urgent then 64 < left else 0 < left)

/-- The active lane on which a port puts a flit, round-robin in ascending lane order (R311). -/
def laneFor (g : Port) (turn : Nat) : Nat :=
  let l := (List.range 4).filter (bit g.laneMask)
  nth l (turn % max 1 l.length) 0

/-- Puts a sequenced flit on the lanes; it acknowledges what has been accepted (R311, R312). -/
def putFlit (f : Flit) (g : Port) : Port :=
  let f := { f with seq := g.nextSeq, ack := g.lastIn, lane := laneFor g g.turn }
  { g with nextSeq := (g.nextSeq + 1) % 4096, resend := g.resend ++ [f], wire := g.wire ++ [f], turn := g.turn + 1, ackOwed := 0
           vcs := if f.ftype = 1 then tabUpd f.vc {} (fun v => { v with sent := (v.sent + 1) % 65536 }) g.vcs else g.vcs }

/-- Puts on the lanes what may go, in order within a virtual channel. -/
def pumpList : List Flit → List Flit → Port → Port
  | [], kept, g => { g with txq := kept }
  | f :: r, kept, g =>
    if g.up && mayPut g f && !kept.any (fun k => k.vc = f.vc && k.ftype = f.ftype) then pumpList r kept (putFlit f g)
    else pumpList r (kept ++ [f]) g

/-- Sends the flits of a port that may go; the wait for an ack runs from the first of an empty resend buffer (R312). -/
def State.pump (s : State) (p : Nat) : State :=
  let g := s.gport p
  let h := pumpList g.txq [] { g with txq := [], ackAt := if g.resend.isEmpty then s.now else g.ackAt }
  (s.modPort p (fun _ => h)).countPort p (fun c => { c with flitsTx := add64 c.flitsTx (h.wire.length - g.wire.length) })

/-- Flits of a packet in their place in a queue: those of an urgent one go before the first unmarked packet of their virtual channel that has not
begun and keeps no order; others go last (R107, R314). -/
def enqueue (l q : List Flit) : List Flit :=
  match l with
  | [] => q
  | f :: _ =>
    if f.ftype = 1 && f.urgent then
      let stays := fun (x : Flit) => !(x.ftype = 1 && x.vc = f.vc && !x.urgent && match x.packet with | none => false | some p => !p.ordered)
      q.takeWhile stays ++ l ++ q.dropWhile stays
    else q ++ l

/-- Queues sequenced flits on a port and sends what may go. -/
def State.queueFlits (s : State) (p : Nat) (l : List Flit) : State := (s.modPort p (fun g => { g with txq := enqueue l g.txq })).pump p

/-- Sends an unsequenced flit, which acknowledges too and takes the next lane; it is not counted (R311, R312, Table 20-5). -/
def State.sendPlain (s : State) (p ftype : Nat) (data : List Byte) : State :=
  s.modPort p (fun g => { g with
    ackOwed := 0, wire := g.wire ++ [{ seq := 0, ftype := ftype, vc := 0, data := data, ack := g.lastIn, lane := laneFor g g.turn }] })

/-- Sends a NAK (Table 14-4). -/
def State.sendNak (s : State) (p cause vc : Nat) : State :=
  (s.sendPlain p 3 (leBytes 1 cause ++ leBytes 1 vc ++ leBytes 2 (s.gport p).expect)).modPort p (fun g => { g with nakAt := s.now })

/-- Flits sent again, on the next lanes in turn. -/
def againOn (g : Port) (l : List Flit) : List Flit := l.zipIdx.map (fun x => { x.1 with ack := g.lastIn, lane := laneFor g (g.turn + x.2) })

/-- Resends every unacknowledged flit from a sequence number onward; no credit is consumed (R312). -/
def State.resendFrom (s : State) (p seq : Nat) : State :=
  let l := (s.gport p).resend.dropWhile (fun f => f.seq ≠ seq)
  (s.modPort p (fun g => { g with wire := g.wire ++ againOn g l, turn := g.turn + l.length, ackAt := s.now })).countPort p
    (fun c => { c with flitsTx := add64 c.flitsTx l.length })

/-- The 256 bytes of a flit as it is put on a lane, the credit field unused (R310, Table 14-3). -/
def flitBytes (f : Flit) : List Byte :=
  let word := f.seq % 4096 * 2 ^ 52 + (match f.ack with | none => 0 | some a => a % 4096 * 2 ^ 40 + 2 ^ 39)
    + (if f.ftype = 1 then f.vc % 8 * 2 ^ 36 + f.first % 256 * 2 ^ 24 else 0) + f.ftype % 16 * 2 ^ 32
  let b := leBytes 8 word ++ slice f.data 0 240 ++ leBytes 4 0
  b ++ leBytes 4 (crc32 b).toNat

/-- The payload of a pair of codewords: a frame word, which tags the lane and counts its frames, and five flits, IDLE ones where fewer are
given: 1,285 bytes (R309). -/
def framePayload (port lane count : Nat) (l : List Flit) : List Byte :=
  leBytes 1 (port * 8 + lane) ++ leBytes 4 count ++ ((l ++ List.replicate 5 ({} : Flit)).take 5).flatMap flitBytes

/-- Flits leave the buffer of a virtual channel: those that used pool flits give them back to the pool, and credits are owed for the others
(R314, R315). -/
def leaveBuffer (n k : Nat) (g : Port) : Port :=
  let j := min k (portVc g n).lent
  { modVc n (fun v => { v with owed := v.owed + (k - j), lent := v.lent - j }) g with pool := g.pool + j }

/-- Pool flits that a port adds, an open number, to the counts of VC4 to VC7 (R314). -/
def lendPool (c : Nat) (g : Port) : Port :=
  [4, 5, 6, 7].foldl (fun g n =>
    let k := min g.pool (Config.poolLend c n)
    { modVc n (fun v => { v with owed := v.owed + k, lent := v.lent + k }) g with pool := g.pool - k }) g

/-- Returns the credits a port owes: cumulative counts rise, and a CREDIT flit carries them (R315). -/
def State.returnCredits (s : State) (p : Nat) : State :=
  if (s.gport p).vcs.any (fun v => 0 < v.2.owed) then
    let s := s.modPort p (fun g => { g with vcs := g.vcs.map (fun v => (v.1, { v.2 with granted := (v.2.granted + v.2.owed) % 65536, owed := 0 })) })
    s.queueFlits p [{ ftype := 2, data := (List.range 8).flatMap (fun n => leBytes 2 (portVc (s.gport p) n).granted) }]
  else s

/-- Acknowledges what has been accepted. -/
def State.sendAck (s : State) (p : Nat) : State :=
  if (s.gport p).ackOwed = 0 then s else s.sendPlain p 0 []

/-! ## Packets (R316, Table 14-6, Table 14-8) -/

/-- The packet types of Table 14-8. -/
def ptypeKnown (t : Nat) : Bool := [1, 2, 3, 4, 5, 0x10, 0x20, 0x21, 0x22, 0x23, 0x24, 0x30, 0x3E].contains t

/-- Traffic class allowed for a packet type. -/
def tcAllowed (t tc : Nat) : Bool :=
  if t ≤ 5 then tc = 0 else if t = 0x10 then tc = 1 else if t < 0x30 then tc = 2 || tc = 3 else tc = 3

/-- Group and member of an identity. -/
def groupOf (id : Nat) : Nat := id / 16 % 32
def memberOf (id : Nat) : Nat := id % 16

/-- A via group that R325 permits for a packet of its source. -/
def viaOk (p : Packet) : Bool :=
  !p.viaValid || (p.viaGroup ≠ groupOf p.src && p.viaGroup ≠ groupOf p.dst && !(p.viaGroup < groupOf p.src && p.viaGroup < groupOf p.dst))

/-- The bytes of a packet. -/
def packetBytes (p : Packet) : List Byte :=
  leBytes 1 p.ptype
    ++ leBytes 1 (p.tc * 64 + p.hop * 32 + b2n p.ordered * 16 + b2n p.viaValid * 8 + b2n p.urgent * 4 + b2n p.viaDone * 2)
    ++ leBytes 2 p.dst ++ leBytes 2 p.src ++ leBytes 1 (p.viaGroup % 32 + b2n p.det * 32) ++ leBytes 1 (p.hops % 16 + p.detMember % 16 * 16)
    ++ leBytes 2 p.payload.length ++ leBytes 2 p.flow ++ leBytes 4 p.tag ++ leBytes 8 p.addr ++ leBytes 8 p.handle ++ p.payload

/-- The DATA flits of a packet, which starts a flit of its own and pads its last (R317; log 11). The first keeps the packet as it was held
before the hop. -/
def packetFlits (held p : Packet) (forwarded fromLocal : Bool) : List Flit :=
  let bs := packetBytes p
  (chunks 240 (bs.length / 240 + 1) bs).zipIdx.map (fun c =>
    { ftype := 1, vc := 2 * p.tc + p.hop, first := if c.2 = 0 then 0 else 0xFF, data := c.1, urgent := p.urgent, forwarded := forwarded, fromLocal := fromLocal
      packet := if c.2 = 0 then some held else none })

/-! ## Topology (R320, R321) -/

/-- Local port of member a that is cabled to member b. -/
def localPort (a b : Nat) : Nat := (b + 15 - a) % 16

/-- A member of this group is known to be there: this device itself, one that a local port is cabled to, or one that has been heard in the
group (R48, R320, R324). -/
def memberThere (s : State) (m : Nat) : Bool :=
  m = memberNo s || (s.gport (localPort (memberNo s) m)).cabled ≠ 0 || s.tick.syncRuns.any (fun x => x.1 = m) || s.gelcon.view.any (fun x => x.1 = m)

/-- A destination outside the system: no identity, or no member of this device's own group (Table 14-10). -/
def outside (s : State) (id : Nat) : Bool := 512 ≤ id || (groupOf id = s.tick.group && !memberThere s (memberOf id))

/-- Cause of Table 14-10 for which a packet's header is dropped, 0 for none (log 11 on a header with several faults). -/
def headerCause (s : State) (p : Packet) : Nat :=
  if !ptypeKnown p.ptype then 3
  else if p.reservedBad || 4096 < p.payload.length || p.payload.length % 8 ≠ 0 || !tcAllowed p.ptype p.tc || (p.urgent && p.tc ≠ 1) then 2
  else if outside s p.dst || !viaOk p then 4
  else if 8 < p.hops then 5
  else 0

/-- A port of a member of the group is up, as this device knows it. -/
def viewUp (s : State) (m p : Nat) : Bool :=
  if m = memberNo s then (s.gport p).up
  else ((s.gelcon.view.find? (fun v => v.1 = m && v.2.1 = p)).map (·.2.2)).getD false

/-- The group port that plays a role: a spare assigned to it, or the port of that number. -/
def rolePort (s : State) (r : Nat) : Nat := ((s.gelcon.spares.find? (fun x => x.2 = r)).map (·.1)).getD r

/-- The group ports toward a group, in ascending order of group port index G. -/
def groupPorts (s : State) (b : Nat) : List Nat :=
  let j := (b + 31 - s.tick.group) % 32
  (([j, j + 31, j + 62].map (rolePort s)).foldl (fun acc g => insertKey g g acc) []).map (·.2)

/-- Those of them that the view shows as up. -/
def upPorts (s : State) (b : Nat) : List Nat :=
  if hasGlobal s.variant then (groupPorts s b).filter (fun g => viewUp s (g / 6) (15 + g % 6)) else []

/-- Flits queued toward a group port: as told, as this device's own queue holds, or as it takes another member's to be (log 6). -/
def queuedAt (s : State) (q : List (Nat × Nat)) (g : Nat) : Nat :=
  match tabGet g q with
  | some n => n
  | none => if g / 6 = memberNo s then (s.gport (15 + g % 6)).txq.length else Config.peerQueue s.now g

/-! ## Routes (R323 to R326) -/

/-- What becomes of a packet at this device. -/
inductive Hop where
  /-- it is for this device -/
  | keep
  /-- it leaves by a port -/
  | out (port : Nat) (p : Packet)
  /-- it is dropped for a cause of Table 14-10 -/
  | drop (cause : Nat)
  deriving DecidableEq, Repr

/-- Group port index of this device's global port p. -/
def groupPortOf (s : State) (p : Nat) : Nat := 6 * memberNo s + (p - 15)

/-- The role a global port plays: the one assigned to it as a spare, or its own index. -/
def roleOf (s : State) (p : Nat) : Nat := tabGetD (groupPortOf s p) (groupPortOf s p) s.gelcon.spares

/-- The group at the other end of a port (R320, R321). -/
def peerGroup (s : State) (p : Nat) : Nat := if p < 15 then s.tick.group else (s.tick.group + roleOf s p % 31 + 1) % 32

/-- Over a port only IDENT and MGMT with its direct peer pass: this device's group number, or the peer's, is not yet set (R322). -/
def onlyMgmt (s : State) (port : Nat) : Bool :=
  (s.tick.group = 31 && !s.tick.inGroup) || (groupOf (s.gport port).peer = 31 && peerGroup s port ≠ 31)

/-- A packet leaves by a port, one hop further. -/
def leaveBy (s : State) (port : Nat) (p : Packet) : Hop :=
  if 8 ≤ p.hops then .drop 5
  else if onlyMgmt s port && !(p.ptype = 0x30 && p.dst = (s.gport port).peer) then .drop 8
  else .out port { p with hops := p.hops + 1 }

/-- Members through which a detour from a to b may go in a hop class, best first. -/
def detours (s : State) (a b hop : Nat) : List Nat :=
  let l := if hop = 0 then (List.range 16).filter (fun c => a < c) else ((List.range 16).filter (fun c => c < a)).reverse
  l.filter (fun c => c ≠ b && viewUp s a (localPort a c) && viewUp s c (localPort c b))

/-- A local hop to member b, or its detour. -/
def hopTo (s : State) (p : Packet) (b : Nat) (ascending : Bool) : Hop :=
  let a := memberNo s
  if viewUp s a (localPort a b) then leaveBy s (localPort a b) p
  else
    match detours s a b p.hop with
    | c :: _ => leaveBy s (localPort a c) { p with det := true, detMember := b }
    | [] =>
      if p.hop = 0 && !ascending then
        match detours s a b 1 with
        | c :: _ => leaveBy s (localPort a c) { p with det := true, detMember := b, hop := 1 }
        | [] => .drop 8
      else .drop 8

/-- The global ports in the order a packet tries them: its choice of R324 first. -/
def portOrder (s : State) (p : Packet) (q : List (Nat × Nat)) (ups : List Nat) : List Nat :=
  if p.ordered then
    let k := (p.src ^^^ p.dst ^^^ p.flow) % max 1 ups.length
    ups.drop k ++ ups.take k
  else (ups.foldl (fun acc g => insertKey (queuedAt s q g) g acc) []).map (·.2)

/-- The hop toward another group by one of its ports. -/
def globalHop (s : State) (p : Packet) (target g : Nat) : Hop :=
  if s.tick.group < target && p.hop = 1 then .drop 6
  else if g / 6 = memberNo s then leaveBy s (15 + g % 6) { p with hop := if target < s.tick.group then 1 else p.hop }
  else hopTo s p (g / 6) (decide (s.tick.group < target))

/-- The first of the hops that is not unreachable. -/
def firstHop : List Hop → Hop
  | [] => .drop 8
  | h :: r => if h = .drop 8 then firstHop r else h

/-- The next hop of a packet, which came by a local port or not. A direct peer whose port carries only MGMT is reached by that port (R322). One
that came by a local port has made its local hop in this group, and goes on by a global port of this device or not at all (R323). -/
def route (s : State) (p : Packet) (q : List (Nat × Nat)) (fromLocal : Bool) : Hop :=
  let direct := (List.range (portCount s.variant)).find? (fun n => (s.gport n).up && onlyMgmt s n && (s.gport n).peer = p.dst)
  if direct.isSome && p.dst ≠ identityOf s then leaveBy s (direct.getD 0) p
  else if p.det && !memberThere s p.detMember then .drop 6
  else if p.det && p.detMember ≠ memberNo s then
    if viewUp s (memberNo s) (localPort (memberNo s) p.detMember) then leaveBy s (localPort (memberNo s) p.detMember) { p with det := false }
    else .drop 8
  else
    let p := { p with det := false, viaDone := p.viaDone || (p.viaValid && p.viaGroup = s.tick.group) }
    let target := if p.viaValid && !p.viaDone then p.viaGroup else groupOf p.dst
    let mine := fun (g : Nat) => !fromLocal || g / 6 = memberNo s
    if p.dst = identityOf s then .keep
    else if target = s.tick.group then if fromLocal then .drop 8 else hopTo s p (memberOf p.dst) false
    else firstHop ((portOrder s p q ((upPorts s target).filter mine)).map (globalHop s p target))

/-- The via group a source chooses (R325), or none. -/
def viaFor (s : State) (p : Packet) : Option Nat :=
  let d := groupOf p.dst
  let g := s.tick.group
  let minimal := upPorts s d
  let load := sumN (minimal.map (queuedAt s []))
  let crowded := (p.tc = 2 || p.tc = 3) && !p.ordered && bit s.regs.glCtl.toNat 16
    && rf s.regs.glCtl 15 8 * Config.portQueue < load * 100
  if d = g || !(minimal.isEmpty || crowded) then none
  else
    (((List.range 32).filter (fun i => i ≠ g && i ≠ d && !(i < g && i < d) && !(upPorts s i).isEmpty)).foldl (fun b i =>
      let n := sumN ((upPorts s i).map (queuedAt s []))
      match b with
      | none => some (i, n)
      | some x => if n < x.2 then some (i, n) else some x) (none : Option (Nat × Nat))).map (·.1)

/-! ## Reports and ports that go down (R324, R329) -/

/-- The states of this device's ports go to every member of its group that a local port is cabled to (R320, R324). -/
def State.reportPorts (s : State) : State :=
  let l := (List.range (portCount s.variant)).map (fun p => (p, (s.gport p).up))
  let to' := (s.gelcon.ports.filter (fun p => p.1 < 15 && p.2.cabled ≠ 0)).map (fun p => s.tick.group % 32 * 16 + (memberNo s + p.1 + 1) % 16)
  s.onGelcon (fun g => { g with mgmtOut := g.mgmtOut ++ to'.map (fun d => (d, MgmtMsg.portStates (memberNo s) l)) })

/-! ## Sending (R318) -/

/-- Notes an ERR: cause, offending type and tag (Table 14-8). -/
def State.noteErr (s : State) (cause ptype tag : Nat) : State := s.onGelcon (fun g => { g with errs := g.errs ++ [(cause, ptype, tag)] })

/-- Sends a packet of this device by its route; one with no next hop is dropped, which its source, this device, notes (R326). -/
def State.sendPacket (s : State) (p : Packet) : State :=
  let p := { p with src := identityOf s, hop := 0, hops := 0, det := false, viaDone := false }
  let p := match viaFor s p with | none => p | some i => { p with viaValid := true, viaGroup := i }
  match route s p [] false with
  | .out port q => (s.onGelcon (fun g => { g with outbox := g.outbox ++ [q] })).queueFlits port (packetFlits p q false false)
  | .drop c => s.noteErr c p.ptype p.tag
  | .keep => s

/-- Bytes padded with zeros to a multiple of 8. -/
def pad8 (bs : List Byte) : List Byte := bs ++ List.replicate ((8 - bs.length % 8) % 8) 0

/-- Sends a message to an identity, split into packets of at most 4,096 B that carry one tag and their offsets from a base. -/
def State.sendMsg (s : State) (dst ptype tc base handle : Nat) (ordered : Bool) (payload : List Byte) : State :=
  let tag := s.gelcon.nextTag
  let s := s.onGelcon (fun g => { g with nextTag := (tag + 1) % two32 })
  let bs := pad8 payload
  (chunks 4096 (max 1 (ceilDiv bs.length 4096)) bs).zipIdx.foldl (fun t c =>
    t.sendPacket { ptype := ptype, tc := tc, ordered := ordered, dst := dst, tag := tag, addr := base + 4096 * c.2, handle := handle, payload := c.1 }) s

/-- An ERR answers a packet; none for an ERR packet, nor to a source that does not exist (Table 14-8, R330). -/
def State.sendErr (s : State) (p : Packet) (cause : Nat) : State :=
  if p.ptype = 0x3E || 512 ≤ p.src then s
  else s.sendMsg p.src 0x3E 3 0 0 false (leBytes 1 cause ++ leBytes 1 p.ptype ++ leBytes 2 0 ++ leBytes 4 p.tag)

/-! ## Ports that go down (R329) -/

/-- A packet that this device holds takes its way again, as R324 to R326 now choose it; one with no next hop is dropped and answered with an
ERR (R326). -/
def State.sendAgain (s : State) (f : Flit) : State :=
  match f.packet with
  | none => s
  | some p =>
    match route s p [] f.fromLocal with
    | .out port q => s.queueFlits port (packetFlits p q f.forwarded f.fromLocal)
    | .drop c => if p.src = identityOf s then s.noteErr c p.ptype p.tag else s.sendErr p c
    | .keep => s

/-- A port goes down: its resend buffer is discarded, its state is reported, and the packets of which it has sent nothing are routed anew
(R329). -/
def State.portFalls (s : State) (p : Nat) (f : Port → Port) : State :=
  let old := s.gport p
  let t := s.modPort p (fun g => f { g with up := false, resend := [], txq := [], held := [] })
  if old.up then old.txq.foldl State.sendAgain t.reportPorts else t

/-! ## Violations (R330, R331) -/

/-- Counts a violation toward a port's window; above the threshold the port is quarantined. -/
def State.violate (s : State) (p : Nat) : State :=
  let r := s.regs.glViol
  let s := s.countPort p (fun c => { c with violations := inc64 c.violations })
  let s := s.modPort p (fun g =>
    if g.violStart + rf r 31 16 * 1000000 ≤ s.now then { g with viol := 1, violStart := s.now } else { g with viol := g.viol + 1 })
  if rf r 7 0 < (s.gport p).viol && !(s.gport p).quarantined then
    ((s.portFalls p (fun g => { g with quarantined := true, trained := false })).countPort p
      (fun c => { c with quarantines := (c.quarantines + 1) % 256 })).postEvent St.gelconQuarantine p 0
  else s

/-- The stream of a virtual channel is discarded until the next located header (R317). -/
def State.resyncVc (s : State) (p vc : Nat) : State := s.modPort p (modVc vc (fun v => { v with resync := true }))

/-- A packet that came by a port is dropped for a cause: an ERR to its source, and a violation is counted at the port, whose stream is
discarded to the next located header (R317, R330). -/
def State.badPacket (s : State) (port cause : Nat) (p : Packet) : State :=
  let s := s.sendErr p cause
  if cause = 0 || cause = 8 then s else (s.resyncVc port (2 * (p.tc % 4) + p.hop % 2)).violate port

/-- What comes of a packet that arrives by a port: none where the port is down, or where its virtual channel's stream is being discarded and no
flit has located the packet's header since the drop (R317, R331). -/
def State.arrives (s : State) (port : Nat) (p : Packet) : Option State :=
  let n := 2 * (p.tc % 4) + p.hop % 2
  if !(s.gport port).up then none
  else if (portVc (s.gport port) n).resync then if p.located then some (s.modPort port (modVc n (fun v => { v with resync := false }))) else none
  else some s

/-- Takes a packet of a type that came by a port and is for this device; a bad header drops it. -/
def State.receive (s : State) (port : Nat) (p : Packet) (ptype : Nat) (f : State → State) : State :=
  if p.ptype ≠ ptype || (onlyMgmt s port && ptype ≠ 0x30) then s
  else
    match s.arrives port p with
    | none => s
    | some t =>
      if headerCause t p ≠ 0 then t.badPacket port (headerCause t p) p
      else if p.dst ≠ identityOf s then t
      else f t

/-- A TC0 message of the tick's commit arrives: it lands in the TC0 area of 4 MiB, with a header for each of its packets, and is dropped where
that is full; a port that is down brings none (R319, R331). -/
def State.tc0In (s : State) (port : Nat) (payload : List Byte) (f : State → State) : State :=
  let n := payload.length + 32 * max 1 (ceilDiv payload.length 4096)
  if !(s.gport port).up || 4194304 < s.gelcon.tc0Used + n then s
  else f (s.onGelcon (fun g => { g with tc0Used := g.tc0Used + n }))

end Sys2Proof.Machine
end

