-- ==== Sys2Proof/Machine/Links.lean ====
section
/-! DEFINITION. Gelcon links: what each flit does at a port (R310 to R315, R317, R322, R328), the timers of a port, training and
lanes (R322, R328, R329, R337), transit packets (R319, R324), ERR packets and partner violations (R330, R331).
Readings of the spec: logs 11, 12. -/

namespace Sys2Proof.Machine

open Sys2Proof

/-- Room in a virtual channel's transit partition of 2 MiB, in flits: what waits at the ports in transit fills it (R319). -/
def transitRoom (s : State) (n : Nat) : Nat :=
  8192 - sumN (s.gelcon.ports.map (fun p => (p.2.txq.filter (fun f => f.forwarded && f.vc = n)).length))

/-- Flits of one virtual channel that waited at a port for transit room leave its buffer as far as there is room; what room is left. -/
def freeVc (p : Nat) (q : State × List Nat) (n : Nat) : State × List Nat :=
  let k := min (portVc (q.1.gport p) n).buffered (nth q.2 n 0)
  (if k = 0 then q.1 else q.1.modPort p (fun g => leaveBuffer n k (modVc n (fun v => { v with buffered := v.buffered - k }) g)), q.2.set n (nth q.2 n 0 - k))

/-- Owed credits are returned where 16 of one virtual channel are owed (R315). -/
def State.returnMany (s : State) (p : Nat) : State := if (s.gport p).vcs.any (fun v => 16 ≤ v.2.owed) then s.returnCredits p else s

/-- Flits that waited for transit room leave their buffers as far as there is room for all of them, port by port, and their credits are owed
and returned (R315, R319). -/
def State.freeTransit (s : State) : State :=
  let ps := (s.gelcon.ports.filter (fun p => p.2.vcs.any (fun v => 0 < v.2.buffered))).map (·.1)
  let t := (ps.foldl (fun q p => (List.range 8).foldl (freeVc p) q) (s, (List.range 8).map (transitRoom s))).1
  ps.foldl State.returnMany t

/-! ## Receiving a flit -/

/-- A bad CRC, or a seq other than the one expected: a sequence gap is counted and a NAK sent, once until the seq arrives (R312). -/
def State.gap (s : State) (p : Nat) : State :=
  if (s.gport p).nakWait then s
  else ((s.countPort p (fun c => { c with seqGaps := inc64 c.seqGaps })).modPort p (fun g => { g with nakWait := true })).sendNak p 0 0

/-- The ack field: flits up to it leave the resend buffer (R312). -/
def takeAck (now : Nat) (b : List Byte) (g : Port) : Port :=
  if flAckValid b && g.resend.any (fun f => f.seq = flAck b) then
    { g with acked := flAck b, ackAt := now, resend := (g.resend.dropWhile (fun f => f.seq ≠ flAck b)).drop 1 }
  else g

/-- The credit field: the cumulative count of its virtual channel (R314, R315). -/
def takeCredit (b : List Byte) (g : Port) : Port :=
  if bit (flCredit b) 31 then modVc (bits (flCredit b) 30 28) (fun v => { v with allowed := bits (flCredit b) 15 0 }) g else g

/-- A sequenced flit is accepted: the next seq is expected, and at 32 unacknowledged flits it is acknowledged (R312). -/
def State.accept (s : State) (p : Nat) (b : List Byte) : State :=
  let s := (s.countPort p (fun c => { c with flitsRx := inc64 c.flitsRx })).modPort p (fun g => { g with expect := (g.expect + 1) % 4096, lastIn := some (flSeq b), nakWait := false, ackOwed := g.ackOwed + 1 })
  if 32 ≤ (s.gport p).ackOwed then s.sendAck p else s

/-- A control flit with nonzero reserved bytes is ignored and counted (Table 14-10, cause 0x0A). -/
def State.control (s : State) (p : Nat) (clean : Bool) (k : State → State) : State := if clean then k s else s.violate p

/-- The packet a DATA flit belongs to at its start is urgent: that of the header at its first byte, else the one under way. -/
def flMarked (b : List Byte) (v : VcState) : Bool := if flFirst b = 0 then bit (field (flData b) 1 1) 2 else v.marked

/-- The packet under way after a DATA flit is urgent. -/
def nextMarked (b : List Byte) (v : VcState) : Bool := if flFirst b = 0xFF then v.marked else bit (field (flData b) (8 * flFirst b + 1) 1) 2

/-- The packet a DATA flit belongs to at its start is for this device, and the one under way after it is. -/
def flHere (id : Nat) (b : List Byte) (v : VcState) : Bool := if flFirst b = 0 then field (flData b) 2 2 % 512 = id else v.here
def nextHere (id : Nat) (b : List Byte) (v : VcState) : Bool :=
  if flFirst b = 0xFF then v.here else field (flData b) (8 * flFirst b + 2) 2 % 512 = id

/-- A DATA flit in order: with no credit left, or unmarked with 64 left on VC2 or VC3, it is an overrun; else it leaves the
buffer at once and its credit is owed, unless it is in transit and its partition is full (R314, R315, R319, Table 14-10; log 11). -/
def State.dataFlit (s : State) (p : Nat) (b : List Byte) : State :=
  let n := flVc b
  let v := portVc (s.gport p) n
  let left := (v.granted + 65536 - v.received) % 65536
  if !(s.gport p).up || v.dropping then s
  else if left = 0 || ((n = 2 || n = 3) && !flMarked b v && left ≤ 64) then
    ((s.modPort p (modVc n (fun v => { v with dropping := true }))).sendNak p 1 n).violate p
  else
    let id := identityOf s
    let keep := b2n (!flHere id b v && transitRoom s n = 0)
    let s := s.modPort p (modVc n (fun v => { v with
      received := (v.received + 1) % 65536, buffered := v.buffered + keep, marked := nextMarked b v, here := nextHere id b v }))
    (s.modPort p (leaveBuffer n (1 - keep))).returnMany p

/-- A virtual channel restarts its counts as at link-up: as the sender's VC_RESET leaves them (log 12). -/
def restartSend (n : Nat) (v : VcState) : VcState := { v with sent := 0, allowed := vcDedicated n }
def restartReceive (n : Nat) (v : VcState) : VcState :=
  { v with received := 0, granted := vcDedicated n, owed := 0, lent := 0, buffered := 0, dropping := false, resync := true }

/-- What a sequenced flit carries, once it is accepted: DATA, the cumulative credits of the eight virtual channels, or a VC_RESET, whose stream
restarts at the next located header (R315, R317, Tables 14-4 and 14-10). -/
def State.flitBody (s : State) (p : Nat) (b : List Byte) : State :=
  let d := flData b
  if flType b = 1 then s.dataFlit p b
  else if flType b = 2 then s.control p (allZero (d.drop 16)) (fun s =>
    s.modPort p (fun g => (List.range 8).foldl (fun g n => modVc n (fun v => { v with allowed := field d (2 * n) 2 }) g) g))
  else s.control p (allZero (d.drop 1) && field d 0 1 < 8) (fun s => s.modPort p (modVc (field d 0 1) (restartReceive (field d 0 1))))

/-! ## Lanes and deskew (R309, R311, R328) -/

/-- Frame count a is behind frame count b, in 32 bits that wrap. -/
def frameBehind (a b : Nat) : Bool := let d := (b % two32 + two32 - a % two32) % two32; d ≠ 0 && decide (d < 2147483648)

/-- Some active lane of a port has not come to a frame count. -/
def laneBehind (g : Port) (n : Nat) : Bool := (List.range 4).any (fun l => bit g.laneMask l && frameBehind (tabGetD l 0 g.frames) n)

/-- The lane mask a port has or is to have. -/
def maskNext (g : Port) : Nat := (g.laneAt.map (·.1)).getD g.laneMask

/-- The mask that a LANE exchange has named holds from its frame count on; at width 0 the port is down (R328, R329). -/
def State.takeMask (s : State) (p : Nat) : State :=
  match (s.gport p).laneAt with
  | none => s
  | some (mask, frame) =>
    if mask = 0 then s.portFalls p (fun g => { g with trained := false, laneMask := 0, laneAt := none })
    else if (s.gport p).frames.any (fun x => bit (s.gport p).laneMask x.1 && !frameBehind x.2 frame) then
      s.modPort p (fun g => { g with laneMask := mask, laneAt := none })
    else s

/-- A port's lane mask is to change from a frame count on. -/
def State.setLanes (s : State) (p mask frame : Nat) : State := (s.modPort p (fun g => { g with laneAt := some (mask, frame) })).takeMask p

/-- A flit comes in a frame of a lane: the frame word's count is noted, and what waits for it happens. -/
def State.seeFrame (s : State) (p : Nat) (f : FlitIn) : State := (s.modPort p (fun g => { g with frames := tabPut f.lane (f.frame % two32) g.frames })).takeMask p

/-- A sequenced flit that is the one expected delivers its ack and credit fields and is accepted with what it carries (R312). -/
def State.inOrderFlit (s : State) (p : Nat) (b : List Byte) : State :=
  (((s.modPort p (fun g => takeCredit b (takeAck s.now b g))).accept p b).flitBody p b)

/-- Flits that waited for other lanes' frames, in seq order: the one expected is accepted; one that no lane can still bring forward is a gap
(R311, R312). -/
def drainHeld (p : Nat) : Nat → State → State
  | 0, s => s
  | n + 1, s =>
    let g := s.gport p
    match g.held.find? (fun h => flSeq h.2 = g.expect) with
    | some h => drainHeld p n ((s.modPort p (fun g => { g with held := g.held.erase h })).inOrderFlit p h.2)
    | none =>
      match g.held.find? (fun h => !laneBehind g h.1) with
      | some h => drainHeld p n ((s.modPort p (fun g => { g with held := g.held.erase h })).gap p)
      | none => s

/-- A flit of a type arrives at a port that has trained, with the codewords that the FEC corrected and left uncorrected since the last one: an
uncorrected one invalidates it, and it is discarded (R309). A good unsequenced one delivers its ack and credit fields and what its type
carries. A good sequenced one is taken in seq order across the lanes: one that is not the one expected waits while an active lane's frames
are behind its own, and is a gap where none is (R311, R312). One of a reserved type is ignored and counted (Table 14-10, cause 0x0A). -/
def State.flitIn (s : State) (p ft : Nat) (f : FlitIn) (k : State → State) : State :=
  let b := f.bytes
  if !(s.gport p).trained || (s.gport p).quarantined then s
  else
    let s := (s.countPort p (fun c => { c with fecCorrected := add64 c.fecCorrected f.fec.1, fecUncorrectable := add64 c.fecUncorrectable f.fec.2 })).seeFrame p f
    if 0 < f.fec.2 then s
    else if !flCrcOk b then (s.countPort p (fun c => { c with crcErrors := inc64 c.crcErrors })).gap p
    else if 7 ≤ flType b then s.violate p
    else if flType b ≠ ft then s
    else
      let t :=
        if !sequenced ft then k (s.modPort p (fun g => takeCredit b (takeAck s.now b g)))
        else if flSeq b = (s.gport p).expect then s.inOrderFlit p b
        else if laneBehind (s.gport p) f.frame then s.modPort p (fun g => { g with held := g.held ++ [(f.frame, b)] })
        else s.gap p
      ((drainHeld p (t.gport p).held.length t).pump p).freeTransit

/-- FLIT_DATA: a DATA flit is accepted in order, or discarded with a NAK (R312, R314). -/
def execFlitData (t port : Nat) (f : FlitIn) (s : State) : Host.Outcome State Fault Refusal :=
  .next ((s.atTime t).flitIn port 1 f (fun s => s))

/-- FLIT_IDLE: delivers its ack and credit fields (R310). -/
def execFlitIdle (t port : Nat) (f : FlitIn) (s : State) : Host.Outcome State Fault Refusal :=
  .next ((s.atTime t).flitIn port 0 f (fun s => s))

/-- FLIT_CREDIT: the cumulative credits of the eight virtual channels (Table 14-4, R315). -/
def execFlitCredit (t port : Nat) (f : FlitIn) (s : State) : Host.Outcome State Fault Refusal :=
  .next ((s.atTime t).flitIn port 2 f (fun s => s))

/-- FLIT_NAK: every flit from the named seq is sent again; for cause 0x01 the virtual channel it names is reset (R312, Table
14-10). -/
def execFlitNak (t port : Nat) (f : FlitIn) (s : State) : Host.Outcome State Fault Refusal :=
  let d := flData f.bytes
  .next ((s.atTime t).flitIn port 3 f (fun s => s.control port (allZero (d.drop 4)) (fun s =>
    let n := field d 1 1
    if field d 0 1 = 1 && n < 8 then
      (s.modPort port (fun g => { modVc n (restartSend n) g with txq := g.txq.filter (fun f => !(f.ftype = 1 && f.vc = n)) })).queueFlits port
        [{ ftype := 4, data := leBytes 1 n }]
    else if field d 0 1 = 0 then s.resendFrom port (field d 2 2 % 4096)
    else s)))

/-- FLIT_VC_RESET: the stream of a virtual channel restarts at the next located header (R317, Table 14-10). -/
def execFlitVcReset (t port : Nat) (f : FlitIn) (s : State) : Host.Outcome State Fault Refusal :=
  .next ((s.atTime t).flitIn port 4 f (fun s => s))

/-! ## IDENT (R320 to R322, Table 14-7) -/

/-- Lane tags as they come on the active lanes of a port, in ascending order: each names its lane, and the peer's port (R309, R322). A
global port's peer is on the member and port its role stands for, or on a spare port. -/
def tagsOk (s : State) (p : Nat) (d tags : List Byte) : Bool :=
  let lanes := (List.range 4).filter (bit (s.gport p).laneMask)
  let ports : List Nat := tags.map (fun t => t.toNat / 8)
  let role := field d 3 1
  let m := bits (field d 0 2) 3 0
  decide (tags.map (fun t => t.toNat % 8) = lanes) && ports.all (fun (n : Nat) => n = ports.headD 0) &&
    ports.all (fun (n : Nat) => if p < 15 then decide (n = 14 - p) else (n = 15 + role % 6 && m = role / 6) || (m = 15 && 18 ≤ n && n ≤ 20))

/-- What a peer's IDENT must say on a port: kind, role, and its group and member where they are required. -/
def identOk (s : State) (p : Nat) (d : List Byte) : Bool :=
  let g := bits (field d 0 2) 8 4
  let m := bits (field d 0 2) 3 0
  let kind := field d 2 1
  let role := field d 3 1
  if p < 15 then
    kind = 0 && role = 14 - p && m = (memberNo s + p + 1) % 16 && (g = s.tick.group || g = 31 || s.tick.group = 31)
  else
    let r := roleOf s p
    kind = 1 && r < 93 && role = 30 - r % 31 + 31 * (r / 31) && (g = peerGroup s p || g = 31 || s.tick.group = 31)

/-- This device's own IDENT data area for a port. -/
def ownIdent (s : State) (p : Nat) : List Byte :=
  leBytes 2 (identityOf s) ++ leBytes 1 (if p < 15 then 0 else 1) ++ leBytes 1 (if p < 15 then p else roleOf s p) ++ leBytes 1 (b2n (hasGlobal s.variant))

/-- A port is miscabled: it stays down and the event is raised. -/
def State.miscable (s : State) (p : Nat) : State :=
  (s.portFalls p (fun g => { g with miscabled := true })).postEvent St.gelconMiscabled p 0

/-- FLIT_IDENT: the port comes up, or is miscabled (R322). The tags are those of the frame words on its active lanes. -/
def execFlitIdent (t port : Nat) (f : FlitIn) (tags : List (BitVec 8)) (s : State) : Host.Outcome State Fault Refusal :=
  let d := flData f.bytes
  .next ((s.atTime t).flitIn port 5 f (fun s =>
    if tagsOk s port d tags && identOk s port d then
      let was := (s.gport port).up
      let s := s.modPort port (fun g => { g with up := g.laneMask ≠ 0, miscabled := false, peer := field d 0 2 % 512 })
      if was then s else s.reportPorts
    else s.miscable port))

/-! ## Lanes (R328) -/

/-- Lanes of a port (Table 14-1). -/
def portLanes (p : Nat) : Nat := if p < 15 then 4 else 2

/-- Data area of a LANE flit. -/
def laneData (mask frame : Nat) : List Byte := leBytes 1 mask ++ leBytes 4 frame

/-- FLIT_LANE: the port takes the mask the peer names from the frame count it names, and answers with the same where its own differs (R328). -/
def execFlitLane (t port : Nat) (f : FlitIn) (s : State) : Host.Outcome State Fault Refusal :=
  let d := flData f.bytes
  .next ((s.atTime t).flitIn port 6 f (fun s => s.control port (allZero (d.drop 5)) (fun s =>
    let mask := field d 0 1 % 2 ^ portLanes port
    if mask = maskNext (s.gport port) then s.setLanes port mask (field d 1 4)
    else (s.sendPlain port 6 (laneData mask (field d 1 4))).setLanes port mask (field d 1 4))))

/-- LANE_RETIRE: a lane fails training, which no codewords say, or more than 16 of its codewords are uncorrectable within 1 ms: the mask
without it is exchanged (R328). -/
def execLaneRetire (t port : Nat) (l : LaneReport) (frame : Nat) (s : State) : Host.Outcome State Fault Refusal :=
  let s := s.atTime t
  let g := s.gport port
  .next (
    if bit (maskNext g) l.lane && l.lane < portLanes port && (l.codewords = 0 || 16 < l.codewords) then
      let mask := maskNext g - 2 ^ l.lane
      let s := (s.modPort port (fun g => { g with retired := setAdd l.lane g.retired })).countPort port
        (fun c => { c with laneRetirements := (c.laneRetirements + 1) % 65536 })
      (s.sendPlain port 6 (laneData mask frame)).setLanes port mask frame
    else s)

/-- LANE_RETRAIN: a retired lane that passes rejoins through the same exchange; the retrained port exchanges IDENT again (R322,
R328). -/
def execLaneRetrain (t port lane frame : Nat) (ok : Bool) (s : State) : Host.Outcome State Fault Refusal :=
  let s := s.atTime t
  let g := s.gport port
  .next (
    if ok && g.retired.contains lane && g.trained && !g.quarantined then
      let mask := if bit (maskNext g) lane then maskNext g else maskNext g + 2 ^ lane
      let s := s.modPort port (fun g => { g with retired := setDel lane g.retired })
      ((s.sendPlain port 6 (laneData mask frame)).setLanes port mask frame).sendPlain port 5 (ownIdent s port)
    else s)

/-! ## Training and ports that go down (R322, R329, R337) -/

/-- A link die of a port has failed (Table 14-1). -/
def linkDieBad (s : State) (p : Nat) : Bool :=
  if p < 15 then s.faults.lkFailed.contains (p / 2)
  else if p < 19 then s.faults.lkFailed.contains (2 * (p - 15)) && s.faults.lkFailed.contains (2 * (p - 15) + 1)
  else s.faults.lkFailed.contains 7

/-- Virtual channels of a port at link-up: each starts at its dedicated flits (R314). -/
def freshVcs : List (Nat × VcState) := (List.range 8).map (fun n => (n, { allowed := vcDedicated n, granted := vcDedicated n }))

/-- PORT_TRAINED: training completes on the lanes of a mask: sequence numbers and credits start anew and an IDENT is sent. The
port carries traffic once the peer's IDENT agrees (R314, R322, R337). -/
def execPortTrained (t port lanes : Nat) (s : State) : Host.Outcome State Fault Refusal :=
  let s := s.atTime t
  let old := s.gport port
  let mask := lanes % 2 ^ portLanes port
  .next (
    if port < portCount s.variant && mask ≠ 0 && bit s.regs.glCtl.toNat 0 && !old.quarantined && !linkDieBad s port && s.start.state ≠ .off then
      let fresh : Port := { trained := true, laneMask := mask, cabled := popCount mask 4, viol := old.viol, violStart := old.violStart
                            retired := (List.range (portLanes port)).filter (fun l => !bit mask l), vcs := freshVcs }
      (s.portFalls port (fun _ => fresh)).sendPlain port 5 (ownIdent s port)
    else s)

/-- GELCON_PORT_DOWN: a port at width 0 goes down and its resend buffer is discarded (R329). -/
def execGelconPortDown (t port : Nat) (s : State) : Host.Outcome State Fault Refusal :=
  let s := s.atTime t
  .next (if (s.gport port).trained then s.portFalls port (fun g => { g with trained := false, laneMask := 0 }) else s)

/-! ## Timers -/

/-- NAK_REPEAT: the NAK is repeated every 1 µs until the expected seq arrives (R312). -/
def execNakRepeat (t port : Nat) (s : State) : Host.Outcome State Fault Refusal :=
  let s := s.atTime t
  .next (
    let g := s.gport port
    if g.nakWait && g.trained && g.nakAt + 1000 ≤ s.now then s.sendNak port 0 0 else s)

/-- RESEND_TIMEOUT: after 4 µs without a rise in ack everything from the oldest unacknowledged flit is sent again (R312). -/
def execResendTimeout (t port : Nat) (s : State) : Host.Outcome State Fault Refusal :=
  let s := s.atTime t
  .next (
    match (s.gport port).resend with
    | [] => s
    | f :: _ => if (s.gport port).ackAt + 4000 ≤ s.now then s.resendFrom port f.seq else s)

/-- ACK_TIMER: what has been accepted is acknowledged (R312). -/
def execAckTimer (t port : Nat) (s : State) : Host.Outcome State Fault Refusal :=
  let s := s.atTime t
  .next (if (s.gport port).trained then s.sendAck port else s)

/-- CREDIT_RETURN_TIMER: owed credits are returned, with what the port adds of its shared pool (R314, R315). -/
def execCreditReturnTimer (t port : Nat) (s : State) : Host.Outcome State Fault Refusal :=
  let s := s.atTime t
  .next (if (s.gport port).trained then (s.draw.modPort port (lendPool s.freeCtr)).returnCredits port else s)

/-! ## Violations met above the flits (R330, Table 14-10) -/

/-- PARTNER_VIOLATION: a violation of Table 14-10 met on a port, answered by its cause and counted. -/
def execPartnerViolation (t port cause vc : Nat) (p : Packet) (s : State) : Host.Outcome State Fault Refusal :=
  let s := s.atTime t
  .next (
    if !(s.gport port).trained || (s.gport port).quarantined then s
    else if cause = 0 then s.gap port
    else if cause = 1 then
      if 8 ≤ vc then s else ((s.modPort port (modVc vc (fun v => { v with dropping := true }))).sendNak port 1 vc).violate port
    else if cause = 7 || cause = 10 then s.violate port
    else if cause ≤ 9 then s.badPacket port cause p
    else s)

/-! ## Transit (R319, R324) and ERR packets -/

/-- PACKET_FORWARD: a packet on its way elsewhere takes its next hop; one with none, or a bad header, is dropped and answered. -/
def execPacketForward (t port : Nat) (p : Packet) (queues : List (Nat × Nat)) (s : State) : Host.Outcome State Fault Refusal :=
  let s := s.atTime t
  .next (
    if onlyMgmt s port then s
    else
      match s.arrives port p with
      | none => s
      | some s =>
        if headerCause s p ≠ 0 then s.badPacket port (headerCause s p) p
        else
          match route s p queues (decide (port < 15)) with
          | .keep => s
          | .drop c => s.badPacket port c p
          | .out q h => (s.onGelcon (fun g => { g with outbox := g.outbox ++ [h] })).queueFlits q (packetFlits p h true (decide (port < 15))))

/-- ERR: a cause, an offending type and a tag, from a partner that dropped a packet of this device (Table 14-8). -/
def execErr (t : Nat) (a : Arrival) (s : State) : Host.Outcome State Fault Refusal :=
  let p := a.pkt
  .next ((s.atTime t).receive a.port p 0x3E (fun s =>
    s.noteErr (field p.payload 0 1) (field p.payload 1 1) (field p.payload 4 4)))

/-- Holder under which SHIP blocks stand for the receive space of a sharded row of a tick: a row's tick and slot (R102). -/
def rowHolder (tick slot : Nat) : Nat := 2 ^ 65 + tick % 4 * 2 ^ 21 + slot

/-- A holding is receive space of a sharded row. -/
def rowHolding (h : Holding) : Bool := h.cls = .ship && decide (2 ^ 65 ≤ h.holder) && decide (h.holder < 2 ^ 66)

/-- Outside every block reserved to it an engine's write is discarded, counted and raised as STORE_BOUNDS (R208). -/
def State.outOfBounds (s : State) (a : Nat) : State :=
  (s.count (fun c => { c with store := { c.store with storeBounds := inc64 c.store.storeBounds } })).postEvent St.storeBounds 0 (a / 65536)

/-- The job that runs includes class 7: its TC1 packets are urgent (R107, R314). -/
def urgentNow (s : State) : Bool := s.plan.jobs.any (fun j => j.active && j.urgent)

/-- The job of a row whose receive space an address lies in waits for one ACT_DATA packet less (R104). -/
def State.actArrived (s : State) (a : Nat) : State :=
  match s.store.held.find? (fun h => rowHolding h && h.first ≤ a / 65536 && a / 65536 < h.first + h.blocks) with
  | none => s
  | some h =>
    match s.plan.rows.find? (fun r => r.slot = h.holder % 2 ^ 21) with
    | none => s
    | some r => s.modJob r.modelSlot (fun j => { j with waits := j.waits - 1 })

/-- ACT_DATA: partial or activation bytes for this device are written at addr inside its receive reservations; outside them the write is
discarded as R208 lays down, and is a violation: a payload that its protocol discards (R102, R318, R319, Table 14-10, cause 0x07). A packet of this device's own for another is sent, urgent where the job that runs includes class 7
(R107). -/
def execActData (t : Nat) (a : Arrival) (s : State) : Host.Outcome State Fault Refusal :=
  let p := a.pkt
  .next (
    let s := s.atTime t
    if p.src = identityOf s && p.dst ≠ identityOf s && p.ptype = 0x10 then
      if headerCause s p = 0 && s.plan.jobs.any (fun j => j.active) then s.sendPacket { p with urgent := urgentNow s } else s
    else
      s.receive a.port p 0x10 (fun s =>
        if holdsIn s rowHolding p.addr p.payload.length then (s.putStore p.addr p.payload).actArrived p.addr else (s.outOfBounds p.addr).violate a.port))

end Sys2Proof.Machine
end

