-- ==== Sys2Proof/Machine/Bank.lean ====
section
/-! DEFINITION. Bank units and in-bank attention (R113 to R144): command words, their checks, the page pass, drains, copies,
gathers, fills, scrubs, the cache append buffer, refresh, and the combination of a layer's drain records.
Readings of the spec: logs 29, 30. -/

namespace Sys2Proof.Machine

open Sys2Proof

/-! ## Command words (Tables 5-5 to 5-7) -/

/-- Fields of a bank-unit command word. -/
def buOp (w : U128) : Nat := bits w.toNat 127 120
def buDies (w : U128) : Nat := bits w.toNat 119 104
def buBanks (w : U128) : Nat := bits w.toNat 103 40
def buRow (w : U128) : Nat := bits w.toNat 39 25
def buSets (w : U128) : Nat := bits w.toNat 18 11
def buCount (w : U128) : Nat := bits w.toNat 10 4
def buVariant (w : U128) : Nat := bits w.toNat 3 0
/-- Fields of an extension word. -/
def bxRow (x : U128) : Nat := bits x.toNat 127 113
def bxSp (x : U128) : Nat := bits x.toNat 112 95

/-- Positions of the bits of a mask below n, ascending. -/
def maskBits (m n : Nat) : List Nat := (List.range n).filter (fun i => bit m i)

/-- Die-local bank indices a variant has (R14, R123). -/
def dieBanks (v : Variant) : Nat := banksOf v / 16

/-- Logical banks of a command's scope, ascending by core die and then die-local index (R123, R127, R260). -/
def buScope (v : Variant) (w : U128) : List Nat :=
  (maskBits (buDies w) 16).flatMap (fun d => (maskBits (buBanks w) 64).map (fun j => d * dieBanks v + j))

/-- Sets named by a command. -/
def buSetList (w : U128) : List Nat := maskBits (buSets w) 8

/-- Opcodes whose form is scatter (Table 5-7). -/
def buScatter (op : Nat) : Bool := op = 1 || op = 2 || op = 11

/-- Opcodes that stream (Table 5-7). -/
def buStreams (op : Nat) : Bool := 5 = op || (7 ≤ op && op ≤ 10)

/-- The count a command may carry (Table 5-7). -/
def buCountOk (op n : Nat) : Bool :=
  if op = 7 then 1 ≤ n && n ≤ 12
  else if op = 8 then 1 ≤ n && n ≤ 16
  else if op = 9 || op = 10 then 1 ≤ n && n ≤ 24
  else n = 0

/-- The variant a command may carry (Table 5-5). -/
def buVariantOk (op v : Nat) : Bool :=
  if op = 5 then v = 1 || v = 2
  else if op = 8 then (v % 4 = 1 || v % 4 = 2) && 4 ≤ v
  else v = 0

/-- A payload keeps the fields that R118 and R141 fix: zero bytes, sflags, head, owner and qshift of a query set, bits [14:13] of a
gather entry. -/
def buPayloadOk (op : Nat) (bs : List Byte) : Bool :=
  if op = 1 then field bs 258 1 ≤ 31 && field bs 259 1 ≤ 1 && field bs 263 1 < 64 && field bs 268 4 < 2 ^ 20 && field bs 282 6 = 0
  else if op = 2 then (List.range 16).all (fun i => bits (field bs (2 * i) 2) 14 13 = 0)
  else true

/-- The bytes that payload words carry, least significant byte first. -/
def payloadBytes (l : List U128) : List Byte := l.flatMap (fun w => leBytes 16 w.toNat)

/-- The u16 values of a byte string. -/
def u16s (n : Nat) (bs : List Byte) : List (BitVec 16) := (List.range n).map (fun i => BitVec.ofNat 16 (field bs (2 * i) 2))

/-- The word keeps the opcode, mask and count rules (R122, R123). -/
def buWordOk (v : Variant) (op : Nat) (w : U128) : Bool :=
  buOp w = op && buCountOk op (buCount w) && buVariantOk op (buVariant w) && buBanks w < 2 ^ dieBanks v
    && (if buScatter op then (maskBits (buDies w) 16).length = 1 && (maskBits (buBanks w) 64).length = 1 else true)
    && (if op = 1 then (buSetList w).length = 1 else true)

/-- The extension word keeps its rules (Table 5-6). -/
def buExtOk (op : Nat) (x : U128) : Bool :=
  bits x.toNat 94 0 = 0 && (if op = 6 || op = 11 then bxRow x = 0 else bxSp x = 0)

/-! ## Bank units -/

/-- The state of a bank unit; one not listed is as reset (R113). -/
def State.bu (s : State) (cl b : Nat) : BankUnit := tabGetD b {} (s.bcl cl).units

/-- Changes a bank unit. -/
def State.modBu (s : State) (cl b : Nat) (f : BankUnit → BankUnit) : State :=
  s.modBcl cl (fun c => { c with units := tabUpd b {} f c.units })

/-- Changes every bank unit of a scope. -/
def State.modScope (s : State) (cl : Nat) (l : List Nat) (f : BankUnit → BankUnit) : State :=
  l.foldl (fun t b => t.modBu cl b f) s

/-- The accumulators and flags of a set; at reset all zero (R113). -/
def setAcc' (u : BankUnit) (i : Nat) : SetAcc := tabGetD i {} u.accs

/-- Appends a taint entry: the log holds 16, a further one sets the overflow bit (R134, R136). -/
def logTaint (e : TaintEntry) (u : BankUnit) : BankUnit :=
  if u.taints.length < 16 then { u with taints := u.taints ++ [e] } else { u with taintOvf := true }

/-! ## Page frames (R116, R117, Tables 5-2 to 5-4a) -/

/-- Head dimension of a head byte; 0 for the reserved code. -/
def headD (h : Nat) : Nat :=
  let c := bits h 5 4
  if c = 0 then 64 else if c = 1 then 128 else if c = 2 then 256 else 0

/-- Rows of the K plane of a frame: a format and dimension Table 5-2 does not list has none. -/
def planeRows (fmt d : Nat) : Nat :=
  if fmt = 1 then d / 32 else if fmt = 2 && d ≤ 128 then d / 16 else 0

/-- Rows of a frame. -/
def frameRows (fmt d : Nat) : Nat := 1 + 2 * planeRows fmt d

/-- Column of a plane that holds K element d of token t, and V element el of token t (Table 5-3). -/
def kCol (fmt d t : Nat) : Nat := if fmt = 1 then 2 * d + t / 64 else 4 * d + t / 32
def vCol (fmt dim t el : Nat) : Nat := if fmt = 1 then t * (dim / 64) + el / 64 else t * (dim / 32) + el / 32

/-- Place of a code inside the 32 bytes of its column: nibble index for the 4-bit format, byte index for INT8. -/
def kPlace (fmt t : Nat) : Nat := if fmt = 1 then t % 64 else t % 32
def vPlace (fmt el : Nat) : Nat := if fmt = 1 then el % 64 else el % 32

/-- The codeword the encoder wrote at a column: its data bytes and their check bytes (R13, R137, R383). -/
def State.codeword (s : State) (cl b r c : Nat) : List Byte := rsWord (s.getBytes (t1Addr cl b r (c * 32)) 32)

/-- The 36 bytes a read of a column returns. -/
def columnRead (s : State) (cl b : Nat) (bad : List BadColumn) (r c : Nat) : List Byte :=
  match bad.find? (fun x => x.bank = b && x.row = r && x.column = c) with
  | some x => slice x.word 0 36
  | none => s.codeword cl b r c

/-- The data bytes of a column as a bank unit takes them, with no corrector (R113, R134). -/
def rawCol (s : State) (cl b : Nat) (bad : List BadColumn) (r c : Nat) : List Byte := (columnRead s cl b bad r c).take 32

/-- The syndrome of a listed column is not zero. -/
def colWrong (x : BadColumn) : Bool := !rsClean (slice x.word 0 36)

/-- The correcting path reports a listed column as uncorrectable (R383). -/
def colLost (x : BadColumn) : Bool := (rsCorrect (slice x.word 0 36)).isNone

/-- The data bytes of a column as the controller's correcting path returns them; of an uncorrectable one, as read. -/
def fixedCol (s : State) (cl b : Nat) (bad : List BadColumn) (r c : Nat) : List Byte :=
  match bad.find? (fun x => x.bank = b && x.row = r && x.column = c) with
  | some x => ((rsCorrect (slice x.word 0 36)).getD x.word).take 32
  | none => s.getBytes (t1Addr cl b r (c * 32)) 32

/-- The code at a place of a column's bytes: 0 to 15 for the 4-bit format, 0 to 255 for INT8. -/
def codeAt (fmt : Nat) (col : List Byte) (place : Nat) : Nat :=
  if fmt = 1 then
    let v := (nth col (place / 2) 0).toNat
    if place % 2 = 0 then v % 16 else v / 16
  else (nth col place 0).toNat

/-- A page frame as read: its sidecar bytes and, per plane column, its data. -/
structure Frame where
  /-- sidecar bytes 0 to 607 -/
  side : List Byte
  /-- K-plane columns -/
  k : List (List Byte)
  /-- V-plane columns -/
  v : List (List Byte)
  deriving DecidableEq, Repr

/-- Fields of a frame's sidecar (Table 5-4a). -/
def Frame.fmt (f : Frame) : Nat := field f.side 0 1
def Frame.kind (f : Frame) : Nat := field f.side 1 1
def Frame.layer (f : Frame) : Nat := field f.side 2 1
def Frame.head (f : Frame) : Nat := field f.side 3 1
def Frame.dim (f : Frame) : Nat := headD f.head
def Frame.start (f : Frame) : Nat := field f.side 4 4
def Frame.owner (f : Frame) : Nat := field f.side 8 4 % 2 ^ 20
def Frame.domain (f : Frame) : Nat := field f.side 12 2
def Frame.cbk (f : Frame) : List Byte := slice f.side 64 16
def Frame.cbv (f : Frame) : List Byte := slice f.side 80 16
def Frame.kmant (f : Frame) (t : Nat) : Nat := field f.side (96 + 2 * t) 2
def Frame.vmant (f : Frame) (t : Nat) : Nat := field f.side (352 + 2 * t) 2

/-- Columns of a plane of so many rows from row r, by a way of reading columns. -/
def planeCols (rd : Nat → Nat → List Byte) (r rows : Nat) : List (List Byte) :=
  (List.range rows).flatMap (fun i => (List.range 64).map (fun c => rd (r + i) c))

/-- The frame at a row of a bank, by a way of reading its columns. -/
def readFrame (rd : Nat → Nat → List Byte) (row : Nat) : Frame :=
  let side := (List.range 19).flatMap (fun c => rd row c)
  let n := planeRows (field side 0 1) (headD (field side 3 1))
  { side := side, k := planeCols rd (row + 1) n, v := planeCols rd (row + 1 + n) n }

/-- Set i takes part in a pass of the frame in the format the command names (R116, R119). -/
def takesPart (f : Frame) (variant i : Nat) (q : QuerySet) : Bool :=
  f.fmt = variant && planeRows f.fmt f.dim ≠ 0 && f.kind ≤ 2 && q.valid && q.layer = f.layer && q.head.toNat = f.head
    && (variant = 1 || i ≤ 3) && (if f.kind = 1 then q.domain = f.domain else q.owner = f.owner)

/-- Token t of the frame is live for the set (R120). -/
def tokenLive (f : Frame) (q : QuerySet) (t : Nat) : Bool :=
  if f.kind = 2 then t < 64 && bit q.nodeMask.toNat t else f.start + t < q.limit

/-! ## The page pass (R126) -/

/-- The two's-complement nibble of an INT8 code's upper half, times 16 (R115). -/
def hiVal (c : Nat) : Int := (if 8 ≤ c / 16 then Int.ofNat (c / 16) - 16 else Int.ofNat (c / 16)) * 16

/-- K-phase product of a query element with a code: one table lookup for the 4-bit format, two summed for INT8. -/
def kTerm (fmt : Nat) (cb : List Byte) (q : Int) (code : Nat) : Int :=
  if fmt = 1 then q * i8 (nth cb code 0) else q * Int.ofNat (code % 16) + q * hiVal code

/-- V-phase table entry: (w x value) >> 7 toward zero, as i16. -/
def vEntry (w : Nat) (v : Int) : Int := (BitVec.ofInt 16 ((Int.ofNat w * v).tdiv 128)).toInt

/-- V-phase term of a code. -/
def vTerm (fmt : Nat) (cb : List Byte) (w code : Nat) : Int :=
  if fmt = 1 then vEntry w (i8 (nth cb code 0)) else vEntry w (Int.ofNat (code % 16)) + vEntry w (hiVal code)

/-- Sum over K elements for one token. -/
def kSum (f : Frame) (q : QuerySet) (t : Nat) : Int :=
  (List.range f.dim).foldl (fun a d =>
    a + kTerm f.fmt f.cbk (i8 (nth q.q d 0)) (codeAt f.fmt (nth f.k (kCol f.fmt d t) []) (kPlace f.fmt t))) 0

/-- The logit of a token, Q7.8 in log2 units. -/
def logit (f : Frame) (q : QuerySet) (t : Nat) (ssum : Int) : Int :=
  let x := (ssum * Int.ofNat (f.kmant t)).tdiv 65536
  sat ((x * Int.ofNat q.qmant.toNat).tdiv (2 ^ q.qshift)) (-32768) 32767

/-- The probability of a logit under a carried maximum, UQ4.12, and whether it flags over. -/
def probOf (exptab : List (BitVec 16)) (cmax y : Int) : Nat × Bool :=
  let e := cmax - y + 768
  let ovr := decide (e < 0)
  let n := if ovr then 0 else e.toNat
  (if 15 < n / 256 then 0 else (nth exptab (n % 256) 0).toNat / 2 ^ (n / 256), ovr)

/-- What a token leaves: its logit, probability, w, and flag. -/
structure TokenOut where
  /-- token -/
  t : Nat
  /-- logit -/
  y : Int
  /-- probability -/
  p : Nat
  /-- w of R126 -/
  w : Nat
  /-- OVERRANGE -/
  ovr : Bool
  deriving DecidableEq, Repr

/-- The live tokens of a pass for a set, those that keep holds. -/
def passTokens (f : Frame) (q : QuerySet) (exptab : List (BitVec 16)) (keep : Nat → Bool) : List TokenOut :=
  ((List.range 128).filter (fun t => tokenLive f q t && keep t)).map (fun t =>
    let y := logit f q t (kSum f q t)
    let p := probOf exptab q.cmax.toInt y
    { t := t, y := y, p := p.1, w := p.1 * f.vmant t / 65536, ovr := p.2 })

/-- What tokens add to accumulated element el, without the V columns that skip names. -/
def passElem (f : Frame) (l : List TokenOut) (skip : Nat → Bool) (el : Nat) : Int :=
  l.foldl (fun a o =>
    let c := vCol f.fmt f.dim o.t el
    if skip c then a else a + vTerm f.fmt f.cbv o.w (codeAt f.fmt (nth f.v c []) (vPlace f.fmt el))) 0

/-- Tokens added to a set's sums, maxima and flags; anyLive says that the frame has a live token for it, deferred or not (R127). -/
def addTokens (anyLive : Bool) (l : List TokenOut) (a : SetAcc) : SetAcc :=
  { a with
    psum := a.psum + BitVec.ofNat 32 (sumN (l.map (·.p)))
    omax := BitVec.ofInt 16 (l.foldl (fun m o => max m o.y) a.omax.toInt)
    overRange := a.overRange || l.any (·.ovr)
    live := a.live || anyLive }

/-- A contribution added to accumulator n of the 1,024 of a bank, set n / 128 and element n mod 128 (Table 5-8). With D = 256
elements 128 to 255 of set s fall in set s + 1, and those of set 7 nowhere (DESIGN CHOICE, log 30). -/
def addAcc (n : Nat) (v : Int) (accs : List (Nat × SetAcc)) : List (Nat × SetAcc) :=
  if 1024 ≤ n then accs
  else tabUpd (n / 128) {} (fun a =>
    let l := a.acc ++ List.replicate (128 - a.acc.length) 0
    { a with acc := l.modify (n % 128) (fun x => x + BitVec.ofInt 32 v) }) accs

/-- A frame passed for one set into a bank's accumulators: keep holds of the tokens summed, skip of the V columns left out. -/
def passSet (f : Frame) (i : Nat) (q : QuerySet) (exptab : List (BitVec 16)) (keep skip : Nat → Bool)
    (accs : List (Nat × SetAcc)) : List (Nat × SetAcc) :=
  let l := passTokens f q exptab keep
  (List.range f.dim).foldl (fun a el => addAcc (128 * i + el) (passElem f l skip el) a)
    (tabUpd i {} (addTokens ((List.range 128).any (tokenLive f q)) l) accs)

/-- Tokens a K-plane column covers (Table 5-3). -/
def deferredBy (fmt c t : Nat) : Bool := if fmt = 1 then t / 64 = c % 2 else t / 32 = c % 4

/-- The columns with a nonzero syndrome that a bank reads in n rows from row r, as (row offset, column). -/
def wrongCols (bad : List BadColumn) (b r n : Nat) : List (Nat × Nat) :=
  (bad.filter (fun x => x.bank = b && r ≤ x.row && x.row < r + n && x.column < 64 && colWrong x)).map (fun x => (x.row - r, x.column))

/-- The wrong columns of a plane, as plane column numbers. -/
def wrongPlane (bad : List BadColumn) (b r n : Nat) : List Nat := (wrongCols bad b r n).map (fun p => p.1 * 64 + p.2)

/-- The taint entries of a pass (Table 5-11): sidecar columns first; otherwise K columns, then V columns with the w of the sets
that take part. -/
def passTaints (f : Frame) (row b ord : Nat) (bad : List BadColumn) (ws : Nat → Nat → Nat) : List TaintEntry :=
  let n := planeRows f.fmt f.dim
  let sc := (wrongCols bad b row 1).filter (fun p => p.2 < 19)
  if !sc.isEmpty then sc.map (fun p => { column := p.2, rowOffset := 0, kind := 2, row := row, w := [], pass := ord })
  else
    (wrongPlane bad b (row + 1) n).map (fun c => { column := c % 64, rowOffset := 1 + c / 64, kind := 0, row := row, w := [], pass := ord }) ++
    (wrongPlane bad b (row + 1 + n) n).map (fun c =>
      { column := c % 64, rowOffset := 1 + n + c / 64, kind := 1, row := row, pass := ord,
        w := (List.range 8).map (fun i => BitVec.ofNat 16 (ws i (c / (if f.fmt = 1 then f.dim / 64 else f.dim / 32)))) })

/-- The eight tables of the V phase's step for token t: one table a set of 4-bit codes, or two a set of INT8 codes, for the low
nibble and for the signed high one (R115). -/
def stepTables (f : Frame) (wOf : Nat → Nat → Nat) (t : Nat) : List (List (BitVec 16)) :=
  let entry := fun (i : Nat) (v : Int) => BitVec.ofInt 16 (vEntry (wOf i t) v)
  (List.range 8).map (fun k => (List.range 16).map (fun j =>
    if f.fmt = 1 then entry k (i8 (nth f.cbv j 0))
    else if k % 2 = 0 then entry (k / 2) (Int.ofNat j) else entry (k / 2) (hiVal (16 * j))))

/-- One bank's pass of the frame at a row for the sets named. The pass count rises for every set of set_mask, whether it takes part or not:
R124 counts "any set in set_mask" and R119 says nothing of it (DESIGN CHOICE, log 29). The V phase ends with the tables of token 127 in front; the back
copies then hold those of token 126, which the last exchange moved there (R113, R115). -/
def passBank (s : State) (cl row variant : Nat) (sets : List Nat) (bad : List BadColumn) (b : Nat) (u : BankUnit) : BankUnit :=
  let f := readFrame (rawCol s cl b bad) row
  let n := planeRows f.fmt f.dim
  let kb := wrongPlane bad b (row + 1) n
  let vb := wrongPlane bad b (row + 1 + n) n
  let sideBad := (wrongCols bad b row 1).any (fun p => p.2 < 19)
  let part := if sideBad then [] else sets.filter (fun i => takesPart f variant i (tabGetD i {} u.sets))
  let keep := fun t => !kb.any (fun c => deferredBy f.fmt c t)
  let outs := fun i => if part.contains i then passTokens f (tabGetD i {} u.sets) u.exptab keep else []
  let wOf := fun i t => match (outs i).find? (fun o => o.t = t) with | some o => o.w | none => 0
  let accs := part.foldl (fun a i => passSet f i (tabGetD i {} u.sets) u.exptab keep (fun c => vb.contains c) a) u.accs
  let accs := sets.foldl (fun a i => tabUpd i {} (fun x => { x with passes := x.passes + 1 }) a) accs
  let taints := if f.fmt = variant && n ≠ 0 || sideBad then passTaints f row b u.sinceDrain.length bad wOf else []
  let u := { u with
    accs := accs
    codebook := if sideBad then u.codebook else f.cbv
    front := if part.isEmpty then u.front else stepTables f wOf 127
    back := if part.isEmpty then u.back else stepTables f wOf 126
    lanes := (List.range 8).flatMap (fun i => (List.range 128).map (fun t =>
      if part.contains i && keep t then BitVec.ofInt 24 (kSum f (tabGetD i {} u.sets) t) else 0))
    scores := (List.range 8).map (fun i => (List.range 128).map (fun t => BitVec.ofNat 16 (wOf i t)))
    sinceDrain := u.sinceDrain ++ [(row, maskOf sets, variant, u.sets)] }
  taints.foldl (fun v e => logTaint e v) u

/-! ## Timing bound of a burst (R124, R132, R133) -/

/-- Distinct scale columns that destination tokens rewrite in a plane's mantissas, at most two counted; those of both planes are rewritten,
whichever planes are gathered (R141). -/
def scaleCols (toks : List Nat) : Nat := min 2 (toks.map (· / 16)).dedup.length

/-- Duration in ns of a streaming command (Table 5-10); first says that it starts a burst. -/
def buTime (op variant count d : Nat) (dsts : List Nat) (first : Bool) : Nat :=
  let kc := if variant % 4 = 1 then 2 * d else 4 * d
  if op = 5 then 84 + 4 * kc + (if first then 14 else 0)
  else if op = 7 then 30 + 256 * count
  else if op = 9 then 16 + 128 * count
  else if op = 10 then 14 + 128 * count
  else
    let vc := count * (if variant % 4 = 1 then d / 64 else d / 32)
    let pl := variant / 4
    30 + 2 * ((if pl % 2 = 1 then 3 * kc else 0) + (if 2 ≤ pl then 2 * vc else 0)
      + 3 * (2 * scaleCols dsts) + 1)

/-- The valid entries of a gather list: (source token, destination token) (R141). -/
def gatherList (u : BankUnit) : List (Nat × Nat) :=
  (u.gather.filter (fun g => bit g.toNat 15)).map (fun g => (bits g.toNat 12 7, bits g.toNat 6 0))

/-- Head dimension a bank's frame at a row gives a command of a format; 0 where the frame has another format. -/
def frameDim (s : State) (cl row fmt b : Nat) : Nat :=
  let f := s.getBytes (t1Addr cl b row 0) 4
  if field f 0 1 = fmt then headD (field f 3 1) else 0

/-- Largest head dimension over a scope. -/
def scopeDim (s : State) (cl row fmt : Nat) (l : List Nat) : Nat := l.foldl (fun m b => max m (frameDim s cl row fmt b)) 0

/-- Rows a command touches in a bank from its row (R124). -/
def buRows (s : State) (cl : Nat) (w : U128) (b : Nat) : Nat :=
  let op := buOp w
  if op = 5 || op = 8 then
    let fmt := buVariant w % 4
    frameRows fmt (frameDim s cl (buRow w) fmt b)
  else buCount w

/-- Every row the command touches lies inside the job's ranges and outside the reserved regions; x gives the destination. -/
def buRowsOk (s : State) (cl job : Nat) (w : U128) (x : Option U128) : Bool :=
  (buScope s.variant w).all (fun b =>
    let n := buRows s cl w b
    s.rowsOk job cl b (buRow w) n &&
      match x with
      | some e => s.rowsOk job cl b (bxRow e) n
      | none => true)

/-- Scratchpad units of 256 B that a DRAIN or TLOGRD writes. -/
def buSpUnits (s : State) (w : U128) : Nat := if buOp w = 11 then 2 else 18 * (buScope s.variant w).length

/-- Duration of a command in a bank of its scope, which runs in lockstep with the others. -/
def buSpan (s : State) (cl : Nat) (w : U128) (first : Bool) (b : Nat) : Nat :=
  buTime (buOp w) (buVariant w) (buCount w) (scopeDim s cl (buRow w) (buVariant w % 4) (buScope s.variant w))
    ((gatherList (s.bu cl b)).map (·.2)) first

/-- Opcodes that an extension word follows (R122). -/
def buHasExt (op : Nat) : Bool := op = 6 || op = 7 || op = 8 || op = 11

/-- The command keeps the rules of its words (R122, R123): opcode, masks, counts, extension, payload, parity. -/
def buFormOk (s : State) (c : BuCmd) : Bool :=
  buWordOk s.variant c.op c.word && (if buHasExt c.op then buExtOk c.op c.ext else true)
    && buPayloadOk c.op (payloadBytes c.payload) && (if c.op = 7 || c.op = 8 then buRow c.word % 2 ≠ bxRow c.ext % 2 else true)

/-- A streaming command keeps inside stream_cap, and inside a burst of its own (R124, R125). -/
def buFits (s : State) (cl : Nat) (c : BuCmd) : Bool :=
  let scope := buScope s.variant c.word
  !buStreams c.op || (scope.length ≤ rf (nth s.regs.buCfg cl 0) 10 0 && scope.all (fun b => buSpan s cl c.word true b ≤ 3200))

/-- What a PASS and a GATHER need of the bank units of their scope (R124, R141). -/
def buUnitsOk (s : State) (cl : Nat) (c : BuCmd) : Bool :=
  (buScope s.variant c.word).all (fun b =>
    if c.op = 5 then (s.bu cl b).exptabValid && (buSetList c.word).all (fun i => (setAcc' (s.bu cl b) i).passes < 512)
    else if c.op = 8 then (gatherList (s.bu cl b)).length = buCount c.word
    else true)

/-- The ranges a job's command touches are its own (R124, R127). -/
def buGrantsOk (s : State) (cl : Nat) (c : BuCmd) : Bool :=
  (if c.op = 5 || 7 ≤ c.op && c.op ≤ 9 then buRowsOk s cl c.job c.word (if c.op = 7 || c.op = 8 then some c.ext else none) else true)
    && (if c.op = 6 || c.op = 11 then s.spOk c.job cl (bxSp c.ext) (buSpUnits s c.word) else true)

/-- Banks of a range of row granules. -/
def granBanks (first count : Nat) : List Nat := upFrom (first / 32768) ((first + count - 1) / 32768 + 1 - first / 32768)

/-- A range of row granules lies inside the tier-1 ranges granted to the job. -/
def granulesGranted (s : State) (cl job first count : Nat) : Bool :=
  (granBanks first count).all (fun b =>
    let lo := max first (b * 32768)
    let hi := min (first + count) ((b + 1) * 32768)
    s.rowsOk job cl b (lo - b * 32768) (hi - lo))

/-- The sequencer accepts a command whose turn has come (R109, R124). -/
def buAccept (s : State) (cl : Nat) (c : BuCmd) : Bool :=
  if c.op = 16 then granulesGranted s cl c.job c.first c.count else buUnitsOk s cl c && buGrantsOk s cl c

/-- Banks of a stack that may stream at once: stream_cap, or 384 at the DRAM throttle threshold (R125, R426). -/
def streamCap (s : State) (cl : Nat) : Nat :=
  let cap := rf (nth s.regs.buCfg cl 0) 10 0
  if s.power.dramThrottle.contains cl then min cap 384 else cap

/-! ## Refresh (R133) -/

/-- Refreshes a bank of a cluster owes now. -/
def State.debt (s : State) (cl b : Nat) : Nat := refreshDebt s.now (s.bcl cl) b

/-- Nanoseconds from the beginning of a bank's burst to the end of a command that the bank runs next, once its last has ended: the burst
begins with it where none is in progress (R133). -/
def burstEnd (s : State) (cl : Nat) (w : U128) (b : Nat) : Nat :=
  let u := s.bu cl b
  let span := buSpan s cl w (u.burst = 0) b
  if u.burst = 0 then span else max u.burst (s.now - u.burstFrom) + span

/-- A bank lets a streaming command start: one that owes two refreshes begins no burst, no burst lasts more than 3,200 ns, and a SCRUB
comes between bursts (R133, R143). -/
def bankStarts (s : State) (cl : Nat) (w : U128) (b : Nat) : Bool :=
  (s.debt cl b < 2 || (s.bu cl b).burst ≠ 0) && burstEnd s cl w b ≤ 3200 && (buOp w ≠ 10 || (s.bu cl b).burst = 0)

/-- The command may start: stream_cap allows its banks, and each of them does (R125, R133). -/
def buStarts (s : State) (cl : Nat) (w : U128) : Bool :=
  let scope := buScope s.variant w
  !buStreams (buOp w) || (scope.length ≤ streamCap s cl && scope.all (bankStarts s cl w))

/-- A streaming command's time in the bursts of the banks of its scope. -/
def buStream (cl : Nat) (w : U128) (before : State) (s : State) : State :=
  if buStreams (buOp w) then
    (buScope before.variant w).foldl (fun t b =>
      t.modBu cl b (fun u => { u with burstFrom := if u.burst = 0 then before.now else u.burstFrom, burst := burstEnd before cl w b })) s
  else s

/-! ## The range checker (R140) -/

/-- The sequencer's checker is on for a cluster. -/
def rchkOn (s : State) (cl : Nat) : Bool := bit (nth s.regs.buCfg cl 0).toNat 16

/-- A buffer entry's frame lies in rows [g, g + n) of granule indices. -/
def entryIn (g n : Nat) (e : AppendEntry) : Bool :=
  let len := frameRows (if e.isInt8 then 2 else 1) e.dim
  e.row < g + n && g < e.row + len

/-- Row granules of a command in the banks of its scope from a row on, in scope order. -/
def scopeGranules (s : State) (cl : Nat) (w : U128) (row : Nat) : List Nat :=
  (buScope s.variant w).flatMap (fun b => upFrom (b * 32768 + row) (buRows s cl w b))

/-- The first granule that a command reads and a pending buffer entry covers; scope order, then row order, make it the first (R140;
DESIGN CHOICE, log 29). -/
def rchkRead (s : State) (cl : Nat) (w : U128) : Option Nat :=
  (scopeGranules s cl w (buRow w)).find? (fun g => (s.bcl cl).append.any (entryIn g 1))

/-- The first granule of the destination sidecars, which a GATHER reads for its match, that a pending buffer entry covers (R140, R141). -/
def rchkMatch (s : State) (cl : Nat) (w : U128) (dst : Nat) : Option Nat :=
  ((buScope s.variant w).map (fun b => b * 32768 + dst)).find? (fun g => (s.bcl cl).append.any (entryIn g 1))

/-- The first granule that a command writes and the job holds in scratchpad. -/
def rchkWrite (s : State) (cl job : Nat) (w : U128) (row : Nat) : Option Nat :=
  (scopeGranules s cl w row).find? (fun g => (s.mcl cl).holds.any (fun h => h.job = job && h.first ≤ g && g < h.first + h.count))

/-- Records a violation, unless one is recorded (R140, Table 5-17). -/
def rchkNote (s : State) (cl job g kind op : Nat) : State :=
  if bit (s.bcl cl).rchkInfo.toNat 31 then s
  else s.modBcl cl (fun c => { c with
    rchkAddr := granAddr cl g 0
    rchkInfo := BitVec.ofNat 32 (2 ^ 31 + kind * 2 ^ 29 + op * 256 + job % 16) })

/-- The violation of a command, if the checker is on and finds one: its granule and kind. -/
def rchkFinds (s : State) (cl : Nat) (c : BuCmd) : Option (Nat × Nat) :=
  if !rchkOn s cl then none
  else
    let rd := if c.op = 5 || c.op = 7 || c.op = 8 then rchkRead s cl c.word else none
    let rd := if c.op = 8 && rd.isNone then rchkMatch s cl c.word (bxRow c.ext) else rd
    let wr := if c.op = 7 || c.op = 8 then rchkWrite s cl c.job c.word (bxRow c.ext) else if c.op = 9 then rchkWrite s cl c.job c.word (buRow c.word) else none
    match rd, wr with
    | some g, _ => some (g, 0)
    | none, some g => some (g, 1)
    | none, none => none

/-! ## What the commands of Table 5-7 do -/

/-- The query set that 288 bytes hold (Table 5-4). -/
def querySetOf (p : List Byte) : QuerySet :=
  { q := slice p 0 256
    qmant := BitVec.ofNat 16 (field p 256 2)
    qshift := field p 258 1
    valid := bit (field p 259 1) 0
    cmax := BitVec.ofNat 16 (field p 260 2)
    layer := field p 262 1
    head := BitVec.ofNat 8 (field p 263 1)
    limit := field p 264 4
    owner := field p 268 4 % 2 ^ 20
    domain := field p 272 2
    nodeMask := BitVec.ofNat 64 (field p 274 8) }

/-- BU_STAT.tload_valid: the exponent table is valid in every bank of the stack (Table 5-15). -/
def tloadValidOf (s : State) (cl : Nat) : Bool := (List.range (banksOf s.variant)).all (fun b => (s.bu cl b).exptabValid)

/-- A set after ACLR: accumulators, sums, flags and counts clear, the observed maximum 0x8000 (Table 5-1). -/
def clearedSet : SetAcc := { omax := 0x8000 }

/-- The ancestor mask of a tree node: the non-root nodes on its chain, itself among them (R247). -/
def ancestorMask (t : List (Nat × Nat)) (v : Nat) : BitVec 64 := BitVec.ofNat 64 (maskOf ((nodeChain t v).filter (· < 64)))

/-- A query set of a decode row that runs takes its node's mask from the tree record, zero for a row of one node; in a row of more, its
limit is the root's (R247, R248). -/
def treeSet (s : State) (node : Nat) (q : QuerySet) : QuerySet :=
  match s.row? q.owner, s.req? q.owner with
  | some row, some r =>
    if row.kind ≠ .decode then q
    else if (runTree r).length ≤ 1 then { q with nodeMask := 0 }
    else { q with nodeMask := ancestorMask (runTree r) node, limit := r.committedLen + 1 }
  | _, _ => q

/-- The largest of a list of carried maxima, or what was held where there is none (R130). -/
def largestMax (l : List CarriedMax) (old : BitVec 16) : BitVec 16 :=
  match l with
  | [] => old
  | x :: rest => rest.foldl (fun m y => if m.slt y.value then y.value else m) x.value

/-- The carried maxima that a model's image gives at admission, in layer and then query-head order (R130). -/
def initMaxima (i : ModelInfo) : List CarriedMax :=
  let heads := max 1 (i.kvHeads * i.groupQ)
  i.initMax.zipIdx.map (fun p => { layer := p.2 / heads, head := p.2 % heads, value := p.1 })

/-- The carried maximum of a page rebuild at a position of the block: from the group's snapshot, or the model's initial one where a shipment
built the group, moved at each commit boundary that the record gives up to there by the M of the positions between, as the original
commits did (R188, R388, R389). -/
def rebuildMax (s : State) (g : PageGroup) (noted : List CarriedMax) (pos layer head : Nat) : BitVec 16 :=
  let mine := fun (x : CarriedMax) => decide (x.layer = layer) && decide (x.head = head)
  let from' := if g.snapValid then g.snapMaxima else initMaxima (s.mslot g.modelSlot).info
  let bounds := (List.range 128).filter (fun p => 0 < p && p ≤ pos && g.snapValid && g.cbound.contains p)
  (bounds.foldl (fun (q : Nat × BitVec 16) p =>
    (p, largestMax (noted.filter (fun x => mine x && q.1 ≤ x.node && x.node < p)) q.2)) (0, ((from'.find? mine).map (·.value)).getD 0)).2

/-- The query set of a rebuild row carries the maximum that the replay has reached at its position (R388). -/
def rebuildSet (s : State) (h i : Nat) (q : QuerySet) : QuerySet :=
  match s.group? h with
  | none => q
  | some g =>
    let groupQ := max 1 (s.mslot g.modelSlot).info.groupQ
    let noted := ((s.attempt? (1048576 + h)).map (·.maxima)).getD []
    { q with cmax := rebuildMax s g noted (q.limit - 1 - g.start) q.layer (bits q.head.toNat 3 0 * groupQ + i % groupQ) }

/-- QLOAD: the set named by set_mask in the one bank of its scope (R118); a job's takes the masks of its tree, or the replayed maximum of
its rebuild (R247, R388). -/
def doQload (cl : Nat) (c : BuCmd) (t : State) : State :=
  let i := (buSetList c.word).headD 0
  let q := { querySetOf (payloadBytes c.payload) with rebuild := c.rebuild, draft := c.draft }
  let q := match c.rebuild with
    | some h => rebuildSet t h i q
    | none => if c.job < 16 && !c.draft then treeSet t c.node q else q
  t.modScope cl (buScope t.variant c.word) (fun u => { u with sets := tabPut i q u.sets })

/-- GLOAD: the gather list of one bank (R141). -/
def doGload (cl : Nat) (c : BuCmd) (t : State) : State :=
  t.modScope cl (buScope t.variant c.word) (fun u => { u with gather := u16s 16 (payloadBytes c.payload) })

/-- TLOAD: the exponent table of every bank of its scope, and its valid bit (R113, Table 5-7). -/
def doTload (cl : Nat) (c : BuCmd) (t : State) : State :=
  let t := t.modScope cl (buScope t.variant c.word) (fun u => { u with exptab := u16s 256 (payloadBytes c.payload), exptabValid := true })
  t.modBcl cl (fun x => { x with tloadValid := tloadValidOf t cl })

/-- ACLR on the sets named, in every bank of its scope. -/
def doAclr (cl : Nat) (c : BuCmd) (t : State) : State :=
  t.modScope cl (buScope t.variant c.word) (fun u => { u with accs := (buSetList c.word).foldl (fun a i => tabPut i clearedSet a) u.accs })

/-- Counts the taint entries and overflows that a command added on a stack (Table 20-4). -/
def countTaints (cl : Nat) (old new : State) (scope : List Nat) : State :=
  let n := sumN (scope.map (fun b => (new.bu cl b).taints.length - (old.bu cl b).taints.length))
  let o := (scope.filter (fun b => (new.bu cl b).taintOvf && !(old.bu cl b).taintOvf)).length
  new.countStack cl (fun c => { c with taints := add64 c.taints (n + o), taintOverflows := add64 c.taintOverflows o })

/-- PASS: one page pass of the frame at row in every bank of its scope (R114 to R120, R126, R131, R134). -/
def doPass (cl : Nat) (c : BuCmd) (t : State) : State :=
  let scope := buScope t.variant c.word
  countTaints cl t (scope.foldl (fun u b =>
    u.modBu cl b (passBank t cl (buRow c.word) (buVariant c.word) (buSetList c.word) c.bad b)) t) scope

/-- The bytes of a taint entry (Table 5-12). -/
def taintBytes (e : TaintEntry) : List Byte :=
  leBytes 2 (e.column * 1024 + e.rowOffset * 32 + e.kind * 4) ++ leBytes 2 e.row
    ++ (List.range 8).flatMap (fun i => leBytes 2 (nth e.w i 0).toNat)

/-- The 16 taint entries of a log, absent ones zero. -/
def taintLogBytes (l : List TaintEntry) : List Byte := slice (l.flatMap taintBytes) 0 320

/-- A live set is under where its probability sum is below 2^(12 - under_thr) (R127). -/
def underOf (thr : Nat) (a : SetAcc) : Bool := a.live && decide (a.psum.toNat * 2 ^ thr < 4096)

/-- The drain record of a bank (Table 5-8). -/
def recordBytes (accs : List (Nat × SetAcc)) (taints : List TaintEntry) (ovf : Bool) : List Byte :=
  let a := fun i => tabGetD i ({} : SetAcc) accs
  let mask := fun (p : SetAcc → Bool) => leBytes 1 (maskOf ((List.range 8).filter (fun i => p (a i))))
  (List.range 8).flatMap (fun i => (List.range 128).flatMap (fun e => leBytes 4 (nth (a i).acc e 0).toNat))
    ++ (List.range 8).flatMap (fun i => leBytes 4 (a i).psum.toNat)
    ++ (List.range 8).flatMap (fun i => leBytes 2 (if (a i).live then (a i).omax.toNat else 0x8000))
    ++ mask (·.overRange) ++ mask (·.underRange) ++ mask (·.live)
    ++ leBytes 1 (b2n ovf) ++ leBytes 1 taints.length ++ List.replicate 11 0 ++ taintLogBytes taints

/-- A bank's accumulators at a drain: a live set whose sum is small is flagged under (R127). -/
def drainAccs (thr : Nat) (accs : List (Nat × SetAcc)) : List (Nat × SetAcc) :=
  accs.map (fun q => (q.1, { q.2 with underRange := q.2.underRange || underOf thr q.2 }))

/-- One bank of a DRAIN: flags under, writes its record to slot i of the destination, empties its taint log. -/
def drainBank (cl job sp thr : Nat) (t : State) (p : Nat × Nat) : State :=
  let u := t.bu cl p.1
  let u := { u with accs := drainAccs thr u.accs }
  let addr := spBase cl + sp * 256 + p.2 * 4608
  let r : DrainRec := { job := job, bank := p.1, addr := addr, sets := u.sets, accs := u.accs, taints := u.pulled ++ u.taints, taintOvf := u.pulledOvf || u.taintOvf, passed := u.sinceDrain }
  ((t.modBu cl p.1 (fun _ => { u with taints := [], taintOvf := false, pulled := [], pulledOvf := false, sinceDrain := [] })).putBytes
    addr (recordBytes u.accs u.taints u.taintOvf)).modBcl cl (fun c => { c with drains := c.drains ++ [r] })

/-- DRAIN: each bank of the scope returns its drain record (R127). -/
def doDrain (cl : Nat) (c : BuCmd) (t : State) : State :=
  (buScope t.variant c.word).zipIdx.foldl (drainBank cl c.job (bxSp c.ext) (rf (nth t.regs.buCfg cl 0) 23 20)) t

/-- The listed columns with a nonzero syndrome that a command reads in n rows from a row of the banks of a scope. -/
def badIn (scope : List Nat) (row n : Nat) (bad : List BadColumn) : List BadColumn :=
  bad.filter (fun x => scope.contains x.bank && row ≤ x.row && x.row < row + n && x.column < 64 && colWrong x)

/-- A listed column of a bank is uncorrectable. -/
def lostAt (bad : List BadColumn) (b r c : Nat) : Bool := bad.any (fun x => x.bank = b && x.row = r && x.column = c && colLost x)

/-- Copies row r of a bank to row d, corrected data in place of columns the corrector repairs; a column it cannot repair is
not written (R137). -/
def copyRow (cl b r d : Nat) (bad : List BadColumn) (s : State) : State :=
  (List.range 64).foldl (fun t c => if lostAt bad b r c then t else t.putBytes (t1Addr cl b d (c * 32)) (fixedCol s cl b bad r c)) s

/-- Notes the codewords that the correcting path met: its counts, and the address of the last uncorrectable one (Tables 17-8, 20-4). -/
def noteColumns (cl : Nat) (bad : List BadColumn) (s : State) : State :=
  let s := s.countStack cl (fun c => { c with
    corrected := add64 c.corrected (bad.filter (fun x => colWrong x && !colLost x)).length
    uncorrectable := add64 c.uncorrectable (bad.filter colLost).length })
  match (bad.filter colLost).getLast? with
  | none => s
  | some x => s.onFaults (fun f => { f with lastUncorr := t1Addr cl x.bank x.row (x.column * 32) })

/-- Logs columns as a kind of taint in the banks they lie in (R137, R143, Table 5-12). -/
def logColumns (cl kind row : Nat) (bads : List BadColumn) (s : State) : State :=
  bads.foldl (fun t x => t.modBu cl x.bank (logTaint { column := x.column, rowOffset := x.row - row, kind := kind, row := row, w := [] })) s

/-- COPY: copies count rows to dst_row onward in every bank of its scope. A column with a nonzero syndrome is logged, and the sequencer
completes it from the correcting path before any later command (R137). -/
def doCopy (cl : Nat) (c : BuCmd) (t : State) : State :=
  let scope := buScope t.variant c.word
  let bads := badIn scope (buRow c.word) (buCount c.word) c.bad
  let u := scope.foldl (fun u b =>
    (List.range (buCount c.word)).foldl (fun v i => copyRow cl b (buRow c.word + i) (bxRow c.ext + i) bads v) u) t
  noteColumns cl bads (countTaints cl t (logColumns cl 4 (buRow c.word) bads u) scope)

/-- Sets a code of a plane column in memory. -/
def putCode (fmt a place code : Nat) (s : State) : State :=
  if fmt = 1 then
    let old := (s.mem.read (a + place / 2)).toNat
    s.putBytes (a + place / 2) [BitVec.ofNat 8 (if place % 2 = 0 then old / 16 * 16 + code else old % 16 + code * 16)]
  else s.putBytes (a + place) [BitVec.ofNat 8 code]

/-- Address of column c of a plane that starts at row r0 of a frame. -/
def planeAddr (cl b row r0 c : Nat) : Nat := t1Addr cl b (row + r0 + c / 64) (c % 64 * 32)

/-- Moves one token's K codes, or its V codes, from the frame read to the frame at a row (R141). -/
def moveK (cl b dst : Nat) (f : Frame) (lost : Nat → Bool) (st dt : Nat) (s : State) : State :=
  (List.range f.dim).foldl (fun t d =>
    if lost (kCol f.fmt d st) then t
    else putCode f.fmt (planeAddr cl b dst 1 (kCol f.fmt d dt)) (kPlace f.fmt dt)
      (codeAt f.fmt (nth f.k (kCol f.fmt d st) []) (kPlace f.fmt st)) t) s
def moveV (cl b dst : Nat) (f : Frame) (lost : Nat → Bool) (st dt : Nat) (s : State) : State :=
  (List.range f.dim).foldl (fun t el =>
    if lost (vCol f.fmt f.dim st el) then t
    else putCode f.fmt (planeAddr cl b dst (1 + planeRows f.fmt f.dim) (vCol f.fmt f.dim dt el)) (vPlace f.fmt el)
      (codeAt f.fmt (nth f.v (vCol f.fmt f.dim st el) []) (vPlace f.fmt el)) t) s

/-- Moves the two mantissas of one token; one whose sidecar column is lost stays unwritten (R137). -/
def moveMant (cl b dst : Nat) (f : Frame) (lost : Nat → Bool) (st dt : Nat) (s : State) : State :=
  let s := if lost ((96 + 2 * st) / 32) then s else s.putBytes (t1Addr cl b dst (96 + 2 * dt)) (leBytes 2 (f.kmant st))
  if lost ((352 + 2 * st) / 32) then s else s.putBytes (t1Addr cl b dst (352 + 2 * dt)) (leBytes 2 (f.vmant st))

/-- Source and destination frames have the same format, dimension and codebooks, in the format the command names. -/
def gatherMatch (variant : Nat) (f g : Frame) : Bool :=
  f.fmt = variant % 4 && g.fmt = f.fmt && g.dim = f.dim && planeRows f.fmt f.dim ≠ 0 && f.cbk = g.cbk && f.cbv = g.cbv

/-- The columns a GATHER reads in its source frame: the sidecar's, the K plane if it is gathered, the V columns of the listed tokens. -/
def gatherReads (f : Frame) (variant : Nat) (toks : List Nat) (off c : Nat) : Bool :=
  let n := planeRows f.fmt f.dim
  let per := if f.fmt = 1 then f.dim / 64 else f.dim / 32
  if off = 0 then c < 19
  else if off ≤ n then variant / 4 % 2 = 1
  else off ≤ 2 * n && 2 ≤ variant / 4 && toks.contains (((off - 1 - n) * 64 + c) / max 1 per)

/-- One bank of a GATHER: the listed tokens move, in list order. -/
def gatherBank (cl row dst variant : Nat) (bad : List BadColumn) (s : State) (b : Nat) : State :=
  let f := readFrame (fixedCol s cl b bad) row
  let n := planeRows f.fmt f.dim
  let lostK := fun c => lostAt bad b (row + 1 + c / 64) (c % 64)
  let lostV := fun c => lostAt bad b (row + 1 + n + c / 64) (c % 64)
  (gatherList (s.bu cl b)).foldl (fun t e =>
    let t := if variant / 4 % 2 = 1 then moveK cl b dst f lostK e.1 e.2 t else t
    let t := if 2 ≤ variant / 4 then moveV cl b dst f lostV e.1 e.2 t else t
    moveMant cl b dst f (fun c => lostAt bad b row c) e.1 e.2 t) s

/-- The columns with a nonzero syndrome that a GATHER reads in its source frames in the banks of its scope. -/
def gatherBads (s : State) (cl row variant : Nat) (scope : List Nat) (bad : List BadColumn) : List BadColumn :=
  (badIn scope row 24 bad).filter (fun x =>
    gatherReads (readFrame (fixedCol s cl x.bank bad) row) variant ((gatherList (s.bu cl x.bank)).map (·.1)) (x.row - row) x.column)

/-- The columns with a nonzero syndrome that it reads in its destination sidecars, for the match of R141. -/
def matchBads (dst : Nat) (scope : List Nat) (bad : List BadColumn) : List BadColumn :=
  (badIn scope dst 1 bad).filter (fun x => x.column < 19)

/-- The effect of a GATHER on the banks of a scope: a bank whose frames do not match writes nothing, logs kind 5, and the job
faults (R141). Row offset and column of that entry, which the spec does not name, are 0 (DESIGN CHOICE, log 29). -/
def gatherScope (cl row dst variant : Nat) (bad : List BadColumn) (scope : List Nat) (s : State) : State × Bool :=
  scope.foldl (fun p b =>
    if gatherMatch variant (readFrame (fixedCol p.1 cl b bad) row) (readFrame (fixedCol p.1 cl b bad) dst) then
      (gatherBank cl row dst variant bad p.1 b, p.2)
    else (p.1.modBu cl b (logTaint { column := 0, rowOffset := 0, kind := 5, row := row, w := [] }), true)) (s, false)

/-- GATHER: listed tokens move to the frame at dst_row; columns are logged and completed as for COPY (R137, R141). -/
def doGather (cl : Nat) (c : BuCmd) (t : State) : State :=
  let scope := buScope t.variant c.word
  let bads := gatherBads t cl (buRow c.word) (buVariant c.word) scope c.bad
  let dsts := matchBads (bxRow c.ext) scope c.bad
  let r := gatherScope cl (buRow c.word) (bxRow c.ext) (buVariant c.word) (bads ++ dsts) scope t
  let u := noteColumns cl (bads ++ dsts) (countTaints cl t
    (logColumns cl 4 (bxRow c.ext) dsts (logColumns cl 4 (buRow c.word) bads r.1)) scope)
  if r.2 then u.jobFault c.job else u

/-- Zeroes rows of a bank. -/
def fillRows (cl b r n : Nat) (s : State) : State := s.onMem (fun m => m.clear (t1Addr cl b r 0) (n * 2048))

/-- FILL: zero data into count rows of every bank of its scope (R142). -/
def doFill (cl : Nat) (c : BuCmd) (t : State) : State :=
  (buScope t.variant c.word).foldl (fun u b => fillRows cl b (buRow c.word) (buCount c.word) u) t

/-- A TLOGRD empties the log of a bank; what it held is still to be corrected before the bank's record is combined (R135). -/
def pullLog (u : BankUnit) : BankUnit :=
  { u with taints := [], taintOvf := false, pulled := u.pulled ++ u.taints, pulledOvf := u.pulledOvf || u.taintOvf }

/-- TLOGRD: writes one bank's taint record to scratchpad and empties its log (R127). -/
def doTlogrd (cl : Nat) (c : BuCmd) (t : State) : State :=
  (buScope t.variant c.word).foldl (fun v b =>
    let u := v.bu cl b
    (v.putBytes (spBase cl + bxSp c.ext * 256)
      (leBytes 1 u.taints.length ++ leBytes 1 (b2n u.taintOvf) ++ List.replicate 14 0 ++ taintLogBytes u.taints)).modBu cl b pullLog) t

/-! ## The cache append buffer (R138) -/

/-- Writes a buffer entry into its frame: its K codes, V codes and mantissas. -/
def writeEntry (cl : Nat) (s : State) (e : AppendEntry) : State :=
  let fmt := if e.isInt8 then 2 else 1
  let b := e.row / 32768
  let row := e.row % 32768
  let s := (List.range e.dim).foldl (fun t d =>
    putCode fmt (planeAddr cl b row 1 (kCol fmt d e.token)) (kPlace fmt e.token) (nth e.kcodes d 0).toNat t) s
  let s := (List.range e.dim).foldl (fun t el =>
    putCode fmt (planeAddr cl b row (1 + planeRows fmt e.dim) (vCol fmt e.dim e.token el)) (vPlace fmt el) (nth e.vcodes el 0).toNat t) s
  (s.putBytes (t1Addr cl b row (96 + 2 * e.token)) (leBytes 2 e.kmant.toNat)).putBytes
    (t1Addr cl b row (352 + 2 * e.token)) (leBytes 2 e.vmant.toNat)

/-- Every buffer entry in a range of granules is written to its bank (R138). -/
def doKvflush (cl first count : Nat) (s : State) : State :=
  let p := (s.bcl cl).append.partition (entryIn first count)
  (p.1.foldl (writeEntry cl) s).modBcl cl (fun c => { c with append := p.2 })

/-! ## The sequencer's queue (R122, R125) -/

/-- What a command does, by its opcode. -/
def buEffect (cl : Nat) (c : BuCmd) (t : State) : State :=
  if c.op = 1 then doQload cl c t
  else if c.op = 2 then doGload cl c t
  else if c.op = 3 then doTload cl c t
  else if c.op = 4 then doAclr cl c t
  else if c.op = 5 then doPass cl c t
  else if c.op = 6 then doDrain cl c t
  else if c.op = 7 then doCopy cl c t
  else if c.op = 8 then doGather cl c t
  else if c.op = 9 then doFill cl c t
  else if c.op = 11 then doTlogrd cl c t
  else if c.op = 16 then doKvflush cl c.first c.count t
  else t

/-- Banks a command touches. -/
def buBanksOf (v : Variant) (c : BuCmd) : List Nat := if c.op = 16 then granBanks c.first c.count else buScope v c.word

/-- Two commands share a bank. -/
def buShare (v : Variant) (c d : BuCmd) : Bool := (buBanksOf v c).any (fun b => (buBanksOf v d).contains b)

/-- A command whose turn has come runs, or is rejected and faults its job; a violation the checker finds is recorded and faults it. -/
def buRun (cl : Nat) (s : State) (c : BuCmd) : State :=
  if !buAccept s cl c then s.jobFault c.job
  else
    match rchkFinds s cl c with
    | some p => (rchkNote s cl c.job p.1 p.2 c.op).jobFault c.job
    | none => buStream cl c.word s (buEffect cl c s)

/-- A GATHER that a commit owes is the one that a command word names in a bank: its frames, its format and planes that are still to move. -/
def gatherIs (cl b : Nat) (w x : U128) (g : GatherDue) : Bool :=
  g.cluster = cl && g.src = b * 32768 + buRow w && g.dst = b * 32768 + bxRow x && g.fmt = buVariant w % 4
    && (buVariant w / 4) &&& g.planes = buVariant w / 4

/-- The words of a commit's GATHER name, in every bank of their scope, one that a commit still owes (R253). -/
def gatherOwed (s : State) (cl : Nat) (w x : U128) : Bool :=
  !(buScope s.variant w).isEmpty && (buScope s.variant w).all (fun b => s.req.gathersDue.any (gatherIs cl b w x))

/-- An entry of a gather list (R141). -/
def gatherWord (p : Nat × Nat) : BitVec 16 := BitVec.ofNat 16 (32768 + p.1 % 64 * 128 + p.2 % 128)

/-- The commit sequence loads the gather lists of the banks of a GATHER: tree nodes to their positions (R253). -/
def State.loadLanes (s : State) (cl : Nat) (w x : U128) : State :=
  (buScope s.variant w).foldl (fun t b =>
    match s.req.gathersDue.find? (gatherIs cl b w x) with
    | none => t
    | some g => t.modBu cl b (fun u => { u with gather := g.lanes.map gatherWord })) s

/-- The planes that a GATHER has moved are no longer owed. -/
def gathersLeft (v : Variant) (cl : Nat) (w x : U128) (l : List GatherDue) : List GatherDue :=
  (l.map (fun g => if (buScope v w).any (fun b => gatherIs cl b w x g) then { g with planes := g.planes - buVariant w / 4 } else g)).filter
    (fun g => g.planes ≠ 0)

/-- The rows of a commit's GATHER lie in the banks and outside the reserved regions; it is the device's own, and no job's grants bound it. -/
def commitRowsOk (s : State) (cl : Nat) (c : BuCmd) : Bool :=
  (buScope s.variant c.word).all (fun b =>
    let n := buRows s cl c.word b
    buRow c.word + n ≤ 32768 && bxRow c.ext + n ≤ 32768 && !reservedRows s cl b (buRow c.word) n && !reservedRows s cl b (bxRow c.ext) n)

/-- A GATHER of a commit whose turn has come runs (R141, R253); a violation that the checker finds is recorded, and the GATHER stays owed (R140). -/
def commitGather (cl : Nat) (s : State) (c : BuCmd) : State :=
  let s := s.loadLanes cl c.word c.ext
  if gatherOwed s cl c.word c.ext && buUnitsOk s cl c && commitRowsOk s cl c then
    match rchkFinds s cl c with
    | some p => rchkNote s cl c.job p.1 p.2 c.op
    | none =>
      (buStream cl c.word s (buEffect cl c s)).onReq (fun q => { q with gathersDue := gathersLeft s.variant cl c.word c.ext q.gathersDue })
  else s

/-- A command that the sequencer starts: a GATHER of a commit, or one of a job. -/
def buBegin (cl : Nat) (s : State) (c : BuCmd) : State := if c.job = 17 then commitGather cl s c else buRun cl s c

/-- A command starts, or waits behind an earlier one that shares a bank with it, or for its banks (R125). -/
def buOffer (cl : Nat) (s : State) (c : BuCmd) : State :=
  if (s.bcl cl).queue.any (fun q => buShare s.variant q c) || !(c.op = 16 || buStarts s cl c.word) then
    s.modBcl cl (fun x => { x with queue := x.queue ++ [c] })
  else buBegin cl s c

/-- The waiting commands are offered again, in queue order. -/
def State.buPump (s : State) (cl : Nat) : State :=
  (s.bcl cl).queue.foldl (buOffer cl) (s.modBcl cl (fun x => { x with queue := [] }))

/-- A command enters the queue: one that breaks the rules of its words is rejected and faults its job (R122 to R124). -/
def buIssue (cl : Nat) (c : BuCmd) (s : State) : State :=
  if !s.clusterUp cl || !s.mayQueue c.job then s
  else if c.op = 16 || (buFormOk s c && buFits s cl c) then buOffer cl s c
  else s.jobFault c.job

/-! ## Commands of Table 5-7 -/

/-- NOP: no effect but its checks. -/
def execBuNop (cl job : Nat) (word : BitVec 128) (s : State) : Host.Outcome State Fault Refusal :=
  .next (buIssue cl { op := 0, job := job, word := word } s)

/-- QLOAD (R118). -/
def execQload (cl job : Nat) (word : BitVec 128) (q : QueryData) (s : State) : Host.Outcome State Fault Refusal :=
  .next (buIssue cl { op := 1, job := job, word := word, payload := q.words, node := q.node, rebuild := q.rebuild, draft := q.draft } s)

/-- GLOAD (R141). -/
def execGload (cl job : Nat) (word : BitVec 128) (payload : List (BitVec 128)) (s : State) : Host.Outcome State Fault Refusal :=
  .next (buIssue cl { op := 2, job := job, word := word, payload := payload } s)

/-- TLOAD (R113). -/
def execTload (cl job : Nat) (word : BitVec 128) (payload : List (BitVec 128)) (s : State) : Host.Outcome State Fault Refusal :=
  .next (buIssue cl { op := 3, job := job, word := word, payload := payload } s)

/-- ACLR (R113). -/
def execAclr (cl job : Nat) (word : BitVec 128) (s : State) : Host.Outcome State Fault Refusal :=
  .next (buIssue cl { op := 4, job := job, word := word } s)

/-- PASS (R126). -/
def execPass (cl job : Nat) (word : BitVec 128) (bad : List BadColumn) (s : State) : Host.Outcome State Fault Refusal :=
  .next (buIssue cl { op := 5, job := job, word := word, bad := bad } s)

/-- DRAIN (R127). -/
def execDrain (cl job : Nat) (word ext : BitVec 128) (s : State) : Host.Outcome State Fault Refusal :=
  .next (buIssue cl { op := 6, job := job, word := word, ext := ext } s)

/-- COPY (R137). -/
def execCopy (cl job : Nat) (word ext : BitVec 128) (bad : List BadColumn) (s : State) : Host.Outcome State Fault Refusal :=
  .next (buIssue cl { op := 7, job := job, word := word, ext := ext, bad := bad } s)

/-- The word and the extension of a GATHER that a commit owes. -/
def gatherWords (v : Variant) (g : GatherDue) : U128 × U128 :=
  let b := g.src / 32768
  (BitVec.ofNat 128 (8 * 2 ^ 120 + 2 ^ (b / dieBanks v) * 2 ^ 104 + 2 ^ (b % dieBanks v) * 2 ^ 40 + g.src % 32768 * 2 ^ 25 + g.lanes.length * 16
      + 4 * g.planes + g.fmt),
   BitVec.ofNat 128 (g.dst % 32768 * 2 ^ 113))

/-- A GATHER that a commit still owes ends: the entries of its two frames that are still in the append buffer reach the bank first, as its
commit requires (R37, R138, R253). -/
def endGather (s : State) (g : GatherDue) : State :=
  let w := gatherWords s.variant g
  let n := frameRows g.fmt (frameDim s g.cluster (g.src % 32768) g.fmt (g.src / 32768))
  if s.clusterUp g.cluster then
    let s := doKvflush g.cluster g.dst n (doKvflush g.cluster g.src n s)
    doGather g.cluster { op := 8, job := 17, word := w.1, ext := w.2 } (s.loadLanes g.cluster w.1 w.2)
  else s

/-- Every GATHER that the commit of a slot owes ends (R253). -/
def State.endGathers (s : State) (slot : Nat) : State :=
  let mine := s.req.gathersDue.filter (fun g => g.slot = slot)
  (mine.foldl endGather s).onReq (fun q => { q with gathersDue := q.gathersDue.filter (fun g => g.slot ≠ slot) })

/-- Every GATHER that a commit of this window owes ends before the edge, and none waits (R38). -/
def State.endAllGathers (s : State) : State :=
  ((s.req.gathersDue.foldl endGather s).onReq (fun q => { q with gathersDue := [] })).allBcl (dropQueue 17)

/-- A commit's GATHER as it is reported: one that a commit owes and that keeps the rules of its words enters the sequencer's queue (R125, R253). -/
def offerGather (cl : Nat) (c : BuCmd) (s : State) : State :=
  let t := s.loadLanes cl c.word c.ext
  if s.clusterUp cl && gatherOwed s cl c.word c.ext && buFormOk t c && buFits t cl c then buOffer cl t c else s

/-- GATHER (R141). In a commit window it is one of the GATHERs of a commit (R253). -/
def execGather (cl job : Nat) (word ext : BitVec 128) (bad : List BadColumn) (s : State) : Host.Outcome State Fault Refusal :=
  .next (
    if s.tick.inCommit then offerGather cl { op := 8, job := 17, word := word, ext := ext, bad := bad } s
    else buIssue cl { op := 8, job := job, word := word, ext := ext, bad := bad } s)

/-- FILL (R142). -/
def execFill (cl job : Nat) (word : BitVec 128) (s : State) : Host.Outcome State Fault Refusal :=
  .next (buIssue cl { op := 9, job := job, word := word } s)

/-- What a scrub of rows leaves: each wrong column is logged, the controller reads the log with TLOGRD, and each codeword that the
corrector repairs is rewritten (R143). -/
def scrubRows (cl row rows : Nat) (scope : List Nat) (bad : List BadColumn) (s : State) : State :=
  let bads := badIn scope row rows bad
  let t := countTaints cl s (logColumns cl 3 row bads s) scope
  let t := t.modScope cl scope pullLog
  let t := bads.foldl (fun u x => if colLost x then u else u.putBytes (t1Addr cl x.bank x.row (x.column * 32)) (fixedCol s cl x.bank bads x.row x.column)) t
  (noteColumns cl bads t).countStack cl (fun c => { c with scrubRows := add64 c.scrubRows (rows * scope.length) })

/-- The controller starts a scrub of a scope, recording a read of unflushed entries where the checker is on (R140, R143). No job issues it: the
record's model_slot is 0, no job faults, and the scrub runs all the same (DESIGN CHOICE, log 29). -/
def scrubRun (cl : Nat) (word : U128) (bad : List BadColumn) (s : State) : State :=
  let t := if rchkOn s cl then
      match rchkRead s cl word with
      | some g => rchkNote s cl 0 g 0 10
      | none => s
    else s
  buStream cl word s (scrubRows cl (buRow word) (buCount word) (buScope s.variant word) bad t)

/-- SCRUB: a syndrome check by the controller. One a kernel issues is rejected (R124). -/
def execScrub (cl : Nat) (kernel : Option Nat) (word : BitVec 128) (bad : List BadColumn) (s : State) :
    Host.Outcome State Fault Refusal :=
  let c : BuCmd := { op := 10, word := word }
  .next (
    if !s.clusterUp cl then s
    else
      match kernel with
      | some m => if s.mayQueue m then s.jobFault m else s
      | none => if buFormOk s c && buFits s cl c && buStarts s cl word && buRow word + buCount word ≤ 32768 then scrubRun cl word bad s else s)

/-- TLOGRD (R127). -/
def execTlogrd (cl job : Nat) (word ext : BitVec 128) (s : State) : Host.Outcome State Fault Refusal :=
  .next (buIssue cl { op := 11, job := job, word := word, ext := ext } s)

/-- KVFLUSH (R138). A kernel's enters the sequencer's queue (R125); a commit may need one (R37). -/
def execKvflush (cl job first count : Nat) (s : State) : Host.Outcome State Fault Refusal :=
  .next (
    if s.tick.inCommit then if s.clusterUp cl then doKvflush cl first count s else s
    else buIssue cl { op := 16, job := job, first := first, count := count } s)

/-- The buffer writes its oldest entries back on its own once it is 75 % full. -/
def execAppendBufferWriteback (cl entries : Nat) (s : State) : Host.Outcome State Fault Refusal :=
  .next (
    if s.clusterUp cl && 3072 ≤ (s.bcl cl).append.length then
      (((s.bcl cl).append.take entries).foldl (writeEntry cl) s).modBcl cl (fun c => { c with append := c.append.drop entries })
    else s)

/-! ## Combination (R128, R129, R135, R136) -/

/-- The contribution of frames passed by a bank, recomputed through the correcting path for the sets keep names. -/
def recompute (s : State) (cl : Nat) (exptab : List (BitVec 16)) (sets : List (Nat × QuerySet)) (bad : List BadColumn)
    (passed : List (Nat × Nat × Nat × List (Nat × QuerySet))) (keep : Nat → Bool) (b : Nat) (accs : List (Nat × SetAcc)) : List (Nat × SetAcc) :=
  passed.foldl (fun a p =>
    let f := readFrame (fixedCol s cl b bad) p.1
    ((maskBits p.2.1 8).filter (fun i => keep i && takesPart f p.2.2.1 i (tabGetD i {} sets))).foldl (fun a i =>
      passSet f i (tabGetD i {} sets) exptab (fun _ => true) (fun _ => false) a) a) accs

/-- Elements that a V-plane column holds of its token. -/
def vElems (f : Frame) (c : Nat) : List Nat :=
  let per := if f.fmt = 1 then 64 else 32
  upFrom (c % max 1 (f.dim / per) * per) per

/-- What a skipped V column adds: the w that its taint entry logged for each set, times the corrected codes (R135). -/
def correctV (f : Frame) (sets : List Nat) (accs : List (Nat × SetAcc)) (e : TaintEntry) : List (Nat × SetAcc) :=
  let c := (e.rowOffset - 1 - planeRows f.fmt f.dim) * 64 + e.column
  sets.foldl (fun a i => (vElems f c).foldl (fun a el =>
    addAcc (128 * i + el) (vTerm f.fmt f.cbv (nth e.w i 0).toNat (codeAt f.fmt (nth f.v c []) (vPlace f.fmt el))) a) a) accs

/-- The missing contribution of one pass whose columns were skipped (R135), with the query sets that it used: deferred tokens in full,
skipped V columns from their logged w, the whole frame for a sidecar taint. The pass is known by its number since the last drain. -/
def correctPass (s : State) (cl : Nat) (exptab : List (BitVec 16)) (bad : List BadColumn) (b : Nat)
    (taints : List TaintEntry) (accs : List (Nat × SetAcc)) (pn : (Nat × Nat × Nat × List (Nat × QuerySet)) × Nat) : List (Nat × SetAcc) :=
  let p := pn.1
  let sets := p.2.2.2
  let ts := taints.filter (fun e => e.kind ≤ 2 && e.row = p.1 && e.pass = pn.2)
  if ts.isEmpty then accs
  else
    let f := readFrame (fixedCol s cl b bad) p.1
    let part := (maskBits p.2.1 8).filter (fun i => takesPart f p.2.2.1 i (tabGetD i {} sets))
    if ts.any (fun e => e.kind = 2) then
      part.foldl (fun a i => passSet f i (tabGetD i {} sets) exptab (fun _ => true) (fun _ => false) a) accs
    else
      let kc := (ts.filter (fun e => e.kind = 0)).map (fun e => (e.rowOffset - 1) * 64 + e.column)
      let deferred := fun t => kc.any (fun c => deferredBy f.fmt c t)
      let accs := part.foldl (fun a i => passSet f i (tabGetD i {} sets) exptab deferred (fun _ => false) a) accs
      (ts.filter (fun e => e.kind = 1)).foldl (correctV f part) accs

/-- A drain record with its taints corrected, or recomputed whole where the log overflowed. -/
def correctRec (s : State) (cl : Nat) (bad : List BadColumn) (r : DrainRec) : DrainRec :=
  let e := (s.bu cl r.bank).exptab
  if r.taintOvf then
    let base := r.accs.map (fun p => (p.1, { p.2 with acc := [], psum := 0, omax := 0x8000, overRange := false, live := false }))
    { r with accs := r.passed.foldl (fun a p => recompute s cl e p.2.2.2 bad [p] (fun _ => true) r.bank a) base }
  else { r with accs := r.passed.zipIdx.foldl (correctPass s cl e bad r.bank r.taints) r.accs }

/-- The corrections of a record reach its copy in scratchpad: accumulators, sums, maxima and masks (R135, Table 5-8). -/
def storeRec (s : State) (r : DrainRec) : State :=
  if r.taints.isEmpty && !r.taintOvf then s else s.putBytes r.addr ((recordBytes r.accs [] false).take 4147)

/-- Query heads per key/value head of a model, or of its draft model. -/
def groupOf' (i : ModelInfo) (draft : Bool) : Nat := max 1 (if draft then i.draftModel.groupQ else i.groupQ)

/-- What makes two loaded sets the same query: everything QLOAD gave below its D but the carried maximum, and the query head of their group,
which their index in the group tells (R118, R121, R128). -/
def queryKey (m : ModelInfo) (i : Nat) (q : QuerySet) : Nat × QuerySet :=
  (i % groupOf' m q.draft, { q with cmax := 0, q := q.q.take (headD q.head.toNat) })

/-- The sets of a record that hold a query. -/
def setsOf (m : ModelInfo) (k : Nat × QuerySet) (r : DrainRec) : List Nat :=
  (List.range 8).filter (fun i => let q := tabGetD i ({} : QuerySet) r.sets; q.valid && queryKey m i q = k)

/-- The queries of a layer that the records hold, each once. -/
def queriesOf (layer : Nat) (m : ModelInfo) (rs : List DrainRec) : List (Nat × QuerySet) :=
  (rs.flatMap (fun r => (List.range 8).map (fun i => (i, tabGetD i ({} : QuerySet) r.sets)))).foldl (fun l p =>
    let k := queryKey m p.1 p.2
    if p.2.valid && p.2.layer = layer && !l.contains k then l ++ [k] else l) []

/-- The accumulators and flags that the records hold of a query, with the first accumulator of their set. -/
def partsOf (m : ModelInfo) (k : Nat × QuerySet) (rs : List DrainRec) : List (Nat × SetAcc × List (Nat × SetAcc)) :=
  rs.flatMap (fun r => (setsOf m k r).map (fun i => (128 * i, tabGetD i ({} : SetAcc) r.accs, r.accs)))

/-- A_e, P and M of a query (R128). -/
def combA (ps : List (Nat × SetAcc × List (Nat × SetAcc))) (el : Nat) : Int :=
  ps.foldl (fun a p => a + (nth (tabGetD ((p.1 + el) / 128) ({} : SetAcc) p.2.2).acc ((p.1 + el) % 128) 0).toInt) 0
def combP (ps : List (Nat × SetAcc × List (Nat × SetAcc))) : Nat := sumN (ps.map (fun p => p.2.1.psum.toNat))
def combM (ps : List (Nat × SetAcc × List (Nat × SetAcc))) : Int :=
  ps.foldl (fun m p => if p.2.1.live then max m p.2.1.omax.toInt else m) (-32768)

/-- A query has failed: a record flags it over, or it is live and its probability is below the threshold (R129). -/
def queryOver (ps : List (Nat × SetAcc × List (Nat × SetAcc))) : Bool := ps.any (fun p => p.2.1.overRange)
def queryLive (ps : List (Nat × SetAcc × List (Nat × SetAcc))) : Bool := ps.any (fun p => p.2.1.live)
def queryUnder (ps : List (Nat × SetAcc × List (Nat × SetAcc))) (thr : Nat) : Bool := queryLive ps && decide (combP ps * 2 ^ thr < 4096)

/-- The re-run of one failed set of a bank: ACLR for it alone, QLOAD with its carried maximum set to M, its passes repeated, drained to
its record's place (R129). -/
def rerunSet (cl thr : Nat) (m : Int) (bad : List BadColumn) (p : State × DrainRec) (i : Nat) : State × DrainRec :=
  let s := p.1
  let r := p.2
  let sets := tabMod i (fun q => { q with cmax := BitVec.ofInt 16 m }) r.sets
  let accs := recompute s cl (s.bu cl r.bank).exptab sets bad r.passed (fun j => j = i) r.bank
    (tabPut i { clearedSet with passes := (r.passed.filter (fun p => bit p.2.1 i)).length } r.accs)
  let r := { r with accs := drainAccs thr accs, sets := sets }
  ((s.modBu cl r.bank (fun u => { u with sets := tabPut i (tabGetD i {} sets) u.sets, accs := tabPut i (tabGetD i {} r.accs) u.accs })).putBytes
    r.addr (recordBytes r.accs [] false), r)

/-- The re-run of a query on every bank that holds its pages. -/
def rerunQuery (cl thr : Nat) (i : ModelInfo) (k : Nat × QuerySet) (m : Int) (bad : List BadColumn) (p : State × List DrainRec) : State × List DrainRec :=
  p.2.foldl (fun q r => let x := (setsOf i k r).foldl (rerunSet cl thr m bad) (q.1, r); (x.1, q.2 ++ [x.2])) (p.1, [])

/-- Re-runs every failed query and counts it once, as OVERRANGE where it flags both (R129, R437). -/
def rerunFailed (cl thr : Nat) (i : ModelInfo) (bad : List BadColumn) (ks : List (Nat × QuerySet)) (p : State × List DrainRec) : State × List DrainRec :=
  ks.foldl (fun p k =>
    let ps := partsOf i k p.2
    if queryOver ps || queryUnder ps thr then
      let q := rerunQuery cl thr i k (combM ps) bad p
      (q.1.countStep (fun c => if queryOver ps then { c with overrange := inc64 c.overrange } else { c with underrange := inc64 c.underrange }), q.2)
    else p) p

/-- The cache format record of a layer and head of a model, or of its draft model (R176). -/
def cacheFmt (i : ModelInfo) (draft : Bool) (layer head : Nat) : CacheFmt :=
  if draft then nth i.draftModel.cacheFmts (layer * i.draftModel.kvHeads + head) {} else nth i.cacheFmts (layer * i.kvHeads + head) {}

/-- Attention output o_e = A_e x 2^(7 + e_v) / P in FP32 (R128): A_e and P are rounded to FP32 each, A_e is scaled, and the quotient is rounded
(DESIGN CHOICE, log 29: the spec says "in FP32" and gives no order of rounding). -/
def attnOut (ps : List (Nat × SetAcc × List (Nat × SetAcc))) (ev : Int) (el : Nat) : U32 :=
  fpDiv (fpScale (fpOfInt (combA ps el)) (7 + ev)) (fpOfInt (Int.ofNat (combP ps)))

/-- The tree node a set's mask names: the highest of its ancestor bits, 0 for the root (R247). -/
def maskNode (m : BitVec 64) : Nat := if m = 0 then 0 else Nat.log2 m.toNat

/-- The query head of a query: its key/value head's group, and its place in it. -/
def queryHead (groupQ : Nat) (k : Nat × QuerySet) : Nat := bits k.2.head.toNat 3 0 * groupQ + k.1

/-- The plan row that a query is of: its owner's, or the rebuild row that it was loaded for. -/
def queryRow (q : QuerySet) : Nat := match q.rebuild with | none => q.owner | some h => 1048576 + h

/-- The node of its row that a query is of: a tree node by its mask, else the position from the owner's committed length, or from the block
of a rebuild row. -/
def queryNode (s : State) (q : QuerySet) : Nat :=
  if q.nodeMask ≠ 0 then maskNode q.nodeMask
  else
    let base := match q.rebuild with
      | none => ((s.req? q.owner).map (·.committedLen)).getD 0
      | some h => ((s.group? h).map (·.start)).getD 0
    q.limit - 1 - base

/-- Notes M of a live query of the target model in the step-attempt of its row (R130, R388). -/
def noteMax (m : ModelInfo) (k : Nat × QuerySet) (v : Int) (s : State) : State :=
  let x : CarriedMax := { layer := k.2.layer, head := queryHead (groupOf' m false) k, value := BitVec.ofInt 16 v, node := queryNode s k.2 }
  if k.2.draft then s
  else s.onPlan (fun p => { p with attempts := p.attempts.map (fun a => if a.slot = queryRow k.2 then { a with maxima := a.maxima ++ [x] } else a) })

/-- A layer as the marks of non-finite rows name it: those of a draft model follow 256 (R184). -/
def nanLayer (draft : Bool) (layer : Nat) : Nat := if draft then 256 + layer else layer

/-- The attention output of a query, element by element; NaN where the row is non-finite in the layer (R128, R184). -/
def queryOut (s : State) (m : ModelInfo) (rs : List DrainRec) (k : Nat × QuerySet) : AttnOut :=
  let ps := partsOf m k rs
  let ev := i8 (cacheFmt m k.2.draft k.2.layer (bits k.2.head.toNat 3 0)).ev
  let nan := s.plan.nanRows.contains (queryRow k.2, queryNode s k.2, nanLayer k.2.draft k.2.layer)
  { layer := k.2.layer, head := queryHead (groupOf' m k.2.draft) k, owner := queryRow k.2, limit := k.2.limit, nodeMask := k.2.nodeMask
    o := (List.range (headD k.2.head.toNat)).map (fun el => if nan then fpNaN 0 0 else attnOut ps ev el) }

/-- Combines a job's drain records of a layer: taints corrected first, failed queries re-run, attention outputs formed. -/
def layerCombine (cl job layer : Nat) (bad : List BadColumn) (s : State) : State :=
  let bads := bad.filter colWrong
  let i := (s.mslot job).info
  let rs := ((s.bcl cl).drains.filter (fun r => r.job = job)).map (correctRec s cl bads)
  let ks := queriesOf layer i rs
  let r := rerunFailed cl (rf (nth s.regs.buCfg cl 0) 23 20) i bads ks (rs.foldl storeRec (noteColumns cl bads s), rs)
  let live := ks.filter (fun k => queryLive (partsOf i k r.2))
  let t := live.foldl (fun u k => noteMax i k (combM (partsOf i k r.2)) u) r.1
  t.modBcl cl (fun c => { c with drains := c.drains.filter (fun x => x.job ≠ job), outputs := live.map (queryOut r.1 i r.2) })

/-- LAYER_COMBINE: the cluster vector pipe combines the layer's drain records once the job's queued commands have run (R128). -/
def execLayerCombine (cl job layer : Nat) (bad : List BadColumn) (s : State) : Host.Outcome State Fault Refusal :=
  .next (
    let i := (s.mslot job).info
    if s.clusterUp cl && layer < max i.layers i.draftModel.layers && s.jobRuns job && (s.bcl cl).drains.any (fun r => r.job = job)
        && !(s.bcl cl).queue.any (fun q => q.job = job) then layerCombine cl job layer bad s
    else s)

/-! ## Refresh and patrol (R133, R143) -/

/-- One refresh of a bank: its burst ends; the interval it pays for is the oldest it owes, and where it owes none its next interval begins. -/
def refreshBank (now : Nat) (c : BankCluster) (b : Nat) (u : BankUnit) : BankUnit :=
  let base := refreshBase c b
  let owed := (now - base) / trefi c
  { u with burst := 0, refreshed := if owed = 0 then now else if owed ≤ 2 then base + trefi c else now - trefi c }

/-- BANK_REFRESH: a bank is refreshed between its bursts; commands that waited for it may start. An all-bank refresh of a channel none of whose
banks is in a burst is reported as one such row for each of its banks (R133; log 29). -/
def execBankRefresh (cl bank : Nat) (s : State) : Host.Outcome State Fault Refusal :=
  .next (
    if s.clusterUp cl && bank < banksOf s.variant then (s.modBu cl bank (refreshBank s.now (s.bcl cl) bank)).buPump cl
    else s)

/-- STACK_HOT_CHANGE: a stack is hot above 85 degrees and until below 83 (Table 5-10, R133). -/
def execStackHotChange (cl temp : Nat) (s : State) : Host.Outcome State Fault Refusal :=
  .next (
    if s.clusterUp cl then s.modBcl cl (fun c => { c with hot := if 85 < temp then true else if temp < 83 then false else c.hot }) else s)

/-- The command word of a scrub of one row of one bank. -/
def patrolWord (v : Variant) (bank row : Nat) : U128 :=
  BitVec.ofNat 128 (10 * 2 ^ 120 + 2 ^ (bank / dieBanks v) * 2 ^ 104 + 2 ^ (bank % dieBanks v) * 2 ^ 40 + row * 2 ^ 25 + 16)

/-- PATROL_SCRUB: the controller scrubs the next row of a bank in its patrol (R143). -/
def execPatrolScrub (cl bank : Nat) (bad : List BadColumn) (s : State) : Host.Outcome State Fault Refusal :=
  .next (
    let row := (s.bu cl bank).patrolRow
    let w := patrolWord s.variant bank row
    if s.clusterUp cl && bank < banksOf s.variant && bit (nth s.regs.buScrub cl 0).toNat 12 && buStarts s cl w then
      (scrubRun cl w bad s).modBu cl bank (fun u => { u with patrolRow := (row + 1) % 32768 })
    else s)

end Sys2Proof.Machine
end

