-- ==== Sys2Proof/Machine/Places.lean ====
section
/-! DEFINITION. Where objects of tier 1 lie (R262): a search, from an open start, for consecutive free rows of the pool of a stack
that keep the rules of R262. Which permitted place is taken is left open (log 6).
Readings of the spec: log 21. -/

namespace Sys2Proof.Machine

open Sys2Proof

/-- Rows of a bank that belong to the pool (Table 11-2). -/
def poolRows (v : Variant) (b : Nat) : Nat :=
  if b < poolBanks v then 32768 else if b = poolBanks v + 1 then 5120 else 0

/-- Banks in which the search goes, from an open start round all of them, those to be avoided last. -/
def bankList (v : Variant) (start : Nat) (avoid : List Nat) : List Nat :=
  let n := poolBanks v + 2
  let l := (List.range n).map (fun k => (start + k) % n)
  l.filter (fun b => !avoid.contains b) ++ l.filter (fun b => avoid.contains b)

/-- A run of n rows from row r of a bank lies in the pool, at a row of the parity asked for, clear of the runs in use. -/
def rowFits (v : Variant) (used : List (Nat × Nat)) (par : Option Nat) (n b r : Nat) : Bool :=
  r + n ≤ poolRows v b && (match par with | none => true | some p => r % 2 = p)
    && used.all (fun u => b * 32768 + r + n ≤ u.1 || u.1 + u.2 ≤ b * 32768 + r)

/-- An object to place: what of its place is fixed, and what is preferred where it can be had (R262). -/
structure Want where
  /-- bank, where it is fixed -/
  bank : Option Nat := none
  /-- parity of its first row, where it is fixed -/
  parity : Option Nat := none
  /-- row granules -/
  rows : Nat := 0
  /-- banks to be taken last: those of the same layer in the page group before -/
  avoid : List Nat := []
  /-- rows to be taken first: frame rows that banks already use for the same layer -/
  near : List Nat := []
  deriving DecidableEq, Repr, Inhabited

/-- The run in use that lies last before row r of bank b. -/
def runBefore (used : List (Nat × Nat)) (b r : Nat) : Option (Nat × Nat) :=
  (used.filter (fun u => u.1 / 32768 = b && u.1 < b * 32768 + r)).foldl (fun (m : Option (Nat × Nat)) u =>
    match m with | none => some u | some v => if v.1 < u.1 then some u else some v) none

/-- Rank of a row of a bank, the least first: preferred rows before others, and within each those of the parity opposite to the run before
them (R262). -/
def rowRank (used : List (Nat × Nat)) (near : List Nat) (b r : Nat) : Nat :=
  (if near.contains r then 0 else 2) + (match runBefore used b r with | none => 0 | some u => if u.1 % 2 = r % 2 then 1 else 0)

/-- The row taken in a bank: of the preferred rows, the start of the bank, and the rows just behind a run in use, that of least rank and then
the lowest. -/
def freeRow (v : Variant) (used : List (Nat × Nat)) (w : Want) (b : Nat) : Option Nat :=
  let mine := used.filter (fun u => u.1 / 32768 = b)
  let starts := (0 :: mine.map (fun u => u.1 + u.2 - b * 32768)).flatMap (fun r => [r, r + 1]) ++ w.near
  let key := fun r => rowRank mine w.near b r * 32768 + r
  (starts.filter (rowFits v mine w.parity w.rows b)).foldl (fun (m : Option Nat) r =>
    match m with | none => some r | some k => some (if key r < key k then r else k)) none

/-- Granule index of the rows of an object in the first of some banks that has them. -/
def placeIn (v : Variant) (used : List (Nat × Nat)) (w : Want) : List Nat → Option Nat
  | [] => none
  | b :: r =>
    match freeRow v used w b with
    | some k => some (b * 32768 + k)
    | none => placeIn v used w r

/-- Places objects of one stack one after the other, in different banks where it can; none where one has no place. -/
def placeEach (v : Variant) (start : Nat) : List Want → List (Nat × Nat) → List Nat → Option (List Nat)
  | [], _, _ => some []
  | w :: rest, used, avoid =>
    match placeIn v used w (match w.bank with | some b => [b] | none => bankList v start (w.avoid ++ avoid)) with
    | none => none
    | some g => (placeEach v start rest ((g, w.rows) :: used) (g / 32768 :: avoid)).map (g :: ·)

/-- Channel c and place i within it of a bank on a variant: die-local index 2 i + c mod 2 of die c div 2 (R123). -/
def channelBank (v : Variant) (c i : Nat) : Nat := c / 2 * (banksOf v / 16) + 2 * i + c % 2

/-- The banks tried for the k-th ingot of a kernel: round-robin over the 32 channels, within each over its banks (R154). -/
def ingotBanks (v : Variant) (start k : Nat) : List Nat :=
  let n := banksOf v / 32
  let c := (start + k) % 32
  (List.range n).map (fun j => channelBank v c (((start + k) / 32 + j) % n))

end Sys2Proof.Machine
end

