-- ==== Sys2Proof/Machine/TierOps.lean ====
section
/-! DEFINITION. Operations of the Tier Manager that several families share: sizes of objects (R265, R271), quotas and reclaim
(R280), page-group transitions (R266 to R269), digests and the prefix index (R274, R275), publication (R277).
Readings of the spec: logs 20, 21. -/

namespace Sys2Proof.Machine

open Sys2Proof

/-! ## Sizes in granules (R265, R271, Table 11-9) -/

/-- Row granules of a page frame of a layer and head. -/
def pageRows (i : ModelInfo) (layer head : Nat) : Nat :=
  let f := nth i.cacheFmts (layer * i.kvHeads + head) {}
  frameRows f.fmt (if f.dsel = 0 then 64 else if f.dsel = 1 then 128 else 256)

/-- Page frames of a group: granules over all clusters. -/
def groupFrames (i : ModelInfo) : Nat := sumN (i.pageOrder.map (fun l => sumN (l.map (fun p => pageRows i p.1 p.2))))

/-- Carried scales held on a cluster: slots of kinds 1 and 3, and on CL0 those of kinds 0, 2 and 4 (R185). -/
def scalesOn (i : ModelInfo) (cl : Nat) : Nat :=
  (i.tslots.zipIdx.filter (fun p => p.1.carried && (p.2 % 8 = 1 || p.2 % 8 = 3 || (cl = 0 && p.2 % 8 ≤ 4)))).length

/-- Carried maxima held on a cluster: one per layer and query head of its pages (R130). -/
def maximaOn (i : ModelInfo) (cl : Nat) : Nat := (nth i.pageOrder cl []).length * i.groupQ

/-- Map granule and rebuild record of a group on a cluster that holds pages of it (R265, Table 17-4). -/
def metaOn (i : ModelInfo) (c : Nat) : Nat := 1 + ceilDiv (64 + 4 * scalesOn i c + 2 * maximaOn i c) 2048

/-- Logical clusters that hold pages of a model. -/
def pageClusters (i : ModelInfo) : List Nat := (List.range 16).filter (fun c => !(nth i.pageOrder c []).isEmpty)

/-- Pages of a model in page order: (cluster, layer, head). -/
def pagesOf (i : ModelInfo) : List (Nat × Nat × Nat) := (List.range 16).flatMap (fun c => (nth i.pageOrder c []).map (fun p => (c, p.1, p.2)))

/-- Map granules and rebuild records of a group (R265). -/
def groupMeta (i : ModelInfo) : Nat := sumN ((pageClusters i).map (metaOn i))

/-- The draft model of an image, as a model whose pages and groups go by the same rules (R270, R293). -/
def draftView (i : ModelInfo) : ModelInfo :=
  { layers := i.draftModel.layers, kvHeads := i.draftModel.kvHeads, groupQ := i.draftModel.groupQ, cacheFmts := i.draftModel.cacheFmts
    tslots := i.draftModel.tslots, pageOrder := i.draftModel.pageOrder }

/-- The model whose cache a group holds. -/
def groupModel (s : State) (m : Nat) (draft : Bool) : ModelInfo := if draft then draftView (s.mslot m).info else (s.mslot m).info

/-- Distinct layers of a cluster's page order, each with its first page's head. -/
def clusterLayers (i : ModelInfo) (cl : Nat) : List (Nat × Nat) :=
  (nth i.pageOrder cl []).foldl (fun acc p => if acc.any (fun q => q.1 = p.1) then acc else acc ++ [p]) []

/-- Granules of provisional frames on a cluster: one page frame for each layer that has pages there. -/
def layerFrames (i : ModelInfo) (cl : Nat) : Nat := sumN ((clusterLayers i cl).map (fun p => pageRows i p.1 p.2))

/-- Granules of a page list for so many positions, doubled for a draft model (Table 11-9). -/
def listGranules (n source : Nat) : Nat := (if source = 2 then 2 else 1) * ceilDiv (8 * ceilDiv n 128) 2048

/-- Granules of a carried-estimate record on a cluster. -/
def estGranules (i : ModelInfo) (c : Nat) : Nat := ceilDiv (4 * scalesOn i c + 2 * maximaOn i c) 2048

/-- Granules of a draft block. -/
def draftGranules (n source : Nat) : Nat := if source = 1 then ceilDiv (4 * n + 1048576) 2048 else if source = 3 then 8 else 0

/-- Granules of the objects of Table 11-9 for a request. -/
def objectGranules (i : ModelInfo) (promptLen maxNew source maxNodes : Nat) : Nat :=
  let prov := if 1 < maxNodes then sumN ((List.range 16).map (layerFrames i)) else 0
  let dprov := if source = 2 && 1 < maxNodes then sumN ((List.range 16).map (layerFrames (draftView i))) else 0
  listGranules (promptLen + maxNew) source + 25 + sumN ((List.range 16).map (estGranules i)) + draftGranules (promptLen + maxNew) source + prov + dprov

/-! ## Page groups -/

/-- Changes a group. -/
def State.modGroup (s : State) (h : Nat) (f : PageGroup → PageGroup) : State :=
  s.onTier (fun t => { t with groups := tabMod h f t.groups })

/-- Low 32 bits of the tick index. -/
def State.tick32 (s : State) : Nat := s.tick.index % two32

/-- Strong page-list entries of a request that name a group. -/
def strongRefs (h : Nat) (r : Request) : Nat := ((r.pages ++ r.draftPages).filter (fun p => p.handle = h && !p.weak)).length

/-- Idle: every strong reference is held by a request in PARKED; so it is when refs is 0 (R267). -/
def idleGroup (s : State) (h : Nat) (g : PageGroup) : Bool :=
  g.refs = sumN ((s.req.table.filter (fun p => p.2.state = .parked)).map (fun p => strongRefs h p.2))

/-! ## Charges (R280) -/

/-- Adds to or takes from a tenant's charge in a tier. -/
def chargeAdd (t n : Nat) (l : List (Nat × Nat)) : List (Nat × Nat) := tabUpd t 0 (· + n) l
def chargeSub (t n : Nat) (l : List (Nat × Nat)) : List (Nat × Nat) := tabUpd t 0 (· - n) l

/-- Device address at which the tier-2 window starts (Table 11-1). -/
def t2Base : Nat := 0x100000000000

/-- Tier-2 traffic of n bytes from a window address: granule by granule it is spread over the ports that are up, and as a page holds two
granules each of those ports uses the translation of every page (R344, R345). -/
def State.translateTier (s : State) (a n : Nat) : State :=
  match s.tier.regions.find? (fun r => t2Base + r.offset ≤ a && a < t2Base + r.offset + r.length) with
  | none => s
  | some r => [0, 1].foldl (fun t p => if t.portUp p then t.translate p (r.hostAddr + (a - t2Base - r.offset)) n else t) s

/-- The region of a number. -/
def regionOf (s : State) (n : Nat) : Option Region := s.tier.regions.find? (fun r => r.number = n)

/-- A group's tier-2 granules lie in a draining region, from which nothing is allocated (R283). -/
def inDraining (s : State) (g : PageGroup) : Bool := match regionOf s g.t2Region with | none => false | some r => r.draining

/-- Granules of a region that are allocated: those of parked copies and of demotions in progress. -/
def regionUsed (s : State) (r : Region) : Nat :=
  sumN ((s.tier.groups.filter (fun p => p.2.t2Granules ≠ 0 && p.2.t2Region = r.number)).map (fun p => p.2.t2Granules))

/-- A draining or fixed region takes no allocation; others count toward the free tier-2 granules (R283). -/
def regionFree (r : Region) : Nat := if r.isFixed || r.draining then 0 else r.length / 2048

/-- Free granules of a region that may be allocated. -/
def regionRoom (s : State) (r : Region) : Nat := regionFree r - regionUsed s r

/-- The region whose granules a demotion takes: the first, from an open start, that has room for n. -/
def regionFor (s : State) (n : Nat) : Option Nat :=
  ((upFrom (Config.place s.freeCtr 16 n % 64) 64).map (· % 64)).find? (fun k =>
    match regionOf s k with | none => false | some r => !r.isFixed && !r.draining && n ≤ regionRoom s r)

/-- Releases tier-2 granules of a group and its charge. -/
def State.releaseT2 (s : State) (h : Nat) : State :=
  match s.group? h with
  | none => s
  | some g =>
    (s.onTier (fun t => { t with t2Free := if inDraining s g then t.t2Free else t.t2Free + g.t2Granules
                                 used2 := chargeSub g.charge g.t2Granules t.used2 })).modGroup h
      (fun g => { g with t2Granules := 0, t2Addr := 0 })

/-- Granules go to fill: they stay charged until the fill has ended, after the next execute window at the earliest (R263). -/
def State.addFillAt (s : State) (n : Nat) (tenant forTenant group slotOf : Option Nat) (spans : List (Nat × Nat × Nat)) : State :=
  s.onTier (fun t => { t with fills := t.fills ++
    [{ granules := n, tenant := tenant, forTenant := forTenant, group := group, slotOf := slotOf, endsAt := s.tick.index + 1, spans := spans }] })

/-- Granules of objects whose places no record names go to fill. -/
def State.addFill (s : State) (n : Nat) (tenant forTenant group slotOf : Option Nat) : State := s.addFillAt n tenant forTenant group slotOf []

/-- Row granules of a group's frames: (stack, first, count). -/
def frameSpans (i : ModelInfo) (g : PageGroup) : List (Nat × Nat × Nat) :=
  (g.frames.zip i.pageOrder.flatten).map (fun x => (x.1.1, x.1.2, pageRows i x.2.1 x.2.2))

/-- Row granules of a group's map granules and rebuild records. -/
def mapSpans (i : ModelInfo) (g : PageGroup) : List (Nat × Nat × Nat) :=
  (g.map.zip (pageClusters i)).map (fun x => (x.1.1, x.1.2, metaOn i x.2))

/-- Row granules of a group, in tier 1. -/
def groupSpans (s : State) (g : PageGroup) : List (Nat × Nat × Nat) :=
  let i := groupModel s g.modelSlot g.draft
  frameSpans i g ++ mapSpans i g

/-- Row granules of provisional frames. -/
def provSpans (l : List ProvFrame) : List (Nat × Nat × Nat) := l.map (fun p => (p.stack, p.granule, p.rows))

/-- Row granules of a request's objects (Table 11-9). -/
def requestSpans (r : Request) : List (Nat × Nat × Nat) := r.objects ++ provSpans r.prov ++ provSpans r.draftProv

/-! ## Places (R262) -/

/-- Every run of row granules of tier 1 that is in use or waits for its fill: (stack, first, count). -/
def allSpans (s : State) : List (Nat × Nat × Nat) :=
  s.tier.groups.flatMap (fun p => groupSpans s p.2) ++ s.req.table.flatMap (fun p => requestSpans p.2)
    ++ s.models.slots.flatMap (fun p => p.2.info.spans) ++ s.models.gens.flatMap (·.spans) ++ s.tier.fills.flatMap (·.spans)
    ++ s.faults.retiredBanks.map (fun p => (p.1, p.2 * 32768, 32768))

/-- Runs of a list that lie on a stack. -/
def onStack (n : Nat) (l : List (Nat × Nat × Nat)) : List (Nat × Nat) := (l.filter (fun x => x.1 = n)).map (·.2)

/-- Open places for objects on a stack, beside runs taken in the same allocation; none where one has no permitted place. -/
def placeOn (s : State) (taken : List (Nat × Nat × Nat)) (stack k : Nat) (wants : List Want) : Option (List Nat) :=
  placeEach s.variant (Config.place s.freeCtr stack k) wants (onStack stack (allSpans s ++ taken)) []

/-- Frames of a layer on a cluster among those of a group: (stack, granule). -/
def layerPlaces (i : ModelInfo) (g : PageGroup) (c layer : Nat) : List (Nat × Nat) :=
  ((g.frames.zip (pagesOf i)).filter (fun x => x.2.1 = c && x.2.2.1 = layer)).map (·.1)

/-- Frame rows at which the groups of a model hold a layer on a cluster. -/
def layerRows (s : State) (m : Nat) (draft : Bool) (c layer : Nat) : List Nat :=
  (s.tier.groups.filter (fun p => p.2.modelSlot = m && p.2.draft = draft)).flatMap (fun p =>
    (layerPlaces (groupModel s m draft) p.2 c layer).map (fun x => x.2 % 32768))

/-- The group a request holds for a block, whose pages those of the next block keep away from. -/
def groupAt (s : State) (r : Request) (draft : Bool) (b : Nat) : Option PageGroup := s.group? (nth (if draft then r.draftPages else r.pages) b ({} : PageRef)).handle

/-- Where the pages of a group go: the model, the provisional frames that bind them, and the group of the block before. -/
structure PlaceFor where
  /-- model slot -/
  m : Nat := 0
  /-- the draft model's pages -/
  draft : Bool := false
  /-- provisional frames of the request (R249) -/
  prov : List ProvFrame := []
  /-- group of the block before -/
  prior : Option PageGroup := none
  deriving DecidableEq, Repr, Inhabited

/-- The provisional frames that bind the pages of a request's groups. -/
def provOf (r : Request) (draft : Bool) : List ProvFrame := if draft then r.draftProv else r.prov

/-- What a page group of a request at a block is placed for. -/
def placeFor (s : State) (r : Request) (draft : Bool) (b : Nat) : PlaceFor :=
  { m := r.modelSlot, draft := draft, prov := provOf r draft, prior := if b = 0 then none else groupAt s r draft (b - 1) }

/-- What a page group that exists is placed for. -/
def placeOf (s : State) (g : PageGroup) : PlaceFor :=
  match g.owner.bind s.req? with
  | some r => placeFor s r g.draft (g.start / 128)
  | none =>
    { m := g.modelSlot, draft := g.draft
      prior := ((s.tier.groups.find? (fun p => p.2.digest = g.prevDigest && p.2.domain = g.domain && p.2.modelSlot = g.modelSlot && p.2.start + 128 = g.start)).map
        (·.2)) }

/-- A page of a layer on a cluster: in the bank of the request's provisional frame and at the parity opposite to its row (R249), or in another
bank than the layer's pages of the group before; at a row that banks use for the layer where it can (R262). -/
def pageWant (s : State) (w : PlaceFor) (c layer rows : Nat) : Want :=
  let near := layerRows s w.m w.draft c layer
  match w.prov.find? (fun p => p.cluster = c && p.layer = layer) with
  | none =>
    { rows := rows, near := near
      avoid := match w.prior with | none => [] | some g => (layerPlaces (groupModel s w.m w.draft) g c layer).map (fun x => x.2 / 32768) }
  | some p => { bank := some (p.granule / 32768), parity := some ((p.granule + 1) % 2), rows := rows, near := near }

/-- Frames and map granules placed so far in an allocation, with the runs they take. -/
structure Placed where
  /-- (stack, frame row granule) in page order -/
  frames : List (Nat × Nat) := []
  /-- (stack, map granule) -/
  maps : List (Nat × Nat) := []
  /-- runs taken -/
  taken : List (Nat × Nat × Nat) := []
  deriving DecidableEq, Repr, Inhabited

/-- Places the pages of a group on one cluster, and their map granule and rebuild record where they are asked for. -/
def placeCluster (s : State) (w : PlaceFor) (maps : Bool) (q : Placed) (c : Nat) : Option Placed :=
  let i := groupModel s w.m w.draft
  let stack := nth s.faults.clmap c c
  let pages := (nth i.pageOrder c []).map (fun p => pageWant s w c p.1 (pageRows i p.1 p.2))
  let wants := if maps then pages ++ [{ rows := metaOn i c }] else pages
  (placeOn s q.taken stack c wants).map (fun l =>
    { frames := q.frames ++ (l.take pages.length).map (fun g => (stack, g)), maps := q.maps ++ (l.drop pages.length).map (fun g => (stack, g))
      taken := q.taken ++ (l.zip wants).map (fun x => (stack, x.1, x.2.rows)) })

/-- Places a page group. -/
def placeGroup (s : State) (w : PlaceFor) (maps : Bool) : Option Placed :=
  (pageClusters (groupModel s w.m w.draft)).foldl (fun (q : Option Placed) c => q.bind (fun q => placeCluster s w maps q c)) (some {})

/-! ## Sidecars (Table 5-4a) -/

/-- Bytes 0 to 95 of a page sidecar. -/
def sidecar (f : CacheFmt) (kind layer head start owner domain : Nat) : List Byte :=
  leBytes 1 f.fmt ++ leBytes 1 kind ++ leBytes 1 layer ++ leBytes 1 (head + 16 * f.dsel) ++ leBytes 4 start ++ leBytes 4 owner ++ leBytes 2 domain
    ++ List.replicate 50 0 ++ (if f.fmt = 1 then slice f.cbk 0 16 ++ slice f.cbv 0 16 else List.replicate 32 0)

/-- Writes the sidecars of a new group's frames: private to a request. -/
def writeSidecars (i : ModelInfo) (frames : List (Nat × Nat)) (start owner domain : Nat) (m : Memory) : Memory :=
  (frames.zip i.pageOrder.flatten).foldl (fun m (x : (Nat × Nat) × (Nat × Nat)) =>
    m.writeN (granAddr x.1.1 x.1.2 0) (sidecar (nth i.cacheFmts (x.2.1 * i.kvHeads + x.2.2) {}) 0 x.2.1 x.2.2 start owner domain)) m

/-- Writes the sidecars of a request's provisional frames: kind 0x02 (R248). -/
def writeProvs (i : ModelInfo) (l : List ProvFrame) (owner domain : Nat) (m : Memory) : Memory :=
  l.foldl (fun m p =>
    let head := (((clusterLayers i p.cluster).find? (fun q => q.1 = p.layer)).map (·.2)).getD 0
    m.writeN (granAddr p.stack p.granule 0) (sidecar (nth i.cacheFmts (p.layer * i.kvHeads + head) {}) 2 p.layer head 0 owner domain)) m

/-- Removes the index entry of a group (R275). -/
def State.unindex (s : State) (h : Nat) : State :=
  (s.onTier (fun t => { t with index := t.index.filter (fun e => e.handle ≠ h) })).modGroup h (fun g => { g with indexed := false })

/-- A group goes to FREEING: unindexed, its tier-1 granules released to fill, its tier-2 granules released (Table 11-7). -/
def State.freeGroup (s : State) (h : Nat) (forTenant : Option Nat) : State :=
  match s.group? h with
  | none => s
  | some g =>
    let n := (if g.state = .parked then 0 else g.frameGranules) + g.metaGranules
    (((s.unindex h).releaseT2 h).addFillAt n (some g.charge) forTenant (some h) none (groupSpans s g)).modGroup h
      (fun g => { g with state := .freeing, frames := [], map := [], refs := 0, owner := none, rebuild := false, pinned := false, readLost := false })

/-- Re-checks a group under Table 11-7: RESIDENT or PARKED with refs 0 and no index entry goes to FREEING, unless it is pinned (R282). So does
a PROMOTING one whose read has failed, which no promotion ends any more (Table 11-15). -/
def State.recheck (s : State) (h : Nat) : State :=
  match s.group? h with
  | none => s
  | some g =>
    let ends := g.state = .resident || g.state = .parked || (g.state = .promoting && (g.rebuild || g.readLost))
    if g.refs = 0 && !g.indexed && !g.pinned && ends then s.freeGroup h none else s

/-- Takes a strong reference. -/
def State.takeRef (s : State) (h : Nat) : State := s.modGroup h (fun g => { g with refs := g.refs + 1, lastUse := s.tick32 })

/-- Drops a strong reference, and re-checks the group. -/
def State.dropRef (s : State) (h : Nat) : State := (s.modGroup h (fun g => { g with refs := g.refs - 1 })).recheck h

/-! ## Reclaim and grants (R268, R280) -/

/-- Ticks since a group was last used, modulo 2^32. -/
def groupAge (s : State) (g : PageGroup) : Nat := (s.tick32 + two32 - g.lastUse % two32) % two32

/-- A group that eviction may take (R268), in the tier to be relieved: RESIDENT for tier 1, PARKED for tier 2. One with rebuild set cannot
demote, so it departs from tier 1 by a drop policy only (Table 11-7). -/
def victimOk (s : State) (tier : Nat) (own : Option Nat) (g : PageGroup) : Bool :=
  g.state = (if tier = 1 then .resident else .parked) && g.refs = 0 && !g.pinned && (tier ≠ 1 || !g.rebuild || (s.domain g.domain).dropPolicy) &&
    match own with
    | none => true
    | some t => g.charge = t

/-- The victim with the oldest last_use, ties to the lower handle. -/
def pickVictim (s : State) (tier : Nat) (own : Option Nat) : Option Nat :=
  ((s.tier.groups.filter (fun p => victimOk s tier own p.2)).foldl (fun b p =>
    match b with
    | none => some (p.1, groupAge s p.2)
    | some q => if q.2 < groupAge s p.2 then some (p.1, groupAge s p.2) else some q) (none : Option (Nat × Nat))).map (·.1)

/-- Granules of tier-1 departures that reclaim has started and whose fills have not ended, for all tenants or for one. -/
def departing (s : State) (own : Option Nat) : Nat :=
  let mine := fun (t : Option Nat) => t.isSome && (own.isNone || t = own)
  sumN ((s.tier.fills.filter (fun f => mine f.forTenant)).map (·.granules)) +
    sumN ((s.tier.groups.filter (fun p => p.2.state = .demoting && mine p.2.fillTenant)).map (fun p => p.2.frameGranules))

/-- Manifest granules of n frame granules: one CRC-32 each (R284). -/
def manifestGranules (n : Nat) : Nat := ceilDiv (4 * n) 2048

/-- Counts a reclaim victim (Table 11-17). -/
def State.countVictim (s : State) : State := s.onTier (fun t => { t with evVictims := t.evVictims + 1 })

/-- Tier-2 reclaim: victims go to FREEING until the shortfall is covered. -/
def reclaimT2 (own : Option Nat) : Nat → Nat → State → State
  | 0, _, s => s
  | f + 1, short, s =>
    if short = 0 then s
    else
      match pickVictim s 2 own with
      | none => s
      | some h =>
        let gain := match s.group? h with | none => 0 | some g => g.t2Granules
        reclaimT2 own f (short - gain) ((s.freeGroup h ((s.group? h).map (·.charge))).countVictim)

/-- Counts a refused allocation (Table 11-17). -/
def State.refuse (s : State) : State := s.onTier (fun t => { t with evRefused := t.evRefused + 1 })

/-- Reclaim is on (Table 11-18). -/
def reclaimOn (s : State) : Bool := bit s.regs.tmCtl.toNat 16

/-- Grants n tier-2 granules to a tenant, which lie in one region (R284), or refuses with a status, having started departures. -/
def State.grant2 (s : State) (t n : Nat) : State × Nat :=
  let q := (s.tenant t).t2QuotaMib * 512
  let used := tabGetD t 0 s.tier.used2
  let fuel := if reclaimOn s then s.tier.groups.length else 0
  if q ≠ 0 && q < used + n then ((reclaimT2 (some t) fuel (used + n - q) s).refuse, St.quotaExceeded)
  else if s.tier.t2Free < n then ((reclaimT2 none fuel (n - s.tier.t2Free) s).refuse, St.noSpace)
  else if (regionFor s n).isNone then (s.refuse, St.noSpace)
  else (s.onTier (fun u => { u with t2Free := u.t2Free - n, used2 := chargeAdd t n u.used2 }), St.ok)

/-- Begins a demotion: idle, not pinned, not rebuilding, tier-2 space granted (Table 11-7). The flag says whether it began. -/
def State.demoteGroup (s : State) (h : Nat) (forTenant : Option Nat) : State × Bool :=
  match s.group? h with
  | none => (s, false)
  | some g =>
    if g.state = .resident && !g.pinned && !g.rebuild && idleGroup s h g then
      let n := g.frameGranules + manifestGranules g.frameGranules
      let r := s.grant2 g.charge n
      if r.2 = St.ok then
        let k := (regionFor s n).getD 0
        ((((r.1.draw.modGroup h (fun g => { g with state := .demoting, t2Granules := n, t2Region := k, fillTenant := forTenant })).beginMove 3 h 0 0
          (2048 * n)).openTransit .tier h (ceilDiv n 32)).onTier (fun t => { t with demoting := setAdd h t.demoting }), true)
      else (r.1, false)
    else (s, false)

/-- One tier-1 victim departs by its domain's evict setting; a demotion refused for space drops it. -/
def State.departT1 (s : State) (h : Nat) : State :=
  match s.group? h with
  | none => s
  | some g =>
    if (s.domain g.domain).dropPolicy then (s.freeGroup h (some g.charge)).countVictim
    else
      let r := s.demoteGroup h (some g.charge)
      if r.2 then r.1.countVictim else (r.1.freeGroup h (some g.charge)).countVictim

/-- Tier-1 reclaim: victims depart until the departures in progress cover the shortfall: the frames of a demotion; frames, maps and rebuild
records of a group that is dropped. -/
def reclaimT1 (own : Option Nat) : Nat → Nat → State → State
  | 0, _, s => s
  | f + 1, short, s =>
    if short ≤ departing s own then s
    else
      match pickVictim s 1 own with
      | none => s
      | some h => reclaimT1 own f short (s.departT1 h)

/-- Starts reclaim_any for a shortfall of tier 1 (R280). -/
def State.reclaimAny (s : State) (short : Nat) : State :=
  if reclaimOn s then reclaimT1 none s.tier.groups.length short s else s

/-- Grants n tier-1 granules to a tenant, or refuses with a status, having started departures. -/
def State.grant1 (s : State) (t n : Nat) (admission : Bool) : State × Nat :=
  let q := (s.tenant t).t1QuotaMib * 512
  let used := tabGetD t 0 s.tier.used1
  let floor := if admission then rf s.regs.tmCtl 15 0 * 512 else 0
  if q ≠ 0 && q < used + n then
    ((if reclaimOn s then reclaimT1 (some t) s.tier.groups.length (used + n - q) s else s).refuse, St.quotaExceeded)
  else if s.tier.t1Free < n + floor then ((s.reclaimAny (n + floor - s.tier.t1Free)).refuse, St.noSpace)
  else (s.onTier (fun u => { u with t1Free := u.t1Free - n, used1 := chargeAdd t n u.used1 }), St.ok)

/-! ## New groups (R265, R267, R272) -/

/-- An unused handle: an open choice, the next unused one from it. -/
def pickHandle (s : State) : Nat :=
  let start := 1 + Config.freeHandle s.freeCtr % 2097151
  ((upFrom start (s.tier.groups.length + 1)).map (fun h => (h - 1) % 2097151 + 1)).find? (fun h => (s.group? h).isNone) |>.getD 0

/-- Allocates a RESIDENT group for block b of a request, granted to its tenant; none where it is refused or has no permitted place (R262,
R267, R272). -/
def State.newGroup (s : State) (slot b : Nat) (draft rebuild : Bool) : State × Option PageRef :=
  match s.req? slot with
  | none => (s, none)
  | some r =>
    let i := groupModel s r.modelSlot draft
    if 2097151 ≤ s.tier.groups.length then (s.refuse, none)
    else
      let p := s.grant1 r.tenant (groupFrames i + groupMeta i) false
      if p.2 ≠ St.ok then (p.1, none)
      else
        match placeGroup s (placeFor s r draft b) true with
        | none => (s.refuse, none)
        | some q =>
          let s := p.1
          let h := pickHandle s
          let inc := (tabGetD h 0 s.tier.incarnations + 1) % two32
          let g : PageGroup := {
            incarnation := inc, refs := 1, state := .resident, rebuild := rebuild, start := b * 128, domain := r.domain, charge := r.tenant
            owner := some slot, modelSlot := r.modelSlot, cfmt := (nth i.cacheFmts 0 {}).fmt, alloyId := r.alloyId, alloyEn := r.alloyEn
            alloyGen := r.alloyGen, lastUse := s.tick32, map := q.maps, frames := q.frames
            tokens := ((contextTokens r).drop (b * 128)).take 128, snapScales := r.scales, snapMaxima := r.maxima
            prefixLen := b, frameGranules := groupFrames i, metaGranules := groupMeta i, draft := draft }
          ((s.draw.onMem (writeSidecars i q.frames (b * 128) slot r.domain)).onTier
            (fun t => { t with groups := tabPut h g t.groups, incarnations := tabDel h t.incarnations }),
            some { handle := h, weak := false, incarnation := inc })

/-- The page-list entry of block b. -/
def pageAt (l : List PageRef) (b : Nat) : PageRef := nth l b ({} : PageRef)

/-- A page list with entry b set. -/
def setPage (l : List PageRef) (b : Nat) (p : PageRef) : List PageRef :=
  (l ++ List.replicate (b + 1 - l.length) ({} : PageRef)).set b p

/-- Gives a request a group for block b of one of its arrays, where it has none; the flag says whether the block has one. -/
def State.needBlock (s : State) (slot b : Nat) (draft : Bool) : State × Bool :=
  match s.req? slot with
  | none => (s, false)
  | some r =>
    if (pageAt (if draft then r.draftPages else r.pages) b).handle ≠ 0 then (s, true)
    else
      let p := s.newGroup slot b draft false
      match p.2 with
      | none => (p.1, false)
      | some e => (p.1.modReq slot (fun r => if draft then { r with draftPages := setPage r.draftPages b e }
                                             else { r with pages := setPage r.pages b e }), true)

/-- A list of blocks for a row, target and draft arrays; all must have groups. -/
def State.needBlocks (s : State) (slot : Nat) (draft : Bool) (bs : List Nat) : State × Bool :=
  bs.foldl (fun p b =>
    let q := p.1.needBlock slot b false
    let q := if draft then let d := q.1.needBlock slot b true; (d.1, q.2 && d.2) else q
    (q.1, p.2 && q.2)) (s, true)

/-! ## Toward RESIDENT (Table 11-7) -/

/-- A group's transfer between the tiers ends, by completion, failure or because it is abandoned: its blocks of the store are released
(Table 8-2). -/
def State.endTransfer (s : State) (kind h : Nat) : State :=
  ((s.endMove kind h).closeTransit .tier h).onTier (fun t =>
    { t with demoting := setDel h t.demoting, promoting := t.promoting.filter (fun p => p.1 ≠ h) })

/-- The store has granted a group's transfer the blocks it moves through (R202, R205). -/
def transitHeld (s : State) (h : Nat) : Bool := !s.store.queue.any (fun w => w.cls = .tier && w.holder = h)

/-- Sets a group toward RESIDENT: a demotion is abandoned; a PARKED group becomes PROMOTING once frames are granted. -/
def State.towardResident (s : State) (h : Nat) (slotPlus : Nat) : State :=
  match s.group? h with
  | none => s
  | some g =>
    if g.state = .demoting then
      ((s.releaseT2 h).modGroup h (fun g => { g with state := .resident, fillTenant := none })).endTransfer 3 h
    else if g.state = .parked then
      let p := s.grant1 g.charge g.frameGranules false
      if p.2 = St.ok then
        match placeGroup s (placeOf s g) false with
        | none => s.refuse
        | some q =>
          let r := if slotPlus = 0 then none else s.req? (slotPlus - 1)
          ((((p.1.draw).modGroup h (fun g => { g with state := .promoting, frames := q.frames })).beginMove 0 h
            ((r.map (fun r => r.priority + 1)).getD 0) ((r.map (·.admitTick)).getD 0) (2048 * g.t2Granules)).openTransit .tier h
              (ceilDiv g.t2Granules 32)).onTier (fun t => { t with promoting := t.promoting ++ [(h, slotPlus)] })
      else p.1
    else s

/-- A promotion ends: RESIDENT, then FREEING in the same window where refs is 0 and it is unindexed. -/
def State.promoted (s : State) (h : Nat) : State :=
  (((s.releaseT2 h).modGroup h (fun g => { g with state := .resident, rebuild := false })).endTransfer 0 h).recheck h

/-! ## Digests and the index (R274, R275) -/

/-- Fingerprint of the Alloy generation bound, zero without an Alloy. -/
def alloyFpOf (s : State) (en : Bool) (id gen : Nat) : Nat :=
  if en then (((s.models.gens.find? (fun g => g.id = id && g.gen = gen)).map (fun g => g.fp.toNat)).getD 0) else 0

/-- Digest of block i: the first 16 bytes of the HMAC over the 600 bytes of Table 11-11. -/
def blockDigest (key modelFp alloyFp : Nat) (en : Bool) (id gen i : Nat) (prev : Nat) (tokens : List Nat) : Nat :=
  let alloy := if en then 32768 + id else 0
  let msg := leBytes 16 prev ++ leBytes 32 modelFp ++ leBytes 32 alloyFp ++ leBytes 2 alloy ++ leBytes 1 (if en then gen else 0)
    ++ [0] ++ leBytes 4 (128 * i) ++ slice (tokens.flatMap (leBytes 4)) 0 512
  leNat ((hmac256 (leBytes 32 key) msg).take 16)

/-- The digest of block i of a request's context, from the digest before it. -/
def requestDigest (s : State) (r : Request) (i prev : Nat) (tokens : List Nat) : Nat :=
  blockDigest (s.domain r.domain).key.toNat (s.mslot r.modelSlot).info.fp.toNat (alloyFpOf s r.alloyEn r.alloyId r.alloyGen)
    r.alloyEn r.alloyId r.alloyGen i prev ((tokens.drop (128 * i)).take 128)

/-- The bucket of a digest. -/
def bucketOf (d : Nat) : Nat := d % 262144

/-- The index operation on a bucket met a poisoned read and again at its retry, and is a miss (R390). -/
def bucketLost (s : State) (d : Nat) : Bool := decide (2 ≤ (s.tier.poisonedBuckets.filter (fun b => b = bucketOf d)).length)

/-- A lookup: an entry whose digest, domain, slot and incarnation match a group that is not FREEING. -/
def lookup (s : State) (d domain slot : Nat) : Option IndexEntry :=
  if bucketLost s d then none else s.tier.index.find? (fun e => e.digest.toNat = d && e.domain = domain && e.modelSlot = slot &&
    match s.group? e.handle with
    | none => false
    | some g => g.incarnation = e.incarnation && g.state ≠ .freeing)

/-- A hit sets last_match. -/
def State.hitEntry (s : State) (h : Nat) : State :=
  s.onTier (fun t => { t with index := t.index.map (fun e => if e.handle = h then { e with lastMatch := s.tick32 } else e) })

/-- The entry a full bucket gives up: the oldest among those whose group has refs 0, else the oldest of all; ties to the
lowest place. -/
def bucketVictim (s : State) (l : List IndexEntry) : Option IndexEntry :=
  let free := l.filter (fun e => match s.group? e.handle with | none => true | some g => g.refs = 0)
  let l := if free.isEmpty then l else free
  let age := fun (e : IndexEntry) => (s.tick32 + two32 - e.lastMatch % two32) % two32
  l.foldl (fun b e =>
    match b with
    | none => some e
    | some c => if age c < age e || (age c = age e && e.place < c.place) then some e else some c) none

/-- Lowest free place of a bucket. -/
def freePlace (l : List IndexEntry) : Nat := ((List.range 64).find? (fun p => !l.any (fun e => e.place = p))).getD 0

/-- Inserts an entry for a group; a full bucket replaces its victim, whose group loses its indexed bit (R275). -/
def State.insertEntry (s : State) (h : Nat) (g : PageGroup) (d : Nat) : State :=
  let inB := fun (s : State) => s.tier.index.filter (fun e => bucketOf e.digest.toNat = bucketOf d)
  let s := if 64 ≤ (inB s).length then
      match bucketVictim s (inB s) with
      | none => s
      | some v => ((s.unindex v.handle).onTier (fun t => { t with evReplaced := t.evReplaced + 1 })).recheck v.handle
    else s
  let e : IndexEntry := { digest := BitVec.ofNat 128 d, handle := h, incarnation := g.incarnation, domain := g.domain
                          modelSlot := g.modelSlot, lastMatch := s.tick32, place := freePlace (inB s) }
  (s.onTier (fun t => { t with index := t.index ++ [e] })).modGroup h (fun g => { g with indexed := true, digest := BitVec.ofNat 128 d })

/-- Removes the index entries that a predicate names, and re-checks their groups. -/
def State.dropEntries (s : State) (p : IndexEntry → Bool) : State :=
  (s.tier.index.filter p).foldl (fun t e => (t.unindex e.handle).recheck e.handle) s

/-! ## Matching (R276) -/

/-- The digest pipeline that is free first in this window, the lowest of several, and the nanoseconds from o_k at which it is (R276). -/
def freePipe (s : State) : Nat × Nat :=
  (List.range 16).foldl (fun b k => if nth s.tier.pipes k 0 < b.2 then (k, nth s.tier.pipes k 0) else b) (0, nth s.tier.pipes 0 0)

/-- A chain of n digests occupies a pipeline. -/
def State.usePipe (s : State) (n : Nat) : State :=
  s.onTier (fun t => { t with pipes := ((List.range 16).map (fun k => nth t.pipes k 0)).modify (freePipe s).1 (fun x => x + 48 * n) })

/-- Blocks a window's time limit admits: each takes 48 ns on a pipeline from when it is free, the last complete before o_k + C/2. -/
def timeBlocks (s : State) : Nat := (s.tick.commitUs * 500 - 1 - (freePipe s).2) / 48

/-- Leading blocks that match, with the digest before the next one: (entries in block order). -/
def matchBlocks (s : State) (dig : Nat → Nat → Nat) (domain slot : Nat) : Nat → Nat → Nat → List IndexEntry
  | 0, _, _ => []
  | f + 1, i, prev =>
    let d := dig i prev
    match lookup s d domain slot with
    | none => []
    | some e => e :: matchBlocks s dig domain slot f (i + 1) d

/-- Blocks a match of n context tokens may take. -/
def matchLimit (s : State) (n : Nat) : Nat := min (min ((n - 1) / 128) (rf s.regs.matchCtl 14 0)) (timeBlocks s)

/-- The entries that a request's context matches at admission; none for domain 0 or with no_share. -/
def admissionMatch (s : State) (r : Request) (tokens : List Nat) : List IndexEntry :=
  if r.domain = 0 || r.flags.noShare then []
  else matchBlocks s (fun i prev => requestDigest s r i prev tokens) r.domain r.modelSlot (matchLimit s tokens.length) 0 0

/-- Digests that a match of n context tokens with so many hits has formed: one more where a miss ended it. -/
def digestsFormed (s : State) (r : Request) (n hits : Nat) : Nat :=
  if r.domain = 0 || r.flags.noShare then 0 else if hits < matchLimit s n then hits + 1 else hits

/-- Takes matched groups: a strong reference on each, so that no reclaim takes one of them; then last_match, and toward RESIDENT (R269, R276). -/
def State.takeMatches (s : State) (slotPlus : Nat) (es : List IndexEntry) : State :=
  let s := es.foldl (fun (t : State) e => t.takeRef e.handle) s
  es.foldl (fun (t : State) e => (t.hitEntry e.handle).towardResident e.handle slotPlus) s

/-! ## Publication (R277) -/

/-- The digest chain of a request's context up to block i. -/
def chainDigest (s : State) (r : Request) (tokens : List Nat) : Nat → Nat
  | 0 => requestDigest s r 0 0 tokens
  | i + 1 => requestDigest s r (i + 1) (chainDigest s r tokens i) tokens

/-- Publishes one group whose rewrites have ended: a miss inserts it, a hit on a RESIDENT group switches the owner's entry to
that group, any other hit replaces the entry. -/
def State.publishGroup (s : State) (h : Nat) : State :=
  let s := s.onTier (fun t => { t with publish := setDel h t.publish })
  match s.group? h with
  | none => s
  | some g =>
    match g.owner with
    | none => s
    | some slot =>
      match s.req? slot with
      | none => s
      | some r =>
        let b := g.start / 128
        let d := chainDigest s r (contextTokens r) b
        let prev := if b = 0 then 0 else chainDigest s r (contextTokens r) (b - 1)
        let own := (s.domain g.domain).owner
        let publish := fun (s : State) =>
          ((s.insertEntry h g d).modGroup h (fun g => { g with owner := none, charge := own, prevDigest := BitVec.ofNat 128 prev, markTick := none })).onTier
            (fun t => { t with used1 := chargeAdd own (g.frameGranules + g.metaGranules) (chargeSub g.charge (g.frameGranules + g.metaGranules) t.used1) })
        if g.state = .freeing || r.alloyFollowed then s.modGroup h (fun g => { g with markTick := none })
        else
          match lookup s d g.domain g.modelSlot with
          | none => publish s
          | some e =>
            match s.group? e.handle with
            | none => publish s
            | some o =>
              if o.state = .resident then
                (((s.takeRef e.handle).hitEntry e.handle).modReq slot (fun r =>
                  { r with pages := setPage r.pages b { handle := e.handle, weak := false, incarnation := e.incarnation } })).dropRef h
              else publish ((s.unindex e.handle).recheck e.handle)

/-- Marks for publication the blocks of a request that committed_len has now passed (R277). -/
def State.markPublish (s : State) (slot oldLen newLen : Nat) : State :=
  match s.req? slot with
  | none => s
  | some r =>
    if r.flags.noShare || r.domain = 0 || r.alloyFollowed then s
    else
      (upFrom (oldLen / 128) (newLen / 128 - oldLen / 128)).foldl (fun t b =>
        let h := (pageAt r.pages b).handle
        match t.group? h with
        | none => t
        | some g =>
          if g.owner = some slot && !g.draft && !g.indexed then
            (t.modGroup h (fun g => { g with markTick := some t.tick.index, rewritten := false })).onTier
              (fun u => { u with publish := setAdd h u.publish })
          else t) s

/-! ## A request's references (R79, R278, R279) -/

/-- A request gives up the group it owns. -/
def disown (slot : Nat) (g : PageGroup) : PageGroup := if g.owner = some slot then { g with owner := none, markTick := none } else g

/-- Drops every reference of the request in a slot, which owns no group from then on, and returns the granules of its objects to fill. -/
def State.dropRequestRefs (s : State) (slot : Nat) (r : Request) : State :=
  let hs := ((r.pages ++ r.draftPages).filter (fun p => p.handle ≠ 0 && !p.weak)).map (·.handle)
  let s := hs.foldl (fun (t : State) h => (t.modGroup h (disown slot)).dropRef h) s
  if r.granules = 0 then s else s.addFillAt r.granules (some r.tenant) none none none (requestSpans r)

/-- Entries that become weak when a request parks: published groups wholly below prompt_len (R278); a rebound request keeps
every entry strong (R302). -/
def State.parkRefs (s : State) (slot : Nat) : State :=
  match s.req? slot with
  | none => s
  | some r =>
    if r.alloyFollowed then s
    else
      r.pages.zipIdx.foldl (fun t p =>
        match t.group? p.1.handle with
        | none => t
        | some g =>
          if !p.1.weak && g.owner.isNone && (p.2 + 1) * 128 ≤ r.promptLen then
            (t.modReq slot (fun q => { q with pages := setPage q.pages p.2 { p.1 with weak := true } })).dropRef p.1.handle
          else t) s

/-- Starts demotion of the groups a PARKED request holds strongly and that are idle, in block order (R278). -/
def State.parkDemote (s : State) (slot : Nat) : State :=
  match s.req? slot with
  | none => s
  | some r =>
    if r.state = .parked then
      ((r.pages ++ r.draftPages).filter (fun p => p.handle ≠ 0 && !p.weak)).foldl (fun t p => (t.demoteGroup p.handle none).1) s
    else s

/-- Every group a request references is RESIDENT (R76, R279). -/
def allResident (s : State) (r : Request) : Bool :=
  (r.pages ++ r.draftPages).all (fun p => p.handle = 0 ||
    (!p.weak && match s.group? p.handle with | none => false | some g => g.state = .resident))

/-- No group a request references is to be rebuilt (R387). -/
def noneRebuilds (s : State) (r : Request) : Bool :=
  (r.pages ++ r.draftPages).all (fun p => p.handle = 0 || match s.group? p.handle with | none => false | some g => !g.rebuild)

/-- One step of the walk at a resume: entry p of block b, with the digest of the block before it (R279). -/
def State.walkEntry (s : State) (slot b prev : Nat) : State :=
  match s.req? slot with
  | none => s
  | some r =>
    let p := pageAt r.pages b
    let live : Bool := match s.group? p.handle with | none => false | some g => g.incarnation = p.incarnation && g.state ≠ .freeing
    let strong := fun (t : State) (e : PageRef) => t.modReq slot (fun q => { q with pages := setPage q.pages b e })
    if p.handle = 0 then s
    else if !p.weak then s.towardResident p.handle (slot + 1)
    else if live then (strong (s.takeRef p.handle) { p with weak := false }).towardResident p.handle (slot + 1)
    else
      match (if r.alloyFollowed then none else lookup s (requestDigest s r b prev (contextTokens r)) r.domain r.modelSlot) with
      | some e => strong (s.takeMatches (slot + 1) [e]) { handle := e.handle, weak := false, incarnation := e.incarnation }
      | none =>
        let q := s.newGroup slot b false true
        match q.2 with
        | none => q.1
        | some e => strong q.1 e

/-- The walk of a page list in block order. -/
def walkPages (slot : Nat) : Nat → Nat → Nat → State → State
  | 0, _, _, s => s
  | f + 1, b, prev, s =>
    let s := s.walkEntry slot b prev
    let next := match s.req? slot with
      | none => 0
      | some r => if (pageAt r.pages b).handle = 0 then 0 else requestDigest s r b prev (contextTokens r)
    walkPages slot f (b + 1) next s

/-- R279 for a request: its page list and its draft array. -/
def State.resumeWalk (s : State) (slot : Nat) : State :=
  match s.req? slot with
  | none => s
  | some r =>
    let s := walkPages slot r.pages.length 0 0 s
    r.draftPages.foldl (fun t p => if p.handle = 0 then t else t.towardResident p.handle (slot + 1)) s

end Sys2Proof.Machine
end

