-- ==== Sys2Proof/Machine/Settle.lean ====
section
/-! DEFINITION. Settling a request in a commit window (R80, R306): stream entries (R65 to R68, R237), closing (R75, R79, R235),
the commit of a step-attempt (R71, R93, R187, R234), and its outcomes in telemetry (R437).
Readings of the spec: logs 10, 19. -/

namespace Sys2Proof.Machine

open Sys2Proof

/-! ## Stream entries (R65, R66, Tables 3-6, 3-7) -/

/-- The 16 bytes of a stream entry. -/
def entryBytes (seq token flags : Nat) (logprob : BitVec 16) (tick : Nat) : List Byte :=
  leBytes 4 seq ++ leBytes 4 token ++ leBytes 2 flags ++ leBytes 2 logprob.toNat ++ leBytes 4 tick

/-- Entries of a stream ring. -/
def ringEntries (r : Request) : Nat := 2 ^ r.ringLog2

/-- Free space of a stream ring (R70). -/
def ringFree (r : Request) : Nat := ringEntries r - (r.nextSeq + two32 - r.creditCount) % two32

/-- Writes the next stream entry of a request and raises its vector where notify is set (R68, R346). -/
def State.writeStream (s : State) (slot token flags : Nat) (logprob : BitVec 16) : State :=
  match s.req? slot with
  | none => s
  | some r =>
    let t := (s.hostWrite r.port (r.ringAddr + r.nextSeq % ringEntries r * 16) (slot + 1)
      (entryBytes r.nextSeq token flags logprob (s.tick.index % two32))).modReq slot
        (fun q => { q with nextSeq := (q.nextSeq + 1) % two32 })
    if r.flags.notify then t.raiseVector (66 + slot % 1982) r.port else t

/-- Flags of a TOKEN entry. -/
def tokenFlags (o : OutToken) (released : Bool) : Nat :=
  b2n o.spec * 8192 + b2n o.first * 4096 + b2n released * 2048 + o.stepCount % 16 * 16 + o.stepIndex % 16

/-- Writes TOKEN entries in order. -/
def State.writeTokens (s : State) (slot : Nat) (l : List (OutToken × Bool)) : State :=
  l.foldl (fun t o => t.writeStream slot o.1.token (tokenFlags o.1 o.2) o.1.logprob) s

/-- The final status word (R67, Table 3-8). -/
def finalWord (r : Request) (status : Nat) : Nat :=
  b2n r.alloyFollowed * 2 ^ 19 + b2n r.recovered * 2 ^ 18 + b2n r.flags.retried * 2 ^ 17 + b2n r.flags.specDegraded * 2 ^ 16 + status % 65536

/-- Writes the FINAL entry of a request. -/
def State.writeFinal (s : State) (slot status : Nat) : State :=
  match s.req? slot with
  | none => s
  | some r => s.writeStream slot (finalWord r status) 0x8000 0

/-! ## The commit-write log (R374): 4 MiB, each record taken as its bytes and an 8-byte address (log 10) -/

/-- Bytes of the log in use. -/
def logUsed (s : State) : Nat := sumN (s.req.log.map (fun w => w.bytes.length + 8))

/-- The log has room for n stream entries. -/
def logRoom (s : State) (n : Nat) : Bool := logUsed s + 24 * n ≤ 4194304

/-! ## Outcomes of attempts (R437) -/

/-- The eight outcomes. -/
inductive AttemptEnd where
  | committed
  | late
  | byEvent
  | byGroup
  | byPoison
  | numeric
  | byReset
  | byFault
  deriving DecidableEq, Repr

/-- Counts the outcome of an attempt. -/
def State.countEnd (s : State) (e : AttemptEnd) : State :=
  s.countStep (fun c =>
    let c := { c with attempts := inc64 c.attempts }
    match e with
    | .committed => { c with committed := inc64 c.committed }
    | .late => { c with late := inc64 c.late }
    | .byEvent => { c with discardedEvent := inc64 c.discardedEvent }
    | .byGroup => { c with droppedGroup := inc64 c.droppedGroup }
    | .byPoison => { c with droppedPoison := inc64 c.droppedPoison }
    | .numeric => { c with nonfinite := inc64 c.nonfinite }
    | .byReset => { c with discardedReset := inc64 c.discardedReset }
    | .byFault => { c with discardedFault := inc64 c.discardedFault })

/-- Drops the attempt of a slot, with its outcome. -/
def State.endAttempt (s : State) (slot : Nat) (e : AttemptEnd) : State :=
  if (s.attempt? slot).isSome then
    (s.countEnd e).onPlan (fun p => { p with attempts := p.attempts.filter (fun a => a.slot ≠ slot) })
  else s

/-! ## Closing (R75, R79, R80, R235) -/

/-- A request that this device is being sent and does not own yet (R381, Table 17-2). -/
def arriving (r : Request) : Bool := r.migrating && r.state = .importing

/-- A request closes with a status: tokens are written but the last `drop`, then FINAL, and it is CLOSING; one that this device is only being sent is given up. The first status
fixed for it stands; while the log has no room the close waits (R374). MIGRATED writes no FINAL entry (Table 17-2). -/
def State.closeReq (s : State) (slot status drop : Nat) : State :=
  match s.req? slot with
  | none => s
  | some r =>
    if !reqLive r.state then s
    else if arriving r then s.modReq slot (fun q => { q with importFailed := true })
    else
      let st := if r.closeStatus = 0 then status else r.closeStatus
      if logRoom s (r.outs.length + 1) then
        let l := (r.outs.take (r.outs.length - drop)).map (fun o => (o, true))
        let t := if st = St.migrated then s else (s.writeTokens slot l).writeFinal slot st
        (t.modReq slot (fun q => { q with state := .closing, closeStatus := st, faultDue := 0, timer := 0, outs := [], withheld := 0, commitTick := s.tick.index })).endAttempt
          slot .byEvent
      else (s.modReq slot (fun q => { q with closeStatus := st })).endAttempt slot .late

/-! ## Stop detection (R233 to R235) -/

/-- A list ends with another. -/
def endsWith (l t : List Nat) : Bool := t.length ≤ l.length && l.drop (l.length - t.length) = t

/-- Length of the longest stop sequence that a list of generated tokens completes, 0 for none; its match may not begin before
the floor of a recovered request (R379). -/
def stopMatch (r : Request) (gen : List Nat) : Nat :=
  (r.stops.filter (fun t => endsWith gen t && r.stopFloor + t.length ≤ gen.length)).foldl (fun m t => max m t.length) 0

/-- The withheld count: the longest suffix that is a proper beginning of some stop sequence (R235). -/
def withheldCount (r : Request) (gen : List Nat) : Nat :=
  ((List.range 16).filter (fun w => r.stopFloor + w ≤ gen.length &&
    r.stops.any (fun t => w < t.length && t.take w = gen.drop (gen.length - w)))).foldl max 0

/-- What a path settles to: tokens committed, and the status that closes the request with the tokens of the match that are
never written, or none. -/
structure PathEnd where
  /-- committed tokens of the path -/
  taken : List (Nat × BitVec 16 × Nat)
  /-- closing status, if any, and matched tokens never written -/
  close : Option (Nat × Nat)
  deriving DecidableEq, Repr

/-- The tests of R234 over a path in path order. -/
def settlePath (r : Request) : List (Nat × BitVec 16 × Nat) → List Nat → Nat → PathEnd
  | [], _, _ => { taken := [], close := none }
  | y :: rest, gen, count =>
    if r.endIds.contains y.1 && y.1 ≠ 0xFFFFFFFF then { taken := [], close := some (St.endToken, 0) }
    else
      let m := stopMatch r (gen ++ [y.1])
      if m ≠ 0 then { taken := [], close := some (St.stopSequence, m - 1) }
      else if count + 1 = r.maxNew then { taken := [y], close := some (St.maxTokens, 0) }
      else
        let e := settlePath r rest (gen ++ [y.1]) (count + 1)
        { e with taken := y :: e.taken }

/-! ## Carried estimates and rebuild records (R130, R187, R388) -/

/-- The positions a commit makes committed context: every position of a chunk, or the nodes of a path but its last. -/
def committedNode (row : PlanRow) (nodes : List Nat) (n : Nat) : Bool := row.kind ≠ .decode || nodes.contains n

/-- The carried scales after a commit: the largest pair of a slot, times 1.25, encoded (R187). -/
def commitScales (row : PlanRow) (nodes : List Nat) (a : Attempt) (l : List CarriedScale) : List CarriedScale :=
  l.map (fun c =>
    let e := moveScale (a.scales.filter (fun x => x.tslot = c.tslot && x.cluster = c.cluster && committedNode row nodes x.node)) (c.mant, c.exp)
    { c with mant := e.1, exp := e.2 })

/-- The carried maxima after a commit: the largest M (R130). -/
def commitMaxima (row : PlanRow) (nodes : List Nat) (a : Attempt) (l : List CarriedMax) : List CarriedMax :=
  l.map (fun c =>
    { c with value := largestMax (a.maxima.filter (fun x => x.layer = c.layer && x.head = c.head && committedNode row nodes x.node)) c.value })

/-- The rebuild records of the blocks a commit enters: the bit of its first position, and the snapshot at a block's first
commit (Table 17-4). -/
def State.noteCommit (s : State) (slot oldLen newLen : Nat) : State :=
  match s.req? slot with
  | none => s
  | some r =>
    (upFrom (oldLen / 128) ((newLen + 127) / 128 - oldLen / 128)).foldl (fun t b =>
      t.modGroup (pageAt r.pages b).handle (fun g =>
        if g.owner = some slot then
          let g := if oldLen ≤ b * 128 then { g with snapScales := r.scales, snapMaxima := r.maxima, snapValid := true, cbound := [] } else g
          { g with cbound := if b = oldLen / 128 then setAdd (oldLen % 128) g.cbound else g.cbound }
        else g)) s

/-- The token ids of the blocks a commit enters, as committed with it, in their CL0 map granules (Table 11-5). -/
def State.noteTokens (s : State) (slot oldLen newLen : Nat) : State :=
  match s.req? slot with
  | none => s
  | some r =>
    (upFrom (oldLen / 128) ((newLen + 127) / 128 - oldLen / 128)).foldl (fun t b =>
      t.modGroup (pageAt r.pages b).handle (fun g =>
        if g.owner = some slot then { g with tokens := ((contextTokens r).drop (b * 128)).take 128 } else g)) s

/-! ## Accounts (R92, R93) -/

/-- Debits a tenant that keeps an account. -/
def State.debit (s : State) (tenant gen prefill : Nat) : State :=
  s.onPlan (fun p => { p with accounts := p.accounts.map (fun a =>
    if a.1 = tenant then (a.1, a.2 - Int.ofNat (64 * gen + rf s.regs.prefillCtl 23 16 * prefill)) else a) })

/-! ## The commit of an attempt (R71, R80 step 4, R232, R253) -/

/-- The tokens of a step as they are to be written: those withheld before, then the step's own; many says that its path had two or more
tokens, before any cut (R237). -/
def stepOuts (r : Request) (many : Bool) (taken : List (Nat × BitVec 16 × Nat)) : List (OutToken × Bool) :=
  r.outs.map (fun o => (o, true)) ++ taken.zipIdx.map (fun y =>
    ({ token := y.1.1, logprob := if r.flags.logprob then y.1.2.1 else 0, spec := many, first := r.newCount + y.2 = 0
       stepCount := taken.length - 1, stepIndex := y.2 }, false))

/-- Writes the entries a commit releases and FINAL where it closes; the last w of them stay withheld, or the tokens of a stop
match are never written. -/
def State.releaseOuts (s : State) (slot : Nat) (l : List (OutToken × Bool)) (close : Option (Nat × Nat)) : State :=
  match close with
  | some c => (s.writeTokens slot (l.take (l.length - c.2))).writeFinal slot c.1
  | none => s.writeTokens slot l

/-- The GATHERs of a path in one model's cache: for each page of each layer on each cluster, its accepted non-root nodes that land there; node
number i of the path goes to position committed_len + i (R253). -/
def cacheGathers (i : ModelInfo) (prov : List ProvFrame) (pages : List PageRef) (s : State) (slot base : Nat) (nodes : List Nat) : List GatherDue :=
  let path := nodes.zipIdx.drop 1
  (upFrom ((base + 1) / 128) ((base + path.length) / 128 + 1 - (base + 1) / 128)).flatMap (fun b =>
    let lanes := (path.filter (fun x => (base + x.2) / 128 = b)).map (fun x => (x.1, (base + x.2) % 128))
    match s.group? (pageAt pages b).handle with
    | none => []
    | some g =>
      (g.frames.zip (pagesOf i)).flatMap (fun f =>
        match prov.find? (fun p => p.cluster = f.2.1 && p.layer = f.2.2.1) with
        | none => []
        | some p => [{ slot := slot, cluster := f.1.1, src := p.granule, dst := f.1.2, lanes := lanes
                       fmt := (nth i.cacheFmts (f.2.2.1 * i.kvHeads + f.2.2.2) {}).fmt }]))

/-- The GATHERs that a path of two or more tokens owes in the target's cache and in the draft model's (R249, R253). -/
def pathGathers (s : State) (slot : Nat) (r : Request) (nodes : List Nat) : List GatherDue :=
  let i := (s.mslot r.modelSlot).info
  if nodes.length < 2 then []
  else
    cacheGathers i r.prov r.pages s slot r.committedLen nodes
      ++ cacheGathers (draftView i) r.draftProv r.draftPages s slot r.committedLen nodes

/-- Commits a path and its chunk: lengths, tokens, seen-set, estimates, debits and publication marks; entries are written at
once, or once the commit's GATHERs have ended (R306). -/
def State.commitPath (s : State) (slot : Nat) (r : Request) (row : PlanRow) (a : Attempt) : State :=
  let decode := row.kind = .decode
  let e := settlePath r a.path r.generated r.newCount
  let n := e.taken.length
  let newLen := if decode then r.committedLen + n else r.committedLen + row.tokens
  let nodes := e.taken.map (·.2.2)
  let toks := e.taken.map (·.1)
  let gen := r.generated ++ toks
  let all := stepOuts r (2 ≤ a.path.length) e.taken
  let w := if e.close.isSome then 0 else withheldCount r gen
  let now := all.take (all.length - w)
  let keep := (all.drop (all.length - w)).map (·.1)
  let st : ReqState := if e.close.isSome then .closing else if !decode && newLen = prefillEnd r && r.state = .prefilling then .decoding else r.state
  let gathers := if decode then pathGathers s slot r nodes else []
  let s := s.noteCommit slot r.committedLen newLen
  let s := s.modReq slot (fun q => { q with
    state := st, priorState := if !decode && newLen = prefillEnd r && q.priorState = .prefilling then .decoding else q.priorState
    committedLen := newLen, generated := gen, newCount := q.newCount + n, seen := toks.foldl (fun l t => seenInsert t l) q.seen
    scales := commitScales row nodes a q.scales, maxima := commitMaxima row nodes a q.maxima, outs := keep, withheld := keep.length
    recoverLen := if newLen = prefillEnd r then 0 else q.recoverLen
    closeStatus := match e.close with | none => 0 | some c => c.1
    commitTick := s.tick.index, flags := if a.bf16 then { q.flags with bf16Pending := false } else q.flags })
  let s := (s.noteTokens slot r.committedLen newLen).markPublish slot r.committedLen newLen
  let prefill := if decode || r.recoverLen ≠ 0 then 0 else row.tokens
  let s := (s.debit r.tenant n prefill).countTenant r.tenant (fun c =>
    { c with genTokens := add64 c.genTokens n, prefillTokens := add64 c.prefillTokens prefill })
  let s := s.countStep (fun c => { c with
    genTokens := add64 c.genTokens n, prefillTokens := add64 c.prefillTokens prefill
    draftedAccepted := add64 c.draftedAccepted (if decode then n - 1 else 0) })
  let s := s.endAttempt slot .committed
  if decode && 2 ≤ n then
    s.onReq (fun u => { u with
      gathersDue := u.gathersDue ++ gathers
      outsDue := u.outsDue ++ [(slot, if e.close.isSome then all.take (all.length - (match e.close with | none => 0 | some c => c.2)) else now,
        match e.close with | none => 0 | some c => c.1 + 1)] })
  else s.releaseOuts slot now e.close

/-- The non-finite outcome (R232). -/
def State.commitNumeric (s : State) (slot : Nat) (r : Request) (a : Attempt) : State :=
  let s := s.modReq slot (fun q => { q with flags := if a.bf16 then { q.flags with bf16Pending := false } else q.flags })
  if r.sampler.numericRetry && !r.flags.retried && (s.mslot r.modelSlot).info.bf16 then
    (s.modReq slot (fun q => { q with flags := { q.flags with retried := true, bf16Pending := true } })).endAttempt slot .numeric
  else (s.endAttempt slot .numeric).closeReq slot St.faultNumeric 0

/-- R73 for a request whose shipment has failed: it prefills from its prompt, or closes with FAULT_IMPORT; the groups the
shipment had filled are dropped (R335). -/
def State.settleImport (s : State) (slot : Nat) : State :=
  match s.req? slot with
  | none => s
  | some r =>
    if r.state = .importing && r.importFailed && !r.migrating then
      let keep := r.committedLen / 128
      let s := (r.pages.drop keep).foldl (fun t p => if p.handle = 0 then t else t.dropRef p.handle) s
      let s := s.modReq slot (fun q => { q with importFailed := false, pages := q.pages.take keep })
      if r.flags.recomputeOk then s.modReq slot (fun q => { q with state := .prefilling }) else s.closeReq slot St.faultImport 0
    else s

/-- A request's import fails: R73 applies where its window has settled its events, and else once it does (R72, R80). -/
def State.failImport (s : State) (slot : Nat) : State :=
  let s := s.modReq slot (fun q => { q with importFailed := true })
  if s.tick.inCommit && !s.req.unsettled.contains slot then s.settleImport slot else s

/-- Step 4 of R80 for a request with a row: its attempt commits where it is on time and undamaged, and is discarded where not. -/
def State.settleAttempt (s : State) (slot : Nat) : State :=
  match s.req? slot, s.row? slot, s.attempt? slot with
  | some r, some row, some a =>
    if !reqLive r.state then s.endAttempt slot .byEvent
    else if a.faulted then s.endAttempt slot .byFault
    else if a.poisoned then s.endAttempt slot .byPoison
    else if !a.done || s.tick.commitOpenAt ≤ a.stamp || !logRoom s 34 then s.endAttempt slot .late
    else if a.nonfinite then s.commitNumeric slot r a
    else s.commitPath slot r row a
  | _, _, _ => s

/-! ## One request in a commit window -/

/-- A forced MODEL_EVICT of a model slot (R295). -/
def evictsSlot (c : MbCommand) (m : Nat) : Bool := c.opcode = 0x71 && cf c 0 1 = m && bit (cf c 1 1) 0

/-- The commands with an effect on one request, PARK_NOW and a forced MODEL_EVICT of its slot among them, that this window is still to apply. -/
def dueCommands (s : State) (slot : Nat) : List MbCommand :=
  s.mb.outstanding.filter (fun c => s.taken c.stamp && c.phase = 0 &&
    (([0x40, 0x41, 0x42, 0x43, 0x45].contains c.opcode && cf c 0 4 = slot) || (c.opcode = 0x62 && cf c 0 1 = 6 && cf c 4 4 = slot)
      || (match s.req? slot with | none => false | some r => reqLive r.state && evictsSlot c r.modelSlot)))

/-- The command names this admission of a request that the device owns. -/
def namesReq (c : MbCommand) (r : Request) : Bool := r.state ≠ .free && !arriving r && r.admitTick % two32 = cf c 4 4

/-- A command of this window will close a request: a cancel that names this admission of it, or a forced MODEL_EVICT of its slot (R75, R80, R295). -/
def closingDue (s : State) (slot : Nat) (r : Request) : Bool :=
  let m := s.mslot r.modelSlot
  (dueCommands s slot).any (fun c => (c.opcode = 0x40 && namesReq c r) ||
    (evictsSlot c r.modelSlot && !m.pinned && (m.state = .resident || m.state = .broken)))

/-- Its deadline is passed by t_{k+1} (R45, R78). -/
def deadlineDue (s : State) (r : Request) : Bool := reqLive r.state && !arriving r && r.deadline ≠ 0 && decide (r.deadline < s.nextEdge)

/-- Its hold has ended (R77). -/
def holdDue (s : State) (r : Request) : Bool := r.state = .paused && decide (r.timer < s.nextEdge)

/-- Its time-to-live has ended (R77). -/
def ttlDue (s : State) (r : Request) : Bool := r.state = .parked && decide (r.timer < s.nextEdge)

/-- PAUSED becomes PARKED: its time-to-live starts, its references weaken, its idle groups start to demote (R77, R278). -/
def State.parkReq (s : State) (slot : Nat) : State :=
  match s.req? slot with
  | none => s
  | some r => ((s.modReq slot (fun q => { q with state := .parked, timer := s.nextEdge + r.ttlS * 1000000000 })).parkRefs slot).parkDemote slot

/-- The pauses and resumes that waited on settlement act, or complete REQ_CLOSED where it closed the request (R74, R80). -/
def State.settleMarks (s : State) (slot : Nat) : State :=
  let pm := (s.req.pauseMarks.filter (fun p => p.1 = slot)).map (·.2)
  let rm := (s.req.resumeMarks.filter (fun p => p.1 = slot)).map (·.2)
  let live := reqLive (s.reqState slot)
  let st := if live then St.ok else St.reqClosed
  let s := (pm ++ rm).foldl (fun t mb =>
    match t.cmdAt mb [0x41, 0x42] with
    | none => t
    | some c => t.complete c st []) s
  let s := s.onReq (fun u => { u with
    pauseMarks := u.pauseMarks.filter (fun p => p.1 ≠ slot), resumeMarks := u.resumeMarks.filter (fun p => p.1 ≠ slot) })
  if live && rm.length < pm.length then
    s.modReq slot (fun q => { q with priorState := q.state, state := .paused, timer := s.nextEdge + q.holdMs * 1000000 })
  else s

/-- Steps 2 and 3 of R80 for one request, at its home: only the home judges its deadline and closes it (R49). -/
def State.settleTimers (s : State) (slot : Nat) : State :=
  match s.req? slot with
  | none => s
  | some r =>
    if !homedHere s r then s
    else if r.closeStatus ≠ 0 && reqLive r.state then s.closeReq slot r.closeStatus 0
    else if deadlineDue s r then s.closeReq slot St.deadline 0
    else if ttlDue s r then s.closeReq slot St.ttlExpired 0
    else if holdDue s r then s.parkReq slot
    else s

/-- A request whose attempt waits for COMMIT_SET: one of several shards in a group, not closed by another cause (R49). -/
def awaitsSet (s : State) (slot : Nat) : Bool :=
  s.tick.inGroup && (s.attempt? slot).isSome && match s.req? slot with | none => false | some r => !r.shards.isEmpty && reqLive r.state

/-- What waits on the settlement of a request acts, and it is settled. -/
def State.settleRest (s : State) (slot : Nat) : State :=
  ((s.settleImport slot).settleMarks slot).onReq (fun u => { u with unsettled := setDel slot u.unsettled })

/-- The fault that closes a request in step 4 of R80, at its home; 0 for none. -/
def faultOf (s : State) (slot : Nat) : Nat :=
  match s.req? slot with
  | none => 0
  | some r => if homedHere s r && reqLive r.state then r.faultDue else 0

/-- Step 4 of R80. A sharded request's attempt waits for COMMIT_SET; outside a group it is dropped (R49). -/
def State.settleCommit (s : State) (slot : Nat) : State :=
  if faultOf s slot ≠ 0 then (s.closeReq slot (faultOf s slot) 0).settleRest slot
  else if awaitsSet s slot then s
  else
    let sharded := match s.req? slot with | none => false | some r => !r.shards.isEmpty && reqLive r.state
    (if sharded then s.endAttempt slot .byGroup else s.settleAttempt slot).settleRest slot

/-- A cause other than the attempt is due for a request in this window. -/
def causeDue (s : State) (slot : Nat) : Bool :=
  !(dueCommands s slot).isEmpty ||
    match s.req? slot with
    | none => false
    | some r => deadlineDue s r || holdDue s r || ttlDue s r || (r.closeStatus ≠ 0 && reqLive r.state)

/-- Settles the requests of the window in their order, up to the first with a cause that is still to act; a sharded one waits for COMMIT_SET
and is passed over (R80, R306). -/
def State.settlePump (s : State) : State :=
  (s.req.unsettled.foldl (fun (p : State × Bool) n =>
    if p.2 || awaitsSet p.1 n then p
    else if causeDue p.1 n then (p.1, true)
    else (p.1.settleCommit n, false)) (s, false)).1

/-- Settles a request at the end of the window, in R80's order. -/
def State.settleForce (s : State) (slot : Nat) : State :=
  if s.req.unsettled.contains slot then (s.settleTimers slot).settleCommit slot else s

end Sys2Proof.Machine
end

