-- ==== Sys2Proof/Machine/Ships.lean ====
section
/-! DEFINITION. Cache shipping (R332 to R335): opening, claiming and granting a shipment, its data as it arrives and lands in tier
1, its verification, its application and its ends; and the sending side, which migration uses (R381).
Readings of the spec: log 24. -/

namespace Sys2Proof.Machine

open Sys2Proof

/-! ## Shipments -/

/-- The open shipment of a handle. -/
def State.ship? (s : State) (h : Nat) : Option Shipment := s.gelcon.ships.find? (fun x => x.handle = h)

/-- Replaces an open shipment. -/
def State.setShip (s : State) (x : Shipment) : State :=
  s.onGelcon (fun g => { g with ships := g.ships.map (fun y => if y.handle = x.handle then x else y) })

/-- Holder under which SHIP blocks stand for a shipment's window (R102, R334). -/
def shipHolder (h : Nat) : Nat := 2 ^ 66 + h

/-- Closes a handle; its blocks are released (Table 8-2). -/
def State.dropShip (s : State) (h : Nat) : State :=
  (s.releaseBlocks .ship (shipHolder h)).onGelcon (fun g => { g with ships := g.ships.filter (fun y => y.handle ≠ h) })

/-- Identity of a shipment's sender (R332). -/
def shipSender (h : Nat) : Nat := bits h 63 55

/-- Identity of the other end of a shipment: its sender, or for one this device sends the identity it goes to. -/
def shipPeer (x : Shipment) : Nat := if x.outgoing then x.dest else shipSender x.handle

/-- Sends SHIP_END with a result to an identity. -/
def State.sendEnd (s : State) (dst h tc cause : Nat) : State := s.sendMsg dst 0x24 tc 0 h false (leBytes 8 h ++ leBytes 1 cause)

/-- Bytes of a block image of a model (R333). -/
def blockBytes (i : ModelInfo) : Nat := 2048 * (1 + groupFrames i)

/-- The model of the request that claims a shipment. -/
def shipModel (s : State) (x : Shipment) : ModelInfo :=
  match x.slot with
  | none => {}
  | some n => match s.req? n with | none => {} | some r => (s.mslot r.modelSlot).info

/-- Sends SHIP_GRANT for a shipment from a block to its window's end. -/
def State.sendGrant (s : State) (x : Shipment) (first : Nat) : State :=
  s.sendMsg (shipSender x.handle) 0x21 x.tc 0 x.handle false (leBytes 8 x.handle ++ leBytes 4 first ++ leBytes 4 0 ++ leBytes 8 x.windowEnd)

/-- Blocks that hold n bytes. -/
def blocksFor (n : Nat) : Nat := ceilDiv n 65536

/-- Most blocks that one traffic class may hold of the receive pool: 25 % of SHIP's ceiling (R102, R204). -/
def shipCap (s : State) : Nat := classCeiling s .ship / 4

/-- Blocks that a traffic class holds: row reservations and the windows of shipments. -/
def tcHeld (s : State) (tc : Nat) : Nat :=
  sumN ((s.plan.reservations.filter (fun r => r.1 = tc)).map (fun r => r.2.1))
    + sumN ((s.gelcon.ships.filter (fun y => y.tc = tc && !y.outgoing)).map (fun y => heldOf s .ship (shipHolder y.handle)))

/-- Blocks that the window of a shipment may take: what it has, and more within the class's cap and what R205 grants. -/
def shipRoom (s : State) (x : Shipment) : Nat :=
  heldOf s .ship (shipHolder x.handle) + min (shipCap s - tcHeld s x.tc) (grantable s .ship)

/-- Moves a shipment's window to cover grant_mib MiB from what has landed, within its room and the last granted block; the blocks of what
has landed are released, those of the window held, and the sender is told where it moved. -/
def State.moveWindow (s : State) (x : Shipment) : State :=
  let w := min x.grantEnd (x.landed + min (rf s.regs.glShip 7 0 * 1048576) (shipRoom s x * 65536))
  let y := { x with windowEnd := max x.windowEnd w }
  let t := (s.setShip y).setHeld .ship (shipHolder x.handle) (blocksFor (y.windowEnd - y.landed))
  if x.windowEnd < w then t.sendGrant y x.firstBlock else t

/-- Claimed shipments whose window has not come to its end are tried again, in the order they were opened. -/
def State.moveWindows (s : State) : State :=
  (s.gelcon.ships.filter (fun x => !x.outgoing && x.slot.isSome && decide (x.windowEnd < x.grantEnd))).foldl State.moveWindow s

/-- STORE_RESERVE_RETRY: blocks have been released: the head of each class's queue is tried again (R206), and the windows of shipments
that wait for room. -/
def execStoreReserveRetry (s : State) : Host.Outcome State Fault Refusal := .next (allClasses.foldl retryClass s).moveWindows

/-! ## Failure and verification (R335) -/

/-- A shipment fails: SHIP_END carries the cause to its sender, and R73 applies to its request. -/
def State.failShip (s : State) (x : Shipment) (cause : Nat) : State :=
  let s := (s.dropShip x.handle).sendEnd (shipSender x.handle) x.handle x.tc cause
  match x.slot with
  | none => s
  | some n => s.failImport n

/-- A frame's bytes state the format, dimension and codebooks of the model's cache format record (R176, Table 5-4a). -/
def frameFits (f : CacheFmt) (bs : List Byte) : Bool :=
  field bs 0 1 = f.fmt && headD (field bs 3 1) = (if f.dsel = 0 then 64 else if f.dsel = 1 then 128 else 256)
    && slice bs 64 32 = (if f.fmt = 1 then slice f.cbk 0 16 ++ slice f.cbv 0 16 else List.replicate 32 0)

/-- Every frame of a block image passes R176: pages of clusters 0 to 15 in page order. -/
def framesFit (i : ModelInfo) : List (Nat × Nat) → List Byte → Bool
  | [], _ => true
  | p :: rest, bs =>
    frameFits (nth i.cacheFmts (p.1 * i.kvHeads + p.2) {}) bs && framesFit i rest (bs.drop (2048 * pageRows i p.1 p.2))

/-- Bytes [lo, lo+n) of the body as received. -/
def shipBytes (x : Shipment) (lo n : Nat) : List Byte := Memory.readN x.body lo n

/-- A received block: CRC, token ids and frames. -/
def blockOk (i : ModelInfo) (r : Request) (x : Shipment) (b : Nat) : Bool :=
  let img := shipBytes x (b * blockBytes i) (blockBytes i)
  tabGet b x.crcs = some (crc32 img).toNat
    && slice img 0 512 = slice ((((contextTokens r).drop (128 * b)).take 128).flatMap (leBytes 4)) 0 512
    && framesFit i i.pageOrder.flatten (img.drop 2048)

/-- The first body offset from lo on that no received range covers. -/
def coveredTo (got : List (Nat × Nat)) : Nat → Nat → Nat
  | 0, lo => lo
  | f + 1, lo =>
    match got.find? (fun g => g.1 ≤ lo && lo < g.2) with
    | none => lo
    | some g => coveredTo got f g.2

/-- Where every granted byte has landed and every CRC has come, the shipment is verified, or fails. -/
def State.tryVerify (s : State) (h : Nat) : State :=
  match s.ship? h with
  | none => s
  | some x =>
    match x.slot with
    | none => s
    | some n =>
      match s.req? n with
      | none => s
      | some r =>
        let i := shipModel s x
        let last := x.grantEnd / blockBytes i
        let bs := upFrom x.firstBlock (last - x.firstBlock)
        if x.landed < x.grantEnd || !bs.all (fun b => (tabGet b x.crcs).isSome) || x.verified then s
        else if x.modelFp = i.fp && bs.all (blockOk i r x) then
          s.setShip { x with verified := true, verifiedAt := s.now }
        else s.failShip x 1

/-! ## Claiming (R334 step 3, R335) -/

/-- A private group for each granted block of a request, in block order, until one is refused: the end of what was had. -/
def shipGroups (slot : Nat) : Nat → Nat → State → State × Nat
  | 0, b, s => (s, b)
  | f + 1, b, s =>
    let q := s.newGroup slot b false false
    match q.2 with
    | none => (q.1, b)
    | some e =>
      shipGroups slot f (b + 1) ((q.1.modReq slot (fun r => { r with pages := setPage r.pages b e })).modGroup e.handle (fun g => { g with snapValid := false }))

/-- A request claims a shipment, with so many blocks matched: blocks below the limit are granted private groups and a window. -/
def State.claimShip (s : State) (slot handle matched limit : Nat) : State :=
  match s.ship? handle, s.req? slot with
  | some x, some r =>
    let bb := blockBytes (s.mslot r.modelSlot).info
    let q := shipGroups slot (min x.blocks limit - matched) matched s
    let y := { x with slot := some slot, firstBlock := matched, grantEnd := max matched q.2 * bb, landed := matched * bb, windowEnd := matched * bb }
    if y.grantEnd ≤ y.landed then (q.1.setShip y).tryVerify handle else q.1.moveWindow y
  | _, _ => s

/-! ## The receiver's rows -/

/-- SHIP_OPEN: opens a handle that awaits its claim; a 4,097th or a repeated one is answered with cause 0x04 (R332, R334). -/
def execShipOpen (t : Nat) (a : Arrival) (s : State) : Host.Outcome State Fault Refusal :=
  let p := a.pkt
  .next ((s.atTime t).receive a.port p 0x20 (fun s =>
    let h := field p.payload 0 8
    let blocks := field p.payload 44 4
    if h = 0 || !allZero (slice p.payload 41 3) || !allZero (slice p.payload 48 16) || !inRange blocks 1 16383 || !inRange (field p.payload 40 1) 1 2 then s
    else if 4096 ≤ (s.gelcon.ships.filter (fun x => !x.outgoing)).length || (s.ship? h).isSome then s.sendEnd p.src h p.tc 4
    else s.onGelcon (fun g => { g with ships := g.ships ++
      [{ handle := h, modelFp := BitVec.ofNat 256 (field p.payload 8 32), cfmt := field p.payload 40 1, blocks := blocks, openedAt := s.now, tc := p.tc }] })))

/-- A packet of a shipment this device receives; one for an unknown handle is dropped under cause 0x09 (Table 14-10). -/
def State.shipPacket (s : State) (port : Nat) (p : Packet) (h : Nat) (outgoing : Bool) (k : State → Shipment → State) : State :=
  match s.ship? h with
  | some x => if x.outgoing = outgoing then k s x else s.badPacket port 9 p
  | none => s.badPacket port 9 p

/-- SHIP_DATA: body bytes inside the granted window are kept at their offset; outside it the packet is dropped under cause 0x09
(R334, Table 14-10). -/
def execShipData (t port : Nat) (p : Packet) (s : State) : Host.Outcome State Fault Refusal :=
  .next ((s.atTime t).receive port p 0x22 (fun s => s.shipPacket port p p.handle false (fun s x =>
    let hi := p.addr + p.payload.length
    if x.firstBlock * blockBytes (shipModel s x) ≤ p.addr && hi ≤ x.windowEnd && x.slot.isSome then
      s.setShip { x with body := Memory.writeN x.body p.addr p.payload, got := x.got ++ [(p.addr, hi)] }
    else s.badPacket port 9 p)))

/-- Tier-1 addresses of the row granules of a group's frames, in body order. -/
def groupGranules (i : ModelInfo) (g : PageGroup) : List Nat :=
  (g.frames.zip i.pageOrder.flatten).flatMap (fun x => (List.range (pageRows i x.2.1 x.2.2)).map (fun k => granAddr x.1.1 (x.1.2 + k) 0))

/-- A body offset lies in the first 64 bytes of a frame's sidecar, which the device's own Tier Manager writes (Table 5-4a; log 24). -/
def inSidecar (i : ModelInfo) (off : Nat) : Bool :=
  let g := (off % blockBytes i - 2048) / 2048
  let starts := (i.pageOrder.flatten.foldl (fun (a : List Nat × Nat) x => (a.1 ++ [a.2], a.2 + pageRows i x.1 x.2)) ([], 0)).1
  decide (off % 2048 < 64) && starts.contains g

/-- Tier-1 address of a body offset of a request's block, none for the granule of token ids. -/
def bodyPlace (s : State) (i : ModelInfo) (r : Request) (off : Nat) : Option Nat :=
  let o := off % blockBytes i
  if o < 2048 then none
  else
    match s.group? (pageAt r.pages (off / blockBytes i)).handle with
    | none => none
    | some g => ((groupGranules i g)[(o - 2048) / 2048]?).map (· + o % 2048)

/-- Body bytes reach tier 1, but for the sidecar bytes that name the group's owner and its place here. -/
def State.landBytes (s : State) (i : ModelInfo) (r : Request) (x : Shipment) (lo n : Nat) : State :=
  s.onMem (fun m => (upFrom lo n).foldl (fun m off =>
      match bodyPlace s i r off with
      | none => m
      | some a => if inSidecar i off then m else m.write a (Memory.read x.body off)) m)

/-- SHIP_WINDOW_ADVANCE: in an execute window received frames reach tier 1 up to a body offset, and the window moves forward
(R264, R334). -/
def execShipWindowAdvance (handle upto : Nat) (s : State) : Host.Outcome State Fault Refusal :=
  .next (
    match s.ship? handle with
    | none => s
    | some x =>
      match x.slot with
      | none => s
      | some n =>
        match s.req? n with
        | none => s
        | some r =>
          if s.tick.running && !s.tick.inCommit && !x.outgoing && x.landed ≤ upto && upto ≤ coveredTo x.got x.got.length x.landed then
            ((s.landBytes (shipModel s x) r x x.landed (upto - x.landed)).moveWindow { x with landed := upto }).tryVerify handle
          else s)

/-- SHIP_DONE: block CRCs; where body ranges of its blocks are missing they are granted again up to three times, and then the
shipment fails (R335). -/
def execShipDone (t port : Nat) (p : Packet) (s : State) : Host.Outcome State Fault Refusal :=
  .next ((s.atTime t).receive port p 0x23 (fun s => s.shipPacket port p (field p.payload 0 8) false (fun s x =>
    let first := field p.payload 8 4
    let n := field p.payload 12 4
    if x.slot.isNone then s.badPacket port 9 p
    else if !inRange n 1 1020 then s
    else
      let bb := blockBytes (shipModel s x)
      let crcs := (List.range n).foldl (fun l k => tabPut (first + k) (field p.payload (16 + 4 * k) 4) l) x.crcs
      let x := { x with crcs := crcs }
      let stop := min x.grantEnd ((first + n) * bb)
      let c := coveredTo x.got x.got.length (max (first * bb) (x.firstBlock * bb))
      if c < stop then
        if x.regrants < 3 then
          let y := { x with regrants := x.regrants + 1 }
          (s.setShip y).sendGrant y (c / bb)
        else s.failShip x 1
      else (s.setShip x).tryVerify x.handle)))

/-- SHIPMENT_APPLY: in the first commit window that opens after its last frame is in tier 1 a verified shipment is applied (R335). -/
def execShipmentApply (handle : Nat) (s : State) : Host.Outcome State Fault Refusal :=
  .next (
    match s.ship? handle with
    | none => s
    | some x =>
      match x.slot with
      | none => s
      | some n =>
        match s.req? n with
        | none => s
        | some r =>
          if s.tick.inCommit && x.verified && x.verifiedAt < s.tick.commitOpenAt && r.state = .importing && !r.migrating && !s.req.unsettled.contains n then
            let len := 128 * (x.grantEnd / blockBytes (shipModel s x))
            ((((s.modReq n (fun q => { q with state := .prefilling, committedLen := max q.committedLen len })).markPublish n (128 * x.firstBlock) len).dropShip
              handle).sendEnd (shipSender handle) handle x.tc 0)
          else s)

/-- SHIP_UNCLAIMED_TIMEOUT: a handle unclaimed after unclaimed_ms is closed with cause 0x03 (R334). -/
def execShipUnclaimedTimeout (t handle : Nat) (s : State) : Host.Outcome State Fault Refusal :=
  let s := s.atTime t
  .next (
    match s.ship? handle with
    | none => s
    | some x => if x.slot.isNone && !x.outgoing && x.openedAt + rf s.regs.glShip 31 16 * 1000000 ≤ t then s.failShip x 3 else s)

/-- IMPORT_TIMEOUT: an import not complete within the import time-out fails its shipment with cause 0x02, and R73 applies. -/
def execImportTimeout (t slot : Nat) (s : State) : Host.Outcome State Fault Refusal :=
  let s := s.atTime t
  .next (
    match s.req? slot with
    | none => s
    | some r =>
      if r.state = .importing && !r.migrating && r.importFrom + rf s.regs.scCtl 15 0 * 1000000 ≤ t then
        match s.gelcon.ships.find? (fun x => x.slot = some slot && !x.outgoing) with
        | some x => s.failShip x 2
        | none => s.failImport slot
      else s)

/-- Shipments claimed by requests that have closed end with cause 0x05 (R335). -/
def State.endClosedShips (s : State) : State :=
  (s.gelcon.ships.filter (fun x => !x.outgoing && match x.slot with | none => false | some n => !reqLive (s.reqState n))).foldl
    (fun t x => (t.dropShip x.handle).sendEnd (shipSender x.handle) x.handle x.tc 5) s

/-! ## The sender's side -/

/-- Bytes [lo, lo+n) of the body of a request's blocks as they stand in tier 1 (R333). -/
def outBytes (s : State) (i : ModelInfo) (r : Request) (lo n : Nat) : List Byte :=
  (upFrom lo n).map (fun off =>
    let o := off % blockBytes i
    if o < 2048 then slice ((((contextTokens r).drop (off / blockBytes i * 128)).take 128).flatMap (leBytes 4)) 0 2048 |>.getD o 0
    else
      match bodyPlace s i r off with
      | none => 0
      | some a => s.mem.read a)

/-- Sends SHIP_DONE for the blocks from one on, at most 1,020 to a packet. -/
def State.sendDone (s : State) (i : ModelInfo) (r : Request) (x : Shipment) (dst first : Nat) : State :=
  let bs := upFrom first (x.blocks - first)
  (chunks 1020 (bs.length / 1020 + 1) bs).foldl (fun t c =>
    match c with
    | [] => t
    | b :: _ => t.sendMsg dst 0x23 x.tc 0 x.handle false (leBytes 8 x.handle ++ leBytes 4 b ++ leBytes 4 c.length
        ++ c.flatMap (fun k => leBytes 4 (crc32 (outBytes s i r (k * blockBytes i) (blockBytes i))).toNat))) s

/-- SHIP_GRANT: the sender sends what the window newly admits, or the ranges granted again, and after its last block SHIP_DONE
for every block shipped (R334). -/
def execShipGrant (t : Nat) (a : Arrival) (s : State) : Host.Outcome State Fault Refusal :=
  let port := a.port
  let p := a.pkt
  .next ((s.atTime t).receive port p 0x21 (fun s =>
    let h := field p.payload 0 8
    match s.ship? h with
    | none => s.badPacket port 9 p
    | some x =>
      match (if x.outgoing then x.slot else none) with
      | none => s.badPacket port 9 p
      | some n =>
        match s.req? n with
        | none => s
        | some r =>
          let i := (s.mslot r.modelSlot).info
          let first := field p.payload 8 4
          let stop := min (field p.payload 16 8) (x.blocks * blockBytes i)
          let lo := if stop ≤ x.landed then first * blockBytes i else max x.landed (first * blockBytes i)
          let y := { x with landed := max x.landed stop, windowEnd := stop, firstBlock := if x.landed = 0 then first else x.firstBlock }
          let s := (s.setShip y).sendMsg p.src 0x22 x.tc lo h false (outBytes s i r lo (stop - lo))
          if y.landed = x.blocks * blockBytes i then s.sendDone i r y p.src y.firstBlock else s))

end Sys2Proof.Machine
end

