-- ==== Sys2Proof/Machine/Planner.lean ====
section
/-! DEFINITION. Building plan k+1 (R86 to R90), its shares (R94 to R97), power fitting (R98, R99), the gather budget (R254) and
receive reservations (R102).
Readings of the spec: log 25. -/

namespace Sys2Proof.Machine

open Sys2Proof

/-! ## Accounts as they will stand (R92, R96) -/

/-- A tenant's remaining budget as it will stand at the edge of tick i, where it keeps an account. -/
def remainingAt (s : State) (t i : Nat) : Option Int :=
  match s.plan.accounts.find? (fun a => a.1 = t) with
  | none => none
  | some a =>
    let n := s.tenant t
    some (if i % n.windowTicks = 0 then 64 * Int.ofNat n.budgetTokens + min a.2 0 else a.2)

/-- Virtual time of a pair. -/
def vtOf (s : State) (t c : Nat) : Nat := ((s.plan.vts.find? (fun v => v.1 = t && v.2.1 = c)).map (·.2.2)).getD 0

/-- Least virtual time among the active pairs of a class. -/
def leastVt (s : State) (c : Nat) : Option Nat :=
  ((s.plan.activePairs.filter (fun p => p.2 = c)).map (fun p => vtOf s p.1 p.2)).foldl
    (fun m v => match m with | none => some v | some w => some (min v w)) none

/-- Virtual time a pair plans with: raised, where it becomes active, to the least of its class's active pairs (R96). -/
def startVt (s : State) (t c : Nat) : Nat :=
  if s.plan.activePairs.contains (t, c) then vtOf s t c else max (vtOf s t c) ((leastVt s c).getD 0)

/-! ## Eligibility (R86) -/

/-- Length in nanoseconds of tick k+1. -/
def nextTickNs (s : State) : Nat := ((s.tick.frozenCfg.map (·.1)).getD s.tick.tickUs) * 1000

/-- The device may plan rows: SERVING or DEGRADED with a port up, no empty tick due, no map switch or takeover under way. -/
def mayPlan (s : State) : Bool :=
  (s.start.state = .serving || s.start.state = .degraded) && !s.noPort && !s.plan.emptyTick && s.plan.noPlanTicks = 0
    && s.faults.remapDue.isNone && s.faults.clsToPlace.isEmpty && !s.start.warmPending

/-- A slot's quarantine as plan k+1 sees it: frozen at o_k where a release comes later (R38, R110). -/
def planQuar (s : State) (m : Nat) : Bool := s.plan.quar.contains m || s.plan.released.contains m

/-- The conditions of R86 but the budget's. -/
def r86Holds (s : State) (r : Request) : Bool :=
  (r.state = .prefilling || r.state = .decoding) && !r.flags.held && 32 ≤ ringFree r
    && (s.mslot r.modelSlot).state = .resident && !planQuar s r.modelSlot
    && (!r.alloyEn || s.models.gens.any (fun g => g.id = r.alloyId && g.gen = r.alloyGen && g.state ≠ .loading))
    && allResident s r && noneRebuilds s r
    && (r.deadline = 0 || s.nextEdge + nextTickNs s ≤ r.deadline)

/-- What else keeps a row out of a plan: a migration under way (R381), a repair of its model (R385), a member out of alignment (R47), a
settlement still due (R306), and of a sharded request GATHERs that have not ended (R255). -/
def otherwiseHeld (s : State) (slot : Nat) (r : Request) : Bool :=
  r.migrating || s.plan.repairing.contains r.modelSlot
    || (s.req.unsettled.contains slot && !awaitsSet s slot && ((s.attempt? slot).isSome || causeDue s slot))
    || (!r.shards.isEmpty && ((s.tick.inGroup && !s.tick.aligned) || s.req.gathersDue.any (fun g => g.slot = slot)))

/-- A request may have a row, but for its tenant's budget. -/
def eligibleBut (s : State) (slot : Nat) (r : Request) : Bool := r86Holds s r && !otherwiseHeld s slot r

/-- The budget condition of R86. -/
def budgetOk (s : State) (r : Request) : Bool :=
  match remainingAt s r.tenant (s.tick.index + 1) with
  | none => true
  | some v => 0 < v

/-! ## Candidate rows -/

/-- A candidate for a row. -/
structure Cand where
  /-- slot, or 1,048,576 plus a handle -/
  slot : Nat := 0
  /-- kind -/
  kind : RowKind := .decode
  /-- priority class -/
  cls : Nat := 0
  /-- tenant -/
  tenant : Nat := 0
  /-- model slot -/
  model : Nat := 0
  /-- order within a tenant: deadline or past every deadline, admit_tick, slot -/
  key : Nat × Nat × Nat := (0, 0, 0)
  deriving DecidableEq, Repr, Inhabited

/-- The candidate of a request. -/
def candOf (slot : Nat) (r : Request) : Cand :=
  { slot := slot, kind := if r.state = .decoding then .decode else .prefill, cls := r.priority, tenant := r.tenant, model := r.modelSlot
    key := (if r.deadline = 0 then two64 else r.deadline, r.admitTick, slot) }

/-- Order of keys. -/
def keyBefore (a b : Nat × Nat × Nat) : Bool :=
  decide (a.1 < b.1) || (a.1 = b.1 && (decide (a.2.1 < b.2.1) || (a.2.1 = b.2.1 && decide (a.2.2 < b.2.2))))

/-- The requests that may have rows of this device's choosing. -/
def candidates (s : State) : List Cand :=
  (s.req.table.filter (fun p => eligibleBut s p.1 p.2 && homedHere s p.2 && budgetOk s p.2)).map (fun p => candOf p.1 p.2)

/-- Nodes that a decode row asks for (R88, R239, R5, Table 10-4). -/
def askNodes (s : State) (r : Request) : Nat :=
  if r.spec.source = 0 || !bit s.regs.specCtl.toNat 8 then 1
  else if hasMask s.variant then r.spec.maxNodes
  else min (min r.spec.maxNodes r.spec.maxDepth) 8

/-- Nodes of the tree that a decode row is to verify (R84, R88): for sources 0x01 and 0x03 the tree that committed state gives (R243), for 0x02
as many as its policy allows. -/
def wantNodes (s : State) (r : Request) (depth : Nat) : Nat :=
  if depth ≤ 1 || askNodes s r = 1 then 1
  else if r.spec.source = 2 then if hasMask s.variant then askNodes s r else min depth (askNodes s r)
  else (rowNodes s.variant r.spec.maxNodes (lookupTree r depth)).length

/-- Length of a prefill chunk (R89). -/
def chunkLength (s : State) (r : Request) (allow : Nat) : Nat :=
  let left := prefillEnd r - r.committedLen
  let m := min allow (rf s.regs.prefillCtl 8 0 * 128)
  if left ≤ m then left else (r.committedLen + m) / 128 * 128 - r.committedLen

/-- Depth a decode row may reach, at most the tokens its request may still generate (R246), with the blocks it needs given to the request where they can be (R249, R272): 0 where the
block of the pending token itself is missing. -/
def decodeDepth (s : State) (slot : Nat) (r : Request) : State × Nat :=
  let p := r.committedLen
  let depth := if askNodes s r = 1 then 1 else max 1 (min r.spec.maxDepth (r.maxNew - r.newCount))
  let draft := r.spec.source = 2
  let q := s.needBlocks slot draft [p / 128]
  if !q.2 then (q.1, 0)
  else if (p + depth - 1) / 128 = p / 128 then (q.1, depth)
  else
    let q2 := q.1.needBlocks slot draft [p / 128 + 1]
    if q2.2 then (q2.1, depth) else (q2.1, (p / 128 + 1) * 128 - p)

/-- Page frames that a block of a model takes. -/
def blockFrames (s : State) (m : Nat) : Nat := sumN ((s.mslot m).info.pageOrder.map List.length)

/-- The planner's estimate of a row's cost by R94: the slot's measured cluster time and hub bytes per row token over its last 16 jobs, and
the measured bank time per page over the last 16 bank passes for the pages of the row's context (R97). -/
def estCost (s : State) (m n ctx : Nat) : Nat :=
  let t := tabGetD m [] s.plan.tokenCost
  let toks := max 1 (sumN (t.map (·.2.2)))
  let pages := ceilDiv ctx 128 * blockFrames s m
  costOf s (n * sumN (t.map (·.1)) / toks) (pages * sumN (s.plan.pageCost.map (·.1)) / max 1 (sumN (s.plan.pageCost.map (·.2))))
    (n * sumN (t.map (·.2.1)) / toks)

/-- Fits one candidate: the state with its blocks, its row tokens (0 where it is left out) and its depth. -/
def fitCand (s : State) (c : Cand) (allow : Nat) : State × Nat × Nat :=
  match s.req? c.slot with
  | none => (s, 0, 0)
  | some r =>
    if c.kind = .decode then
      let d := decodeDepth s c.slot r
      (d.1, if d.2 = 0 then 0 else min (wantNodes s r d.2) allow, d.2)
    else
      let n := chunkLength s r allow
      if n = 0 then (s, 0, 0)
      else
        let q := s.needBlocks c.slot (r.spec.source = 2) (upFrom (r.committedLen / 128) ((r.committedLen + n - 1) / 128 - r.committedLen / 128 + 1))
        (q.1, if q.2 then n else 0, 1)

/-! ## The two passes (R87) -/

/-- A plan being built. -/
structure Draft where
  /-- the state, with blocks and reservations taken -/
  st : State
  /-- rows in the order planned -/
  rows : List PlanRow
  /-- allowance left -/
  allow : Nat
  /-- tentative virtual times -/
  vts : List (Nat × Nat × Nat)
  /-- rows skipped for a receive reservation (R102) -/
  other : Nat
  deriving DecidableEq, Repr

/-- Tentative virtual time of a pair. -/
def tentVt (d : Draft) (t c : Nat) : Nat := ((d.vts.find? (fun v => v.1 = t && v.2.1 = c)).map (·.2.2)).getD (startVt d.st t c)

/-- Adds to the tentative virtual time of a pair. -/
def raiseVt (d : Draft) (t c n : Nat) : Draft :=
  { d with vts := d.vts.filter (fun v => !(v.1 = t && v.2.1 = c)) ++ [(t, c, tentVt d t c + n)] }

/-- The next candidate of a class: of the pair with the least tentative time, ties to the lower tenant, its first row. -/
def nextCand (d : Draft) (l : List Cand) : Option Cand :=
  l.foldl (fun b c =>
    match b with
    | none => some c
    | some a =>
      let va := tentVt d a.tenant a.cls
      let vc := tentVt d c.tenant c.cls
      if decide (vc < va) || (vc = va && decide (c.tenant < a.tenant)) || (c.tenant = a.tenant && keyBefore c.key a.key) then some c else some a) none

/-- Bytes that a sharded row receives in its tick: the spec gives no figure, so it is a free value (log 6). -/
def receiveBytes (s : State) (slot n : Nat) : Nat := Config.receiveBytes s.tick.index slot n

/-- A receive reservation of a sharded row of the next plan, within the cap of its traffic class and as R205 grants it (R102, R204); one it
has stands. -/
def reserveRow (s : State) (slot n : Nat) : State × Bool :=
  let b := blocksFor (receiveBytes s slot n)
  let i := s.tick.index + 1
  if s.plan.reservations.any (fun r => r.2.2.1 = i && r.2.2.2 = slot) then (s, true)
  else if tcHeld s 1 + b ≤ shipCap s && mayGrant s .ship b then
    ((if b = 0 then s else s.grantBlocks .ship (rowHolder i slot) b).onPlan (fun p => { p with reservations := p.reservations ++ [(1, b, i, slot)] }), true)
  else (s, false)

/-- Receive reservations that a test does not name are released, with their blocks (R102). -/
def State.dropReserved (s : State) (keep : Nat → Nat → Bool) : State :=
  (s.plan.reservations.filter (fun r => !keep r.2.2.1 r.2.2.2)).foldl (fun t r => t.releaseBlocks .ship (rowHolder r.2.2.1 r.2.2.2))
    (s.onPlan (fun p => { p with reservations := p.reservations.filter (fun r => keep r.2.2.1 r.2.2.2) }))

/-- Tries one candidate. -/
def tryCand (d : Draft) (c : Cand) : Draft :=
  let f := fitCand d.st c d.allow
  let r := (f.1.req? c.slot).getD {}
  if f.2.1 = 0 then { d with st := f.1 }
  else
    let q := if r.shards.isEmpty then (f.1, true) else reserveRow f.1 c.slot f.2.1
    if !q.2 then { d with st := q.1, other := d.other + 1 }
    else
      let vt := tentVt d c.tenant c.cls + estCost d.st c.model f.2.1 r.committedLen * 65536 / max 1 (d.st.tenant c.tenant).weight
      let row : PlanRow := { slot := c.slot, kind := c.kind, tokens := f.2.1, modelSlot := c.model, cls := c.cls, tenant := c.tenant, vtTent := vt
                             depth := f.2.2, bf16 := r.flags.bf16Pending }
      raiseVt { d with st := q.1, rows := d.rows ++ [row], allow := d.allow - f.2.1 } c.tenant c.cls (vt - tentVt d c.tenant c.cls)

/-- The rows of one kind and class, at most n of them. -/
def fillClass : Nat → List Cand → Draft → Draft
  | 0, _, d => d
  | n + 1, l, d =>
    if d.rows.length < 4096 && 0 < d.allow then
      match nextCand d l with
      | none => d
      | some c => fillClass n (l.filter (fun x => x ≠ c)) (tryCand d c)
    else d

/-! ## Rebuild rows (R387) -/

/-- Requests that wait for a group: they name it in their page lists and are to run. -/
def waitingHolders (s : State) (h : Nat) : List (Nat × Request) :=
  s.req.table.filter (fun p => (p.2.state = .prefilling || p.2.state = .decoding || p.2.state = .resuming)
    && (p.2.pages ++ p.2.draftPages).any (fun e => e.handle = h && !e.weak))

/-- Positions of a group that are committed for its owner or holders. -/
def rebuildTokens (g : PageGroup) (hs : List (Nat × Request)) : Nat :=
  let len := hs.foldl (fun m p => max m p.2.committedLen) 0
  min 128 (len - g.start)

/-- Rebuild rows wanted: a rebuilding group with frames and a waiting holder, no earlier block of a holder being rebuilt. -/
def rebuildCands (s : State) : List (Nat × Nat × PlanRow) :=
  (s.tier.groups.filter (fun p => p.2.rebuild && (p.2.state = .resident || p.2.state = .promoting))).filterMap (fun p =>
    let hs := waitingHolders s p.1
    let n := rebuildTokens p.2 hs
    let first := hs.all (fun q => (q.2.pages.take (p.2.start / 128)).all (fun e => e.handle = 0 ||
      match s.group? e.handle with | none => true | some g => !g.rebuild))
    if hs.isEmpty || n = 0 || !first || (s.mslot p.2.modelSlot).state ≠ .resident || planQuar s p.2.modelSlot
        || s.plan.repairing.contains p.2.modelSlot then none
    else
      let c := hs.foldl (fun m q => max m q.2.priority) 0
      some (c, p.1, { slot := 1048576 + p.1, kind := .rebuild, tokens := n, modelSlot := p.2.modelSlot, cls := c, tenant := p.2.charge, depth := 1 }))

/-- Adds the rebuild rows of a class, ahead of its ordinary prefill rows. -/
def addRebuilds (c : Nat) (d : Draft) : Draft :=
  ((rebuildCands d.st).filter (fun x => x.1 = c)).foldl (fun d x =>
    if d.rows.length < 4096 && x.2.2.tokens ≤ d.allow then { d with rows := d.rows ++ [x.2.2], allow := d.allow - x.2.2.tokens } else d) d

/-- The row that an entry of a counted SHARD_PLAN lists: (home, slot, nodes, chunk). A held request is not planned (R50), nor anything sharded at
a member out of alignment (R47); a chunk goes no further than the prefill's end, and a tree no deeper than the tokens still to generate
(R246). -/
def listedRow (s : State) (l : Nat × Nat × Nat × Nat) : Option PlanRow :=
  match s.req? l.2.1 with
  | none => none
  | some r =>
    let n := if l.2.2.1 = 0 then min l.2.2.2 (prefillEnd r - r.committedLen) else l.2.2.1
    if r.shards.head? = some l.1 && reqLive r.state && !r.flags.held && s.tick.aligned && n ≠ 0 then
      some { slot := l.2.1, kind := if l.2.2.1 = 0 then .prefill else .decode, tokens := n, modelSlot := r.modelSlot, cls := r.priority
             tenant := r.tenant, depth := min n (max 1 (min r.spec.maxDepth (r.maxNew - r.newCount))), sharded := true, bf16 := r.flags.bf16Pending }
    else none

/-- The blocks that a listed row writes are given to its request where they can be (R249, R272): false where the row cannot be placed. -/
def listedBlocks (s : State) (row : PlanRow) (r : Request) : State × Bool :=
  let last := if row.kind = .decode then r.committedLen + row.depth - 1 else r.committedLen + row.tokens - 1
  s.needBlocks row.slot (r.spec.source = 2) (upFrom (r.committedLen / 128) (last / 128 - r.committedLen / 128 + 1))

/-- Places a listed row, once for each request, up to 4,096, where its blocks and its receive space can be had (R82, R101, R102). -/
def addListed (d : Draft) (l : Nat × Nat × Nat × Nat) : Draft :=
  match listedRow d.st l with
  | none => d
  | some row =>
    if 4096 ≤ d.rows.length || d.rows.any (fun x => x.slot = row.slot) then d
    else
      let b := listedBlocks d.st row ((d.st.req? row.slot).getD {})
      if !b.2 then { d with st := b.1 }
      else
        let q := reserveRow b.1 row.slot row.tokens
        if q.2 then { d with st := q.1, rows := d.rows ++ [row] } else { d with st := q.1, other := d.other + 1 }

/-- A row sent in SHARD_PLANs still stands: its request may run and is in the phase the row was made for. -/
def sentStands (r : Request) (row : PlanRow) : Bool :=
  !r.flags.held && !r.migrating && r.state = (if row.kind = .decode then .decoding else .prefilling)

/-- A row sent in SHARD_PLANs is in the plan as it was sent, while the plan has room (R82); a chunk goes no further than the prefill's end (R40, R101). -/
def keepSent (d : Draft) (row : PlanRow) : Draft :=
  match d.st.req? row.slot with
  | none => d
  | some r =>
    if sentStands r row && d.rows.length < 4096 then
      let t := tryCand { d with allow := row.tokens } (candOf row.slot r)
      { t with rows := t.rows.map (fun x => if x.slot = row.slot then { x with sharded := true } else x), allow := d.allow - (row.tokens - t.allow) }
    else d

/-- Candidates that the passes choose from: once SHARD_PLANs are sent, no sharded request beside those they list. -/
def passCands (s : State) : List Cand :=
  if s.plan.sent.isNone then candidates s
  else (candidates s).filter (fun c => match s.req? c.slot with | none => false | some r => r.shards.isEmpty)

/-- Both passes. -/
def fillPlan (s : State) : Draft :=
  let cs := passCands s
  let d := s.plan.shardListed.foldl addListed { st := s, rows := [], allow := rf s.regs.planCtl 18 0, vts := [], other := 0 }
  let d := (s.plan.sent.getD []).foldl keepSent d
  let down := [7, 6, 5, 4, 3, 2, 1, 0]
  let d := down.foldl (fun d c =>
    let l := cs.filter (fun x => x.cls = c && x.kind = .decode)
    fillClass l.length l d) d
  down.foldl (fun d c =>
    let l := cs.filter (fun x => x.cls = c && x.kind = .prefill)
    fillClass l.length l (addRebuilds c d)) d

/-! ## The gather budget (R254) -/

/-- tGA for 15 tokens in a cache format: both planes for 4-bit, the sum of the two plane GATHERs for INT8; the scale columns of both planes are
rewritten in each (Table 5-10, R141). -/
def gatherNs (f : CacheFmt) : Nat :=
  let d := if f.dsel = 0 then 64 else if f.dsel = 1 then 128 else 256
  if f.fmt = 1 then 30 + 2 * (3 * (2 * d) + 2 * (15 * (d / 64)) + 3 * 4 + 1)
  else (30 + 2 * (3 * (4 * d) + 3 * 4 + 1)) + (30 + 2 * (2 * (15 * (d / 32)) + 3 * 4 + 1))

/-- A decode row of two or more nodes. -/
def isTree (r : PlanRow) : Bool := r.kind = .decode && 2 ≤ r.tokens

/-- Commit work of a tree row on a cluster, in ns: two GATHERs for each layer with pages there, in the format of its cache (R254, R176). -/
def rowGather (s : State) (cl : Nat) (r : PlanRow) : Nat :=
  let i := (s.mslot r.modelSlot).info
  if isTree r then
    sumN (((upFrom 0 16).filter (fun c => nth s.faults.clmap c c = cl)).map (fun c =>
      sumN ((clusterLayers i c).map (fun p => 2 * gatherNs (cacheFmt i false p.1 p.2)))))
  else 0

/-- Every cluster's test holds. -/
def gatherFits (s : State) (rows : List PlanRow) : Bool :=
  let c := ((s.tick.frozenCfg.map (·.2)).getD s.tick.commitUs) * 1000
  (List.range 16).all (fun cl => sumN (rows.map (rowGather s cl)) * 100
    ≤ rf (nth s.regs.buCfg cl 0) 10 0 * c * rf s.regs.specCtl 6 0)

/-- The last to give way among rows a test names: lowest class, highest tentative time, latest planned. -/
def victimRow (p : PlanRow → Bool) (rows : List PlanRow) : Option Nat :=
  (rows.zipIdx.foldl (fun b x =>
    if !p x.1 then b
    else
      match b with
      | none => some x
      | some y => if decide (x.1.cls < y.1.cls) || (x.1.cls = y.1.cls && y.1.vtTent ≤ x.1.vtTent) then some x else some y)
    (none : Option (PlanRow × Nat))).map (·.2)

/-- Tree rows are cut to their root until the test holds; gives the rows and how many were cut. One whose node count a SHARD_PLAN has fixed cannot
be placed with another, and leaves the plan (R101; DESIGN CHOICE, log 25). -/
def cutGathers (s : State) : Nat → List PlanRow → Nat → List PlanRow × Nat
  | 0, rows, n => (rows, n)
  | f + 1, rows, n =>
    if gatherFits s rows then (rows, n)
    else
      match victimRow isTree rows with
      | none => (rows, n)
      | some i =>
        cutGathers s f (if (nth rows i {}).sharded then rows.eraseIdx i else rows.modify i (fun r => { r with tokens := 1, depth := 1 })) (n + 1)

/-! ## Power (R98, R99) -/

/-- E_base in mJ, as a numerator and a denominator (R98): nothing is rounded (DESIGN CHOICE, log 25). -/
def baseEnergy (s : State) : Nat × Nat :=
  if s.plan.emptyEnergies.isEmpty then (s.plan.readyPowerSum * (nextTickNs s / 1000), 1000 * max 1 s.plan.readyPowerN)
  else (sumN s.plan.emptyEnergies, s.plan.emptyEnergies.length)

/-- Estimate of a model's job in mJ: the sum over its kernels. -/
def jobEnergy (s : State) (rows : List PlanRow) (m : Nat) : Nat :=
  let mine := rows.filter (fun r => r.modelSlot = m)
  if mine.isEmpty then 0
  else sumN ((s.mslot m).info.kernels.map (fun k => kernelEstimate s m k.kkind (sumN (mine.map (·.tokens))) (rowContexts s mine)))

/-- The plan fits under the envelope: with W in watts and T in us, both sides are formed in uJ x 100 x the denominator of E_base. -/
def powerFits (s : State) (rows : List PlanRow) : Bool :=
  let b := baseEnergy s
  (b.1 + sumN ((List.range 16).map (jobEnergy s rows)) * b.2) * 100000
    ≤ s.cfg.envelope * (nextTickNs s / 1000) * (100 - rf s.regs.pwrCtl 7 0) * b.2

/-- One removal of R99 among the rows a test names: a chunk's end moves back to the next lower multiple of 128, else one tree node goes, else a decode row.
Gives the rows and whether a whole row went. -/
def trimOnce (s : State) (p : PlanRow → Bool) (rows : List PlanRow) : Option (List PlanRow × Nat) :=
  match victimRow (fun r => p r && r.kind ≠ .decode && !r.sharded) rows with
  | some i =>
    let r := nth rows i {}
    let start := match s.req? r.slot with | none => 0 | some q => q.committedLen
    let e := (start + r.tokens - 1) / 128 * 128
    if r.kind = .rebuild || e ≤ start then some (rows.eraseIdx i, 1) else some (rows.modify i (fun r => { r with tokens := e - start }), 0)
  | none =>
    match victimRow (fun r => p r && isTree r && !r.sharded) rows with
    | some i => some (rows.modify i (fun r => { r with tokens := r.tokens - 1 }), 0)
    | none =>
      match victimRow (fun r => p r && !r.sharded) rows with
      | some i => some (rows.eraseIdx i, 1)
      | none => none

/-- Work is removed while the plan does not fit; gives the rows and how many were removed. -/
def trimPower (s : State) : Nat → List PlanRow → Nat → List PlanRow × Nat
  | 0, rows, n => (rows, n)
  | f + 1, rows, n =>
    if powerFits s rows then (rows, n)
    else
      match trimOnce s (fun _ => true) rows with
      | none => (rows, n)
      | some q => trimPower s f q.1 (n + q.2)

/-! ## Plan-time reservations (R207, R291) -/

/-- ACT blocks a job declares for its rows: the most that one of its kernels declares. -/
def jobAct (s : State) (m : Nat) (mine : List PlanRow) : Nat :=
  (s.mslot m).info.kernels.foldl (fun b k => max b (k.actFixed + k.actPer16 * ceilDiv (sumN (mine.map (·.tokens))) 16)) 0

/-- LOGIT blocks a job declares for its rows. -/
def jobLogit (s : State) (m : Nat) (mine : List PlanRow) : Nat :=
  (s.mslot m).info.kernels.foldl (fun b k => max b (k.logitPerRow * mine.length)) 0

/-- Reserves a job's ACT and LOGIT blocks; work of the job is removed in the order of R99 until they are granted. Gives the state, the
rows of the plan and how many rows went. -/
def reserveJob (m : Nat) : Nat → State → List PlanRow → Nat → State × List PlanRow × Nat
  | 0, s, rows, n => (s, rows.filter (fun r => r.modelSlot ≠ m), n)
  | f + 1, s, rows, n =>
    let mine := rows.filter (fun r => r.modelSlot = m)
    let t := if jobAct s m mine = 0 then s else s.grantBlocks .act m (jobAct s m mine)
    if mayGrant s .act (jobAct s m mine) && mayGrant t .logit (jobLogit s m mine) then
      (if jobLogit s m mine = 0 then t else t.grantBlocks .logit m (jobLogit s m mine), rows, n)
    else
      match trimOnce s (fun r => r.modelSlot = m) rows with
      | none => (s, rows.filter (fun r => r.modelSlot ≠ m), n + mine.length)
      | some q => reserveJob m f s q.1 (n + q.2)

/-- The reservations of every job of a plan, in model-slot order (R207; DESIGN CHOICE of the order, log 25). -/
def reserveJobs (s : State) (rows : List PlanRow) : State × List PlanRow × Nat :=
  ((List.range 16).filter (fun m => rows.any (fun r => r.modelSlot = m))).foldl (fun q m =>
    reserveJob m (sumN (q.2.1.map (·.tokens)) + q.2.1.length + 1) q.1 q.2.1 q.2.2) (s, rows, 0)

/-! ## The plan -/

/-- A 16-bit field of a status register, saturating. -/
def sat16 (n : Nat) : Nat := min 65535 n

/-- The stall flag of a request follows its ring's free space (R70). -/
def State.noteStalls (s : State) : State :=
  s.onReq (fun u => { u with table := u.table.map (fun p =>
    if p.2.state = .prefilling || p.2.state = .decoding then (p.1, { p.2 with flags := { p.2.flags with streamStalled := decide (ringFree p.2 < 32) } }) else p) })

/-- Builds plan k+1 from the committed state and the frozen inputs. -/
def State.buildPlan (s : State) : State :=
  let s := s.noteStalls.dropReserved (fun k slot => k ≠ s.tick.index + 1 || (s.plan.sent.getD []).any (fun r => r.slot = slot))
  let s := s.onStore (fun u => { u with held := u.held.filter (fun h => !isTick h.cls) })
  if !mayPlan s then s.onPlan (fun p => { p with nextRows := [], planStat := 0, specStat := 0 })
  else
    let run := s.req.table.filter (fun p => (p.2.state = .prefilling || p.2.state = .decoding) && homedHere s p.2)
    let other := (run.filter (fun p => !r86Holds s p.2)).length
    let budget := (run.filter (fun p => eligibleBut s p.1 p.2 && !budgetOk s p.2)).length
    let d := fillPlan s
    let g := cutGathers d.st d.rows.length d.rows 0
    let t := trimPower d.st (sumN (g.1.map (·.tokens)) + g.1.length) g.1 0
    let q := reserveJobs d.st t.1
    q.1.onPlan (fun p => { p with
      nextRows := q.2.1
      planStat := BitVec.ofNat 64 (sat16 t.2 * 2 ^ 48 + sat16 budget * 2 ^ 32 + sat16 (other + d.other) * 65536 + q.2.1.length)
      specStat := BitVec.ofNat 32 (sat16 g.2 * 65536 + (q.2.1.filter isTree).length) })

/-- The pairs that have an eligible row; a pair that becomes active takes its raised virtual time (R96). -/
def State.notePairs (s : State) : State :=
  let ps := (candidates s).foldl (fun l c => if l.contains (c.tenant, c.cls) then l else l ++ [(c.tenant, c.cls)]) []
  let new := ps.filter (fun p => !s.plan.activePairs.contains p)
  s.onPlan (fun u => { u with
    activePairs := ps
    vts := new.foldl (fun l p => l.filter (fun v => !(v.1 = p.1 && v.2.1 = p.2)) ++ [(p.1, p.2, startVt s p.1 p.2)]) u.vts })

/-- Adds a row's measured engine quantities to the virtual time of its pair (R95). -/
def State.chargePair (s : State) (tenant cls clusterNs bankNs hubBytes : Nat) : State :=
  s.onPlan (fun p => { p with
    vts := p.vts.filter (fun v => !(v.1 = tenant && v.2.1 = cls))
      ++ [(tenant, cls, (vtOf s tenant cls + costOf s clusterNs bankNs hubBytes * 65536 / max 1 (s.tenant tenant).weight) % two64)] })

/-- A row of plan k charges its pair, whatever became of its attempt, or waits for the costs its other shards report; rebuild rows, recovery
prefill and rows homed elsewhere charge nothing (R95, R101, R379, R387). -/
def State.chargeRow (t : State) (row : PlanRow) : State :=
  match t.attempt? row.slot, t.req? row.slot with
  | some a, some r =>
    let t := t.countTenant row.tenant (fun c => { c with
      clusterNs := add64 c.clusterNs a.clusterNs, bankNs := add64 c.bankNs a.bankNs, hubBytes := add64 c.hubBytes a.hubBytes })
    if row.kind = .rebuild || (row.kind = .prefill && r.recoverLen ≠ 0) || !homedHere t r then t
    else if r.shards.isEmpty then t.chargePair row.tenant row.cls a.clusterNs a.bankNs a.hubBytes
    else t.onPlan (fun p => { p with costsDue := p.costsDue ++ [(row.slot, row.tenant, row.cls, a.clusterNs, a.bankNs, a.hubBytes)] })
  | _, _ => t

/-- Each row of plan k charges its pair. -/
def State.chargeRows (s : State) : State := s.plan.rows.foldl State.chargeRow s

/-- The rows of several shards charge what all their shards measured (R101). -/
def State.chargeShared (s : State) : State :=
  (s.plan.costsDue.foldl (fun t c => t.chargePair c.2.1 c.2.2.1 c.2.2.2.1 c.2.2.2.2.1 c.2.2.2.2.2) s).onPlan (fun p => { p with costsDue := [] })

/-- Free semaphores that a die serves, from an open first number on (R216). -/
def freeSems (s : State) : List Nat :=
  ((List.range 4096).map (fun i => (Config.semStart s.freeCtr + i) % 4096)).filter (fun n => (tabGet n s.store.sems).isNone && semServed s n)

/-- Semaphores that a job needs: the most that one of its kernels declares, since they run one after the other. -/
def jobSems (s : State) (m : Nat) : Nat := (s.mslot m).info.kernels.foldl (fun b k => max b k.nsem) 0

/-- The rows of a job as its passes take them: by Alloy and generation, those without one first, plan order within (R304). -/
def passOrder (s : State) (rows : List PlanRow) : List PlanRow :=
  let key := fun (r : PlanRow) => match s.req? r.slot with
    | some q => if q.alloyEn then 1 + q.alloyId * 256 + q.alloyGen else 0
    | none => 0
  (rows.foldl (fun acc r => insertKey (key r) r acc) []).map (·.2)

/-- Jobs of a plan in plan order (R85), each with its rows in pass order (R304) and the semaphores granted to its kernels (R216). -/
def jobsOf (s : State) (rows : List PlanRow) : List Job :=
  let ms := planOrder rows
  let free := freeSems s
  ms.map (fun m =>
    let before := sumN ((ms.takeWhile (fun x => x ≠ m)).map (jobSems s))
    { modelSlot := m, rows := (passOrder s (rows.filter (fun r => r.modelSlot = m))).map (·.slot), kernels := (s.mslot m).info.kernels.length, urgent := rows.any (fun r => r.modelSlot = m && r.cls = 7)
      sems := (free.drop before).take (jobSems s m) })

end Sys2Proof.Machine
end

