-- ==== Sys2Proof/Machine/Admission.lean ====
section
/-! DEFINITION. Submission rings, doorbells and admission: R56, R57, R69, the descriptor (Tables 3-2, 3-3, 9-1, 9-3, 10-1), the
checks of Table 3-4, what admission does (R62, R271), and RECOVER (R377 to R379).
Readings of the spec: logs 17, 18. -/

namespace Sys2Proof.Machine

open Sys2Proof

/-! ## Rings -/

/-- A ring. -/
def State.ring (s : State) (n : Nat) : Ring := tabGetD n {} s.req.rings

/-- Changes a ring. -/
def State.modRing (s : State) (n : Nat) (f : Ring → Ring) : State := s.onReq (fun u => { u with rings := tabMod n f u.rings })

/-- Descriptors of a ring. -/
def ringSize (g : Ring) : Nat := 2 ^ g.sizeLog2

/-- A stopped ring takes no more descriptors; the event carries its number (R56, R344). -/
def State.stopRing (s : State) (n : Nat) : State :=
  (s.modRing n (fun g => { g with stopped := true, headDue := false })).postEvent St.hostDmaFault n 0

/-- A doorbell write reaches the device: through either port's BAR0 (R340, R348), but not during a warm reset (R353). -/
def doorbellOpen (s : State) (port : Nat) : Bool := s.barUp port && !s.start.warmRunning && s.start.state ≠ .off

/-- SUBMISSION_RING_DOORBELL: a valid tail count makes descriptors visible under its stamp; any other write is misuse (R57, R341,
R352). A stopped ring's doorbell is judged and makes nothing visible (R56). -/
def execSubmissionRingDoorbell (t port ring offset width : Nat) (value : BitVec 32) (s : State) : Host.Outcome State Fault Refusal :=
  let s := s.atTime t
  let v := value.toNat
  .next (
    if !doorbellOpen s port || 64 ≤ ring then s
    else if width ≠ 4 || offset ≠ 0 then s.misuse t v 5 port ring
    else
      match tabGet ring s.req.rings with
      | none => s.misuse t v 3 port ring
      | some g =>
        let d := fun x => (x + two32 - g.consumed) % two32
        if ringSize g < d v then s.misuse t v 1 port ring
        else if d v < d g.tail then s.misuse t v 2 port ring
        else s.modRing ring (fun g => { g with tail := v, marks := if g.stopped || v = g.tail then g.marks else g.marks ++ [(v, t)] }))

/-- STREAM_CREDIT_DOORBELL: waits for the commit window that R41 selects, where it is judged against the request (R69, R341). -/
def execStreamCreditDoorbell (t port offset width : Nat) (value : BitVec 64) (s : State) : Host.Outcome State Fault Refusal :=
  let s := s.atTime t
  let v := value.toNat
  .next (
    if !doorbellOpen s port then s
    else if width ≠ 8 || offset ≠ 0x200000 then s.misuse t v 5 port (v % 1048576)
    else if bits v 31 20 ≠ 0 then s.misuse t v 6 port (v % 1048576)
    else s.arrive.onReq (fun u => { u with credits := u.credits ++ [(v % 1048576, v, t, port, s.host.arrivals)] }))

/-- One credit doorbell in its commit window: taken where it is valid, misuse where not, ignored for a FREE or CLOSING slot. -/
def State.takeCreditBell (s : State) (c : Nat × Nat × Nat × Nat × Nat) : State :=
  match s.req? c.1 with
  | none => s
  | some r =>
    if !reqLive r.state then s
    else
      let n := c.2.1 / two32
      let lo := (r.nextSeq + two32 - ringEntries r) % two32
      let d := fun x => (x + two32 - lo) % two32
      if d n ≤ ringEntries r && d r.creditCount ≤ d n then s.modReq c.1 (fun q => { q with creditCount := n })
      else s.misuse c.2.2.1 c.2.1 4 c.2.2.2.1 c.1

/-- The place of a credit doorbell. -/
def creditKey (s : State) (c : Nat × Nat × Nat × Nat × Nat) : EventKey := (s.stampOf c.2.2.1, c.2.2.2)

/-- The credit doorbells stamped before o_k that a test names are taken, in the order of R42 (R41). -/
def State.takeCreditsOf (s : State) (p : Nat × Nat × Nat × Nat × Nat → Bool) : State :=
  let due := s.req.credits.filter (fun c => decide (c.2.2.1 < s.tick.commitOpenAt) && p c)
  (inOrder (creditKey s) due).foldl State.takeCreditBell (s.onReq (fun u => { u with credits := u.credits.filter (fun c => !due.contains c) }))

/-- Every credit doorbell of the window. -/
def State.takeCredits (s : State) : State := s.takeCreditsOf (fun _ => true)

/-- Those of requests that no command of the window names; the others are taken among the commands, in the order of R42. -/
def State.takeFreeCredits (s : State) : State := s.takeCreditsOf (fun c => (dueCommands s c.1).isEmpty)

/-- RING_REGISTER: the ring is bound to the port its command arrived on (R56, R348, Table 16-3). -/
def execRingRegister (mb : Nat) (s : State) : Host.Outcome State Fault Refusal :=
  .next (runI s mb 0x30 (fun c s => do
    need (cf c 0 1 < 64 && inRange (cf c 1 1) 6 16) St.badArgument
    need (tabGet (cf c 0 1) s.req.rings).isNone St.busy
    need (cf c 8 8 % 4096 = 0 && cf c 16 8 % 8 = 0) St.badRing
    let g : Ring := { registered := true, addr := cf c 8 8, sizeLog2 := cf c 1 1, headAddr := cf c 16 8, consumed := cf c 4 4, tail := cf c 4 4, port := s.livePort c.port }
    .ok (s.onReq (fun u => { u with rings := tabPut (cf c 0 1) g u.rings }), [])))

/-- RING_RELEASE: a ring with nothing left in it, or a stopped one (Table 16-3). -/
def execRingRelease (mb : Nat) (s : State) : Host.Outcome State Fault Refusal :=
  .next (runT s mb 0x31 (fun c s => do
    need (cf c 0 1 < 64) St.badArgument
    match tabGet (cf c 0 1) s.req.rings with
    | none => .error St.notFound
    | some g =>
      need (g.stopped || g.tail = g.consumed) St.busy
      .ok (s.onReq (fun u => { u with rings := tabDel (cf c 0 1) u.rings }), [])))

/-! ## The descriptor (Table 3-2) -/

/-- Sampler parameters at an offset (Table 9-1). -/
def samplerAt (b : List Byte) (o : Nat) : SamplerParams :=
  let w := fun k => BitVec.ofNat 32 (field b (o + k) 4)
  { temperature := w 0, topP := w 4, minP := w 8, repPenalty := w 12, presence := w 16, topK := field b (o + 20) 2, nbias := field b (o + 22) 2
    promptSeen := bit (field b (o + 24) 1) 0, allowedEn := bit (field b (o + 24) 1) 1, numericRetry := bit (field b (o + 24) 1) 2
    nstop := field b (o + 25) 1 }

/-- Speculation policy at an offset (Table 10-1). -/
def specAt (b : List Byte) (o : Nat) : SpecPolicy :=
  { source := field b o 1, reject := bit (field b (o + 1) 1) 0, maxNodes := field b (o + 2) 1, maxDepth := field b (o + 3) 1
    matchN := field b (o + 4) 1, fanout := field b (o + 5) 1, draftLen := field b (o + 6) 2, draftAddr := field b (o + 8) 8 }

/-- Addresses of the stop table and of the bias entries. -/
def dStop (b : List Byte) : Nat := field b 136 8
def dBias (b : List Byte) : Nat := field b 144 8
/-- The slot a descriptor names. -/
def dSlot (b : List Byte) : Nat := field b 4 4 % 1048576

/-- Stop sequences of a table of n entries of 68 B (Table 9-3). -/
def stopsOf (n : Nat) (t : List Byte) : List (List Nat) :=
  (List.range n).map (fun i => (List.range (field t (68 * i) 1)).map (fun k => field t (68 * i + 4 + 4 * k) 4))

/-- Bias entries (Table 9-3). -/
def biasOf (n : Nat) (t : List Byte) : List (Nat × BitVec 32) :=
  (List.range n).map (fun i => (field t (8 * i) 4, BitVec.ofNat 32 (field t (8 * i + 4) 4)))

/-- The allowed-token bitmap after n bias entries, for a vocabulary (Table 9-3). -/
def bitmapOf (n vocab : Nat) (t : List Byte) : Nat := field t (8 * n) (ceilDiv vocab 64 * 8)

/-- The fields of a Request Table entry that a descriptor gives (Tables 3-1, 3-2). -/
def requestOf (b : List Byte) (d : DescRead) (vocab : Nat) : Request :=
  let fl := field b 2 2
  let al := field b 14 2
  let sp := samplerAt b 72
  { priority := field b 12 1 % 8, promptLen := field b 32 4, maxNew := field b 36 4, deadline := field b 16 8, tenant := field b 8 2, domain := field b 10 2
    flags := { recomputeOk := !bit fl 1, follow := bit fl 2, noShare := bit fl 3, logprob := bit fl 4, notify := bit fl 5, imported := bit fl 0 }
    modelSlot := field b 13 1 % 16, alloyEn := bit al 15, alloyId := al % 4096, promptAddr := field b 24 8, ringAddr := field b 40 8
    ringLog2 := field b 48 1, holdMs := if field b 52 4 = 0 then 60000 else field b 52 4, ttlS := if field b 56 4 = 0 then 1800 else field b 56 4
    seed := BitVec.ofNat 64 (field b 64 8), sampler := sp, endIds := (List.range 8).map (fun k => field b (104 + 4 * k) 4), spec := specAt b 152
    importHandle := field b 168 8, userTag := BitVec.ofNat 64 (field b 176 8), stops := stopsOf sp.nstop d.stop, bias := biasOf sp.nbias d.bias
    allowed := if sp.allowedEn then bitmapOf sp.nbias vocab d.bias else 0, prompt := d.prompt.take (field b 32 4)
    draftText := if field b 152 1 = 3 && !d.draftFail then d.draft.take (field b 158 2) else [] }

/-! ## The checks of Table 3-4 -/

/-- Check 2: every reserved bit is zero, and so is the completion field, which a recovery list's copy need not keep (R9, R377). -/
def descClean (b : List Byte) (recover : Bool) : Bool :=
  field b 2 2 / 64 = 0 && field b 4 4 / 1048576 = 0 && field b 12 1 / 8 = 0 && field b 13 1 / 16 = 0 && bits (field b 14 2) 14 12 = 0
    && allZero (slice b 49 3) && allZero (slice b 60 4) && field b 96 1 / 8 = 0 && allZero (slice b 98 6) && field b 153 1 / 2 = 0
    && allZero (slice b 184 64) && (recover || allZero (slice b 248 8))

/-- The domain is enabled and open to the tenant (R273, Table 11-10). -/
def domainOpen (s : State) (dom tenant : Nat) : Bool :=
  dom = 0 ||
    let d := s.domain dom
    d.enabled && (d.owner = tenant || (d.org ≠ 0 && (s.tenant tenant).org = d.org))

/-- The current generation of an Alloy in a model slot: its newest RESIDENT one that is not RETIRING (R297). -/
def currentGen (s : State) (id slot : Nat) : Option AlloyGen :=
  (s.models.gens.filter (fun g => g.id = id && g.modelSlot = slot && g.state = .resident)).foldl
    (fun b g => match b with | none => some g | some a => if a.order < g.order then some g else some a) none

/-- The place of an FP32 value that is not NaN in numeric order, subnormals kept: a field is compared with the FP32 value of a bound
(R219). -/
def fpPlace (x : U32) : Int := if bit x.toNat 31 then -Int.ofNat (bits x.toNat 30 0) else Int.ofNat (bits x.toNat 30 0)

/-- An FP32 field lies in a range, bounds included. -/
def fpIn (x lo hi : U32) : Bool := !fpIsNaN x && decide (fpPlace lo ≤ fpPlace x) && decide (fpPlace x ≤ fpPlace hi)

/-- Sampler parameters in their ranges (Table 9-1). -/
def samplerOk (p : SamplerParams) : Bool :=
  (fpIn p.temperature 0 0 || fpIn p.temperature 0x3C23D70A 0x41800000) && fpIn p.topP 1 fpOne && fpIn p.minP 0 0x3F7FFFFF
    && fpIn p.repPenalty fpOne 0x41000000 && fpIn p.presence 0xC0800000 0x40800000 && p.topK ≤ 256 && p.nbias ≤ 64 && p.nstop ≤ 8

/-- A stop entry has a length of 1 to 16, and zeros in its reserved and unused bytes (Table 9-3). -/
def stopEntryOk (t : List Byte) (i : Nat) : Bool :=
  let n := field t (68 * i) 1
  inRange n 1 16 && allZero (slice t (68 * i + 1) 3) && allZero (slice t (68 * i + 4 + 4 * n) (64 - 4 * n))

/-- R220 and Table 9-3: the buffers go with their addresses, ids lie in the vocabulary, biases are finite and bounded, no bias id
is named twice, and the bitmap names tokens of the vocabulary alone, at least one. -/
def buffersOk (b : List Byte) (d : DescRead) (r : Request) (vocab : Nat) : Bool :=
  let p := r.sampler
  decide ((dStop b ≠ 0) = (p.nstop ≠ 0)) && decide ((dBias b ≠ 0) = (p.nbias ≠ 0 ∨ p.allowedEn = true))
    && r.endIds.all (fun i => i = 0xFFFFFFFF || i < vocab) && (List.range p.nstop).all (stopEntryOk d.stop) && r.stops.all (fun l => l.all (· < vocab))
    && r.bias.all (fun e => e.1 < vocab && fpFinite e.2 && fpLe (fpAbs e.2) 0x47800000) && decide ((r.bias.map (·.1)).Nodup)
    && (!p.allowedEn || (r.allowed ≠ 0 && r.allowed < 2 ^ vocab))

/-- The speculation policy keeps Table 10-1 and R240. -/
def policyOk (p : SpecPolicy) (draft : Bool) : Bool :=
  if p.source = 0 then
    !p.reject && p.maxNodes = 0 && p.maxDepth = 0 && p.matchN = 0 && p.fanout = 0 && p.draftLen = 0 && p.draftAddr = 0
  else
    p.source ≤ 3 && inRange p.maxNodes 2 64 && inRange p.maxDepth 2 16 && p.maxDepth ≤ p.maxNodes
      && (if p.source = 2 then p.matchN = 0 && inRange p.fanout 1 3 && draft else inRange p.matchN 1 8 && p.fanout = 0 && !p.reject)
      && (if p.source = 3 then inRange p.draftLen 1 4096 && p.draftAddr % 4 = 0 else p.draftLen = 0 && p.draftAddr = 0)

/-- Check 13. -/
def argumentsOk (b : List Byte) (d : DescRead) (r : Request) (i : ModelInfo) : Bool :=
  samplerOk r.sampler && buffersOk b d r i.vocab && policyOk r.spec i.draft && field b 52 4 ≤ 3600000 && field b 56 4 ≤ 86400
    && (r.flags.imported || r.importHandle = 0)

/-- Check 11: alignment, and the reads that admission makes (R62, R344). -/
def addressesOk (b : List Byte) (d : DescRead) (r : Request) : Bool :=
  r.promptAddr % 4 = 0 && dStop b % 4 = 0 && dBias b % 4 = 0 && !(d.bufFail && (dStop b ≠ 0 || dBias b ≠ 0))
    && !(d.promptFail && r.domain ≠ 0 && !r.flags.noShare) && !d.ringRefused

/-- An open shipment that nobody claims. -/
def importKnown (s : State) (h : Nat) : Bool := match s.ship? h with | none => false | some x => !x.outgoing && x.slot.isNone

/-- The status of the first check of Table 3-4 that fails, OK where none does; a recovery skips checks 3 and 12
(R61, R378). -/
def admitCheck (s : State) (b : List Byte) (d : DescRead) (r : Request) (recover : Bool) : Nat :=
  let t := s.tenant r.tenant
  let m := s.mslot r.modelSlot
  if field b 0 1 ≠ 1 || field b 1 1 ≠ 1 then St.badOpcode
  else if !descClean b recover then St.badReserved
  else if !recover && s.reqState (dSlot b) ≠ .free then St.slotBusy
  else if !t.enabled then St.badTenant
  else if !domainOpen s r.domain r.tenant then St.badDomain
  else if t.maxClass < r.priority then St.notPermitted
  else if m.state ≠ .resident then St.modelNotResident
  else if r.alloyEn && !hasAlloy s.variant then St.unsupportedUnit
  else if r.alloyEn && (currentGen s r.alloyId r.modelSlot).isNone then St.alloyUnknown
  else if !inRange r.promptLen 1 2097151 || r.maxNew = 0 || 2097152 < r.promptLen + r.maxNew then St.badLength
  else if !inRange r.ringLog2 6 16 || r.ringAddr % 64 ≠ 0 then St.badRing
  else if !addressesOk b d r then St.badAddress
  else if !recover && r.deadline ≠ 0 && r.deadline < s.nextEdge + nextTickNs s then St.deadlinePassed
  else if !argumentsOk b d r m.info then St.badArgument
  else if r.flags.imported && !importKnown s r.importHandle then St.importUnknown
  else St.ok

/-! ## Admission (R62, R271) -/

/-- Carried scales at admission: kinds 1 and 3 on every cluster, kinds 0, 2 and 4 on CL0 (R185). -/
def initScales (i : ModelInfo) : List CarriedScale :=
  i.tslots.zipIdx.flatMap (fun p =>
    if !p.1.carried then []
    else
      (if p.2 % 8 = 1 || p.2 % 8 = 3 then List.range 16 else if p.2 % 8 ≤ 4 then [0] else []).map (fun c =>
        { tslot := p.2, cluster := c, mant := p.1.initMant, exp := p.1.initExp }))

/-- A request that asks for tree speculation of a device without the mask unit is served under R5 (R240). -/
def specShort (v : Variant) (p : SpecPolicy) : Bool :=
  !hasMask v && p.source ≠ 0 && (p.maxDepth < p.maxNodes || 8 < p.maxDepth || 1 < p.fanout)

/-- The home stack of a slot: slot mod 16, or the next healthy stack (R271). -/
def homeStack (s : State) (slot : Nat) : Nat :=
  (((upFrom (slot % 16) 16).map (· % 16)).find? (fun c => !s.faults.clFailed.contains c)).getD 0

/-- Objects on the home stack: page list, auxiliary block, draft block (Table 11-9). -/
def homeWants (r : Request) : List Want :=
  let d := draftGranules (r.promptLen + r.maxNew) r.spec.source
  [{ rows := listGranules (r.promptLen + r.maxNew) r.spec.source }, { rows := 25 }] ++ if d = 0 then [] else [{ rows := d }]

/-- Places the home objects of a request. -/
def placeHome (s : State) (r : Request) (home : Nat) : Option Request :=
  (placeOn s [] home 0 (homeWants r)).map (fun l =>
    let at' := fun k => match l[k]? with | none => 0 | some g => granAddr home g 0
    { r with objects := (l.zip (homeWants r)).map (fun x => (home, x.1, x.2.rows)), pageRoot := at' 0, auxRoot := at' 1, draftRoot := at' 2 })

/-- Layers of a model on a cluster, each with the rows of one page frame. -/
def provLayers (i : ModelInfo) (c : Nat) : List (Nat × Nat) := (clusterLayers i c).map (fun p => (p.1, pageRows i p.1 p.2))

/-- Places a request's objects of one cluster: its carried-estimate record and its provisional frames. -/
def placeShare (s : State) (i : ModelInfo) (c : Nat) (r : Request) : Option Request :=
  let stack := nth s.faults.clmap c c
  let est := if estGranules i c = 0 then [] else [estGranules i c]
  let pv := if 1 < r.spec.maxNodes then provLayers i c else []
  let dv := if r.spec.source = 2 && 1 < r.spec.maxNodes then provLayers (draftView i) c else []
  let frames := fun (vs : List (Nat × Nat)) (l : List Nat) =>
    (vs.zip l).map (fun x => ({ cluster := c, layer := x.1.1, stack := stack, granule := x.2, rows := x.1.2 } : ProvFrame))
  let sizes := est ++ pv.map (·.2) ++ dv.map (·.2)
  if sizes.isEmpty then some r
  else
    (placeOn s (requestSpans r) stack (c + 1) (sizes.map (fun n => { rows := n }))).map (fun l =>
      { r with objects := r.objects ++ (est.zip l).map (fun x => (stack, x.2, x.1)), prov := r.prov ++ frames pv (l.drop est.length)
               draftProv := r.draftProv ++ frames dv (l.drop (est.length + pv.length)) })

/-- A request with a place for each of its objects (R262, Table 11-9), where each has one. -/
def placeObjects (s : State) (i : ModelInfo) (slot : Nat) (r : Request) : Option Request :=
  (List.range 16).foldl (fun (q : Option Request) c => q.bind (placeShare s i c))
    (placeHome s { r with objects := [], prov := [], draftProv := [] } (homeStack s slot))

/-- Allocates the objects of Table 11-9 for a request in a model slot: granted under R280 and placed, the provisional frames with their
sidecars; the status says why where none is allocated. -/
def State.allocObjects (s : State) (slot : Nat) (r : Request) : State × Except Nat Request :=
  let i := (s.mslot r.modelSlot).info
  let n := objectGranules i r.promptLen r.maxNew r.spec.source r.spec.maxNodes
  let q := s.grant1 r.tenant n true
  if q.2 ≠ St.ok then (q.1, .error q.2)
  else
    match placeObjects s i slot r with
    | none => (s.refuse, .error St.noSpace)
    | some p =>
      ((q.1.draw).onMem (fun m => writeProvs (draftView i) p.draftProv slot r.domain (writeProvs i p.prov slot r.domain m)), .ok { p with granules := n })

/-- Grants the objects of Table 11-9 and matches the context; the entry is written with what admission fixes. The status is that
of a refused allocation, and nothing then remains. -/
def State.admitReq (s : State) (slot port : Nat) (r : Request) (ctx : List Nat) : State × Nat :=
  let q := s.allocObjects slot r
  match q.2 with
  | .error st => (q.1, st)
  | .ok r =>
    let i := (s.mslot r.modelSlot).info
    let r := { r with alloyGen := if r.alloyEn then ((currentGen s r.alloyId r.modelSlot).map (·.gen)).getD 0 else 0 }
    let es := admissionMatch q.1 r ctx
    let s := (q.1.usePipe (digestsFormed q.1 r ctx.length es.length)).takeMatches (slot + 1) es
    let r := { r with
      state := .admitted, port := port, committedLen := 128 * es.length, scales := initScales i, maxima := initMaxima i
      pages := es.map (fun e => { handle := e.handle, weak := false, incarnation := e.incarnation })
      seen := if r.sampler.promptSeen then seenSeed r.prompt else [], admitTick := s.tick.index, commitTick := s.tick.index
      flags := { r.flags with specDegraded := specShort s.variant r.spec }, spec := { r.spec with draftAddr := 0 } }
    (s.setReq slot r, St.ok)

/-- What stands at the front of a ring is visible in this window: its doorbell is stamped before o_k (R43, R57). -/
def ringReady (s : State) (g : Ring) : Bool :=
  g.registered && !g.stopped && s.portUp g.port && match g.marks with | [] => false | m :: _ => decide (m.2 < s.tick.commitOpenAt)

/-- No command of this window that changes a model slot is still to act: a slot's change of state comes before the descriptors (R289). -/
def slotsSettled (s : State) : Bool := !s.sceolUp || s.mb.outstanding.all (fun c => !(s.taken c.stamp && c.phase = 0 && c.opcode = 0x71))

/-- The device takes recovery entries: a commit window, in whatever state ticks run, with room for one more, a port up, and room in the log
(R43, R350, R374, R377, R400, Table 18-1). -/
def takingOpen (s : State) : Bool :=
  s.tick.inCommit && 8 ≤ pairsHealthy s && !s.faults.orphan && !s.noPort && s.req.taken < 4096 && logRoom s 2 && slotsSettled s

/-- It takes descriptors too: in SERVING or DEGRADED (Table 18-1), and not below 12 healthy pairs (Table 17-7). -/
def admissionOpen (s : State) : Bool :=
  takingOpen s && (s.start.state = .serving || s.start.state = .degraded) && 12 ≤ pairsHealthy s

/-- One descriptor is consumed from a ring. -/
def State.consume (s : State) (n : Nat) : State :=
  (s.modRing n (fun g =>
    let c := (g.consumed + 1) % two32
    { g with consumed := c, headDue := true, marks := g.marks.filter (fun m => m.1 ≠ c) })).onReq (fun u => { u with taken := u.taken + 1, begun := true, turn := (n + 1) % 64 })

/-- The bytes of a completion field (R60). -/
def completionField (s : State) (status : Nat) : List Byte := leBytes 2 status ++ [0, 0] ++ leBytes 4 (s.tick.index % two32)

/-- The host buffers that a descriptor names are read at admission: its stop table, its bias entries with the bitmap, and its prompt
(R344). -/
def State.readBuffers (s : State) (port : Nat) (b : List Byte) (d : DescRead) : State :=
  let read := fun (t : State) (a : Nat) (n : Nat) => if a = 0 then t else t.hostRead port a n
  read (read (read s (field b 136 8) d.stop.length) (field b 144 8) d.bias.length) (field b 24 8) (4 * d.prompt.length)

/-- An admitted request leaves ADMITTED: its entry of sequence number 0 is written, and it goes to IMPORTING or PREFILLING
(Table 3-5). The import time-out of R73 runs from the Invar of this admission (DESIGN CHOICE, log 19). -/
def State.startRequest (s : State) (slot : Nat) : State :=
  match s.req? slot with
  | none => s
  | some r =>
    let s := s.writeStream slot r.committedLen 0x4000 0
    if r.flags.imported then
      (s.modReq slot (fun q => { q with state := .importing, importFrom := s.now })).claimShip slot r.importHandle (r.committedLen / 128) ((r.promptLen - 1) / 128)
    else s.modReq slot (fun q => { q with state := .prefilling })

/-- The ring that gives the next descriptor: the first from the turn on, in cyclic order, with one to give (R43). -/
def nextRing (s : State) : Option Nat := ((upFrom s.req.turn 64).map (· % 64)).find? (fun n => ringReady s (s.ring n))

/-- SUBMIT: the device takes the descriptor at the front of the ring whose turn it is, and admits or refuses it (R43, R60 to R62). -/
def execSubmit (ring : Nat) (d : DescRead) (s : State) : Host.Outcome State Fault Refusal :=
  let g := s.ring ring
  .next (
    if !admissionOpen s || nextRing s ≠ some ring then s
    else
      let place := g.addr + g.consumed % ringSize g * 256 + 248
      let s := ((s.consume ring).closeTransit .host ring).hostRead g.port (place - 248) 256
      let b := slice d.bytes 0 256
      let done := fun (t : State) (st : Nat) => if d.complFail then t.stopRing ring else t.hostWrite g.port place 0 (completionField t st)
      if d.descFail then done s St.badAddress
      else
        let r := requestOf b d (s.mslot (field b 13 1 % 16)).info.vocab
        let st := admitCheck s b d r false
        let s := s.readBuffers g.port b d
        if st ≠ St.ok then done s st
        else
          let q := s.admitReq (dSlot b) g.port r r.prompt
          if q.2 ≠ St.ok then done q.1 q.2 else done (q.1.startRequest (dSlot b)) St.ok)

/-! ## RECOVER (R377 to R379) -/

/-- RECOVER: starts a recovery of a list of 1 to 65,536 entries. -/
def execRecover (mb : Nat) (s : State) : Host.Outcome State Fault Refusal :=
  .next (runL s mb 0x46 (fun c s => do
    need (inRange (cf c 0 4) 1 65536) St.badArgument
    .ok (s.setCmd { c with phase := 1, aux := 0 })))

/-- Progress of a RECOVER: the entries taken, and those rebuilt. -/
def recTaken (aux : Nat) : Nat := aux % 131072
def recBuilt (aux : Nat) : Nat := aux / 131072

/-- The status of a recovery entry: reserved bytes, the checks of Table 3-4 but 3 and 12, the slot, the length (R378). -/
def recoverCheck (s : State) (e : List Byte) (rr : RecoverRead) (r : Request) : Nat :=
  let b := slice rr.desc.bytes 0 256
  let last := field e 8 4
  if !allZero (slice e 24 40) then St.badReserved
  else if rr.desc.descFail then St.badAddress
  else if admitCheck s b rr.desc r true ≠ St.ok then admitCheck s b rr.desc r true
  else if s.reqState (dSlot b) ≠ .free then St.slotBusy
  else if 2097152 < last + r.promptLen then St.badLength
  else if rr.tokens.length < last then St.badAddress
  else St.ok

/-- A recovered request: its recovery context, its pending token and its seen-set (R378, R379). -/
def recoveredOf (r : Request) (e : List Byte) (tokens : List Nat) : Request :=
  let last := field e 8 4
  let toks := tokens.take last
  { r with
    generated := toks, newCount := last, nextSeq := (last + 1) % two32, creditCount := field e 12 4, stopFloor := last, recovered := true
    recoverLen := if last = 0 then 0 else r.promptLen + last - 1, importHandle := 0, flags := { r.flags with imported := false, retried := false } }

/-- A RECOVER entry is judged and, where every check holds, its request is rebuilt: the state and the entry's status. -/
def recoverOne (s : State) (c : MbCommand) (r : RecoverRead) : State × Nat :=
  let e := slice r.entry 0 64
  let b := slice r.desc.bytes 0 256
  let q := requestOf b r.desc (s.mslot (field b 13 1 % 16)).info.vocab
  let st := recoverCheck s e r q
  if st ≠ St.ok then (s, st)
  else
    let v := recoveredOf q e r.tokens
    let port := s.livePort c.port
    let a := ((s.readBuffers port b r.desc).hostRead port (field e 16 8) (4 * field e 8 4)).admitReq (dSlot b) port v (v.prompt ++ v.generated.take (v.generated.length - 1))
    if a.2 ≠ St.ok then a
    else
      let t := a.1.modReq (dSlot b) (fun x => { x with
        state := if x.recoverLen ≠ 0 && x.committedLen = x.recoverLen then .decoding else .prefilling
        seen := (x.generated.take (x.generated.length - 1)).foldl (fun l k => seenInsert k l) x.seen })
      (if q.deadline ≠ 0 && q.deadline < t.nextEdge then t.closeReq (dSlot b) St.deadline 0 else t, St.ok)

/-- RECOVER_ENTRY: the next entry of a recovery list is taken: its request is rebuilt, or it is skipped; bytes 24 to 33 of the entry
are written, and after the last the command completes with the number rebuilt. -/
def execRecoverEntry (mb : Nat) (r : RecoverRead) (s : State) : Host.Outcome State Fault Refusal :=
  .next (
    match s.cmdAt mb [0x46] with
    | none => s
    | some c =>
      if c.phase ≠ 1 || !takingOpen s || !s.sceolUp || r.index ≠ recTaken c.aux then s
      else
        let res := recoverOne ((s.onReq (fun u => { u with taken := u.taken + 1 })).hostRead c.port (field c.payload 8 8 + 64 * r.index) 64) c r
        let t := res.1.hostWrite (s.livePort c.port) (field c.payload 8 8 + 64 * r.index + 24) 0
          (leBytes 8 (if res.2 = St.ok then s.tick.index else 0) ++ leBytes 2 res.2)
        let aux := c.aux + 1 + (if res.2 = St.ok then 131072 else 0)
        if recTaken aux = cf c 0 4 then t.complete c St.ok (leBytes 4 (recBuilt aux)) else t.setCmd { c with aux := aux })

end Sys2Proof.Machine
end

