-- ==== Sys2Proof/Machine/Migration.lean ====
section
/-! DEFINITION. Migration (R381, R382, Table 17-2) on both sides, the messages it takes (MGMT, R318), and the end of a shipment
(R335). Progress of a migration this device sends: 0 accepted, 1 PREPARE sent, 2 shipment verified, 3 voted, 8 failed.
Readings of the spec: log 16. -/

namespace Sys2Proof.Machine

open Sys2Proof

/-- Sends a Sceol-to-Sceol message. -/
def State.sendMgmt (s : State) (dst : Nat) (m : MgmtMsg) : State := s.onGelcon (fun g => { g with mgmtOut := g.mgmtOut ++ [(dst, m)] })

/-- The REQ_MIGRATE of a slot. -/
def migrateCmd (s : State) (slot : Nat) : Option MbCommand :=
  s.mb.outstanding.find? (fun c => c.opcode = 0x45 && c.phase = 1 && cf c 0 4 = slot)

/-- Sets the progress of a migration. -/
def State.setMigration (s : State) (slot step : Nat) : State :=
  s.onGelcon (fun g => { g with migrations := g.migrations.map (fun m => if m.1 = slot then (m.1, m.2.1, step) else m) })

/-- A migration ends: REQ_MIGRATE completes, with the destination's identity where it went through; where it did not, the request is
planned again and the destination is told to free what it holds. -/
def State.endMigration (s : State) (slot status : Nat) : State :=
  match s.gelcon.migrations.find? (fun m => m.1 = slot) with
  | none => s
  | some m =>
    let s := match migrateCmd s slot with
      | none => s
      | some c => s.complete c status (if status = St.ok then leBytes 4 m.2.1 else [])
    let s := (s.modReq slot (fun r => { r with migrating := false })).onGelcon (fun g => { g with
      migrations := g.migrations.filter (fun x => x.1 ≠ slot)
      ships := g.ships.filter (fun x => !(x.outgoing && x.slot = some slot)) })
    if status ≠ St.ok && m.2.2 ≠ 0 then s.sendMgmt m.2.1 (.verified slot false) else s

/-- A state in which a request may be migrated. -/
def mayMigrate (r : Request) : Bool := r.state = .prefilling || r.state = .decoding || r.state = .paused

/-- Step 1 of Table 17-2, once the window has settled the request: the shipment of every block below committed_len is opened on TC3
and PREPARE is sent. -/
def State.startMigration (s : State) (slot dst : Nat) : State :=
  match s.req? slot with
  | none => s.endMigration slot St.reqClosed
  | some r =>
    if !reqLive r.state then s.endMigration slot St.reqClosed
    else if !mayMigrate r then s.endMigration slot St.badState
    else
      let i := (s.mslot r.modelSlot).info
      let n := ceilDiv r.committedLen 128
      let h := if n = 0 then 0 else identityOf s * 2 ^ 55 + s.gelcon.nextTag + 1
      let x : Shipment := { handle := h, modelFp := i.fp, cfmt := (nth i.cacheFmts 0 {}).fmt, blocks := n, openedAt := s.now, slot := some slot
                            outgoing := true, tc := 3, dest := dst }
      let s := if n = 0 then s else
        (s.onGelcon (fun g => { g with ships := g.ships ++ [x] })).sendMsg dst 0x20 3 0 h true
          (leBytes 8 h ++ leBytes 32 i.fp.toNat ++ leBytes 1 x.cfmt ++ leBytes 3 0 ++ leBytes 4 n ++ leBytes 16 0)
      (s.sendMgmt dst (.prepare slot { r with importHandle := h } i.fp.toNat (alloyFpOf s r.alloyEn r.alloyId r.alloyGen))).setMigration slot 1

/-! ## The destination (Table 17-2, step 2) -/

/-- A RESIDENT slot that holds the model of a fingerprint. -/
def slotOfModel (s : State) (fp : Nat) : Option Nat :=
  (List.range 16).find? (fun n => (s.mslot n).state = .resident && (s.mslot n).info.fp.toNat = fp)

/-- The status of the checks of step 2, but for its allocations. -/
def prepareCheck (s : State) (slot : Nat) (r : Request) (mfp afp : Nat) : Nat :=
  if s.reqState slot ≠ .free then St.slotBusy
  else if !(s.tenant r.tenant).enabled then St.badTenant
  else if !domainOpen s r.domain r.tenant then St.badDomain
  else
    match slotOfModel s mfp with
    | none => St.modelNotResident
    | some m =>
      if r.alloyEn && !s.models.gens.any (fun g => g.id = r.alloyId && g.gen = r.alloyGen && g.modelSlot = m && g.state = .resident && g.fp.toNat = afp)
      then St.alloyUnknown
      else if r.committedLen ≠ 0 && !importKnown s r.importHandle then St.importUnknown
      else St.ok

/-- What this device holds for a request it is being sent is freed, and its shipment ended. -/
def State.dropIncoming (s : State) (slot : Nat) : State :=
  if s.gelcon.incoming.any (fun x => x.1 = slot) then
    let s := (s.gelcon.ships.filter (fun x => !x.outgoing && x.slot = some slot)).foldl
      (fun t x => (t.dropShip x.handle).sendEnd (shipSender x.handle) x.handle x.tc 5) s
    let s := s.onGelcon (fun g => { g with incoming := g.incoming.filter (fun x => x.1 ≠ slot) })
    match s.req? slot with
    | none => s
    | some r => (s.dropRequestRefs slot r).onReq (fun u => { u with table := tabDel slot u.table })
  else s

/-- PREPARE at the destination: the checks, the allocations, the matched blocks, and the claim of the shipment for the rest; the
status is sent back. -/
def State.takePrepare (s : State) (src slot : Nat) (r : Request) (mfp afp : Nat) : State :=
  let reply := fun (t : State) (st : Nat) => t.sendMgmt src (.reply slot st)
  let st := prepareCheck s slot r mfp afp
  if st ≠ St.ok then reply s st
  else
    let m := (slotOfModel s mfp).getD 0
    let i := (s.mslot m).info
    let a := s.allocObjects slot { r with modelSlot := m }
    match a.2 with
    | .error st => reply a.1 st
    | .ok p =>
      let blocks := ceilDiv r.committedLen 128
      let q : Request := { p with state := .importing, migrating := true, draftPages := [], importFrom := s.now
                                  importFailed := false, port := if s.portUp r.port then r.port else (s.lowPort).getD r.port
                                  shards := [src, identityOf s]
                                  flags := { r.flags with specDegraded := r.flags.specDegraded || specShort s.variant r.spec } }
      let es := admissionMatch a.1 q ((contextTokens q).take (q.committedLen + 1))
      let s := a.1.takeMatches (slot + 1) es
      let q := { q with pages := es.map (fun e => { handle := e.handle, weak := false, incarnation := e.incarnation }) }
      let s := (s.setReq slot q).onGelcon (fun g => { g with incoming := g.incoming ++ [(slot, src, r)] })
      if blocks = 0 then reply s St.ok
      else
        let s := s.claimShip slot r.importHandle es.length blocks
        match s.ship? r.importHandle with
        | none => reply (s.dropIncoming slot) St.importUnknown
        | some x => if x.grantEnd = blocks * blockBytes i then reply s St.ok else reply (s.dropIncoming slot) St.noSpace

/-- Every block of a request being received is in place and verified. -/
def incomingReady (s : State) (slot : Nat) : Bool :=
  !s.gelcon.ships.any (fun x => !x.outgoing && x.slot = some slot) && match s.req? slot with | none => false | some r => arriving r && !r.importFailed

/-- The destination owns the request from the next edge, in the state the source left it in (Table 17-2, step 4). -/
def State.ownIncoming (s : State) (slot : Nat) : State :=
  match s.gelcon.incoming.find? (fun x => x.1 = slot) with
  | none => s
  | some x =>
    (s.modReq slot (fun q => { q with state := x.2.2.state, priorState := x.2.2.priorState, migrating := false, shards := [], importHandle := 0 })).onGelcon
      (fun g => { g with incoming := g.incoming.filter (fun y => y.1 ≠ slot) })

/-! ## Messages and shipment ends -/

/-- The result of a shipment this device sent: verified, or the migration has failed. -/
def State.shipResult (s : State) (slot result : Nat) : State :=
  match s.gelcon.migrations.find? (fun m => m.1 = slot) with
  | none => s
  | some m => if m.2.2 = 1 then s.setMigration slot (if result = 0 then 2 else 8) else s

/-- A message on a migration acts in its commit window. -/
def State.takeMgmt (s : State) (src : Nat) (m : MgmtMsg) : State :=
  match m with
  | .prepare slot r mfp afp => s.takePrepare src slot r mfp afp
  | .reply slot st =>
    if !s.gelcon.migrations.any (fun x => x.1 = slot && x.2.1 = src) then s
    else if st ≠ St.ok then s.endMigration slot st
    else if s.gelcon.ships.any (fun x => x.outgoing && x.slot = some slot) then s
    else s.shipResult slot 0
  | .verified slot ok =>
    if s.gelcon.incoming.any (fun x => x.1 = slot && x.2.1 = src) then if ok then s else s.dropIncoming slot
    else if s.gelcon.migrations.any (fun x => x.1 = slot && x.2.1 = src) then s.shipResult slot (b2n (!ok))
    else s
  | .portStates _ _ => s
  | .other _ => s

/-- The request slot that a message on a migration under way concerns. -/
def mgmtSlot : MgmtMsg → Option Nat
  | .reply slot _ => some slot
  | .verified slot _ => some slot
  | _ => none

/-- The messages stamped before o_k that a test names act in the order of R42: by stamp, equal ones by link port. -/
def State.takeMgmts (s : State) (p : Nat × Nat × Nat × MgmtMsg → Bool) : State :=
  let due := s.gelcon.mgmtIn.filter (fun x => x.1 < s.tick.commitOpenAt && p x)
  (inOrder (fun (x : Nat × Nat × Nat × MgmtMsg) => (s.stampOf x.1, x.2.1, 0)) due).foldl (fun t x => t.takeMgmt x.2.2.1 x.2.2.2)
    (s.onGelcon (fun g => { g with mgmtIn := g.mgmtIn.filter (fun x => !(x.1 < s.tick.commitOpenAt && p x)) }))

/-- A message that opens a migration here. -/
def isPrepare : MgmtMsg → Bool
  | .prepare _ _ _ _ => true
  | _ => false

/-- A shipment received for a migration is verified: its end is sent. One that failed frees what it holds. -/
def State.checkIncoming (s : State) : State :=
  s.gelcon.incoming.foldl (fun t x =>
    match t.req? x.1 with
    | none => t.dropIncoming x.1
    | some r =>
      if r.importFailed then t.dropIncoming x.1
      else
        match t.gelcon.ships.find? (fun y => !y.outgoing && y.slot = some x.1) with
        | none => t
        | some y => if y.verified && y.verifiedAt < t.tick.commitOpenAt then (t.dropShip y.handle).sendEnd (shipSender y.handle) y.handle y.tc 0 else t) s

/-- MGMT: a Sceol-to-Sceol message. Port states enter this device's view at once (R324); a message on a migration waits for the
commit window that R41 selects. -/
def execMgmt (t : Nat) (a : Arrival) (msg : MgmtMsg) (s : State) : Host.Outcome State Fault Refusal :=
  .next ((s.atTime t).receive a.port a.pkt 0x30 (fun s =>
    match msg with
    | .portStates m l =>
      s.onGelcon (fun g => { g with view := g.view.filter (fun v => v.1 ≠ m) ++ l.map (fun x => (m, x.1, x.2)) })
    | m => s.onGelcon (fun g => { g with mgmtIn := g.mgmtIn ++ [(s.now, a.port, a.pkt.src, m)] })))

/-- SHIP_END: a shipment this device receives fails its import; one it sent has been verified, or has failed, for the migration it
belongs to (R335, R381). -/
def execShipEnd (t port : Nat) (p : Packet) (s : State) : Host.Outcome State Fault Refusal :=
  .next ((s.atTime t).receive port p 0x24 (fun s =>
    let h := field p.payload 0 8
    match s.ship? h with
    | none => s.badPacket port 9 p
    | some x =>
      let s := s.dropShip h
      match x.slot with
      | none => s
      | some n => if x.outgoing then s.shipResult n (field p.payload 8 1) else s.failImport n))

end Sys2Proof.Machine
end

