-- ==== Sys2Proof/Machine/Group.lean ====
section
/-! DEFINITION. The group's share of a tick: VOTE, COMMIT_SET and SHARD_PLAN payloads (Tables 2-4, 4-2), what a shard votes (R49), how
COMMIT_SET is formed and applied (R49, R50), SYNC and alignment (R47), the tick master (R48, R51), and GROUP_CONFIG.
Readings of the spec: logs 14, 15. -/

namespace Sys2Proof.Machine

open Sys2Proof

/-! ## Payloads -/

/-- Identity of a member of this device's group. -/
def memberIdent (s : State) (m : Nat) : Nat := s.tick.group % 32 * 16 + m % 16

/-- An entry of VOTE and COMMIT_SET: home identity, slot, on time or commit, tokens, chunk tokens. -/
abbrev VoteEntry := Nat × Nat × Bool × Nat × Nat

/-- The payload of VOTE and COMMIT_SET (Table 2-4). -/
def voteBytes (tick sender : Nat) (l : List VoteEntry) : List Byte :=
  leBytes 8 tick ++ leBytes 2 sender ++ leBytes 2 l.length ++ leBytes 4 0
    ++ l.flatMap (fun e => leBytes 4 (e.1 * 2 ^ 20 + e.2.1) ++ leBytes 1 (b2n e.2.2.1) ++ leBytes 1 e.2.2.2.1 ++ leBytes 2 e.2.2.2.2)

/-- The entries of a payload. -/
def voteEntries (b : List Byte) : List VoteEntry :=
  (List.range (field b 10 2)).map (fun n =>
    let h := field b (16 + 8 * n) 4
    (bits h 28 20, h % 2 ^ 20, field b (20 + 8 * n) 1 = 1, field b (21 + 8 * n) 1, field b (22 + 8 * n) 2))

/-- The header of Tables 2-4 and 4-2 with its reserved fields zero, no more than 4,096 entries, all of them there. -/
def groupHeaderOk (b : List Byte) : Bool :=
  field b 8 2 < 512 && field b 10 2 ≤ 4096 && field b 12 4 = 0 && 16 + 8 * field b 10 2 ≤ b.length
    && (List.range (field b 10 2)).all (fun n => field b (16 + 8 * n) 4 < 2 ^ 29)

/-- A payload that is not discarded for its fields. -/
def voteOk (b : List Byte) : Bool :=
  groupHeaderOk b && (List.range (field b 10 2)).all (fun n =>
    let v := field b (20 + 8 * n) 1
    let k := field b (21 + 8 * n) 1
    let c := field b (22 + 8 * n) 2
    v ≤ 1 && k ≤ 16 && (c = 0 || k ≤ 1) && c ≤ 32768)

/-- The payload of SHARD_PLAN (Table 4-2): entries (home, slot, nodes, chunk). -/
def shardPlanBytes (tick sender : Nat) (l : List (Nat × Nat × Nat × Nat)) : List Byte :=
  leBytes 8 tick ++ leBytes 2 sender ++ leBytes 2 l.length ++ leBytes 4 0
    ++ l.flatMap (fun e => leBytes 4 (e.1 * 2 ^ 20 + e.2.1) ++ leBytes 1 e.2.2.1 ++ leBytes 1 0 ++ leBytes 2 e.2.2.2)

/-- The entries of a SHARD_PLAN. -/
def shardEntries (b : List Byte) : List (Nat × Nat × Nat × Nat) :=
  (List.range (field b 10 2)).map (fun n =>
    let h := field b (16 + 8 * n) 4
    (bits h 28 20, h % 2 ^ 20, field b (20 + 8 * n) 1, field b (22 + 8 * n) 2))

/-- A SHARD_PLAN that is not discarded for its fields. -/
def shardPlanOk (b : List Byte) : Bool :=
  groupHeaderOk b && (List.range (field b 10 2)).all (fun n =>
    let k := field b (20 + 8 * n) 1
    let c := field b (22 + 8 * n) 2
    k ≤ 64 && c ≤ 32768 && field b (21 + 8 * n) 1 = 0 && decide ((k = 0) ≠ (c = 0)))

/-! ## Members -/

/-- Members this device reaches in its group: those it hears and those its local ports lead to. -/
def groupPeers (s : State) : List Nat :=
  let heard := s.tick.syncRuns.map (·.1)
  let near := (s.gelcon.ports.filter (fun p => p.1 < 15 && p.2.up)).map (fun p => p.2.peer % 16)
  (near.foldl (fun l m => setAdd m l) heard).filter (fun m => m ≠ memberNo s)

/-- Sends a TC0 message to every member reached. -/
def State.broadcast (s : State) (ptype : Nat) (payload : List Byte) : State :=
  (groupPeers s).foldl (fun t m => t.sendMsg (memberIdent t m) ptype 0 0 0 false payload) s

/-- This device itself is fit: in SERVING or DEGRADED, and aligned. -/
def selfFit (s : State) : Bool := (s.start.state = .serving || s.start.state = .degraded) && s.tick.aligned

/-- Members that meet the healthy test: SYNC at each of the last 100 edges, in SERVING or DEGRADED, and aligned, as their SYNC says (R48). -/
def healthyMembers (s : State) : List Nat :=
  (s.tick.syncRuns.filter (fun m => 100 ≤ m.2 && (if m.1 = memberNo s then selfFit s else s.tick.syncFit.contains m.1))).map (·.1)

/-- The lowest of some members. -/
def lowestOf (l : List Nat) : Option Nat := l.foldl (fun b m => match b with | none => some m | some x => some (min x m)) none

/-- The tick master becomes a member. -/
def State.setMaster (s : State) (m : Nat) : State :=
  s.onTick (fun k => { k with master := m, isMaster := decide (m = memberNo s), masterMisses := 0 })

/-! ## Votes (R49) -/

/-- A sharded row's attempt as this shard judges it: on time and undamaged, and at home neither past its deadline nor closed by an event of
the window (R49, R80). -/
def shardOnTime (s : State) (r : Request) (row : PlanRow) : Bool :=
  match s.attempt? row.slot with
  | none => false
  | some a =>
    a.done && decide (a.stamp < s.tick.commitOpenAt) && !a.faulted && !a.poisoned && !a.nonfinite && reqLive r.state
      && (!homedHere s r || (!deadlineDue s r && r.closeStatus = 0 && r.faultDue = 0 && !closingDue s row.slot r))

/-- The vote of this shard on a row. -/
def rowVote (s : State) (row : PlanRow) : Option VoteEntry :=
  match s.req? row.slot with
  | none => none
  | some r =>
    match r.shards with
    | [] => none
    | home :: _ =>
      let path := ((s.attempt? row.slot).map (·.path)).getD []
      let toks := if row.kind = .decode then if homedHere s r then (settlePath r path r.generated r.newCount).taken.length else 0
        else b2n (chunkSamples r row.tokens)
      some (home, row.slot, shardOnTime s r row, toks, if row.kind = .decode then 0 else row.tokens)

/-- The writes of a request are all confirmed (Table 17-2, step 3). -/
def writesConfirmed (s : State) (slot : Nat) : Bool := !s.req.log.any (fun w => w.slot = slot + 1 && !w.confirmed)

/-- Migrations this device votes on: those it sends once verified and confirmed, and those it receives. -/
def handoverVotes (s : State) : List VoteEntry :=
  (s.gelcon.migrations.filter (fun m => m.2.2 = 2 && writesConfirmed s m.1 && reqLive (s.reqState m.1))).map (fun m => (identityOf s, m.1, true, 0, 0))
    ++ s.gelcon.incoming.map (fun x => (x.2.1, x.1, incomingReady s x.1, 0, 0))

/-- What this shard votes in the tick. -/
def ownVotes (s : State) : List VoteEntry := (s.plan.rows.filterMap (rowVote s)) ++ handoverVotes s

/-- Takes votes of a sender. -/
def State.addVotes (s : State) (sender : Nat) (l : List VoteEntry) : State :=
  s.onTick (fun k => { k with votes := k.votes.filter (fun v => v.1 ≠ sender) ++ l.map (fun e => (sender, e)) })

/-- What this shard measured of its sharded rows, for their homes (R101). -/
def shardCosts (s : State) : List (Nat × Nat × Nat × Nat × Nat) :=
  (s.plan.rows.filter (·.sharded)).filterMap (fun row =>
    match s.req? row.slot, s.attempt? row.slot with
    | some r, some a =>
      match r.shards with
      | [] => none
      | home :: _ => if homedHere s r then none else some (home, row.slot, a.clusterNs, a.bankNs, a.hubBytes)
    | _, _ => none)

/-- At o_k an aligned member votes and reports its costs; the tick master keeps its own vote. -/
def State.castVotes (s : State) : State :=
  if s.tick.inGroup then
    let s := (s.onTick (fun k => { k with votingOpen := true })).onPlan (fun p => { p with costsOut := shardCosts s })
    if s.tick.aligned then
      let l := ownVotes s
      let sent := (s.gelcon.migrations.filter (fun m => l.any (fun e => e.1 = identityOf s && e.2.1 = m.1))).map (·.1)
      let s := sent.foldl (fun t n => t.setMigration n 3) s
      if s.tick.isMaster then s.addVotes (identityOf s) l
      else s.sendMsg (memberIdent s s.tick.master) 2 0 0 0 false (voteBytes s.tick.index (identityOf s) l)
    else s
  else s

/-- Costs that another shard reports for a row homed here join the row's own (R101): (slot, cluster ns, bank ns, hub bytes). -/
def State.takeCost (s : State) (c : Nat × Nat × Nat × Nat) : State :=
  s.onPlan (fun p => { p with costsDue := p.costsDue.map (fun d =>
    if d.1 = c.1 then (d.1, d.2.1, d.2.2.1, d.2.2.2.1 + c.2.1, d.2.2.2.2.1 + c.2.2.1, d.2.2.2.2.2 + c.2.2.2) else d) })

/-- The costs that VOTEs brought before this device's own o_k (R101). -/
def State.takeEarlyCosts (s : State) : State := s.plan.costsEarly.foldl State.takeCost (s.onPlan (fun p => { p with costsEarly := [] }))

/-- VOTE: the payload counts at the tick master where its stamp lies before o_k + C/2; a malformed one is a violation and counts as
missing. The costs that the exchange carries count at the home of each row (R101). A member's o_k may come up to 100 ns before this device's
own (R47), so that a VOTE that arrives before it counts too. -/
def execVote (t port : Nat) (v : VoteIn) (s : State) : Host.Outcome State Fault Refusal :=
  let s := s.atTime t
  .next (
    if !(s.tick.inGroup && s.tick.running) then s
    else s.tc0In port v.payload (fun s =>
      let s := if s.tick.inCommit then v.costs.foldl State.takeCost s else s.onPlan (fun p => { p with costsEarly := p.costsEarly ++ v.costs })
      if !s.tick.isMaster then s
      else if !voteOk v.payload || field v.payload 0 8 ≠ s.tick.index then s.violate port
      else if (!s.tick.inCommit || s.tick.votingOpen) && t < s.tick.commitOpenAt + s.tick.commitUs * 500 then (s.addVotes (field v.payload 8 2) (voteEntries v.payload)).onTick (fun k => { k with named := k.named ++ v.shards })
      else s))

/-! ## COMMIT_SET (R49, R50) -/

/-- Shards of a request as this device knows them: those of its own entry, or its own migration's two. -/
def knownShards (s : State) (home slot : Nat) : List Nat :=
  match s.req? slot with
  | none => []
  | some r =>
    if r.shards.head? = some home then r.shards
    else if home = identityOf s then (s.gelcon.migrations.filter (fun m => m.1 = slot)).flatMap (fun m => [home, m.2.1])
    else []

/-- Shards of a request: those this device knows, or those named for the requests it is no shard of (log 15). -/
def shardsFor (s : State) (named : List (Nat × Nat × List Nat)) (home slot : Nat) : List Nat :=
  match knownShards s home slot with
  | [] => ((named.find? (fun n => n.1 = home && n.2.1 = slot)).map (·.2.2)).getD []
  | l => l

/-- The entries of COMMIT_SET: a request is in it only if every one of its shards voted it on time, with the home's values. -/
def cutoffSet (s : State) (named : List (Nat × Nat × List Nat)) : List (Nat × Nat × Nat × Nat) :=
  let keys := s.tick.votes.foldl (fun l v => if l.contains (v.2.1, v.2.2.1) then l else l ++ [(v.2.1, v.2.2.1)]) ([] : List (Nat × Nat))
  keys.filterMap (fun k =>
    let vs := s.tick.votes.filter (fun v => v.2.1 = k.1 && v.2.2.1 = k.2)
    let shards := shardsFor s named k.1 k.2
    match vs.find? (fun v => v.1 = k.1) with
    | none => none
    | some h =>
      if !shards.isEmpty && vs.all (fun v => v.2.2.2.1) && shards.all (fun d => vs.any (fun v => v.1 = d)) then
        some (k.1, k.2, h.2.2.2.2.1, h.2.2.2.2.2)
      else none)

/-- The nodes of a committed path as a shard that is not its home takes them: the root, then the open values of log 6. -/
def shardNodes (tick home slot toks : Nat) : List Nat := (List.range toks).map (fun i => if i = 0 then 0 else Config.shardNode tick home slot i)

/-- A shard that is not the home advances a listed request as the set says: length, carried estimates and rebuild records as in an on-time
commit, and the GATHERs of its path (R49, R50, R187, R255). -/
def State.advanceShard (s : State) (slot home : Nat) (r : Request) (row : PlanRow) (a : Attempt) (toks chunk : Nat) : State :=
  let decode := row.kind = .decode
  let newLen := r.committedLen + if decode then toks else chunk
  let nodes := if decode then shardNodes s.tick.index home slot toks else []
  let gathers := if decode then pathGathers s slot r nodes else []
  let s := s.noteCommit slot r.committedLen newLen
  let s := s.modReq slot (fun q => { q with
    committedLen := newLen, newCount := r.newCount + toks, commitTick := s.tick.index
    scales := commitScales row nodes a q.scales, maxima := commitMaxima row nodes a q.maxima
    state := if !decode && newLen = prefillEnd r && q.state = .prefilling then .decoding else q.state })
  let s := (s.noteTokens slot r.committedLen newLen).markPublish slot r.committedLen newLen
  (s.onReq (fun u => { u with gathersDue := u.gathersDue ++ gathers })).onPlan
    (fun p => { p with attempts := p.attempts.filter (fun a => a.slot ≠ slot) })

/-- An attempt that would have been on time is non-finite: no vote lists it, and its home settles it under R232. -/
def numericEnd (r : Request) (a : Attempt) (open' : Nat) : Bool :=
  a.done && decide (a.stamp < open') && a.nonfinite && !a.faulted && !a.poisoned && reqLive r.state

/-- At its home a sharded row is settled in the order of R80: its timers, then a fault that closes the request, then its attempt, which commits
where the set lists it; only the home counts its outcome (R49, R434). -/
def State.applyHome (s : State) (row : PlanRow) (listed : Bool) : State :=
  let s := s.settleTimers row.slot
  let f := faultOf s row.slot
  match s.req? row.slot, s.attempt? row.slot with
  | some r, some a =>
    if !reqLive r.state then s.endAttempt row.slot .byEvent
    else if f ≠ 0 then s.closeReq row.slot f 0
    else if listed then s.commitPath row.slot r row a
    else if numericEnd r a s.tick.commitOpenAt then s.commitNumeric row.slot r a
    else s.endAttempt row.slot .byGroup
  | _, _ => if f ≠ 0 then s.closeReq row.slot f 0 else s

/-- One sharded row of a tick whose COMMIT_SET is known: committed or dropped (R49, R306). -/
def State.applyRow (s : State) (set : List (Nat × Nat × Nat × Nat)) (row : PlanRow) : State :=
  match s.req? row.slot with
  | none => s
  | some r =>
    match r.shards with
    | [] => s
    | home :: _ =>
      let e := set.find? (fun e => e.1 = home && e.2.1 = row.slot)
      let s' :=
        if homedHere s r then s.applyHome row e.isSome
        else
          match e, s.attempt? row.slot with
          | some e, some a => s.advanceShard row.slot home r row a e.2.2.1 e.2.2.2
          | _, _ => s.onPlan (fun p => { p with attempts := p.attempts.filter (fun a => a.slot ≠ row.slot) })
      (s'.modReq row.slot (fun q => { q with flags := { q.flags with held := false } })).settleRest row.slot

/-- The handovers of a COMMIT_SET: the source closes its entry with MIGRATED, the destination owns the request; one that is missing
ends with BUSY (Table 17-2, R382). -/
def State.applyHandovers (s : State) (set : List (Nat × Nat × Nat × Nat)) : State :=
  let s := (s.gelcon.migrations.filter (fun m => m.2.2 = 3)).foldl (fun t m =>
    if set.any (fun e => e.1 = identityOf t && e.2.1 = m.1) then ((t.endMigration m.1 St.ok).closeReq m.1 St.migrated 0) else t.endMigration m.1 St.busy) s
  s.gelcon.incoming.foldl (fun t x => if set.any (fun e => e.1 = x.2.1 && e.2.1 = x.1) then t.ownIncoming x.1 else t) s

/-- Keeps the sets of the last 16 ticks. -/
def State.keepSet (s : State) (tick : Nat) (set : List (Nat × Nat × Nat × Nat)) : State :=
  s.onTick (fun k => { k with commitSets := ((k.commitSets.filter (fun c => c.1 ≠ tick)) ++ [(tick, set)]).drop (k.commitSets.length - 15) })

/-- Applies the COMMIT_SET of a tick: the one in progress, or one whose rows this member holds. -/
def State.applySet (s : State) (tick : Nat) (set : List (Nat × Nat × Nat × Nat)) : State :=
  if s.tick.applied.contains tick then s
  else
    let s := s.onTick (fun k => { k with applied := (k.applied ++ [tick]).drop (k.applied.length - 15) })
    if tick = s.tick.index then ((s.plan.rows.filter (fun r => r.sharded)).foldl (fun t r => t.applyRow set r) s).applyHandovers set
    else
      let rows := s.plan.heldRows.filter (fun h => h.1 = tick)
      ((rows.foldl (fun t h => t.applyRow set h.2) s).applyHandovers set).onPlan (fun p => { p with heldRows := p.heldRows.filter (fun h => h.1 ≠ tick) })

/-- A set as VOTE entries. -/
def setEntries (l : List (Nat × Nat × Nat × Nat)) : List VoteEntry := l.map (fun e => (e.1, e.2.1, true, e.2.2.1, e.2.2.2))

/-- VOTE_CUTOFF: at o_k + C/2 the tick master closes the vote, keeps COMMIT_SET, broadcasts it and applies it. -/
def execVoteCutoff (s : State) : Host.Outcome State Fault Refusal :=
  .next (
    if s.tick.inGroup && s.tick.isMaster && s.tick.inCommit && s.tick.votingOpen then
      let s := (s.atTime (s.tick.commitOpenAt + s.tick.commitUs * 500)).onTick (fun k => { k with votingOpen := false })
      let set := cutoffSet s s.tick.named
      (((s.keepSet s.tick.index set).broadcast 3 (voteBytes s.tick.index (identityOf s) (setEntries set)))).applySet s.tick.index set
    else s)

/-- The sets fetched for earlier ticks are applied in a commit window (R37, R50). -/
def State.applyFetched (s : State) : State :=
  s.tick.fetched.foldl (fun t c => (t.keepSet c.1 c.2).applySet c.1 c.2) (s.onTick (fun k => { k with fetched := [] }))

/-- The set of an earlier tick is kept until a commit window applies it (R37); the first that came stands. -/
def State.keepFetched (s : State) (k : Nat) (set : List (Nat × Nat × Nat × Nat)) : State :=
  s.onTick (fun u => { u with fetched := if u.fetched.any (fun c => c.1 = k) then u.fetched else u.fetched ++ [(k, set)] })

/-- A COMMIT_SET of this tick or one that this member waits for, or has applied already, is no violation for its tick (Table 2-4, R50, R51). -/
def setExpected (s : State) (k : Nat) : Bool :=
  k = s.tick.index || s.plan.heldRows.any (fun h => h.1 = k) || s.tick.settling.contains k || s.tick.applied.contains k

/-- COMMIT_SET at a member: in the tick's commit window; one fetched for rows of an earlier tick, or for a tick that this device settles as the
new tick master, waits for a commit window (R37, R50, R51). A malformed one is a violation. -/
def execCommitSet (t port : Nat) (payload : List (BitVec 8)) (s : State) : Host.Outcome State Fault Refusal :=
  let s := s.atTime t
  let k := field payload 0 8
  .next (
    if !s.tick.inGroup then s
    else s.tc0In port payload (fun s =>
      if !voteOk payload || !setExpected s k then s.violate port
      else if k = s.tick.index && (s.tick.isMaster || !s.tick.inCommit) then s
      else
      let set := ((voteEntries payload).filter (fun e => e.2.2.1)).map (fun e => (e.1, e.2.1, e.2.2.2.1, e.2.2.2.2))
      if s.tick.inCommit then (s.keepSet k set).applySet k set
      else s.keepFetched k set))

/-- CSET_REQ: a member asks for a COMMIT_SET this device keeps, and is answered with it (R50, R51). -/
def execCsetReq (t src tick : Nat) (s : State) : Host.Outcome State Fault Refusal :=
  let s := s.atTime t
  .next (
    match s.tick.commitSets.find? (fun c => c.1 = tick) with
    | none => s
    | some c => if s.tick.inGroup then s.sendMsg src 3 0 0 0 false (voteBytes tick (identityOf s) (setEntries c.2)) else s)

/-- Ticks whose rows this member holds. -/
def heldTicks (s : State) : List Nat := s.plan.heldRows.foldl (fun l h => setAdd h.1 l) []

/-- A member that has no COMMIT_SET by the edge holds its sharded requests; it asks the tick master for the set of every tick whose rows it
holds (R50). -/
def State.holdRows (s : State) : State :=
  let rows := s.plan.rows.filter (fun r => r.sharded && awaitsSet s r.slot)
  if !s.tick.inGroup then s
  else
    let k := s.tick.index
    let s := if s.tick.applied.contains k || rows.isEmpty then s
      else
        let s := rows.foldl (fun t r => (t.modReq r.slot (fun q => { q with flags := { q.flags with held := true } })).settleRest r.slot) s
        s.onPlan (fun p => { p with heldRows := p.heldRows ++ rows.map (fun r => (k, r)) })
    if s.tick.isMaster then s else (heldTicks s).foldl (fun t n => t.sendMsg (memberIdent t t.tick.master) 4 0 0 0 false (leBytes 8 n)) s

/-! ## SHARD_PLAN (R101) -/

/-- The home device sends each shard device the sharded rows of plan k+1, which then stand in the plan as sent. -/
def State.sendShardPlans (s : State) : State :=
  if !s.tick.inGroup then s
  else
    let rows := s.plan.nextRows.filter (fun r => match s.req? r.slot with | none => false | some q => !q.shards.isEmpty && homedHere s q)
    let dests := rows.foldl (fun l r => ((s.req? r.slot).map (·.shards)).getD [] |>.foldl (fun l d => setAdd d l) l) ([] : List Nat)
    ((dests.filter (fun d => d ≠ identityOf s)).foldl (fun t d =>
      let mine := rows.filter (fun r => match t.req? r.slot with | none => false | some q => q.shards.contains d)
      t.sendMsg d 5 0 0 0 false (shardPlanBytes (t.tick.index + 1) (identityOf t) (mine.map (fun r =>
        (identityOf t, r.slot, if r.kind = .decode then r.tokens else 0, if r.kind = .decode then 0 else r.tokens))))) s).onPlan
          (fun p => { p with sent := some rows })

/-- SHARD_PLAN: its rows count where its stamp lies before o_k + C/4; a malformed one is a violation. -/
def execShardPlan (t port : Nat) (payload : List (BitVec 8)) (s : State) : Host.Outcome State Fault Refusal :=
  let s := s.atTime t
  .next (
    if !(s.tick.inGroup && s.tick.running) then s
    else s.tc0In port payload (fun s =>
      if !shardPlanOk payload || field payload 0 8 ≠ s.tick.index + 1 then s.violate port
      else if t < s.tick.commitOpenAt + s.tick.commitUs * 250 then s.onPlan (fun p => { p with shardListed := p.shardListed ++ shardEntries payload })
      else s))

/-! ## Alignment and the tick master (R47, R48, R51) -/

/-- An integer's magnitude is at most n. -/
def within (i : Int) (n : Nat) : Bool := i.natAbs ≤ n

/-- IV_STAT.offset_ns saturates at ±32,767 (Table 2-9). -/
def clampOffset (i : Int) : Int := max (-32767) (min 32767 i)

/-- A member that joins takes the group's index and grid at the first SYNC it accepts, and runs no tick of its own after that edge; what it had
pending of its own goes. -/
def State.adoptGrid (s : State) (m : SyncMsg) : State :=
  (s.onTick (fun k => { k with
    index := m.index, edge := m.edge, tickUs := m.tickUs, commitUs := m.commitUs, commitOpenAt := m.edge + m.tickUs * 1000 - m.commitUs * 1000
    pendCfg := none, pendIndex := 0, frozenCfg := none, running := true, inCommit := false, firstEdge := 0, gridSynced := true })).onPlan (fun p => { p with rows := [], nextRows := [], jobs := [], attempts := [] })

/-- The measured offset from the tick master: beyond 1 µs clears aligned; within 50 ns counts toward its return. -/
def State.noteOffset (s : State) (i : Int) : State :=
  s.onTick (fun k => { k with
    ivOffset := clampOffset i
    alignedRun := if within i 50 then k.alignedRun + 1 else 0
    aligned := k.aligned && within i 1000 })

/-- A member runs the edge, the T and the C that the tick master runs in the same tick, and from the tick that the master names applies the
T and C it has pending (R47, R53). -/
def State.takeLengths (s : State) (m : SyncMsg) : State :=
  let s := s.onTick (fun k => { k with pendCfg := m.pend.map (fun p => (p.1, p.2.1)), pendIndex := (m.pend.map (·.2.2)).getD 0 })
  if m.index = s.tick.index && s.tick.running && !s.tick.inCommit then
    s.onTick (fun k => { k with edge := m.edge, tickUs := m.tickUs, commitUs := m.commitUs, commitOpenAt := m.edge + m.tickUs * 1000 - m.commitUs * 1000 })
  else s

/-- SYNC of a member of this group enters the membership view, with what it says of the sender's health (R48). -/
def State.hearMember (s : State) (m : SyncMsg) : State :=
  s.onTick (fun k => { k with
    syncSeen := setAdd m.member k.syncSeen
    syncFit := if m.fit then setAdd m.member k.syncFit else setDel m.member k.syncFit
    syncRuns := if (tabGet m.member k.syncRuns).isSome then k.syncRuns else tabPut m.member 0 k.syncRuns })

/-- SYNC of another group's tick master: this group's tick master aligns to that of the lowest-numbered group it hears (R47). -/
def State.hearGroup (s : State) (m : SyncMsg) : State :=
  let s := s.onTick (fun k => { k with groupsSeen := setAdd m.group k.groupsSeen, peerMasters := tabPut m.group m.member k.peerMasters })
  if s.tick.isMaster && m.group < s.tick.group && m.group ≤ s.tick.lowGroup then s.noteOffset m.offset else s

/-- SYNC: the alignment exchange at an edge. A member that joins takes the grid from the first one it hears in an execute window, and not from one in its own commit window (DESIGN CHOICE,
log 14). -/
def execSync (t : Nat) (m : SyncMsg) (s : State) : Host.Outcome State Fault Refusal :=
  let s := s.atTime t
  .next (
    if !s.tick.inGroup || 16 ≤ m.member || s.start.warmRunning then s
    else if m.group ≠ s.tick.group then s.hearGroup m
    else if m.member = memberNo s then s
    else
      let s := s.hearMember m
      if !s.tick.gridSynced then (if s.tick.inCommit then s else (s.adoptGrid m).setMaster m.master)
      else if m.member = s.tick.master && !s.tick.isMaster then (s.noteOffset m.offset).takeLengths m
      else s)

/-- ALIGNMENT_RESTORED: after 16 consecutive ticks within 50 ns. -/
def execAlignmentRestored (t : Nat) (s : State) : Host.Outcome State Fault Refusal :=
  let s := s.atTime t
  .next (if s.tick.inGroup && !s.tick.aligned && 16 ≤ s.tick.alignedRun then s.onTick (fun k => { k with aligned := true, alignedRun := 0 }) else s)

/-- Ticks that a new master has to settle: those whose rows it holds, and the last one, unless it has applied its set (R51). -/
def openTicks (s : State) : List Nat :=
  let last := s.tick.index - 1
  if s.tick.applied.contains last || s.tick.index = 0 then heldTicks s else setAdd last (heldTicks s)

/-- A member becomes tick master. Where it is this device, it asks every member for the COMMIT_SET of each tick not yet settled, and settles
them in its next commit window (R37, R51). -/
def State.succeed (s : State) (m : Nat) : State :=
  let s := s.setMaster m
  if s.tick.isMaster then
    let ks := openTicks s
    (ks.foldl (fun t k => t.broadcast 4 (leBytes 8 k)) s).onTick (fun k => { k with settling := ks })
  else s

/-- A new master settles one tick for the group: by the set it kept or that a member held, or by none, which drops the tick's
sharded steps on every shard (R51). -/
def State.settleTick (s : State) (k : Nat) : State :=
  let set := ((s.tick.commitSets.find? (fun c => c.1 = k)).map (·.2)).getD []
  ((s.keepSet k set).broadcast 3 (voteBytes k (identityOf s) (setEntries set))).applySet k set

/-- In its commit window the new master settles the ticks it has asked for, once the sets that came have been applied. -/
def State.settleTicks (s : State) : State :=
  s.tick.settling.foldl State.settleTick (s.onTick (fun k => { k with settling := [] }))

/-- At each edge the membership view moves on by the SYNCs sent at the edge before it, this device's own among them. A lower-numbered member that
meets the healthy test becomes tick master, and so does the lowest healthy one where the master is heard and is not fit; a master that is not
heard stays until the recomputation (R48). -/
def State.noteSyncs (s : State) : State :=
  if !s.tick.inGroup then s
  else
    let me := memberNo s
    let s := s.onTick (fun k =>
      let seen := k.syncSeen
      let all := seen.foldl (fun l m => if (tabGet m l).isSome then l else tabPut m 0 l) k.syncRuns
      { k with
        syncRuns := all.map (fun m => (m.1, if seen.contains m.1 then m.2 + 1 else 0))
        syncSeen := []
        groupsSeen := []
        lowGroup := k.groupsSeen.foldl min k.group
        syncGaps := (all.filter (fun m => m.1 ≠ me)).map (fun m => (m.1, if seen.contains m.1 then 0 else tabGetD m.1 0 k.syncGaps + 1))
        masterMisses := if k.isMaster || k.syncSeen.contains k.master then 0 else k.masterMisses + 1 })
    let s := if s.tick.gridSynced then s else if s.tick.syncRuns.all (fun m => m.1 = me) then (s.onTick (fun k => { k with gridSynced := true })).setMaster me else s
    let unfit := if s.tick.master = me then !selfFit s else s.tick.masterMisses = 0 && !s.tick.syncFit.contains s.tick.master
    match lowestOf (healthyMembers s) with
    | none => s
    | some m => if m < s.tick.master || (unfit && m ≠ s.tick.master) then s.succeed m else s

/-- This device's SYNC at an edge, to the members of its group, and from a tick master to those of the other groups: those it has heard, and
the devices at its global ports, through which it first hears one (R47; log 14). The spec lays out no payload for it. -/
def State.sendSync (s : State) : State :=
  if s.tick.inGroup && s.tick.gridSynced then
    let s := (s.broadcast 1 []).onTick (fun k => { k with syncSeen := setAdd (memberNo s) k.syncSeen })
    if s.tick.isMaster then
      let far := ((s.gelcon.ports.filter (fun p => 15 ≤ p.1 && p.2.up && p.2.peer / 16 ≠ s.tick.group % 32)).map (·.2.peer)) ++ s.tick.peerMasters.map (fun g => g.1 * 16 + g.2)
      (far.foldl (fun l d => setAdd d l) []).foldl (fun t d => t.sendMsg d 1 0 0 0 false []) s
    else s
  else s

/-- TICK_MASTER_RECOMPUTE: after two edges with no SYNC from the tick master, the lowest healthy member is master. A new master asks
every member for the COMMIT_SET of each tick not yet settled; found gives the sets they answer with. -/
def execTickMasterRecompute (found : List (Nat × List (Nat × Nat × Nat × Nat))) (s : State) : Host.Outcome State Fault Refusal :=
  .next (
    if !s.tick.inGroup || s.tick.masterMisses < 2 then s
    else
      match lowestOf ((healthyMembers s).filter (fun m => m ≠ s.tick.master)) with
      | none => s
      | some m =>
        let s := s.succeed m
        (found.filter (fun c => s.tick.settling.contains c.1)).foldl (fun t c => t.keepFetched c.1 c.2) s)

/-! ## GROUP_CONFIG (R48, R365) -/

/-- A device may join: READY, or SERVING with every slot FREE. -/
def mayJoin (s : State) : Bool :=
  s.start.state = .ready || (s.start.state = .serving && !anyRequest s (fun _ => true))

/-- GROUP_CONFIG that names a group: sets the group's number, and with the join bit joins it, which steps Invar to its time; once SERVING
has been entered since the cold reset, one join alone does (R27). TK_STAT.aligned stays as it was until the first SYNC (DESIGN CHOICE, log 14). -/
def execGroupConfigJoin (mb groupTime : Nat) (s : State) : Host.Outcome State Fault Refusal :=
  .next (
    match s.cmdAt mb [0x11] with
    | none => s
    | some c =>
      if cf c 0 1 = 255 then s
      else runI s mb 0x11 (fun c s => do
        let join := bit (cf c 1 1) 0
        need (cf c 0 1 < 32) St.badArgument
        need (!s.tick.inGroup && (!join || mayJoin s)) St.badState
        let s := (s.onTick (fun k => { k with group := cf c 0 1, groupSet := true })).capChanged
        let s := if join then s.onTick (fun k => { k with
            inGroup := true, gridSynced := false, master := memberNo s, isMaster := false, syncRuns := [], syncSeen := [], syncGaps := [], masterMisses := 0, votes := []
            syncFit := [], groupsSeen := [], lowGroup := 32, alignedRun := 0
            joinStepped := k.joinStepped || k.everServing
            iv := if groupTime < two64 && !(k.everServing && k.joinStepped) then groupTime else k.iv }) else s
        .ok (s, leBytes 2 (identityOf s))))

/-- GROUP_CONFIG with 0xFF: the device leaves its group. -/
def execGroupConfigLeave (mb : Nat) (s : State) : Host.Outcome State Fault Refusal :=
  .next (
    match s.cmdAt mb [0x11] with
    | none => s
    | some c =>
      if cf c 0 1 ≠ 255 then s
      else runI s mb 0x11 (fun c s => do
        need (!bit (cf c 1 1) 0) St.badArgument
        need s.tick.inGroup St.badState
        let s := (s.onTick (fun k => { k with
          inGroup := false, group := 31, groupSet := false, settling := [], isMaster := false, master := 0, aligned := true, alignedRun := 0, syncRuns := [], syncSeen := [], syncGaps := [], masterMisses := 0
          votes := [], votingOpen := false, gridSynced := true })).capChanged
        .ok (s, leBytes 2 (identityOf s))))

end Sys2Proof.Machine
end

