-- ==== Sys2Proof/Machine/Tiers.lean ====
section
/-! DEFINITION. Commands and events of the Tier Manager: regions (R283), placement directives (R281, R282), PREFIX_PROBE (R276), the ends
of demotions, promotions and fills (R263, R267, R284, R285), and the rewriting of a group's sidecars (R277).
Readings of the spec: logs 20, 21. -/

namespace Sys2Proof.Machine

open Sys2Proof

/-! ## Regions (R283) -/

/-- A region keeps the rules of R283, but for overlap. -/
def regionOk (kind offset length host : Nat) : Bool :=
  kind ≤ 1 && offset % 2097152 = 0 && length % 2097152 = 0 && host % 2097152 = 0 && 0 < length && offset + length ≤ 17592186044416

/-- TIER_REGISTER: a region already registered with the same offset, length and address has its draining flag updated; otherwise a
number in use is BUSY (R283, Table 16-3). -/
def execTierRegister (mb : Nat) (s : State) : Host.Outcome State Fault Refusal :=
  .next (runI s mb 0x60 (fun c s => do
    let n := cf c 0 1
    let new : Region := { number := n, isFixed := cf c 1 1 = 1, draining := bit (cf c 2 1) 0, offset := cf c 8 8, length := cf c 16 8, hostAddr := cf c 24 8 }
    need (n < 64) St.badArgument
    match s.tier.regions.find? (fun r => r.number = n) with
    | some r =>
      need (r.offset = new.offset && r.length = new.length && r.hostAddr = new.hostAddr) St.busy
      let r' := { r with draining := new.draining }
      let s := s.onTier (fun t => { t with regions := t.regions.map (fun x => if x.number = n then r' else x)
                                           t2Free := t.t2Free + regionRoom s r' - regionRoom s r })
      .ok (s, [])
    | none =>
      need (regionOk (cf c 1 1) new.offset new.length new.hostAddr) St.badArgument
      need (!s.tier.regions.any (fun r => new.offset < r.offset + r.length && r.offset < new.offset + new.length)) St.badArgument
      .ok (s.onTier (fun t => { t with regions := t.regions ++ [new], t2Free := t.t2Free + regionFree new }), [])))

/-- A region holds the image of a slot that is not EMPTY, or of a live Alloy generation (R294, R298). -/
def holdsImage (s : State) (r : Region) : Bool :=
  let inside := fun (a : Nat) => t2Base + r.offset ≤ a && a < t2Base + r.offset + r.length
  s.models.slots.any (fun p => p.2.state ≠ .empty && inside p.2.info.addr) || s.models.gens.any (fun g => inside g.addr)

/-- TIER_RELEASE: BAD_STATE while the region holds a live granule or an image that R294 keeps (R283). -/
def execTierRelease (mb : Nat) (s : State) : Host.Outcome State Fault Refusal :=
  .next (runT s mb 0x61 (fun c s =>
    match s.tier.regions.find? (fun r => r.number = cf c 0 1) with
    | none => .error St.notFound
    | some r => do
      need (regionUsed s r = 0 && !holdsImage s r) St.badState
      .ok (s.onTier (fun t => { t with regions := t.regions.filter (fun x => x.number ≠ cf c 0 1), t2Free := t.t2Free - regionRoom s r }), [])))

/-! ## Directives (R281, Table 11-14) -/

/-- A directive of TIER_DIRECTIVE by its number; one that Table 16-3 does not list is BAD_ARGUMENT. -/
def runDirective (s : State) (mb d : Nat) (f : MbCommand → State → Except Nat (State × List Byte)) : State :=
  match s.cmdAt mb [0x62] with
  | none => s
  | some c =>
    if inRange (cf c 0 1) 1 6 && cf c 0 1 ≠ d then s
    else runT s mb 0x62 (fun c s => do
      need (cf c 0 1 = d && cf c 1 1 = (if d = 6 then 1 else 0)) St.badArgument
      f c s)

/-- The group a directive names by domain and digest: the one the index holds, or else any that exists. -/
def namedGroup (s : State) (c : MbCommand) : Option Nat :=
  let d := cf c 16 16
  let l := s.tier.groups.filter (fun p => p.2.digest.toNat = d && p.2.domain = cf c 2 2 && p.2.state ≠ .freeing && p.2.owner.isNone && d ≠ 0)
  ((l.find? (fun p => p.2.indexed)).or l.head?).map (·.1)

/-- A directive on a group. -/
def groupDirective (s : State) (mb d : Nat) (f : Nat → State → Except Nat State) : State :=
  runDirective s mb d (fun c s =>
    match namedGroup s c with
    | none => .error St.notFound
    | some h => (f h s).map (fun t => (t, [])))

/-- Pins a group and every group of its chain back to block 0; one that is PARKED is promoted. -/
def pinChain : Nat → Nat → State → State
  | 0, _, s => s
  | f + 1, h, s =>
    match s.group? h with
    | none => s
    | some g =>
      let s := (s.modGroup h (fun g => { g with pinned := true })).towardResident h 0
      if g.start = 0 then s
      else
        match s.tier.groups.find? (fun p => p.2.digest = g.prevDigest && p.2.domain = g.domain && p.2.modelSlot = g.modelSlot
            && p.2.start + 128 = g.start && p.2.state ≠ .freeing) with
        | none => s
        | some p => pinChain f p.1 s

/-- PIN. -/
def execPin (mb : Nat) (s : State) : Host.Outcome State Fault Refusal :=
  .next (groupDirective s mb 1 (fun h s => .ok (pinChain ((match s.group? h with | none => 0 | some g => g.start / 128) + 1) h s)))

/-- UNPIN: the named group only. -/
def execUnpin (mb : Nat) (s : State) : Host.Outcome State Fault Refusal :=
  .next (groupDirective s mb 2 (fun h s => .ok ((s.modGroup h (fun g => { g with pinned := false })).recheck h)))

/-- PROMOTE: a DEMOTING or PARKED group is set toward RESIDENT, and is re-checked there (Table 11-7). -/
def execPromote (mb : Nat) (s : State) : Host.Outcome State Fault Refusal :=
  .next (groupDirective s mb 3 (fun h s => .ok ((s.towardResident h 0).recheck h)))

/-- DEMOTE: BUSY where R268 refuses the group. -/
def execDemote (mb : Nat) (s : State) : Host.Outcome State Fault Refusal :=
  .next (groupDirective s mb 4 (fun h s =>
    match s.group? h with
    | none => .error St.notFound
    | some g => if (g.state = .resident || g.state = .parked) && g.refs = 0 && !g.pinned then .ok (s.demoteGroup h none).1 else .error St.busy))

/-- DROP: the index entry goes, and the group goes to FREEING once its refs are 0; a pinned group is never dropped (R282). -/
def execDrop (mb : Nat) (s : State) : Host.Outcome State Fault Refusal :=
  .next (groupDirective s mb 5 (fun h s =>
    match s.group? h with
    | none => .error St.notFound
    | some g => .ok (if g.pinned then s else (s.unindex h).recheck h)))

/-- PARK_NOW: a PAUSED request's timer is set to t_{k+1}; it acts in its turn among the commands on the request (R42). -/
def execParkNow (mb : Nat) (s : State) : Host.Outcome State Fault Refusal :=
  let n := ((s.cmdAt mb [0x62]).map (fun c => cf c 4 4)).getD 0
  .next ((runDirective s mb 6 (fun c s =>
    match s.req? (cf c 4 4) with
    | none => .error St.reqClosed
    | some r => do
      need (reqLive r.state && r.admitTick % two32 = cf c 8 4) St.reqClosed
      need (r.state = .paused) St.badState
      .ok (s.modReq (cf c 4 4) (fun q => { q with timer := s.nextEdge }), []))).settlePump)

/-! ## PREFIX_PROBE (R103, R276) -/

/-- PREFIX_PROBE: the tokens that R276 would match now under a domain and the current Alloy generation, without references. DESIGN CHOICE
(log 20): a token count or model slot out of range answers BAD_ARGUMENT before alloy_en answers UNSUPPORTED_UNIT on a device without Alloy
units; neither R6 nor R357 gives that order. -/
def execPrefixProbe (mb : Nat) (tokens : Option (List Nat)) (s : State) : Host.Outcome State Fault Refusal :=
  .next (runT s mb 0x63 (fun c s => do
    let n := cf c 8 4
    let al := cf c 4 2
    need (inRange n 1 2097151 && cf c 2 1 < 16) St.badArgument
    need (!bit al 15 || hasAlloy s.variant) St.unsupportedUnit
    match tokens with
    | none => .error St.badAddress
    | some toks =>
      let s := s.hostRead c.port (cf c 16 8) (4 * n)
      let gen := currentGen s (al % 4096) (cf c 2 1)
      let r : Request := { domain := cf c 0 2, modelSlot := cf c 2 1, alloyEn := bit al 15, alloyId := al % 4096
                           alloyGen := ((gen.map (·.gen)).getD 0) }
      let hit := if bit al 15 && gen.isNone then [] else admissionMatch s r (toks.take n)
      let made := if bit al 15 && gen.isNone then 0 else digestsFormed s r (toks.take n).length hit.length
      .ok (s.usePipe made, leBytes 4 (128 * hit.length))))

/-! ## Ends of demotions and promotions (Table 11-7, R284, R285) -/

/-- An alloy generation is live (R297). -/
def genLive (s : State) (id gen : Nat) : Bool := s.models.gens.any (fun g => g.id = id && g.gen = gen)

/-- A fault falls due for a request: it closes in step 4 of R80, behind its events, its deadline and its timers. -/
def State.markFault (s : State) (slot status : Nat) : State :=
  s.modReq slot (fun r => if reqLive r.state && r.faultDue = 0 then { r with faultDue := status } else r)

/-- A fault closes a request: now, where its window has settled it, or when it does (R80). -/
def State.closeSoon (s : State) (slot status : Nat) : State :=
  if s.tick.inCommit && !s.req.unsettled.contains slot then s.closeReq slot status 0 else s.markFault slot status

/-- A request that has been rebound holds a group to be rebuilt whose generation is no longer live (R302). -/
def alloyLost (s : State) (r : Request) : Bool :=
  r.alloyFollowed && (r.pages ++ r.draftPages).any (fun p => p.handle ≠ 0 && !p.weak &&
    match s.group? p.handle with | none => false | some g => g.rebuild && g.alloyEn && !genLive s g.alloyId g.alloyGen)

/-- Requests that R302 closes with FAULT_ALLOY_GEN: tested where a group is to be rebuilt, a generation is freed, or a request is rebound. -/
def State.closeAlloyLost (s : State) : State :=
  (s.req.table.filter (fun p => reqLive p.2.state && alloyLost s p.2)).foldl (fun t p => t.closeSoon p.1 St.faultAlloyGen) s

/-- A group's contents are to be recomputed (R285, R387). -/
def State.setRebuild (s : State) (h : Nat) : State := (s.modGroup h (fun g => { g with rebuild := true })).closeAlloyLost

/-- A tier-2 read of a promotion has failed (Table 11-15); a group that nothing holds or finds any more goes to FREEING. -/
def State.readFailed (s : State) (h : Nat) : State :=
  match s.group? h with
  | none => s
  | some g =>
    if g.state = .promoting && !g.rebuild && !g.readLost then
      let s := (s.endTransfer 0 h).onTier (fun t => { t with evFailures := t.evFailures + 1 })
      match g.owner.bind s.req?, g.owner with
      | some r, some slot => if r.flags.recomputeOk then s.setRebuild h else (s.modGroup h (fun g => { g with readLost := true })).closeSoon slot St.faultTier2
      | _, _ => (s.setRebuild h).recheck h
    else s

/-- A transfer's last byte had its share of the rate, and timeout_ms had gone by, before this commit window opened (R285). -/
def overdue (s : State) (m : TierMove) : Bool :=
  m.left = 0 && decide (m.servedBy + rf s.regs.t2Ctl 7 0 * 1000000 ≤ s.tick.commitOpenAt)

/-- As a commit window ends: promotions whose reads are too late for it fail; loads that are too late are marked, and end as the next window
opens, before its events (R285, R289, Table 12-4, check 7). -/
def State.failLate (s : State) : State :=
  let s := s.serveTier
  let l := (s.tier.moves.filter (fun m => m.kind = 0 && overdue s m)).map (·.key)
  l.foldl State.readFailed (s.onTier (fun t => { t with moves := t.moves.map (fun m =>
    if (m.kind = 1 || m.kind = 2) && overdue s m then { m with late := true } else m) }))

/-- A demotion writes to n granules of the region it was granted, which hold no other copy. -/
def t2PlaceOk (s : State) (h : Nat) (g : PageGroup) (a n : Nat) : Bool :=
  (match regionOf s g.t2Region with
    | none => false
    | some r => decide (t2Base + r.offset ≤ a) && decide (a + 2048 * n ≤ t2Base + r.offset + r.length)) && a % 2048 = 0
  && !s.tier.groups.any (fun p => p.1 ≠ h && p.2.t2Addr ≠ 0 && a < p.2.t2Addr + 2048 * p.2.t2Granules && p.2.t2Addr < a + 2048 * n)

/-- The bytes of a group's frames in map order, cluster 0 first. -/
def frameBytes (s : State) (l : List (Nat × Nat × Nat)) : List Byte := l.flatMap (fun x => s.getBytes (granAddr x.1 x.2.1 0) (2048 * x.2.2))

/-- The CRC-32 of each of n granules of a body. -/
def granuleCrcs (n : Nat) (body : List Byte) : List Nat := (List.range n).map (fun k => (crc32 (slice body (2048 * k) 2048)).toNat)

/-- What a demotion writes: the frames, then a manifest of one CRC-32 for each granule (R284). -/
def parkedCopy (s : State) (g : PageGroup) : List Byte :=
  let body := frameBytes s (frameSpans (groupModel s g.modelSlot g.draft) g)
  body ++ (granuleCrcs g.frameGranules body).flatMap (leBytes 4)

/-- DEMOTION_COMPLETE: in a commit window a DEMOTING group whose granules and manifest are written becomes PARKED; its frames go to
fill. Its transfer has had its share of the host ports' rate (R286). -/
def execDemotionComplete (handle t2Addr : Nat) (s : State) : Host.Outcome State Fault Refusal :=
  .next (
    match s.group? handle with
    | none => s
    | some g =>
      if s.tick.inCommit && g.state = .demoting && t2PlaceOk s handle g t2Addr g.t2Granules && moveDone s 3 handle && transitHeld s handle then
        let s := ((s.endTransfer 3 handle).translateTier t2Addr (2048 * g.t2Granules)).onTier (fun t => { t with t2Writes := t.t2Writes ++ [(t2Addr, parkedCopy s g)] })
        let s := s.addFillAt g.frameGranules (some g.charge) g.fillTenant none none (frameSpans (groupModel s g.modelSlot g.draft) g)
        (s.modGroup handle (fun g => { g with state := .parked, t2Addr := t2Addr, frames := [], fillTenant := none })).recheck handle
      else s)

/-- A demotion has failed: the group is RESIDENT again, its tier-2 granules released; the failure is counted. -/
def State.demotionFailed (s : State) (h : Nat) : State :=
  match s.group? h with
  | none => s
  | some g =>
    if g.state = .demoting then
      ((((s.releaseT2 h).modGroup h (fun g => { g with state := .resident, fillTenant := none })).endTransfer 3 h).onTier
        (fun t => { t with evFailures := t.evFailures + 1 })).recheck h
    else s

/-- DEMOTION_FAIL: in a commit window, Table 11-7. -/
def execDemotionFail (handle : Nat) (s : State) : Host.Outcome State Fault Refusal :=
  .next (if s.tick.inCommit then s.demotionFailed handle else s)

/-- A parked copy as read agrees with its manifest, and its pages with the model's cache format records (R284, R176). -/
def copyOk (i : ModelInfo) (n : Nat) (data : List Byte) : Bool :=
  granuleCrcs n data = (List.range n).map (fun k => field data (2048 * n + 4 * k) 4) && framesFit i i.pageOrder.flatten data

/-- Writes a body to runs of row granules in turn. -/
def writeSpans : List (Nat × Nat × Nat) → List Byte → Memory → Memory
  | [], _, m => m
  | x :: r, bs, m => writeSpans r (bs.drop (2048 * x.2.2)) (m.writeN (granAddr x.1 x.2.1 0) (slice bs 0 (2048 * x.2.2)))

/-- PROMOTION_COMPLETE: in a commit window every granule of a PROMOTING group has been read: data holds its frames and manifest. A copy that
agrees is in the frames, and the group RESIDENT; any other is a failed read (R284). -/
def execPromotionComplete (handle : Nat) (data : List (BitVec 8)) (s : State) : Host.Outcome State Fault Refusal :=
  .next (
    match s.group? handle with
    | none => s
    | some g =>
      let i := groupModel s g.modelSlot g.draft
      if s.tick.inCommit && g.state = .promoting && !g.rebuild && !g.readLost && moveDone s 0 handle && transitHeld s handle then
        let s := s.translateTier g.t2Addr (2048 * g.t2Granules)
        if copyOk i g.frameGranules data then (s.onMem (writeSpans (frameSpans i g) data)).promoted handle else s.readFailed handle
      else s)

/-- TIER2_READ_FAIL: a promotion's read fails or times out (R285). -/
def execTier2ReadFail (handle : Nat) (s : State) : Host.Outcome State Fault Refusal :=
  .next (if s.tick.inCommit then s.readFailed handle else s)

/-- Sidecars of a group's frames become kind 0x01 with owner zero (Table 5-4a, R277). -/
def rewriteSidecars (g : PageGroup) (m : Memory) : Memory :=
  g.frames.foldl (fun m f => (m.writeN (granAddr f.1 f.2 1) [1]).writeN (granAddr f.1 f.2 8) [0, 0, 0, 0]) m

/-- PUBLISH_REWRITE_DONE: in an execute window after the one of its mark, every page sidecar of a marked group has been rewritten. -/
def execPublishRewriteDone (handle : Nat) (s : State) : Host.Outcome State Fault Refusal :=
  .next (
    match s.group? handle with
    | none => s
    | some g =>
      match g.markTick with
      | none => s
      | some k =>
        if s.tick.running && !s.tick.inCommit && k < s.tick.index && s.tier.publish.contains handle then
          (s.onMem (rewriteSidecars g)).modGroup handle (fun g => { g with rewritten := true })
        else s)

/-- GRANULE_FILL_DONE: a fill has ended in an execute window: its granules are zero, free and no longer charged; a FREEING record
returns to unused (R263, R264, R267). -/
def execGranuleFillDone (index : Nat) (s : State) : Host.Outcome State Fault Refusal :=
  .next (
    match s.tier.fills[index]? with
    | none => s
    | some f =>
      if s.tick.running && !s.tick.inCommit && f.endsAt ≤ s.tick.index then
        let s := s.onMem (fun m => f.spans.foldl (fun m (x : Nat × Nat × Nat) => m.clear (granAddr x.1 x.2.1 0) (2048 * x.2.2)) m)
        let s := s.onTier (fun t => { t with
          fills := t.fills.eraseIdx index, t1Free := t.t1Free + f.granules
          used1 := match f.tenant with | none => t.used1 | some n => chargeSub n f.granules t.used1 })
        match f.group with
        | none => s
        | some h =>
          match s.group? h with
          | none => s
          | some g =>
            if g.state = .freeing && g.refs = 0 then
              s.onTier (fun t => { t with groups := tabDel h t.groups, incarnations := tabPut h g.incarnation t.incarnations })
            else s
      else s)

end Sys2Proof.Machine
end

