-- ==== Sys2Proof/Machine/Models.lean ====
section
/-! DEFINITION. Model slots (R289): the header and directory of an image (R290), loading (R292, R293, Table 12-4), eviction (R295),
pins, quarantine release (R110); and Alloys: loading and retiring a generation (R296 to R300) and FOLLOW (R302).
Readings of the spec: log 22. -/

namespace Sys2Proof.Machine

open Sys2Proof

/-! ## The image header and directory (R290, Tables 12-2, 12-3) -/

/-- Sections of an image as its directory gives them: (kind, offset, length). -/
def imgSections (b : List Byte) : List (Nat × Nat × Nat) :=
  (List.range (field b 14 1)).map (fun k => (field b (64 + 24 * k) 1, field b (64 + 24 * k + 8) 8, field b (64 + 24 * k + 16) 8))

/-- Bytes of the image, from its start to the end of its last section. -/
def imgLength (b : List Byte) : Nat :=
  (imgSections b).foldl (fun m x => max m (x.2.1 + x.2.2)) (64 + 24 * field b 14 1)

/-- A range of tier-2 addresses lies in one fixed region (R283). -/
def inFixed (s : State) (a n : Nat) : Bool :=
  s.tier.regions.any (fun r => r.isFixed && t2Base + r.offset ≤ a && a + n ≤ t2Base + r.offset + r.length)

/-- An image address is 2 MiB aligned in the window and n bytes from it lie in one fixed region (Table 12-4, check 1). -/
def imgPlaced (s : State) (a n : Nat) : Bool := t2Base ≤ a && (a - t2Base) % 2097152 = 0 && inFixed s a n

/-- Two ranges share no byte. -/
def apart (a b : Nat × Nat) : Bool := a.1 + a.2 ≤ b.1 || b.1 + b.2 ≤ a.1

/-- The kinds of section an image has: the seven of every image, and those its flags name. -/
def imgKinds (fl : Nat) : List Nat :=
  [1, 2, 3, 4, 5, 6, 7] ++ (if bit fl 1 then [8] else []) ++ (if bit fl 0 then [9] else []) ++ (if bit fl 2 then [10] else [])

/-- Check 2 of Table 12-4, as the header and directory decide it. -/
def imgHeaderOk (b : List Byte) : Bool :=
  let n := field b 14 1
  let fl := field b 5 1
  let secs := imgSections b
  let kinds := secs.map (fun x => x.1)
  field b 0 4 = 0x4C444D31 && field b 4 1 = 1 && fl / 8 = 0 && inRange (field b 6 2) 1 255 && 1 ≤ field b 8 4 && inRange (field b 12 1) 1 16
    && [1, 2, 4].contains (field b 13 1) && inRange n 7 10 && field b 15 1 = 0 && allZero (slice b 48 16)
    && kinds.length = (imgKinds fl).length && (imgKinds fl).all (fun k => kinds.contains k)
    && (List.range n).all (fun k => allZero (slice b (64 + 24 * k + 1) 7))
    && secs.all (fun x => x.2.1 % 2048 = 0 && 64 + 24 * n ≤ x.2.1)
    && (List.range n).all (fun i => (List.range i).all (fun j => apart (nth secs i (0, 0, 0)).2 (nth secs j (0, 0, 0)).2))

/-- The first of the checks that the header and directory alone decide which fails: 1, 2 and the vocabulary limit of 3. -/
def imgStatus (s : State) (a : Nat) (b : List Byte) : Nat :=
  if !imgPlaced s a (imgLength b) then St.badAddress
  else if !imgHeaderOk b then St.badImage
  else if 262144 < field b 8 4 then St.badImage
  else St.ok

/-- What the header and directory state of an image; its tier-1 need is that of its section lengths (R292, step 5). -/
def imgInfo (a : Nat) (b : List Byte) : ModelInfo :=
  let fl := field b 5 1
  { addr := a, length := imgLength b, layers := field b 6 2, vocab := field b 8 4, kvHeads := field b 12 1, groupQ := field b 13 1
    draft := bit fl 0, bf16 := bit fl 1, alloyShapes := bit fl 2, fp := BitVec.ofNat 256 (field b 16 32)
    granules := sumN ((imgSections b).map (fun x => ceilDiv x.2.2 2048)) }

/-- Bytes of the section of a kind; none where the image has no such section. -/
def secBytes (b : List Byte) (kind : Nat) : List Byte :=
  match (imgSections b).find? (fun x => x.1 = kind) with
  | none => []
  | some x => slice b x.2.1 x.2.2

/-- Records of n bytes that a section is made of. -/
def secRecs (n : Nat) (bs : List Byte) : List (List Byte) := chunks n (bs.length / n) bs

/-- The model fingerprint that an image should have: SHA-256 from byte 64 to its end (R290). -/
def imgDigest (b : List Byte) : Nat := leNat (sha256 (slice b 64 (imgLength b - 64)))

/-- The page orders of section 0x04: for each of n clusters a count and its entries (Table 12-3). -/
def orderOf : Nat → List Byte → List (List (Nat × Nat))
  | 0, _ => []
  | n + 1, bs =>
    let k := min (field bs 0 2) (bs.length / 2)
    ((List.range k).map (fun j => (field bs (2 + 2 * j) 1, field bs (3 + 2 * j) 1))) :: orderOf n (bs.drop (2 + 2 * k))

/-- The kernel headers of section 0x05, each followed by its program (Table 12-3). -/
def kernelsOf : Nat → List Byte → List (List Byte)
  | 0, _ => []
  | n + 1, bs => slice bs 0 32 :: kernelsOf n (bs.drop (32 + field bs 20 4))

/-- An ingot as a section of kind 0x06 or 0x08 holds it: its directory entry, and its frame. -/
structure ImgIngot where
  /-- 8 B directory entry -/
  entry : List Byte := []
  /-- its frame, sidecar row first -/
  frame : List Byte := []
  deriving DecidableEq, Repr, Inhabited

/-- Rows of an ingot frame of a format (Table 6-3). -/
def ingotRows (fmt : Nat) : Nat := 1 + ceilDiv (128 * ingotW fmt) 2048

/-- The ingot directories of a section of kind 0x06 or 0x08 from an offset on: a cluster's directory runs to the first frame it names, an
all-zero entry being none, and its frames to the end of the last (log 22). -/
def ingotsOf (sec : List Byte) : Nat → Nat → List (List ImgIngot)
  | 0, _ => []
  | n + 1, off =>
    let count := min (field sec off 4 * 2048 - off) sec.length / 8
    let es := ((List.range count).map (fun k => slice sec (off + 8 * k) 8)).filter (fun e => !allZero e)
    let stop := es.foldl (fun m e => max m ((field e 0 4 + ingotRows (field e 5 1)) * 2048)) off
    es.map (fun e => ({ entry := e, frame := slice sec (field e 0 4 * 2048) (ingotRows (field e 5 1) * 2048) } : ImgIngot)) :: ingotsOf sec n stop

/-- The ingots of an image by logical cluster, in directory order. -/
def imgIngots (b : List Byte) : List (List ImgIngot) := ingotsOf (secBytes b 6) 16 0

/-- The BF16 unembedding ingots of an image. -/
def imgBf16 (b : List Byte) : List (List ImgIngot) := if (secBytes b 8).isEmpty then [] else ingotsOf (secBytes b 8) 16 0

/-! ## Bindings and fills -/

/-- A request in a state other than FREE is bound to a slot. -/
def boundTo (s : State) (n : Nat) : Bool := s.req.table.any (fun p => p.2.modelSlot = n && p.2.state ≠ .free)

/-- Writes placed pieces to tier 1. -/
def placePieces (l : List (Nat × Nat × List Byte)) (m : Memory) : Memory :=
  l.foldl (fun m (x : Nat × Nat × List Byte) => m.writeN (granAddr x.1 x.2.1 0) x.2.2) m

/-- The ALLOY_LOAD of a generation. -/
def alloyCmd (s : State) (id gen : Nat) : Option MbCommand :=
  s.mb.outstanding.find? (fun c => c.opcode = 0x75 && c.phase = 1 && c.aux = gen * 4096 + id)

/-- A generation is freed: its granules go to fill, the index entries whose groups record it are removed, and a load of it still
under way completes with a status (R298, R300). -/
def State.freeGen (s : State) (id gen : Nat) (slotOf : Option Nat) (status : Nat) : State :=
  match s.models.gens.find? (fun g => g.id = id && g.gen = gen) with
  | none => s
  | some g =>
    let s := (s.endMove 2 (gen * 4096 + id)).onModels (fun m => { m with gens := m.gens.filter (fun x => !(x.id = id && x.gen = gen)) })
    let s := if g.granules = 0 then s else s.addFillAt g.granules none none none slotOf g.spans
    let s := s.dropEntries (fun e =>
      match s.group? e.handle with
      | none => false
      | some p => p.alloyEn && p.alloyId = id && p.alloyGen = gen)
    let s := s.closeAlloyLost
    match alloyCmd s id gen with
    | none => s
    | some c => s.complete c status []

/-- A slot becomes EVICTING: its index entries go, its Alloy generations are freed, its granules are released to fill, and its
page groups, no longer pinned, go to FREEING as their references fall to 0 (R295). -/
def State.startEvict (s : State) (n : Nat) : State :=
  let i := (s.mslot n).info
  let mine := (s.tier.groups.filter (fun p => p.2.modelSlot = n)).map (·.1)
  let s := s.modMslot n (fun m => { m with state := .evicting, golden := [], info := { m.info with granules := 0 } })
  let s := mine.foldl (fun t h => t.modGroup h (fun g => { g with pinned := false })) s
  let s := s.dropEntries (fun e => e.modelSlot = n)
  let s := mine.foldl State.recheck s
  let s := (s.models.gens.filter (fun g => g.modelSlot = n)).foldl (fun t g => t.freeGen g.id g.gen (some n) St.modelNotResident) s
  if i.granules = 0 then s else s.addFillAt i.granules none none none (some n) i.spans

/-! ## MODEL_LOAD (R292) -/

/-- Step 5: space for an image in an EMPTY slot, which becomes LOADING; else reclaim starts and the command completes NO_SPACE. -/
def State.loadInto (s : State) (n mb : Nat) (i : ModelInfo) : State :=
  match s.cmdAt mb [0x70] with
  | none => s
  | some c =>
    let want := i.granules + rf s.regs.tmCtl 15 0 * 512
    if s.tier.t1Free < want then ((s.reclaimAny (want - s.tier.t1Free)).refuse).complete c St.noSpace []
    else
      (((s.onTier (fun t => { t with t1Free := t.t1Free - i.granules })).beginMove 1 n 0 0 i.length).modMslot n
        (fun _ => { state := .loading, info := i, loadMb := some mb })).setCmd { c with phase := 2, aux := n }

/-- MODEL_LOAD: steps 1 and 2, in the applying commit window. -/
def execModelLoad (mb : Nat) (s : State) : Host.Outcome State Fault Refusal :=
  .next (runL s mb 0x70 (fun c s => do
    let n := cf c 0 1
    need (n < 16 || n = 255) St.badArgument
    need (imgPlaced s (cf c 8 8) 64) St.badAddress
    need (n = 255 || (s.mslot n).state = .empty) St.busy
    .ok (s.setCmd { c with phase := 1 })))

/-- The RESIDENT slot that an any-slot load evicts: unpinned, unbound, of least last_use, ties to the lower number. -/
def loadVictim (s : State) : Option Nat :=
  ((List.range 16).filter (fun n => (s.mslot n).state = .resident && !(s.mslot n).pinned && !boundTo s n)).foldl (fun b n =>
    match b with
    | none => some n
    | some m => if (s.mslot n).lastUse < (s.mslot m).lastUse then some n else some m) none

/-- MODEL_HEADER_READ_DONE: steps 3 to 5, in the commit window after the header and directory have been read, before its descriptors (R289). -/
def execModelHeaderReadDone (mb : Nat) (r : HeaderRead) (s : State) : Host.Outcome State Fault Refusal :=
  .next (
    match s.cmdAt mb [0x70] with
    | none => s
    | some c =>
      if !(s.sceolUp && settlesLong s && c.phase = 1) then s
      else if r.fail then s.complete c St.faultTier2 []
      else
        let a := cf c 8 8
        let n := cf c 0 1
        let s := s.translateTier a r.bytes.length
        let st := imgStatus s a r.bytes
        let i := imgInfo a r.bytes
        if st ≠ St.ok then s.complete c st []
        else if n ≠ 255 then if (s.mslot n).state = .empty then s.loadInto n mb i else s.complete c St.busy []
        else
          match (List.range 16).find? (fun k => (s.mslot k).state = .empty && (s.mslot k).loadNext.isNone) with
          | some k => s.loadInto k mb i
          | none =>
            match loadVictim s with
            | none => s.complete c St.busy []
            | some k => ((s.startEvict k).modMslot k (fun m => { m with loadNext := some (mb, i) })).setCmd { c with phase := 2, aux := k })

/-! ## The checks of Table 12-4 in LOADING (R293) -/

/-- A cache format record is accepted (R176, Table 7-2). -/
def cacheRecOk (b : List Byte) : Bool :=
  let f := field b 0 1
  (f = 1 || f = 2) && field b 1 1 ≤ 2 && allZero (slice b 4 12) && allZero (slice b 48 16)
    && (if f = 1 then !allZero (slice b 16 16) && !allZero (slice b 32 16) else allZero (slice b 16 32))

/-- A cache format record (Table 7-2). -/
def cacheRec (b : List Byte) : CacheFmt :=
  { fmt := field b 0 1, dsel := field b 1 1, ek := BitVec.ofNat 8 (field b 2 1), ev := BitVec.ofNat 8 (field b 3 1), cbk := slice b 16 16, cbv := slice b 32 16 }

/-- A tensor-slot record of a kind keeps Table 7-5. -/
def slotRecOk (kind : Nat) (b : List Byte) : Bool :=
  let m := field b 2 2
  field b 0 1 ≤ 1 && (kind < 5 || field b 0 1 = 0) && (kind < 4 || (field b 1 1 = 0 && field b 5 1 = 0)) && (m = 0 || 32768 ≤ m)
    && field b 5 1 ≤ 64 && allZero (slice b 6 2) && (field b 5 1 ≠ 0 || field b 8 8 = 0)

/-- A tensor-slot record (Table 7-5). -/
def slotRec (b : List Byte) : TensorSlot :=
  { carried := bit (field b 0 1) 0, zx := BitVec.ofNat 8 (field b 1 1), initMant := BitVec.ofNat 16 (field b 2 2), initExp := BitVec.ofNat 8 (field b 4 1)
    nout := field b 5 1, outList := field b 8 8 }

/-- The outlier channels of one layer's slots are 64 at most (Table 7-5). -/
def outliersOk (l : List (List Byte)) (layer : Nat) : Bool := sumN (((l.drop (8 * layer)).take 8).map (fun b => field b 5 1)) ≤ 64

/-- The page orders cover each (layer, head) once, with 368 pages or fewer on each cluster (check 5). -/
def pageOrderOk (i : ModelInfo) (o : List (List (Nat × Nat))) : Bool :=
  o.length = 16 && o.all (fun l => l.length ≤ 368) && o.flatten.length = i.layers * i.kvHeads
    && o.flatten.all (fun p => p.1 < i.layers && p.2 < i.kvHeads) && decide (o.flatten.Nodup)

/-- The header of kernel k of L + 2 keeps Table 12-5. -/
def kernelOk (layers k : Nat) (b : List Byte) : Bool :=
  field b 0 1 = (if k = 0 then 0 else if k = layers + 1 then 2 else 1) && field b 1 1 = 0
    && field b 2 2 = (if k = 0 || k = layers + 1 then 0xFFFF else k - 1) && field b 14 2 ≤ 64 && allZero (slice b 18 2) && allZero (slice b 24 8)

/-- A kernel header (Table 12-5). -/
def kernelRec (b : List Byte) : Kernel :=
  { kkind := field b 0 1, layer := field b 2 2, actFixed := field b 4 4, actPer16 := field b 8 4, logitPerRow := field b 12 2, nsem := field b 14 2
    semInit := field b 16 2 }

/-- An ingot directory entry (Table 6-6). -/
def dirRec (b : List Byte) : DirEntry := { granule := field b 0 4 % 2 ^ 25, mu := field b 4 1 % 16, fmt := field b 5 1 }

/-- A directory entry keeps Table 6-6. -/
def dirOk (b : List Byte) : Bool := field b 0 4 < 2 ^ 25 && field b 4 1 ≤ 11 && inRange (field b 5 1) 1 6 && allZero (slice b 6 2)

/-- An ingot keeps Tables 6-5 and 6-6, and its header agrees with its directory entry (check 6). -/
def ingotOk (layers : Nat) (x : ImgIngot) : Bool :=
  let h := slice x.frame 0 64
  let fmt := field h 0 1
  let l := field h 4 2
  dirOk x.entry && fmt = field x.entry 5 1 && field h 1 1 = 1 && field h 2 1 ≤ 2 && (fmt ≠ 5 || field h 2 1 = 2) && field h 3 1 ≤ 3
    && field h 6 1 ≤ 8 && (if l = 0xFFFF then true else l < layers) && field h 7 1 ≤ 127 && field h 16 1 ≤ 127
    && field h 8 4 % (if field h 6 1 = 8 then 64 else 128) = 0 && field h 12 4 % 128 = 0
    && (((fmt = 2 || fmt = 3) && bit (field h 3 1) 0) || field h 18 1 = 0) && allZero (slice h 19 45)

/-- Vocabulary columns of a logical cluster's slice: the first, and the one past the last (R442). -/
def sliceBounds (vocab c : Nat) : Nat × Nat := (c * ceilDiv vocab 16, min ((c + 1) * ceilDiv vocab 16) vocab)

/-- An ingot of the unembedding covers columns of its cluster's slice alone (check 3). -/
def columnsOk (vocab c : Nat) (x : ImgIngot) : Bool :=
  let n := field x.frame 12 4
  field x.frame 6 1 ≠ 7 || ((sliceBounds vocab c).1 ≤ n && n + field x.frame 16 1 + 1 ≤ (sliceBounds vocab c).2)

/-- The tensor slot whose codes an ingot takes (Table 7-4). -/
def ingotSlot (layers : Nat) (x : ImgIngot) : Nat :=
  let t := field x.frame 6 1
  if t = 7 then 8 * layers + 4 else 8 * field x.frame 4 2 + (if t ≤ 2 then 0 else if t = 3 then 1 else if t ≤ 5 then 2 else 3)

/-- A slot with a zero point feeds no ingot of format 0x05 or 0x06 (Table 7-5). -/
def zeroPointOk (layers : Nat) (slots : List (List Byte)) (x : ImgIngot) : Bool :=
  field x.frame 0 1 < 5 || field x.frame 6 1 = 8 || field (nth slots (ingotSlot layers x) []) 1 1 = 0

/-- Checks 3 to 6 of Table 12-4 pass on an image as read, whose header states i. -/
def sectionsOk (i : ModelInfo) (b : List Byte) : Bool :=
  let ings := imgIngots b
  let wide := imgBf16 b
  let cache := secRecs 64 (secBytes b 1)
  let slots := secRecs 16 (secBytes b 2)
  let kernels := kernelsOf (i.layers + 2) (secBytes b 5)
  decide (i.vocab ≤ 262144) && (ings.zipIdx ++ wide.zipIdx).all (fun x => x.1.all (columnsOk i.vocab x.2))
    && (secBytes b 1).length = 64 * i.layers * i.kvHeads && cache.all cacheRecOk
    && (secBytes b 2).length = 128 * (i.layers + 1) && slots.zipIdx.all (fun x => slotRecOk (x.2 % 8) x.1)
    && (List.range (i.layers + 1)).all (outliersOk slots) && ings.all (fun l => l.all (zeroPointOk i.layers slots))
    && pageOrderOk i (orderOf 16 (secBytes b 4))
    && kernels.zipIdx.all (fun x => kernelOk i.layers x.2 x.1) && (ings ++ wide).all (fun l => l.all (ingotOk i.layers))

/-- The draft image of section 0x09 passes checks 2 to 6, has the same V and no flags of its own (Table 12-3, R293). -/
def draftOk (i : ModelInfo) (b : List Byte) : Bool :=
  let d := secBytes b 9
  !i.draft || (imgHeaderOk d && field d 5 1 = 0 && field d 8 4 = i.vocab && imgLength d ≤ d.length && sectionsOk (imgInfo 0 d) d)

/-- The fingerprints of an image and of its draft image are those formed over them (check 8). -/
def digestsOk (i : ModelInfo) (b : List Byte) : Bool :=
  imgDigest b = i.fp.toNat && (!i.draft || imgDigest (secBytes b 9) = (imgInfo 0 (secBytes b 9)).fp.toNat)

/-- The status that settles a load: that of the first check of Table 12-4 that fails. A read that failed is check 7; the checks before it are
made of what had been read, as far as that decides them. -/
def loadStatus (s : State) (i : ModelInfo) (r : ModelRead) : Nat :=
  let seen := fun n => !r.fail || decide (n ≤ r.image.length)
  let head := seen 64 && seen (64 + 24 * field r.image 14 1)
  if head && imgStatus s i.addr r.image ≠ St.ok then imgStatus s i.addr r.image
  else if head && imgInfo i.addr r.image ≠ { i with spans := [] } then St.badImage
  else if seen i.length && !(sectionsOk i r.image && draftOk i r.image) then St.badImage
  else if r.fail then St.faultTier2
  else if !digestsOk i r.image then St.badImage
  else St.ok

/-! ## Placing an image (R154, R293) -/

/-- An image as it is being placed: runs taken, what is written, and the directories with the granules of the placed frames. -/
structure ImgPlaced where
  /-- runs taken: (stack, first, count) -/
  spans : List (Nat × Nat × Nat) := []
  /-- (stack, first granule, bytes) -/
  pieces : List (Nat × Nat × List Byte) := []
  /-- directory entries in directory order: (cluster, kernel, entry) -/
  dirs : List (Nat × Nat × DirEntry) := []
  deriving DecidableEq, Repr, Inhabited

/-- Kernel that consumes an ingot: that of its layer, or the output kernel (R83). -/
def ingotKernel (layers : Nat) (x : ImgIngot) : Nat := if field x.frame 4 2 = 0xFFFF then layers + 1 else field x.frame 4 2 + 1

/-- Places one ingot of a logical cluster, the k-th of its kernel, at an even row (R154). -/
def placeIngot (s : State) (used : List (Nat × Nat × Nat)) (c kernel : Nat) (q : ImgPlaced) (x : ImgIngot) : Option ImgPlaced :=
  let stack := nth s.faults.clmap c c
  let k := (q.dirs.filter (fun d => d.1 = c && d.2.1 = kernel)).length
  let start := Config.place s.freeCtr stack kernel
  let rows := ingotRows (field x.entry 5 1)
  (placeIn s.variant (onStack stack (used ++ q.spans)) { parity := some 0, rows := rows } (ingotBanks s.variant start k ++ bankList s.variant start [])).map (fun g =>
    { spans := q.spans ++ [(stack, g, rows)], pieces := q.pieces ++ [(stack, g, x.frame)], dirs := q.dirs ++ [(c, kernel, { dirRec x.entry with granule := g })] })

/-- Places a list of ingots by logical cluster; the kernel of each is given. -/
def placeIngots (s : State) (used : List (Nat × Nat × Nat)) (kernel : ImgIngot → Nat) (l : List (List ImgIngot)) (q : Option ImgPlaced) : Option ImgPlaced :=
  (l.zipIdx.flatMap (fun p => p.1.map (fun x => (p.2, x)))).foldl (fun q x => q.bind (fun q => placeIngot s used x.1 (kernel x.2) q x.2)) q

/-- Places a run of granules of the embedding on the stack of a cluster. -/
def placeRows (s : State) (used : List (Nat × Nat × Nat)) (q : Option ImgPlaced) (x : Nat × List Byte) : Option ImgPlaced :=
  q.bind (fun q =>
    let stack := nth s.faults.clmap x.1 x.1
    let rows := ceilDiv x.2.length 2048
    (placeIn s.variant (onStack stack (used ++ q.spans)) { rows := rows } (bankList s.variant (Config.place s.freeCtr stack 4096) [])).map (fun g =>
      { q with spans := q.spans ++ [(stack, g, rows)], pieces := q.pieces ++ [(stack, g, x.2)] }))

/-- The embedding rows shared out over the clusters in order, in runs of at most a bank (log 22). -/
def embedRuns (b : List Byte) : List (Nat × List Byte) :=
  let n := ceilDiv (ceilDiv b.length 2048) 16 * 2048
  if n = 0 then [] else ((chunks n 16 b).zipIdx.flatMap (fun p => (chunks 67108864 (p.1.length / 67108864 + 1) p.1).map (fun x => (p.2, x)))).filter (fun x => !x.2.isEmpty)

/-- Places an image: its ingots by kernel, BF16 unembedding ingots as those of a kernel of their own, and those of the draft image as the embedding
kernel's; then the embedding rows (R154, R245, R293). -/
def placeImage (s : State) (i : ModelInfo) (b : List Byte) : Option ImgPlaced :=
  let used := allSpans s
  let d := secBytes b 9
  let q := placeIngots s used (ingotKernel i.layers) (imgIngots b) (some {})
  let q := placeIngots s used (fun _ => i.layers + 2) (imgBf16 b) q
  let q := if i.draft then placeIngots s used (fun _ => 0) (imgIngots d) q else q
  (embedRuns (secBytes b 7) ++ (if i.draft then embedRuns (secBytes d 7) else [])).foldl (placeRows s used) q

/-- The directories of a placed image by cluster and kernel. -/
def placedDirs (layers : Nat) (q : ImgPlaced) : List (List (List DirEntry)) :=
  (List.range 16).map (fun c => (List.range (layers + 3)).map (fun k => (q.dirs.filter (fun d => d.1 = c && d.2.1 = k)).map (·.2.2)))

/-- What the draft image of section 0x09 states. -/
def draftModelOf (b : List Byte) : DraftModel :=
  { layers := field b 6 2, kvHeads := field b 12 1, groupQ := field b 13 1, cacheFmts := (secRecs 64 (secBytes b 1)).map cacheRec
    tslots := (secRecs 16 (secBytes b 2)).map slotRec, pageOrder := orderOf 16 (secBytes b 4) }

/-- Input and output widths of section 0x0A, per cluster and projection. -/
def shapesOf (b : List Byte) : List (List (Nat × Nat)) :=
  (List.range 16).map (fun c => (List.range 7).map (fun p => (field b (8 * (7 * c + p)) 4, field b (8 * (7 * c + p) + 4) 4)))

/-- What a verified and placed image states of itself. -/
def loadedInfo (i : ModelInfo) (b : List Byte) (q : ImgPlaced) : ModelInfo :=
  { i with cacheFmts := (secRecs 64 (secBytes b 1)).map cacheRec, tslots := (secRecs 16 (secBytes b 2)).map slotRec
           initMax := (secRecs 2 (secBytes b 3)).map (fun x => BitVec.ofNat 16 (leNat x)), pageOrder := orderOf 16 (secBytes b 4)
           kernels := (kernelsOf (i.layers + 2) (secBytes b 5)).map kernelRec, dirs := placedDirs i.layers q
           draftModel := if i.draft then draftModelOf (secBytes b 9) else {}
           shapes := if i.alloyShapes then shapesOf (secBytes b 10) else [], spans := q.spans }

/-- A load ends without success: its command completes with a status, and what the slot was allocated is freed (R293, R295). -/
def State.failLoad (s : State) (n status : Nat) : State :=
  let s := match (s.mslot n).loadMb.bind (fun mb => s.cmdAt mb [0x70]) with
    | none => s
    | some c => s.complete c status []
  ((s.endMove 1 n).startEvict n).modMslot n (fun m => { m with loadMb := none })

/-- A verified image is in its place, its frames written in the execute windows that its transfer has spanned (R264): RESIDENT, its conversion records zero (R438), its load complete. -/
def State.finishLoad (s : State) (slot : Nat) (b : List Byte) (q : ImgPlaced) : State :=
  let m := s.mslot slot
  let s := ((((s.endMove 1 slot).draw).onMem (placePieces q.pieces)).modMslot slot (fun m =>
    { m with state := .resident, lastUse := s.tick.index, info := loadedInfo m.info b q, golden := q.pieces, loadMb := none })).count
      (fun c => { c with conv := c.conv.filter (fun x => x.slot ≠ slot) })
  match m.loadMb.bind (fun mb => s.cmdAt mb [0x70]) with
  | none => s
  | some c => s.complete c St.ok (leBytes 8 slot ++ leBytes 32 m.info.fp.toNat)

/-- MODEL_LOAD_COMPLETE: in a commit window, before its descriptors (R289), every section of a LOADING slot has been read, its transfer served (R286): the image is checked
and placed, and the slot RESIDENT, or EVICTING where a check fails or a frame has no permitted place. -/
def execModelLoadComplete (slot : Nat) (r : ModelRead) (s : State) : Host.Outcome State Fault Refusal :=
  .next (
    let m := s.mslot slot
    if !(settlesLong s && s.sceolUp && m.state = .loading && (r.fail || moveDone s 1 slot)) then s
    else if loadStatus s m.info r ≠ St.ok then s.failLoad slot (loadStatus s m.info r)
    else
      match placeImage s m.info r.image with
      | none => s.refuse.failLoad slot St.noSpace
      | some q => (s.translateTier m.info.addr m.info.length).finishLoad slot r.image q)

/-! ## Eviction (R295) -/

/-- MODEL_EVICT. Where it has settled a request, others that waited for that go on in the order of R306. -/
def execModelEvict (mb : Nat) (s : State) : Host.Outcome State Fault Refusal :=
  .next (runL s mb 0x71 (fun c s => do
    let n := cf c 0 1
    let force := bit (cf c 1 1) 0
    need (n < 16) St.badArgument
    let m := s.mslot n
    let s' := (s.modMslot n (fun m => { m with evictMbs := m.evictMbs ++ [mb] })).setCmd { c with phase := 1, aux := n }
    if m.state = .empty then .error St.badState
    else if m.state = .evicting then .ok s'
    else if m.pinned then .error St.badState
    else if m.state = .loading then .ok (s'.failLoad n St.cancelled)
    else do
      need (force || !boundTo s n) St.busy
      let bound := (s.req.table.filter (fun p => p.2.modelSlot = n && reqLive p.2.state)).map (·.1)
      .ok ((bound.foldl (fun t k => t.closeReq k St.modelEvicted 0) s').startEvict n))).settlePump

/-- MODEL_SLOT_EMPTY: in a commit window, before its descriptors (R289), every fill of an EVICTING slot's granules has ended: EMPTY, its quarantine, fault count and
pin cleared; the commands that evicted it complete, and a load that waited for it goes on with step 5 (R289, R292). -/
def execModelSlotEmpty (slot : Nat) (s : State) : Host.Outcome State Fault Refusal :=
  .next (
    let m := s.mslot slot
    if !(settlesLong s && s.sceolUp && (m.state = .evicting || m.state = .broken) && m.info.granules = 0) || s.tier.fills.any (fun f => f.slotOf = some slot) then s
    else
      let s := (s.modMslot slot (fun _ => {})).onPlan (fun p => { p with
        quar := setDel slot p.quar, faultRun := tabDel slot p.faultRun, repairing := setDel slot p.repairing })
      let s := (s.onCfg (fun g => { g with pins := setDel slot g.pins })).onCfgNext (fun g => { g with pins := setDel slot g.pins })
      let s := m.evictMbs.foldl (fun t mb =>
        match t.cmdAt mb [0x71] with
        | none => t
        | some c => t.complete c St.ok []) s
      match m.loadNext with
      | none => s
      | some x => s.loadInto slot x.1 x.2)

/-! ## Pins and quarantine (R289, R110) -/

/-- MODEL_PIN. -/
def execModelPin (mb : Nat) (s : State) : Host.Outcome State Fault Refusal :=
  .next (runI s mb 0x72 (fun c s => do
    need (cf c 0 1 < 16) St.badArgument
    need ((s.mslot (cf c 0 1)).state ≠ .empty) St.badState
    .ok (s.onCfgNext (fun g => { g with pins := setAdd (cf c 0 1) g.pins }), [])))

/-- MODEL_UNPIN. -/
def execModelUnpin (mb : Nat) (s : State) : Host.Outcome State Fault Refusal :=
  .next (runI s mb 0x73 (fun c s => do
    need (cf c 0 1 < 16) St.badArgument
    need ((s.mslot (cf c 0 1)).state ≠ .empty) St.badState
    .ok (s.onCfgNext (fun g => { g with pins := setDel (cf c 0 1) g.pins }), [])))

/-- MODEL_RELEASE: ends a quarantine; BAD_STATE where the slot has none. One that comes in a commit window is seen by plan k+2 (R38). -/
def execModelRelease (mb : Nat) (s : State) : Host.Outcome State Fault Refusal :=
  .next (runI s mb 0x74 (fun c s => do
    need (cf c 0 1 < 16) St.badArgument
    need (s.plan.quar.contains (cf c 0 1)) St.badState
    .ok (s.onPlan (fun p => { p with
      quar := setDel (cf c 0 1) p.quar, faultRun := tabDel (cf c 0 1) p.faultRun
      released := if s.tick.inCommit then setAdd (cf c 0 1) p.released else p.released }), [])))

/-! ## Alloys (R296 to R300) -/

/-- Live generations of an id, oldest first. -/
def liveGens (s : State) (id : Nat) : List AlloyGen := s.models.gens.filter (fun g => g.id = id)

/-- References of a generation: requests bound to it in states other than FREE and CLOSING (R297). -/
def genRefs (s : State) (id gen : Nat) : Nat :=
  (s.req.table.filter (fun p => reqLive p.2.state && p.2.alloyEn && p.2.alloyId = id && p.2.alloyGen = gen)).length

/-- The newest generation of an id that is loading or has been RESIDENT: its number and its place in the order of acceptance. -/
def newestGen (s : State) (id : Nat) : Nat × Nat :=
  ((liveGens s id).filter (fun g => g.state = .loading)).foldl (fun (b : Nat × Nat) g => if b.2 ≤ g.order then (g.gen, g.order) else b)
    (tabGetD id (0, 0) s.models.lastGen)

/-- The number of the next generation of an id: after the newest that it holds or has held (R298). -/
def nextGen (s : State) (id : Nat) : Nat := (newestGen s id).1 % 255 + 1

/-- The factors of a generation fit under the ceiling on every stack (R299). -/
def alloyFits (s : State) (per : List Nat) : Bool :=
  (List.range 16).all (fun c => sumN (s.models.gens.map (fun g => nth g.perStack c 0)) + nth per c 0 ≤ rf s.regs.mdCtl 12 0 * 512)

/-- Bytes of the factors of one layer on a logical cluster: for each projection of the mask A and then B, BF16 (R296). -/
def layerFactors (i : ModelInfo) (rank mask c : Nat) : Nat :=
  sumN ((List.range 7).map (fun p => if bit mask p then 2 * rank * ((nth (nth i.shapes c []) p (0, 0)).1 + (nth (nth i.shapes c []) p (0, 0)).2) else 0))

/-- Row granules of the factors of one layer on a logical cluster: one contiguous run (R299). -/
def factorRun (i : ModelInfo) (b : List Byte) (c : Nat) : Nat := ceilDiv (layerFactors i (field b 5 1) (field b 6 1) c) 2048

/-- Bytes of an Alloy image, from its start to the end of its last cluster section. -/
def alloyLength (i : ModelInfo) (b : List Byte) : Nat :=
  (List.range 16).foldl (fun m c => max m (field b (72 + 8 * c) 8 + i.layers * layerFactors i (field b 5 1) (field b 6 1) c)) 256

/-- Factor granules on each stack. -/
def factorsPer (s : State) (i : ModelInfo) (b : List Byte) : List Nat :=
  (List.range 16).map (fun k => sumN (((List.range 16).filter (fun c => nth s.faults.clmap c c = k)).map (fun c => i.layers * factorRun i b c)))

/-- Places the factors: for each cluster and layer one contiguous run in one bank (R299). Gives (cluster, layer, stack, granule, count). -/
def placeFactors (s : State) (i : ModelInfo) (b : List Byte) : Option (List (Nat × Nat × Nat × Nat × Nat)) :=
  (List.range 16).foldl (fun (q : Option (List (Nat × Nat × Nat × Nat × Nat))) c => q.bind (fun q =>
    let stack := nth s.faults.clmap c c
    let n := factorRun i b c
    if n = 0 then some q
    else
      (placeOn s (q.map (fun x => (x.2.2.1, x.2.2.2.1, x.2.2.2.2))) stack (8192 + c) (List.replicate i.layers { rows := n })).map (fun l =>
        q ++ l.zipIdx.map (fun x => (c, x.2, stack, x.1, n))))) (some [])

/-- The generation that an accepted load makes, its factors at their places. -/
def newGen (s : State) (id n addr : Nat) (b : List Byte) (l : List (Nat × Nat × Nat × Nat × Nat)) : AlloyGen :=
  { id := id, gen := nextGen s id, modelSlot := n, addr := addr, granules := sumN (factorsPer s (s.mslot n).info b), perStack := factorsPer s (s.mslot n).info b
    base := l.map (fun x => (x.1, x.2.1, granAddr x.2.2.1 x.2.2.2.1 0)), spans := l.map (fun x => (x.2.2.1, x.2.2.2.1, x.2.2.2.2)), order := s.models.accepted }

/-- ALLOY_LOAD: the refusals of R298; then an unreferenced older generation freed, and the new generation LOADING, its factors allocated by what
the image's header states (R299). A load that is refused frees nothing (R357). -/
def execAlloyLoad (mb : Nat) (r : AlloyRead) (s : State) : Host.Outcome State Fault Refusal :=
  .next (runL s mb 0x75 (fun c s => do
    let id := cf c 0 2
    let n := cf c 2 1
    let l := liveGens s id
    need (hasAlloy s.variant) St.unsupportedUnit
    need (id < 4096 && n < 16) St.badArgument
    need ((s.mslot n).state = .resident) St.modelNotResident
    need ((s.mslot n).info.alloyShapes && l.all (fun g => g.modelSlot = n)) St.badArgument
    let old := l.head?
    need (l.length < 2 || match old with | none => true | some g => g.state ≠ .loading && genRefs s id g.gen = 0) St.busyGeneration
    let t := if l.length < 2 then s else match old with | none => s | some g => s.freeGen id g.gen none St.cancelled
    let i := (s.mslot n).info
    need (imgPlaced s (cf c 8 8) 256) St.badAddress
    if !(alloyFits t (factorsPer t i r.image) && sumN (factorsPer t i r.image) ≤ t.tier.t1Free) then .ok (s.refuse.complete c St.noSpace [])
    else
      match placeFactors t i r.image with
      | none => .ok (s.refuse.complete c St.noSpace [])
      | some q =>
        let g := newGen t id n (cf c 8 8) r.image q
        .ok (((((t.draw).onModels (fun m => { m with gens := m.gens ++ [g], accepted := m.accepted + 1 })).onTier (fun t =>
          { t with t1Free := t.t1Free - g.granules })).beginMove 2 (g.gen * 4096 + id) 0 0 (alloyLength i r.image)).setCmd { c with phase := 1, aux := g.gen * 4096 + id })))

/-- The cluster sections of an Alloy image, as its header gives them, lie on 2 KiB boundaries behind the header, and no two share a byte. -/
def alloySectionsOk (i : ModelInfo) (b : List Byte) : Bool :=
  let sec := fun c => (field b (72 + 8 * c) 8, i.layers * layerFactors i (field b 5 1) (field b 6 1) c)
  (List.range 16).all (fun c => (sec c).1 % 2048 = 0 && ((sec c).2 = 0 || 256 ≤ (sec c).1) &&
    (List.range c).all (fun d => (sec c).2 = 0 || (sec d).2 = 0 || apart (sec d) (sec c)))

/-- Check 2 of Table 12-4 against the header of Table 12-6. -/
def alloyHeaderOk (i : ModelInfo) (b : List Byte) : Bool :=
  let mask := field b 6 1
  field b 0 4 = 0x4C414C31 && field b 4 1 = 1 && inRange (field b 5 1) 1 64 && inRange mask 1 127 && field b 7 1 = 0 && field b 8 32 = i.fp.toNat
    && (List.range 7).all (fun p => bit mask p || field b (40 + 4 * p) 4 = 0) && field b 68 4 = i.layers
    && allZero (slice b 200 56) && alloySectionsOk i b

/-- The status of an Alloy load: the first of checks 1, 2 and 7 of Table 12-4 that fails, the first two as far as what was read decides them
(R298); its header states no fingerprint of its own for check 8 to compare. -/
def alloyStatus (s : State) (i : ModelInfo) (addr : Nat) (r : AlloyRead) : Nat :=
  let head := !r.fail || decide (256 ≤ r.image.length)
  if head && !imgPlaced s addr (alloyLength i r.image) then St.badAddress
  else if head && !alloyHeaderOk i r.image then St.badImage
  else if r.fail then St.faultTier2
  else St.ok

/-- What is written of an Alloy image: for each placed run the factors of its cluster and layer. -/
def factorPieces (i : ModelInfo) (g : AlloyGen) (b : List Byte) : List (Nat × Nat × List Byte) :=
  (g.base.zip g.spans).map (fun x =>
    let n := layerFactors i (field b 5 1) (field b 6 1) x.1.1
    (x.2.1, x.2.2.1, slice b (field b (72 + 8 * x.1.1) 8 + x.1.2.1 * n) n))

/-- The generation as its verified image makes it RESIDENT. -/
def residentGen (g : AlloyGen) (i : ModelInfo) (b : List Byte) : AlloyGen :=
  { g with state := .resident, golden := factorPieces i g b, fp := BitVec.ofNat 256 (leNat (sha256 (slice b 0 (alloyLength i b)))), rank := field b 5 1, projMask := field b 6 1
           alpha := (List.range 7).map (fun p => BitVec.ofNat 32 (field b (40 + 4 * p) 4)) }

/-- A generation is RESIDENT: the newest its id has held, unless a newer one has been. -/
def noteGen (g : AlloyGen) (l : List (Nat × Nat × Nat)) : List (Nat × Nat × Nat) :=
  if (tabGetD g.id (0, 0) l).2 ≤ g.order then tabPut g.id (g.gen, g.order) l else l

/-- ALLOY_GEN_RESIDENT: in the commit window after its last granule has been read, its transfer served, the generation is RESIDENT, or its load
fails. -/
def execAlloyGenResident (id gen : Nat) (r : AlloyRead) (s : State) : Host.Outcome State Fault Refusal :=
  .next (
    match s.models.gens.find? (fun g => g.id = id && g.gen = gen) with
    | none => s
    | some g =>
      let i := (s.mslot g.modelSlot).info
      let st := alloyStatus s i g.addr r
      if !(settlesLong s && s.sceolUp && g.state = .loading && (r.fail || moveDone s 2 (gen * 4096 + id))) then s
      else if st ≠ St.ok then s.freeGen id gen none st
      else
        let c := alloyCmd s id gen
        let s := (((s.endMove 2 (gen * 4096 + id)).translateTier g.addr (alloyLength i r.image)).onMem (placePieces (factorPieces i g r.image))).onModels (fun m => { m with
          gens := m.gens.map (fun (x : AlloyGen) => if x.id = id && x.gen = gen then residentGen g i r.image else x), lastGen := noteGen g m.lastGen })
        match c with
        | none => s
        | some c => s.complete c St.ok (leBytes 1 gen))

/-- ALLOY_RETIRE: freed with no references, else RETIRING; NOT_FOUND where it is not live (R300); UNSUPPORTED_UNIT on a device without Alloy
units (R6). -/
def execAlloyRetire (mb : Nat) (s : State) : Host.Outcome State Fault Refusal :=
  .next (runT s mb 0x76 (fun c s => do
    let id := cf c 0 2
    let gen := cf c 2 1
    need (hasAlloy s.variant) St.unsupportedUnit
    need (genLive s id gen) St.notFound
    if genRefs s id gen = 0 then .ok (s.freeGen id gen none St.cancelled, [])
    else .ok (s.onModels (fun m => { m with gens := m.gens.map (fun (g : AlloyGen) => if g.id = id && g.gen = gen then { g with state := .retiring } else g) }), [])))

/-- A RETIRING generation whose references have fallen to 0 is freed (R300). -/
def State.freeRetired (s : State) : State :=
  (s.models.gens.filter (fun g => g.state = .retiring && genRefs s g.id g.gen = 0)).foldl (fun t g => t.freeGen g.id g.gen none St.cancelled) s

/-- A request with follow set that runs is bound to the current generation of its Alloy where that one is newer (R302). -/
def followReq (s : State) (slot : Nat) (r : Request) : Request :=
  if !r.flags.follow || !r.alloyEn || !(r.state = .prefilling || r.state = .decoding) || s.req.unsettled.contains slot then r
  else
    match currentGen s r.alloyId r.modelSlot, s.models.gens.find? (fun g => g.id = r.alloyId && g.gen = r.alloyGen) with
    | some g, some old => if old.order < g.order then { r with alloyGen := g.gen, alloyFollowed := true } else r
    | _, _ => r

/-- FOLLOW for every request. -/
def State.followAll (s : State) : State :=
  (s.onReq (fun u => { u with table := u.table.map (fun p => (p.1, followReq s p.1 p.2)) })).closeAlloyLost

/-- An image read fails, before the events of a commit window: check 7 of Table 12-4. A target below 16 is a model slot, one above is 16 plus
4,096 times the generation plus the Alloy id. -/
def State.failImage (s : State) (target : Nat) : State :=
  if target < 16 then if (s.mslot target).state = .loading then s.failLoad target St.faultTier2 else s
  else
    let id := (target - 16) % 4096
    let gen := (target - 16) / 4096
    if s.models.gens.any (fun g => g.id = id && g.gen = gen && g.state = .loading) then s.freeGen id gen none St.faultTier2 else s

/-- Loads whose reads have timed out end as a commit window opens. -/
def State.failLateLoads (s : State) : State :=
  (s.tier.moves.filter (·.late)).foldl (fun t m => t.failImage (if m.kind = 1 then m.key else 16 + m.key)) s

end Sys2Proof.Machine
end

