-- ==== Sys2Proof/Machine/HostPorts.lean ====
section
/-! DEFINITION. Host ports: loss, return and rebinding (R339, R348 to R350), reissue of unconfirmed writes (R375), flush reads (R345),
failed transfers (R344, Table 15-4), the MSI-X table (R347), the debug window (R343) and writes of registers by their access codes
(R8).
Readings of the spec: logs 26, 27. -/

namespace Sys2Proof.Machine

open Sys2Proof

/-! ## Ports down and up (R349, R350) -/

/-- single_port: after READY one function alone is enabled (R339). -/
def State.noteSingle (s : State) : State :=
  let after : Bool := match s.start.state with
    | .off => false
    | .boot => false
    | .train => false
    | _ => true
  s.onHost (fun h => { h with singlePort := after && decide (((List.range 2).filter (fun p => (nth h.ports p {}).memEnable)).length = 1) })

/-- A host port is declared down: it issues nothing from now on, and its rebinding is due (R349). -/
def State.declareDown (s : State) (p : Nat) : State :=
  if s.portUp p then
    ((((s.serveTier.modHport p (fun h => { h with up := false, declared := true, flushes := [], cache := [] })).onHost (fun h => { h with rebind := true })).noteSingle).portsChanged).capChanged
  else s

/-- HOST_PORT_DOWN: its link leaves DL_Active, its function is reset or loses bus mastering, or it sees 8 time-outs in 1 ms. The first two take
its BAR0 away (R353). -/
def execHostPortDown (t port : Nat) (cause : PortCause) (s : State) : Host.Outcome State Fault Refusal :=
  let s := s.atTime t
  let off : Bool := match cause with
    | .reset => true
    | .busMaster => true
    | _ => false
  let gone : Bool := match cause with
    | .reset => true
    | .link => true
    | _ => false
  .next (((s.modHport port (fun h => { h with memEnable := h.memEnable && !off, bar := h.bar && !gone })).declareDown port).noteSingle)

/-- A port may train and be used: the PCIe ports have trained, and its die is healthy. -/
def mayTrain (s : State) (p : Nat) : Bool := p < 2 && !s.portUp p && !s.faults.hxFailed.contains p && 4 ≤ s.start.stage && s.start.state ≠ .off

/-- HOST_PORT_UP: a port trains to a rate and width it supports, with its function enabled: its BAR0 is there, and where its port_en bit is set it
is up. It takes bindings only where no port was up (R349, R350, R354). -/
def execHostPortUp (t port gts lanes : Nat) (s : State) : Host.Outcome State Fault Refusal :=
  let s := s.atTime t
  .next (
    if mayTrain s port && linkOk gts lanes then
      let none' := s.noPort
      let s := (s.serveTier.modHport port (fun h => { h with bar := true, memEnable := true, gts := gts, lanes := lanes })).noteSingle
      if bit s.regs.hxCtl.toNat port then
        (((s.modHport port (fun h => { h with up := true })).onHost (fun h => { h with rejoin := h.rejoin || none' })).portsChanged).capChanged
      else s
    else s)

/-! ## Rebinding and reissue (R349, R375) -/

/-- The port that bindings move to: the lowest that is up and has not gone down since the last commit window, else the lowest up. -/
def survivor (s : State) : Option Nat :=
  match [0, 1].find? (fun p => s.portUp p && !(s.hport p).declared) with
  | some p => some p
  | none => s.lowPort

/-- Unconfirmed writes of the commit-write log that some ports have posted or hold are issued again in log order, each on the port that
a map gives, before any later write and with the same bytes; other writes of those ports follow. -/
def State.reissue (s : State) (bad : Nat → Bool) (dest : Nat → Nat) : State :=
  let log := s.req.log.filter (fun w => !w.confirmed && bad w.port)
  let rest := s.host.posted.filter (fun w => bad w.port && !s.req.log.contains w)
  let s := s.onReq (fun r => { r with log := r.log.map (fun w => if !w.confirmed && bad w.port then { w with port := dest w.port, issued := s.tick.index } else w) })
  let s := s.onHost (fun h => { h with posted := h.posted.filter (fun w => !bad w.port) })
  (log ++ rest).foldl (fun t w => t.issue { w with port := dest w.port }) s

/-- Every unconfirmed write is issued again on its own port (R375). -/
def State.reissueAll (s : State) : State := s.reissue (fun _ => true) (fun p => p)

/-- In a commit window after a port was declared down, or came up with none up: rings, requests and unconfirmed writes of ports that
are down or were declared down move to the surviving port, and vector 0 is raised. -/
def State.rebindPorts (s : State) : State :=
  if !(s.host.rebind || s.host.rejoin) then s
  else
    match survivor s with
    | none => s
    | some q =>
      let bad := fun p => !s.portUp p || (s.hport p).declared
      let move := fun p => if bad p then q else p
      let s := s.onReq (fun r => { r with
        rings := r.rings.map (fun x => (x.1, { x.2 with port := move x.2.port }))
        table := r.table.map (fun x => (x.1, { x.2 with port := move x.2.port })) })
      let s := s.onHost (fun h => { h with rebind := false, rejoin := false, ports := h.ports.map (fun x => { x with declared := false }) })
      (s.reissue bad (fun _ => q)).raiseLow 0

/-! ## Flush reads (R345) -/

/-- The host address that a port's flush read targets, the first of: the head word of the lowest registered ring bound to it, that of the
lowest registered ring, the stream ring of its lowest live request (R345). -/
def flushTarget (s : State) (p : Nat) : Option Nat :=
  let rings := s.req.rings.filter (fun r => r.2.registered)
  match rings.find? (fun r => r.2.port = p), rings, s.req.table.find? (fun r => reqLive r.2.state && r.2.port = p) with
  | some r, _, _ => some r.2.headAddr
  | none, r :: _, _ => some r.2.headAddr
  | none, [], some r => some r.2.ringAddr
  | none, [], none => none

/-- After the last write of a commit window each port that holds unconfirmed writes of the log issues one zero-length read. -/
def State.flushRead (s : State) (p : Nat) : State :=
  match flushTarget s p with
  | none => s
  | some a =>
    if s.portUp p && s.req.log.any (fun w => w.port = p && !w.confirmed) then
      (s.translate p a 0).modHport p (fun h => { h with flushes := h.flushes ++ [(s.tick.index, a)] })
    else s

/-- FLUSH_READ_COMPLETE: the oldest flush read of a port returns: the writes it followed are confirmed, and the HOST blocks they left from are
released (Table 8-2, log 35). -/
def execFlushReadComplete (t port : Nat) (s : State) : Host.Outcome State Fault Refusal :=
  let s := s.atTime t
  .next (
    if !s.portUp port then s
    else
      match (s.hport port).flushes with
      | [] => s
      | (k, _) :: rest =>
        let s := (s.modHport port (fun h => { h with flushes := rest })).closeTransit .host (64 + port)
        let s := s.onReq (fun r => { r with log := r.log.map (fun w => if w.port = port && w.issued ≤ k then { w with confirmed := true } else w) })
        s.onHost (fun h => { h with posted := h.posted.filter (fun w => !(w.port = port && w.issued ≤ k)) }))

/-- Entries leave the log once confirmed and older than two commit windows (R374). -/
def State.trimLog (s : State) : State :=
  s.onReq (fun r => { r with log := r.log.filter (fun w => !(w.confirmed && w.tick + 2 ≤ s.tick.index)) })

/-! ## Failed transfers (R344, Table 15-4) -/

/-- A descriptor read fails: the descriptor completes BAD_ADDRESS, or, where its completion field cannot be written, the ring stops. -/
def State.failDescriptor (s : State) (n : Nat) (complFail : Bool) : State :=
  let g := s.ring n
  if admissionOpen s && nextRing s = some n then
    let t := (s.consume n).closeTransit .host n
    if complFail then t.stopRing n else t.hostWrite g.port (g.addr + g.consumed % ringSize g * 256 + 248) 0 (completionField t St.badAddress)
  else s

/-- A write of a ring fails: the ring stops. -/
def State.failRing (s : State) (n : Nat) : State :=
  match tabGet n s.req.rings with
  | none => s
  | some g => if g.stopped then s else s.stopRing n

/-- A sequence number lies at or after that of a failure seen before, within half the numbers. -/
def failsAfter (first : Option Nat) (seq : Nat) : Bool :=
  match first with
  | none => false
  | some x => (seq + two32 - x) % two32 < 2147483648

/-- A stream-ring write fails at a sequence number: no TOKEN entry follows, and FINAL takes the first such number; the request closes
with the status already fixed for it, or FAULT_HOST_DMA. A failure at or after one seen before adds nothing. -/
def State.failStream (s : State) (slot seq : Nat) : State :=
  match s.req? slot with
  | none => s
  | some r =>
    if failsAfter r.failedSeq (seq % two32) then s
    else
    let s := s.modReq slot (fun q => { q with failedSeq := some (seq % two32) })
    let back := (r.nextSeq + two32 - seq % two32) % two32
    let s := s.modReq slot (fun q => { q with nextSeq := if back < 2147483648 then seq % two32 else q.nextSeq, outs := [], withheld := 0 })
    let s := s.onReq (fun u => { u with outsDue := u.outsDue.map (fun o => if o.1 = slot then (o.1, [], o.2.2) else o) })
    if r.state = .closing then
      if r.closeStatus = St.migrated || s.req.outsDue.any (fun o => o.1 = slot) then s else s.writeFinal slot r.closeStatus
    else s.closeSoon slot St.faultHostDma

/-- A failed tier-2 read or write of a page group is handled in a commit window: this one, or the next to open (R264, R285). -/
def State.failTier2 (s : State) (h : Nat) : State :=
  if s.tick.inCommit then (s.readFailed h).demotionFailed h else s.onFaults (fun f => { f with lossDue := f.lossDue ++ [.tier2 h] })

/-- A failed image read is handled in a commit window before its events: this one, or the next to open (R289, R293). -/
def State.noteImageFail (s : State) (target : Nat) : State :=
  if settlesLong s then s.failImage target else s.onFaults (fun f => { f with lossDue := f.lossDue ++ [.image target] })

/-- HOST_DMA_FAIL: a host transfer fails, and is handled by its kind. For a descriptor, a nonzero seq says that its completion field
cannot be written either; for a stream-ring write, seq is the entry's sequence number. -/
def execHostDmaFail (t : Nat) (kind : XferKind) (target : Nat) (seq : Nat) (s : State) : Host.Outcome State Fault Refusal :=
  let s := s.atTime t
  .next (
    match kind with
    | .descriptor => s.failDescriptor target (seq ≠ 0)
    | .completion => s.failRing target
    | .head => s.failRing target
    | .prompt => if reqLive (s.reqState target) then s.closeSoon target St.faultHostDma else s
    | .stream => s.failStream target seq
    | .tier2 => s.failTier2 target
    | .image => s.noteImageFail target)

/-- ATS_INVALIDATION: the transactions that use the translation complete and the port drops it (R344). -/
def execAtsInvalidation (t port page : Nat) (s : State) : Host.Outcome State Fault Refusal :=
  .next ((s.atTime t).modHport port (fun h => { h with cache := setDel page h.cache }))

/-! ## The MSI-X table (R347) -/

/-- The port of a vector's source: that of its submission ring, or of a request that notifies by it; else the lowest that is up. -/
def vectorPort (s : State) (v : Nat) : Option Nat :=
  let bound := if 2 ≤ v && v < 66 then (tabGet (v - 2) s.req.rings).map (·.port)
    else (s.req.table.find? (fun r => r.2.flags.notify && 66 + r.1 % 1982 = v)).map (·.2.port)
  match bound with
  | some p => if s.portUp p then some p else s.lowPort
  | none => s.lowPort

/-- One dword of an entry: address low, address high, data, vector control. -/
def msixSet (part v : Nat) (e : MsixEntry) : MsixEntry :=
  if part = 0 then { e with addr := e.addr / two32 * two32 + v % two32 / 4 * 4 }
  else if part = 1 then { e with addr := v % two32 * two32 + e.addr % two32 }
  else if part = 2 then { e with data := v % two32 }
  else { e with masked := bit v 0 }

/-- A dword of the table is written; a pending vector that is no longer masked is raised. -/
def State.msixWrite (s : State) (offset v : Nat) : State :=
  let n := offset / 16
  if offset % 4 ≠ 0 || 32768 ≤ offset then s
  else
    let s := s.onHost (fun h => { h with msix := tabUpd n {} (msixSet (offset % 16 / 4) v) h.msix })
    if s.host.pba.contains n && !(tabGetD n ({} : MsixEntry) s.host.msix).masked then
      (s.onHost (fun h => { h with pba := setDel n h.pba })).raiseVector n ((vectorPort s n).getD 0)
    else s

/-- MSIX_TABLE_WRITE. -/
def execMsixTableWrite (offset : Nat) (value : BitVec 32) (s : State) : Host.Outcome State Fault Refusal :=
  .next (if !s.barAny || s.start.warmRunning then s else s.msixWrite offset value.toNat)

/-! ## The command ports (R144, R172) -/

/-- The state an outcome gives, where it gives one. -/
def nextOr (s : State) (o : Host.Outcome State Fault Refusal) : State :=
  match o with
  | .next t => t
  | _ => s

/-- A job number of no model slot: commands from control space belong to no job. -/
def noJob : Nat := 16

/-- Words of a bank-unit command: its word, and those that carry its extension or payload (Table 5-7). -/
def buWords (op : Nat) : Nat :=
  if op = 1 then 19 else if op = 2 then 3 else if op = 3 then 33 else if op = 6 || op = 7 || op = 8 || op = 11 then 2 else 1

/-- Runs a whole bank-unit command from control space; a reserved opcode is rejected. -/
def buPortRun (cl : Nat) (w : U128) (rest : List U128) (s : State) : State :=
  let x := rest.headD 0
  let op := buOp w
  if op = 0 then nextOr s (execBuNop cl noJob w s)
  else if op = 1 then nextOr s (execQload cl noJob w { words := rest } s)
  else if op = 2 then nextOr s (execGload cl noJob w rest s)
  else if op = 3 then nextOr s (execTload cl noJob w rest s)
  else if op = 4 then nextOr s (execAclr cl noJob w s)
  else if op = 5 then nextOr s (execPass cl noJob w [] s)
  else if op = 6 then nextOr s (execDrain cl noJob w x s)
  else if op = 7 then nextOr s (execCopy cl noJob w x [] s)
  else if op = 8 then nextOr s (execGather cl noJob w x [] s)
  else if op = 9 then nextOr s (execFill cl noJob w s)
  else if op = 11 then nextOr s (execTlogrd cl noJob w x s)
  else s

/-- A word written to BU_CMD: a command runs once all its words have come. -/
def State.buPort (s : State) (cl : Nat) (w : U128) : State :=
  let ws := (s.bcl cl).port ++ [w]
  let s := s.modBcl cl (fun c => { c with port := ws })
  match ws with
  | [] => s
  | h :: rest => if ws.length < buWords (buOp h) then s else buPortRun cl h rest (s.modBcl cl (fun c => { c with port := [] }))

/-- A word written to MX_CMD runs as a matrix command. -/
def State.mxPort (s : State) (cl : Nat) (w : U128) : State :=
  let op := mxOp w
  if op = 0 then nextOr s (execMxNop cl noJob w s)
  else if op = 1 then nextOr s (execIload cl noJob w s)
  else if op = 2 then nextOr s (execGopen cl noJob w s)
  else if op = 3 then nextOr s (execMpass cl noJob w [] s)
  else if op = 4 then nextOr s (execGclose cl noJob w s)
  else if op = 5 then nextOr s (execGfree cl noJob w s)
  else if op = 6 then nextOr s (execApass cl noJob w 0 0 0 { logical := cl } s)
  else if op = 7 then nextOr s (execSpload cl noJob w s)
  else if op = 8 then nextOr s (execSpinv cl noJob w s)
  else if mxTakes s cl noJob then mxFault s cl noJob op (if op = 9 || op = 10 then 2 else 1) 0
  else s

/-! ## Writes of control space (R8) -/

/-- The dwords of an aligned write: (offset within it, value). -/
def dwords (bs : List Byte) : List (Nat × Nat) := (List.range (bs.length / 4)).map (fun k => (4 * k, field bs (4 * k) 4))

/-- An RW register is written: it takes values in range that leave its reserved bits zero; JOURNAL's class and a register of an absent
unit take none. A new value applies under R44. -/
def State.rwWrite (s : State) (g : RwReg) (v : Nat) : State :=
  let b := BitVec.ofNat 32 v
  let r := rwSet s.cfgNext.regs b g
  if rwOk v g && b &&& rwReserved g = 0 && g ≠ .classCfg 5 && classesOk r.classCfg && (g ≠ .mdCtl || hasAlloy s.variant) then
    s.onCfgNext (fun c => { c with regs := r })
  else s

/-- Write-one-to-clear bits: of IV_STAT, BU_RCHK_INFO and MX_FAULT_INFO (Tables 2-9, 5-17, 6-15). -/
def State.w1c (s : State) (off v : Nat) : State :=
  let page := off / 65536
  let low := off % 65536
  if off = 0x4000C then
    s.onTick (fun k => { k with refLost := k.refLost && !bit v 3, ppsSeen := k.ppsSeen && !bit v 0 })
  else if 0x10 ≤ page && page < 0x20 && low = 0x28 && bit v 31 then
    s.modBcl (page - 0x10) (fun c => { c with rchkInfo := c.rchkInfo &&& 0x7FFFFFFF })
  else if 0x20 ≤ page && page < 0x30 && low = 0x28 && bit v 31 then
    s.modMcl (page - 0x20) (fun c => { c with faultInfo := c.faultInfo &&& 0x7FFFFFFF })
  else s

/-- One dword of control space is written, by the access code of what stands there; a read-only register ignores it. -/
def State.ctlDword (s : State) (off v : Nat) : State :=
  match rwAny off with
  | some g => s.rwWrite g v
  | none =>
    if off = 0x40008 then if v < 16 && v % 4 ≠ 3 then s.onCfgNext (fun g => { g with ivCtl := BitVec.ofNat 32 v }) else s
    else if off = 0x40100 then
      if tickOk (v % 65536) (v / 65536) && !s.tick.inGroup then
        s.pendLengths (v % 65536) (v / 65536) (firstTick s)
      else s
    else s.w1c off v

/-- A lane of an accumulation group is written (R167). -/
def State.setAcc (s : State) (off : Nat) (v : BitVec 32) : State :=
  let p := accPlace off
  if accAt off && accOpen s then
    s.modMcl p.1 (fun c => { c with groups := tabUpd p.2.1 {} (fun g => { g with lanes := if v = 0 then tabDel p.2.2 g.lanes else tabPut p.2.2 v g.lanes }) c.groups })
  else s

/-- A write of control space at an offset: a command port takes whole 128-bit words in MAINTENANCE alone; accumulators and registers
take aligned dwords. -/
def State.ctlWrite (s : State) (off : Nat) (bs : List Byte) : State :=
  let page := off / 65536
  if off % 65536 = 0 && 0x10 ≤ page && page < 0x30 then
    if bs.length = 16 && s.start.state = .maintenance then
      let w := BitVec.ofNat 128 (leNat bs)
      if page < 0x20 then s.buPort (page - 0x10) w else s.mxPort (page - 0x20) w
    else s
  else if off % 4 ≠ 0 || bs.length % 4 ≠ 0 then s
  else if accAt off then (dwords bs).foldl (fun t d => t.setAcc (off + d.1) (BitVec.ofNat 32 d.2)) s
  else (dwords bs).foldl (fun t d => t.ctlDword (off + d.1) d.2) s

/-! ## The debug window and BAR0 (R340, R343) -/

/-- A write inside the debug window; outside MAINTENANCE it is counted in HX_DBG_DENIED. -/
def State.debugWrite (s : State) (off : Nat) (bs : List Byte) : State :=
  if !debugOpen s then s.onHost (fun h => { h with dbgDenied := (h.dbgDenied + 1) % two32 })
  else if off = 0x1000000 && bs.length = 8 then if leNat bs % 33554432 = 0 then s.onHost (fun h => { h with dbgBase := leNat bs }) else s
  else if 0x2000000 ≤ off && off + bs.length ≤ 0x4000000 then s.ctlWrite (s.host.dbgBase + (off - 0x2000000)) bs
  else s

/-- DEBUG_WINDOW_ACCESS: a read or a write at a BAR0 offset of the window; a read returns as many bytes as are given. During a warm reset
writes are dropped and reads return zero (R353). -/
def execDebugWindowAccess (write : Bool) (offset : Nat) (bytes : List (BitVec 8)) (s : State) : Host.Outcome State Fault Refusal :=
  .next (
    if !s.barAny || !(0x1000000 ≤ offset && offset < 0x4000000) then s
    else if write then if s.start.warmRunning then s else s.debugWrite offset bytes
    else s.answerWith ((List.range bytes.length).map (fun k => barByte s (offset + k))))

/-- MB_DONE: writing 1 clears the bit (Table 15-2). -/
def State.clearDone (s : State) (off : Nat) (bs : List Byte) : State :=
  s.onMb (fun m => { m with done := m.done.filter (fun n => !bit (leNat bs) (n - 8 * off) || n < 8 * off || 8 * (off + bs.length) ≤ n) })

/-- A host write of BAR0 outside the doorbells, which have commands of their own. Reserved and read-only offsets ignore it. -/
def State.barWrite (s : State) (off : Nat) (bs : List Byte) : State :=
  if !s.barAny || s.start.warmRunning then s
  else if 0x10000 ≤ off && off + bs.length ≤ 0x20000 then s.onMb (fun m => { m with bytes := Memory.writeN m.bytes (off - 0x10000) bs })
  else if 0x20100 ≤ off && off + bs.length ≤ 0x20120 then s.clearDone (off - 0x20100) bs
  else if 0x300000 ≤ off && off + bs.length ≤ 0x308000 && off % 4 = 0 && bs.length % 4 = 0 then
    (dwords bs).foldl (fun t d => t.msixWrite (off - 0x300000 + d.1) d.2) s
  else if 0x1000000 ≤ off && off < 0x4000000 then s.debugWrite off bs
  else s

/-- A write of control space, which the host reaches through the debug window alone: outside MAINTENANCE it is counted in HX_DBG_DENIED
(R343). -/
def State.windowWrite (s : State) (off : Nat) (bs : List Byte) : State :=
  if !s.barAny || s.start.warmRunning then s
  else if debugOpen s then s.ctlWrite off bs
  else s.onHost (fun h => { h with dbgDenied := (h.dbgDenied + 1) % two32 })

/-- REGISTER_WRITE: a write at an offset of BAR0, or of control space through the debug window, that follows the access code of what stands
there (R8). -/
def execRegisterWrite (t : Nat) (bar : Bool) (addr : Nat) (bytes : List (BitVec 8)) (s : State) : Host.Outcome State Fault Refusal :=
  let s := s.atTime t
  .next (if bar then s.barWrite addr bytes else s.windowWrite addr bytes)

end Sys2Proof.Machine
end

