-- ==== Sys2Proof/Machine/Faults.lean ====
section
/-! DEFINITION. Faults: SAFE_HALT and the degradation ladder (R394 to R396, R404), uncorrectable data and repairs (R384 to R390),
sparing (R391 to R393), hub dies (R18, R201), control and serving dies and the Sentinels (R397 to R401, R425).
Readings of the spec: logs 38 to 42. -/

namespace Sys2Proof.Machine

open Sys2Proof

/-! ## The Sentinels' I3C registers (R425, Table 19-5) -/

/-- Byte 0x01. -/
def sentinelFlags (s : State) : Byte :=
  BitVec.ofNat 8 (b2n s.faults.controlLost + 2 * b2n s.faults.orphan + 4 * b2n s.start.faultN + 8 * b2n s.start.thermAlertN + 16 * b2n s.power.tripped)

/-- An in-band interrupt is raised whenever byte 0x01 changes. -/
def State.noteSentinel (s : State) : State :=
  if sentinelFlags s = s.start.i3cByte1 then s else s.onStart (fun x => { x with i3cByte1 := sentinelFlags s, ibi := x.ibi + 1 })

/-- The register bytes 0x00 to 0x0F. -/
def sentinelBytes (s : State) : List Byte :=
  [BitVec.ofNat 8 (devCode s.start.state), sentinelFlags s, BitVec.ofNat 8 s.start.cause, 0] ++ leBytes 2 s.power.tickW
    ++ [BitVec.ofNat 8 s.power.logicMax, BitVec.ofNat 8 s.power.dramMax, BitVec.ofNat 8 s.power.tripCode, BitVec.ofNat 8 s.power.tripTemp]
    ++ List.replicate 6 0

/-- A Sentinel stands on its host die and is lost with it (Table 1-1, R400). -/
def sentinelUp (s : State) (n : Nat) : Bool := !s.faults.hxFailed.contains n && s.start.state ≠ .off

/-- The Sentinel that holds the lease is there (R401). -/
def holderUp (s : State) : Bool := sentinelUp s (b2n s.faults.lease1)

/-- I3C_WRITE: a private write sets the index byte of the Sentinel that holds the lease. -/
def execI3cWrite (index : Nat) (s : State) : Host.Outcome State Fault Refusal :=
  .next (if !holderUp s then s else s.onStart (fun x => { x with i3cIndex := index % 256 }))

/-- I3C_READ: bytes from the index onward; past 0x0F nothing is listed and zero is read. -/
def execI3cRead (count : Nat) (s : State) : Host.Outcome State Fault Refusal :=
  .next (if !holderUp s then s else s.answerWith (slice (sentinelBytes s) s.start.i3cIndex count))

/-! ## Work in progress is dropped (R35, R36) -/

/-- Every attempt of the tick ends with one outcome; a shard homed elsewhere counts none (R434), and an attempt of an earlier tick that waits
for its COMMIT_SET stays (R50). -/
def State.discardAll (s : State) (e : AttemptEnd) : State :=
  (s.plan.attempts.filter (fun a => !s.plan.heldRows.any (fun h => h.2.slot = a.slot))).foldl (fun t a =>
    match t.req? a.slot with
    | some r => if homedHere t r then t.endAttempt a.slot e else t.onPlan (fun p => { p with attempts := p.attempts.filter (fun x => x.slot ≠ a.slot) })
    | none => t.endAttempt a.slot e) s

/-- A job is stopped where it stands: its engine and store state is cleared, and nothing is saved (R36). -/
def State.stopJob (s : State) (m : Nat) : State :=
  ((((s.kernelClear m).allBcl (dropQueue m)).allMcl (fun c => dropHolds m (freeGroups m (fun _ => true) c))).returnStore m).modJob m
    (fun j => { j with finished := true, active := false, stopped := j.stopped || j.active, t1 := [], sp := [] })

/-- The kernels of the plan stop, saved jobs with them (R36, R108). -/
def State.stopKernels (s : State) : State :=
  let s := (s.plan.jobs.filter jobOpen).foldl (fun t j => t.stopJob j.modelSlot) s
  (s.allMcl (fun c => { c with save := [], savedScratch := [], groups := [], units := [], holds := c.holds.filter (·.ingot), queue := [] })).onPlan (fun p => { p with saved := none })

/-! ## Device states (R394, R404) -/

/-- SAFE_HALT: kernels stop, the attempts of the tick in progress are discarded with an outcome, ticks stop, FAULT_N is asserted. -/
def State.safeHalt (s : State) (e : AttemptEnd) : State :=
  if s.start.state = .safeHalt || s.start.state = .off then s
  else
    let s := s.stopKernels.discardAll e
    let s := (s.onTick (fun k => { k with running := false, inCommit := false, votingOpen := false, firstEdge := 0 })).onReq (fun r => { r with unsettled := [] })
    ((s.flushVectors).onStart (fun x => { x with state := .safeHalt, faultN := true, warmPending := false })).noteSentinel

/-- A cause of degradation arises: SERVING becomes DEGRADED. -/
def State.degrade (s : State) : State :=
  if s.start.state = .serving then s.onStart (fun x => { x with state := .degraded }) else s

/-- NEEDS_SERVICE is posted. -/
def State.needService (s : State) (arg : Nat) : State :=
  (s.onFaults (fun f => { f with needsService := true })).postEvent St.needsService arg 0

/-- A part is marked failed: the Capability Block changes, and the device is degraded. -/
def State.markFailed (s : State) (f : FaultUnit → FaultUnit) : State := ((s.onFaults f).capChanged).degrade

/-! ## Objects of tier 1 are placed again (R393, R395) -/

/-- Pool granules of a stack (Table 11-2). -/
def poolGranules (v : Variant) : Nat := poolBanks v * 32768 + 5120

/-- A part of tier 1 that is lost: a whole stack, or one bank of it; its replacement lies on a stack. -/
structure Lost where
  /-- stack -/
  stack : Nat := 0
  /-- bank, or the whole stack -/
  bank : Option Nat := none
  /-- stack that takes its objects -/
  dest : Nat := 0
  deriving DecidableEq, Repr, Inhabited

/-- A granule lies in a lost part. -/
def Lost.has (l : Lost) (stack g : Nat) : Bool := stack = l.stack && (match l.bank with | none => true | some b => g / 32768 = b)

/-- Stack and granule of a tier-1 address. -/
def granuleOf (a : Nat) : Nat × Nat := ((a - stackBase 0) / 0x1000000000, (a - stackBase 0) % 0x1000000000 / 2048)

/-- Objects being placed again: the state, where each lies now, and the runs taken. -/
structure Moving where
  /-- the state, with the bytes moved -/
  st : State
  /-- (stack, granule) of each object -/
  places : List (Nat × Nat) := []
  /-- runs taken -/
  taken : List (Nat × Nat × Nat) := []
  deriving DecidableEq, Repr

/-- One object is placed again where its granule is lost, at an open place that keeps R262, with its bytes where they can be read; it stays
where the stack has no place for it. -/
def moveRun (l : Lost) (readable : Bool) (q : Moving) (x : Want × Nat × Nat) : Moving :=
  if l.has x.2.1 x.2.2 then
    match placeOn q.st q.taken l.dest q.places.length [x.1] with
    | some (d :: _) =>
      { st := if readable then q.st.putBytes (granAddr l.dest d 0) (q.st.getBytes (granAddr x.2.1 x.2.2 0) (2048 * x.1.rows)) else q.st
        places := q.places ++ [(l.dest, d)], taken := q.taken ++ [(l.dest, d, x.1.rows)] }
    | _ => { q with places := q.places ++ [x.2] }
  else { q with places := q.places ++ [x.2] }

/-- Places objects again, one after the other. -/
def moveRuns (s : State) (l : Lost) (readable : Bool) (xs : List (Want × Nat × Nat)) : Moving := xs.foldl (moveRun l readable) { st := s }

/-- A page group's frames and map granules leave a lost part; where their contents cannot be read the group is to be rebuilt (R387). -/
def State.moveGroup (s : State) (l : Lost) (readable : Bool) (h : Nat) : State :=
  match s.group? h with
  | none => s
  | some g =>
    if (g.frames ++ g.map).any (fun p => l.has p.1 p.2) then
      let i := groupModel s g.modelSlot g.draft
      let w := placeOf s g
      let fs := (g.frames.zip (pagesOf i)).map (fun x => (pageWant s w x.2.1 x.2.2.1 (pageRows i x.2.2.1 x.2.2.2), x.1))
      let ms := (g.map.zip (pageClusters i)).map (fun x => (({ rows := metaOn i x.2 } : Want), x.1))
      let q := moveRuns s l readable (fs ++ ms)
      let frames := q.places.take fs.length
      let s := (q.st.draw).modGroup h (fun g => { g with frames := frames, map := q.places.drop fs.length })
      if !g.frames.any (fun p => l.has p.1 p.2) || readable then s
      else
        let s := s.onMem (writeSidecars i frames g.start (g.owner.getD 0) g.domain)
        let s := if g.state = .demoting then s.demotionFailed h else s
        s.setRebuild h
    else s

/-- Provisional frames that are placed again, from the k-th of the places on. -/
def movedProvs (l : List ProvFrame) (ps : List (Nat × Nat)) : List ProvFrame :=
  (l.zip ps).map (fun x => { x.1 with stack := x.2.1, granule := x.2.2 })

/-- The objects of a request move; what they say is held as data here, and their places and addresses change. -/
def State.moveObjects (s : State) (l : Lost) (readable : Bool) (slot : Nat) : State :=
  match s.req? slot with
  | none => s
  | some r =>
    if (requestSpans r).any (fun x => l.has x.1 x.2.1) then
      let q := moveRuns s l readable ((requestSpans r).map (fun x => ({ rows := x.2.2 }, x.1, x.2.1)))
      let objs := (r.objects.zip q.places).map (fun x => (x.2.1, x.2.2, x.1.2.2))
      let root := fun k a => if a = 0 then 0 else match objs[k]? with | none => a | some x => granAddr x.1 x.2.1 0
      let n := r.objects.length
      let prov := movedProvs r.prov (q.places.drop n)
      let dprov := movedProvs r.draftProv (q.places.drop (n + r.prov.length))
      let i := (s.mslot r.modelSlot).info
      ((q.st.draw).onMem (fun m => if readable then m else writeProvs (draftView i) dprov slot r.domain (writeProvs i prov slot r.domain m))).modReq slot
        (fun r => { r with objects := objs, prov := prov, draftProv := dprov
                           pageRoot := root 0 r.pageRoot, auxRoot := root 1 r.auxRoot, draftRoot := root 2 r.draftRoot })
    else s

/-- Runs of a list with those that were placed again at their new places. -/
def movedSpans (old : List (Nat × Nat)) (ps : List (Nat × Nat)) (spans : List (Nat × Nat × Nat)) : List (Nat × Nat × Nat) :=
  spans.map (fun x =>
    match (old.zip ps).find? (fun y => y.1 = (x.1, x.2.1)) with
    | none => x
    | some y => (y.2.1, y.2.2, x.2.2))

/-- Pieces of a golden copy at their places after their runs were placed again: those that lay in a lost part are written where they lie now. -/
def movedPieces (l : Lost) (old ps : List (Nat × Nat)) (pieces : List (Nat × Nat × List Byte)) : List (Nat × Nat × List Byte) :=
  pieces.map (fun x =>
    if l.has x.1 x.2.1 then match (old.zip ps).find? (fun y => y.1 = (x.1, x.2.1)) with | none => x | some y => (y.2.1, y.2.2, x.2.2) else x)

/-- Writes the pieces that have been placed again. -/
def rewritePieces (was now' : List (Nat × Nat × List Byte)) (m : Memory) : Memory :=
  placePieces (((was.zip now').filter (fun x => x.1 ≠ x.2)).map (·.2)) m

/-- The shard of a model on a logical cluster is placed again: its ingots and whatever else the model has in the lost part, read from the golden
image (R385, R395). -/
def State.moveShard (s : State) (l : Lost) (cl m : Nat) : State :=
  let x := s.mslot m
  let dir := (nth x.info.dirs cl []).flatten
  let ingots := dir.map (fun e => (({ parity := some 0, rows := ceilDiv (128 * ingotW e.fmt) 2048 + 1 } : Want), l.stack, e.granule))
  let rest := (x.info.spans.filter (fun y => l.has y.1 y.2.1 && !dir.any (fun e => e.granule = y.2.1))).map (fun y => (({ rows := y.2.2 } : Want), y.1, y.2.1))
  let runs := ingots ++ rest
  let q := moveRuns s l false runs
  let old := runs.map (·.2)
  let at' := fun (g : Nat) => (((old.zip q.places).find? (fun y => y.1 = (l.stack, g))).map (·.2.2)).getD g
  let golden := movedPieces l old q.places x.golden
  ((q.st.draw).onMem (rewritePieces x.golden golden)).modMslot m (fun x => { x with golden := golden, info := { x.info with
    dirs := x.info.dirs.set cl ((nth x.info.dirs cl []).map (fun k => k.map (fun e => { e with granule := at' e.granule })))
    spans := movedSpans old q.places x.info.spans } })

/-- Granules of the run of a generation's factors that starts at a place. -/
def factorRows (g : AlloyGen) (p : Nat × Nat) : Nat := ((g.spans.find? (fun x => (x.1, x.2.1) = p)).map (·.2.2)).getD 1

/-- Granules of a list of runs on each stack. -/
def perStackOf (l : List (Nat × Nat × Nat)) : List Nat := (List.range 16).map (fun k => sumN ((l.filter (fun x => x.1 = k)).map (·.2.2)))

/-- The factors of one Alloy generation on a logical cluster are placed again, read from its golden image; they count on the stack that has
them now (R299). -/
def State.moveAlloy (l : Lost) (cl : Nat) (s : State) (g : AlloyGen) : State :=
  let mine := g.base.filter (fun b => b.1 = cl)
  let runs := mine.map (fun b => (({ rows := factorRows g (granuleOf b.2.2) } : Want), granuleOf b.2.2))
  let q := moveRuns s l false runs
  let old := runs.map (·.2)
  let base := g.base.map (fun b =>
    match (mine.zip q.places).find? (fun x => x.1 = b) with | none => b | some x => (b.1, b.2.1, granAddr x.2.1 x.2.2 0))
  let spans := movedSpans old q.places g.spans
  let golden := movedPieces l old q.places g.golden
  ((q.st.draw).onMem (rewritePieces g.golden golden)).onModels (fun u => { u with gens := u.gens.map (fun (x : AlloyGen) =>
    if x.id = g.id && x.gen = g.gen then { x with base := base, spans := spans, perStack := perStackOf spans, golden := golden } else x) })

/-- The factors of the Alloys of a model on a logical cluster are placed again. -/
def State.moveAlloys (s : State) (l : Lost) (cl : Nat) : State := s.models.gens.foldl (State.moveAlloy l cl) s

/-! ## Pairs (R15, R394, R395) -/

/-- The next healthy physical cluster from one, in ascending order and wrapping, that hosts fewer than two logical clusters. -/
def hostFor (failed map : List Nat) (from' : Nat) : Option Nat :=
  ((upFrom (from' + 1) 15).map (· % 16)).find? (fun c => !failed.contains c && (map.filter (· = c)).length < 2)

/-- The map after a pair has failed: each logical cluster it hosted moves to its next host. -/
def remap (failed map : List Nat) (p : Nat) : List Nat :=
  (List.range 16).foldl (fun m n =>
    if nth m n 16 = p then match hostFor failed m p with | none => m | some c => m.set n c else m) map

/-- Mirrors of the Request Table after a pair has failed (R54). -/
def moveMirrors (failed mirrors : List Nat) (p : Nat) : List Nat :=
  if mirrors.contains p then
    let rest := setDel p mirrors
    match (List.range 16).find? (fun c => !failed.contains c && !rest.contains c) with
    | none => rest
    | some c => rest ++ [c]
  else mirrors

/-- The carried estimates of a lost cluster return to the model's initial values (Table 17-3). -/
def resetEstimates (i : ModelInfo) (lost : List Nat) (r : Request) : Request :=
  let onLost := fun (m : CarriedMax) => lost.any (fun c => (nth i.pageOrder c []).any (fun p => p.1 = m.layer && p.2 = m.head / max 1 i.groupQ))
  { r with
    scales := r.scales.map (fun x => if lost.contains x.cluster then
      ((initScales i).find? (fun y => y.tslot = x.tslot && y.cluster = x.cluster)).getD x else x)
    maxima := r.maxima.map (fun x => if onLost x then ((initMaxima i).find? (fun y => y.layer = x.layer && y.head = x.head)).getD x else x) }

/-- What a failed pair's stack held, page groups and the objects of requests, goes to the hosts of its logical clusters. -/
def State.evacuate (s : State) (p : Nat) (lost : List Nat) (map : List Nat) : State :=
  let l : Lost := { stack := p, dest := nth map (lost.headD p) p }
  let s := s.req.table.foldl (fun t q =>
    let inside := (granuleOf q.2.draftRoot).1 = p && q.2.draftRoot ≠ 0
    ((t.modReq q.1 (fun r => resetEstimates (t.mslot r.modelSlot).info lost
      (if inside && r.spec.source = 3 then { r with draftText := [] } else r))).moveObjects l false q.1)) s
  s.tier.groups.foldl (fun t g => t.moveGroup l false g.1) s

/-- The ladder of Table 17-7 for n healthy pairs. -/
def State.ladder (s : State) (p : Nat) : State :=
  let n := pairsHealthy s
  if n < 8 then (s.needService p).safeHalt .byFault
  else
    let s := s.degrade
    if n < 12 then (s.onFaults (fun f => { f with draining := true })).needService p else s.postEvent St.degraded p 0

/-- The draft block, the estimates or a copied object of a request is lost. -/
def State.loseObject (s : State) (kind : UncorrKind) (slot : Nat) (bothLost : Bool) : State :=
  match kind with
  | .tableEntry => if bothLost then
      (s.onReq (fun u => { u with table := tabDel slot u.table, edgeTable := tabDel slot u.edgeTable, unsettled := setDel slot u.unsettled })).onPlan
        (fun p => { p with attempts := p.attempts.filter (fun a => a.slot ≠ slot) })
    else s
  | .pageList => if bothLost then s.closeSoon slot St.faultDevice else s
  | .auxBlock => if bothLost then s.closeSoon slot St.faultDevice else s
  | .estimates => s.modReq slot (fun r => { r with scales := initScales (s.mslot r.modelSlot).info, maxima := initMaxima (s.mslot r.modelSlot).info })
  | .draft => s.modReq slot (fun r => if r.spec.source = 3 then { r with draftText := [] } else r)
  | _ => s

/-- A group whose page holds an uncorrectable codeword is to be rebuilt; a demotion of it is abandoned (R284, R387). -/
def State.losePage (s : State) (h : Nat) : State :=
  match s.group? h with
  | none => s
  | some g => (if g.state = .demoting then s.demotionFailed h else s).setRebuild h

/-- The objects of a retired bank of the pool move: ingots and factors are placed again, pages and objects of requests move (R393). -/
def State.leaveBank (s : State) (stack bank : Nat) : State :=
  let l : Lost := { stack := stack, bank := some bank, dest := stack }
  let s := s.onTier (fun t => { t with t1Free := t.t1Free - 32768 })
  let s := s.req.table.foldl (fun t q => t.moveObjects l true q.1) s
  let s := s.tier.groups.foldl (fun t g => t.moveGroup l true g.1) s
  (hosted s stack).foldl (fun t c =>
    let t := (t.models.slots.filter (fun m => m.2.state = .resident)).foldl (fun u m => u.moveShard l c m.1) t
    t.moveAlloys l c) s

/-- The state changes that follow from a loss, in a commit window (R37, R264). -/
def State.applyLoss (s : State) (l : LossDue) : State :=
  match l with
  | .pair p lost map =>
    (((s.onReq (fun r => { r with mirrors := moveMirrors s.faults.clFailed r.mirrors p })).onTier
      (fun t => { t with t1Free := t.t1Free - poolGranules s.variant })).evacuate p lost map)
  | .bank stack bank => s.leaveBank stack bank
  | .data .page target _ => s.losePage target
  | .tier2 h => s.failTier2 h
  | .image target => s.failImage target
  | .data kind target both => s.loseObject kind target both

/-- The state changes that follow from a loss are made at once in a commit window, and wait for the next one otherwise. -/
def State.noteLoss (s : State) (l : LossDue) : State :=
  if s.tick.inCommit then s.applyLoss l else s.onFaults (fun f => { f with lossDue := f.lossDue ++ [l] })

/-- The state changes that waited for this commit window, oldest loss first. -/
def State.applyLosses (s : State) : State :=
  s.faults.lossDue.foldl State.applyLoss (s.onFaults (fun f => { f with lossDue := [] }))

/-- A pair fails: the attempts of the tick drop, its logical clusters are to be hosted elsewhere, the device goes down the ladder; what its
stack held is given up in a commit window (R37, R264). In ORPHAN mode its handling needs firmware that is not there, and the device halts (R400). -/
def State.failPair (s : State) (p : Nat) : State :=
  if 16 ≤ p || s.faults.clFailed.contains p || s.start.state = .off then s
  else
    let s := (s.onFaults (fun f => { f with clFailed := (List.range 16).filter (fun c => c = p || f.clFailed.contains c) })).capChanged
    if s.faults.orphan then s.safeHalt .byFault
    else
      let map := s.faults.remapDue.getD s.faults.clmap
      let lost := (List.range 16).filter (fun n => nth map n 16 = p)
      let new := remap s.faults.clFailed map p
      let s := s.stopKernels.discardAll .byFault
      let s := (s.onBanks (tabDel p)).onMatrix (tabDel p)
      let s := s.onFaults (fun f => { f with
        remapDue := some new
        clsToPlace := if s.models.slots.any (fun m => m.2.state = .resident) then lost.foldl (fun l c => setAdd c l) f.clsToPlace else f.clsToPlace })
      (s.noteLoss (.pair p lost new)).ladder p

/-- CLUSTER_PAIR_FAILED. -/
def execClusterPairFailed (t pair : Nat) (s : State) : Host.Outcome State Fault Refusal := .next ((s.atTime t).failPair pair)

/-- CLMAP_SWITCH: every shard of the lost clusters has been read from its golden image into the host stack; the map switches at the
next tick edge (R395). -/
def execClmapSwitch (s : State) : Host.Outcome State Fault Refusal :=
  .next (
    match s.faults.remapDue with
    | none => s
    | some map =>
      let s := s.faults.clsToPlace.foldl (fun t c =>
        let l : Lost := { stack := nth t.faults.clmap c c, dest := nth map c c }
        let t := (t.models.slots.filter (fun m => m.2.state = .resident)).foldl (fun u m => u.moveShard l c m.1) t
        t.moveAlloys l c) s
      s.onFaults (fun f => { f with clsToPlace := [] }))

/-! ## Hub dies (R16 to R18, R201, R216) -/

/-- The two hub dies of each die, by its code (Table 1-4): clusters 0 to 15, link dies 26 to 33, control 34 and 35, serving 36 and 37,
host 38 and 39. -/
def bridges : List (Nat × Nat × Nat) :=
  [(0, 0, 1), (1, 1, 2), (2, 2, 3), (3, 3, 4), (4, 4, 5), (5, 5, 6), (6, 6, 7), (7, 7, 8), (8, 8, 9), (9, 0, 9), (10, 0, 5), (11, 1, 6), (12, 2, 7),
   (13, 3, 8), (14, 4, 9), (15, 2, 6), (26, 0, 5), (27, 1, 6), (28, 2, 7), (29, 3, 8), (30, 4, 9), (31, 0, 5), (32, 1, 7), (33, 3, 8), (34, 4, 9),
   (35, 0, 5), (36, 1, 7), (37, 3, 8), (38, 2, 9), (39, 4, 6)]

/-- Dies that have lost both their hub dies. -/
def isolatedDies (failed : List Nat) : List Nat := (bridges.filter (fun b => failed.contains b.2.1 && failed.contains b.2.2)).map (·.1)

/-- A link die fails: its ports go down (Table 18-5). -/
def State.linkDieFails (s : State) (n : Nat) : State :=
  if s.faults.lkFailed.contains n then s
  else
    let s := s.markFailed (fun f => { f with lkFailed := setAdd n f.lkFailed })
    ((List.range 21).filter (fun p => linkDieBad s p)).foldl (fun t p => if (t.gport p).trained then t.portFalls p (fun g => { g with trained := false, laneMask := 0 }) else t) s

/-- A host die fails: its port is declared down (R349, R350). -/
def State.hostDieFails (s : State) (n : Nat) : State :=
  if s.faults.hxFailed.contains n then s
  else (s.markFailed (fun f => { f with hxFailed := setAdd n f.hxFailed })).declareDown n

/-- A control die fails: the active one is to be succeeded by the standby; otherwise the standby is lost (R397, R398). -/
def State.controlDieFails (s : State) (n : Nat) : State :=
  if s.faults.ctFailed.contains n then s
  else
    let s := s.markFailed (fun f => { f with ctFailed := setAdd n f.ctFailed })
    if n = s.faults.ctActive then s.onFaults (fun f => { f with takeover := some s.now })
    else s.onFaults (fun f => { f with ctStandby := false })

/-- A serving die fails: the standby takes over, the tick's attempts not yet settled are late, and plans begin again at the second
edge; with no standby the device halts (R399, R400). -/
def State.servingDieFails (s : State) (n : Nat) : State :=
  if s.faults.svFailed.contains n then s
  else
    let s := s.markFailed (fun f => { f with svFailed := setAdd n f.svFailed })
    if n ≠ s.faults.svActive then s.onFaults (fun f => { f with svStandby := false })
    else if s.faults.svStandby then
      (((s.onFaults (fun f => { f with svActive := 1 - n, svStandby := false })).discardAll .late).onPlan (fun p => { p with noPlanTicks := 1 })).reissueAll
    else s.safeHalt .late

/-- A die is treated as failed, by its code (R18). -/
def State.dieFails (s : State) (code : Nat) : State :=
  if code < 16 then s.failPair code
  else if code < 26 then s
  else if code < 34 then s.linkDieFails (code - 26)
  else if code < 36 then s.controlDieFails (code - 34)
  else if code < 38 then s.servingDieFails (code - 36)
  else if code < 40 then s.hostDieFails (code - 38)
  else s.failPair (code - 40)

/-- Semaphores whose two dies have failed are lost: the jobs that wait on one stop, their attempts are discarded (R216). -/
def State.loseSems (s : State) : State :=
  let gone := s.store.sems.filter (fun q => !semServed s q.1)
  let jobs := (gone.filter (fun q => !q.2.waiters.isEmpty)).foldl (fun l q => setAdd q.2.job l) ([] : List Nat)
  let s := jobs.foldl (fun t m => (t.jobSlots m).foldl (fun u n => u.endAttempt n .byFault) (t.stopJob m)) s
  s.onStore (fun u => { u with sems := u.sems.filter (fun q => !gone.any (fun x => x.1 = q.1)) })

/-- HUB_DIE_FAILED: the first failure has an empty tick planned for the new geometry, the third asks for service, the fourth halts. -/
def execHubDieFailed (t die : Nat) (s : State) : Host.Outcome State Fault Refusal :=
  let s := s.atTime t
  .next (
    if 10 ≤ die || s.store.failed.contains die || s.start.state = .off then s
    else
      let first := s.store.failed.isEmpty && !s.store.sevenTwo
      let s := s.onStore (fun u => { u with failed := (List.range 10).filter (fun d => d = die || u.failed.contains d) })
      let s := (s.markFailed (fun f => f)).loseSems
      let n := s.store.failed.length
      let s := if n = 3 then s.needService die else s
      let s := if n = 4 then s.safeHalt .byFault else s
      let s := if first then
          if s.faults.orphan then s.safeHalt .byFault
          else (s.onStore (fun u => { u with reconfPending := true, survivors := setDel die (List.range 10) })).onPlan (fun p => { p with emptyTick := true })
        else s
      (isolatedDies s.store.failed).foldl State.dieFails s)

/-! ## Poisoned store reads (R199, R390, Table 17-5) -/

/-- What a shipment holds past what has landed is dropped, and the range is granted again. -/
def State.regrantShip (s : State) (h : Nat) : State :=
  match s.ship? h with
  | none => s
  | some x =>
    if x.outgoing then s
    else
      let y := { x with got := (x.got.filter (fun r => r.1 < x.landed)).map (fun r => (r.1, min r.2 x.landed)), body := [] }
      (s.setShip y).sendGrant y (x.landed / max 1 (blockBytes (shipModel s x)))

/-- STORE_POISONED_READ: a read of a stripe row with three or more erasures returns poisoned zeros, and its class handles it: an entry of
RTCACHE is rewritten from the serving die's cache, an operation of the prefix index on bucket holder is retried once and then a miss. Of the
control dies it is the active one that a poisoned JOURNAL fails (DESIGN CHOICE, log 42). -/
def execStorePoisonedRead (cls : StoreClass) (addr holder : Nat) (s : State) : Host.Outcome State Fault Refusal :=
  .next (
    if !rowLost s (stripeRow s addr) then s
    else
      let s := (s.answerWith (List.replicate 64 0)).readStore addr 64
      match cls with
      | .act => s.poisonJob holder
      | .logit => s.poisonJob holder
      | .ship => s.regrantShip holder
      | .host => s.reissueAll
      | .tier => s.failTier2 holder
      | .journal => s.controlDieFails s.faults.ctActive
      | .rtcache => s.onStore (mendRow (stripeRow s addr))
      | .pindex => s.onTier (fun u => { u with poisonedBuckets := u.poisonedBuckets ++ [holder] }))

/-! ## Uncorrectable data (R384, Table 17-3) and repairs (R385, R386) -/

/-- The directory entry of a model on a physical cluster whose frame holds a granule, with its kernel. -/
def frameOf (s : State) (m cl g : Nat) : Option (Nat × DirEntry) :=
  ((List.range ((s.mslot m).info.kernels.length + 1)).flatMap (fun k =>
    (hosted s cl).flatMap (fun n => (nth (nth (s.mslot m).info.dirs n []) k []).map (fun e => (k, e))))).find?
    (fun x => x.2.granule ≤ g && g < x.2.granule + 1 + ingotW x.2.fmt * 128 / 2048)

/-- UNCORRECTABLE_DATA: the attempts that read it are dropped, and it is handled by its class; what that changes of requests and page groups
waits for a commit window (R37, R264). An address that the device does not have is refused (R258). -/
def execUncorrectableData (t : Nat) (kind : UncorrKind) (addr target : Nat) (bothLost : Bool) (readers : List Nat) (s : State) :
    Host.Outcome State Fault Refusal :=
  let s := s.atTime t
  .next (
    let p := granuleOf addr
    if addr < stackBase 0 || 16 ≤ p.1 || banksOf s.variant * 32768 ≤ p.2 || s.faults.clFailed.contains p.1 then s
    else
      let s := ((s.onFaults (fun f => { f with lastUncorr := addr % two64 })).countStack p.1 (fun c => { c with uncorrectable := inc64 c.uncorrectable })).onPlan
        (fun u => { u with attempts := markAttempts readers (fun a => { a with poisoned := true }) u.attempts })
      match kind with
      | .ingot => s.notePoison target p.1 (match frameOf s target p.1 p.2 with | none => p.2 | some x => x.2.granule)
      | .manager => if bothLost then s.controlDieFails s.faults.ctActive else s
      | .commitLog => if bothLost then s.controlDieFails s.faults.ctActive else s
      | k => s.noteLoss (.data k target bothLost))

/-- A stack has a die without a spare bank, or a TSV group without a spare (Table 17-8). -/
def State.noteSpares (s : State) (n : Nat) : State :=
  let per := banksOf s.variant / 16
  let noBank := (List.range 16).any (fun d => 2 ≤ (s.faults.spareBanks.filter (fun b => b.1 = n && b.2 / per = d)).length)
  let noTsv := (List.range 72).any (fun g => 2 ≤ (s.faults.tsvSpares.filter (fun x => x = (n, g))).length)
  s.onFaults (fun f => { f with spareLow := maskWrite32 f.spareLow n (noBank || noTsv) })
where
  /-- Bit n of a 16-bit mask set or cleared. -/
  maskWrite32 (v : BitVec 16) (n : Nat) (b : Bool) : BitVec 16 :=
    if b then v ||| BitVec.ofNat 16 (2 ^ n) else v &&& ~~~(BitVec.ofNat 16 (2 ^ n))

/-- A spare row of a bank is brought in, where one is left. -/
def State.useSpareRow (s : State) (stack bank row : Nat) : State :=
  if (s.faults.spareRows.filter (fun r => r.1 = stack && r.2.1 = bank)).length < 64 then
    s.onFaults (fun f => { f with spareRows := f.spareRows ++ [(stack, bank, row)] })
  else s

/-- Poisonings of a granule in the last 24 h. -/
def poisonings (s : State) (cl g : Nat) : Nat :=
  (s.faults.poisonHist.filter (fun h => h.1 = cl && h.2.1 = g && s.now < h.2.2 + 86400000000000)).length

/-- A frame that fetched from its repair source agrees with its directory entry. -/
def frameAgrees (s : State) (m cl g : Nat) : Bool :=
  match frameOf s m cl g with
  | none => false
  | some x => !headerBad s cl g x.2 (kernelLayer s m x.1)

/-- INGOT_REPAIR_DONE: the frame fetched from a group peer or the golden image is rewritten in an execute window and checked; a golden
read that fails makes the slot BROKEN in a commit window before its descriptors (R289, R294), but in ORPHAN mode no model changes (R400). The
stack of a failed pair is not written (R15). -/
def execIngotRepairDone (slot cl granule : Nat) (ok : Bool) (bytes : List (BitVec 8)) (s : State) : Host.Outcome State Fault Refusal :=
  .next (
    let m := s.mslot slot
    if !m.poisoned.contains (cl, granule) || m.state ≠ .resident || !s.clusterUp cl then s
    else if ok then
      if s.tick.running && !s.tick.inCommit then
        let s := if 2 ≤ poisonings s cl granule then s.useSpareRow cl (granule / 32768) (granule % 32768) else s
        let s := s.putBytes (granAddr cl granule 0) bytes
        if frameAgrees s slot cl granule then
          let left := m.poisoned.filter (fun x => x ≠ (cl, granule))
          (s.modMslot slot (fun m => { m with poisoned := left })).onPlan (fun p => { p with repairing := if left.isEmpty then setDel slot p.repairing else p.repairing })
        else s
      else s
    else if settlesLong s && !s.faults.orphan then (s.modMslot slot (fun m => { m with state := .broken, brokenAt := s.tick.index })).postEvent St.modelBroken slot 0
    else s)

/-- BROKEN_SLOT_TIMEOUT: at the 200th tick the requests still bound to a BROKEN slot close with FAULT_MODEL. -/
def execBrokenSlotTimeout (slot : Nat) (s : State) : Host.Outcome State Fault Refusal :=
  .next (
    let m := s.mslot slot
    if s.tick.inCommit && m.state = .broken && m.brokenAt + 200 ≤ s.tick.index then
      (s.req.table.filter (fun p => p.2.modelSlot = slot && reqLive p.2.state)).foldl (fun t p => t.closeSoon p.1 St.faultModel) s
    else s)

/-! ## Page rebuild (R387 to R389) -/

/-- A rebuild row commits: its group's pages are whole again; one that a shipment built leaves the index. -/
def State.settleRebuild (s : State) (h : Nat) : State :=
  let slot := 1048576 + h
  match s.attempt? slot, s.group? h with
  | some a, some g =>
    if a.faulted then s.endAttempt slot .byFault
    else if a.poisoned then s.endAttempt slot .byPoison
    else if !a.done || s.tick.commitOpenAt ≤ a.stamp || !g.rebuild then s.endAttempt slot .late
    else if a.nonfinite then s.endAttempt slot .numeric
    else
      let cls := g.frames.foldl (fun l f => setAdd f.1 l) ([] : List Nat)
      let s := cls.foldl (fun t c => t.countStack c (fun x => { x with rebuilds := inc64 x.rebuilds })) s
      let s := (s.modGroup h (fun g => { g with rebuild := false })).endAttempt slot .committed
      let s := if g.state = .promoting then s.promoted h else s
      if g.snapValid then s else (s.unindex h).recheck h
  | some _, none => s.endAttempt slot .byEvent
  | _, _ => s

/-- REBUILD_COMMIT. -/
def execRebuildCommit (handle : Nat) (s : State) : Host.Outcome State Fault Refusal :=
  .next (if s.tick.inCommit then s.settleRebuild handle else s)

/-! ## Sparing (R391 to R393, Table 17-6) -/

/-- A bank of a stack in service. -/
def bankInUse (s : State) (stack bank : Nat) : Bool :=
  stack < 16 && bank < banksOf s.variant && !s.faults.clFailed.contains stack && s.start.state ≠ .off

/-- Sparing needs firmware: in ORPHAN mode it halts the device (R400). -/
def State.sparing (s : State) (ok : Bool) (f : State → State) : State :=
  if !ok then s else if s.faults.orphan then s.safeHalt .byFault else f s

/-- SPARE_ROW_SWAP. -/
def execSpareRowSwap (stack bank row : Nat) (s : State) : Host.Outcome State Fault Refusal :=
  .next (s.sparing (bankInUse s stack bank && row < 32768) (fun s => s.useSpareRow stack bank row))

/-- SPARE_COLUMN_SWAP. -/
def execSpareColumnSwap (stack bank column : Nat) (s : State) : Host.Outcome State Fault Refusal :=
  .next (s.sparing (bankInUse s stack bank && column < 64) (fun s =>
    if (s.faults.spareCols.filter (fun c => c.1 = stack && c.2.1 = bank)).length < 4 then
      s.onFaults (fun f => { f with spareCols := f.spareCols ++ [(stack, bank, column)] })
    else s))

/-- SPARE_BANK_COPY_DONE: the copy of a bank into one of its die's two spares has ended; it switches in at the next tick edge. -/
def execSpareBankCopyDone (stack bank spare : Nat) (s : State) : Host.Outcome State Fault Refusal :=
  .next (s.sparing (bankInUse s stack bank && spare < 2) (fun s =>
    let die := fun (b : Nat) => b / (banksOf s.variant / 16)
    let used := (s.faults.spareBanks.filter (fun b => b.1 = stack && die b.2 = die bank)).length
      + (s.faults.bankSwaps.filter (fun b => b.1 = stack && die b.2.1 = die bank)).length
    if used < 2 then s.onFaults (fun f => { f with bankSwaps := f.bankSwaps ++ [(stack, bank, spare)] }) else s))

/-- A spare bank takes a bank's number: the bank's data was copied, and the spare's own unit, idle until now, is as at reset, so that the
stack's exponent tables are no longer all valid (R13, R113, R123). -/
def bringSpare (bank spare : Nat) (c : BankCluster) : BankCluster :=
  { c with spareMap := tabPut bank spare c.spareMap, units := tabDel bank c.units, tloadValid := false }

/-- At a tick edge the copied spare banks are switched in (R392). -/
def State.switchBanks (s : State) : State :=
  let l := s.faults.bankSwaps
  let s := l.foldl (fun t b => (t.modBcl b.1 (bringSpare b.2.1 b.2.2)).onFaults
    (fun f => { f with spareBanks := f.spareBanks ++ [(b.1, b.2.1)] })) s
  l.foldl (fun t b => t.noteSpares b.1) (s.onFaults (fun f => { f with bankSwaps := [] }))

/-- TSV_SPARE_SWITCH: in a commit window a spare TSV of a lane's group is switched in; with none left the channel fails, and the pair. -/
def execTsvSpareSwitch (stack lane : Nat) (s : State) : Host.Outcome State Fault Refusal :=
  .next (s.sparing (bankInUse s stack 0 && lane < 4608 && s.tick.inCommit) (fun s =>
    if (s.faults.tsvSpares.filter (fun x => x = (stack, lane / 64))).length < 2 then
      (s.onFaults (fun f => { f with tsvSpares := f.tsvSpares ++ [(stack, lane / 64)] })).noteSpares stack
    else s.failPair stack))

/-- A bank of the pool is retired: nothing is placed there any more, and its objects move in a commit window (R37, R264). -/
def State.retireBank (s : State) (stack bank : Nat) : State :=
  let s := s.onFaults (fun f => { f with retiredBanks := f.retiredBanks ++ [(stack, bank)] })
  ((s.countStack stack (fun c => { c with retiredBanks := inc64 c.retiredBanks })).noteLoss (.bank stack bank)).capChanged

/-- BANK_RETIRE: a bank with no spare left is retired; one outside the pool fails the pair (R393). -/
def execBankRetire (t stack bank : Nat) (s : State) : Host.Outcome State Fault Refusal :=
  .next ((s.atTime t).sparing (bankInUse s stack bank && !s.faults.retiredBanks.contains (stack, bank)) (fun s =>
    if poolBanks s.variant ≤ bank then s.failPair stack else s.retireBank stack bank))

/-! ## Control and serving dies (R397 to R400) -/

/-- The lease is held by a Sentinel that is there, which may declare failures (R401). -/
def leaseLive (s : State) (t : Nat) : Bool := t < s.faults.leaseUntil && holderUp s

/-- CONTROL_HEARTBEAT_TIMEOUT: 3 ms without a heartbeat of the active control die. -/
def execControlHeartbeatTimeout (t : Nat) (s : State) : Host.Outcome State Fault Refusal :=
  let s := s.atTime t
  .next (if leaseLive s t && s.faults.takeover.isNone && s.start.state ≠ .off then s.controlDieFails s.faults.ctActive else s)

/-- SERVING_HEARTBEAT_TIMEOUT: 2 edges without a heartbeat of the active serving die. -/
def execServingHeartbeatTimeout (t : Nat) (s : State) : Host.Outcome State Fault Refusal :=
  let s := s.atTime t
  .next (if leaseLive s t && s.tick.running then s.servingDieFails s.faults.svActive else s)

/-- The control die that is in standby: the other one, or the active one once it has rebooted. -/
def standbyDie (s : State) : Option Nat :=
  if s.faults.ctStandby then [1 - s.faults.ctActive, s.faults.ctActive].find? (fun n => !s.faults.ctFailed.contains n) else none

/-- A tick edge has come since a promotion was declared, or no ticks run. -/
def edgeSince (s : State) (d : Nat) : Bool := !s.tick.running || decide (d ≤ s.tick.edge)

/-- The mailbox command of the activation under way. -/
def actCmd (s : State) : Option MbCommand := s.cmdAt s.mb.actMb [0xA1]

/-- An activation that a loss of the active control die ends: rolled back, FW_REJECTED; one whose former active die has come back
ends with its success (Table 16-8). -/
def State.endActivation (s : State) : State :=
  match s.mb.act with
  | .none => s
  | .formerBooting =>
    match actCmd s with
    | none => s.onMb (fun m => { m with act := .none })
    | some c => (s.onMb (fun m => { m with act := .none })).complete c St.ok [3]
  | ph =>
    let s := if ph = .probation then s.postEvent St.fwRollback 0 0 else s
    match actCmd s with
    | none => s.onMb (fun m => { m with act := .none })
    | some c => (s.onMb (fun m => { m with act := .none })).complete c St.fwRejected []

/-- CONTROL_TAKEOVER: at a tick edge the die that the lease-holding Sentinel promotes, having applied the journal, is active: latched doorbells
are taken and unconfirmed writes reissued (R359, R375, R398, R401). A die that boots healthy in ORPHAN mode needs no promotion (R400). -/
def execControlTakeover (s : State) : Host.Outcome State Fault Refusal :=
  .next (
    match s.faults.takeover, standbyDie s with
    | some d, some n =>
      if edgeSince s d && (holderUp s || s.faults.orphan) then
        let s := s.onFaults (fun f => { f with
          ctActive := n, takeover := none, orphan := false, controlLost := false, ctStandby := !f.ctFailed.contains (1 - n) })
        let s := (s.takeLatched.reissueAll.postEvent St.controlFailover 0 0).endActivation
        s.portsChanged.noteSentinel
      else s
    | _, _ => s)

/-- ORPHAN_ENTER: at the next tick edge with no control die healthy. -/
def execOrphanEnter (s : State) : Host.Outcome State Fault Refusal :=
  .next (
    match s.faults.takeover, standbyDie s with
    | some d, none =>
      if edgeSince s d && !s.faults.orphan then
        (((s.onFaults (fun f => { f with orphan := true, controlLost := true })).postEvent St.controlLost 0 0).portsChanged).noteSentinel
      else s
    | _, _ => s)

/-- DIE_REBOOTED_HEALTHY: a failed control or serving die, rebooted once, boots healthy and becomes the standby. -/
def execDieRebootedHealthy (t code : Nat) (s : State) : Host.Outcome State Fault Refusal :=
  let s := s.atTime t
  .next (
    if s.faults.rebooted.contains code || (isolatedDies s.store.failed).contains code then s
    else
      let s' := s.onFaults (fun f => { f with rebooted := f.rebooted ++ [code] })
      if (code = 34 || code = 35) && s.faults.ctFailed.contains (code - 34) then
        (s'.onFaults (fun f => { f with ctFailed := setDel (code - 34) f.ctFailed, ctStandby := true })).capChanged
      else if (code = 36 || code = 37) && s.faults.svFailed.contains (code - 36) then
        (s'.onFaults (fun f => { f with svFailed := setDel (code - 36) f.svFailed, svStandby := true })).capChanged
      else s)

/-! ## The Sentinels' lease (R401) -/

/-- LEASE_RENEW: the holder renews for 50 ms; SN1 yields to a reclaim instead. -/
def execLeaseRenew (t : Nat) (s : State) : Host.Outcome State Fault Refusal :=
  let s := s.atTime t
  .next (
    if leaseLive s t then
      s.onFaults (fun f => { f with lease1 := f.lease1 && !f.reclaim, reclaim := false, leaseUntil := t + 50000000 })
    else s)

/-- LEASE_EXPIRY: an unrenewed lease has expired, and the other Sentinel acquires it. -/
def execLeaseExpiry (t : Nat) (s : State) : Host.Outcome State Fault Refusal :=
  let s := s.atTime t
  .next (
    if s.faults.leaseUntil ≤ t && sentinelUp s (b2n (!s.faults.lease1)) then
      s.onFaults (fun f => { f with lease1 := !f.lease1, reclaim := false, leaseUntil := t + 50000000 })
    else s)

/-- LEASE_RECLAIM: SN0 asks for the lease that SN1 holds. -/
def execLeaseReclaim (t : Nat) (s : State) : Host.Outcome State Fault Refusal :=
  let s := s.atTime t
  .next (if s.faults.lease1 && sentinelUp s 0 then s.onFaults (fun f => { f with reclaim := true }) else s)

end Sys2Proof.Machine
end

