-- ==== Sys2Proof/Machine/Firmware.lean ====
section
/-! DEFINITION. Commands of Sceol on the device itself: its state (R404), warm reset (R360, R376), ABORT (R361), the Calibration
Record (R413 to R417), firmware images (R367, R407 to R409) and live activation (R368).
Readings of the spec: log 43. -/

namespace Sys2Proof.Machine

open Sys2Proof

/-! ## Device state (R404, Table 18-2) -/

/-- A part is marked failed: a cause of degradation. -/
def degraded (s : State) : Bool :=
  !s.faults.clFailed.isEmpty || !s.store.failed.isEmpty || !s.faults.lkFailed.isEmpty || pairFailed s ≠ 0

/-- READY is entered: the mean power of R98 starts anew. -/
def State.enterReady (s : State) : State :=
  (s.onStart (fun x => { x with state := .ready })).onPlan (fun p => { p with readyPowerSum := 0, readyPowerN := 0 })

/-- The state that DEVICE_STATE reaches from READY or MAINTENANCE when it asks for SERVING. -/
def State.serve (s : State) : State :=
  if degraded s then s.onStart (fun x => { x with state := .degraded })
  else (s.onStart (fun x => { x with state := .serving })).onTick (fun k => { k with everServing := true })

/-- A transition that a command may ask for, with the state it gives or the status it fails with. -/
def deviceTo (s : State) (target : Nat) : Except Nat State :=
  let busy := anyRequest s (fun _ => true)
  let leave := fun (d : DevState) => if busy then (.error St.busy : Except Nat State) else .ok (if d = .ready then s.enterReady else s.onStart (fun x => { x with state := d }))
  if target = devCode s.start.state then .ok s
  else match s.start.state with
    | .ready => if target = 4 then .ok s.serve else if target = 6 then .ok (s.onStart (fun x => { x with state := .maintenance })) else .error St.badState
    | .maintenance => if target = 4 then .ok s.serve else if target = 3 then .ok s.enterReady else .error St.badState
    | .serving => if target = 3 then leave .ready else if target = 6 then leave .maintenance else .error St.badState
    | .degraded => if target = 3 then leave .ready else if target = 6 then leave .maintenance else .error St.badState
    | _ => .error St.badState

/-- DEVICE_STATE. -/
def execDeviceState (mb : Nat) (s : State) : Host.Outcome State Fault Refusal :=
  .next (runL s mb 0x02 (fun c s => do
    let t ← deviceTo s (cf c 0 1)
    .ok (t.complete c St.ok (leBytes 1 (devCode t.start.state)))))

/-- WARM_RESET: taken in a commit window, it takes effect at the window's end (R376). -/
def execWarmReset (mb : Nat) (s : State) : Host.Outcome State Fault Refusal :=
  .next (runL s mb 0x03 (fun c s =>
    .ok ((s.onStart (fun x => { x with warmPending := true, warmMb := setAdd mb x.warmMb })).setCmd { c with phase := 1 })))

/-! ## ABORT (R361) -/

/-- The image that FW_STAGE writes: that of the flash which the boot pointer does not name. -/
def State.setOther (s : State) (i : FwImage) : State :=
  s.onMb (fun m => if m.bootB then { m with imageA := i } else { m with imageB := i })

/-- Undoes a long command that has started and completes it CANCELLED; false where it cannot be its target. -/
def State.undo (s : State) (c : MbCommand) : State :=
  if c.phase = 0 then s.complete c St.cancelled []
  else if c.opcode = 0x70 then
    match s.models.slots.find? (fun p => p.2.state = .loading && p.2.loadMb = some c.slot) with
    | some p => s.failLoad p.1 St.cancelled
    | none => (s.onModels (fun m => { m with slots := m.slots.map (fun p =>
        if p.2.loadNext.any (fun x => x.1 = c.slot) then (p.1, { p.2 with loadNext := none }) else p) })).complete c St.cancelled []
  else if c.opcode = 0x75 then s.freeGen (c.aux % 4096) (c.aux / 4096) none St.cancelled
  else if c.opcode = 0xA0 then (((s.setOther {}).onMb (fun m => { m with staging := none })).capChanged).complete c St.cancelled []
  else (s.onMb (fun m => { m with calWrite := none })).complete c St.cancelled []

/-- ABORT: cancels the outstanding MODEL_LOAD, ALLOY_LOAD, FW_STAGE or CAL_WRITE that has a tag. -/
def execAbort (mb : Nat) (s : State) : Host.Outcome State Fault Refusal :=
  .next (runT s mb 0x06 (fun c s =>
    match s.mb.outstanding.find? (fun x => x.tag = cf c 0 1 && [0x70, 0x75, 0xA0, 0x91].contains x.opcode) with
    | none => .error St.notFound
    | some x => .ok (s.undo x, [])))

/-! ## The Calibration Record (R413 to R417, Table 18-6) -/

/-- Section i of a record: kind, index, offset, length, CRC-32. -/
def calSection (b : List Byte) (i : Nat) : Nat × Nat × Nat × Nat × Nat :=
  let o := 32 + 16 * i
  (field b o 1, field b (o + 1) 1, field b (o + 4) 4, field b (o + 8) 4, field b (o + 12) 4)

/-- Sections of a record. -/
def calSections (b : List Byte) : List (Nat × Nat × Nat × Nat × Nat) := (List.range (field b 5 1)).map (calSection b)

/-- The header of a record is valid for a serial number. -/
def calHeaderOk (serial : Nat) (b : List Byte) : Bool :=
  let n := field b 5 1
  let len := field b 20 4
  field b 0 4 = 0x43414C31 && field b 4 1 = 1 && inRange n 1 48 && field b 6 2 = 0 && field b 8 8 = serial && field b 28 4 = 0
    && 32 + 16 * n ≤ len && len ≤ 1048576 && len ≤ b.length
    && field b 24 4 = (crc32 (slice b 0 24 ++ slice b 32 (16 * n))).toNat

/-- A section's entry and contents are valid: kind and index listed, its bytes in the record, its CRC right. -/
def calSectionOk (b : List Byte) (i : Nat) : Bool :=
  let x := calSection b i
  let top := if x.1 = 1 then 15 else if x.1 = 2 then 7 else if x.1 = 3 then 1 else 0
  inRange x.1 1 5 && x.2.1 ≤ top && field b (34 + 16 * i) 2 = 0 && x.2.2.1 + x.2.2.2.1 ≤ field b 20 4
    && x.2.2.2.2 = (crc32 (slice b x.2.2.1 x.2.2.2.1)).toNat

/-- A record has a valid section of a kind and index (R413). -/
def calHas (serial : Nat) (b : List Byte) (kind index : Nat) : Bool :=
  calHeaderOk serial b && (List.range (field b 5 1)).any (fun i => (calSection b i).1 = kind && (calSection b i).2.1 = index && calSectionOk b i)

/-- CAL_WRITE takes a record (R417). An i8 offset in units of 0.0625 °C never lies outside ±16 °C. -/
def calOk (serial : Nat) (b : List Byte) : Bool :=
  let ks := (calSections b).map (fun x => (x.1, x.2.1))
  calHeaderOk serial b && (List.range (field b 5 1)).all (calSectionOk b)
    && ks.zipIdx.all (fun x => !(ks.take x.2).contains x.1)

/-- CAL_READ: the record in force, byte for byte, to the host buffer; while no port is up the transfer waits (R349). -/
def execCalRead (mb : Nat) (ok : Bool) (s : State) : Host.Outcome State Fault Refusal :=
  .next (if s.noPort then s else runI s mb 0x90 (fun c s => do
    need (s.start.record.length ≤ cf c 4 4) St.badLength
    need ok St.badAddress
    .ok (s.bufferWrite c.port (cf c 8 8) s.start.record, leBytes 4 s.start.record.length)))

/-- CAL_WRITE: in MAINTENANCE, a whole record from the host buffer; its write to the area's other half begins. -/
def execCalWrite (mb : Nat) (buffer : Option (List (BitVec 8))) (s : State) : Host.Outcome State Fault Refusal :=
  .next (runL s mb 0x91 (fun c s =>
    if s.start.state ≠ .maintenance then .error St.badState
    else if s.mb.calWrite.isSome then .error St.busy
    else
      match buffer with
      | none => .error St.badAddress
      | some b =>
        let b := b.take (cf c 4 4)
        if calOk s.mb.serial b then
          .ok (((s.hostRead c.port (cf c 8 8) (cf c 4 4)).onMb (fun m => { m with calWrite := some (mb, b.take (field b 20 4)) })).setCmd { c with phase := 1 })
        else .error St.badImage))

/-- CAL_RECORD_SWITCHED: the new record is verified and the area's pointer switched: it is in force, and CAL_WRITE completes. -/
def execCalRecordSwitched (s : State) : Host.Outcome State Fault Refusal :=
  .next (
    match s.mb.calWrite with
    | none => s
    | some w =>
      if !(settlesLong s && s.sceolUp) then s
      else
        let generic := !calHas s.mb.serial w.2 5 0
        let s := (s.onStart (fun x => { x with
          record := w.2, calStat := (x.calStat &&& ~~~0x10#32) ||| BitVec.ofNat 32 (16 * b2n generic) })).onMb (fun m => { m with calWrite := none })
        match s.cmdAt w.1 [0x91] with
        | none => s
        | some c => s.complete c St.ok [])

/-! ## Firmware images (R367, R407 to R409, Table 18-3a) -/

/-- The header of an image. -/
def fwHeader (r : FwRead) : List Byte := slice r.image 0 512

/-- The sections of a header: (kind, offset, length). -/
def fwSections (b : List Byte) : List (Nat × Nat × Nat) :=
  (List.range 8).map (fun i => (field b (64 + 24 * i) 1, field b (72 + 24 * i) 8, field b (80 + 24 * i) 8))

/-- The header of an image is valid: its fields in range, its reserved bytes zero, its sections inside the image. -/
def fwHeaderOk (r : FwRead) : Bool :=
  let b := fwHeader r
  let len := field b 8 4
  field b 0 4 = 0x46574931 && field b 4 1 = 1 && field b 5 1 ≤ 3 && field b 6 1 ≤ 63 && field b 7 1 ≤ 1
    && inRange len 512 268435456 && len ≤ r.image.length && allZero (slice b 16 48) && allZero (slice b 448 64)
    && (List.range 8).all (fun i => allZero (slice b (65 + 24 * i) 7))
    && (fwSections b).all (fun x => x.1 ≤ 5 && (x.1 = 0 || (512 ≤ x.2.1 && x.2.1 + x.2.2 ≤ len)))

/-- SHA-384 as the fuses and the boot log hold it, its first byte lowest. -/
def digest384 (m : List Byte) : BitVec 384 := BitVec.ofNat 384 (leNat (sha384 m))

/-- The image's public key is the one fused in the slot it names, which is not revoked (R407). -/
def fwKeyOk (s : State) (b : List Byte) : Bool :=
  digest384 (slice b 352 96) = nth s.start.keySlots (field b 5 1) 0 && !s.start.revoked.contains (field b 5 1)

/-- The image's signature, over the SHA-384 of header bytes 0 to 255 and of the image from byte 512 to its length, verifies under its key
(R407). The four 48-byte parts of Table 18-3a are little-endian (R10). -/
def fwSigOk (r : FwRead) : Bool :=
  let b := fwHeader r
  let z := beNat (sha384 (slice b 0 256 ++ slice r.image 512 (field b 8 4 - 512)))
  ecdsaOk (field b 352 48) (field b 400 48) (field b 256 48) (field b 304 48) z

/-- An image as read is verified: its header, its key, its signature and its security version (R407). -/
def fwVerified (s : State) (r : FwRead) : Bool :=
  !r.readFail && fwHeaderOk r && fwKeyOk s (fwHeader r) && fwSigOk r && s.start.fusedSvn ≤ field (fwHeader r) 6 1

/-- What the boot log records of an image: its header, then its sections (R409). -/
def fwDigests (r : FwRead) : List (Nat × BitVec 384) :=
  (1, digest384 (fwHeader r)) :: ((fwSections (fwHeader r)).filter (fun x => x.1 ≠ 0)).map (fun x => (x.1 + 1, digest384 (slice r.image x.2.1 x.2.2)))

/-- What flash holds of an image. -/
def fwImageOf (r : FwRead) : FwImage :=
  let b := fwHeader r
  { valid := true, version := field b 12 4, svn := field b 6 1, raiseSvn := bit (field b 7 1) 0, digests := fwDigests r }

/-- An FW_STAGE or FW_ACTIVATE is under way. -/
def fwBusy (s : State) : Bool := s.mb.staging.isSome || s.mb.act ≠ .none

/-- FW_STAGE: the image is read and its writing to the other flash begins. -/
def execFwStage (mb : Nat) (r : FwRead) (s : State) : Host.Outcome State Fault Refusal :=
  .next (runL s mb 0xA0 (fun c s => do
    need (cf c 4 4 ≤ 268435456) St.badLength
    need (!fwBusy s) St.busy
    need (!r.readFail) St.badAddress
    let i := { fwImageOf r with valid := fwVerified s r }
    .ok (((s.hostRead c.port (cf c 8 8) (cf c 4 4)).onMb (fun m => { m with staging := some (mb, i) })).setCmd { c with phase := 1 })))

/-- FW_STAGE_VERIFIED: the flash write ends and the image, read back intact or not, is verified; a failure leaves that image invalid. -/
def execFwStageVerified (intact flashOk : Bool) (s : State) : Host.Outcome State Fault Refusal :=
  .next (
    match s.mb.staging with
    | none => s
    | some w =>
      if !(settlesLong s && s.sceolUp) then s
      else
        let good := flashOk && intact && w.2.valid
        let s := (((s.setOther (if good then w.2 else {})).onMb (fun m => { m with staging := none }))).capChanged
        match s.cmdAt w.1 [0xA0] with
        | none => s
        | some c =>
          if good then s.complete c St.ok (leBytes 1 (b2n (!s.mb.bootB)) ++ leBytes 3 0 ++ leBytes 4 w.2.version)
          else s.complete c (if flashOk then St.badSignature else St.faultFlash) [])

/-- Appends measured components to the boot log, 32 at most, and extends the measurement register (R409). -/
def State.measureBoot (s : State) (l : List (Nat × BitVec 384)) : State :=
  l.foldl (fun t p => t.onStart (fun x => { x with
    bootLog := (x.bootLog ++ [p]).take 32
    meas := BitVec.ofNat 384 (leNat (sha384 (leBytes 48 x.meas.toNat ++ leBytes 48 p.2.toNat))) })) s

/-- The boot pointer moves to the other image; the fuse rises where that image asks for it (R408). -/
def State.moveBoot (s : State) (fuse : Bool) : State :=
  let i := otherImage s
  let s := s.onMb (fun m => { m with bootB := !m.bootB, bootWrites := (m.bootWrites + 1) % two32 })
  (s.onStart (fun x => { x with fusedSvn := if fuse && i.raiseSvn then max x.fusedSvn i.svn else x.fusedSvn })).capChanged

/-! ## Activation (R368, Table 16-8) -/

/-- FW_ACTIVATE with mode 1: the boot pointer names the staged image from now on. A mode above 1 is BAD_ARGUMENT. -/
def execFwActivateNextReset (mb : Nat) (s : State) : Host.Outcome State Fault Refusal :=
  .next (match s.cmdAt mb [0xA1] with
    | none => s
    | some c =>
      if cf c 0 1 = 0 then s
      else runL s mb 0xA1 (fun c s => do
        need (cf c 0 1 = 1) St.badArgument
        need (otherImage s).valid St.notFound
        need (!fwBusy s) St.busy
        .ok ((s.moveBoot false).complete c St.ok [2])))

/-- FW_ACTIVATE with mode 0: the standby control die begins to boot the staged image. -/
def execFwActivateLive (mb : Nat) (s : State) : Host.Outcome State Fault Refusal :=
  .next (match s.cmdAt mb [0xA1] with
    | none => s
    | some c =>
      if cf c 0 1 ≠ 0 then s
      else runL s mb 0xA1 (fun c s => do
        need (s.faults.ctFailed.isEmpty && s.faults.ctStandby) St.badState
        need (otherImage s).valid St.notFound
        need (!fwBusy s) St.busy
        .ok (((s.onMb (fun m => { m with act := .booting, actMb := mb, actSince := s.now, actTicks := 0 })).onFaults
          (fun f => { f with ctStandby := false })).setCmd { c with phase := 1 })))

/-- A control die runs an image from now on. -/
def State.runsImage (s : State) (n : Nat) (b : Bool) : State := s.onMb (fun m => { m with runsB := m.runsB.set n b })

/-- STANDBY_CAUGHT_UP: within 30 s the standby has booted the staged image and replayed the journal; otherwise it reboots the running
image and FW_ACTIVATE is rejected. -/
def execStandbyCaughtUp (t : Nat) (ok : Bool) (s : State) : Host.Outcome State Fault Refusal :=
  let s := s.atTime t
  .next (
    if s.mb.act ≠ .booting then s
    else
      let s := s.onFaults (fun f => { f with ctStandby := !f.ctFailed.contains (1 - f.ctActive) })
      if ok && t ≤ s.mb.actSince + 30000000000 then
        (s.runsImage (1 - s.faults.ctActive) (!s.mb.bootB)).onMb (fun m => { m with act := .caughtUp, actSince := t })
      else if s.sceolUp then s.endActivation else s)

/-- ACTIVATION_HANDOVER: at the next tick edge the standby becomes active and the former active is standby on the old image. -/
def execActivationHandover (s : State) : Host.Outcome State Fault Refusal :=
  .next (
    if s.mb.act = .caughtUp && s.faults.takeover.isNone && s.faults.ctStandby && edgeSince s s.mb.actSince then
      let s := s.onFaults (fun f => { f with ctActive := 1 - f.ctActive })
      let s := (s.onMb (fun m => { m with act := .probation, actTicks := 0 })).postEvent St.controlFailover 0 1
      s.measureBoot ((otherImage s).digests.filter (fun d => d.1 = 1 || d.1 = 2))
    else s)

/-- PROBATION_END: after 1,000 ticks the boot pointer moves to the new image, and the former active begins to boot it. -/
def execProbationEnd (s : State) : Host.Outcome State Fault Refusal :=
  .next (
    if s.mb.act = .probation && 1000 ≤ s.mb.actTicks && s.faults.takeover.isNone then
      ((s.moveBoot true).onMb (fun m => { m with act := .formerBooting })).onFaults (fun f => { f with ctStandby := false })
    else s)

/-- FORMER_ACTIVE_STANDBY: the former active is standby on the new image, and FW_ACTIVATE completes. -/
def execFormerActiveStandby (t : Nat) (s : State) : Host.Outcome State Fault Refusal :=
  let s := s.atTime t
  .next (
    if s.mb.act ≠ .formerBooting || s.faults.ctFailed.contains (1 - s.faults.ctActive) then s
    else
      let s := (s.runsImage (1 - s.faults.ctActive) s.mb.bootB).onFaults (fun f => { f with ctStandby := true })
      if s.sceolUp then s.endActivation else s)

end Sys2Proof.Machine
end

