-- ==== Sys2Proof/Machine/Startup.lean ====
section
/-! DEFINITION. Power, cold reset and boot (R404 to R415), warm reset (R33, R353, R360, R376, R418).
Readings of the spec: logs 44, 45. -/

namespace Sys2Proof.Machine

open Sys2Proof

/-! ## Cold reset (R404 to R406, R409) -/

/-- What a cold reset leaves: all of the block as after reset, but what flash, fuses, the Sentinels' trip record and the pins hold. An image
whose writing it cuts short is invalid. -/
def State.cold (s : State) (member cause : Nat) : State :=
  let cut : Bool := s.mb.staging.isSome
  let a : FwImage := if cut && s.mb.bootB then {} else s.mb.imageA
  let b : FwImage := if cut && !s.mb.bootB then {} else s.mb.imageB
  let mb : MbUnit := { serial := s.mb.serial, part := s.mb.part, imageA := a, imageB := b, bootB := s.mb.bootB, bootWrites := s.mb.bootWrites }
  let start : StartUnit := { memberId := member % 16, fusedSvn := s.start.fusedSvn, keySlots := s.start.keySlots, revoked := s.start.revoked, record := s.start.record, cause := cause, resetN := s.start.resetN, warmN := s.start.warmN, i3cIndex := s.start.i3cIndex, i3cByte1 := s.start.i3cByte1, ibi := s.start.ibi }
  let power : PowerUnit := { tripCode := s.power.tripCode, tripTemp := s.power.tripTemp }
  let faults : FaultUnit := { leaseUntil := 50000000 }
  let t : State := { variant := s.variant, freeCtr := s.freeCtr, pending := s.pending, mb := mb, start := start, power := power, faults := faults }
  t.noteSentinel

/-- POWER_ON: AUX12 is within range with RESET_N high: the Sentinels start, MEMBER_ID is sampled, Invar starts at 0. -/
def execPowerOn (memberId : Nat) (s : State) : Host.Outcome State Fault Refusal :=
  .next (if s.start.state = .off && s.start.resetN then s.cold memberId 0 else s)

/-- RESET_N: low, a cold reset; high again, the cold start. -/
def execResetN (t : Nat) (high : Bool) (memberId : Nat) (s : State) : Host.Outcome State Fault Refusal :=
  .next (
    if s.start.state = .off then s.onStart (fun x => { x with resetN := high })
    else if high then
      if s.start.resetN then s.atTime t else (s.onStart (fun x => { x with resetN := true })).cold memberId 0
    else (s.onStart (fun x => { x with resetN := false })).cold s.start.memberId 0)

/-- MAIN48_LOSS: after PWR_GOOD, PWR_GOOD falls or MAIN48 leaves its range: a cold reset with PWR_REQ deasserted. -/
def execMain48Loss (t : Nat) (s : State) : Host.Outcome State Fault Refusal :=
  .next (if s.start.pwrGood then s.cold s.start.memberId 3 else s.atTime t)

/-- AUX12_LOSS: AUX12 out of range for 100 µs: OFF, and the trip record is lost with the rail. -/
def execAux12Loss (t : Nat) (s : State) : Host.Outcome State Fault Refusal :=
  .next (
    if s.start.state = .off then s.atTime t
    else ((s.onPower (fun p => { p with tripCode := 0, tripTemp := 0 })).cold s.start.memberId 0).onStart (fun x => { x with state := .off, ibi := 0, i3cByte1 := 0 }))

/-! ## Boot: firmware and supplies (R405 to R409) -/

/-- FIRMWARE_VERIFIED: the boot ROMs verify the image that the boot pointer names, or else the other, and PWR_REQ is asserted; with
neither, the device stays in BOOT with FAULT_N asserted. The boot pointer, the image, the Calibration Record and the fuses are measured
(R409). -/
def execFirmwareVerified (t : Nat) (a b : FwRead) (s : State) : Host.Outcome State Fault Refusal :=
  let s := s.atTime t
  .next (
    if s.start.state ≠ .boot || !s.start.resetN || s.start.firmwareOk || s.faults.ctFailed.length = 2 then s
    else
      let ok := fun (x : Bool) => fwVerified s (if x then b else a)
      let image := fun (x : Bool) => { fwImageOf (if x then b else a) with valid := ok x }
      let s := s.onMb (fun m => { m with imageA := image false, imageB := image true })
      let named := s.mb.bootB
      if ok named || ok (!named) then
        let x := if ok named then named else !named
        let s := s.onStart (fun u => { u with
          firmwareOk := true, imageB := x, pwrReq := true, pwrReqAt := s.now, stage := 1
          fusedSvn := if x = named && (image x).raiseSvn then max u.fusedSvn (image x).svn else u.fusedSvn })
        let s := (s.onMb (fun m => { m with runsB := [x, x] })).onFaults (fun f => { f with ctActive := if f.ctFailed.contains 0 then 1 else 0 })
        s.measureBoot ((0, digest384 (Config.pointerBytes s.mb.bootB s.mb.bootWrites)) :: (image x).digests ++ [(7, digest384 s.start.record),
          (8, digest384 (Config.fuseBytes s.start.fusedSvn s.start.keySlots s.start.revoked))])
      else (s.onStart (fun u => { u with faultN := true, cause := 1 })).noteSentinel)

/-- PWR_GOOD: the supply is good, rails are sequenced, TRAIN begins. -/
def execPwrGood (t : Nat) (s : State) : Host.Outcome State Fault Refusal :=
  let s := s.atTime t
  .next (
    if s.start.state = .boot && s.start.pwrReq && s.start.firmwareOk then
      s.onStart (fun x => { x with pwrGood := true, state := .train, stage := 2, pwrRetryAt := 0 })
    else s)

/-- PWR_GOOD_TIMEOUT: no PWR_GOOD within 1 s: PWR_REQ is deasserted with FAULT_N; it is asserted again every 10 s. -/
def execPwrGoodTimeout (t : Nat) (s : State) : Host.Outcome State Fault Refusal :=
  let s := s.atTime t
  .next (
    if s.start.state ≠ .boot || !s.start.firmwareOk then s
    else if s.start.pwrReq && s.start.pwrReqAt + 1000000000 ≤ t then (s.onStart (fun x => { x with pwrReq := false, faultN := true, cause := 2, pwrRetryAt := t + 10000000000 })).noteSentinel
    else if s.start.pwrRetryAt ≠ 0 && s.start.pwrRetryAt ≤ t then s.onStart (fun x => { x with pwrReq := true, pwrReqAt := t, pwrRetryAt := 0 })
    else s)

/-! ## Boot: training and self-test (R410 to R415, Tables 18-4, 18-5) -/

/-- The ports of failed link dies stay down (Table 18-5). -/
def State.dropLinkPorts (s : State) : State :=
  ((List.range 21).filter (fun p => linkDieBad s p)).foldl (fun t p =>
    t.modPort p (fun g => { ({} : Port) with quarantined := g.quarantined, viol := g.viol, violStart := g.violStart })) s

/-- A die or stack fails self-test, by its code; the ports of a link die and the port of a host die that had trained go down with it. -/
def State.failsTest (s : State) (code : Nat) : State :=
  let add := fun (n : Nat) (l : List Nat) => (List.range 16).filter (fun c => c = n || l.contains c)
  if code < 16 then s.onFaults (fun f => { f with clFailed := add code f.clFailed })
  else if code < 26 then s.onStore (fun u => { u with failed := add (code - 16) u.failed })
  else if code < 34 then (s.onFaults (fun f => { f with lkFailed := add (code - 26) f.lkFailed })).dropLinkPorts
  else if code < 36 then s.onFaults (fun f => { f with ctFailed := add (code - 34) f.ctFailed })
  else if code < 38 then s.onFaults (fun f => { f with svFailed := add (code - 36) f.svFailed })
  else if code < 40 then (s.onFaults (fun f => { f with hxFailed := add (code - 38) f.hxFailed })).modHport (code - 38) (fun _ => {})
  else if code < 56 then (s.onFaults (fun f => { f with clFailed := add (code - 40) f.clFailed })).onStart (fun x => { x with stackBad := add (code - 40) x.stackBad })
  else s

/-- A bank that the variant has; what a report says of any other is no fault (R3). -/
def bankThere (s : State) (stack bank : Nat) : Bool := stack < 16 && bank < banksOf s.variant

/-- What a report says of the banks that the variant has (R3). -/
def reportHere (s : State) (r : StageReport) : StageReport :=
  { r with
    spareRows := r.spareRows.filter (fun x => bankThere s x.1 x.2.1), spareCols := r.spareCols.filter (fun x => bankThere s x.1 x.2.1)
    spareBanks := r.spareBanks.filter (fun x => bankThere s x.1 x.2), retiredBanks := r.retiredBanks.filter (fun x => bankThere s x.1 x.2)
    tsvSpares := r.tsvSpares.filter (fun x => x.1 < 16 && x.2 < 72) }

/-- What a stage finds: dies that fail, spares brought in, banks retired; a retired bank outside the pool fails the pair (R393). -/
def State.takeReport (s : State) (r : StageReport) : State :=
  let r := reportHere s r
  let s := r.badDies.foldl State.failsTest s
  let s := s.onFaults (fun f => { f with
    spareRows := f.spareRows ++ r.spareRows, spareCols := f.spareCols ++ r.spareCols, spareBanks := f.spareBanks ++ r.spareBanks
    tsvSpares := f.tsvSpares ++ r.tsvSpares, retiredBanks := f.retiredBanks ++ r.retiredBanks })
  let s := r.spareBanks.foldl (fun t b => t.modBcl b.1 (fun c => bringSpare b.2 (c.spareMap.length % 2) c)) s
  let s := r.retiredBanks.foldl (fun t b => t.countStack b.1 (fun c => { c with retiredBanks := inc64 c.retiredBanks })) s
  (r.retiredBanks.filter (fun b => poolBanks s.variant ≤ b.2)).foldl (fun t b => t.failsTest (40 + b.1)) s

/-- The sections a stage derives from scratch: absent, invalid, or failing their verification (R411). -/
def derivedIn (s : State) (r : StageReport) : List (Nat × Nat) :=
  let lacks := fun (k i : Nat) => !calHas s.mb.serial s.start.record k i
  if s.start.stage = 3 then if lacks 4 0 || !r.regulatorsOk then [(4, 0)] else []
  else if s.start.stage = 4 then ((List.range 2).filter (fun n => !s.faults.hxFailed.contains n && lacks 3 n)).map (fun i => (3, i))
  else if s.start.stage = 6 then
    ((List.range 16).filter (fun n => !s.faults.clFailed.contains n && (lacks 1 n || r.badTrims.contains n))).map (fun n => (1, n))
  else if s.start.stage = 7 then ((List.range 8).filter (fun n => !s.faults.lkFailed.contains n && (lacks 2 n || r.badPresets.contains n))).map (fun n => (2, n))
  else []

/-- CAL_STAT at the end of a boot (Table 18-9). -/
def calStatOf (s : State) (written : Bool) : Nat :=
  let has := fun (k : Nat) => s.start.derived.any (fun d => d.1 = k)
  maskOf ((s.start.derived.filter (fun d => d.1 = 1)).map (·.2)) * 65536 + b2n written * 32
    + b2n (!calHas s.mb.serial s.start.record 5 0) * 16 + b2n (has 4) * 8 + b2n (has 3) * 4 + b2n (has 2) * 2
    + b2n (calHeaderOk s.mb.serial s.start.record)

/-- The PCIe ports train in stage 4, each at a rate and width of R338. -/
def State.trainPorts (s : State) (r : StageReport) : State :=
  let s := s.serveTier
  (List.range 2).foldl (fun t p =>
    let l := nth r.hostLinks p (0, 0)
    if nth r.hostOk p false && linkOk l.1 l.2 && !t.faults.hxFailed.contains p then
      t.modHport p (fun h => { h with up := bit t.regs.hxCtl.toNat p, bar := true, memEnable := true, gts := l.1, lanes := l.2 })
    else t) s

/-- First edge after an instant on the grid of multiples of T (R33). -/
def firstEdgeAfter (t T : Nat) : Nat := (t + 1000000 + T - 1) / max 1 T * T

/-- The controllers of every stack refresh it from an instant on (R133). -/
def State.refreshAll (s : State) (t : Nat) : State := (List.range 16).foldl (fun u c => u.modBcl c (fun x => { x with refreshFrom := t })) s

/-- The bytes of a section of a record. -/
def sectionBytes (b : List Byte) (x : Nat × Nat × Nat × Nat × Nat) : List Byte := slice b x.2.2.1 x.2.2.2.1

/-- A record that a boot may write: valid, its writes raised by 1, with the derived sections and every other one unchanged (R415). -/
def newRecordOk (s : State) (b : List Byte) : Bool :=
  let old := s.start.record
  let kept := (if calHeaderOk s.mb.serial old then calSections old else []).filter (fun x => !s.start.derived.contains (x.1, x.2.1))
  let isKept := fun (x : Nat × Nat × Nat × Nat × Nat) => (calSections b).any (fun y => y.1 = x.1 && y.2.1 = x.2.1 && decide (sectionBytes b y = sectionBytes old x))
  calOk s.mb.serial b && field b 16 4 = field old 16 4 + 1 && kept.all isKept
    && s.start.derived.all (fun d => (calSections b).any (fun y => y.1 = d.1 && y.2.1 = d.2))
    && (calSections b).all (fun y => s.start.derived.contains (y.1, y.2.1) || kept.any (fun x => x.1 = y.1 && x.2.1 = y.2.1))

/-- The end of stage 8: the map, the mirrors, the store's geometry and the pools follow the parts that passed; READY, or SAFE_HALT. -/
def State.finishBoot (s : State) (t : Nat) (r : StageReport) : State :=
  let s := ((isolatedDies s.store.failed).foldl State.failsTest s).refreshAll t
  let bad := s.faults.clFailed
  let good := (List.range 16).filter (fun n => !bad.contains n)
  let banks := (s.faults.retiredBanks.filter (fun b => good.contains b.1 && b.2 < poolBanks s.variant)).length
  let write := !s.start.derived.isEmpty && newRecordOk s r.newRecord
  let stat := calStatOf s write
  let s := s.onStart (fun x => { x with record := if write then r.newRecord else x.record, calStat := BitVec.ofNat 32 stat })
  let s := s.onFaults (fun f => { f with
    clmap := bad.foldl (remap bad) f.clmap
    svActive := if f.svFailed.contains 0 then 1 else 0, svStandby := f.svFailed.isEmpty
    ctActive := if f.ctFailed.contains 0 then 1 else 0, ctStandby := f.ctFailed.isEmpty })
  let s := (s.onReq (fun q => { q with mirrors := bad.foldl (moveMirrors bad) q.mirrors })).onTier (fun u => { u with t1Free := good.length * poolGranules s.variant - banks * 32768 })
  let s : State := match s.store.failed with
    | [] => s
    | d :: _ => s.onStore (fun u => { u with sevenTwo := true, survivors := setDel d (List.range 10) })
  let s := ((List.range 16).foldl (fun t n => t.noteSpares n) s).capChanged
  if good.length < 8 || s.faults.svFailed.length = 2 || s.faults.ctFailed.length = 2 || 4 ≤ s.store.failed.length then
    (s.onStart (fun x => { x with cause := 5 })).safeHalt .byReset
  else
    let s := s.enterReady.onStart (fun x => { x with readyMs := t / 1000000 })
    let s := s.onTick (fun k => { k with firstEdge := firstEdgeAfter t (k.tickUs * 1000), firstIndex := 0 })
    let s := (s.noteSingle).portsChanged
    let s := if 3 ≤ s.store.failed.length then s.needService (nth s.store.failed 2 0) else s
    if good.length < 12 then (s.onFaults (fun f => { f with draining := true })).needService 0 else s

/-- BOOT_STAGE_DONE: the stage in progress completes. Before an image is verified it is the ROMs' own test of the control dies. -/
def execBootStageDone (t : Nat) (r : StageReport) (s : State) : Host.Outcome State Fault Refusal :=
  let s := s.atTime t
  .next (
    if s.start.state = .boot && s.start.resetN && !s.start.firmwareOk then
      let s := (r.badDies.filter (fun c => c = 34 || c = 35)).foldl State.failsTest s
      if s.faults.ctFailed.length = 2 then (s.onStart (fun x => { x with faultN := true, cause := 4 })).noteSentinel else s
    else if s.start.state ≠ .train then s
    else
      let s := s.takeReport r
      let s := s.onStart (fun x => { x with derived := x.derived ++ derivedIn s r })
      let s := if s.start.stage = 4 then (s.trainPorts r).portsChanged else s
      if s.start.stage < 8 then s.onStart (fun x => { x with stage := x.stage + 1 }) else s.finishBoot t r)

/-! ## Warm reset (R33, R376, R418) -/

/-- States in which a warm reset is not ignored. -/
def warmOpen (s : State) : Bool :=
  match s.start.state with
  | .ready => true
  | .serving => true
  | .degraded => true
  | .maintenance => true
  | _ => false

/-- Page groups at a warm reset: each DEMOTING group returns to RESIDENT (R287). -/
def State.abandonDemotions (s : State) : State := s.tier.demoting.foldl (fun t h => (t.towardResident h 0).recheck h) s

/-- Migrations at a warm reset end where they stand: their command completes later with RESET, and what a destination holds is freed. -/
def State.dropMigrations (s : State) : State :=
  let s := s.gelcon.migrations.foldl (fun t m => t.modReq m.1 (fun r => { r with migrating := false })) s
  let s := s.gelcon.incoming.foldl (fun t x => t.dropIncoming x.1) s
  s.onGelcon (fun g => { g with migrations := [], mgmtIn := [] })

/-- The warm reset takes effect, the ticks stopping at a base edge that starts a tick of length T (R33): attempts are discarded, the store is
zeroed, every logic die is reset. -/
def State.startWarm (s : State) (base index T : Nat) : State :=
  let s := s.stopKernels.discardAll .byReset
  let s := s.onTick (fun k => { k with
    gapFrom := k.iv, running := false, inCommit := false, votingOpen := false, votes := [], firstEdge := base, firstIndex := index, tickUs := T, gridSynced := !k.inGroup })
  let s := (s.gelcon.ships.filter (fun x => !x.outgoing)).foldl (fun t x => t.failShip x 2) s
  let s := (s.gelcon.ships.foldl (fun t x => (t.dropShip x.handle).sendEnd (shipPeer x) x.handle x.tc 2) s).dropMigrations.abandonDemotions
  let portReset := fun (p : Nat × Port) => (p.1, { ({} : Port) with wire := p.2.wire, quarantined := p.2.quarantined, viol := p.2.viol, violStart := p.2.violStart })
  let s := s.onGelcon (fun g => { g with ports := g.ports.map portReset })
  let surv : List Nat := match s.store.survivors, s.store.failed with
    | [], d :: _ => setDel d (List.range 10)
    | l, _ => l
  let store : StoreUnit := { failed := s.store.failed, sevenTwo := s.store.sevenTwo || !s.store.failed.isEmpty, reconCount := s.store.reconCount, uncorrCount := s.store.uncorrCount, survivors := surv }
  let bankReset := fun (p : Nat × BankCluster) => (p.1, { ({} : BankCluster) with spareMap := p.2.spareMap, hot := p.2.hot })
  let s := (((s.onBanks (List.map bankReset)).onMatrix (fun _ => [])).onMem (fun m => m.clear 0 3221225472)).onStore (fun _ => store)
  let qz := fun (g : Settings) => { g with regs := { g.regs with qzCtl := ({} : Registers).qzCtl } }
  let s := ((s.onCfg qz).onCfgNext qz).onTel (fun t => { t with qzFallback := 0, qzClip := 0, qzNonfinite := 0 })
  let s := s.onPlan (fun p => { p with
    rows := [], nextRows := [], jobs := [], saved := none, emptyTick := false, emptyRunning := false, drafts := [], shardListed := [], costsEarly := []
    sent := none, costsOut := [], costsDue := [], nanRows := [], running := [], meters := [], reservations := [], kindEnergy := [], faultedJobs := [], finishedJobs := [] })
  let s := s.onHost (fun h => { h with ports := h.ports.map (fun (p : HostPort) => { p with flushes := [] }) })
  s.onStart (fun x => { x with warmPending := false, warmRunning := true, prior := x.state, resetCount := (x.resetCount + 1) % 65536 })

/-- Tick length in microseconds that was configured for the tick after the one in progress. -/
def nextTickUs (s : State) : Nat := (s.tick.frozenCfg.map (·.1)).getD s.tick.tickUs

/-- A warm reset in an execute window, or before the first edge, takes effect at once. -/
def State.warmNow (s : State) : State :=
  if s.tick.running then s.startWarm s.tick.edge s.tick.index s.tick.tickUs else s.startWarm s.tick.firstEdge s.tick.firstIndex s.tick.tickUs

/-- A warm reset at the end of a commit window takes effect at the edge. -/
def State.warmAtEdge (s : State) : State := s.startWarm s.nextEdge (s.tick.index + 1) (nextTickUs s)

/-- WARM_RESET_N: a falling edge held low for 10 µs. -/
def execWarmResetN (t : Nat) (s : State) : Host.Outcome State Fault Refusal :=
  let s := s.atTime t
  .next (
    if !warmOpen s || s.start.warmRunning then s
    else if s.tick.running && s.tick.inCommit then s.onStart (fun x => { x with warmPending := true })
    else s.warmNow)

/-- What the other long commands leave is undone at a warm reset. -/
def State.undoQuiet (s : State) (c : MbCommand) : State :=
  if c.opcode = 0x70 then
    let drop := fun (p : Nat × ModelSlot) => if p.2.loadNext.any (fun x => x.1 = c.slot) then (p.1, { p.2 with loadNext := none }) else p
    s.onModels (fun m => { m with slots := m.slots.map drop })
  else if c.opcode = 0xA0 then ((s.setOther {}).onMb (fun m => { m with staging := none })).capChanged
  else if c.opcode = 0x91 then s.onMb (fun m => { m with calWrite := none })
  else if c.opcode = 0xA1 then s.onMb (fun m => { m with act := .none })
  else s

/-- A command outstanding at a warm reset: kept where its effect has committed, undone and completed with RESET where not; WARM_RESET
itself completes with OK (R360). -/
def State.afterReset (s : State) (c : MbCommand) : State :=
  if c.opcode = 3 && s.start.warmMb.contains c.slot then s.complete c St.ok []
  else if c.phase = 0 then s.complete c St.reset []
  else if c.opcode = 0x71 || c.opcode = 0x46 then s
  else if c.opcode = 0x70 then
    match s.models.slots.find? (fun p => p.2.state = .loading && p.2.loadMb = some c.slot) with
    | some p => s.failLoad p.1 St.reset
    | none => (s.undoQuiet c).complete c St.reset []
  else if c.opcode = 0x75 then s.freeGen (c.aux % 4096) (c.aux / 4096) none St.reset
  else if c.opcode = 0xA1 && s.mb.act = .formerBooting then (s.onMb (fun m => { m with act := .none })).complete c St.ok [3]
  else (s.undoQuiet c).complete c St.reset []

/-- The control dies have rebooted the image in force: ORPHAN and a promotion under way end where one of them is healthy (R418). -/
def State.controlBack (s : State) (ctOk : Bool) : State :=
  let s := s.onMb (fun m => { m with runsB := [m.bootB, m.bootB] })
  if s.faults.takeover.isNone then s
  else if !ctOk then s
  else
    let n := match standbyDie s with | some n => n | none => s.faults.ctActive
    if (isolatedDies s.store.failed).contains (34 + n) then s
    else
    let t := s.onFaults (fun f => { f with
      ctFailed := setDel n f.ctFailed, ctActive := n, ctStandby := f.ctStandby && !(setDel n f.ctFailed).contains (1 - n), takeover := none
      orphan := false, controlLost := false })
    let t := if t.faults.ctFailed = s.faults.ctFailed then t else t.capChanged
    ((t.postEvent St.controlFailover 0 0).portsChanged).noteSentinel

/-- A promotion goes on after a warm reset: one that is not rebuilding issues its reads anew, through new blocks of the store (R287). -/
def State.reissueReads (s : State) (index : Nat) (m : TierMove) : State :=
  match s.group? m.key with
  | none => s
  | some g =>
    if m.kind = 0 && g.state = .promoting && !g.rebuild && !g.readLost then
      (s.onTier (fun t => { t with moves := t.moves.map (fun x =>
        if x.kind = 0 && x.key = m.key then { x with left := 800 * (2048 * g.t2Granules), tick := index - 1, servedBy := 0 } else x) })).openTransit .tier m.key
          (ceilDiv g.t2Granules 32)
    else s

/-- Tier work goes on after a warm reset: reads are issued anew, and fills are made again (R287). -/
def State.resumeTier (s : State) (index : Nat) : State :=
  let s := s.onTier (fun t => { t with servedAt := s.now, fills := t.fills.map (fun f => { f with endsAt := max index f.endsAt }) })
  s.tier.moves.foldl (fun t m => t.reissueReads index m) s

/-- WARM_RESET_COMPLETE: the device returns to its prior state; ticks resume on the grid at least 1 ms later; commands outstanding
complete, those whose doorbells were latched among them, and unconfirmed writes are reissued (R33, R360, R375, R376, R418). -/
def execWarmResetComplete (t : Nat) (ctOk : Bool) (s : State) : Host.Outcome State Fault Refusal :=
  let s := s.atTime t
  .next (
    if !s.start.warmRunning then s
    else
      let T := max 1 (s.tick.tickUs * 1000)
      let n := (t + 1000000 - s.tick.firstEdge + T - 1) / T
      let at' := s.tick.firstIndex + n
      let s := s.onStart (fun x => { x with warmRunning := false, state := x.prior })
      let s := s.onTick (fun k => { k with
        firstEdge := k.firstEdge + n * T, firstIndex := at'
        frozenCfg := if k.pendIndex ≠ 0 && k.pendIndex ≤ at' then none else k.frozenCfg
        pendIndex := if k.pendIndex = 0 then 0 else max at' k.pendIndex })
      let s := ((s.refreshAll t).controlBack ctOk).resumeTier at'
      let s := s.reissueAll
      if s.sceolUp then
        let s := s.takeLatched
        let s := s.mb.outstanding.foldl State.afterReset s
        s.onStart (fun x => { x with warmMb := [] })
      else s)

end Sys2Proof.Machine
end

