-- ==== Sys2Proof/Machine/Power.lean ====
section
/-! DEFINITION. References and PPS (R28, R29), the governor and the current protection (R21, R25, R422), thermal limits and throttling
(R426 to R428, Table 19-6), and the measurements of each millisecond (R432, R440).
Readings of the spec: logs 46, 47. -/

namespace Sys2Proof.Machine

open Sys2Proof

/-! ## References (R28, R29) -/

/-- PPS_EDGE: a rising edge is stamped while pps_en is set; with pps_snap, before SERVING is first entered, an edge that does not fall on
a whole multiple of 10^9 has Invar stepped to one (which one is not stated), so that the next, a second later, falls on the one after. DESIGN
CHOICE (log 47): a step of Invar in READY leaves the tick grid, its first edge, the edges already placed and the commit-open, as it was. -/
def execPpsEdge (t : Nat) (s : State) : Host.Outcome State Fault Refusal :=
  let s := s.atTime t
  let s := if bit s.cfg.ivCtl.toNat 2 then s.onTick (fun k => { k with ppsStamp := k.iv, ppsSeen := true }) else s
  .next (
    if s.start.state ≠ .off && bit s.cfg.ivCtl.toNat 3 && !s.tick.everServing && s.tick.iv % 1000000000 ≠ 0 then
      (s.onTick (fun k => { k with iv := Config.ppsSecond s.freeCtr % 18446744073 * 1000000000 })).draw
    else s)

/-- REFERENCE_LOST: the selected reference stops: ref_lost and holdover, running free on the oscillator. -/
def execReferenceLost (t : Nat) (s : State) : Host.Outcome State Fault Refusal :=
  let s := s.atTime t
  .next (if refSel s = 0 then s else s.onTick (fun k => { k with refLost := true, holdover := true, locked := false }))

/-- REFERENCE_RESTORED: discipline resumes without a step. -/
def execReferenceRestored (t : Nat) (s : State) : Host.Outcome State Fault Refusal :=
  let s := s.atTime t
  .next (if refSel s = 0 then s else s.onTick (fun k => { k with holdover := false, locked := true }))

/-! ## Governor and current (R25, R422) -/

/-- A frequency 100 MHz lower, never below half the nominal (R21). -/
def stepDown (nominal f : Nat) : Nat := max (nominal / 2) (f - 100)

/-- Some cluster domain stands above half its nominal frequency. -/
def clustersAbove (s : State) : Bool :=
  (List.range 16).any (fun c => 800 < min (nth s.power.clusterGov c 1600) (nth s.power.clusterTherm c 1600))

/-- GOVERNOR_STEP_DOWN: measured power would breach the envelope, or 4,200 W over a millisecond: the cluster domains are stepped down,
and once they stand at half, the hub domain. -/
def execGovernorStepDown (t watts : Nat) (s : State) : Host.Outcome State Fault Refusal :=
  let s := s.atTime t
  .next (
    if s.start.pwrGood && min s.cfg.envelope 4200 < watts then
      (if clustersAbove s then s.onPower (fun p => { p with clusterGov := p.clusterGov.map (stepDown 1600) })
       else s.onPower (fun p => { p with hubGov := stepDown 2000 p.hubGov })).countStep
        (fun c => { c with governorSteps := inc64 c.governorSteps })
    else s)

/-- OVERCURRENT_STEP: above 130 A for 20 µs: the cluster and hub domains go to half frequency at once. -/
def execOvercurrentStep (t : Nat) (s : State) : Host.Outcome State Fault Refusal :=
  let s := s.atTime t
  .next (if s.start.pwrGood then s.onPower (fun p => { p with clusterGov := List.replicate 16 800, hubGov := 1000 }) else s)

/-- Stopped for a trip (R428): attempts discarded, clocks stopped, FAULT_N, SAFE_HALT. -/
def State.trip (s : State) : State :=
  if s.start.state = .off || s.start.state = .safeHalt then s
  else ((s.onPower (fun p => { p with tripped := true })).safeHalt .byReset).noteSentinel

/-- OVERCURRENT_HALT: above 130 A for 1 ms: SAFE_HALT as for a trip. -/
def execOvercurrentHalt (t : Nat) (s : State) : Host.Outcome State Fault Refusal :=
  let s := s.atTime t
  .next (if s.start.pwrGood then s.trip else s)

/-! ## Thresholds (Table 19-6, R414) -/

/-- A sensor of a DRAM stack, by its code. -/
def isDram (code : Nat) : Bool := inRange code 40 55

/-- A threshold of Table 19-6 in °C for a sensor, 5 °C lower with a generic thermal offset. -/
def threshold (s : State) (code logic dram : Nat) : Nat :=
  (if isDram code then dram else logic) - (if bit s.start.calStat.toNat 4 then 5 else 0)

/-- Alert threshold. -/
def alertAt (s : State) (code : Nat) : Nat := threshold s code 95 88
/-- Throttle threshold. -/
def throttleAt (s : State) (code : Nat) : Nat := threshold s code 100 92
/-- Trip threshold. -/
def tripAt (s : State) (code : Nat) : Nat := threshold s code 110 100

/-- A sensor exists and is read: the device is powered. -/
def sensorOn (s : State) (code : Nat) : Bool := code ≤ 55 && s.start.state ≠ .off

/-- THERM_ALERT_N follows the sensors in alert. -/
def State.noteAlert (s : State) : State :=
  (s.onStart (fun x => { x with thermAlertN := !s.power.alerts.isEmpty })).noteSentinel

/-- THERMAL_ALERT: a sensor reaches its alert threshold: THERM_ALERT_N, and the event once per entry. -/
def execThermalAlert (t code temp : Nat) (s : State) : Host.Outcome State Fault Refusal :=
  let s := s.atTime t
  .next (
    if sensorOn s code && alertAt s code ≤ temp && !s.power.alerts.contains code then
      (((s.onPower (fun p => { p with alerts := p.alerts ++ [code] })).noteAlert).count (fun c => { c with alerts := inc64 c.alerts })).postEvent
        St.thermalAlert code temp
    else s)

/-- A die whose throttling steps the hub domain: hub, link and serving dies. -/
def hubDie (code : Nat) : Bool := inRange code 16 33 || inRange code 36 37

/-- THERMAL_THROTTLE_STEP: in each millisecond in which a logic die stays above its throttle threshold its domain is stepped down; a
stack at its threshold has its streaming capped. -/
def execThermalThrottleStep (t code temp : Nat) (s : State) : Host.Outcome State Fault Refusal :=
  let s := s.atTime t
  .next (
    if !(sensorOn s code && throttleAt s code ≤ temp) then s
    else if isDram code then s.onPower (fun p => { p with dramThrottle := setAdd (code - 40) p.dramThrottle })
    else
      let s := s.onPower (fun p => { p with thermHold := setAdd code p.thermHold })
      if code < 16 then
        let f := min (nth s.power.clusterGov code 1600) (nth s.power.clusterTherm code 1600)
        s.onPower (fun p => { p with clusterTherm := p.clusterTherm.set code (stepDown 1600 f) })
      else if hubDie code then s.onPower (fun p => { p with hubTherm := stepDown 2000 (min p.hubGov p.hubTherm) })
      else s)

/-- THERMAL_TRIP: a sensor reaches its trip threshold; the Sentinels record it. -/
def execThermalTrip (t code temp : Nat) (s : State) : Host.Outcome State Fault Refusal :=
  let s := s.atTime t
  .next (
    if sensorOn s code && s.start.state ≠ .safeHalt && tripAt s code ≤ temp then
      (s.onPower (fun p => { p with tripCode := code, tripTemp := temp % 256 })).trip
    else s)

/-- THERMAL_THRESHOLD_LEFT: a sensor 3 °C below a threshold it had entered leaves it. -/
def execThermalThresholdLeft (t code temp : Nat) (s : State) : Host.Outcome State Fault Refusal :=
  let s := s.atTime t
  let s := if temp + 3 ≤ throttleAt s code then
      s.onPower (fun p => if isDram code then { p with dramThrottle := setDel (code - 40) p.dramThrottle } else { p with thermHold := setDel code p.thermHold })
    else s
  .next (if temp + 3 ≤ alertAt s code then (s.onPower (fun p => { p with alerts := setDel code p.alerts })).noteAlert else s)

/-- DRAM_OVERTEMP_POWER_OFF: in SAFE_HALT, a DRAM sensor at 105 °C or above for 1 s: PWR_REQ is deasserted and tier 1 is lost. -/
def execDramOvertempPowerOff (t code temp : Nat) (s : State) : Host.Outcome State Fault Refusal :=
  let s := s.atTime t
  .next (
    if s.start.state = .safeHalt && isDram code && 105 ≤ temp then
      (s.onStart (fun x => { x with pwrReq := false })).onMem (fun m => m.clear (stackBase 0) 0x10000000000)
    else s)

/-- A domain is raised at a tick edge where neither rule holds it down (R427). -/
def State.raiseClocks (s : State) : State :=
  let held := fun (c : Nat) => s.power.thermHold.contains c
  let hub := s.power.thermHold.any hubDie
  let up := fun (l : List Nat) => (List.range 16).map (fun c => if held c then nth l c 1600 else 1600)
  s.onPower (fun p => { p with
    clusterGov := up p.clusterGov, clusterTherm := up p.clusterTherm
    hubGov := if hub then p.hubGov else 2000, hubTherm := if hub then p.hubTherm else 2000 })

/-! ## Measurements (R432, R440) -/

/-- MEASUREMENT_UPDATE: each millisecond the power and thermal registers, TL_ENERGY_MJ and the millisecond counts follow what was
measured; the readings that R95 and R100 take at o_k come with it (log 25). -/
def execMeasurementUpdate (t watts volts amps logic dram : Nat) (r : Readings) (s : State) : Host.Outcome State Fault Refusal :=
  let s := s.atTime t
  .next (
    if s.start.state = .off then s
    else
      let s := s.onPower (fun p => { p with
        msW := watts % 65536, volts10mv := volts % 65536, amps10ma := amps % 65536, logicMax := logic % 256, dramMax := dram % 256, hotCode := r.hot % 64
        energyMj := add64 p.energyMj (watts % 65536), tickPowerSum := p.tickPowerSum + watts % 65536, tickPowerN := p.tickPowerN + 1 })
      let s := s.onPlan (fun p => { p with readyPowerSum := p.readyPowerSum + watts % 65536, readyPowerN := p.readyPowerN + 1, running := r.running, meters := p.meters ++ r.meters })
      s.count (fun c => { c with
        msWMax := max c.msWMax (watts % 65536)
        logicThrottleMs := add64 c.logicThrottleMs (b2n (s.power.thermHold.any (fun d => d < 16 || hubDie d)))
        dramThrottleMs := add64 c.dramThrottleMs (b2n (!s.power.dramThrottle.isEmpty)) }))

end Sys2Proof.Machine
end

