-- ==== Sys2Proof/Machine/Requests.lean ====
section
/-! DEFINITION. Commands on one request (R74 to R76, R244, Table 16-3), the timers of a request (R77, R78), the end of a commit's
GATHERs (R306), and a tenant's budget window (R92).
Readings of the spec: log 19. -/

namespace Sys2Proof.Machine

open Sys2Proof

/-! ## Commands that name a request (R74) -/

/-- Credits of a request that come before a command of the window, or all of them once it has no more commands (R42). -/
def State.takeCreditsFor (s : State) (n : Nat) (before : Option EventKey) : State :=
  s.takeCreditsOf (fun c => c.1 = n && match before with | none => true | some k => (creditKey s c).before k)

/-- What the window takes for a request before a command of it, or once it has no more commands: its credits, and the messages on its migration,
which follow host events of the same stamp (R42). -/
def State.takeEventsFor (s : State) (n : Nat) (before : Option EventKey) : State :=
  (s.takeCreditsFor n before).takeMgmts (fun x => mgmtSlot x.2.2.2 = some n && match before with | none => true | some k => decide (s.stampOf x.1 < k.1))

/-- A command with an effect on one request acts in its commit window, in the order of R42: REQ_CLOSED for a FREE or CLOSING slot or another
admission, else its body; a request whose causes have all acted is then settled (R74, R80). -/
def State.reqCommand (s : State) (mb op : Nat) (f : MbCommand → Nat → Request → State → State) : State :=
  match s.cmdAt mb [op] with
  | none => s
  | some c =>
    let n := cf c 0 4
    if s.sceolUp && firstDue s c then
      let s := s.begin.takeEventsFor n (some (s.cmdKey c))
      let t := match s.req? n with
        | none => s.complete c St.reqClosed []
        | some r => if reqLive r.state && namesReq c r then f c n r s else s.complete c St.reqClosed []
      (if (dueCommands t n).isEmpty then t.takeEventsFor n none else t).settlePump
    else s

/-- REQ_CANCEL: the request closes with CANCELLED and its attempt is discarded, even where it is on time (R75). -/
def execReqCancel (mb : Nat) (s : State) : Host.Outcome State Fault Refusal :=
  .next (s.reqCommand mb 0x40 (fun c n _ s => (s.closeReq n St.cancelled 0).complete c St.ok []))

/-- Pauses and resumes of a request that wait on its settlement in this window. -/
def marksOf (l : List (Nat × Nat)) (n : Nat) : Nat := (l.filter (fun p => p.1 = n)).length

/-- A pause of this window is still pending for the request. -/
def pausePending (s : State) (n : Nat) : Bool := marksOf s.req.resumeMarks n < marksOf s.req.pauseMarks n

/-- A command waits on the settlement of its request; one that finds it settled acts at once. -/
def State.waitSettle (s : State) (c : MbCommand) (n : Nat) : State :=
  let s := s.setCmd { c with phase := 1 }
  if s.req.unsettled.contains n then s else s.settleMarks n

/-- REQ_PAUSE: waits on the settlement of the attempt; while another of the window is pending it completes OK (R74, R76). -/
def execReqPause (mb : Nat) (s : State) : Host.Outcome State Fault Refusal :=
  .next (s.reqCommand mb 0x41 (fun c n r s =>
    if r.state = .prefilling || r.state = .decoding then
      if pausePending s n then s.complete c St.ok []
      else (s.onReq (fun u => { u with pauseMarks := u.pauseMarks ++ [(n, c.slot)] })).waitSettle c n
    else s.complete c St.badState []))

/-- REQ_RESUME: PAUSED returns to its prior state, PARKED goes to RESUMING and its pages are promoted; a pending pause of the
window is undone (R74, R76, R80, R279). -/
def execReqResume (mb : Nat) (s : State) : Host.Outcome State Fault Refusal :=
  .next (s.reqCommand mb 0x42 (fun c n r s =>
    if r.state = .paused then (s.modReq n (fun q => { q with state := q.priorState, priorState := .free, timer := 0 })).complete c St.ok []
    else if r.state = .parked then ((s.modReq n (fun q => { q with state := .resuming, timer := 0 })).resumeWalk n).complete c St.ok []
    else if (r.state = .prefilling || r.state = .decoding) && pausePending s n then
      (s.onReq (fun u => { u with resumeMarks := u.resumeMarks ++ [(n, c.slot)] })).waitSettle c n
    else s.complete c St.badState []))

/-- REQ_DRAFT: the draft text of a source-0x03 request is replaced by what its command's address holds, where it can be read (R244). -/
def execReqDraft (mb : Nat) (text : Option (List Nat)) (s : State) : Host.Outcome State Fault Refusal :=
  .next (s.reqCommand mb 0x43 (fun c n r s =>
    if !inRange (cf c 16 2) 1 4096 || cf c 8 8 % 4 ≠ 0 then s.complete c St.badArgument []
    else if r.spec.source ≠ 3 then s.complete c St.badState []
    else
      match text with
      | none => s.complete c St.badAddress []
      | some t =>
        ((s.hostRead c.port (cf c 8 8) (4 * cf c 16 2)).modReq n (fun q => { q with draftText := t.take (cf c 16 2) })).complete c St.ok []))

/-- Code of a request state (R72). -/
def reqCode : ReqState → Nat
  | .free => 0
  | .admitted => 1
  | .importing => 2
  | .prefilling => 3
  | .decoding => 4
  | .paused => 5
  | .parked => 6
  | .resuming => 7
  | .closing => 8

/-- The rflags word (Table 3-1). -/
def flagsWord (f : ReqFlags) : Nat :=
  b2n f.recomputeOk + 2 * b2n f.follow + 4 * b2n f.noShare + 8 * b2n f.logprob + 16 * b2n f.notify + 32 * b2n f.held + 64 * b2n f.specDegraded
    + 128 * b2n f.streamStalled + 256 * b2n f.imported + 512 * b2n f.retried + 1024 * b2n f.bf16Pending

/-- The 32 bytes of sampler parameters (Table 9-1). -/
def samplerBytes (p : SamplerParams) : List Byte :=
  leBytes 4 p.temperature.toNat ++ leBytes 4 p.topP.toNat ++ leBytes 4 p.minP.toNat ++ leBytes 4 p.repPenalty.toNat ++ leBytes 4 p.presence.toNat
    ++ leBytes 2 p.topK ++ leBytes 2 p.nbias ++ leBytes 1 (b2n p.promptSeen + 2 * b2n p.allowedEn + 4 * b2n p.numericRetry) ++ leBytes 1 p.nstop
    ++ List.replicate 6 0

/-- The 16 bytes of a speculation policy in an entry: the descriptor's bytes 0 to 7, then draft_root (R239). -/
def specBytes (r : Request) : List Byte :=
  leBytes 1 r.spec.source ++ leBytes 1 (b2n r.spec.reject) ++ leBytes 1 r.spec.maxNodes ++ leBytes 1 r.spec.maxDepth ++ leBytes 1 r.spec.matchN
    ++ leBytes 1 r.spec.fanout ++ leBytes 2 r.spec.draftLen ++ leBytes 8 r.draftRoot

/-- The 256 bytes of a Request Table entry (Table 3-1). -/
def tableEntry (r : Request) : List Byte :=
  leBytes 1 (reqCode r.state) ++ leBytes 1 r.priority ++ leBytes 2 (flagsWord r.flags) ++ leBytes 4 r.committedLen ++ leBytes 4 r.nextSeq
    ++ leBytes 4 r.promptLen ++ leBytes 8 r.pageRoot ++ leBytes 8 r.deadline ++ leBytes 2 r.tenant ++ leBytes 2 r.domain ++ leBytes 1 r.modelSlot
    ++ leBytes 1 r.alloyGen ++ leBytes 2 (r.alloyId + 32768 * b2n r.alloyEn) ++ leBytes 8 r.promptAddr ++ leBytes 8 r.ringAddr ++ leBytes 1 r.ringLog2
    ++ leBytes 1 r.withheld ++ [0, 0] ++ leBytes 4 r.creditCount ++ leBytes 8 r.timer ++ leBytes 4 r.holdMs ++ leBytes 4 r.ttlS
    ++ leBytes 8 r.seed.toNat ++ samplerBytes r.sampler ++ (List.range 8).flatMap (fun k => leBytes 4 (nth r.endIds k 0)) ++ leBytes 8 r.auxRoot
    ++ specBytes r ++ leBytes 4 r.newCount ++ leBytes 4 r.maxNew ++ leBytes 8 r.admitTick ++ leBytes 8 r.commitTick ++ leBytes 8 r.importHandle
    ++ leBytes 8 r.userTag.toNat ++ leBytes 1 (reqCode r.priorState) ++ List.replicate 39 0

/-- The 256 bytes of entry n; a FREE one is all zero (R55). -/
def State.entryOf (s : State) (n : Nat) : List Byte :=
  match s.req? n with
  | none => List.replicate 256 0
  | some r => tableEntry r

/-- Device address at which the Request Table mirror of a stack begins: the top 256 MiB of the stack (R54). -/
def mirrorBase (s : State) (stack : Nat) : Nat := t1Addr stack (banksOf s.variant - 4) 0 0

/-- What tier 1 holds at an address of a mirror: entry n of the table lies at the mirror's base + 256 n (R54). -/
def mirrorByte (s : State) (a : Nat) : Option Byte :=
  (s.req.mirrors.find? (fun c => mirrorBase s c ≤ a && a < mirrorBase s c + 268435456)).map (fun c =>
    nth (s.entryOf ((a - mirrorBase s c) / 256)) ((a - mirrorBase s c) % 256) 0)

/-- REQ_QUERY: the request as committed at the last edge; REQ_CLOSED for a FREE slot or another admission (Table 16-3). -/
def execReqQuery (mb : Nat) (s : State) : Host.Outcome State Fault Refusal :=
  .next (runI s mb 0x44 (fun c s =>
    match tabGet (cf c 0 4) s.req.edgeTable with
    | none => .error St.reqClosed
    | some r =>
      if namesReq c r then
        .ok (s, leBytes 1 (reqCode r.state) ++ leBytes 1 r.priority ++ leBytes 2 (flagsWord r.flags) ++ leBytes 4 r.committedLen ++ leBytes 4 r.nextSeq
          ++ leBytes 4 r.newCount ++ leBytes 4 r.creditCount ++ leBytes 1 r.withheld)
      else .error St.reqClosed))

/-- REQ_MIGRATE: in its commit window the request stops being planned; its entry is sent to the destination once the window has
settled it (R381, Table 17-2). -/
def execReqMigrate (mb : Nat) (s : State) : Host.Outcome State Fault Refusal :=
  .next (s.reqCommand mb 0x45 (fun c n r s =>
    let dst := cf c 8 2
    if !s.tick.inGroup || groupOf dst ≠ s.tick.group || dst = identityOf s || 512 ≤ dst then s.complete c St.badArgument []
    else if !(r.state = .prefilling || r.state = .decoding || r.state = .paused) || r.migrating then s.complete c St.badState []
    else ((s.modReq n (fun q => { q with migrating := true })).onGelcon (fun g => { g with migrations := g.migrations ++ [(n, dst, 0)] })).setCmd
      { c with phase := 1 }))

/-! ## Timers (R77, R78, R80) -/

/-- A request of this window whose commands have all acted. -/
def timersReady (s : State) (n : Nat) : Bool := s.tick.inCommit && s.req.unsettled.contains n && (dueCommands s n).isEmpty

/-- DEADLINE_EXPIRY: its deadline lies before t_{k+1}: it closes with DEADLINE and its attempt is discarded (R45, R78). -/
def execDeadlineExpiry (slot : Nat) (s : State) : Host.Outcome State Fault Refusal :=
  .next (
    match s.req? slot with
    | none => s
    | some r => if timersReady s slot && deadlineDue s r then (s.settleTimers slot).settlePump else s)

/-- HOLD_EXPIRY: its hold has ended: PAUSED becomes PARKED (R77). -/
def execHoldExpiry (slot : Nat) (s : State) : Host.Outcome State Fault Refusal :=
  .next (
    match s.req? slot with
    | none => s
    | some r => if timersReady s slot && holdDue s r && !deadlineDue s r then (s.settleTimers slot).settlePump else s)

/-- TTL_EXPIRY: its time-to-live has ended: PARKED closes with TTL_EXPIRED (R77). -/
def execTtlExpiry (slot : Nat) (s : State) : Host.Outcome State Fault Refusal :=
  .next (
    match s.req? slot with
    | none => s
    | some r => if timersReady s slot && ttlDue s r && !deadlineDue s r then (s.settleTimers slot).settlePump else s)

/-- A RESUMING request whose page groups are all RESIDENT returns to its prior state (R76). -/
def State.resumeDone (s : State) (slot : Nat) : State :=
  match s.req? slot with
  | none => s
  | some r =>
    if r.state = .resuming && allResident s r && !s.req.unsettled.contains slot then
      s.modReq slot (fun q => { q with state := q.priorState, priorState := .free })
    else s

/-- RESUME_COMPLETE: in a commit window, R76. -/
def execResumeComplete (slot : Nat) (s : State) : Host.Outcome State Fault Refusal :=
  .next (if s.tick.inCommit then s.resumeDone slot else s)

/-! ## GATHERs and budgets -/

/-- The GATHERs of a commit have ended: the entries that waited for them are written, and FINAL where it closes (R306). -/
def State.writeDue (s : State) (slot : Nat) : State :=
  match s.req.outsDue.find? (fun o => o.1 = slot) with
  | none => s
  | some o =>
    let s := s.endGathers slot
    let s := s.onReq (fun u => { u with outsDue := u.outsDue.filter (fun x => x.1 ≠ slot) })
    let s := s.writeTokens slot o.2.1
    if o.2.2 = 0 then s else s.writeFinal slot (o.2.2 - 1)

/-- COMMIT_GATHERS_DONE: the GATHERs of a request's commit have ended: its entries are written (R253, R306). -/
def execCommitGathersDone (slot : Nat) (s : State) : Host.Outcome State Fault Refusal :=
  .next (if s.tick.inCommit then s.writeDue slot else s)

/-- A tenant's window begins at the edge of the tick in progress. -/
def State.beginWindow (s : State) (t : Nat) : State :=
  let n := s.tenant t
  if n.budgetTokens ≠ 0 && s.tick.index % n.windowTicks = 0 && !s.plan.windowsBegun.contains (t, s.tick.index) then
    let v := ((s.plan.accounts.find? (fun a => a.1 = t)).map (·.2)).getD 0
    s.onPlan (fun p => { p with
      accounts := p.accounts.filter (fun a => a.1 ≠ t) ++ [(t, 64 * Int.ofNat n.budgetTokens + min v 0)]
      windowsBegun := p.windowsBegun.filter (fun w => w.1 ≠ t) ++ [(t, s.tick.index)] })
  else s

/-- BUDGET_WINDOW_START: at a tick edge whose index is a multiple of the window, the account is refilled less its debt (R92). -/
def execBudgetWindowStart (tenant : Nat) (s : State) : Host.Outcome State Fault Refusal :=
  .next (if s.tick.running && !s.tick.inCommit then s.beginWindow tenant else s)

end Sys2Proof.Machine
end

