-- ==== Sys2Proof/Machine/Telemetry.lean ====
section
/-! DEFINITION. Snapshots (R435) and the statistics blocks that STATS_READ writes (R436 to R439, Tables 20-1 to 20-8).
Readings of the spec: log 48. -/

namespace Sys2Proof.Machine

open Sys2Proof

/-! ## Snapshots (R435) -/

/-- What the block holds of statistics, frozen as snapshot k with its stamp. -/
def snapshotOf (s : State) (k stamp : Nat) : Snapshot :=
  { tick := k, stamp := stamp, counters := s.tel.live, energyMj := s.power.energyMj, tickW := s.power.tickW, logicMax := s.power.logicMax
    dramMax := s.power.dramMax
    widths := (List.range (portCount s.variant)).map (fun p => (p, popCount (s.gport p).laneMask 4))
    recon := s.store.reconCount, uncorr := s.store.uncorrCount
    spares := (List.range 16).map (fun n => (n, (s.faults.spareRows.filter (fun x => x.1 = n)).length, (s.faults.spareCols.filter (fun x => x.1 = n)).length,
      (s.faults.spareBanks.filter (fun x => x.1 = n)).length, (s.faults.tsvSpares.filter (fun x => x.1 = n)).length))
    tenants := s.cfg.tenants.map (fun p => (p.1, tabGetD p.1 0 s.tier.used1, tabGetD p.1 0 s.tier.used2, tabGetD p.1 0 s.plan.accounts))
    slots := (List.range 16).filterMap (fun m => if (s.mslot m).state = .resident then some (m, 8 * ((s.mslot m).info.layers + 1)) else none)
    bootLog := s.start.bootLog }

/-- A snapshot that was frozen before is readable by the time of the next edge. -/
def State.freeze (s : State) (k stamp : Nat) : State :=
  s.onTel (fun t => { t with readable := if t.frozen.isSome then t.frozen else t.readable, frozen := some (snapshotOf s k stamp) })

/-- SNAPSHOT_READABLE: the snapshot frozen at the edge becomes readable. -/
def execSnapshotReadable (t : Nat) (s : State) : Host.Outcome State Fault Refusal :=
  let s := s.atTime t
  .next (if s.tel.frozen.isSome then s.onTel (fun t => { t with readable := t.frozen, frozen := none }) else s)

/-! ## Blocks (Tables 20-1 to 20-8) -/

/-- 64-bit values, little-endian. -/
def u64s (l : List Nat) : List Byte := l.flatMap (leBytes 8)

/-- A record padded with zeros to its size. -/
def padTo (n : Nat) (b : List Byte) : List Byte := slice b 0 n

/-- Step record (Table 20-3). -/
def stepRecord (c : StepCounters) : List Byte :=
  padTo 256 (u64s [c.ticks, c.attempts, c.committed, c.late, c.discardedEvent, c.droppedGroup, c.droppedPoison, c.nonfinite, c.genTokens,
    c.prefillTokens, c.treeRows, c.treeNodes, c.draftedAccepted, c.overrange, c.underrange, c.scaleFallbacks, c.preemptions, c.jobFaults,
    c.governorSteps, c.skippedPower, c.skippedBudget, c.skippedOther, c.cutGather, c.discardedReset, c.discardedFault])

/-- Stack record (Table 20-4). -/
def stackRecord (c : StackCounters) (sp : Nat × Nat × Nat × Nat) : List Byte :=
  padTo 96 (u64s [c.corrected, c.uncorrectable, c.taints, c.taintOverflows, c.scrubRows, c.poisons, c.rebuilds]
    ++ leBytes 4 sp.1 ++ leBytes 2 sp.2.1 ++ leBytes 1 sp.2.2.1 ++ leBytes 1 sp.2.2.2 ++ leBytes 8 c.retiredBanks)

/-- Store record (Table 20-4). -/
def storeRecord (n : Snapshot) : List Byte :=
  let c := n.counters.store
  padTo 96 (u64s [n.recon, n.uncorr, c.reservationWaits, c.storeBounds, c.poisonedReads])

/-- Gelcon port record (Table 20-5); all zero for a port that is absent. -/
def portRecord (n : Snapshot) (p : Nat) : List Byte :=
  match tabGet p n.widths with
  | none => List.replicate 64 0
  | some w =>
    let c := tabGetD p {} n.counters.ports
    padTo 64 (u64s [c.flitsTx, c.flitsRx, c.fecCorrected, c.fecUncorrectable, c.crcErrors, c.seqGaps, c.violations]
      ++ leBytes 2 c.laneRetirements ++ leBytes 1 c.quarantines ++ leBytes 1 w)

/-- Power and thermal record (Table 20-6). -/
def powerRecord (n : Snapshot) : List Byte :=
  let c := n.counters
  padTo 64 (u64s [n.energyMj, c.logicThrottleMs, c.dramThrottleMs, c.alerts] ++ leBytes 2 n.tickW ++ leBytes 2 c.msWMax ++ leBytes 1 n.logicMax ++ leBytes 1 n.dramMax)

/-- Conversion record (R195, Table 20-7). -/
def convRecord (c : ConvStat) : List Byte :=
  let n := fpOfInt c.n
  let w := fun (x : U32) => leBytes 4 x.toNat
  (if c.n = 0 then List.replicate 16 0 else w (fpDiv c.sse n) ++ w (fpDiv c.sse c.ssx) ++ w (fpDiv c.mag n) ++ leBytes 4 (min c.n 4294967295))
    ++ leBytes 8 c.fallbacks ++ leBytes 8 c.clips

/-- Conversion record of a tensor slot. -/
def convOf (n : Snapshot) (m j : Nat) : ConvStat := (n.counters.conv.find? (fun x => x.slot = m && x.tslot = j)).getD { slot := m, tslot := j }

/-- Tenant record (Table 20-8); all zero for a tenant that has never been configured. -/
def tenantRecord (n : Snapshot) (q : Nat) : List Byte :=
  match tabGet q n.tenants with
  | none => List.replicate 64 0
  | some g =>
    let c := tabGetD q {} n.counters.tenants
    u64s [c.clusterNs, c.bankNs, c.hubBytes, c.genTokens, c.prefillTokens, g.1, g.2.1] ++ leBytes 8 (BitVec.ofInt 64 g.2.2).toNat

/-- Record of the measured-boot log (R409). -/
def logRecord (r : Nat × BitVec 384) : List Byte := leBytes 2 r.1 ++ List.replicate 14 0 ++ leBytes 48 r.2.toNat

/-- Record size and records of a block; none where the block is not listed (Table 20-1). -/
def blockRecords (n : Snapshot) (b : Nat) : Option (Nat × List (List Byte)) :=
  if b = 1 then some (256, [stepRecord n.counters.step])
  else if b = 2 then some (96, (List.range 16).map (fun i => stackRecord (tabGetD i {} n.counters.stackRecs) (tabGetD i (0, 0, 0, 0) n.spares)) ++ [storeRecord n])
  else if b = 3 then some (64, (List.range 21).map (portRecord n))
  else if b = 4 then some (64, [powerRecord n])
  else if b = 0x100 then some (64, (n.bootLog.take 32).map logRecord)
  else if 0x200 ≤ b && b < 0x210 then some (32, (List.range (tabGetD (b - 0x200) 0 n.slots)).map (fun j => convRecord (convOf n (b - 0x200) j)))
  else if 0x1000 ≤ b && b < 0x1010 then some (64, (List.range 4096).map (fun i => tenantRecord n (4096 * (b - 0x1000) + i)))
  else none

/-- A whole block: the header of Table 20-2 and its records. -/
def statsBlock (n : Snapshot) (b size : Nat) (l : List (List Byte)) : List Byte :=
  leBytes 2 b ++ [1, 0] ++ leBytes 4 size ++ leBytes 4 l.length ++ leBytes 4 0 ++ leBytes 8 n.tick ++ leBytes 8 n.stamp ++ l.flatten

/-- STATS_READ: the block from the latest readable snapshot, all zero before the first; nothing is written where it
fails; while no port is up the transfer waits (R349). -/
def execStatsRead (mb : Nat) (ok : Bool) (s : State) : Host.Outcome State Fault Refusal :=
  .next (if s.noPort then s else runI s mb 0x80 (fun c s =>
    let n := s.tel.readable.getD {}
    match blockRecords n (cf c 0 2) with
    | none => .error St.badArgument
    | some r =>
      if cf c 4 4 < 32 + r.1 * r.2.length then .error St.badLength
      else if !ok then .error St.badAddress
      else
        let b := statsBlock n (cf c 0 2) r.1 r.2
        .ok (s.bufferWrite c.port (cf c 8 8) b, leBytes 4 b.length ++ leBytes 4 0 ++ leBytes 8 n.tick)))

end Sys2Proof.Machine
end

