-- ==== Sys2Proof/Machine/Commit.lean ====
section
/-! DEFINITION. The two rows the clock gives a tick: COMMIT_OPEN, at o_k (R36 to R44), and TICK_EDGE, at t_{k+1} (R32, R33, R38, R39).
Readings of the spec: logs 8, 13. -/

namespace Sys2Proof.Machine

open Sys2Proof

/-! ## Configuration (R44) -/

/-- Entries of a domain go where its key has changed (R273). -/
def State.rekey (s : State) (old : Settings) : State :=
  s.dropEntries (fun e => decide ((tabGetD e.domain ({} : Domain) old.domains).keyGen ≠ (s.domain e.domain).keyGen))

/-- What the commands have set is in force from now on: entries of a domain whose key has changed go, accounts of tenants without a
budget are dropped, tier traffic has been served at the old cap until now, ports whose enable bits are clear go down, model slots are pinned as set (R44, R92, R273, R289, R337, R349). -/
def State.applyConfig (s : State) : State :=
  let old := s.cfg
  let s := (s.serveTier.onCfg (fun _ => s.cfgNext)).rekey old
  let s := s.onPlan (fun p => { p with accounts := p.accounts.filter (fun a => (s.tenant a.1).budgetTokens ≠ 0) })
  let s := (List.range 2).foldl (fun t p => if bit t.regs.hxCtl.toNat p then t else t.declareDown p) s
  let s := if bit s.regs.glCtl.toNat 0 then s
    else (s.gelcon.ports.filter (fun p => p.2.trained)).foldl (fun t p => t.portFalls p.1 (fun g => { g with trained := false, laneMask := 0 })) s
  s.onModels (fun m => { m with slots := m.slots.map (fun p => (p.1, { p.2 with pinned := s.cfg.pins.contains p.1 })) })

/-- T and C that TICK_CONFIG has set for the next tick are frozen with its inputs (R53). -/
def State.freezeTick (s : State) : State :=
  if s.tick.pendIndex ≠ 0 && s.tick.pendIndex ≤ s.tick.index + 1 then s.onTick (fun k => { k with frozenCfg := k.pendCfg }) else s

/-! ## The planner's books (R92, R100, R110) -/

/-- Budget windows that began at this tick's edge have begun for every tenant (R92). -/
def State.beginWindows (s : State) : State := s.cfg.tenants.foldl (fun t p => t.beginWindow p.1) s

/-- The fault counts of the tick's jobs; a slot that reaches 3 is quarantined (R110). -/
def State.countFaults (s : State) : State :=
  let s := (s.plan.finishedJobs.filter (fun m => !s.plan.faultedJobs.contains m)).foldl (fun t m =>
    t.onPlan (fun p => { p with faultRun := tabDel m p.faultRun })) s
  s.plan.faultedJobs.foldl (fun t m =>
    let n := tabGetD m 0 t.plan.faultRun + 1
    let t := t.onPlan (fun p => { p with faultRun := tabPut m n p.faultRun })
    if n = 3 then (t.onPlan (fun p => { p with quar := setAdd m p.quar })).postEvent St.modelQuarantined m 0 else t) s

/-- A correction factor in 1/65,536 units after a tick: one eighth of the way to measured uJ over estimated mJ, within 0.5 to 2.0 (R100). -/
def corrNext (f : Nat) (uj : Int) (est : Nat) : Nat :=
  let g := Int.ofNat f + (uj * 65536 / Int.ofNat (est * 1000) - Int.ofNat f) / 8
  min 131072 (max 32768 g.toNat)

/-- The share of an interval's energy, in uJ, that a kernel kind takes on a die: the energy less the die's mean in row-less ticks, split by
engine time (R100). It may lie below zero. -/
def meterShare (s : State) (key : Nat × Nat) (m : Meter) : Int :=
  let all := sumN (m.ran.map (fun x => x.2.2))
  let mine := sumN ((m.ran.filter (fun x => (x.1, x.2.1) = key)).map (fun x => x.2.2))
  let idle : Int := match s.plan.idleEnergy.find? (fun x => x.1 = m.die) with | none => 0 | some x => Int.ofNat x.2.1 / Int.ofNat (max 1 x.2.2)
  (Int.ofNat m.uj - idle) * Int.ofNat mine / Int.ofNat (max 1 all)

/-- The measured energy of a kernel kind in a tick, in uJ, summed over dies, stacks and intervals (R100). -/
def measuredKind (s : State) (meters : List Meter) (key : Nat × Nat) : Int := (meters.map (meterShare s key)).foldl (· + ·) 0

/-- The energy that dies and stacks drew in a row-less tick joins their mean (R100). -/
def State.noteIdle (s : State) (meters : List Meter) : State :=
  if s.plan.rows.isEmpty then
    s.onPlan (fun p => { p with idleEnergy := meters.foldl (fun l m =>
      match l.find? (fun x => x.1 = m.die) with
      | none => l ++ [(m.die, m.uj, 1)]
      | some _ => l.map (fun x => if x.1 = m.die then (m.die, x.2.1 + m.uj, x.2.2 + 1) else x)) p.idleEnergy })
  else s

/-- The correction factors of the kernel kinds that ran (R100). -/
def State.updateCorr (s : State) (meters : List Meter) : State :=
  if bit s.regs.pwrCtl.toNat 8 then
    s.plan.kindEnergy.foldl (fun t e =>
      if e.2 = 0 then t
      else
        let f := corrNext (corrOf t e.1.1 e.1.2) (measuredKind s meters e.1) e.2
        t.onPlan (fun p => { p with corr := p.corr.filter (fun c => c.1 ≠ e.1) ++ [(e.1, f)] })) s
  else s

/-- Rows of two or more nodes and their nodes (Table 20-3), counted at the home of each. -/
def State.countTrees (s : State) : State :=
  s.plan.rows.foldl (fun t row =>
    match t.req? row.slot with
    | none => t
    | some r =>
      let n := r.probeTree.length
      if row.kind = .decode && 2 ≤ n && homedHere t r then
        t.countStep (fun c => { c with treeRows := inc64 c.treeRows, treeNodes := add64 c.treeNodes n })
      else t) s

/-! ## The Tier Manager's share (R76, R277, R278, R280) -/

/-- Groups whose rewrites have ended in an execute window are published, in marking order (R277). -/
def State.publishAll (s : State) : State :=
  (s.tier.publish.filter (fun h => match s.group? h with
    | none => true
    | some g => g.rewritten && match g.markTick with | none => true | some k => decide (k < s.tick.index))).foldl State.publishGroup s

/-- Groups that were refused frames before, and are still wanted, ask again; idle groups of PARKED requests depart (R278, R279). -/
def State.retryGroups (s : State) : State :=
  let s := (s.req.table.filter (fun p => p.2.state = .resuming)).foldl (fun t p => t.resumeWalk p.1) s
  let s := (s.tier.groups.filter (fun g => g.2.state = .parked && (g.2.pinned || !idleGroup s g.1 g.2))).foldl (fun t g => t.towardResident g.1 0) s
  (s.req.table.filter (fun p => p.2.state = .parked)).foldl (fun t p => t.parkDemote p.1) s

/-! ## COMMIT_OPEN -/

/-- The migrations that failed in the execute window end (Table 17-2). -/
def State.endFailed (s : State) : State :=
  (s.gelcon.migrations.filter (fun m => m.2.2 = 8)).foldl (fun t m => t.endMigration m.1 St.busy) s

/-- Messages on migrations of requests that no command of the window names; the others are taken among the commands, in the order of R42. -/
def State.takeFreeMgmts (s : State) : State :=
  s.takeMgmts (fun x => !isPrepare x.2.2.2 && match mgmtSlot x.2.2.2 with | none => true | some n => (dueCommands s n).isEmpty)

/-- Sharded requests homed here lose a shard that has sent no SYNC for 100 edges (R380). -/
def State.closeLost (s : State) : State :=
  let gone := (s.tick.syncGaps.filter (fun g => 100 ≤ g.2)).map (fun g => memberIdent s g.1)
  (s.req.table.filter (fun p => reqLive p.2.state && homedHere s p.2 && p.2.shards.any (fun d => gone.contains d))).foldl
    (fun t p => t.markFault p.1 St.faultDevice) s

/-- Slots in the order in which a window settles them: rows in plan order, then the others. -/
def settleOrder (s : State) : List Nat :=
  let rows := (s.plan.rows.map (·.slot)).filter (fun n => (s.req? n).isSome)
  rows ++ (s.req.table.map (·.1)).filter (fun n => !rows.contains n)

/-- Settling begins: rows in plan order, then the others (R306). -/
def State.settleOpen (s : State) : State := (s.onReq (fun u => { u with unsettled := settleOrder s })).settlePump

/-- The loader drops what it staged for plan k (R157). -/
def State.dropStaging (s : State) : State :=
  s.allMcl (fun c => settleHalves { c with staging := [], holds := c.holds.filter (fun h => !h.ingot) })

/-- The jobs of the plan built have their semaphores (R216). -/
def State.grantSems (s : State) : State :=
  let n := sumN ((jobsOf s s.plan.nextRows).map (·.sems.length))
  s.onPlan (fun p => { p with nextSems := n })

/-- Plan k+1 as first built, with the refused allocations that it counts left to its final building (log 8). -/
def State.planFirst (s : State) : State :=
  let t := s.buildPlan.grantSems
  t.onTier (fun u => { u with evRefused := s.tier.evRefused })

/-- What COMMIT_OPEN does at o_k, with the measures of the kernels stopped there and the regulators' readings of the tick. -/
def State.openCommit (s : State) : State :=
  let stopped := s.plan.running
  let meters := s.plan.meters
  let s := s.onPlan (fun p => { p with running := [], meters := [] })
  let s := ((s.beginWindows.onTick (fun k => { k with iv := max k.iv k.commitOpenAt, inCommit := true })).onPlan (fun p => { p with released := [] })).onReq (fun u =>
    { u with taken := 0, begun := false, unsettled := u.table.map (·.1) })
  let s := ((s.stopKernels.dropStaging).measureStopped stopped).onTier (fun t => { t with pipes := [] })
  let s := s.applyConfig.freezeTick
  let s := s.failLateLoads.applyLosses.applyFetched.settleTicks
  let s := (s.endFailed).takeFreeMgmts
  let s := (s.trimLog.rebindPorts).takeFreeCredits
  let s := s.closeLost.castVotes
  let s := ((s.countTrees.chargeRows).takeEarlyCosts).settleOpen
  let s := (s.countFaults.updateCorr meters).noteIdle meters
  let s := s.publishAll.retryGroups
  let s := (s.takeMgmts (fun x => isPrepare x.2.2.2)).checkIncoming
  let s := (s.planFirst.prefetch).sendShardPlans
  s.endClosedShips

/-- COMMIT_OPEN: at o_k the kernels of plan k stop, the inputs of plan k+1 are frozen, and the commit window begins. -/
def execCommitOpen (s : State) : Host.Outcome State Fault Refusal :=
  .next (if s.tick.running && !s.tick.inCommit then s.openCommit else s)

/-! ## TICK_EDGE: the end of the commit window (R38, R345, R347) -/

/-- Attempts that no request of this device answers for any more end without effect. -/
def State.dropAttempts (s : State) : State :=
  s.plan.attempts.foldl (fun t a => if t.plan.heldRows.any (fun h => h.2.slot = a.slot) then t else t.endAttempt a.slot .byEvent) s

/-- The counts of rings that gave descriptors in this window are written to their head words, each with its ring's vector (R56, R346). -/
def State.writeHeads (s : State) : State :=
  (s.req.rings.filter (fun g => g.2.headDue)).foldl (fun t g =>
    let t := t.modRing g.1 (fun x => { x with headDue := false })
    if g.2.stopped then t else (t.hostWrite g.2.port g.2.headAddr 0 (leBytes 8 g.2.consumed)).raiseVector (2 + g.1) g.2.port) s

/-- The commit window ends: what is unsettled settles, held rows are marked, due entries and head words are written, vectors raised,
flush reads issued. -/
def State.closeWindow (s : State) : State :=
  let s := ((s.chargeShared.takeCredits).takeMgmts (fun x => !isPrepare x.2.2.2)).failLate
  let s := s.req.unsettled.foldl (fun t n => if awaitsSet t n then t.settleTimers n else t.settleForce n) s
  let s := ((s.plan.attempts.filter (fun a => 1048576 ≤ a.slot)).map (·.slot)).foldl (fun t n => t.settleRebuild (n - 1048576)) s
  let s := s.holdRows
  let s := (s.req.unsettled.foldl State.settleForce s).dropAttempts
  let s := ((s.endAllGathers).req.outsDue.map (·.1)).foldl State.writeDue s.endAllGathers
  let s := (s.req.table.map (·.1)).foldl State.resumeDone s
  let s := ((s.gelcon.migrations.filter (fun m => m.2.2 = 0)).foldl (fun t m => t.startMigration m.1 m.2.1) s).endClosedShips
  let s := ((s.followAll.freeRetired).endTransits .pindex).endTransits .rtcache
  let s := s.writeHeads.flushVectors
  ((s.flushRead 0).flushRead 1).onReq (fun u => { u with unsettled := [], gathersDue := [], outsDue := [] })

/-- The empty tick is planned again where its copy was not done (R201). -/
def State.planFinal (s : State) : State :=
  let s := s.onPlan (fun p => { p with emptyTick := p.emptyTick || (p.emptyRunning && s.store.reconfPending && !s.store.restriped) })
  let s := s.buildPlan.notePairs.grantSems
  s.onPlan (fun p => { p with noPlanTicks := p.noPlanTicks - 1 })

/-! ## TICK_EDGE: the edge (R33, R35, R79, R435) -/

/-- CLOSING requests become FREE: references dropped, entries cleared (R79). -/
def State.freeClosing (s : State) : State :=
  let l := s.req.table.filter (fun p => p.2.state = .closing)
  (l.foldl (fun t p => t.dropRequestRefs p.1 p.2) s).onReq (fun u => { u with table := u.table.filter (fun p => p.2.state ≠ .closing) })

/-- The Tier Manager's counts of the tick (Table 11-17). -/
def State.noteTierEvents (s : State) : State :=
  s.onTier (fun t => { t with
    evLast := BitVec.ofNat 64 (sat16 t.evFailures * 2 ^ 48 + sat16 t.evVictims * 2 ^ 32 + sat16 t.evReplaced * 65536 + sat16 t.evRefused)
    evFailures := 0, evVictims := 0, evReplaced := 0, evRefused := 0 })

/-- The measures of the tick that ends: its mean power, its energy where it had no rows, and the sums of SV_PLAN_STAT and
SV_SPEC_STAT (R98, R432, R437). -/
def State.noteTick (s : State) : State :=
  let s := if s.power.tickPowerN = 0 then s else s.onPower (fun p => { p with tickW := p.tickPowerSum / p.tickPowerN })
  let s := if s.plan.rows.isEmpty && s.power.tickPowerN ≠ 0 then
      s.onPlan (fun p => { p with emptyEnergies := (p.emptyEnergies ++ [s.power.tickPowerSum]).drop (p.emptyEnergies.length - 63) })
    else s
  let st := s.plan.planStat.toNat
  (s.countStep (fun c => { c with
    ticks := inc64 c.ticks, skippedPower := add64 c.skippedPower (bits st 63 48), skippedBudget := add64 c.skippedBudget (bits st 47 32)
    skippedOther := add64 c.skippedOther (bits st 31 16), cutGather := add64 c.cutGather (bits s.plan.specStat.toNat 31 16) })).onPower
      (fun p => { p with tickPowerSum := 0, tickPowerN := 0 })

/-- The counts that a snapshot takes per tick start anew (R195, Table 20-6), and the TC0 area is empty again (R319). -/
def State.clearPerTick (s : State) : State :=
  (s.onGelcon (fun g => { g with tc0Used := 0 })).count (fun c => { c with msWMax := 0, conv := c.conv.map (fun x => { x with n := 0, sse := 0, ssx := 0, mag := 0 }) })

/-- The 7 + 2 geometry takes effect at the edge that ends the empty tick: the rows of the nine dies have been written anew (R201), and
store_mib changes (R366). -/
def State.switchStore (s : State) : State :=
  if s.plan.emptyRunning && s.store.restriped then
    (s.onStore (fun u => { u with sevenTwo := true, reconfPending := false, restriped := false, bad := [] })).capChanged
  else s

/-- Logical clusters switch to their new hosts once their shards are placed (R395). -/
def State.switchMap (s : State) : State :=
  match s.faults.remapDue with
  | some map => if s.faults.clsToPlace.isEmpty then s.onFaults (fun f => { f with clmap := map, remapDue := none }) else s
  | none => s

/-- Page groups of the rows of a plan are in use in its tick (R268). -/
def State.touchGroups (s : State) : State :=
  s.plan.rows.foldl (fun t row =>
    match t.req? row.slot with
    | none => t
    | some r => (r.pages ++ r.draftPages).foldl (fun t p => if p.handle = 0 || p.weak then t else t.modGroup p.handle (fun g => { g with lastUse := t.tick32 })) t) s

/-- The trees of an earlier tick are gone: each row's tree is built anew (R243, R252). -/
def State.clearTrees (s : State) : State := s.plan.rows.foldl (fun t row => t.modReq row.slot (fun r => { r with probeTree := [] })) s

/-- Model slots whose jobs the tick's plan holds are in use in it (R289). -/
def State.touchModels (s : State) : State := s.plan.jobs.foldl (fun t j => t.modMslot j.modelSlot (fun m => { m with lastUse := t.tick.index })) s

/-- The tick of an index starts at an edge with T and C in force, its rows those of the plan built for it. -/
def State.startTick (s : State) (index edge T C : Nat) : State :=
  let s := s.onTick (fun k => { k with
    iv := max k.iv edge, index := index, edge := edge, tickUs := T, commitUs := C, commitOpenAt := edge + T * 1000 - C * 1000
    running := true, inCommit := false, votingOpen := false, votes := [], named := [], frozenCfg := none, firstEdge := 0
    pendCfg := if k.pendIndex ≤ index then none else k.pendCfg, pendIndex := if k.pendIndex ≤ index then 0 else k.pendIndex })
  let held := s.plan.attempts.filter (fun a => s.plan.heldRows.any (fun h => h.2.slot = a.slot))
  let s := s.onPlan (fun p => { p with
    rows := p.nextRows, nextRows := [], jobs := jobsOf s p.nextRows
    attempts := held ++ p.nextRows.map (fun r => { slot := r.slot, bf16 := r.bf16 })
    emptyRunning := p.emptyTick, emptyTick := false, shardListed := [], drafts := [], kindEnergy := [], faultedJobs := [], finishedJobs := []
    sent := none, costsOut := [], nanRows := [] })
  let s := ((s.dropReserved (fun k _ => decide (index ≤ k))).onStore (fun u => { u with records := [] })).onTier (fun u => { u with poisonedBuckets := [] })
  let s := s.allMcl (fun c => { c with nextOrdinal := 0 } |> fun c => settleHalves { c with
    staging := c.staging.filter (fun f => s.plan.jobs.any (fun j => j.modelSlot = f.model))
    holds := c.holds.filter (fun h => !h.ingot || s.plan.jobs.any (fun j => j.modelSlot = h.job)) })
  let s := s.onMb (fun m => { m with actTicks := if m.act = .probation then m.actTicks + 1 else m.actTicks })
  let s := s.clearTrees.touchGroups.touchModels.noteSyncs
  s.sendSync

/-- T and C of a tick: those frozen with its inputs, or those that a reset carried over to the tick at which ticks resume (R33, R53). -/
def nextLengths (s : State) (index : Nat) : Nat × Nat :=
  if s.tick.running || s.tick.frozenCfg.isSome then s.tick.frozenCfg.getD (s.tick.tickUs, s.tick.commitUs)
  else if s.tick.pendIndex ≠ 0 && s.tick.pendIndex ≤ index then s.tick.pendCfg.getD (s.tick.tickUs, s.tick.commitUs)
  else (s.tick.tickUs, s.tick.commitUs)

/-- What every tick edge does: the tick that ends is closed and counted, and the next starts, unless a warm reset takes effect there
(R376). -/
def State.edge (s : State) : State :=
  let s := ((s.closeWindow.switchStore).onTick (fun k => { k with iv := max k.iv s.nextEdge })).planFinal
  let k := s.tick.index
  let s := ((s.freeClosing.noteTierEvents).noteTick).freeze k s.nextEdge
  let s := (s.onReq (fun u => { u with edgeTable := u.table })).clearPerTick
  let s := (s.switchMap.switchBanks).raiseClocks
  if s.start.warmPending then s.warmAtEdge
  else
    let l := nextLengths s (k + 1)
    s.startTick (k + 1) s.nextEdge l.1 l.2

/-- Ticks may start: the device is in service and no warm reset runs (R33). -/
def ticksOpen (s : State) : Bool :=
  !s.start.warmRunning && s.tick.firstEdge ≠ 0 &&
    match s.start.state with
    | .ready => true
    | .serving => true
    | .degraded => true
    | .maintenance => true
    | _ => false

/-- TICK_EDGE: the commit of tick k is complete and tick k+1 starts; or, with no tick in progress, the first tick starts at the edge
that R33 places after a reset. -/
def execTickEdge (s : State) : Host.Outcome State Fault Refusal :=
  .next (
    if s.tick.running then if s.tick.inCommit then s.edge else s
    else if ticksOpen s then
      let l := nextLengths s s.tick.firstIndex
      (((s.onTick (fun k => { k with gapTo := k.firstEdge })).switchMap.switchBanks).raiseClocks).startTick s.tick.firstIndex s.tick.firstEdge l.1 l.2
    else s)

end Sys2Proof.Machine
end

