-- ==== Sys2Proof/Machine/Quant.lean ====
section
/-! DEFINITION. Conversions at tensor slots (R183 to R187, R190), conversion statistics (R195), and the range checks of what a
job writes through the store and the scratchpad (R208, R109).
Readings of the spec: log 6. -/

namespace Sys2Proof.Machine

open Sys2Proof

/-! ## Conversion of one row (R183, R186) -/

/-- What one conversion instance gives. -/
structure Conv where
  /-- output bytes, one per element, or two for BF16 -/
  codes : List Byte
  /-- scale pair -/
  mant : U16
  exp : Byte
  /-- a non-finite row (R184) -/
  nonfinite : Bool
  /-- it fell back (R186) -/
  fallback : Bool
  /-- the values the codes and the scale represent -/
  back : List U32
  deriving DecidableEq, Repr

/-- Output kinds of CVTQ (Table 8-5). -/
def cvtFp8 (mode : Nat) : Bool := mode = 2
def cvtBf16 (mode : Nat) : Bool := mode = 3

/-- lim of R183: 448 for FP8, else 127 - |zx|. -/
def convLim (mode : Nat) (zx : Byte) : U32 := if cvtFp8 mode then 0x43E00000 else fpOfInt (127 - Int.ofNat (i8 zx).natAbs)

/-- The per-token pair of R183 for the maximum a. -/
def tokenPair (mode : Nat) (zx : Byte) (a : U32) : U16 × Byte :=
  if cvtBf16 mode then (32768, 1) else encScale (fpDiv a (convLim mode zx))

/-- The reciprocal of a scale, 0 for a scale of zero. -/
def recipScale (m : U16) (e : Byte) : U32 := if m = 0 then 0 else fpDiv fpOne (decScale m e)

/-- Code of one value: INT8 about zx, FP8, or BF16. -/
def codeOf (mode : Nat) (zx : Byte) (r v : U32) : List Byte :=
  if cvtBf16 mode then leBytes 2 (bf16Encode v).toNat
  else if cvtFp8 mode then [fp8Encode (fpMul v r)]
  else [toI8 (sat (fpTrunc (fpMul v r) + i8 zx) (-128) 127)]

/-- The value a code represents under a scale. -/
def codeBack (mode : Nat) (zx : Byte) (m : U16) (e : Byte) (c : List Byte) : U32 :=
  if cvtBf16 mode then bf16Decode (BitVec.ofNat 16 (leNat c))
  else if cvtFp8 mode then fpMul (fp8Decode (nth c 0 0)) (decScale m e)
  else fpMul (fpOfInt (i8 (nth c 0 0) - i8 zx)) (decScale m e)

/-- The row converted with a scale, its outlier channels written as zx, and as 0 by an FP8 or BF16 conversion (R183, R190; DESIGN CHOICE for
those two, log 32). -/
def convWith (mode : Nat) (zx : Byte) (out : List Nat) (xs : List U32) (m : U16) (e : Byte) (fallback : Bool) : Conv :=
  let r := recipScale m e
  let cs := xs.zipIdx.map (fun p => if out.contains p.2 then (if cvtBf16 mode then [0, 0] else [zx]) else codeOf mode zx r p.1)
  { codes := cs.flatten, mant := m, exp := e, nonfinite := false, fallback := fallback, back := cs.map (codeBack mode zx m e) }

/-- A carried-mode instance falls back: a > 2 R_c, 16 a < R_c, or a scale of zero (R186). -/
def fallsBack (mode : Nat) (zx : Byte) (a : U32) (c : U16 × Byte) : Bool :=
  let rc := fpMul (convLim mode zx) (decScale c.1 c.2)
  fpLt (fpMul 0x40000000 rc) a || fpLt (fpMul 0x41800000 a) rc || c.1 = 0

/-- One conversion instance: non-finite, carried where a scale is given and the test holds, else per token (R183 to R186). -/
def convert (mode : Nat) (zx : Byte) (out : List Nat) (xs : List U32) (a : U32) (carried : Option (U16 × Byte)) : Conv :=
  if xs.any (fun v => !fpFinite v) then
    { codes := xs.flatMap (fun _ => if cvtBf16 mode then [zx, 0] else [zx]), mant := 0, exp := 0, nonfinite := true, fallback := false, back := [] }
  else
    let t := tokenPair mode zx a
    match carried with
    | none => convWith mode zx out xs t.1 t.2 false
    | some c => if fallsBack mode zx a c then convWith mode zx out xs t.1 t.2 true else convWith mode zx out xs c.1 c.2 false

/-- The values of a row that are not outlier channels. -/
def inliers {α : Type} (out : List Nat) (xs : List α) : List α := (xs.zipIdx.filter (fun p => !out.contains p.2)).map (·.1)

/-- The outlier row of 256 B: BF16 of the listed channels in order, zero past the last (R190). -/
def outlierRow (out : List Nat) (xs : List U32) : List Byte :=
  slice (out.flatMap (fun i => leBytes 2 (bf16Encode (nth xs i 0)).toNat)) 0 256

/-! ## Carried scales of a request (R185, R187) -/

/-- Place of a carried scale in a list of them. -/
def scaleIs (tslot cluster : Nat) (c : CarriedScale) : Bool := c.tslot = tslot && c.cluster = cluster

/-- A carried scale in a list, as a pair. -/
def scaleIn (l : List CarriedScale) (tslot cluster : Nat) : U16 × Byte :=
  match l.find? (scaleIs tslot cluster) with
  | none => (0, 0)
  | some c => (c.mant, c.exp)

/-- The carried scale of a page rebuild at a position of the block: from the group's snapshot, moved at each commit boundary that the
record gives up to there by the pairs of the positions between, as the original commits did (R188, R388). -/
def rebuildScale (g : PageGroup) (noted : List CarriedScale) (pos tslot cluster : Nat) : U16 × Byte :=
  let bounds := (List.range 128).filter (fun p => 0 < p && p ≤ pos && g.cbound.contains p)
  (bounds.foldl (fun (q : Nat × U16 × Byte) p =>
    (p, moveScale (noted.filter (fun x => scaleIs tslot cluster x && q.1 ≤ x.node && x.node < p)) q.2)) (0, scaleIn g.snapScales tslot cluster)).2

/-- The carried scale of a row for a slot on a cluster: its request's as held at t_k; a rebuild's by its record, none where a shipment built
the group (R185, R388, R389). -/
def carriedOf (s : State) (slot node tslot cluster : Nat) : Option (U16 × Byte) :=
  if slot < 1048576 then
    match s.req? slot with
    | none => some (0, 0)
    | some r => some (scaleIn r.scales tslot cluster)
  else
    match s.group? (slot - 1048576) with
    | none => some (0, 0)
    | some g =>
      if g.snapValid then
        some (rebuildScale g (((s.plan.attempts.find? (fun a => a.slot = slot)).map (·.scales)).getD []) node tslot cluster)
      else none

/-- The per-token pair of an instance is kept with the row's attempt, for the commit that may take it (R187). -/
def State.noteScale (s : State) (slot : Nat) (c : CarriedScale) : State :=
  s.onPlan (fun p => { p with attempts := p.attempts.map (fun a => if a.slot = slot then { a with scales := a.scales ++ [c] } else a) })

/-! ## Statistics (R195, R196) -/

/-- Statistics are kept. -/
def statEn (s : State) : Bool := bit s.regs.qzCtl.toNat 0

/-- Changes the statistics of a model slot's tensor slot. -/
def State.modConv (s : State) (m tslot : Nat) (f : ConvStat → ConvStat) : State :=
  s.count (fun c =>
    if c.conv.any (fun x => x.slot = m && x.tslot = tslot) then
      { c with conv := c.conv.map (fun x => if x.slot = m && x.tslot = tslot then f x else x) }
    else { c with conv := c.conv ++ [f { slot := m, tslot := tslot }] })

/-- Adds one element to the sums. -/
def convAdd (st : ConvStat) (p : U32 × U32) : ConvStat :=
  let d := fpSub p.1 p.2
  { st with
    n := st.n + 1
    sse := fpAdd st.sse (fpMul d d)
    ssx := fpAdd st.ssx (fpMul p.1 p.1)
    mag := fpAdd st.mag (fpSub (fpAbs p.1) (fpAbs p.2)) }

/-- Accumulates a conversion instance: its elements but for outlier channels while stat_en is set, its fallback and its clips
whatever stat_en is (R195, R438). A non-finite row adds to QZ_NONFINITE alone. -/
def State.convStats (s : State) (m tslot : Nat) (out : List Nat) (xs : List U32) (c : Conv) (clips : Nat) : State :=
  if c.nonfinite then s.onTel (fun t => { t with qzNonfinite := inc64 t.qzNonfinite })
  else
    let pairs := if statEn s then (inliers out xs).zip (inliers out c.back) else []
    let fb := b2n c.fallback
    ((s.modConv m tslot (fun st =>
        let st := pairs.foldl convAdd st
        { st with fallbacks := add64 st.fallbacks fb, clips := add64 st.clips clips })).onTel
      (fun t => { t with qzFallback := add64 t.qzFallback fb, qzClip := add64 t.qzClip clips })).countStep
      (fun k => { k with scaleFallbacks := add64 k.scaleFallbacks fb })

/-! ## What a job may touch through an engine (R208, R109) -/

/-- A job may touch a range of scratchpad bytes of a cluster. -/
def scratchOk (s : State) (job cl off n : Nat) : Bool := s.spOk job cl (off / 256) ((off + n + 255) / 256 - off / 256)

end Sys2Proof.Machine
end

