-- ==== Sys2Proof/Machine/Vector.lean ====
section
/-! DEFINITION. Vector engines (R210 to R214): stage chains, function tables, reductions, output conversion (R189), cache-entry
and query conversion (R192, R193), the local reduction of the output kernel (R224).
Readings of the spec: logs 32, 34. -/

namespace Sys2Proof.Machine

open Sys2Proof

/-! ## Engines -/

/-- A vector engine; one not listed is as reset. -/
def State.engine (s : State) (n : Nat) : VectorEngine := tabGetD n {} s.store.engines

/-- Changes a vector engine. -/
def State.modEngine (s : State) (n : Nat) (f : VectorEngine → VectorEngine) : State :=
  s.onStore (fun u => { u with engines := tabUpd n {} f u.engines })

/-- Lanes: 128 on a cluster pipe, 256 on a hub engine (R210). -/
def engineLanes (n : Nat) : Nat := if n < 16 then 128 else 256

/-- The engine exists and its pair or its hub die has not failed. -/
def engineOk (s : State) (n : Nat) : Bool := if n < 16 then s.clusterUp n else n < 26 && !s.store.failed.contains (n - 16)

/-! ## Places (R166, R208, Table 6-11) -/

/-- A handle names an accumulator tile, of group 8 m + g. -/
def isAcc (h : Nat) : Bool := 0x8000 ≤ h && h < 0x8060

/-- Device address of a place that is no accumulator tile. -/
def placeAddr (engine : Nat) : Place → Nat
  | .store a => a
  | .tile h o => spBase engine + h * 65536 + o

/-- An accumulator tile of a handle is CLOSED and the job's. -/
def accClosed (s : State) (job cl h : Nat) : Bool := (s.grp cl (h - 0x8000)).state = .closed && (s.grp cl (h - 0x8000)).owner = job

/-- A read breaks R166: of an accumulator tile that is not CLOSED. -/
def readBreaks (s : State) (job engine : Nat) (p : Place × Nat) : Bool :=
  match p.1 with
  | .store _ => false
  | .tile h _ => engine < 16 && isAcc h && !accClosed s job engine h

/-- A write breaks R166: to an accumulator tile. -/
def writeBreaks (engine : Nat) (p : Place × Nat) : Bool :=
  match p.1 with
  | .store _ => false
  | .tile h _ => engine < 16 && isAcc h

/-- A range of n bytes that a job's engine reads or writes lies in what the job holds: its store blocks; on a cluster pipe also its
scratchpad regions, or an accumulator tile (R109, R208). A reserved handle, and a tile that a hub engine names, lie in nothing. -/
def placeOk (s : State) (job engine : Nat) (p : Place × Nat) : Bool :=
  match p.1 with
  | .store a => p.2 = 0 || holdsIn s (jobHolding job) a p.2
  | .tile h o => engine < 16 && (if isAcc h then decide (o + p.2 ≤ 65536) else h < 0x300 && scratchOk s job engine (h * 65536 + o) p.2)

/-- The store range of a place and a length, where it is one. -/
def storeRange (p : Place × Nat) : Option (Nat × Nat) :=
  match p.1 with
  | .store a => some (a, p.2)
  | .tile _ _ => none

/-- Runs a row of an engine that reads and writes places for a job. A break of R166 is rejection cause 11 of the cluster; anything else
outside what the job holds faults the job (R161, R208). -/
def State.engineRun (s : State) (job engine : Nat) (reads writes : List (Place × Nat)) (f : State → State) : State :=
  if !s.jobRuns job then s
  else if reads.any (readBreaks s job engine) || writes.any (writeBreaks engine) then mxFault s engine job 0 11 0
  else if (reads ++ writes).all (placeOk s job engine) then f ((reads.filterMap storeRange).foldl (fun t r => t.jobReads job r) s)
  else s.jobFault job

/-- FP32 element i of the row at a place: lane (r, n) of an accumulator tile is at byte 512 r + 4 n (R164, R166). -/
def placeWord (s : State) (engine : Nat) (p : Place) (i : Nat) : U32 :=
  match p with
  | .store a => fpFlush (BitVec.ofNat 32 (leNat (s.storeBytes (a + 4 * i) 4)))
  | .tile h o =>
    if isAcc h then laneRead (s.grp engine (h - 0x8000)).fp32 (tabGetD (o / 4 + i) 0 (s.grp engine (h - 0x8000)).lanes)
    else fpFlush (BitVec.ofNat 32 (leNat (s.getBytes (placeAddr engine p + 4 * i) 4)))

/-- A row of n FP32 elements at a place. -/
def placeRow (s : State) (engine n : Nat) (p : Place) : List U32 := (List.range n).map (placeWord s engine p)

/-- Writes bytes at a place. -/
def State.putPlace (s : State) (engine : Nat) (p : Place) (bs : List Byte) : State :=
  match p with
  | .store a => s.putStore a bs
  | .tile h o => s.putBytes (placeAddr engine (.tile h o)) bs

/-- A place so many bytes further. -/
def placeAt (p : Place) (n : Nat) : Place :=
  match p with
  | .store a => .store (a + n)
  | .tile h o => .tile h (o + n)

/-! ## The configuration word (R211, Tables 8-4 and 8-5) -/

def chStages (c : List Byte) : Nat := field c 0 1
def chRsel (c : List Byte) : Nat := field c 1 1
def chRops (c : List Byte) : Nat := field c 2 1
def chOfmt (c : List Byte) : Nat := field c 3 1
def chLen (c : List Byte) : Nat := field c 4 4
def chTslot (c : List Byte) : Nat := field c 8 4
def chStage (c : List Byte) (i : Nat) : Nat := field c (16 + 4 * i) 4
/-- The reduction tap: a stage, or 12 for input 0. -/
def chTap (c : List Byte) : Nat := bits (chRsel c) 4 1

/-- Fields of a stage descriptor. -/
def stOp (d : Nat) : Nat := bits d 31 28
def stMod (d : Nat) : Nat := bits d 18 16
def stA (d : Nat) : Nat := bits d 15 8
def stB (d : Nat) : Nat := bits d 7 0

/-- A stage descriptor has no reserved opcode, source or modifier. -/
def stageOk (d : Nat) : Bool :=
  let m := stMod d
  stOp d ≤ 9 && bits d 27 25 ≠ 7 && bits d 24 22 ≠ 7 && bits d 21 19 ≠ 7 &&
    (if stOp d = 4 then decide (m ≤ 4) else if stOp d = 9 then decide (m ≤ 3) else decide (m < 4))

/-- A configuration word is accepted (R211). -/
def chainOk (c : List Byte) : Bool :=
  let n := chStages c
  1 ≤ n && n ≤ 12 && chRsel c < 32 && chTap c ≤ 12 && chRops c < 64 && chOfmt c ≤ 1 && 1 ≤ chLen c && chLen c ≤ 262144 &&
    field c 12 4 = 0 && (List.range n).all (fun i => stageOk (chStage c i) && (stOp (chStage c i) ≠ 9 || i + 1 = n))

/-- The last stage is CVTQ. -/
def chCvtq (c : List Byte) : Bool := stOp (chStage c (chStages c - 1)) = 9

/-! ## Function tables (R212): mode, div, lo, w, the values below and above, then 256 entries of three coefficients -/

/- R212 lists the header's fields and gives no offsets: here mode is byte 0, div byte 1, lo bytes 4 to 7, w 8 to 11, the value below 12 to 15 and
the value above 16 to 19, every other byte zero (DESIGN CHOICE, log 32). -/

def tbF32 (t : List Byte) (off : Nat) : U32 := BitVec.ofNat 32 (field t off 4)
def tbLo (t : List Byte) : U32 := tbF32 t 4
def tbW (t : List Byte) : U32 := tbF32 t 8
def tbBelow (t : List Byte) : U32 := tbF32 t 12
def tbAbove (t : List Byte) : U32 := tbF32 t 16

/-- y = c0 + t (c1 + t c2) of a segment. -/
def tbSegment (t : List Byte) (seg : Nat) (x : U32) : U32 :=
  let c := fun i => tbF32 t (32 + 12 * seg + 4 * i)
  fpAdd (c 0) (fpMul x (fpAdd (c 1) (fpMul x (c 2))))

/-- The largest integer at most a finite value. -/
def fpFloor (x : U32) : Int := let n := fpTrunc x; if fpLt x (fpOfInt n) then n - 1 else n

/-- A loaded table at x. A NaN returns NaN; values past the domain return the header's; a mode or div the header does not
define gives an open value. R212 does not say where a domain ends: here LIN leaves it below lo and above lo + 256 w, EXP2 at the infinities
alone, and MANT at x ≤ 0 and at +infinity (DESIGN CHOICE, log 32). -/
def tableEval (free : U32) (t : List Byte) (x : U32) : U32 :=
  let mode := field t 0 1
  if fpIsNaN x then x
  else if mode = 0 then
    if fpLt x (tbLo t) then tbBelow t
    else if fpLt (fpAdd (tbLo t) (fpMul (fpOfInt 256) (tbW t))) x then tbAbove t
    else
      let seg := (sat (fpTrunc (fpDiv (fpSub x (tbLo t)) (tbW t))) 0 255).toNat
      tbSegment t seg (fpSub x (fpAdd (tbLo t) (fpMul (fpOfInt seg) (tbW t))))
  else if mode = 1 then
    if x = fpInf true then tbBelow t
    else if x = fpInf false then tbAbove t
    else
      let i := fpFloor x
      let f := fpSub x (fpOfInt i)
      let seg := (fpTrunc (fpScale f 8)).toNat
      fpScale (tbSegment t seg (fpSub f (fpScale (fpOfInt seg) (-8)))) i
  else if mode = 2 && (field t 1 1 = 1 || field t 1 1 = 2) then
    if fpLe x 0 then tbBelow t
    else if x = fpInf false then tbAbove t
    else
      let e : Int := Int.ofNat (bits x.toNat 30 23) - 127
      let frac := bits x.toNat 22 0
      let m := BitVec.ofNat 32 (0x3F800000 + frac)
      if field t 1 1 = 1 then
        let seg := frac / 32768
        fpScale (tbSegment t seg (fpSub m (BitVec.ofNat 32 (0x3F800000 + seg * 32768)))) (-e)
      else
        let seg := (e % 2).toNat * 128 + frac / 65536
        fpScale (tbSegment t seg (fpSub m (BitVec.ofNat 32 (0x3F800000 + frac / 65536 * 65536)))) (-(e / 2))
  else free

/-- A finite value other than zero moved by units in the last place. -/
def fpUlps (x : U32) (d : Int) : U32 :=
  if fpFinite x && bits x.toNat 30 0 ≠ 0 then
    fpFlush (BitVec.ofNat 32 ((if bit x.toNat 31 then 2 ^ 31 else 0) + (Int.ofNat (bits x.toNat 30 0) + d).toNat))
  else x

/-- Tables 0 to 2 as the firmware loads them: exp2, reciprocal and reciprocal square root within 2 ulp over their domain, a NaN to itself
(R212). -/
def firmwareTable (k : Nat) (x : U32) : U32 :=
  let off := Int.ofNat (Config.tableError k x % 5) - 2
  if fpIsNaN x then x
  else if x = fpInf false then Config.tableEdge k true
  else if (if k = 0 then decide (x = fpInf true) else fpLe x 0) then Config.tableEdge k false
  else fpUlps (if k = 0 then fpExp2 x else if k = 1 then fpDiv fpOne x else fpRsqrt x) off

/-- Table k of an engine at x: the loaded bytes, or the firmware's contents; table 3 has none until a kernel loads it (R212, R217). -/
def engineTable (free : U32) (e : VectorEngine) (k : Nat) (x : U32) : U32 :=
  match tabGet k e.tables with
  | some t => fpFlush (tableEval free t x)
  | none => fpFlush (if k < 3 then firmwareTable k x else free)

/-! ## Stages (Table 8-5) -/

/-- The inputs of one element. -/
structure Lane where
  /-- element of input streams 0 to 2 -/
  in0 : U32
  in1 : U32
  in2 : U32
  /-- element of the column vector -/
  col : U32
  deriving DecidableEq, Repr

/-- A stage source: the previous stage, a stream, constant register con, a row register, the column vector. -/
def stageSrc (e : VectorEngine) (regs : List U32) (l : Lane) (d : Nat) (prev : U32) (con sel : Nat) : U32 :=
  match sel with
  | 0 => prev
  | 1 => l.in0
  | 2 => l.in1
  | 3 => l.in2
  | 4 => fpFlush (tabGetD con 0 e.consts)
  | 5 => fpFlush (nth regs (stB d % 4) 0)
  | _ => l.col

/-- 1.0 or 0.0. -/
def fpBool (b : Bool) : U32 := if b then fpOne else 0

/-- The comparison a modifier selects. -/
def stageCmp (m : Nat) (a b : U32) : Bool :=
  match m with
  | 0 => fpEq a b
  | 1 => fpLt a b
  | 2 => fpLe a b
  | 3 => !fpEq a b
  | _ => fpIsNaN a || fpIsNaN b

/-- One stage of one element: a constant source of operand b is register imm_b, of a and c imm_a. CVTQ passes its operand on: the row is
converted whole. -/
def stageRun (free : U32) (e : VectorEngine) (regs : List U32) (l : Lane) (prev : U32) (d : Nat) : U32 :=
  let a0 := stageSrc e regs l d prev (stA d) (bits d 27 25)
  let b0 := stageSrc e regs l d prev (stB d) (bits d 24 22)
  let c := stageSrc e regs l d prev (stA d) (bits d 21 19)
  let m := stMod d
  let plain := stOp d ≠ 4 && stOp d ≠ 8 && stOp d ≠ 9
  let a := if plain && bit m 1 then fpAbs a0 else a0
  let b := if plain && bit m 0 then fpNeg b0 else b0
  match stOp d with
  | 0 => a
  | 1 => fpAdd a b
  | 2 => fpMul a b
  | 3 => fpFma a b c
  | 4 => fpBool (stageCmp m a b)
  | 5 => if fpEq c 0 then b else a
  | 6 => fpMin a b
  | 7 => fpMax a b
  | 8 => engineTable free e (m % 4) a
  | _ => a

/-- The outputs of every stage for one element, in stage order. -/
def stageOuts (free : Nat → U32) (e : VectorEngine) (regs : List U32) (l : Lane) : U32 → List Nat → List U32
  | _, [] => []
  | prev, d :: r => let y := stageRun (free r.length) e regs l prev d; y :: stageOuts free e regs l y r

/-! ## Reductions (R213) -/

/-- Index of the largest value, ties to the lowest index; a NaN element wins at its index. -/
def argMaxOf : List U32 → Nat → Nat × U32 → Nat
  | [], _, b => b.1
  | x :: r, i, b => if fpIsNaN b.2 then b.1 else argMaxOf r (i + 1) (if fpIsNaN x || fpLt b.2 x then (i, x) else b)

/-- Max and min over a row, NaN where an element is. -/
def rowMax (xs : List U32) : U32 := match xs with | [] => 0 | x :: r => r.foldl fpMax x
def rowMin (xs : List U32) : U32 := match xs with | [] => 0 | x :: r => r.foldl fpMin x

/-- The reductions a word selects, in the order of its bits; argmax gives its value and its index; absmax leaves the outlier channels of
the word's tensor slot out (R183). -/
def reductions (w rops : Nat) (out : List Nat) (xs : List U32) : List U32 :=
  let i := argMaxOf (xs.drop 1) 1 (0, nth xs 0 0)
  (if bit rops 0 then [laneSum w xs] else []) ++ (if bit rops 1 then [rowMax xs] else []) ++ (if bit rops 2 then [rowMin xs] else [])
    ++ (if bit rops 3 then [nth xs i 0, BitVec.ofNat 32 i] else [])
    ++ (if bit rops 4 then [laneSum w (xs.map (fun x => fpMul x x))] else []) ++ (if bit rops 5 then [absMax (inliers out xs)] else [])

/-! ## A chain (R211) -/

/-- Bytes of a row of FP32 or BF16 values. -/
def rowBytes (ofmt : Nat) (xs : List U32) : List Byte :=
  xs.flatMap (fun x => if ofmt = 1 then leBytes 2 (bf16Encode x).toNat else leBytes 4 x.toNat)

/-- The tensor-slot record of a slot of a model. -/
def tslotOf (s : State) (m tslot : Nat) : TensorSlot := nth (s.mslot m).info.tslots tslot {}

/-- Outlier channels of a tensor slot that lie in a scope of n channels from a base, by their place in it (R190, Table 7-5). -/
def slotOutliers (s : State) (ts : TensorSlot) (base n : Nat) : List Nat :=
  (((List.range ts.nout).map (fun i => leNat (s.getBytes (ts.outList + 2 * i) 2))).filter (fun c => base ≤ c && c < base + n)).map (· - base)

/-- The outlier channels in the scope of a chain's row. -/
def chainOut (s : State) (r : ChainRun) : List Nat := slotOutliers s (tslotOf s r.job (chTslot r.config)) r.base (chLen r.config)

/-- Cluster that a chain converts for: a hub engine for CL0 (R185). -/
def chainCluster (r : ChainRun) : Nat := if r.engine < 16 then r.logical else 0

/-- The conversion a chain ends in: the slot's mode, zero point and outliers, the carried scale where it is in force. -/
def chainConv (s : State) (r : ChainRun) (mode : Nat) (regs : List U32) (xs : List U32) : Conv :=
  let ts := tslotOf s r.job (chTslot r.config)
  let carried := if mode = 1 && !bit s.regs.qzCtl.toNat 1 then carriedOf s r.slot r.node (chTslot r.config) (chainCluster r) else none
  let a := if mode = 0 || mode = 2 then nth regs 0 0 else absMax (inliers (chainOut s r) xs)
  convert mode (if mode ≤ 1 then ts.zx else 0) (chainOut s r) xs a carried

/-- The per-token pair that an instance of a carried-mode slot leaves for the commit, formed as its conversion forms it (R183, R187). -/
def chainPair (s : State) (r : ChainRun) (mode : Nat) (xs : List U32) : CarriedScale :=
  let ts := tslotOf s r.job (chTslot r.config)
  let p := tokenPair mode (if mode ≤ 1 then ts.zx else 0) (absMax (inliers (chainOut s r) xs))
  { tslot := chTslot r.config, cluster := chainCluster r, mant := p.1, exp := p.2, node := r.node }

/-- What a pass writes at the front of its row record: the reductions it forms, none where it forms none (R213, log 32). -/
def redPart (red : List U32) : List Byte := red.flatMap (fun x => leBytes 4 x.toNat)

/-- What a conversion writes at byte 32 of its row record: the scale pair and the mark of a non-finite row (log 32). -/
def convPart (c : Conv) : List Byte := leBytes 2 c.mant.toNat ++ [c.exp, BitVec.ofNat 8 (b2n c.nonfinite)]

/-- The lanes of a row: the elements of its streams. A stream that the kernel has not attached gives open words. -/
def chainLanes (s : State) (r : ChainRun) : List Lane :=
  let get := fun (k : Nat) (p : Option Place) (i : Nat) =>
    match p with
    | none => fpFlush (Config.openWord s.freeCtr i (1000 + k))
    | some q => placeWord s r.engine q i
  (List.range (chLen r.config)).map (fun i => { in0 := get 0 r.in0 i, in1 := get 1 r.in1 i, in2 := get 2 r.in2 i, col := get 3 r.colvec i })

/-- The key of a chain's row among those whose registers its engine holds. -/
def rowKey (r : ChainRun) : Nat := r.slot * 65536 + r.node

/-- The row registers with which a row runs: loaded from a record, or as an earlier pass of the row left them (R211). -/
def loadedRegs (s : State) (r : ChainRun) : List U32 :=
  match r.loadRegs with
  | none => tabGetD (rowKey r) [0, 0, 0, 0] (s.engine r.engine).rowRegs
  | some p => placeRow s r.engine 4 p

/-- The engine with the constant registers with which a row runs. -/
def loadedEngine (s : State) (r : ChainRun) : VectorEngine :=
  let e := s.engine r.engine
  { e with consts := r.consts.foldl (fun t c => if c.1 < 256 then tabPut c.1 c.2 t else t) e.consts }

/-- A CVTQ chain's effect on its row: codes and record written, the outlier row behind the record, statistics, the pair for the commit. -/
def convChain (r : ChainRun) (regs red xs : List U32) (s : State) : State :=
  let mode := stMod (chStage r.config (chStages r.config - 1))
  let ts := tslotOf s r.job (chTslot r.config)
  let out := chainOut s r
  let cv := chainConv s r mode regs xs
  let pair := chainPair s r mode xs
  let s := ((s.putPlace r.engine r.out cv.codes).putPlace r.engine r.record (redPart red)).putPlace r.engine (placeAt r.record 32) (convPart cv)
  let s := if ts.nout = 0 then s else s.putPlace r.engine (placeAt r.record 64) (outlierRow out xs)
  let s := if ts.carried && !cv.nonfinite then s.noteScale r.slot pair else s
  if chTslot r.config = 0xFFFFFFFF then s else s.convStats r.job (chTslot r.config) out xs cv 0

/-- Runs an accepted chain: output row, row record, row registers, and what a conversion does beside. -/
def runChain (r : ChainRun) (s : State) : State :=
  let c := r.config
  let e := loadedEngine s r
  let held := loadedRegs s r
  let free := Config.openWord s.freeCtr
  let stages := (List.range (chStages c)).map (chStage c)
  let lanes := chainLanes s r
  let outs := lanes.zipIdx.map (fun p => stageOuts (free p.2) e held p.1 p.1.in0 stages)
  let xs := outs.map (fun o => nth o (chStages c - 1) 0)
  let tap := if chTap c = 12 then lanes.map (·.in0) else outs.zipIdx.map (fun p => nth p.1 (chTap c) (fpFlush (free p.2 (chStages c))))
  let red := if bit (chRsel c) 0 then reductions (engineLanes r.engine) (chRops c) (chainOut s r) tap else []
  let regs := (red ++ held.drop red.length).take 4
  let s := (s.draw).modEngine r.engine (fun _ => { e with rowRegs := tabPut (rowKey r) regs e.rowRegs })
  if chCvtq c then convChain r held red xs s
  else (s.putPlace r.engine r.out (rowBytes (chOfmt c) xs)).putPlace r.engine r.record (redPart red)

/-- What a chain reads: its streams and the record its row registers are loaded from. -/
def chainReads (r : ChainRun) : List (Place × Nat) :=
  ([r.in0, r.in1, r.in2, r.colvec].filterMap id).map (fun p => (p, 4 * chLen r.config)) ++ r.loadRegs.toList.map (fun p => (p, 16))

/-- Bytes of the row record that a chain writes: the reductions it selects, up to 7 words; to byte 36 where it converts, and the outlier row of a
slot that has outlier channels. -/
def recordLen (s : State) (r : ChainRun) : Nat :=
  let c := r.config
  if chCvtq c then (if (tslotOf s r.job (chTslot c)).nout = 0 then 36 else 320)
  else if bit (chRsel c) 0 then sumN ((List.range 6).map (fun k => if bit (chRops c) k then (if k = 3 then 8 else 4) else 0))
  else 0

/-- What a chain writes: its output row, and what it writes of its record. -/
def chainWrites (s : State) (r : ChainRun) : List (Place × Nat) :=
  let c := r.config
  let mode := stMod (chStage c (chStages c - 1))
  let w := if chCvtq c then (if mode = 3 then 2 else 1) else if chOfmt c = 1 then 2 else 4
  [(r.out, w * chLen c)] ++ if recordLen s r = 0 then [] else [(r.record, recordLen s r)]

/-! ## Output conversion (R189) -/

/-- A lane summed over the closed groups of a split reduction: integers as one lane, FP32 lanes added in order. -/
def tileLane (gs : List AccGroup) (i : Nat) : U32 :=
  match gs with
  | [] => 0
  | g :: r =>
    if g.fp32 then r.foldl (fun a h => fpAdd a (tabGetD i 0 h.lanes)) (tabGetD i 0 g.lanes)
    else
      let v := gs.foldl (fun a h => a + (tabGetD i (0 : U32) h.lanes).toInt) (0 : Int)
      if 2147483647 ≤ v then fpInf false else if v ≤ -2147483648 then fpInf true else fpOfInt v

/-- Byte i of the row record at a place. -/
def recordByte (s : State) (engine : Nat) (p : Place) (i : Nat) : Byte := 
  match p with
  | .store a => nth (s.storeBytes (a + i) 1) 0 0
  | .tile h o => nth (s.getBytes (placeAddr engine (.tile h o) + i) 1) 0 0

/-- y of row r and column n (R189): the scale pair and the non-finite mark are those that the row's conversion left in its record. -/
def tileElem (s : State) (t : TileConv) (n : Nat) : U32 :=
  let g := fun h => s.grp t.cluster (h - 0x8000)
  let i := 128 * t.row + n
  let b := recordByte s t.cluster t.record
  let y := fpScale (fpMul (tileLane (t.groups.map g) i) (decScale (BitVec.ofNat 16 ((b 33).toNat * 256 + (b 32).toNat)) (b 34))) (i8 t.wexp)
  let y := match t.outlierGroup with
    | none => y
    | some o => fpAdd y (fpScale (laneRead (g o).fp32 (tabGetD i 0 (g o).lanes)) (i8 t.outlierExp))
  let y := match t.delta with
    | none => y
    | some a => fpAdd y (placeWord s t.cluster a n)
  if b 35 = 0 then y else fpNaN 0 0

/-- What an output conversion reads: accumulator tiles by their handles, the row record and the delta row. -/
def tileReads (t : TileConv) : List (Place × Nat) :=
  (t.groups ++ t.outlierGroup.toList).map (fun h => (.tile h (512 * t.row), 4 * t.ncols)) ++ [(t.record, 36)] ++ t.delta.toList.map (fun p => (p, 4 * t.ncols))

/-- The handles of an output conversion all name accumulator tiles, and its row and columns lie in them. -/
def tileOk (t : TileConv) : Bool := (t.groups ++ t.outlierGroup.toList).all isAcc && t.row < 128 && t.ncols ≤ 128

/-! ## Cache entries and queries (R192, R193) -/

/-- Index of the codebook entry nearest to a value, ties to the lower (R192). -/
def nearest (cb : List Byte) (v : U32) : Nat :=
  ((List.range 16).foldl (fun b j =>
    let d := fpAbs (fpSub v (fpOfInt (i8 (nth cb j 0))))
    if fpLt d b.2 then (j, d) else b) (16, fpInf false)).1 % 16

/-- One vector converted for the cache: codes, mantissa, and whether the mantissa clipped (R192). An element whose quotient by u is infinite
gets the INT8 code 0 (DESIGN CHOICE, log 32). -/
def entryVec (f : CacheFmt) (ex : Byte) (cb : List Byte) (x : List U32) : List Byte × U16 × Bool :=
  let cm : Nat := if f.fmt = 2 then 127 else (cb.map (fun b => (i8 b).natAbs)).foldl max 0
  let m := fpDiv (absMax x) (fpScale (fpOfInt cm) (i8 ex - 16))
  let mant : U16 := if fpLe (fpOfInt 65535) m then 65535 else BitVec.ofInt 16 (fpTrunc m)
  let u := decScale mant ex
  let code := fun v =>
    if f.fmt = 2 then (if mant = 0 then 0 else toI8 (sat (fpTrunc (fpDiv v u)) (-127) 127))
    else BitVec.ofNat 8 (nearest cb (if mant = 0 then 0 else fpDiv v u))
  (x.map code, mant, fpLt (fpOfInt 65535) m)

/-- A row's attention outputs in a layer are NaN (R184). -/
def State.markNan (s : State) (slot node layer : Nat) : State :=
  s.onPlan (fun p => { p with nanRows := if p.nanRows.contains (slot, node, layer) then p.nanRows else p.nanRows ++ [(slot, node, layer)] })

/-- Statistics of one K or V instance: what its codes represent, and whether its mantissa clipped. -/
def entryStats (r : EntryConv) (tslot : Nat) (f : CacheFmt) (ex : Byte) (cb : List Byte) (x : List U32) (c : List Byte × U16 × Bool) (s : State) : State :=
  let bad := x.any (fun v => !fpFinite v)
  let back := c.1.map (fun b => fpMul (fpOfInt (if f.fmt = 2 then i8 b else i8 (nth cb b.toNat 0))) (decScale c.2.1 ex))
  s.convStats r.job tslot [] x { codes := [], mant := 0, exp := 0, nonfinite := bad, fallback := false, back := back } (b2n c.2.2)

/-- The frame of a group's page of a layer and head on a logical cluster: (stack, row granule) (Table 11-4). -/
def frameAt (i : ModelInfo) (g : PageGroup) (c layer head : Nat) : Option (Nat × Nat) :=
  (((i.pageOrder.zipIdx.flatMap (fun x => x.1.map (fun p => (x.2, p)))).zip g.frames).find? (fun x => x.1 = (c, (layer, head)))).map (·.2)

/-- The frame and token of a position of a request's committed pages. -/
def pagePlace (s : State) (q : Request) (r : EntryConv) (pos : Nat) : Option (Nat × Nat × Nat) :=
  ((s.group? (pageAt (if r.draft then q.draftPages else q.pages) (pos / 128)).handle).bind (fun g =>
    frameAt (groupModel s r.job r.draft) g r.cluster r.layer r.head)).map (fun p => (p.1, p.2, pos % 128))

/-- Where an entry is written (R248): a rebuild row's at its position of the group, a chunk's and a root's at its position of a committed
page, that of another node v at token v of the request's provisional frame of the layer. Nowhere where the row has no such place. -/
def entryPlace (s : State) (r : EntryConv) : Option (Nat × Nat × Nat) :=
  if 1048576 ≤ r.slot then
    ((s.group? (r.slot - 1048576)).bind (fun g => frameAt (groupModel s r.job g.draft) g r.cluster r.layer r.head)).map (fun p => (p.1, p.2, r.node % 128))
  else
    match s.req? r.slot, s.row? r.slot with
    | some q, some row =>
      if row.tokens ≤ r.node then none
      else if row.kind = .decode && r.node ≠ 0 then
        ((provOf q r.draft).find? (fun p => p.cluster = r.cluster && p.layer = r.layer)).map (fun p => (p.stack, p.granule, r.node))
      else pagePlace s q r (q.committedLen + r.node)
    | _, _ => none

/-- Puts an entry into the cache append buffer of a stack, the oldest leaving a full one for its frame (R138). -/
def State.appendEntry (s : State) (stack : Nat) (e : AppendEntry) : State :=
  let buf := (s.bcl stack).append.filter (fun a => !(a.row = e.row && a.token = e.token))
  let s := if 4096 ≤ buf.length then (buf.take 1).foldl (writeEntry stack) s else s
  s.modBcl stack (fun c => { c with append := (if 4096 ≤ buf.length then buf.drop 1 else buf) ++ [e] })

/-- The cache format record of a layer and head of a model, or of its draft model. -/
def formatOf (s : State) (m : Nat) (draft : Bool) (layer head : Nat) : CacheFmt := cacheFmt (s.mslot m).info draft layer head

/-- Head dimension of a cache format. -/
def fmtDim (f : CacheFmt) : Nat := if f.dsel = 0 then 64 else if f.dsel = 1 then 128 else 256

/-- Converts one K and V entry, two instances, into the cache append buffer. A non-finite instance is written with mantissa and codes 0, its
row's attention outputs are NaN, and its attempt never commits it (R192, R184). -/
def runEntry (r : EntryConv) (s : State) : State :=
  let f := formatOf s r.job r.draft r.layer r.head
  let dim := fmtDim f
  let phys := nth s.faults.clmap r.cluster 0
  let xk := placeRow s phys dim r.k
  let xv := placeRow s phys dim r.v
  let badK := xk.any (fun x => !fpFinite x)
  let badV := xv.any (fun x => !fpFinite x)
  let k := entryVec f f.ek f.cbk xk
  let v := entryVec f f.ev f.cbv xv
  let zero := List.replicate dim (0 : Byte)
  let t := match entryPlace s r with
    | none => s
    | some p => s.appendEntry p.1 { row := p.2.1, token := p.2.2, isInt8 := f.fmt = 2, dim := dim, kcodes := if badK then zero else k.1
                                    vcodes := if badV then zero else v.1, kmant := if badK then 0 else k.2.1, vmant := if badV then 0 else v.2.1 }
  let t := if badK || badV then
      (t.markNan r.slot r.node (nanLayer r.draft r.layer)).onPlan (fun p => { p with
        attempts := markAttempts [r.slot] (fun a => { a with nonfinite := true }) p.attempts })
    else t
  if r.draft then t else entryStats r (8 * r.layer + 7) f f.ev f.cbv xv v (entryStats r (8 * r.layer + 6) f f.ek f.cbk xk k t)

/-- c_D, FP32(log2(e) / sqrt(D)) rounded toward zero (R193). -/
def foldConst (dim : Nat) : U32 := if dim = 64 then 0x3E38AA3B else if dim = 128 then 0x3E0293ED else 0x3DB8AA3B

/-- floor(log2 f) of a positive finite value. -/
def floorLog2 (f : U32) : Int := Int.ofNat (bits f.toNat 30 23) - 127

/-- qmant, qshift and whether the fold clipped (R193). -/
def foldQuery (f : U32) : U16 × Nat × Bool :=
  if fpEq f 0 then (0, 0, false)
  else
    let sh := min (15 - floorLog2 f) 31
    if sh < 0 then (65535, 0, true) else (BitVec.ofInt 16 (fpTrunc (fpScale f sh)), sh.toNat, false)

/-- Converts a query head per token and folds its scale; elements, then qmant and qshift, are written; the attention outputs of a
non-finite row are NaN (R193, R184). -/
def runQuery (r : QueryConv) (s : State) : State :=
  let f := formatOf s r.job r.draft r.layer r.head
  let dim := fmtDim f
  let phys := nth s.faults.clmap r.cluster 0
  let x := placeRow s phys dim r.x
  let cv := convert 0 0 [] x (absMax x) none
  let q := if cv.nonfinite then (0, 0, false) else
    foldQuery (fpMul (fpScale (decScale cv.mant cv.exp) (i8 f.ek + 8)) (foldConst dim))
  let s := if cv.nonfinite then s.markNan r.slot r.node (nanLayer r.draft r.layer) else s
  let s := s.putPlace phys r.out (slice cv.codes 0 256 ++ leBytes 2 q.1.toNat ++ leBytes 2 q.2.1)
  if r.draft then s else s.convStats r.job (8 * r.layer + 5) [] x cv (b2n q.2.2)

/-! ## Commands -/

/-- A holding of a job under LOGIT. -/
def logitHolding (job : Nat) (h : Holding) : Bool := h.cls = .logit && h.holder = job

/-- The output kernel's local reduction of a row node on a cluster: its candidate record, written to the job's LOGIT blocks (R223 to
R225). A record outside them faults the job (R208). -/
def runLogits (r : LogitRun) (job : Nat) (s : State) : State :=
  match s.req? r.slot with
  | none => s
  | some q =>
    let c := localRecord q (runTree q) r.slot r.node r.cluster (s.mslot q.modelSlot).info.vocab r.x
    if holdsIn s (logitHolding job) r.addr (candBytes c).length then (s.putRecord { c with addr := r.addr }).putStore r.addr (candBytes c) else s.jobFault job

/-- VECTOR_CHAIN: an engine runs a row for a job. A word that is not accepted, a tile that is not CLOSED and a range not held fault the job
(R211, R166, R208). -/
def execVectorChain (op : VecOp) (s : State) : Host.Outcome State Fault Refusal :=
  .next (
    match op with
    | .chain r =>
      if engineOk s r.engine then
        if chainOk r.config then s.engineRun r.job r.engine (chainReads r) (chainWrites s r) (runChain r)
        else if s.jobRuns r.job then s.jobFault r.job else s
      else s
    | .tile t =>
      if s.clusterUp t.cluster && s.jobRuns t.job then
        if tileOk t then
          s.engineRun t.job t.cluster (tileReads t) [(t.out, 4 * t.ncols)]
            (fun u => u.putPlace t.cluster t.out (rowBytes 0 ((List.range t.ncols).map (tileElem u t))))
        else s.jobFault t.job
      else s
    | .entry r =>
      let phys := nth s.faults.clmap r.cluster 0
      if r.cluster < 16 && s.clusterUp phys then 
        let n := 4 * fmtDim (formatOf s r.job r.draft r.layer r.head)
        s.engineRun r.job phys [(r.k, n), (r.v, n)] [] (runEntry r)
      else s
    | .query r =>
      let phys := nth s.faults.clmap r.cluster 0
      if r.cluster < 16 && s.clusterUp phys then 
        s.engineRun r.job phys [(r.x, 4 * fmtDim (formatOf s r.job r.draft r.layer r.head))] [(r.out, 260)] (runQuery r)
      else s
    | .logits r =>
      match s.row? r.slot with
      | none => s
      | some row => if s.jobRuns row.modelSlot && r.cluster < 16 then runLogits r row.modelSlot s else s)

/-- FUNCTION_TABLE_LOAD: a kernel loads a function table of 3,104 B (R212). -/
def execFunctionTableLoad (engine job table : Nat) (bytes : List (BitVec 8)) (s : State) : Host.Outcome State Fault Refusal :=
  .next (
    if engineOk s engine && s.jobRuns job && table < 4 then
      s.modEngine engine (fun e => { e with tables := tabPut table (slice bytes 0 3104) e.tables })
    else s)

/-- The partials added element by element in the order given, then to the residual row (R214). -/
def reduceRow (job : Nat) (addrs : List Nat) (residual n : Nat) (s : State) : State :=
  let sums := (List.range n).map (fun i =>
    match addrs with
    | [] => placeWord s 16 (.store residual) i
    | a :: r => fpAdd (placeWord s 16 (.store residual) i) (r.foldl (fun acc b => fpAdd acc (placeWord s 16 (.store b) i)) (placeWord s 16 (.store a) i)))
  ((addrs.map (fun a => (a, 4 * n)) ++ [(residual, 4 * n)]).foldl (fun t r => t.jobReads job r) s).putStore residual (rowBytes 0 sums)

/-- The addresses of partials in the fixed source order: this device's clusters ascending, then remote devices by identity; a source is a
cluster 0 to 15, or 16 plus a device's identity (R214). -/
def sourceOrder (parts : List (Nat × Nat)) : List Nat := (parts.foldl (fun acc p => insertKey p.1 p.2 acc) []).map (·.2)

/-- A partial lies in its source's blocks: a cluster's in the job's ACT or LOGIT blocks, a remote device's in SHIP blocks (R208, R214). -/
def partHeld (s : State) (job n : Nat) (p : Nat × Nat) : Bool :=
  holdsIn s (if p.1 < 16 then jobHolding job else rowHolding) p.2 (4 * n)

/-- ROW_REDUCTION: once its semaphore shows that every source has written, the hub adds the partials in the fixed source
order to the residual row (R214), as the WAIT of the reduction takes the sources off the semaphore (R215, R216). A partial or a residual row
outside the blocks that hold it faults the job (R208). -/
def execRowReduction (job sem : Nat) (sources addrs : List Nat) (residual n : Nat) (s : State) : Host.Outcome State Fault Refusal :=
  let parts := sources.zip addrs
  .next (
    match tabGet sem s.store.sems with
    | none => s
    | some q =>
      if s.jobRuns job && q.job = job && q.waiters.isEmpty && parts.length ≤ q.value then
        if parts.all (partHeld s job n) && holdsIn s (jobHolding job) residual (4 * n) then
          (reduceRow job (sourceOrder parts) residual n s).onStore (fun w =>
            { w with sems := tabMod sem (fun x => { x with value := x.value - parts.length }) w.sems })
        else s.jobFault job
      else s)

end Sys2Proof.Machine
end

