-- ==== Sys2Proof/Machine/Dispatch.lean ====
section
/-! DEFINITION. What each command does: one arm per constructor, each a direct call of its meaning. -/

namespace Sys2Proof.Machine

open Sys2Proof

def exec (i : Instr) (s : State) : Host.Outcome State Fault Refusal :=
  match i with
  | .tickEdge => Sys2Proof.Machine.execTickEdge s
  | .commitOpen => Sys2Proof.Machine.execCommitOpen s
  | .commitGathersDone slot => Sys2Proof.Machine.execCommitGathersDone slot s
  | .budgetWindowStart tenant => Sys2Proof.Machine.execBudgetWindowStart tenant s
  | .deadlineExpiry slot => Sys2Proof.Machine.execDeadlineExpiry slot s
  | .holdExpiry slot => Sys2Proof.Machine.execHoldExpiry slot s
  | .ttlExpiry slot => Sys2Proof.Machine.execTtlExpiry slot s
  | .importTimeout t slot => Sys2Proof.Machine.execImportTimeout t slot s
  | .resumeComplete slot => Sys2Proof.Machine.execResumeComplete slot s
  | .submissionRingDoorbell t port ring offset width value => Sys2Proof.Machine.execSubmissionRingDoorbell t port ring offset width value s
  | .streamCreditDoorbell t port offset width value => Sys2Proof.Machine.execStreamCreditDoorbell t port offset width value s
  | .mbDoorbell t port offset width value => Sys2Proof.Machine.execMbDoorbell t port offset width value s
  | .submit ring d => Sys2Proof.Machine.execSubmit ring d s
  | .identify mb => Sys2Proof.Machine.execIdentify mb s
  | .deviceState mb => Sys2Proof.Machine.execDeviceState mb s
  | .warmReset mb => Sys2Proof.Machine.execWarmReset mb s
  | .eventRead mb => Sys2Proof.Machine.execEventRead mb s
  | .powerConfig mb => Sys2Proof.Machine.execPowerConfig mb s
  | .abort mb => Sys2Proof.Machine.execAbort mb s
  | .tickConfig mb => Sys2Proof.Machine.execTickConfig mb s
  | .groupConfigJoin mb groupTime => Sys2Proof.Machine.execGroupConfigJoin mb groupTime s
  | .groupConfigLeave mb => Sys2Proof.Machine.execGroupConfigLeave mb s
  | .tenantConfig mb => Sys2Proof.Machine.execTenantConfig mb s
  | .domainConfig mb => Sys2Proof.Machine.execDomainConfig mb s
  | .ringRegister mb => Sys2Proof.Machine.execRingRegister mb s
  | .ringRelease mb => Sys2Proof.Machine.execRingRelease mb s
  | .reqCancel mb => Sys2Proof.Machine.execReqCancel mb s
  | .reqPause mb => Sys2Proof.Machine.execReqPause mb s
  | .reqResume mb => Sys2Proof.Machine.execReqResume mb s
  | .reqDraft mb text => Sys2Proof.Machine.execReqDraft mb text s
  | .reqQuery mb => Sys2Proof.Machine.execReqQuery mb s
  | .reqMigrate mb => Sys2Proof.Machine.execReqMigrate mb s
  | .recover mb => Sys2Proof.Machine.execRecover mb s
  | .recoverEntry mb r => Sys2Proof.Machine.execRecoverEntry mb r s
  | .planConfig mb => Sys2Proof.Machine.execPlanConfig mb s
  | .bankConfig mb => Sys2Proof.Machine.execBankConfig mb s
  | .matrixConfig mb => Sys2Proof.Machine.execMatrixConfig mb s
  | .quantConfig mb => Sys2Proof.Machine.execQuantConfig mb s
  | .storeConfig mb => Sys2Proof.Machine.execStoreConfig mb s
  | .tierConfig mb => Sys2Proof.Machine.execTierConfig mb s
  | .gelconConfig mb => Sys2Proof.Machine.execGelconConfig mb s
  | .gelconQuarantineRelease mb => Sys2Proof.Machine.execGelconQuarantineRelease mb s
  | .gelconSpareAssign mb => Sys2Proof.Machine.execGelconSpareAssign mb s
  | .hostConfig mb => Sys2Proof.Machine.execHostConfig mb s
  | .modelConfig mb => Sys2Proof.Machine.execModelConfig mb s
  | .sceolConfig mb => Sys2Proof.Machine.execSceolConfig mb s
  | .tierRegister mb => Sys2Proof.Machine.execTierRegister mb s
  | .tierRelease mb => Sys2Proof.Machine.execTierRelease mb s
  | .pin mb => Sys2Proof.Machine.execPin mb s
  | .unpin mb => Sys2Proof.Machine.execUnpin mb s
  | .promote mb => Sys2Proof.Machine.execPromote mb s
  | .demote mb => Sys2Proof.Machine.execDemote mb s
  | .drop mb => Sys2Proof.Machine.execDrop mb s
  | .parkNow mb => Sys2Proof.Machine.execParkNow mb s
  | .prefixProbe mb tokens => Sys2Proof.Machine.execPrefixProbe mb tokens s
  | .modelLoad mb => Sys2Proof.Machine.execModelLoad mb s
  | .modelHeaderReadDone mb r => Sys2Proof.Machine.execModelHeaderReadDone mb r s
  | .modelLoadComplete slot r => Sys2Proof.Machine.execModelLoadComplete slot r s
  | .modelEvict mb => Sys2Proof.Machine.execModelEvict mb s
  | .modelSlotEmpty slot => Sys2Proof.Machine.execModelSlotEmpty slot s
  | .modelPin mb => Sys2Proof.Machine.execModelPin mb s
  | .modelUnpin mb => Sys2Proof.Machine.execModelUnpin mb s
  | .modelRelease mb => Sys2Proof.Machine.execModelRelease mb s
  | .alloyLoad mb r => Sys2Proof.Machine.execAlloyLoad mb r s
  | .alloyGenResident id gen r => Sys2Proof.Machine.execAlloyGenResident id gen r s
  | .alloyRetire mb => Sys2Proof.Machine.execAlloyRetire mb s
  | .statsRead mb ok => Sys2Proof.Machine.execStatsRead mb ok s
  | .calRead mb ok => Sys2Proof.Machine.execCalRead mb ok s
  | .calWrite mb buffer => Sys2Proof.Machine.execCalWrite mb buffer s
  | .fwStage mb r => Sys2Proof.Machine.execFwStage mb r s
  | .fwActivateNextReset mb => Sys2Proof.Machine.execFwActivateNextReset mb s
  | .fwActivateLive mb => Sys2Proof.Machine.execFwActivateLive mb s
  | .standbyCaughtUp t ok => Sys2Proof.Machine.execStandbyCaughtUp t ok s
  | .activationHandover => Sys2Proof.Machine.execActivationHandover s
  | .probationEnd => Sys2Proof.Machine.execProbationEnd s
  | .formerActiveStandby t => Sys2Proof.Machine.execFormerActiveStandby t s
  | .samplerRowMerge t slot => Sys2Proof.Machine.execSamplerRowMerge t slot s
  | .treeBuild slot => Sys2Proof.Machine.execTreeBuild slot s
  | .kernelStart model kernel g drafts => Sys2Proof.Machine.execKernelStart model kernel g drafts s
  | .kernelEnd t model kernel m => Sys2Proof.Machine.execKernelEnd t model kernel m s
  | .preempt model dirty => Sys2Proof.Machine.execPreempt model dirty s
  | .jobResume model => Sys2Proof.Machine.execJobResume model s
  | .buNop cl job word => Sys2Proof.Machine.execBuNop cl job word s
  | .qload cl job word q => Sys2Proof.Machine.execQload cl job word q s
  | .gload cl job word payload => Sys2Proof.Machine.execGload cl job word payload s
  | .tload cl job word payload => Sys2Proof.Machine.execTload cl job word payload s
  | .aclr cl job word => Sys2Proof.Machine.execAclr cl job word s
  | .pass cl job word bad => Sys2Proof.Machine.execPass cl job word bad s
  | .drain cl job word ext => Sys2Proof.Machine.execDrain cl job word ext s
  | .copy cl job word ext bad => Sys2Proof.Machine.execCopy cl job word ext bad s
  | .gather cl job word ext bad => Sys2Proof.Machine.execGather cl job word ext bad s
  | .fill cl job word => Sys2Proof.Machine.execFill cl job word s
  | .scrub cl kernel word bad => Sys2Proof.Machine.execScrub cl kernel word bad s
  | .tlogrd cl job word ext => Sys2Proof.Machine.execTlogrd cl job word ext s
  | .kvflush cl job first count => Sys2Proof.Machine.execKvflush cl job first count s
  | .appendBufferWriteback cl entries => Sys2Proof.Machine.execAppendBufferWriteback cl entries s
  | .layerCombine cl job layer bad => Sys2Proof.Machine.execLayerCombine cl job layer bad s
  | .bankRefresh cl bank => Sys2Proof.Machine.execBankRefresh cl bank s
  | .stackHotChange cl temp => Sys2Proof.Machine.execStackHotChange cl temp s
  | .patrolScrub cl bank bad => Sys2Proof.Machine.execPatrolScrub cl bank bad s
  | .mxNop cl job word => Sys2Proof.Machine.execMxNop cl job word s
  | .iload cl job word => Sys2Proof.Machine.execIload cl job word s
  | .gopen cl job word => Sys2Proof.Machine.execGopen cl job word s
  | .mpass cl job word rows => Sys2Proof.Machine.execMpass cl job word rows s
  | .gclose cl job word => Sys2Proof.Machine.execGclose cl job word s
  | .gfree cl job word => Sys2Proof.Machine.execGfree cl job word s
  | .apass cl job word tensor layer zx a => Sys2Proof.Machine.execApass cl job word tensor layer zx a s
  | .spload cl job word => Sys2Proof.Machine.execSpload cl job word s
  | .spinv cl job word => Sys2Proof.Machine.execSpinv cl job word s
  | .gsave cl group kernel => Sys2Proof.Machine.execGsave cl group kernel s
  | .grstr cl group kernel => Sys2Proof.Machine.execGrstr cl group kernel s
  | .ingotFetchIssue cl job kernel => Sys2Proof.Machine.execIngotFetchIssue cl job kernel s
  | .ingotFetchDone cl f uncorrectable => Sys2Proof.Machine.execIngotFetchDone cl f uncorrectable s
  | .vectorChain op => Sys2Proof.Machine.execVectorChain op s
  | .functionTableLoad engine job table bytes => Sys2Proof.Machine.execFunctionTableLoad engine job table bytes s
  | .rowReduction job sem sources addrs residual n => Sys2Proof.Machine.execRowReduction job sem sources addrs residual n s
  | .storeReserve cls holder blocks => Sys2Proof.Machine.execStoreReserve cls holder blocks s
  | .storeReserveRetry => Sys2Proof.Machine.execStoreReserveRetry s
  | .storeRelease cls holder => Sys2Proof.Machine.execStoreRelease cls holder s
  | .storePoisonedRead cls addr holder => Sys2Proof.Machine.execStorePoisonedRead cls addr holder s
  | .storePatrol bad => Sys2Proof.Machine.execStorePatrol bad s
  | .semSignal job n v => Sys2Proof.Machine.execSemSignal job n v s
  | .semWait job n v waiter => Sys2Proof.Machine.execSemWait job n v waiter s
  | .semWaitSatisfied n => Sys2Proof.Machine.execSemWaitSatisfied n s
  | .semRead n => Sys2Proof.Machine.execSemRead n s
  | .hubDieFailed t die => Sys2Proof.Machine.execHubDieFailed t die s
  | .storeRestripe => Sys2Proof.Machine.execStoreRestripe s
  | .sync t m => Sys2Proof.Machine.execSync t m s
  | .alignmentRestored t => Sys2Proof.Machine.execAlignmentRestored t s
  | .tickMasterRecompute found => Sys2Proof.Machine.execTickMasterRecompute found s
  | .vote t port v => Sys2Proof.Machine.execVote t port v s
  | .voteCutoff => Sys2Proof.Machine.execVoteCutoff s
  | .commitSet t port payload => Sys2Proof.Machine.execCommitSet t port payload s
  | .csetReq t src tick => Sys2Proof.Machine.execCsetReq t src tick s
  | .shardPlan t port payload => Sys2Proof.Machine.execShardPlan t port payload s
  | .actData t a => Sys2Proof.Machine.execActData t a s
  | .shipOpen t a => Sys2Proof.Machine.execShipOpen t a s
  | .shipGrant t a => Sys2Proof.Machine.execShipGrant t a s
  | .shipData t port p => Sys2Proof.Machine.execShipData t port p s
  | .shipWindowAdvance handle upto => Sys2Proof.Machine.execShipWindowAdvance handle upto s
  | .shipDone t port p => Sys2Proof.Machine.execShipDone t port p s
  | .shipEnd t port p => Sys2Proof.Machine.execShipEnd t port p s
  | .shipUnclaimedTimeout t handle => Sys2Proof.Machine.execShipUnclaimedTimeout t handle s
  | .shipmentApply handle => Sys2Proof.Machine.execShipmentApply handle s
  | .mgmt t a msg => Sys2Proof.Machine.execMgmt t a msg s
  | .err t a => Sys2Proof.Machine.execErr t a s
  | .packetForward t port p queues => Sys2Proof.Machine.execPacketForward t port p queues s
  | .flitData t port f => Sys2Proof.Machine.execFlitData t port f s
  | .flitIdle t port f => Sys2Proof.Machine.execFlitIdle t port f s
  | .flitCredit t port f => Sys2Proof.Machine.execFlitCredit t port f s
  | .flitNak t port f => Sys2Proof.Machine.execFlitNak t port f s
  | .flitVcReset t port f => Sys2Proof.Machine.execFlitVcReset t port f s
  | .flitIdent t port f tags => Sys2Proof.Machine.execFlitIdent t port f tags s
  | .flitLane t port f => Sys2Proof.Machine.execFlitLane t port f s
  | .nakRepeat t port => Sys2Proof.Machine.execNakRepeat t port s
  | .resendTimeout t port => Sys2Proof.Machine.execResendTimeout t port s
  | .ackTimer t port => Sys2Proof.Machine.execAckTimer t port s
  | .creditReturnTimer t port => Sys2Proof.Machine.execCreditReturnTimer t port s
  | .partnerViolation t port cause vc p => Sys2Proof.Machine.execPartnerViolation t port cause vc p s
  | .portTrained t port lanes => Sys2Proof.Machine.execPortTrained t port lanes s
  | .laneRetire t port l frame => Sys2Proof.Machine.execLaneRetire t port l frame s
  | .laneRetrain t port lane frame ok => Sys2Proof.Machine.execLaneRetrain t port lane frame ok s
  | .gelconPortDown t port => Sys2Proof.Machine.execGelconPortDown t port s
  | .hostPortDown t port cause => Sys2Proof.Machine.execHostPortDown t port cause s
  | .hostPortUp t port gts lanes => Sys2Proof.Machine.execHostPortUp t port gts lanes s
  | .hostDmaFail t kind target seq => Sys2Proof.Machine.execHostDmaFail t kind target seq s
  | .atsInvalidation t port page => Sys2Proof.Machine.execAtsInvalidation t port page s
  | .flushReadComplete t port => Sys2Proof.Machine.execFlushReadComplete t port s
  | .msixTableWrite offset value => Sys2Proof.Machine.execMsixTableWrite offset value s
  | .debugWindowAccess write offset bytes => Sys2Proof.Machine.execDebugWindowAccess write offset bytes s
  | .registerWrite t bar addr bytes => Sys2Proof.Machine.execRegisterWrite t bar addr bytes s
  | .ppsEdge t => Sys2Proof.Machine.execPpsEdge t s
  | .referenceLost t => Sys2Proof.Machine.execReferenceLost t s
  | .referenceRestored t => Sys2Proof.Machine.execReferenceRestored t s
  | .governorStepDown t watts => Sys2Proof.Machine.execGovernorStepDown t watts s
  | .overcurrentStep t => Sys2Proof.Machine.execOvercurrentStep t s
  | .overcurrentHalt t => Sys2Proof.Machine.execOvercurrentHalt t s
  | .thermalAlert t code temp => Sys2Proof.Machine.execThermalAlert t code temp s
  | .thermalThrottleStep t code temp => Sys2Proof.Machine.execThermalThrottleStep t code temp s
  | .thermalTrip t code temp => Sys2Proof.Machine.execThermalTrip t code temp s
  | .dramOvertempPowerOff t code temp => Sys2Proof.Machine.execDramOvertempPowerOff t code temp s
  | .powerOn memberId => Sys2Proof.Machine.execPowerOn memberId s
  | .firmwareVerified t a b => Sys2Proof.Machine.execFirmwareVerified t a b s
  | .pwrGood t => Sys2Proof.Machine.execPwrGood t s
  | .pwrGoodTimeout t => Sys2Proof.Machine.execPwrGoodTimeout t s
  | .bootStageDone t r => Sys2Proof.Machine.execBootStageDone t r s
  | .resetN t high memberId => Sys2Proof.Machine.execResetN t high memberId s
  | .warmResetN t => Sys2Proof.Machine.execWarmResetN t s
  | .warmResetComplete t ctOk => Sys2Proof.Machine.execWarmResetComplete t ctOk s
  | .main48Loss t => Sys2Proof.Machine.execMain48Loss t s
  | .aux12Loss t => Sys2Proof.Machine.execAux12Loss t s
  | .controlHeartbeatTimeout t => Sys2Proof.Machine.execControlHeartbeatTimeout t s
  | .servingHeartbeatTimeout t => Sys2Proof.Machine.execServingHeartbeatTimeout t s
  | .controlTakeover => Sys2Proof.Machine.execControlTakeover s
  | .orphanEnter => Sys2Proof.Machine.execOrphanEnter s
  | .leaseRenew t => Sys2Proof.Machine.execLeaseRenew t s
  | .leaseExpiry t => Sys2Proof.Machine.execLeaseExpiry t s
  | .leaseReclaim t => Sys2Proof.Machine.execLeaseReclaim t s
  | .i3cWrite index => Sys2Proof.Machine.execI3cWrite index s
  | .i3cRead count => Sys2Proof.Machine.execI3cRead count s
  | .uncorrectableData t kind addr target bothLost readers => Sys2Proof.Machine.execUncorrectableData t kind addr target bothLost readers s
  | .ingotRepairDone slot cl granule ok bytes => Sys2Proof.Machine.execIngotRepairDone slot cl granule ok bytes s
  | .brokenSlotTimeout slot => Sys2Proof.Machine.execBrokenSlotTimeout slot s
  | .rebuildCommit handle => Sys2Proof.Machine.execRebuildCommit handle s
  | .spareRowSwap stack bank row => Sys2Proof.Machine.execSpareRowSwap stack bank row s
  | .spareColumnSwap stack bank column => Sys2Proof.Machine.execSpareColumnSwap stack bank column s
  | .spareBankCopyDone stack bank spare => Sys2Proof.Machine.execSpareBankCopyDone stack bank spare s
  | .tsvSpareSwitch stack lane => Sys2Proof.Machine.execTsvSpareSwitch stack lane s
  | .bankRetire t stack bank => Sys2Proof.Machine.execBankRetire t stack bank s
  | .clusterPairFailed t pair => Sys2Proof.Machine.execClusterPairFailed t pair s
  | .clmapSwitch => Sys2Proof.Machine.execClmapSwitch s
  | .demotionComplete handle t2Addr => Sys2Proof.Machine.execDemotionComplete handle t2Addr s
  | .demotionFail handle => Sys2Proof.Machine.execDemotionFail handle s
  | .promotionComplete handle data => Sys2Proof.Machine.execPromotionComplete handle data s
  | .tier2ReadFail handle => Sys2Proof.Machine.execTier2ReadFail handle s
  | .publishRewriteDone handle => Sys2Proof.Machine.execPublishRewriteDone handle s
  | .granuleFillDone index => Sys2Proof.Machine.execGranuleFillDone index s
  | .dieRebootedHealthy t code => Sys2Proof.Machine.execDieRebootedHealthy t code s
  | .thermalThresholdLeft t code temp => Sys2Proof.Machine.execThermalThresholdLeft t code temp s
  | .snapshotReadable t => Sys2Proof.Machine.execSnapshotReadable t s
  | .fwStageVerified intact flashOk => Sys2Proof.Machine.execFwStageVerified intact flashOk s
  | .calRecordSwitched => Sys2Proof.Machine.execCalRecordSwitched s
  | .measurementUpdate t watts volts amps logic dram r => Sys2Proof.Machine.execMeasurementUpdate t watts volts amps logic dram r s

end Sys2Proof.Machine
end

