-- ==== Sys2Proof/Hypotheses.lean ====
section
/-! DEFINITION. When a mailbox command is taken and when a sequencer runs a command word, a port
or the device takes a flit or a packet, in the terms the statements' hypotheses use. -/

namespace Sys2Proof

open Sys2Proof.Machine

/-- A class-I command with an opcode is outstanding in a mailbox slot, Sceol takes commands, and no class-I command that is outstanding comes
before it (R42, R358, R359). -/
abbrev Asked (s : State) (mb op : Nat) (c : MbCommand) : Prop :=
  s.cmdAt mb [op] = some c ∧ s.sceolUp = true ∧ turnOf s (askedCommands s) c = true

/-- A command of class T, or one of class L that has not started, is outstanding in a mailbox slot, and its turn has come among the
commands that the open commit window is to apply (R41, R42, R358). -/
abbrev Due (s : State) (mb op : Nat) (c : MbCommand) : Prop := s.cmdAt mb [op] = some c ∧ s.sceolUp = true ∧ firstDue s c = true

/-- The state in which such a command acts on its request: the credits and the messages for it that stand before it in R42's order have been
taken. -/
def credited (s : State) (c : MbCommand) : State := s.begin.takeEventsFor (cf c 0 4) (some (s.cmdKey c))

/-- What follows it: once no other command of the window names the request, its other credits and messages are taken, and the requests whose
turn has come are settled (R42, R80, R306). -/
def afterCommand (t : State) (n : Nat) : State := (if (dueCommands t n).isEmpty then t.takeEventsFor n none else t).settlePump

/-- A command that is due names a request which lives and whose admission it names (R74). -/
abbrev OnRequest (s : State) (mb op : Nat) (c : MbCommand) (r : Request) : Prop :=
  Due s mb op c ∧ (credited s c).req? (cf c 0 4) = some r ∧ reqLive r.state = true ∧ namesReq c r = true

/-- The value that an entry of a configuration command gives the register it names: the bits that its mask sets (R362). -/
def entryValue (op : Nat) (p : List Byte) (r : Registers) (i : Nat) : BitVec 32 :=
  match rwAt op (configEntry p i).1 with
  | none => 0
  | some g => maskWrite (rwGet r g) (configEntry p i).2.1 (configEntry p i).2.2

/-- An entry names an RW register of the command's row, and each field of the value it gives it lies in its range (R362); the fields of
JOURNAL are RO (R209). -/
def entryFits (op : Nat) (p : List Byte) (r : Registers) (i : Nat) : Bool :=
  match rwAt op (configEntry p i).1 with
  | none => false
  | some g => rwOk (entryValue op p r i).toNat g && g ≠ .classCfg 5

/-- The registers once the first n entries of a configuration command have been written in order (R362). -/
def writtenRegs (op : Nat) (p : List Byte) (r : Registers) (n : Nat) : Registers :=
  (List.range n).foldl (fun r i => match rwAt op (configEntry p i).1 with | none => r | some g => rwSet r (entryValue op p r i) g) r

/-- Every entry of a configuration command fits the registers that the entries before it leave (R362). -/
def entriesFit (op : Nat) (c : MbCommand) (r : Registers) : Bool :=
  (List.range (entryCount c)).all (fun i => entryFits op c.payload (writtenRegs op c.payload r i) i)

/-- The completion data of a configuration command: for each entry in order the value it gives its register (R362). -/
def entryData (op : Nat) (c : MbCommand) (r : Registers) : List Byte :=
  (List.range (entryCount c)).flatMap (fun i => leBytes 4 (entryValue op c.payload (writtenRegs op c.payload r i) i).toNat)

/-- Host address of the descriptor at the front of a ring (R56). -/
def frontDesc (s : State) (ring : Nat) : Nat := (s.ring ring).addr + (s.ring ring).consumed % 2 ^ (s.ring ring).sizeLog2 * 256

/-- The state once that descriptor has been taken and read: it counts as consumed, and its block of the store is free (R43, R57, R202, R344). -/
def descTaken (s : State) (ring : Nat) : State :=
  ((s.consume ring).closeTransit .host ring).hostRead (s.ring ring).port (frontDesc s ring) 256

/-- The state in which a recovery judges its next entry, which it has read (R377, R344). -/
def entryTaken (s : State) (c : MbCommand) (index : Nat) : State :=
  (s.onReq (fun u => { u with taken := u.taken + 1 })).hostRead c.port (cf c 8 8 + 64 * index) 64

/-- The bank-unit sequencer of a cluster runs a command as it is issued: its pair is in service and its job may queue commands (R144), and is
not 17, the number that the model gives a commit's own GATHERs;
the words keep the rules of R122 to R124; no earlier command that shares a bank with it waits, and its banks are refreshed and under the
stream cap (R125, R133); its ranges and units are the job's (R124, R141); and the range checker finds no violation (R140). -/
abbrev BankRuns (s : State) (cl : Nat) (c : BuCmd) : Prop :=
  (s.clusterUp cl = true ∧ s.mayQueue c.job = true ∧ c.job ≠ 17) ∧ (buFormOk s c = true ∧ buFits s cl c = true) ∧
    ((s.bcl cl).queue.any (fun q => buShare s.variant q c) = false ∧ buStarts s cl c.word = true) ∧ buAccept s cl c = true ∧
    rchkFinds s cl c = none

/-- The matrix sequencer of a cluster accepts a command word: its pair is in service, its job may queue commands, and no cause of Table 6-9
applies (R161). fmt, inW and outW are an APASS's activation format and widths. -/
abbrev MxRuns (s : State) (cl job op : Nat) (w : BitVec 128) (fmt inW outW : Nat) : Prop :=
  mxTakes s cl job = true ∧ mxWordBad s cl op w = none ∧ mxReject s cl job op w fmt inW outW = none

/-- The same for a command that names a unit and has nothing to wait for: its ingot is there, and no command of its unit waits before it
(R156, R160). -/
abbrev MxStarts (s : State) (cl : Nat) (q : MxCmd) : Prop :=
  MxRuns s cl q.job q.op q.word 0 0 0 ∧ mxWaits s cl q = false ∧ mxBehind (s.mcl cl).queue q = false

/-- A packet came by a port that is up, on a virtual channel whose stream is not being discarded (R317, R331). -/
abbrev Located (s : State) (port : Nat) (p : Packet) : Prop :=
  (s.gport port).up = true ∧ (portVc (s.gport port) (2 * (p.tc % 4) + p.hop % 2)).resync = false

/-- Such a packet of a type is for this device and has no fault in its header, and its port carries more than MGMT (R316, R318, R322). -/
abbrev ForUs (s : State) (port : Nat) (p : Packet) (ptype : Nat) : Prop :=
  (p.ptype = ptype ∧ onlyMgmt s port = false) ∧ Located s port p ∧ headerCause s p = 0 ∧ p.dst = identityOf s

/-- The fields of SHIP_OPEN are in range (R332). -/
def shipOpenOk (p : Packet) : Bool :=
  field p.payload 0 8 ≠ 0 && allZero (slice p.payload 41 3) && allZero (slice p.payload 48 16) && inRange (field p.payload 44 4) 1 16383 &&
    inRange (field p.payload 40 1) 1 2

/-- The port once a flit's count of codewords and its frame word have been taken (R309, R311, R328). -/
def flitSeen (s : State) (p : Nat) (f : FlitIn) : State :=
  (s.countPort p (fun c => { c with fecCorrected := add64 c.fecCorrected f.fec.1, fecUncorrectable := add64 c.fecUncorrectable f.fec.2 })).seeFrame p f

/-- The port after such a flit's ack and credit fields (R312, R314). -/
def flitFields (s : State) (p : Nat) (f : FlitIn) : State :=
  (flitSeen s p f).modPort p (fun g => takeCredit f.bytes (takeAck (flitSeen s p f).now f.bytes g))

/-- What follows a flit: those that waited for it, then what may be sent (R311, R314, R319). -/
def afterFlit (p : Nat) (t : State) : State := ((drainHeld p (t.gport p).held.length t).pump p).freeTransit

/-- A flit of a type that the FEC left no error in, with a good CRC, comes to a port that is trained and not quarantined (R309, R310, R330). -/
abbrev FlitGood (s : State) (p ft : Nat) (f : FlitIn) : Prop :=
  ((s.gport p).trained = true ∧ (s.gport p).quarantined = false) ∧ f.fec.2 = 0 ∧ flCrcOk f.bytes = true ∧ flType f.bytes = ft

/-- The same for a sequenced flit that is the one expected (R312). -/
abbrev FlitComes (s : State) (p ft : Nat) (f : FlitIn) : Prop :=
  FlitGood s p ft f ∧ flSeq f.bytes = ((flitSeen s p f).gport p).expect

/-- The bytes of the TC0 area that a message takes: its payload, and a header for each of its packets (R318, R319). -/
def tc0Size (b : List Byte) : Nat := b.length + 32 * max 1 (ceilDiv b.length 4096)

/-- A message of the tick's commit comes by a port that is up and finds room in the TC0 area (R319, R331). -/
abbrev Tc0Lands (s : State) (port : Nat) (b : List Byte) : Prop :=
  (s.gport port).up = true ∧ s.gelcon.tc0Used + tc0Size b ≤ 4194304

/-- The state at the message's instant, once it stands in the area. -/
def tc0Taken (t : Nat) (b : List Byte) (s : State) : State :=
  (s.atTime t).onGelcon (fun g => { g with tc0Used := g.tc0Used + tc0Size b })

end Sys2Proof
end

