-- ==== Sys2Proof/Safety.lean ====
section
/-! DEFINITION. What counts as a safe run, in the terms the statements use: the memories keep their canonical form, and the two
logs the host reads keep their sizes. -/

namespace Sys2Proof

open Sys2Proof.Machine

/-- The device memory and the mailbox bytes are in canonical form (log 5). -/
def MemOk (s : State) : Prop := s.mem.wf = true ∧ Memory.wf s.mb.bytes = true

/-- The event queue holds at most 1,024 records (R364), and HX_MISUSE_LOG has 16 entries (R351, Table 15-9). -/
def LogsOk (s : State) : Prop := s.mb.events.length ≤ 1024 ∧ s.host.misuseLog.length = 16

/-- The invariant of the block: it holds after reset, and every step keeps it. -/
def Inv (s : State) : Prop := MemOk s ∧ LogsOk s

end Sys2Proof
end

