-- ==== Sys2Proof/Certificates/Slice0/Obligations.lean ====
section
/-! DEFINITION. The statements for the provers, by the chapters of the spec. Each docstring says what the statement claims; a clause
of a statement is one form of one command. -/

open Sys2Proof Sys2Proof.Machine

/-- When command c stands at the front of the queue, step is exec of c on the state with the queue's rest. With an empty queue the
block idles: one nanosecond of Invar passes (R26's count, modulo 2^64) and nothing else changes. That the block is driven by one
queue, and that an empty queue passes one nanosecond, is the model's choice (log 1). -/
def Obligations.StepRunsFrontCommand : Prop :=
  (∀ (c : Instr) (rest : List Instr) (s : State), s.pending = c :: rest → step s = exec c { s with pending := rest }) ∧
  (∀ (s : State), s.pending = [] → step s = .next { s with tick := { s.tick with iv := (s.tick.iv + 1) % 2 ^ 64 } })

/-- After reset the device memory and the mailbox bytes are in canonical form, the event queue holds at most 1,024 records, and
HX_MISUSE_LOG has its 16 entries. (The canonical form is the model's own way of holding memory, log 5.) -/
def Obligations.InvariantAtReset : Prop :=
  Inv State.reset

/-- For every state with the invariant, if a step answers a next state, that state has the invariant: the device memory and the
mailbox bytes keep their canonical form (addresses strictly rising, no zero byte listed: the model's form of memory, log 5), the
event queue never holds more than 1,024 records (R364), and HX_MISUSE_LOG always has 16 entries (Table 15-9). -/
def Obligations.InvariantKeptByEveryStep : Prop :=
  ∀ (s t : State), Inv s → step s = .next t → Inv t

/-- For every command with any operands and every state, exec answers a next state: no command ends in a fault or a refusal. A
command whose enabling condition does not hold has no effect but the passage of Invar (the model's choice, log 7). -/
def Obligations.EveryCommandAnswersNext : Prop :=
  ∀ (c : Instr) (s : State), ∃ t, exec c s = .next t

/-- Whatever command runs, in whatever state, its next state has the same waiting commands and the same variant (R1), and the count
of free values drawn (the model's own counter, log 6) never falls. -/
def Obligations.QueueAndVariantKept : Prop :=
  ∀ (c : Instr) (s t : State), exec c s = .next t → t.pending = s.pending ∧ t.variant = s.variant ∧ s.freeCtr ≤ t.freeCtr

/-- From every state whose queue is not empty a step answers a next state, and that state's queue is the old queue without its front
command: no command adds, drops or reorders waiting commands, so a queue of n commands is empty after n steps (the queue is the
model's, log 1). -/
def Obligations.StepConsumesOneCommand : Prop :=
  ∀ (s : State) (c : Instr) (rest : List Instr), s.pending = c :: rest → ∃ t, step s = .next t ∧ t.pending = rest ∧ t.variant = s.variant

/-- In a commit window with no warm reset pending, TICK_EDGE answers a next state in which the tick index is one higher, the tick
began at t_k + T (the old edge plus the old length in microseconds times 1,000), no commit window is open, T and C are those
frozen with the tick's inputs (or the old ones), and the commit window of the new tick opens C before its end. With no tick in
progress and ticks allowed to start, the first tick starts at the edge and with the index that the state holds for it. Outside a
commit window, while a tick runs, TICK_EDGE changes nothing (the model's choice, log 7). -/
def Obligations.TickEdgeStartsNextTick : Prop :=
  (∀ (s : State), s.tick.running = true → s.tick.inCommit = true → s.start.warmPending = false →
      ∃ t, exec .tickEdge s = .next t ∧
  t.tick.running = true ∧ t.tick.index = s.tick.index + 1 ∧ t.tick.edge = s.tick.edge + s.tick.tickUs * 1000 ∧ t.tick.inCommit = false ∧
  (t.tick.tickUs, t.tick.commitUs) = s.tick.frozenCfg.getD (s.tick.tickUs, s.tick.commitUs) ∧
  t.tick.commitOpenAt = t.tick.edge + t.tick.tickUs * 1000 - t.tick.commitUs * 1000) ∧
  (∀ (s : State), s.tick.running = false → ticksOpen s = true →
      ∃ t, exec .tickEdge s = .next t ∧
  t.tick.running = true ∧ t.tick.index = s.tick.firstIndex ∧ t.tick.edge = s.tick.firstEdge ∧ t.tick.inCommit = false ∧
  (t.tick.tickUs, t.tick.commitUs) = nextLengths s s.tick.firstIndex ∧ t.tick.commitOpenAt = t.tick.edge + t.tick.tickUs * 1000 - t.tick.commitUs * 1000) ∧
  (∀ (s : State), s.tick.running = true → s.tick.inCommit = false →
      exec .tickEdge s = .next s)

/-- Between an edge and o_k, COMMIT_OPEN answers a next state in which the commit window is open, the tick's index, edge and length
are unchanged, the configuration in force is the one that completed configuration commands have set (R44). In a commit window,
or while no tick runs, it changes nothing (the model's choice, log 7). -/
def Obligations.CommitOpenOpensWindow : Prop :=
  (∀ (s : State), s.tick.running = true → s.tick.inCommit = false →
      ∃ t, exec .commitOpen s = .next t ∧
  t.tick.inCommit = true ∧ t.tick.running = true ∧ t.tick.index = s.tick.index ∧ t.tick.edge = s.tick.edge ∧ t.tick.tickUs = s.tick.tickUs ∧
  t.cfg = s.cfgNext ∧ t.cfgNext = s.cfgNext) ∧
  (∀ (s : State), (s.tick.running && !s.tick.inCommit) = false →
      exec .commitOpen s = .next s)

/-- A byte written at a device address reads back; a byte at any other address reads as before; n bytes written from an address
leave every byte outside them as it was, and read back whole; each write keeps the memory's canonical form, and clearing a range
makes every byte of it read zero and keeps every other byte. (The sparse canonical list is the model's form of memory, and that
an unlisted byte reads zero is its choice, log 5.) -/
def Obligations.ReadAfterWrite : Prop :=
  (∀ (m : Memory) (a x : Nat) (b : Byte), m.wf = true →
      (m.write a b).wf = true ∧ (m.write a b).read x = if x = a then b else m.read x) ∧
  (∀ (m : Memory) (a x : Nat) (bs : List Byte), m.wf = true → (x < a ∨ a + bs.length ≤ x) →
      (m.writeN a bs).wf = true ∧ (m.writeN a bs).read x = m.read x) ∧
  (∀ (m : Memory) (a : Nat) (bs : List Byte), m.wf = true → (m.writeN a bs).readN a bs.length = bs) ∧
  (∀ (m : Memory) (a n x : Nat), m.wf = true →
      (m.clear a n).wf = true ∧ (m.clear a n).read x = if a ≤ x ∧ x < a + n then 0 else m.read x)

/-- When the device completes the command of mailbox slot n, the bytes of the slot become: length, status, the command's stamp and
done_stamp (Invar now) in the header, the 224-byte payload with the data padded with zeros; every byte of the mailbox outside
bytes 4 to 255 of slot n stays as it was (so no other slot changes); MB_DONE bit n is set and the bits of other slots stay; the
slot's command is no longer outstanding and every other command stays outstanding; and vector 1 is raised through the lowest-
numbered port that is up, where one is. -/
def Obligations.CompletionWritesSlot : Prop :=
  (∀ (s : State) (c : MbCommand) (status : Nat) (data : List Byte), Memory.wf s.mb.bytes = true → c.slot < 256 → data.length ≤ 224 →
      
  (∀ x, (x < 256 * c.slot + 4 ∨ 256 * c.slot + 256 ≤ x) → Memory.read (s.complete c status data).mb.bytes x = Memory.read s.mb.bytes x) ∧
  Memory.readN (s.complete c status data).mb.bytes (256 * c.slot + 4) 252 =
    leBytes 2 data.length ++ leBytes 2 status ++ leBytes 8 c.stamp ++ leBytes 8 s.now ++ leBytes 4 c.hostRef.toNat ++ leBytes 4 0 ++ data ++
      List.replicate (224 - data.length) 0) ∧
  (∀ (s : State) (c : MbCommand) (status n : Nat) (data : List Byte), 
  (n ∈ (s.complete c status data).mb.done ↔ n = c.slot ∨ n ∈ s.mb.done) ∧
  (∀ x, x ∈ (s.complete c status data).mb.outstanding ↔ x ∈ s.mb.outstanding ∧ x.slot ≠ c.slot)) ∧
  (∀ (s : State) (c : MbCommand) (status p : Nat) (data : List Byte), s.lowPort = some p → s.tick.inCommit = false → (tabGetD 1 ({} : MsixEntry) s.host.msix).masked = false →
      
  (s.complete c status data).host.raised = s.host.raised ++ [(1, p)])

/-- Completing a command, posting an event and logging a misused doorbell leave every other part of the state as it was: the tick,
the requests, both configurations, the plans, the bank and matrix units, the Central Store, the tiers, the models, Gelcon, the
faults, the counters, the device memory and the power state. Posting an event leaves the slots' bytes, MB_DONE and the
outstanding commands as they were; misuse leaves the events as well. -/
def Obligations.CompletionFrame : Prop :=
  (∀ (s t : State) (c : MbCommand) (st : Nat) (d : List Byte) (code a b v cause port target : Nat),
      (t = s.complete c st d ∨ t = s.postEvent code a b ∨ t = s.misuse v v cause port target) →
      t.tick = s.tick ∧ t.req = s.req ∧ t.cfg = s.cfg ∧ t.cfgNext = s.cfgNext ∧ t.plan = s.plan ∧ t.banks = s.banks ∧ t.matrix = s.matrix ∧
      t.store = s.store ∧ t.tier = s.tier ∧ t.models = s.models ∧ t.gelcon = s.gelcon ∧ t.faults = s.faults ∧ t.tel = s.tel ∧ t.mem = s.mem ∧
      t.start = s.start ∧ t.power = s.power ∧ t.pending = s.pending) ∧
  (∀ (s t : State) (code a b v cause port target : Nat), (t = s.postEvent code a b ∨ t = s.misuse v v cause port target) →
      t.mb.bytes = s.mb.bytes ∧ t.mb.done = s.mb.done ∧ t.mb.outstanding = s.mb.outstanding ∧ t.mb.eventCount = (s.mb.eventCount + 1) % 2 ^ 32) ∧
  (∀ (s : State) (v cause port target : Nat), (s.misuse v v cause port target).mb.events = s.mb.events)

/-- Posting an event appends its record, stamped with Invar, to the event queue; where the queue holds 1,024 records the oldest is
dropped, the lost flag is set and the loss is counted; event_count rises by one modulo 2^32; the queue never grows beyond 1,024.
Vector 0 is raised through the lowest-numbered port that is up: at once between commit windows, or set pending where it is
masked, and once after the window's writes within one (R346, R347). A record is 16 bytes. EVENT_READ with max from 1 to 13
removes up to max records, oldest first, clears the lost flag, and returns the number read, the flag, the number left and the
records; with max outside 1 to 13 it completes BAD_ARGUMENT and removes nothing. -/
def Obligations.EventsArePosted : Prop :=
  (∀ (s : State) (code a b : Nat), s.mb.events.length < 1024 →
      
  (s.postEvent code a b).mb.events = s.mb.events ++ [{ code := code, arg16 := a % 2 ^ 16, arg32 := b % 2 ^ 32, stamp := s.tick.iv }] ∧
  (s.postEvent code a b).mb.lost = s.mb.lost ∧ (s.postEvent code a b).mb.eventCount = (s.mb.eventCount + 1) % 2 ^ 32) ∧
  (∀ (s : State) (code a b : Nat), s.mb.events.length = 1024 →
      
  (s.postEvent code a b).mb.events = s.mb.events.drop 1 ++ [{ code := code, arg16 := a % 2 ^ 16, arg32 := b % 2 ^ 32, stamp := s.tick.iv }] ∧
  (s.postEvent code a b).mb.lost = true ∧ (s.postEvent code a b).mb.events.length = 1024 ∧ (s.postEvent code a b).mb.eventLost = (s.mb.eventLost + 1) % 2 ^ 64 ∧
  (s.postEvent code a b).mb.eventCount = (s.mb.eventCount + 1) % 2 ^ 32) ∧
  (∀ (s : State) (code a b p : Nat), s.lowPort = some p → s.tick.inCommit = false → (tabGetD 0 ({} : MsixEntry) s.host.msix).masked = false →
      
  (s.postEvent code a b).host.raised = s.host.raised ++ [(0, p)]) ∧
  (∀ (s : State) (code a b p : Nat), s.lowPort = some p → s.tick.inCommit = true → s.host.windowVectors.any (fun q => q.1 = 0) = false →
      
  (s.postEvent code a b).host.windowVectors = s.host.windowVectors ++ [(0, p)]) ∧
  (∀ (s : State) (code a b p : Nat), s.lowPort = some p → s.tick.inCommit = false → (tabGetD 0 ({} : MsixEntry) s.host.msix).masked = true →
      
  (s.postEvent code a b).host.pba = setAdd 0 s.host.pba ∧ (s.postEvent code a b).host.raised = s.host.raised) ∧
  (∀ (e : EventRec), eventBytes e = leBytes 2 e.code ++ leBytes 2 e.arg16 ++ leBytes 4 e.arg32 ++ leBytes 8 e.stamp ∧ (eventBytes e).length = 16) ∧
  (∀ (s : State) (mb : Nat) (c : MbCommand), Asked s mb 0x04 c → 1 ≤ cf c 0 1 ∧ cf c 0 1 ≤ 13 →
      exec (.eventRead mb) s = .next (
  (s.onMb (fun m => { m with events := m.events.drop (cf c 0 1), lost := false })).complete c St.ok
    (leBytes 1 (s.mb.events.take (cf c 0 1)).length ++ leBytes 1 (b2n s.mb.lost) ++ leBytes 2 0 ++ leBytes 4 (s.mb.events.drop (cf c 0 1)).length ++ leBytes 8 0
      ++ (s.mb.events.take (cf c 0 1)).flatMap eventBytes))) ∧
  (∀ (s : State) (mb : Nat) (c : MbCommand), Asked s mb 0x04 c → ¬(1 ≤ cf c 0 1 ∧ cf c 0 1 ≤ 13) →
      exec (.eventRead mb) s = .next (s.complete c St.badArgument []))

/-- A 4-byte write at the doorbell's offset with bits [31:8] zero, on a port whose BAR0 the host reaches (R340, R349; log 26), with
a control die active and no warm reset running, names a slot. Where that slot's command is outstanding it is only counted in
SC_BUSY_DOORBELLS. Otherwise the slot's MB_DONE bit is cleared and, where every check of R357 holds, its command becomes
outstanding with the doorbell's stamp, port and place among the doorbells (R42); where one fails the command completes with the
status of the first that does, and has no other effect. With no control die active the doorbell is latched with its stamp. A
write of another width or offset, or with a bit of [31:8] set, is misuse, causes 5 and 6. On a port that the host does not
reach, in OFF, and during a warm reset, nothing happens but the passage of Invar. -/
def Obligations.DoorbellIsTaken : Prop :=
  (∀ (s : State) (t port : Nat) (v : BitVec 32) (c : MbCommand), s.barUp port = true → s.sceolUp = true → v.toNat < 256 → s.mb.outstanding.any (fun x => x.slot = v.toNat) = false → c = { commandOf (s.mbBytes v.toNat) v.toNat t port with arrival := s.host.arrivals } → commandCheck s (s.mbBytes v.toNat) = St.ok →
      
  exec (.mbDoorbell t port 0x20000 4 v) s = .next (((s.atTime t).arrive.onMb (fun m => { m with done := setDel v.toNat m.done })).onMb (fun m => { m with outstanding := m.outstanding ++ [c] }))) ∧
  (∀ (s : State) (t port : Nat) (v : BitVec 32) (c : MbCommand), s.barUp port = true → s.sceolUp = true → v.toNat < 256 → s.mb.outstanding.any (fun x => x.slot = v.toNat) = false → c = { commandOf (s.mbBytes v.toNat) v.toNat t port with arrival := s.host.arrivals } → commandCheck s (s.mbBytes v.toNat) ≠ St.ok →
      
  exec (.mbDoorbell t port 0x20000 4 v) s = .next (((s.atTime t).arrive.onMb (fun m => { m with done := setDel v.toNat m.done })).complete c (commandCheck s (s.mbBytes v.toNat)) [])) ∧
  (∀ (s : State) (t port : Nat) (v : BitVec 32), s.barUp port = true → s.sceolUp = true → v.toNat < 256 → s.mb.outstanding.any (fun x => x.slot = v.toNat) = true →
      
  exec (.mbDoorbell t port 0x20000 4 v) s = .next ((s.atTime t).arrive.onMb (fun m => { m with busyDoorbells := (m.busyDoorbells + 1) % 2 ^ 64 }))) ∧
  (∀ (s : State) (t port : Nat) (v : BitVec 32), s.barUp port = true → s.sceolUp = false → s.start.warmRunning = false → s.start.state ≠ .off → v.toNat < 256 →
      
  exec (.mbDoorbell t port 0x20000 4 v) s = .next ((s.atTime t).arrive.onMb (fun m => { m with latched := m.latched ++ [(v.toNat, t, port, s.host.arrivals)] }))) ∧
  (∀ (s : State) (t port offset width : Nat) (v : BitVec 32), s.barUp port = true → s.start.warmRunning = false → s.start.state ≠ .off → width ≠ 4 ∨ offset ≠ 0x20000 →
      
  exec (.mbDoorbell t port offset width v) s = .next ((s.atTime t).misuse t v.toNat 5 port (v.toNat % 256))) ∧
  (∀ (s : State) (t port : Nat) (v : BitVec 32), s.barUp port = true → s.start.warmRunning = false → s.start.state ≠ .off → 256 ≤ v.toNat →
      
  exec (.mbDoorbell t port 0x20000 4 v) s = .next ((s.atTime t).misuse t v.toNat 6 port (v.toNat % 256))) ∧
  (∀ (s : State) (t port offset width : Nat) (v : BitVec 32), s.barUp port = false ∨ s.start.warmRunning = true ∨ s.start.state = .off →
      
  exec (.mbDoorbell t port offset width v) s = .next (s.atTime t))

/-- A misused doorbell writes its entry at place HX_MISUSE_COUNT mod 16 of the 16-entry HX_MISUSE_LOG and leaves the other 15
entries, raises HX_MISUSE_COUNT by one modulo 2^64 and event_count by one modulo 2^32, and leaves every request, ring, doorbell
credit and outstanding command and every event record as they were. -/
def Obligations.MisuseIsLogged : Prop :=
  ∀ (s : State) (stamp value cause port target i : Nat), s.host.misuseLog.length = 16 → i < 16 →
      
  nth (s.misuse stamp value cause port target).host.misuseLog i 0 =
    (if i = s.host.misuseCount % 16 then misuseEntry stamp value cause port target else nth s.host.misuseLog i 0) ∧
  (s.misuse stamp value cause port target).host.misuseCount = (s.host.misuseCount + 1) % 2 ^ 64 ∧
  (s.misuse stamp value cause port target).mb.eventCount = (s.mb.eventCount + 1) % 2 ^ 32 ∧
  (s.misuse stamp value cause port target).req = s.req ∧ (s.misuse stamp value cause port target).mb.outstanding = s.mb.outstanding ∧
  (s.misuse stamp value cause port target).mb.events = s.mb.events ∧ (s.misuse stamp value cause port target).start = s.start

/-- POWER_CONFIG with a multiple of 25 W from 2,000 W to 4,200 W puts the value into the configuration that the next frozen plan
uses and completes OK; any other value completes BAD_ARGUMENT and changes nothing else; the envelope at reset is 3,600 W; and
the opening of a commit window, which freezes the inputs of the next plan, puts the value in force. -/
def Obligations.PowerEnvelope : Prop :=
  (∀ (s : State) (mb : Nat) (c : MbCommand), Asked s mb 0x05 c → cf c 0 2 % 25 = 0 ∧ 2000 ≤ cf c 0 2 ∧ cf c 0 2 ≤ 4200 →
      exec (.powerConfig mb) s = .next (
  (s.onCfgNext (fun g => { g with envelope := cf c 0 2 })).complete c St.ok [])) ∧
  (∀ (s : State) (mb : Nat) (c : MbCommand), Asked s mb 0x05 c → ¬(cf c 0 2 % 25 = 0 ∧ 2000 ≤ cf c 0 2 ∧ cf c 0 2 ≤ 4200) →
      exec (.powerConfig mb) s = .next (s.complete c St.badArgument [])) ∧
  (State.reset.cfg.envelope = 3600 ∧ State.reset.cfgNext.envelope = 3600) ∧
  (∀ (s : State), s.tick.running = true → s.tick.inCommit = false →
      ∃ t, exec .commitOpen s = .next t ∧ t.cfg.envelope = s.cfgNext.envelope)

/-- IDENTIFY returns the identity, the serial number, the versions the control dies run and the capability generation. REQ_QUERY
returns the entry of the last tick edge for a slot and admit_tick that match, and completes REQ_CLOSED otherwise. Neither
changes anything but its own completion. EVENT_READ with a count from 1 to 13 completes OK with that many of the oldest records,
or all where there are fewer, which leave the queue, and clears the lost flag. -/
def Obligations.ReportCommands : Prop :=
  (∀ (s : State) (mb : Nat) (c : MbCommand), Asked s mb 0x01 c →
      exec (.identify mb) s = .next (s.complete c St.ok (
  leBytes 2 (identityOf s) ++ leBytes 6 0 ++ leBytes 8 s.mb.serial ++ leBytes 4 (runVersion s 0) ++ leBytes 4 (runVersion s 1) ++ leBytes 4 s.mb.capGen))) ∧
  (∀ (s : State) (mb : Nat) (c : MbCommand) (r : Request), Asked s mb 0x44 c → tabGet (cf c 0 4) s.req.edgeTable = some r → namesReq c r = true →
      exec (.reqQuery mb) s = .next (s.complete c St.ok (
  leBytes 1 (reqCode r.state) ++ leBytes 1 r.priority ++ leBytes 2 (flagsWord r.flags) ++ leBytes 4 r.committedLen ++ leBytes 4 r.nextSeq ++ leBytes 4 r.newCount
    ++ leBytes 4 r.creditCount ++ leBytes 1 r.withheld))) ∧
  (∀ (s : State) (mb : Nat) (c : MbCommand), Asked s mb 0x44 c → (tabGet (cf c 0 4) s.req.edgeTable).any (namesReq c) = false →
      exec (.reqQuery mb) s = .next (s.complete c St.reqClosed [])) ∧
  (∀ (s : State) (mb n : Nat) (c : MbCommand), Asked s mb 0x04 c → cf c 0 1 = n ∧ 1 ≤ n ∧ n ≤ 13 →
      exec (.eventRead mb) s = .next (
  (s.onMb (fun m => { m with events := m.events.drop n, lost := false })).complete c St.ok
    (leBytes 1 (min n s.mb.events.length) ++ leBytes 1 (b2n s.mb.lost) ++ leBytes 2 0 ++ leBytes 4 (s.mb.events.length - n) ++ leBytes 8 0 ++ (s.mb.events.take n).flatMap eventBytes)))

/-- On a device that is not in a group, TICK_CONFIG with T a whole number of microseconds from 1,000 to 50,000 and C from 100 to T/4
rounded down is accepted; with a value outside these ranges it completes BAD_ARGUMENT and the configuration is unchanged, at the
master of a group too. At reset T is 10,000 and C is 400. -/
def Obligations.TickLengthRange : Prop :=
  (∀ (s : State) (mb : Nat) (c : MbCommand), Asked s mb 0x10 c → (s.tick.inGroup && !s.tick.isMaster) = false → bit (cf c 5 1) 0 = true → ¬(1000 ≤ cf c 0 2 ∧ cf c 0 2 ≤ 50000 ∧ 100 ≤ cf c 2 2 ∧ cf c 2 2 ≤ cf c 0 2 / 4) →
      
  exec (.tickConfig mb) s = .next (s.complete c St.badArgument [])) ∧
  (∀ (s : State) (mb : Nat) (c : MbCommand), Asked s mb 0x10 c → s.tick.inGroup = false → cf c 5 1 = 1 → 1000 ≤ cf c 0 2 ∧ cf c 0 2 ≤ 50000 ∧ 100 ≤ cf c 2 2 ∧ cf c 2 2 ≤ cf c 0 2 / 4 → cf c 8 8 = 0 →
      ∃ (t : State) (d : List Byte),
  exec (.tickConfig mb) s = .next (t.complete c St.ok d) ∧ t.tick.pendCfg = some (cf c 0 2, cf c 2 2) ∧ t.tick.tickUs = s.tick.tickUs ∧ t.tick.commitUs = s.tick.commitUs) ∧
  (State.reset.tick.tickUs = 10000 ∧ State.reset.tick.commitUs = 400)

/-- TICK_CONFIG in a group completes GROUP_MANAGED at a member that is not the tick master. Outside a group, with T and C in range
and no effective index, they are held for tick k+1 before o_k and tick k+2 from o_k on (the tick after the first index while
none runs: the model's reading, log 13), that tick is returned, and no tick in progress changes length. In a group the master
takes an index at least 3 after the tick in progress. Where it selects IV_CTL, alone or with T and C, the value applies with the
next frozen plan. A change that a reset carried over to the tick at which ticks resume stays in force there (R33). -/
def Obligations.TickConfigSetsLengths : Prop :=
  (∀ (s : State) (mb : Nat) (c : MbCommand), Asked s mb 0x10 c → s.tick.inGroup = true → s.tick.isMaster = false →
      exec (.tickConfig mb) s = .next (s.complete c St.groupManaged [])) ∧
  (∀ (s : State) (mb : Nat) (c : MbCommand), Asked s mb 0x10 c → s.tick.inGroup = false → cf c 5 1 = 1 → 1000 ≤ cf c 0 2 ∧ cf c 0 2 ≤ 50000 ∧ 100 ≤ cf c 2 2 ∧ cf c 2 2 ≤ cf c 0 2 / 4 → cf c 8 8 = 0 →
      
  exec (.tickConfig mb) s = .next ((s.onTick (fun k => { k with frozenCfg := if s.tick.running = false ∧ s.tick.pendIndex ≠ 0 ∧ s.tick.pendIndex ≤ s.tick.firstIndex then s.tick.pendCfg else s.tick.frozenCfg, pendCfg := some (cf c 0 2, cf c 2 2), pendIndex := firstTick s })).complete c St.ok (leBytes 8 (firstTick s)))) ∧
  (∀ (s : State) (mb : Nat) (c : MbCommand), Asked s mb 0x10 c → s.tick.inGroup = true → s.tick.isMaster = true → cf c 5 1 = 1 → 1000 ≤ cf c 0 2 ∧ cf c 0 2 ≤ 50000 ∧ 100 ≤ cf c 2 2 ∧ cf c 2 2 ≤ cf c 0 2 / 4 → s.tick.index + 3 ≤ cf c 8 8 →
      
  exec (.tickConfig mb) s = .next ((s.onTick (fun k => { k with frozenCfg := if s.tick.running = false ∧ s.tick.pendIndex ≠ 0 ∧ s.tick.pendIndex ≤ s.tick.firstIndex then s.tick.pendCfg else s.tick.frozenCfg, pendCfg := some (cf c 0 2, cf c 2 2), pendIndex := cf c 8 8 })).complete c St.ok (leBytes 8 (cf c 8 8)))) ∧
  (∀ (s : State) (mb : Nat) (c : MbCommand), Asked s mb 0x10 c → (s.tick.inGroup && !s.tick.isMaster) = false → cf c 5 1 = 2 → cf c 4 1 % 4 ≠ 3 → cf c 8 8 = 0 →
      
  exec (.tickConfig mb) s = .next ((s.onCfgNext (fun g => { g with ivCtl := BitVec.ofNat 32 (cf c 4 1 % 16) })).complete c St.ok (leBytes 8 0))) ∧
  (∀ (s : State) (mb : Nat) (c : MbCommand), Asked s mb 0x10 c → s.tick.inGroup = false → cf c 5 1 = 3 → 1000 ≤ cf c 0 2 ∧ cf c 0 2 ≤ 50000 ∧ 100 ≤ cf c 2 2 ∧ cf c 2 2 ≤ cf c 0 2 / 4 → cf c 4 1 % 4 ≠ 3 → cf c 8 8 = 0 →
      
  exec (.tickConfig mb) s = .next (((s.onTick (fun k => { k with frozenCfg := if s.tick.running = false ∧ s.tick.pendIndex ≠ 0 ∧ s.tick.pendIndex ≤ s.tick.firstIndex then s.tick.pendCfg else s.tick.frozenCfg, pendCfg := some (cf c 0 2, cf c 2 2), pendIndex := firstTick s })).onCfgNext (fun g => { g with ivCtl := BitVec.ofNat 32 (cf c 4 1 % 16) })).complete c St.ok (leBytes 8 (firstTick s)))) ∧
  (∀ (s : State), s.tick.running = false →
      firstTick s = s.tick.firstIndex + 1) ∧
  (∀ (s : State), s.tick.running = true →
      firstTick s = if s.tick.inCommit = true ∨ s.tick.commitOpenAt ≤ s.tick.iv then s.tick.index + 2 else s.tick.index + 1)

/-- TENANT_CONFIG writes the fields that fmask selects into the settings the next frozen plan uses and leaves the others; a weight,
class, window or quota outside its range completes BAD_ARGUMENT, and disabling a tenant that a request names completes BUSY,
both changing nothing. DOMAIN_CONFIG does the same for a sharing domain other than 0; a selected key is a change of key even
where it is the same, so the key's generation rises; domain 0, and a selected enable or eviction policy other than 0 or 1,
complete BAD_ARGUMENT, and disabling a domain that a request names BUSY. -/
def Obligations.TenantAndDomainConfig : Prop :=
  (∀ (s : State) (mb : Nat) (c : MbCommand) (o : Tenant), Asked s mb 0x20 c → o = tabGetD (cf c 0 2) ({} : Tenant) s.cfgNext.tenants → cf c 2 2 = 4 → 1 ≤ cf c 6 2 → o.maxClass ≤ 7 ∧ 1 ≤ o.windowTicks ∧ o.t1QuotaMib ≤ 1048576 ∧ o.t2QuotaMib ≤ 16777216 →
      
  exec (.tenantConfig mb) s = .next ((s.onCfgNext (fun g => { g with tenants := tabPut (cf c 0 2) { o with weight := cf c 6 2 } g.tenants })).complete c St.ok [])) ∧
  (∀ (s : State) (mb : Nat) (c : MbCommand), Asked s mb 0x20 c → cf c 2 2 = 255 → cf c 4 1 = 1 → cf c 5 1 ≤ 7 ∧ 1 ≤ cf c 6 2 ∧ 1 ≤ cf c 12 2 ∧ cf c 16 4 ≤ 1048576 ∧ cf c 20 4 ≤ 16777216 →
      
  exec (.tenantConfig mb) s = .next ((s.onCfgNext (fun g => { g with tenants := tabPut (cf c 0 2) { enabled := true, weight := cf c 6 2, maxClass := cf c 5 1, budgetTokens := cf c 8 4, windowTicks := cf c 12 2, org := cf c 14 2, t1QuotaMib := cf c 16 4, t2QuotaMib := cf c 20 4 } g.tenants })).complete c St.ok [])) ∧
  (∀ (s : State) (mb : Nat) (c : MbCommand), Asked s mb 0x20 c → cf c 2 2 = 255 → 1 < cf c 4 1 ∨ 7 < cf c 5 1 ∨ cf c 6 2 = 0 ∨ cf c 12 2 = 0 ∨ 1048576 < cf c 16 4 ∨ 16777216 < cf c 20 4 →
      
  exec (.tenantConfig mb) s = .next (s.complete c St.badArgument [])) ∧
  (∀ (s : State) (mb : Nat) (c : MbCommand) (o : Tenant), Asked s mb 0x20 c → o = tabGetD (cf c 0 2) ({} : Tenant) s.cfgNext.tenants → cf c 2 2 = 1 → cf c 4 1 = 0 → o.maxClass ≤ 7 ∧ 1 ≤ o.weight ∧ 1 ≤ o.windowTicks ∧ o.t1QuotaMib ≤ 1048576 ∧ o.t2QuotaMib ≤ 16777216 → anyRequest s (fun r => r.tenant = cf c 0 2) = true →
      
  exec (.tenantConfig mb) s = .next (s.complete c St.busy [])) ∧
  (∀ (s : State) (mb m : Nat) (c : MbCommand) (o : Tenant), Asked s mb 0x20 c → o = tabGetD (cf c 0 2) ({} : Tenant) s.cfgNext.tenants ∧ m = cf c 2 2 → (bit m 0 = true → (cf c 4 1 = 1 ∨ (cf c 4 1 = 0 ∧ anyRequest s (fun r => r.tenant = cf c 0 2) = false))) →
      (if bit m 1 then cf c 5 1 else o.maxClass) ≤ 7 ∧ 1 ≤ (if bit m 2 then cf c 6 2 else o.weight) ∧ 1 ≤ (if bit m 4 then cf c 12 2 else o.windowTicks) → (if bit m 6 then cf c 16 4 else o.t1QuotaMib) ≤ 1048576 ∧ (if bit m 7 then cf c 20 4 else o.t2QuotaMib) ≤ 16777216 →
      
  exec (.tenantConfig mb) s = .next ((s.onCfgNext (fun g => { g with tenants := tabPut (cf c 0 2) { enabled := if bit m 0 then cf c 4 1 = 1 else o.enabled, maxClass := if bit m 1 then cf c 5 1 else o.maxClass, weight := if bit m 2 then cf c 6 2 else o.weight, budgetTokens := if bit m 3 then cf c 8 4 else o.budgetTokens, windowTicks := if bit m 4 then cf c 12 2 else o.windowTicks, org := if bit m 5 then cf c 14 2 else o.org, t1QuotaMib := if bit m 6 then cf c 16 4 else o.t1QuotaMib, t2QuotaMib := if bit m 7 then cf c 20 4 else o.t2QuotaMib } g.tenants })).complete c St.ok [])) ∧
  (∀ (s : State) (mb : Nat) (c : MbCommand) (o : Domain), Asked s mb 0x21 c → o = tabGetD (cf c 0 2) ({} : Domain) s.cfgNext.domains → cf c 0 2 ≠ 0 → cf c 2 2 = 31 → cf c 4 1 = 1 → cf c 5 1 ≤ 1 →
      
  exec (.domainConfig mb) s = .next ((s.onCfgNext (fun g => { g with domains := tabPut (cf c 0 2) { enabled := true, owner := cf c 6 2, org := cf c 8 2, dropPolicy := cf c 5 1 = 1, key := BitVec.ofNat 256 (cf c 16 32), keyGen := o.keyGen + 1 } g.domains })).complete c St.ok [])) ∧
  (∀ (s : State) (mb m : Nat) (c : MbCommand) (o : Domain), Asked s mb 0x21 c → o = tabGetD (cf c 0 2) ({} : Domain) s.cfgNext.domains ∧ m = cf c 2 2 → cf c 0 2 ≠ 0 → (bit m 0 = true → (cf c 4 1 = 1 ∨ (cf c 4 1 = 0 ∧ anyRequest s (fun r => r.domain = cf c 0 2) = false))) →
      (bit m 1 = true → cf c 5 1 ≤ 1) →
      
  exec (.domainConfig mb) s = .next ((s.onCfgNext (fun g => { g with domains := tabPut (cf c 0 2) { enabled := if bit m 0 then cf c 4 1 = 1 else o.enabled, dropPolicy := if bit m 1 then cf c 5 1 = 1 else o.dropPolicy, owner := if bit m 2 then cf c 6 2 else o.owner, org := if bit m 3 then cf c 8 2 else o.org, key := if bit m 4 then BitVec.ofNat 256 (cf c 16 32) else o.key, keyGen := if bit m 4 then o.keyGen + 1 else o.keyGen } g.domains })).complete c St.ok [])) ∧
  (∀ (s : State) (mb : Nat) (c : MbCommand), Asked s mb 0x21 c → (bit (cf c 2 2) 0 = true ∧ 1 < cf c 4 1) ∨ (bit (cf c 2 2) 1 = true ∧ 1 < cf c 5 1) →
      exec (.domainConfig mb) s = .next (s.complete c St.badArgument [])) ∧
  (∀ (s : State) (mb : Nat) (c : MbCommand), Asked s mb 0x21 c → cf c 0 2 = 0 →
      exec (.domainConfig mb) s = .next (s.complete c St.badArgument [])) ∧
  (∀ (s : State) (mb : Nat) (c : MbCommand), Asked s mb 0x21 c → cf c 0 2 ≠ 0 → cf c 2 2 = 3 → cf c 4 1 = 0 → cf c 5 1 ≤ 1 → anyRequest s (fun r => r.domain = cf c 0 2) = true →
      
  exec (.domainConfig mb) s = .next (s.complete c St.busy []))

/-- PLAN_CONFIG, BANK_CONFIG, MATRIX_CONFIG, QUANT_CONFIG, STORE_CONFIG, TIER_CONFIG, GELCON_CONFIG, HOST_CONFIG, MODEL_CONFIG and
SCEOL_CONFIG with action 0 and one entry or more, each of which names an RW register of the command's row and leaves it in
range, complete OK: the settings that the next frozen plan uses have the registers with the entries written in order, each
taking the bits its mask sets, and the completion data is each entry's resulting value as a u32 (R362). For STORE_CONFIG the
class registers that result must also keep the sum rules of R209. Where an entry names no such register, or leaves a field out
of its range, and for STORE_CONFIG where a sum rule breaks, the command completes BAD_ARGUMENT and no register changes; the same
where it has no entry. MODEL_CONFIG on a device without Alloy units completes UNSUPPORTED_UNIT (R305). -/
def Obligations.RegisterCommands : Prop :=
  (∀ (s : State) (mb : Nat) (c : MbCommand), Asked s mb 0x50 c → cf c 0 1 = 0 ∧ 1 ≤ entryCount c → entriesFit 0x50 c s.cfgNext.regs = true →
      
  exec (.planConfig mb) s = .next ((s.onCfgNext (fun g => { g with regs := writtenRegs 0x50 c.payload s.cfgNext.regs (entryCount c) })).complete c St.ok (entryData 0x50 c s.cfgNext.regs))) ∧
  (∀ (s : State) (mb : Nat) (c : MbCommand), Asked s mb 0x50 c → cf c 0 1 = 0 ∧ 1 ≤ entryCount c → entriesFit 0x50 c s.cfgNext.regs = false →
      exec (.planConfig mb) s = .next (s.complete c St.badArgument [])) ∧
  (∀ (s : State) (mb : Nat) (c : MbCommand), Asked s mb 0x50 c → cf c 0 1 = 0 → entryCount c = 0 →
      exec (.planConfig mb) s = .next (s.complete c St.badArgument [])) ∧
  (∀ (s : State) (mb : Nat) (c : MbCommand), Asked s mb 0x51 c → cf c 0 1 = 0 ∧ 1 ≤ entryCount c → entriesFit 0x51 c s.cfgNext.regs = true →
      
  exec (.bankConfig mb) s = .next ((s.onCfgNext (fun g => { g with regs := writtenRegs 0x51 c.payload s.cfgNext.regs (entryCount c) })).complete c St.ok (entryData 0x51 c s.cfgNext.regs))) ∧
  (∀ (s : State) (mb : Nat) (c : MbCommand), Asked s mb 0x51 c → cf c 0 1 = 0 ∧ 1 ≤ entryCount c → entriesFit 0x51 c s.cfgNext.regs = false →
      exec (.bankConfig mb) s = .next (s.complete c St.badArgument [])) ∧
  (∀ (s : State) (mb : Nat) (c : MbCommand), Asked s mb 0x51 c → cf c 0 1 = 0 → entryCount c = 0 →
      exec (.bankConfig mb) s = .next (s.complete c St.badArgument [])) ∧
  (∀ (s : State) (mb : Nat) (c : MbCommand), Asked s mb 0x52 c → cf c 0 1 = 0 ∧ 1 ≤ entryCount c → entriesFit 0x52 c s.cfgNext.regs = true →
      
  exec (.matrixConfig mb) s = .next ((s.onCfgNext (fun g => { g with regs := writtenRegs 0x52 c.payload s.cfgNext.regs (entryCount c) })).complete c St.ok (entryData 0x52 c s.cfgNext.regs))) ∧
  (∀ (s : State) (mb : Nat) (c : MbCommand), Asked s mb 0x52 c → cf c 0 1 = 0 ∧ 1 ≤ entryCount c → entriesFit 0x52 c s.cfgNext.regs = false →
      exec (.matrixConfig mb) s = .next (s.complete c St.badArgument [])) ∧
  (∀ (s : State) (mb : Nat) (c : MbCommand), Asked s mb 0x52 c → cf c 0 1 = 0 → entryCount c = 0 →
      exec (.matrixConfig mb) s = .next (s.complete c St.badArgument [])) ∧
  (∀ (s : State) (mb : Nat) (c : MbCommand), Asked s mb 0x53 c → cf c 0 1 = 0 ∧ 1 ≤ entryCount c → entriesFit 0x53 c s.cfgNext.regs = true →
      
  exec (.quantConfig mb) s = .next ((s.onCfgNext (fun g => { g with regs := writtenRegs 0x53 c.payload s.cfgNext.regs (entryCount c) })).complete c St.ok (entryData 0x53 c s.cfgNext.regs))) ∧
  (∀ (s : State) (mb : Nat) (c : MbCommand), Asked s mb 0x53 c → cf c 0 1 = 0 ∧ 1 ≤ entryCount c → entriesFit 0x53 c s.cfgNext.regs = false →
      exec (.quantConfig mb) s = .next (s.complete c St.badArgument [])) ∧
  (∀ (s : State) (mb : Nat) (c : MbCommand), Asked s mb 0x53 c → cf c 0 1 = 0 → entryCount c = 0 →
      exec (.quantConfig mb) s = .next (s.complete c St.badArgument [])) ∧
  (∀ (s : State) (mb : Nat) (c : MbCommand), Asked s mb 0x54 c → cf c 0 1 = 0 ∧ 1 ≤ entryCount c → entriesFit 0x54 c s.cfgNext.regs = true → classesOk (writtenRegs 0x54 c.payload s.cfgNext.regs (entryCount c)).classCfg = true →
      
  exec (.storeConfig mb) s = .next ((s.onCfgNext (fun g => { g with regs := writtenRegs 0x54 c.payload s.cfgNext.regs (entryCount c) })).complete c St.ok (entryData 0x54 c s.cfgNext.regs))) ∧
  (∀ (s : State) (mb : Nat) (c : MbCommand), Asked s mb 0x54 c → cf c 0 1 = 0 ∧ 1 ≤ entryCount c → entriesFit 0x54 c s.cfgNext.regs = false →
      exec (.storeConfig mb) s = .next (s.complete c St.badArgument [])) ∧
  (∀ (s : State) (mb : Nat) (c : MbCommand), Asked s mb 0x54 c → cf c 0 1 = 0 → entryCount c = 0 →
      exec (.storeConfig mb) s = .next (s.complete c St.badArgument [])) ∧
  (∀ (s : State) (mb : Nat) (c : MbCommand), Asked s mb 0x55 c → cf c 0 1 = 0 ∧ 1 ≤ entryCount c → entriesFit 0x55 c s.cfgNext.regs = true →
      
  exec (.tierConfig mb) s = .next ((s.onCfgNext (fun g => { g with regs := writtenRegs 0x55 c.payload s.cfgNext.regs (entryCount c) })).complete c St.ok (entryData 0x55 c s.cfgNext.regs))) ∧
  (∀ (s : State) (mb : Nat) (c : MbCommand), Asked s mb 0x55 c → cf c 0 1 = 0 ∧ 1 ≤ entryCount c → entriesFit 0x55 c s.cfgNext.regs = false →
      exec (.tierConfig mb) s = .next (s.complete c St.badArgument [])) ∧
  (∀ (s : State) (mb : Nat) (c : MbCommand), Asked s mb 0x55 c → cf c 0 1 = 0 → entryCount c = 0 →
      exec (.tierConfig mb) s = .next (s.complete c St.badArgument [])) ∧
  (∀ (s : State) (mb : Nat) (c : MbCommand), Asked s mb 0x56 c → cf c 0 1 = 0 ∧ 1 ≤ entryCount c → entriesFit 0x56 c s.cfgNext.regs = true →
      
  exec (.gelconConfig mb) s = .next ((s.onCfgNext (fun g => { g with regs := writtenRegs 0x56 c.payload s.cfgNext.regs (entryCount c) })).complete c St.ok (entryData 0x56 c s.cfgNext.regs))) ∧
  (∀ (s : State) (mb : Nat) (c : MbCommand), Asked s mb 0x56 c → cf c 0 1 = 0 ∧ 1 ≤ entryCount c → entriesFit 0x56 c s.cfgNext.regs = false →
      exec (.gelconConfig mb) s = .next (s.complete c St.badArgument [])) ∧
  (∀ (s : State) (mb : Nat) (c : MbCommand), Asked s mb 0x56 c → cf c 0 1 = 0 → entryCount c = 0 →
      exec (.gelconConfig mb) s = .next (s.complete c St.badArgument [])) ∧
  (∀ (s : State) (mb : Nat) (c : MbCommand), Asked s mb 0x57 c → cf c 0 1 = 0 ∧ 1 ≤ entryCount c → entriesFit 0x57 c s.cfgNext.regs = true →
      
  exec (.hostConfig mb) s = .next ((s.onCfgNext (fun g => { g with regs := writtenRegs 0x57 c.payload s.cfgNext.regs (entryCount c) })).complete c St.ok (entryData 0x57 c s.cfgNext.regs))) ∧
  (∀ (s : State) (mb : Nat) (c : MbCommand), Asked s mb 0x57 c → cf c 0 1 = 0 ∧ 1 ≤ entryCount c → entriesFit 0x57 c s.cfgNext.regs = false →
      exec (.hostConfig mb) s = .next (s.complete c St.badArgument [])) ∧
  (∀ (s : State) (mb : Nat) (c : MbCommand), Asked s mb 0x57 c → cf c 0 1 = 0 → entryCount c = 0 →
      exec (.hostConfig mb) s = .next (s.complete c St.badArgument [])) ∧
  (∀ (s : State) (mb : Nat) (c : MbCommand), Asked s mb 0x58 c → cf c 0 1 = 0 ∧ 1 ≤ entryCount c → s.variant ≠ .cb → entriesFit 0x58 c s.cfgNext.regs = true →
      
  exec (.modelConfig mb) s = .next ((s.onCfgNext (fun g => { g with regs := writtenRegs 0x58 c.payload s.cfgNext.regs (entryCount c) })).complete c St.ok (entryData 0x58 c s.cfgNext.regs))) ∧
  (∀ (s : State) (mb : Nat) (c : MbCommand), Asked s mb 0x58 c → cf c 0 1 = 0 ∧ 1 ≤ entryCount c → s.variant ≠ .cb → entriesFit 0x58 c s.cfgNext.regs = false →
      exec (.modelConfig mb) s = .next (s.complete c St.badArgument [])) ∧
  (∀ (s : State) (mb : Nat) (c : MbCommand), Asked s mb 0x58 c → cf c 0 1 = 0 → entryCount c = 0 → s.variant ≠ .cb →
      exec (.modelConfig mb) s = .next (s.complete c St.badArgument [])) ∧
  (∀ (s : State) (mb : Nat) (c : MbCommand), Asked s mb 0x59 c → cf c 0 1 = 0 ∧ 1 ≤ entryCount c → entriesFit 0x59 c s.cfgNext.regs = true →
      
  exec (.sceolConfig mb) s = .next ((s.onCfgNext (fun g => { g with regs := writtenRegs 0x59 c.payload s.cfgNext.regs (entryCount c) })).complete c St.ok (entryData 0x59 c s.cfgNext.regs))) ∧
  (∀ (s : State) (mb : Nat) (c : MbCommand), Asked s mb 0x59 c → cf c 0 1 = 0 ∧ 1 ≤ entryCount c → entriesFit 0x59 c s.cfgNext.regs = false →
      exec (.sceolConfig mb) s = .next (s.complete c St.badArgument [])) ∧
  (∀ (s : State) (mb : Nat) (c : MbCommand), Asked s mb 0x59 c → cf c 0 1 = 0 → entryCount c = 0 →
      exec (.sceolConfig mb) s = .next (s.complete c St.badArgument [])) ∧
  (∀ (s : State) (mb : Nat) (c : MbCommand), Asked s mb 0x54 c → cf c 0 1 = 0 ∧ 1 ≤ entryCount c → entriesFit 0x54 c s.cfgNext.regs = true → classesOk (writtenRegs 0x54 c.payload s.cfgNext.regs (entryCount c)).classCfg = false →
      
  exec (.storeConfig mb) s = .next (s.complete c St.badArgument [])) ∧
  (∀ (s : State) (mb : Nat) (c : MbCommand), Asked s mb 0x58 c → s.variant = .cb →
      exec (.modelConfig mb) s = .next (s.complete c St.unsupportedUnit []))

/-- GELCON_CONFIG with action 1 on a quarantined port makes that port train again from the start and completes OK; a port that is
not quarantined completes BAD_STATE, a port number over 20 BAD_ARGUMENT. Action 2 with a spare lane and its target on a device
with global lanes records the assignment. GROUP_CONFIG outside a group with a number below 32 and no join sets the group number
and returns the new identity; with join, where the device may join, the device is in the group with itself as its own master
until SYNC names one, and its Invar is the group's (the model's reading, log 14): once SERVING has been entered one join alone
steps it (R27). TK_STAT.aligned stays as it was (the model's choice, log 14). Joining while in a group completes BAD_STATE.
Leaving (group 0xFF) a group sets the group number back to unset and makes the device run alone; leaving outside a group
completes BAD_STATE. -/
def Obligations.GelconActionsAndGroup : Prop :=
  (∀ (s : State) (mb : Nat) (c : MbCommand), Asked s mb 0x56 c → cf c 0 1 = 1 → entryCount c = 0 → cf c 1 1 < portCount s.variant → (s.gport (cf c 1 1)).quarantined = true →
      
  exec (.gelconQuarantineRelease mb) s = .next ((s.onGelcon (fun g => { g with ports := tabPut (cf c 1 1) {} g.ports })).complete c St.ok [])) ∧
  (∀ (s : State) (mb : Nat) (c : MbCommand), Asked s mb 0x56 c → cf c 0 1 = 1 → entryCount c = 0 → cf c 1 1 < portCount s.variant → (s.gport (cf c 1 1)).quarantined = false →
      
  exec (.gelconQuarantineRelease mb) s = .next (s.complete c St.badState [])) ∧
  (∀ (s : State) (mb : Nat) (c : MbCommand), Asked s mb 0x56 c → cf c 0 1 = 1 → entryCount c = 0 → 21 ≤ cf c 1 1 →
      exec (.gelconQuarantineRelease mb) s = .next (s.complete c St.badArgument [])) ∧
  (∀ (s : State) (mb : Nat) (c : MbCommand), Asked s mb 0x56 c → cf c 0 1 = 2 → entryCount c = 0 → s.variant = .xf → 93 ≤ cf c 1 1 ∧ cf c 1 1 ≤ 95 ∧ cf c 2 1 ≤ 95 →
      
  exec (.gelconSpareAssign mb) s = .next ((s.onGelcon (fun g => { g with spares := tabPut (cf c 1 1) (cf c 2 1) g.spares })).complete c St.ok [])) ∧
  (∀ (s : State) (mb : Nat) (c : MbCommand), Asked s mb 0x56 c → cf c 0 1 = 2 → entryCount c = 0 → s.variant ≠ .xf →
      exec (.gelconSpareAssign mb) s = .next (s.complete c St.unsupportedUnit [])) ∧
  (∀ (s : State) (mb gt : Nat) (c : MbCommand), Asked s mb 0x11 c → cf c 0 1 < 32 → bit (cf c 1 1) 0 = false → s.tick.inGroup = false →
      ∃ t, exec (.groupConfigJoin mb gt) s = .next t ∧
  t.tick.group = cf c 0 1 ∧ t.tick.inGroup = false ∧ t.tick.iv = s.tick.iv ∧ t.mb.capGen = (s.mb.capGen + 2) % 2 ^ 32) ∧
  (∀ (s : State) (mb gt : Nat) (c : MbCommand), Asked s mb 0x11 c → cf c 0 1 < 32 → bit (cf c 1 1) 0 = true → s.tick.inGroup = false → mayJoin s = true → gt < 2 ^ 64 →
      ∃ t, exec (.groupConfigJoin mb gt) s = .next t ∧
  t.tick.group = cf c 0 1 ∧ t.tick.inGroup = true ∧ t.tick.iv = (if s.tick.everServing = true ∧ s.tick.joinStepped = true then s.tick.iv else gt) ∧
  t.tick.joinStepped = (s.tick.joinStepped || s.tick.everServing) ∧ t.tick.isMaster = false ∧ t.tick.master = memberNo s ∧ t.tick.aligned = s.tick.aligned ∧ t.mb.capGen = (s.mb.capGen + 2) % 2 ^ 32) ∧
  (∀ (s : State) (mb gt : Nat) (c : MbCommand), Asked s mb 0x11 c → cf c 0 1 < 32 → s.tick.inGroup = true →
      exec (.groupConfigJoin mb gt) s = .next (s.complete c St.badState [])) ∧
  (∀ (s : State) (mb : Nat) (c : MbCommand), Asked s mb 0x11 c → cf c 0 1 = 255 → bit (cf c 1 1) 0 = false → s.tick.inGroup = true →
      ∃ t, exec (.groupConfigLeave mb) s = .next t ∧
  t.tick.inGroup = false ∧ t.tick.group = 31 ∧ t.tick.isMaster = false ∧ t.mb.capGen = (s.mb.capGen + 2) % 2 ^ 32) ∧
  (∀ (s : State) (mb : Nat) (c : MbCommand), Asked s mb 0x11 c → cf c 0 1 = 255 → bit (cf c 1 1) 0 = false → s.tick.inGroup = false →
      exec (.groupConfigLeave mb) s = .next (s.complete c St.badState []))

/-- RING_REGISTER with a ring below 64 that is not registered, a size of 2^6 to 2^16, a 4 KiB aligned ring and an 8-byte aligned
head word registers the ring, bound to the port the command arrived through (while that is down, to the other one: R349), with
its counts as the command gives them; one already registered completes BUSY, and a bad alignment BAD_RING. RING_RELEASE of a
ring whose descriptors are all taken frees it; with descriptors left it completes BUSY, and an unregistered ring NOT_FOUND. By a
port whose BAR0 the host reaches (R340; log 26), outside OFF and a warm reset, a ring doorbell whose tail is within the ring of
the consumed count and does not go back moves the tail, under its stamp; a tail further ahead than the ring is misuse cause 1,
one that goes back cause 2, an unregistered ring cause 3, a wrong width or offset cause 5. A credit doorbell of 8 bytes waits,
with its stamp, port and place of arrival (R42), for the commit window that takes it; bits [31:20] set are misuse cause 6,
another width or offset cause 5. Where the host does not reach the port, in OFF and during a warm reset, either doorbell does
nothing but take its time. -/
def Obligations.RingsAndDoorbells : Prop :=
  (∀ (s : State) (mb : Nat) (c : MbCommand), Asked s mb 0x30 c → cf c 0 1 < 64 ∧ 6 ≤ cf c 1 1 ∧ cf c 1 1 ≤ 16 → tabGet (cf c 0 1) s.req.rings = none → cf c 8 8 % 4096 = 0 ∧ cf c 16 8 % 8 = 0 →
      
  exec (.ringRegister mb) s = .next ((s.onReq (fun u => { u with rings := tabPut (cf c 0 1) { registered := true, addr := cf c 8 8, sizeLog2 := cf c 1 1, headAddr := cf c 16 8, consumed := cf c 4 4, tail := cf c 4 4, port := s.livePort c.port } u.rings })).complete c St.ok [])) ∧
  (∀ (s : State) (mb : Nat) (c : MbCommand) (g : Ring), Asked s mb 0x30 c → cf c 0 1 < 64 ∧ 6 ≤ cf c 1 1 ∧ cf c 1 1 ≤ 16 → tabGet (cf c 0 1) s.req.rings = some g →
      exec (.ringRegister mb) s = .next (s.complete c St.busy [])) ∧
  (∀ (s : State) (mb : Nat) (c : MbCommand), Asked s mb 0x30 c → cf c 0 1 < 64 ∧ 6 ≤ cf c 1 1 ∧ cf c 1 1 ≤ 16 → tabGet (cf c 0 1) s.req.rings = none → ¬(cf c 8 8 % 4096 = 0 ∧ cf c 16 8 % 8 = 0) →
      exec (.ringRegister mb) s = .next (s.complete c St.badRing [])) ∧
  (∀ (s : State) (mb : Nat) (c : MbCommand), Asked s mb 0x30 c → ¬(cf c 0 1 < 64 ∧ 6 ≤ cf c 1 1 ∧ cf c 1 1 ≤ 16) →
      exec (.ringRegister mb) s = .next (s.complete c St.badArgument [])) ∧
  (∀ (s : State) (mb : Nat) (c : MbCommand) (g : Ring), Due s mb 0x31 c → cf c 0 1 < 64 → tabGet (cf c 0 1) s.req.rings = some g → g.stopped = true ∨ g.tail = g.consumed →
      
  exec (.ringRelease mb) s = .next ((s.begin.onReq (fun u => { u with rings := tabDel (cf c 0 1) u.rings })).complete c St.ok [])) ∧
  (∀ (s : State) (mb : Nat) (c : MbCommand) (g : Ring), Due s mb 0x31 c → cf c 0 1 < 64 → tabGet (cf c 0 1) s.req.rings = some g → g.stopped = false ∧ g.tail ≠ g.consumed →
      exec (.ringRelease mb) s = .next (s.begin.complete c St.busy [])) ∧
  (∀ (s : State) (mb : Nat) (c : MbCommand), Due s mb 0x31 c → cf c 0 1 < 64 → tabGet (cf c 0 1) s.req.rings = none →
      exec (.ringRelease mb) s = .next (s.begin.complete c St.notFound [])) ∧
  (∀ (s : State) (t port ring : Nat) (v : BitVec 32) (g : Ring), s.barUp port = true ∧ s.start.warmRunning = false ∧ s.start.state ≠ .off → ring < 64 → tabGet ring s.req.rings = some g → (v.toNat + 2 ^ 32 - g.consumed) % 2 ^ 32 ≤ 2 ^ g.sizeLog2 → (g.tail + 2 ^ 32 - g.consumed) % 2 ^ 32 ≤ (v.toNat + 2 ^ 32 - g.consumed) % 2 ^ 32 →
      
  exec (.submissionRingDoorbell t port ring 0 4 v) s = .next ((s.atTime t).modRing ring (fun g => { g with tail := v.toNat, marks := if g.stopped || v.toNat = g.tail then g.marks else g.marks ++ [(v.toNat, t)] }))) ∧
  (∀ (s : State) (t port ring : Nat) (v : BitVec 32) (g : Ring), s.barUp port = true ∧ s.start.warmRunning = false ∧ s.start.state ≠ .off → ring < 64 → tabGet ring s.req.rings = some g → 2 ^ g.sizeLog2 < (v.toNat + 2 ^ 32 - g.consumed) % 2 ^ 32 →
      
  exec (.submissionRingDoorbell t port ring 0 4 v) s = .next ((s.atTime t).misuse t v.toNat 1 port ring)) ∧
  (∀ (s : State) (t port ring : Nat) (v : BitVec 32) (g : Ring), s.barUp port = true ∧ s.start.warmRunning = false ∧ s.start.state ≠ .off → ring < 64 → tabGet ring s.req.rings = some g → (v.toNat + 2 ^ 32 - g.consumed) % 2 ^ 32 ≤ 2 ^ g.sizeLog2 → (v.toNat + 2 ^ 32 - g.consumed) % 2 ^ 32 < (g.tail + 2 ^ 32 - g.consumed) % 2 ^ 32 →
      
  exec (.submissionRingDoorbell t port ring 0 4 v) s = .next ((s.atTime t).misuse t v.toNat 2 port ring)) ∧
  (∀ (s : State) (t port ring : Nat) (v : BitVec 32), s.barUp port = true ∧ s.start.warmRunning = false ∧ s.start.state ≠ .off → ring < 64 → tabGet ring s.req.rings = none →
      
  exec (.submissionRingDoorbell t port ring 0 4 v) s = .next ((s.atTime t).misuse t v.toNat 3 port ring)) ∧
  (∀ (s : State) (t port ring offset width : Nat) (v : BitVec 32), s.barUp port = true ∧ s.start.warmRunning = false ∧ s.start.state ≠ .off → ring < 64 → width ≠ 4 ∨ offset ≠ 0 →
      
  exec (.submissionRingDoorbell t port ring offset width v) s = .next ((s.atTime t).misuse t v.toNat 5 port ring)) ∧
  (∀ (s : State) (t port : Nat) (v : BitVec 64), s.barUp port = true ∧ s.start.warmRunning = false ∧ s.start.state ≠ .off → bits v.toNat 31 20 = 0 →
      
  exec (.streamCreditDoorbell t port 0x200000 8 v) s = .next ((s.atTime t).arrive.onReq (fun u => { u with credits := u.credits ++ [(v.toNat % 2 ^ 20, v.toNat, t, port, s.host.arrivals)] }))) ∧
  (∀ (s : State) (t port : Nat) (v : BitVec 64), s.barUp port = true ∧ s.start.warmRunning = false ∧ s.start.state ≠ .off → bits v.toNat 31 20 ≠ 0 →
      
  exec (.streamCreditDoorbell t port 0x200000 8 v) s = .next ((s.atTime t).misuse t v.toNat 6 port (v.toNat % 2 ^ 20))) ∧
  (∀ (s : State) (t port offset width : Nat) (v : BitVec 64), s.barUp port = true ∧ s.start.warmRunning = false ∧ s.start.state ≠ .off → width ≠ 8 ∨ offset ≠ 0x200000 →
      
  exec (.streamCreditDoorbell t port offset width v) s = .next ((s.atTime t).misuse t v.toNat 5 port (v.toNat % 2 ^ 20))) ∧
  (∀ (s : State) (t port ring offset width : Nat) (v : BitVec 32), s.barUp port = false ∨ s.start.warmRunning = true ∨ s.start.state = .off →
      exec (.submissionRingDoorbell t port ring offset width v) s = .next (s.atTime t)) ∧
  (∀ (s : State) (t port offset width : Nat) (v : BitVec 64), s.barUp port = false ∨ s.start.warmRunning = true ∨ s.start.state = .off →
      exec (.streamCreditDoorbell t port offset width v) s = .next (s.atTime t))

/-- In a commit window that admits, SUBMIT takes the descriptor at the front of the ring whose turn it is among the ready ones
(R43): the ring's consumed count rises by one, the descriptor and the buffers it names are read (R344), and the completion field
(status, two zero bytes, the low 32 bits of the tick's index) is written at bytes 248 to 255 of the descriptor. A descriptor
that cannot be read has BAD_ADDRESS, and one that fails a check of Table 3-4 the status of the first that fails, and no request
changes; one that passes them, and whose objects fit, starts its request first, and its completion is OK; one whose objects have
no room gets the status of that refusal. Where the completion write fails the ring stops, the request admitted or refused all
the same. At any other time, or for another ring, SUBMIT changes nothing. RECOVER of 1 to 65,536 entries starts, and another
count completes BAD_ARGUMENT; RECOVER_ENTRY takes the next entry, writes bytes 24 to 33 of it with the tick's index (0 where it
is refused) and its status, rebuilds the request of an entry that passes its checks, and after the last entry completes with the
number rebuilt. -/
def Obligations.SubmitAdmitsOrRefuses : Prop :=
  (∀ (s : State) (ring : Nat) (d : DescRead), admissionOpen s = true → nextRing s = some ring → d.complFail = false → d.descFail = true →
      
  exec (.submit ring d) s = .next ((descTaken s ring).hostWrite (s.ring ring).port (frontDesc s ring + 248) 0 (leBytes 2 St.badAddress ++ [0, 0] ++ leBytes 4 (s.tick.index % 2 ^ 32)))) ∧
  (∀ (s : State) (ring : Nat) (d : DescRead) (b : List Byte) (r : Request) (u : State) (st : Nat), admissionOpen s = true → nextRing s = some ring → d.complFail = false → d.descFail = false → b = slice d.bytes 0 256 → r = requestOf b d ((descTaken s ring).mslot (field b 13 1 % 16)).info.vocab → u = (descTaken s ring).readBuffers (s.ring ring).port b d → st = admitCheck (descTaken s ring) b d r false → st ≠ St.ok →
      
  exec (.submit ring d) s = .next (u.hostWrite (s.ring ring).port (frontDesc s ring + 248) 0 (leBytes 2 st ++ [0, 0] ++ leBytes 4 (s.tick.index % 2 ^ 32)))) ∧
  (∀ (s : State) (ring : Nat) (d : DescRead) (b : List Byte) (r : Request) (u : State), admissionOpen s = true → nextRing s = some ring → d.complFail = false → d.descFail = false → b = slice d.bytes 0 256 → r = requestOf b d ((descTaken s ring).mslot (field b 13 1 % 16)).info.vocab → u = (descTaken s ring).readBuffers (s.ring ring).port b d → admitCheck (descTaken s ring) b d r false = St.ok → (u.admitReq (dSlot b) (s.ring ring).port r r.prompt).2 = St.ok →
      
  exec (.submit ring d) s = .next (((u.admitReq (dSlot b) (s.ring ring).port r r.prompt).1.startRequest (dSlot b)).hostWrite (s.ring ring).port (frontDesc s ring + 248) 0 (leBytes 2 St.ok ++ [0, 0] ++ leBytes 4 (s.tick.index % 2 ^ 32)))) ∧
  (∀ (s : State) (ring : Nat) (d : DescRead) (b : List Byte) (r : Request) (u : State) (st : Nat), admissionOpen s = true → nextRing s = some ring → d.complFail = false → d.descFail = false → b = slice d.bytes 0 256 → r = requestOf b d ((descTaken s ring).mslot (field b 13 1 % 16)).info.vocab → u = (descTaken s ring).readBuffers (s.ring ring).port b d → admitCheck (descTaken s ring) b d r false = St.ok → (u.admitReq (dSlot b) (s.ring ring).port r r.prompt).2 = st ∧ st ≠ St.ok →
      
  exec (.submit ring d) s = .next ((u.admitReq (dSlot b) (s.ring ring).port r r.prompt).1.hostWrite (s.ring ring).port (frontDesc s ring + 248) 0 (leBytes 2 st ++ [0, 0] ++ leBytes 4 (s.tick.index % 2 ^ 32)))) ∧
  (∀ (s : State) (ring : Nat) (d : DescRead), admissionOpen s = true → nextRing s = some ring → d.complFail = true → d.descFail = true →
      exec (.submit ring d) s = .next ((descTaken s ring).stopRing ring)) ∧
  (∀ (s : State) (ring : Nat) (d : DescRead) (b : List Byte) (r : Request) (u : State), admissionOpen s = true → nextRing s = some ring → d.complFail = true → d.descFail = false → b = slice d.bytes 0 256 → r = requestOf b d ((descTaken s ring).mslot (field b 13 1 % 16)).info.vocab → u = (descTaken s ring).readBuffers (s.ring ring).port b d → admitCheck (descTaken s ring) b d r false ≠ St.ok →
      exec (.submit ring d) s = .next (u.stopRing ring)) ∧
  (∀ (s : State) (ring : Nat) (d : DescRead) (b : List Byte) (r : Request) (u : State), admissionOpen s = true → nextRing s = some ring → d.complFail = true → d.descFail = false → b = slice d.bytes 0 256 → r = requestOf b d ((descTaken s ring).mslot (field b 13 1 % 16)).info.vocab → u = (descTaken s ring).readBuffers (s.ring ring).port b d → admitCheck (descTaken s ring) b d r false = St.ok → (u.admitReq (dSlot b) (s.ring ring).port r r.prompt).2 = St.ok →
      
  exec (.submit ring d) s = .next (((u.admitReq (dSlot b) (s.ring ring).port r r.prompt).1.startRequest (dSlot b)).stopRing ring)) ∧
  (∀ (s : State) (ring : Nat) (d : DescRead) (b : List Byte) (r : Request) (u : State), admissionOpen s = true → nextRing s = some ring → d.complFail = true → d.descFail = false → b = slice d.bytes 0 256 → r = requestOf b d ((descTaken s ring).mslot (field b 13 1 % 16)).info.vocab → u = (descTaken s ring).readBuffers (s.ring ring).port b d → admitCheck (descTaken s ring) b d r false = St.ok → (u.admitReq (dSlot b) (s.ring ring).port r r.prompt).2 ≠ St.ok →
      
  exec (.submit ring d) s = .next ((u.admitReq (dSlot b) (s.ring ring).port r r.prompt).1.stopRing ring)) ∧
  (∀ (s : State) (ring : Nat) (d : DescRead), admissionOpen s = false ∨ nextRing s ≠ some ring →
      exec (.submit ring d) s = .next s) ∧
  (∀ (s : State) (mb : Nat) (c : MbCommand), Due s mb 0x46 c → 1 ≤ cf c 0 4 ∧ cf c 0 4 ≤ 65536 →
      exec (.recover mb) s = .next (s.begin.setCmd { c with phase := 1, aux := 0 })) ∧
  (∀ (s : State) (mb : Nat) (c : MbCommand), Due s mb 0x46 c → ¬(1 ≤ cf c 0 4 ∧ cf c 0 4 ≤ 65536) →
      exec (.recover mb) s = .next (s.begin.complete c St.badArgument [])) ∧
  (∀ (s : State) (mb : Nat) (c : MbCommand) (r : RecoverRead), s.cmdAt mb [0x46] = some c → c.phase = 1 → takingOpen s = true → s.sceolUp = true → r.index = recTaken c.aux → (recoverOne (entryTaken s c r.index) c r).2 = St.ok → recTaken c.aux + 1 < cf c 0 4 → c.aux % 131072 + 1 < 131072 →
      
  exec (.recoverEntry mb r) s = .next (((recoverOne (entryTaken s c r.index) c r).1.hostWrite (s.livePort c.port) (cf c 8 8 + 64 * r.index + 24) 0 (leBytes 8 s.tick.index ++ leBytes 2 0)).setCmd { c with aux := c.aux + 131073 })) ∧
  (∀ (s : State) (mb : Nat) (c : MbCommand) (r : RecoverRead), s.cmdAt mb [0x46] = some c → c.phase = 1 → takingOpen s = true → s.sceolUp = true → r.index = recTaken c.aux → (recoverOne (entryTaken s c r.index) c r).2 = St.ok → recTaken (c.aux + 131073) = cf c 0 4 →
      
  exec (.recoverEntry mb r) s = .next (((recoverOne (entryTaken s c r.index) c r).1.hostWrite (s.livePort c.port) (cf c 8 8 + 64 * r.index + 24) 0 (leBytes 8 s.tick.index ++ leBytes 2 0)).complete c St.ok (leBytes 4 (recBuilt (c.aux + 131073))))) ∧
  (∀ (s : State) (mb st : Nat) (c : MbCommand) (r : RecoverRead), s.cmdAt mb [0x46] = some c → c.phase = 1 → takingOpen s = true → s.sceolUp = true → r.index = recTaken c.aux → st = (recoverOne (entryTaken s c r.index) c r).2 → st ≠ St.ok → recTaken c.aux + 1 < cf c 0 4 → c.aux % 131072 + 1 < 131072 →
      
  exec (.recoverEntry mb r) s = .next (((recoverOne (entryTaken s c r.index) c r).1.hostWrite (s.livePort c.port) (cf c 8 8 + 64 * r.index + 24) 0 (leBytes 8 0 ++ leBytes 2 st)).setCmd { c with aux := c.aux + 1 })) ∧
  (∀ (s : State) (mb st : Nat) (c : MbCommand) (r : RecoverRead), s.cmdAt mb [0x46] = some c → c.phase = 1 → takingOpen s = true → s.sceolUp = true → r.index = recTaken c.aux → st = (recoverOne (entryTaken s c r.index) c r).2 → st ≠ St.ok → recTaken (c.aux + 1) = cf c 0 4 →
      
  exec (.recoverEntry mb r) s = .next (((recoverOne (entryTaken s c r.index) c r).1.hostWrite (s.livePort c.port) (cf c 8 8 + 64 * r.index + 24) 0 (leBytes 8 0 ++ leBytes 2 st)).complete c St.ok (leBytes 4 (recBuilt (c.aux + 1)))))

/-- While the commit-write log has room, closing a request that is live and not arriving makes it CLOSING with the status given (or
the one fixed for it before), ends its timer and its withheld tokens, leaves every other request's entry, the device memory and
the tick as they were, and drops its attempt; its generated tokens, committed length and tenant are kept, and the commit-write
log grows by the entries that its tokens not written yet and its FINAL entry take. A FREE or CLOSING request does not change. -/
def Obligations.ClosingARequest : Prop :=
  (∀ (s : State) (n st drop : Nat) (r : Request), tabSorted s.req.table = true → s.req? n = some r → reqLive r.state = true → arriving r = false → logRoom s (r.outs.length + 1) = true → (if r.closeStatus = 0 then st else r.closeStatus) ≠ St.migrated → drop ≤ r.outs.length →
      
  ∃ q, (s.closeReq n st drop).req? n = some q ∧ q.state = .closing ∧ q.closeStatus = (if r.closeStatus = 0 then st else r.closeStatus) ∧ (s.closeReq n st drop).attempt? n = none ∧ q.outs = [] ∧ q.withheld = 0 ∧ q.timer = 0 ∧ q.commitTick = s.tick.index ∧
  q.generated = r.generated ∧ q.committedLen = r.committedLen ∧ q.tenant = r.tenant ∧ (s.closeReq n st drop).req.log.length = s.req.log.length + (r.outs.length - drop) + 1) ∧
  (∀ (s : State) (n k st drop : Nat), n ≠ k → tabSorted s.req.table = true →
      (s.closeReq n st drop).req? k = s.req? k ∧ (s.closeReq n st drop).mem = s.mem ∧ (s.closeReq n st drop).tick = s.tick) ∧
  (∀ (s : State) (n st drop : Nat) (r : Request), s.req? n = some r → reqLive r.state = false →
      s.closeReq n st drop = s)

/-- In its commit window and its turn, the credits before it taken first (R42), a command that names a live request and its
admission acts on it, and the request is then settled where no other cause waits: REQ_CANCEL closes it CANCELLED and completes
OK; REQ_PAUSE of a PREFILLING or DECODING request waits on the attempt's settlement, completes OK where another pause of the
window is pending, and of another state completes BAD_STATE; REQ_RESUME of a PAUSED request puts it back in its prior state and
completes OK, and of a PARKED one makes it RESUMING and walks its pages; where a pause of the window is pending it undoes it
when the request settles; in any other state it completes BAD_STATE; REQ_DRAFT of a source-3 request replaces its draft text and
completes OK, BAD_STATE for another source, BAD_ADDRESS where the text cannot be read, BAD_ARGUMENT for a length or alignment
outside Table 10-1; REQ_MIGRATE of a request in PREFILLING, DECODING or PAUSED to another member of the group marks it as
migrating and starts, BAD_ARGUMENT for a destination outside the group, BAD_STATE for another state. A command that names a FREE
or CLOSING slot or another admission completes REQ_CLOSED. -/
def Obligations.CommandsOnARequest : Prop :=
  (∀ (s : State) (mb : Nat) (c : MbCommand) (r : Request), OnRequest s mb 0x40 c r →
      
  exec (.reqCancel mb) s = .next (afterCommand (((credited s c).closeReq (cf c 0 4) St.cancelled 0).complete c St.ok []) (cf c 0 4))) ∧
  (∀ (s : State) (mb : Nat) (c : MbCommand) (r : Request), OnRequest s mb 0x41 c r → r.state = .prefilling ∨ r.state = .decoding → pausePending (credited s c) (cf c 0 4) = false →
      
  exec (.reqPause mb) s = .next (afterCommand (((credited s c).onReq (fun u => { u with pauseMarks := u.pauseMarks ++ [(cf c 0 4, c.slot)] })).waitSettle c (cf c 0 4)) (cf c 0 4))) ∧
  (∀ (s : State) (mb : Nat) (c : MbCommand) (r : Request), OnRequest s mb 0x41 c r → r.state = .prefilling ∨ r.state = .decoding → pausePending (credited s c) (cf c 0 4) = true →
      
  exec (.reqPause mb) s = .next (afterCommand ((credited s c).complete c St.ok []) (cf c 0 4))) ∧
  (∀ (s : State) (mb : Nat) (c : MbCommand) (r : Request), OnRequest s mb 0x42 c r → r.state = .prefilling ∨ r.state = .decoding → pausePending (credited s c) (cf c 0 4) = true →
      
  exec (.reqResume mb) s = .next (afterCommand (((credited s c).onReq (fun u => { u with resumeMarks := u.resumeMarks ++ [(cf c 0 4, c.slot)] })).waitSettle c (cf c 0 4)) (cf c 0 4))) ∧
  (∀ (s : State) (mb : Nat) (c : MbCommand) (r : Request), OnRequest s mb 0x41 c r → ¬(r.state = .prefilling ∨ r.state = .decoding) →
      exec (.reqPause mb) s = .next (afterCommand ((credited s c).complete c St.badState []) (cf c 0 4))) ∧
  (∀ (s : State) (mb : Nat) (c : MbCommand) (r : Request), OnRequest s mb 0x42 c r → r.state = .paused →
      
  exec (.reqResume mb) s = .next (afterCommand (((credited s c).modReq (cf c 0 4) (fun q => { q with state := q.priorState, priorState := .free, timer := 0 })).complete c St.ok []) (cf c 0 4))) ∧
  (∀ (s : State) (mb : Nat) (c : MbCommand) (r : Request), OnRequest s mb 0x42 c r → r.state = .parked →
      
  exec (.reqResume mb) s = .next (afterCommand ((((credited s c).modReq (cf c 0 4) (fun q => { q with state := .resuming, timer := 0 })).resumeWalk (cf c 0 4)).complete c St.ok []) (cf c 0 4))) ∧
  (∀ (s : State) (mb : Nat) (c : MbCommand) (r : Request), OnRequest s mb 0x42 c r → r.state = .importing ∨ r.state = .resuming ∨ ((r.state = .prefilling ∨ r.state = .decoding) ∧ pausePending (credited s c) (cf c 0 4) = false) →
      exec (.reqResume mb) s = .next (afterCommand ((credited s c).complete c St.badState []) (cf c 0 4))) ∧
  (∀ (s : State) (mb : Nat) (c : MbCommand) (r : Request) (l : List Nat), OnRequest s mb 0x43 c r → 1 ≤ cf c 16 2 ∧ cf c 16 2 ≤ 4096 ∧ cf c 8 8 % 4 = 0 → r.spec.source = 3 →
      
  exec (.reqDraft mb (some l)) s = .next (afterCommand ((((credited s c).hostRead c.port (cf c 8 8) (4 * cf c 16 2)).modReq (cf c 0 4) (fun q => { q with draftText := l.take (cf c 16 2) })).complete c St.ok []) (cf c 0 4))) ∧
  (∀ (s : State) (mb : Nat) (c : MbCommand) (r : Request) (l : Option (List Nat)), OnRequest s mb 0x43 c r → 1 ≤ cf c 16 2 ∧ cf c 16 2 ≤ 4096 ∧ cf c 8 8 % 4 = 0 → r.spec.source ≠ 3 →
      exec (.reqDraft mb l) s = .next (afterCommand ((credited s c).complete c St.badState []) (cf c 0 4))) ∧
  (∀ (s : State) (mb : Nat) (c : MbCommand) (r : Request) (l : Option (List Nat)), OnRequest s mb 0x43 c r → ¬(1 ≤ cf c 16 2 ∧ cf c 16 2 ≤ 4096 ∧ cf c 8 8 % 4 = 0) →
      exec (.reqDraft mb l) s = .next (afterCommand ((credited s c).complete c St.badArgument []) (cf c 0 4))) ∧
  (∀ (s : State) (mb : Nat) (c : MbCommand) (r : Request), OnRequest s mb 0x45 c r → s.tick.inGroup = true ∧ groupOf (cf c 8 2) = s.tick.group ∧ cf c 8 2 ≠ identityOf s ∧ cf c 8 2 < 512 → r.state = .prefilling ∨ r.state = .decoding ∨ r.state = .paused → r.migrating = false →
      
  exec (.reqMigrate mb) s = .next (afterCommand ((((credited s c).modReq (cf c 0 4) (fun q => { q with migrating := true })).onGelcon (fun g => { g with migrations := g.migrations ++ [(cf c 0 4, cf c 8 2, 0)] })).setCmd { c with phase := 1 }) (cf c 0 4))) ∧
  (∀ (s : State) (mb : Nat) (c : MbCommand) (r : Request), OnRequest s mb 0x45 c r → s.tick.inGroup = false ∨ groupOf (cf c 8 2) ≠ s.tick.group ∨ cf c 8 2 = identityOf s ∨ 512 ≤ cf c 8 2 →
      exec (.reqMigrate mb) s = .next (afterCommand ((credited s c).complete c St.badArgument []) (cf c 0 4))) ∧
  (∀ (s : State) (mb : Nat) (c : MbCommand) (r : Request), OnRequest s mb 0x45 c r → s.tick.inGroup = true ∧ groupOf (cf c 8 2) = s.tick.group ∧ cf c 8 2 ≠ identityOf s ∧ cf c 8 2 < 512 → ¬(r.state = .prefilling ∨ r.state = .decoding ∨ r.state = .paused) ∨ r.migrating = true →
      exec (.reqMigrate mb) s = .next (afterCommand ((credited s c).complete c St.badState []) (cf c 0 4))) ∧
  (∀ (s : State) (mb : Nat) (c : MbCommand) (r : Request), OnRequest s mb 0x43 c r → 1 ≤ cf c 16 2 ∧ cf c 16 2 ≤ 4096 ∧ cf c 8 8 % 4 = 0 → r.spec.source = 3 →
      exec (.reqDraft mb none) s = .next (afterCommand ((credited s c).complete c St.badAddress []) (cf c 0 4))) ∧
  (∀ (s : State) (mb : Nat) (c : MbCommand), Due s mb 0x40 c → ((credited s c).req? (cf c 0 4)).all (fun r => !(reqLive r.state && namesReq c r)) = true →
      exec (.reqCancel mb) s = .next (afterCommand ((credited s c).complete c St.reqClosed []) (cf c 0 4))) ∧
  (∀ (s : State) (mb : Nat) (c : MbCommand), Due s mb 0x41 c → ((credited s c).req? (cf c 0 4)).all (fun r => !(reqLive r.state && namesReq c r)) = true →
      exec (.reqPause mb) s = .next (afterCommand ((credited s c).complete c St.reqClosed []) (cf c 0 4))) ∧
  (∀ (s : State) (mb : Nat) (c : MbCommand), Due s mb 0x42 c → ((credited s c).req? (cf c 0 4)).all (fun r => !(reqLive r.state && namesReq c r)) = true →
      exec (.reqResume mb) s = .next (afterCommand ((credited s c).complete c St.reqClosed []) (cf c 0 4))) ∧
  (∀ (s : State) (mb : Nat) (c : MbCommand) (l : Option (List Nat)), Due s mb 0x43 c → ((credited s c).req? (cf c 0 4)).all (fun r => !(reqLive r.state && namesReq c r)) = true →
      exec (.reqDraft mb l) s = .next (afterCommand ((credited s c).complete c St.reqClosed []) (cf c 0 4))) ∧
  (∀ (s : State) (mb : Nat) (c : MbCommand), Due s mb 0x45 c → ((credited s c).req? (cf c 0 4)).all (fun r => !(reqLive r.state && namesReq c r)) = true →
      exec (.reqMigrate mb) s = .next (afterCommand ((credited s c).complete c St.reqClosed []) (cf c 0 4)))

/-- For a request of which this device is the home (R49), that the window is still to settle and no command of the window names,
DEADLINE_EXPIRY where the deadline lies before the next edge closes it DEADLINE; HOLD_EXPIRY of a PAUSED request whose hold has
ended parks it; TTL_EXPIRY of a PARKED one whose life has ended closes it TTL_EXPIRED; each then settles it and what stands
behind it in the window's order (R306). RESUME_COMPLETE of a RESUMING request whose page groups are all RESIDENT returns it to
its prior state. IMPORT_TIMEOUT of a request that imports, once the time SC_CTL allows has passed, fails its shipment with cause
2, or its import where it has none. BUDGET_WINDOW_START at the edge of a tick whose index is a multiple of the tenant's window
refills its account to 64 units a token less its debt, once. COMMIT_GATHERS_DONE ends the GATHERs that the commit of the slot
owes (R253), writes the entries that waited and, where the commit closed it, its FINAL entry. -/
def Obligations.TimersOfARequest : Prop :=
  (∀ (s : State) (n : Nat) (r : Request), s.req? n = some r → s.tick.inCommit = true ∧ s.req.unsettled.contains n = true ∧ dueCommands s n = [] → homedHere s r = true → deadlineDue s r = true → r.closeStatus = 0 →
      exec (.deadlineExpiry n) s = .next ((s.closeReq n St.deadline 0).settlePump)) ∧
  (∀ (s : State) (n : Nat) (r : Request), s.req? n = some r → s.tick.inCommit = true ∧ s.req.unsettled.contains n = true ∧ dueCommands s n = [] → homedHere s r = true → deadlineDue s r = false → r.state = .paused ∧ r.timer < s.nextEdge ∧ r.closeStatus = 0 →
      exec (.holdExpiry n) s = .next ((s.parkReq n).settlePump)) ∧
  (∀ (s : State) (n : Nat) (r : Request), s.req? n = some r → s.tick.inCommit = true ∧ s.req.unsettled.contains n = true ∧ dueCommands s n = [] → homedHere s r = true → deadlineDue s r = false → r.state = .parked ∧ r.timer < s.nextEdge ∧ r.closeStatus = 0 →
      exec (.ttlExpiry n) s = .next ((s.closeReq n St.ttlExpired 0).settlePump)) ∧
  (∀ (s : State) (n : Nat) (r : Request), s.tick.inCommit = true → s.req? n = some r → r.state = .resuming → allResident s r = true → s.req.unsettled.contains n = false →
      
  exec (.resumeComplete n) s = .next (s.modReq n (fun q => { q with state := q.priorState, priorState := .free }))) ∧
  (∀ (s : State) (t n : Nat) (r : Request), s.req? n = some r → r.state = .importing → r.migrating = false → r.importFrom + rf s.regs.scCtl 15 0 * 1000000 ≤ t → s.gelcon.ships.find? (fun x => x.slot = some n && !x.outgoing) = none →
      
  exec (.importTimeout t n) s = .next ((s.atTime t).failImport n)) ∧
  (∀ (s : State) (t n : Nat) (r : Request) (x : Shipment), s.req? n = some r → r.state = .importing → r.migrating = false → r.importFrom + rf s.regs.scCtl 15 0 * 1000000 ≤ t → s.gelcon.ships.find? (fun x => x.slot = some n && !x.outgoing) = some x →
      
  exec (.importTimeout t n) s = .next ((s.atTime t).failShip x 2)) ∧
  (∀ (s : State) (n : Nat) (v : Int), s.tick.running = true → s.tick.inCommit = false → (s.tenant n).budgetTokens ≠ 0 → s.tick.index % (s.tenant n).windowTicks = 0 → s.plan.windowsBegun.contains (n, s.tick.index) = false → (s.plan.accounts.find? (fun a => a.1 = n)).map (·.2) = some v →
      ∃ t, exec (.budgetWindowStart n) s = .next t ∧
  (t.plan.accounts.find? (fun a => a.1 = n)).map (·.2) = some (64 * Int.ofNat (s.tenant n).budgetTokens + min v 0) ∧ (∀ k, k ≠ n → t.plan.accounts.find? (fun a => a.1 = k) = s.plan.accounts.find? (fun a => a.1 = k)) ∧ t.req = s.req ∧ t.cfg = s.cfg) ∧
  (∀ (s : State) (n : Nat), s.tick.running = true → s.tick.inCommit = false → (s.tenant n).budgetTokens = 0 ∨ s.tick.index % (s.tenant n).windowTicks ≠ 0 →
      exec (.budgetWindowStart n) s = .next s) ∧
  (∀ (s : State) (n : Nat) (l : List (OutToken × Bool)), s.tick.inCommit = true → s.req.outsDue.find? (fun o => o.1 = n) = some (n, l, 0) →
      
  exec (.commitGathersDone n) s = .next (((s.endGathers n).onReq (fun u => { u with outsDue := u.outsDue.filter (fun x => x.1 ≠ n) })).writeTokens n l)) ∧
  (∀ (s : State) (n st : Nat) (l : List (OutToken × Bool)), s.tick.inCommit = true → s.req.outsDue.find? (fun o => o.1 = n) = some (n, l, st + 1) →
      
  exec (.commitGathersDone n) s = .next ((((s.endGathers n).onReq (fun u => { u with outsDue := u.outsDue.filter (fun x => x.1 ≠ n) })).writeTokens n l).writeFinal n st))

/-- TIER_REGISTER of an unused region number below 64 with kind 0 or 1, 2 MiB aligned offset, length and host address, a length that
is not 0, within the window and overlapping no other region, adds the region and its free granules and completes OK; a number
over 63, a bad region or an overlap completes BAD_ARGUMENT; for a number in use with the same place only the draining flag
changes, and with it the granules that may be allocated; another place completes BUSY. TIER_RELEASE of a region that holds no
live granule and no image frees it; one that holds either completes BAD_STATE, and an unknown region NOT_FOUND. -/
def Obligations.TierRegions : Prop :=
  (∀ (s : State) (mb : Nat) (c : MbCommand) (g : Region), Asked s mb 0x60 c → g = { number := cf c 0 1, isFixed := cf c 1 1 = 1, draining := bit (cf c 2 1) 0, offset := cf c 8 8, length := cf c 16 8, hostAddr := cf c 24 8 } → cf c 0 1 < 64 → s.tier.regions.find? (fun r => r.number = cf c 0 1) = none → cf c 1 1 ≤ 1 ∧ g.offset % 2097152 = 0 ∧ g.length % 2097152 = 0 ∧ g.hostAddr % 2097152 = 0 ∧ 0 < g.length ∧ g.offset + g.length ≤ 2 ^ 44 → s.tier.regions.any (fun r => g.offset < r.offset + r.length && r.offset < g.offset + g.length) = false →
      
  exec (.tierRegister mb) s = .next ((s.onTier (fun t => { t with regions := t.regions ++ [g], t2Free := t.t2Free + regionFree g })).complete c St.ok [])) ∧
  (∀ (s : State) (mb : Nat) (c : MbCommand), Asked s mb 0x60 c → cf c 0 1 < 64 → s.tier.regions.find? (fun r => r.number = cf c 0 1) = none → ¬(cf c 1 1 ≤ 1 ∧ cf c 8 8 % 2097152 = 0 ∧ cf c 16 8 % 2097152 = 0 ∧ cf c 24 8 % 2097152 = 0 ∧ 0 < cf c 16 8 ∧ cf c 8 8 + cf c 16 8 ≤ 2 ^ 44) →
      exec (.tierRegister mb) s = .next (s.complete c St.badArgument [])) ∧
  (∀ (s : State) (mb : Nat) (c : MbCommand), Asked s mb 0x60 c → cf c 0 1 < 64 → s.tier.regions.find? (fun r => r.number = cf c 0 1) = none → s.tier.regions.any (fun r => cf c 8 8 < r.offset + r.length && r.offset < cf c 8 8 + cf c 16 8) = true →
      exec (.tierRegister mb) s = .next (s.complete c St.badArgument [])) ∧
  (∀ (s : State) (mb : Nat) (c : MbCommand), Asked s mb 0x60 c → 64 ≤ cf c 0 1 →
      exec (.tierRegister mb) s = .next (s.complete c St.badArgument [])) ∧
  (∀ (s : State) (mb : Nat) (c : MbCommand) (r : Region), Asked s mb 0x60 c → cf c 0 1 < 64 → s.tier.regions.find? (fun r => r.number = cf c 0 1) = some r → r.offset = cf c 8 8 ∧ r.length = cf c 16 8 ∧ r.hostAddr = cf c 24 8 →
      exec (.tierRegister mb) s = .next ((s.onTier (fun t => { t with regions := t.regions.map (fun (x : Region) => if x.number = cf c 0 1 then { r with draining := bit (cf c 2 1) 0 } else x), t2Free := t.t2Free + regionRoom s { r with draining := bit (cf c 2 1) 0 } - regionRoom s r })).complete c St.ok [])) ∧
  (∀ (s : State) (mb : Nat) (c : MbCommand) (r : Region), Asked s mb 0x60 c → cf c 0 1 < 64 → s.tier.regions.find? (fun r => r.number = cf c 0 1) = some r → r.offset ≠ cf c 8 8 ∨ r.length ≠ cf c 16 8 ∨ r.hostAddr ≠ cf c 24 8 →
      exec (.tierRegister mb) s = .next (s.complete c St.busy [])) ∧
  (∀ (s : State) (mb : Nat) (c : MbCommand) (r : Region), Due s mb 0x61 c → s.tier.regions.find? (fun r => r.number = cf c 0 1) = some r → regionUsed s r = 0 → holdsImage s r = false →
      
  exec (.tierRelease mb) s = .next ((s.begin.onTier (fun t => { t with regions := t.regions.filter (fun x => x.number ≠ cf c 0 1), t2Free := t.t2Free - regionRoom s.begin r })).complete c St.ok [])) ∧
  (∀ (s : State) (mb : Nat) (c : MbCommand) (r : Region), Due s mb 0x61 c → s.tier.regions.find? (fun r => r.number = cf c 0 1) = some r → regionUsed s r ≠ 0 ∨ holdsImage s r = true →
      exec (.tierRelease mb) s = .next (s.begin.complete c St.badState [])) ∧
  (∀ (s : State) (mb : Nat) (c : MbCommand), Due s mb 0x61 c → s.tier.regions.find? (fun r => r.number = cf c 0 1) = none →
      exec (.tierRelease mb) s = .next (s.begin.complete c St.notFound []))

/-- A directive on a page group that its domain and digest name: PIN pins the group and its chain; UNPIN clears the pin and has the
group's place judged again; PROMOTE sets it toward RESIDENT, and it is judged there; DEMOTE of a group that is RESIDENT or
PARKED, unreferenced and not pinned starts its demotion, BUSY otherwise; DROP of a group that is not pinned takes it out of the
index, and leaves a pinned one (R282). A group that is not there completes NOT_FOUND, for each of the five. PARK_NOW ends the
hold of a PAUSED request at the next edge, BAD_STATE in another state, REQ_CLOSED for another admission. PREFIX_PROBE reads its
tokens and returns 128 times the number of groups that a context of the domain and model, with the Alloy's current generation
where it names one, would match: none where the Alloy has no generation, UNSUPPORTED_UNIT without Alloy units, BAD_ARGUMENT for
a length or slot out of range (tested first: the model's choice, log 20), BAD_ADDRESS where the tokens cannot be read; it takes
references on none of them, and uses the digest pipelines. -/
def Obligations.TierDirectives : Prop :=
  (∀ (s : State) (mb h : Nat) (c : MbCommand), Due s mb 0x62 c → cf c 0 1 = 1 ∧ cf c 1 1 = 0 → namedGroup s c = some h →
      
  exec (.pin mb) s = .next ((pinChain ((match s.begin.group? h with | none => 0 | some g => g.start / 128) + 1) h s.begin).complete c St.ok [])) ∧
  (∀ (s : State) (mb h : Nat) (c : MbCommand), Due s mb 0x62 c → cf c 0 1 = 2 ∧ cf c 1 1 = 0 → namedGroup s c = some h →
      
  exec (.unpin mb) s = .next (((s.begin.modGroup h (fun g => { g with pinned := false })).recheck h).complete c St.ok [])) ∧
  (∀ (s : State) (mb h : Nat) (c : MbCommand), Due s mb 0x62 c → cf c 0 1 = 3 ∧ cf c 1 1 = 0 → namedGroup s c = some h →
      exec (.promote mb) s = .next (((s.begin.towardResident h 0).recheck h).complete c St.ok [])) ∧
  (∀ (s : State) (mb h : Nat) (c : MbCommand) (g : PageGroup), Due s mb 0x62 c → cf c 0 1 = 4 ∧ cf c 1 1 = 0 → namedGroup s c = some h → s.group? h = some g → (g.state = .resident ∨ g.state = .parked) ∧ g.refs = 0 ∧ g.pinned = false →
      
  exec (.demote mb) s = .next ((s.begin.demoteGroup h none).1.complete c St.ok [])) ∧
  (∀ (s : State) (mb h : Nat) (c : MbCommand) (g : PageGroup), Due s mb 0x62 c → cf c 0 1 = 4 ∧ cf c 1 1 = 0 → namedGroup s c = some h → s.group? h = some g → ¬((g.state = .resident ∨ g.state = .parked) ∧ g.refs = 0 ∧ g.pinned = false) →
      exec (.demote mb) s = .next (s.begin.complete c St.busy [])) ∧
  (∀ (s : State) (mb h : Nat) (c : MbCommand) (g : PageGroup), Due s mb 0x62 c → cf c 0 1 = 5 ∧ cf c 1 1 = 0 → namedGroup s c = some h → s.group? h = some g → g.pinned = false →
      exec (.drop mb) s = .next (((s.begin.unindex h).recheck h).complete c St.ok [])) ∧
  (∀ (s : State) (mb h : Nat) (c : MbCommand) (g : PageGroup), Due s mb 0x62 c → cf c 0 1 = 5 ∧ cf c 1 1 = 0 → namedGroup s c = some h → s.group? h = some g → g.pinned = true →
      exec (.drop mb) s = .next (s.begin.complete c St.ok [])) ∧
  (∀ (s : State) (mb : Nat) (c : MbCommand), Due s mb 0x62 c → cf c 0 1 = 1 ∧ cf c 1 1 = 0 → namedGroup s c = none →
      exec (.pin mb) s = .next (s.begin.complete c St.notFound [])) ∧
  (∀ (s : State) (mb : Nat) (c : MbCommand), Due s mb 0x62 c → cf c 0 1 = 2 ∧ cf c 1 1 = 0 → namedGroup s c = none →
      exec (.unpin mb) s = .next (s.begin.complete c St.notFound [])) ∧
  (∀ (s : State) (mb : Nat) (c : MbCommand), Due s mb 0x62 c → cf c 0 1 = 3 ∧ cf c 1 1 = 0 → namedGroup s c = none →
      exec (.promote mb) s = .next (s.begin.complete c St.notFound [])) ∧
  (∀ (s : State) (mb : Nat) (c : MbCommand), Due s mb 0x62 c → cf c 0 1 = 4 ∧ cf c 1 1 = 0 → namedGroup s c = none →
      exec (.demote mb) s = .next (s.begin.complete c St.notFound [])) ∧
  (∀ (s : State) (mb : Nat) (c : MbCommand), Due s mb 0x62 c → cf c 0 1 = 5 ∧ cf c 1 1 = 0 → namedGroup s c = none →
      exec (.drop mb) s = .next (s.begin.complete c St.notFound [])) ∧
  (∀ (s : State) (mb : Nat) (c : MbCommand) (r : Request), Due s mb 0x62 c → cf c 0 1 = 6 ∧ cf c 1 1 = 1 → s.req? (cf c 4 4) = some r → reqLive r.state = true ∧ r.admitTick % two32 = cf c 8 4 → r.state = .paused →
      
  exec (.parkNow mb) s = .next (((s.begin.modReq (cf c 4 4) (fun q => { q with timer := s.begin.nextEdge })).complete c St.ok []).settlePump)) ∧
  (∀ (s : State) (mb : Nat) (c : MbCommand) (r : Request), Due s mb 0x62 c → cf c 0 1 = 6 ∧ cf c 1 1 = 1 → s.req? (cf c 4 4) = some r → reqLive r.state = true ∧ r.admitTick % two32 = cf c 8 4 → r.state ≠ .paused →
      exec (.parkNow mb) s = .next ((s.begin.complete c St.badState []).settlePump)) ∧
  (∀ (s : State) (mb : Nat) (c : MbCommand), Due s mb 0x62 c → cf c 0 1 = 6 ∧ cf c 1 1 = 1 → (s.req? (cf c 4 4)).all (fun r => !(reqLive r.state && decide (r.admitTick % two32 = cf c 8 4))) = true →
      exec (.parkNow mb) s = .next ((s.begin.complete c St.reqClosed []).settlePump)) ∧
  (∀ (s u : State) (mb : Nat) (c : MbCommand) (l : List Nat) (r : Request), Due s mb 0x63 c → 1 ≤ cf c 8 4 ∧ cf c 8 4 ≤ 2097151 ∧ cf c 2 1 < 16 → (bit (cf c 4 2) 15 = true → s.variant ≠ .cb ∧ (currentGen s (cf c 4 2 % 4096) (cf c 2 1)).isSome = true) →
      u = s.begin.hostRead c.port (cf c 16 8) (4 * cf c 8 4) → r = { domain := cf c 0 2, modelSlot := cf c 2 1, alloyEn := bit (cf c 4 2) 15, alloyId := cf c 4 2 % 4096, alloyGen := ((currentGen s (cf c 4 2 % 4096) (cf c 2 1)).map (·.gen)).getD 0 } →
      
  exec (.prefixProbe mb (some l)) s = .next ((u.usePipe (digestsFormed u r (l.take (cf c 8 4)).length (admissionMatch u r (l.take (cf c 8 4))).length)).complete c St.ok (leBytes 4 (128 * (admissionMatch u r (l.take (cf c 8 4))).length)))) ∧
  (∀ (s : State) (mb : Nat) (c : MbCommand) (l : List Nat), Due s mb 0x63 c → 1 ≤ cf c 8 4 ∧ cf c 8 4 ≤ 2097151 ∧ cf c 2 1 < 16 → bit (cf c 4 2) 15 = true → s.variant ≠ .cb → currentGen s (cf c 4 2 % 4096) (cf c 2 1) = none →
      exec (.prefixProbe mb (some l)) s = .next (((s.begin.hostRead c.port (cf c 16 8) (4 * cf c 8 4)).usePipe 0).complete c St.ok (leBytes 4 0))) ∧
  (∀ (s : State) (mb : Nat) (c : MbCommand), Due s mb 0x63 c → 1 ≤ cf c 8 4 ∧ cf c 8 4 ≤ 2097151 ∧ cf c 2 1 < 16 → (bit (cf c 4 2) 15 = true → s.variant ≠ .cb) →
      exec (.prefixProbe mb none) s = .next (s.begin.complete c St.badAddress [])) ∧
  (∀ (s : State) (mb : Nat) (c : MbCommand) (l : Option (List Nat)), Due s mb 0x63 c → 1 ≤ cf c 8 4 ∧ cf c 8 4 ≤ 2097151 ∧ cf c 2 1 < 16 → bit (cf c 4 2) 15 = true → s.variant = .cb →
      exec (.prefixProbe mb l) s = .next (s.begin.complete c St.unsupportedUnit [])) ∧
  (∀ (s : State) (mb : Nat) (c : MbCommand) (l : Option (List Nat)), Due s mb 0x63 c → ¬(1 ≤ cf c 8 4 ∧ cf c 8 4 ≤ 2097151 ∧ cf c 2 1 < 16) →
      exec (.prefixProbe mb l) s = .next (s.begin.complete c St.badArgument []))

/-- In a commit window: a DEMOTING group whose transfer has been served over an execute window and holds its TIER blocks, and whose
tier-2 place holds, is PARKED there with its frames and manifest written, its tier-1 granules go to fill and it is judged again;
a demotion that fails returns the group to RESIDENT, counted, and judges it there; a promotion whose granules all agree makes
the group RESIDENT, and one whose copy disagrees or whose read fails is counted, and the group is rebuilt, or closes its owner
with FAULT_TIER2 where that owner does not allow recomputation. In an execute window: a published group's sidecars are rewritten
and it is marked so; a fill that has ended clears its rows to zero, returns its granules to tier 1 and, for a FREEING group
without references, frees the handle. In other states these change nothing (the model's reading, log 7). -/
def Obligations.PageGroupsMove : Prop :=
  (∀ (s : State) (h a : Nat) (g : PageGroup), s.tick.inCommit = true → s.group? h = some g → g.state = .demoting → t2PlaceOk s h g a g.t2Granules = true → moveDone s 3 h = true → transitHeld s h = true →
      
  exec (.demotionComplete h a) s = .next (((((((s.endTransfer 3 h).translateTier a (2048 * g.t2Granules)).onTier (fun t => { t with t2Writes := t.t2Writes ++ [(a, parkedCopy s g)] })).addFillAt g.frameGranules (some g.charge) g.fillTenant none none
    (frameSpans (groupModel s g.modelSlot g.draft) g)).modGroup h (fun g => { g with state := .parked, t2Addr := a, frames := [], fillTenant := none })).recheck h))) ∧
  (∀ (s : State) (h a : Nat) (g : PageGroup), s.group? h = some g → s.tick.inCommit = false ∨ g.state ≠ .demoting ∨ moveDone s 3 h = false ∨ transitHeld s h = false →
      exec (.demotionComplete h a) s = .next s) ∧
  (∀ (s : State) (h : Nat) (g : PageGroup), s.tick.inCommit = true → s.group? h = some g → g.state = .demoting →
      
  exec (.demotionFail h) s = .next (((((s.releaseT2 h).modGroup h (fun g => { g with state := .resident, fillTenant := none })).endTransfer 3 h).onTier (fun t => { t with evFailures := t.evFailures + 1 })).recheck h)) ∧
  (∀ (s : State) (h : Nat) (g : PageGroup), s.group? h = some g → s.tick.inCommit = false ∨ g.state ≠ .demoting →
      exec (.demotionFail h) s = .next s) ∧
  (∀ (s : State) (h : Nat) (g : PageGroup) (d : List (BitVec 8)), s.tick.inCommit = true → s.group? h = some g → g.state = .promoting → g.rebuild = false ∧ g.readLost = false → moveDone s 0 h = true ∧ transitHeld s h = true → copyOk (groupModel s g.modelSlot g.draft) g.frameGranules d = true →
      
  exec (.promotionComplete h d) s = .next (((((((s.translateTier g.t2Addr (2048 * g.t2Granules)).onMem (writeSpans (frameSpans (groupModel s g.modelSlot g.draft) g) d)).releaseT2 h).modGroup h (fun g => { g with state := .resident, rebuild := false })).endTransfer 0 h).recheck h))) ∧
  (∀ (s : State) (h : Nat) (g : PageGroup) (d : List (BitVec 8)), s.tick.inCommit = true → s.group? h = some g → g.state = .promoting → g.rebuild = false ∧ g.readLost = false → moveDone s 0 h = true ∧ transitHeld s h = true → copyOk (groupModel s g.modelSlot g.draft) g.frameGranules d = false →
      
  exec (.promotionComplete h d) s = .next ((s.translateTier g.t2Addr (2048 * g.t2Granules)).readFailed h)) ∧
  (∀ (s : State) (h : Nat) (g : PageGroup), s.tick.inCommit = true → s.group? h = some g → g.state = .promoting → g.rebuild = false ∧ g.readLost = false → g.owner = none →
      
  exec (.tier2ReadFail h) s = .next ((((s.endTransfer 0 h).onTier (fun t => { t with evFailures := t.evFailures + 1 })).setRebuild h).recheck h)) ∧
  (∀ (s : State) (h n : Nat) (g : PageGroup) (r : Request), s.tick.inCommit = true → s.group? h = some g → g.state = .promoting → g.rebuild = false ∧ g.readLost = false → g.owner = some n → s.req? n = some r →
      
  exec (.tier2ReadFail h) s = .next (if r.flags.recomputeOk then ((s.endTransfer 0 h).onTier (fun t => { t with evFailures := t.evFailures + 1 })).setRebuild h else (((s.endTransfer 0 h).onTier (fun t => { t with evFailures := t.evFailures + 1 })).modGroup h (fun g => { g with readLost := true })).closeSoon n St.faultTier2)) ∧
  (∀ (s : State) (h : Nat) (g : PageGroup) (d : List (BitVec 8)), s.group? h = some g → s.tick.inCommit = false ∨ g.state ≠ .promoting ∨ g.rebuild = true ∨ g.readLost = true →
      exec (.promotionComplete h d) s = .next s ∧ exec (.tier2ReadFail h) s = .next s) ∧
  (∀ (s : State) (h k : Nat) (g : PageGroup), s.tick.running = true → s.tick.inCommit = false → s.group? h = some g → g.markTick = some k → k < s.tick.index → s.tier.publish.contains h = true →
      
  exec (.publishRewriteDone h) s = .next ((s.onMem (rewriteSidecars g)).modGroup h (fun g => { g with rewritten := true }))) ∧
  (∀ (s : State) (n : Nat) (f : PendingFill), s.tick.running = true → s.tick.inCommit = false → s.tier.fills[n]? = some f → f.endsAt ≤ s.tick.index → f.group = none →
      
  exec (.granuleFillDone n) s = .next ((s.onMem (fun m => f.spans.foldl (fun m (x : Nat × Nat × Nat) => m.clear (granAddr x.1 x.2.1 0) (2048 * x.2.2)) m)).onTier
    (fun t => { t with fills := t.fills.eraseIdx n, t1Free := t.t1Free + f.granules, used1 := match f.tenant with | none => t.used1 | some n => chargeSub n f.granules t.used1 }))) ∧
  (∀ (s : State) (n h : Nat) (f : PendingFill) (g : PageGroup), s.tick.running = true → s.tick.inCommit = false → s.tier.fills[n]? = some f → f.endsAt ≤ s.tick.index → f.group = some h → s.group? h = some g → g.state = .freeing ∧ g.refs = 0 →
      
  exec (.granuleFillDone n) s = .next ((s.onMem (fun m => f.spans.foldl (fun m (x : Nat × Nat × Nat) => m.clear (granAddr x.1 x.2.1 0) (2048 * x.2.2)) m)).onTier
    (fun t => { t with fills := t.fills.eraseIdx n, t1Free := t.t1Free + f.granules, used1 := match f.tenant with | none => t.used1 | some n => chargeSub n f.granules t.used1
                       groups := tabDel h t.groups, incarnations := tabPut h g.incarnation t.incarnations })))

/-- MODEL_LOAD that names a free slot or asks for any, with its image placed in a fixed region, starts; an address out of place
completes BAD_ADDRESS, a slot in use BUSY, a slot number out of range BAD_ARGUMENT. MODEL_HEADER_READ_DONE, before a window's
events, completes FAULT_TIER2 for a read that failed and the status of the first check of Table 12-4 that fails; where all hold
the slot becomes LOADING where there is space, NO_SPACE otherwise, and with no free slot the least recently used unpinned and
unbound one is evicted first, BUSY where there is none. MODEL_LOAD_COMPLETE, before the events of its window (R289), of a
LOADING slot whose transfer has been served, whose sections pass and whose ingots have places, writes the image in place, makes
the slot RESIDENT, and completes its MODEL_LOAD with the slot and fingerprint; a section that fails ends the load with its
status. MODEL_EVICT starts evicting a RESIDENT slot that is not pinned, closing with MODEL_EVICTED the requests bound to it
where it forces; one that is bound and does not force completes BUSY, a pinned or EMPTY one BAD_STATE; of an EVICTING slot the
command waits with the first, and of a LOADING one it cancels the load. MODEL_SLOT_EMPTY makes a slot with nothing left EMPTY
and completes the MODEL_EVICT commands that wait. MODEL_PIN and MODEL_UNPIN change the pins of the next configuration, BAD_STATE
for an EMPTY slot; MODEL_RELEASE takes a slot out of quarantine, BAD_STATE for one that is in none. -/
def Obligations.ModelSlots : Prop :=
  (∀ (s : State) (mb : Nat) (c : MbCommand), Due s mb 0x70 c → cf c 0 1 < 16 ∨ cf c 0 1 = 255 → imgPlaced s (cf c 8 8) 64 = true → cf c 0 1 = 255 ∨ (s.mslot (cf c 0 1)).state = .empty →
      exec (.modelLoad mb) s = .next (s.begin.setCmd { c with phase := 1 })) ∧
  (∀ (s : State) (mb : Nat) (c : MbCommand), Due s mb 0x70 c → cf c 0 1 < 16 ∨ cf c 0 1 = 255 → imgPlaced s (cf c 8 8) 64 = false →
      exec (.modelLoad mb) s = .next (s.begin.complete c St.badAddress [])) ∧
  (∀ (s : State) (mb : Nat) (c : MbCommand), Due s mb 0x70 c → cf c 0 1 < 16 → imgPlaced s (cf c 8 8) 64 = true → (s.mslot (cf c 0 1)).state ≠ .empty →
      exec (.modelLoad mb) s = .next (s.begin.complete c St.busy [])) ∧
  (∀ (s : State) (mb : Nat) (c : MbCommand), Due s mb 0x70 c → 16 ≤ cf c 0 1 ∧ cf c 0 1 ≠ 255 →
      exec (.modelLoad mb) s = .next (s.begin.complete c St.badArgument [])) ∧
  (∀ (s : State) (mb : Nat) (c : MbCommand) (r : HeaderRead), s.cmdAt mb [0x70] = some c → settlesLong s = true ∧ s.sceolUp = true → c.phase = 1 → r.fail = true →
      exec (.modelHeaderReadDone mb r) s = .next (s.complete c St.faultTier2 [])) ∧
  (∀ (s u : State) (mb : Nat) (c : MbCommand) (r : HeaderRead), s.cmdAt mb [0x70] = some c → settlesLong s = true ∧ s.sceolUp = true → c.phase = 1 → r.fail = false → u = s.translateTier (cf c 8 8) r.bytes.length → imgStatus u (cf c 8 8) r.bytes ≠ St.ok →
      exec (.modelHeaderReadDone mb r) s = .next (u.complete c (imgStatus u (cf c 8 8) r.bytes) [])) ∧
  (∀ (s u : State) (mb n : Nat) (c : MbCommand) (r : HeaderRead) (i : ModelInfo), s.cmdAt mb [0x70] = some c → settlesLong s = true ∧ s.sceolUp = true → c.phase = 1 → r.fail = false → u = s.translateTier (cf c 8 8) r.bytes.length → imgStatus u (cf c 8 8) r.bytes = St.ok → (cf c 0 1 = n ∧ n ≠ 255 ∧ (u.mslot n).state = .empty) ∨ (cf c 0 1 = 255 ∧ (List.range 16).find? (fun k => (u.mslot k).state = .empty && (u.mslot k).loadNext.isNone) = some n) → i = imgInfo (cf c 8 8) r.bytes → i.granules + rf u.regs.tmCtl 15 0 * 512 ≤ u.tier.t1Free →
      
  exec (.modelHeaderReadDone mb r) s = .next ((((u.onTier (fun t => { t with t1Free := t.t1Free - i.granules })).beginMove 1 n 0 0 i.length).modMslot n (fun _ => { state := .loading, info := i, loadMb := some mb })).setCmd { c with phase := 2, aux := n })) ∧
  (∀ (s u : State) (mb n : Nat) (c : MbCommand) (r : HeaderRead) (i : ModelInfo), s.cmdAt mb [0x70] = some c → settlesLong s = true ∧ s.sceolUp = true → c.phase = 1 → r.fail = false → u = s.translateTier (cf c 8 8) r.bytes.length → imgStatus u (cf c 8 8) r.bytes = St.ok → (cf c 0 1 = n ∧ n ≠ 255 ∧ (u.mslot n).state = .empty) ∨ (cf c 0 1 = 255 ∧ (List.range 16).find? (fun k => (u.mslot k).state = .empty && (u.mslot k).loadNext.isNone) = some n) → i = imgInfo (cf c 8 8) r.bytes → u.tier.t1Free < i.granules + rf u.regs.tmCtl 15 0 * 512 →
      
  exec (.modelHeaderReadDone mb r) s = .next (((u.reclaimAny (i.granules + rf u.regs.tmCtl 15 0 * 512 - u.tier.t1Free)).refuse).complete c St.noSpace [])) ∧
  (∀ (s u : State) (mb : Nat) (c : MbCommand) (r : HeaderRead), s.cmdAt mb [0x70] = some c → settlesLong s = true ∧ s.sceolUp = true → c.phase = 1 → r.fail = false → u = s.translateTier (cf c 8 8) r.bytes.length → imgStatus u (cf c 8 8) r.bytes = St.ok → cf c 0 1 ≠ 255 → (u.mslot (cf c 0 1)).state ≠ .empty →
      exec (.modelHeaderReadDone mb r) s = .next (u.complete c St.busy [])) ∧
  (∀ (s u : State) (mb k : Nat) (c : MbCommand) (r : HeaderRead), s.cmdAt mb [0x70] = some c → settlesLong s = true ∧ s.sceolUp = true → c.phase = 1 → r.fail = false → u = s.translateTier (cf c 8 8) r.bytes.length → imgStatus u (cf c 8 8) r.bytes = St.ok → cf c 0 1 = 255 → (List.range 16).find? (fun k => (u.mslot k).state = .empty && (u.mslot k).loadNext.isNone) = none → loadVictim u = some k →
      
  exec (.modelHeaderReadDone mb r) s = .next (((u.startEvict k).modMslot k (fun m => { m with loadNext := some (mb, imgInfo (cf c 8 8) r.bytes) })).setCmd { c with phase := 2, aux := k })) ∧
  (∀ (s u : State) (mb : Nat) (c : MbCommand) (r : HeaderRead), s.cmdAt mb [0x70] = some c → settlesLong s = true ∧ s.sceolUp = true → c.phase = 1 → r.fail = false → u = s.translateTier (cf c 8 8) r.bytes.length → imgStatus u (cf c 8 8) r.bytes = St.ok → cf c 0 1 = 255 → (List.range 16).find? (fun k => (u.mslot k).state = .empty && (u.mslot k).loadNext.isNone) = none → loadVictim u = none →
      
  exec (.modelHeaderReadDone mb r) s = .next (u.complete c St.busy [])) ∧
  (∀ (s : State) (n : Nat) (r : ModelRead) (m : ModelSlot) (q : ImgPlaced), m = s.mslot n → settlesLong s = true ∧ s.sceolUp = true → m.state = .loading → moveDone s 1 n = true → loadStatus s m.info r = St.ok → placeImage s m.info r.image = some q → m.loadMb = none →
      
  exec (.modelLoadComplete n r) s = .next ((((((s.translateTier m.info.addr m.info.length).endMove 1 n).draw).onMem (placePieces q.pieces)).modMslot n (fun m => { m with state := .resident, lastUse := s.tick.index, info := loadedInfo m.info r.image q, golden := q.pieces, loadMb := none })).count (fun c => { c with conv := c.conv.filter (fun x => x.slot ≠ n) }))) ∧
  (∀ (s : State) (n mb : Nat) (c : MbCommand) (r : ModelRead) (m : ModelSlot) (q : ImgPlaced), m = s.mslot n → settlesLong s = true ∧ s.sceolUp = true → m.state = .loading → moveDone s 1 n = true → loadStatus s m.info r = St.ok → placeImage s m.info r.image = some q → m.loadMb = some mb → s.cmdAt mb [0x70] = some c →
      
  exec (.modelLoadComplete n r) s = .next (((((((s.translateTier m.info.addr m.info.length).endMove 1 n).draw).onMem (placePieces q.pieces)).modMslot n (fun m => { m with state := .resident, lastUse := s.tick.index, info := loadedInfo m.info r.image q, golden := q.pieces, loadMb := none })).count (fun c => { c with conv := c.conv.filter (fun x => x.slot ≠ n) })).complete c St.ok (leBytes 8 n ++ leBytes 32 m.info.fp.toNat))) ∧
  (∀ (s : State) (n : Nat) (r : ModelRead) (m : ModelSlot), m = s.mslot n → settlesLong s = true ∧ s.sceolUp = true → m.state = .loading → r.fail = true ∨ moveDone s 1 n = true → loadStatus s m.info r ≠ St.ok →
      exec (.modelLoadComplete n r) s = .next (s.failLoad n (loadStatus s m.info r))) ∧
  (∀ (s u : State) (mb : Nat) (c : MbCommand) (m : ModelSlot), Due s mb 0x71 c → cf c 0 1 < 16 → m = s.mslot (cf c 0 1) → m.state = .resident → m.pinned = false → bit (cf c 1 1) 0 = true ∨ boundTo s (cf c 0 1) = false → u = (s.begin.modMslot (cf c 0 1) (fun m => { m with evictMbs := m.evictMbs ++ [mb] })).setCmd { c with phase := 1, aux := cf c 0 1 } →
      
  exec (.modelEvict mb) s = .next (((((s.begin.req.table.filter (fun p => p.2.modelSlot = cf c 0 1 && reqLive p.2.state)).map (·.1)).foldl (fun t k => t.closeReq k St.modelEvicted 0) u).startEvict (cf c 0 1)).settlePump)) ∧
  (∀ (s : State) (mb : Nat) (c : MbCommand) (m : ModelSlot), Due s mb 0x71 c → cf c 0 1 < 16 → m = s.mslot (cf c 0 1) → m.state = .resident → m.pinned = false → bit (cf c 1 1) 0 = false → boundTo s (cf c 0 1) = true →
      exec (.modelEvict mb) s = .next ((s.begin.complete c St.busy []).settlePump)) ∧
  (∀ (s : State) (mb : Nat) (c : MbCommand) (m : ModelSlot), Due s mb 0x71 c → cf c 0 1 < 16 → m = s.mslot (cf c 0 1) → m.state = .evicting →
      
  exec (.modelEvict mb) s = .next (((s.begin.modMslot (cf c 0 1) (fun m => { m with evictMbs := m.evictMbs ++ [mb] })).setCmd { c with phase := 1, aux := cf c 0 1 }).settlePump)) ∧
  (∀ (s : State) (mb : Nat) (c : MbCommand) (m : ModelSlot), Due s mb 0x71 c → cf c 0 1 < 16 → m = s.mslot (cf c 0 1) → m.state = .loading ∧ m.pinned = false →
      
  exec (.modelEvict mb) s = .next ((((s.begin.modMslot (cf c 0 1) (fun m => { m with evictMbs := m.evictMbs ++ [mb] })).setCmd { c with phase := 1, aux := cf c 0 1 }).failLoad (cf c 0 1) St.cancelled).settlePump)) ∧
  (∀ (s : State) (mb : Nat) (c : MbCommand) (m : ModelSlot), Due s mb 0x71 c → cf c 0 1 < 16 → m = s.mslot (cf c 0 1) → m.state = .empty ∨ (m.state = .resident ∧ m.pinned = true) →
      exec (.modelEvict mb) s = .next ((s.begin.complete c St.badState []).settlePump)) ∧
  (∀ (s : State) (n : Nat) (m : ModelSlot), m = s.mslot n → settlesLong s = true ∧ s.sceolUp = true → m.state = .evicting ∨ m.state = .broken → m.info.granules = 0 → s.tier.fills.any (fun f => f.slotOf = some n) = false → m.loadNext = none →
      
  exec (.modelSlotEmpty n) s = .next (m.evictMbs.foldl (fun t mb => match t.cmdAt mb [0x71] with | none => t | some c => t.complete c St.ok [])
    ((((s.modMslot n (fun _ => {})).onPlan (fun p => { p with quar := setDel n p.quar, faultRun := tabDel n p.faultRun, repairing := setDel n p.repairing })).onCfg (fun g => { g with pins := setDel n g.pins })).onCfgNext (fun g => { g with pins := setDel n g.pins })))) ∧
  (∀ (s : State) (n x : Nat) (m : ModelSlot) (i : ModelInfo), m = s.mslot n → settlesLong s = true ∧ s.sceolUp = true → m.state = .evicting ∨ m.state = .broken → m.info.granules = 0 → s.tier.fills.any (fun f => f.slotOf = some n) = false → m.loadNext = some (x, i) →
      
  exec (.modelSlotEmpty n) s = .next ((m.evictMbs.foldl (fun t mb => match t.cmdAt mb [0x71] with | none => t | some c => t.complete c St.ok [])
    ((((s.modMslot n (fun _ => {})).onPlan (fun p => { p with quar := setDel n p.quar, faultRun := tabDel n p.faultRun, repairing := setDel n p.repairing })).onCfg (fun g => { g with pins := setDel n g.pins })).onCfgNext (fun g => { g with pins := setDel n g.pins }))).loadInto n x i)) ∧
  (∀ (s : State) (mb : Nat) (c : MbCommand), Asked s mb 0x72 c → cf c 0 1 < 16 → (s.mslot (cf c 0 1)).state ≠ .empty →
      exec (.modelPin mb) s = .next ((s.onCfgNext (fun g => { g with pins := setAdd (cf c 0 1) g.pins })).complete c St.ok [])) ∧
  (∀ (s : State) (mb : Nat) (c : MbCommand), Asked s mb 0x73 c → cf c 0 1 < 16 → (s.mslot (cf c 0 1)).state ≠ .empty →
      exec (.modelUnpin mb) s = .next ((s.onCfgNext (fun g => { g with pins := setDel (cf c 0 1) g.pins })).complete c St.ok [])) ∧
  (∀ (s : State) (mb : Nat) (c : MbCommand), Asked s mb 0x74 c → cf c 0 1 < 16 → s.plan.quar.contains (cf c 0 1) = true →
      exec (.modelRelease mb) s = .next ((s.onPlan (fun p => { p with quar := setDel (cf c 0 1) p.quar, faultRun := tabDel (cf c 0 1) p.faultRun, released := if s.tick.inCommit then setAdd (cf c 0 1) p.released else p.released })).complete c St.ok [])) ∧
  (∀ (s : State) (mb : Nat) (c : MbCommand), Asked s mb 0x72 c → cf c 0 1 < 16 → (s.mslot (cf c 0 1)).state = .empty →
      exec (.modelPin mb) s = .next (s.complete c St.badState [])) ∧
  (∀ (s : State) (mb : Nat) (c : MbCommand), Asked s mb 0x73 c → cf c 0 1 < 16 → (s.mslot (cf c 0 1)).state = .empty →
      exec (.modelUnpin mb) s = .next (s.complete c St.badState [])) ∧
  (∀ (s : State) (mb : Nat) (c : MbCommand), Asked s mb 0x74 c → cf c 0 1 < 16 → s.plan.quar.contains (cf c 0 1) = false →
      exec (.modelRelease mb) s = .next (s.complete c St.badState []))

/-- ALLOY_LOAD on a device with Alloy units, of an id below 4,096 that has no generation on another model slot, into a RESIDENT slot
whose image takes Alloys, with its image placed and its factors under the ceiling and placed, adds a LOADING generation with the
id's next number, takes its granules and begins its transfer, having freed the older of two live generations that nothing
references; where that one is referenced or still LOADING it completes BUSY_GENERATION; without Alloy units it completes
UNSUPPORTED_UNIT, into a slot that is not RESIDENT MODEL_NOT_RESIDENT, with an id or slot out of range, an image that takes
none, or a generation elsewhere BAD_ARGUMENT, with an image out of place BAD_ADDRESS, and without room or place NO_SPACE.
ALLOY_GEN_RESIDENT, before a window's events, of a LOADING generation whose transfer has been served and whose image passes
makes it RESIDENT with its header's fields, writes its factors, and completes its ALLOY_LOAD with its number; one that fails is
freed with the status. ALLOY_RETIRE completes UNSUPPORTED_UNIT without Alloy units; of a live generation it frees it where no
request is bound to it and else leaves it RETIRING, and completes OK; of another it completes NOT_FOUND. -/
def Obligations.AlloyGenerations : Prop :=
  (∀ (s : State) (mb : Nat) (c : MbCommand) (r : AlloyRead), Due s mb 0x75 c → s.variant = .cb →
      exec (.alloyLoad mb r) s = .next (s.begin.complete c St.unsupportedUnit [])) ∧
  (∀ (s : State) (mb : Nat) (c : MbCommand) (r : AlloyRead), Due s mb 0x75 c → s.variant ≠ .cb → 4096 ≤ cf c 0 2 ∨ 16 ≤ cf c 2 1 →
      exec (.alloyLoad mb r) s = .next (s.begin.complete c St.badArgument [])) ∧
  (∀ (s : State) (mb : Nat) (c : MbCommand) (r : AlloyRead), Due s mb 0x75 c → s.variant ≠ .cb → cf c 0 2 < 4096 ∧ cf c 2 1 < 16 → (s.mslot (cf c 2 1)).state ≠ .resident →
      exec (.alloyLoad mb r) s = .next (s.begin.complete c St.modelNotResident [])) ∧
  (∀ (s : State) (mb : Nat) (c : MbCommand) (r : AlloyRead), Due s mb 0x75 c → s.variant ≠ .cb → cf c 0 2 < 4096 ∧ cf c 2 1 < 16 → (s.mslot (cf c 2 1)).state = .resident → (s.mslot (cf c 2 1)).info.alloyShapes = false ∨ (liveGens s (cf c 0 2)).all (fun g => g.modelSlot = cf c 2 1) = false →
      exec (.alloyLoad mb r) s = .next (s.begin.complete c St.badArgument [])) ∧
  (∀ (s : State) (mb : Nat) (c : MbCommand) (r : AlloyRead) (i : ModelInfo) (g : AlloyGen), Due s mb 0x75 c → s.variant ≠ .cb → cf c 0 2 < 4096 ∧ cf c 2 1 < 16 → (s.mslot (cf c 2 1)).state = .resident → i = (s.mslot (cf c 2 1)).info ∧ i.alloyShapes = true ∧ (liveGens s (cf c 0 2)).all (fun g => g.modelSlot = cf c 2 1) = true → 2 ≤ (liveGens s (cf c 0 2)).length ∧ (liveGens s (cf c 0 2)).head? = some g → g.state = .loading ∨ genRefs s (cf c 0 2) g.gen ≠ 0 →
      exec (.alloyLoad mb r) s = .next (s.begin.complete c St.busyGeneration [])) ∧
  (∀ (s u : State) (mb : Nat) (c : MbCommand) (r : AlloyRead) (i : ModelInfo), Due s mb 0x75 c → s.variant ≠ .cb → cf c 0 2 < 4096 ∧ cf c 2 1 < 16 → (s.mslot (cf c 2 1)).state = .resident → i = (s.mslot (cf c 2 1)).info ∧ i.alloyShapes = true ∧ (liveGens s (cf c 0 2)).all (fun g => g.modelSlot = cf c 2 1) = true → (liveGens s (cf c 0 2)).length < 2 ∨ (liveGens s (cf c 0 2)).head?.any (fun g => g.state ≠ .loading && genRefs s (cf c 0 2) g.gen = 0) = true → imgPlaced s (cf c 8 8) 256 = false →
      exec (.alloyLoad mb r) s = .next (s.begin.complete c St.badAddress [])) ∧
  (∀ (s u : State) (mb : Nat) (c : MbCommand) (r : AlloyRead) (i : ModelInfo) (q : List (Nat × Nat × Nat × Nat × Nat)) (g : AlloyGen), Due s mb 0x75 c → s.variant ≠ .cb → cf c 0 2 < 4096 ∧ cf c 2 1 < 16 → (s.mslot (cf c 2 1)).state = .resident → i = (s.mslot (cf c 2 1)).info ∧ i.alloyShapes = true ∧ (liveGens s (cf c 0 2)).all (fun g => g.modelSlot = cf c 2 1) = true → (liveGens s (cf c 0 2)).length < 2 → u = s.begin → imgPlaced s (cf c 8 8) 256 = true → alloyFits u (factorsPer u i r.image) = true → sumN (factorsPer u i r.image) ≤ u.tier.t1Free → placeFactors u i r.image = some q → g = newGen u (cf c 0 2) (cf c 2 1) (cf c 8 8) r.image q →
      
  exec (.alloyLoad mb r) s = .next (((((u.draw).onModels (fun m => { m with gens := m.gens ++ [g], accepted := m.accepted + 1 })).onTier (fun t => { t with t1Free := t.t1Free - g.granules })).beginMove 2 (g.gen * 4096 + cf c 0 2) 0 0 (alloyLength i r.image)).setCmd { c with phase := 1, aux := g.gen * 4096 + cf c 0 2 })) ∧
  (∀ (s u : State) (mb : Nat) (c : MbCommand) (r : AlloyRead) (i : ModelInfo) (q : List (Nat × Nat × Nat × Nat × Nat)) (g o : AlloyGen), Due s mb 0x75 c → s.variant ≠ .cb → cf c 0 2 < 4096 ∧ cf c 2 1 < 16 → (s.mslot (cf c 2 1)).state = .resident → i = (s.mslot (cf c 2 1)).info ∧ i.alloyShapes = true ∧ (liveGens s (cf c 0 2)).all (fun g => g.modelSlot = cf c 2 1) = true → 2 ≤ (liveGens s (cf c 0 2)).length ∧ (liveGens s (cf c 0 2)).head? = some o → o.state ≠ .loading ∧ genRefs s (cf c 0 2) o.gen = 0 → u = s.begin.freeGen (cf c 0 2) o.gen none St.cancelled → imgPlaced s (cf c 8 8) 256 = true → alloyFits u (factorsPer u i r.image) = true → sumN (factorsPer u i r.image) ≤ u.tier.t1Free → placeFactors u i r.image = some q → g = newGen u (cf c 0 2) (cf c 2 1) (cf c 8 8) r.image q →
      
  exec (.alloyLoad mb r) s = .next (((((u.draw).onModels (fun m => { m with gens := m.gens ++ [g], accepted := m.accepted + 1 })).onTier (fun t => { t with t1Free := t.t1Free - g.granules })).beginMove 2 (g.gen * 4096 + cf c 0 2) 0 0 (alloyLength i r.image)).setCmd { c with phase := 1, aux := g.gen * 4096 + cf c 0 2 })) ∧
  (∀ (s u : State) (mb : Nat) (c : MbCommand) (r : AlloyRead) (i : ModelInfo), Due s mb 0x75 c → s.variant ≠ .cb → cf c 0 2 < 4096 ∧ cf c 2 1 < 16 → (s.mslot (cf c 2 1)).state = .resident → i = (s.mslot (cf c 2 1)).info ∧ i.alloyShapes = true ∧ (liveGens s (cf c 0 2)).all (fun g => g.modelSlot = cf c 2 1) = true → (liveGens s (cf c 0 2)).length < 2 → u = s.begin → imgPlaced s (cf c 8 8) 256 = true → (alloyFits u (factorsPer u i r.image) = false ∨ u.tier.t1Free < sumN (factorsPer u i r.image)) ∨ placeFactors u i r.image = none →
      
  exec (.alloyLoad mb r) s = .next (u.refuse.complete c St.noSpace [])) ∧
  (∀ (s : State) (id gen : Nat) (r : AlloyRead) (g : AlloyGen), s.models.gens.find? (fun g => g.id = id && g.gen = gen) = some g → settlesLong s = true ∧ s.sceolUp = true → moveDone s 2 (gen * 4096 + id) = true → g.state = .loading → alloyStatus s (s.mslot g.modelSlot).info g.addr r = St.ok → alloyCmd s id gen = none →
      
  exec (.alloyGenResident id gen r) s = .next ((((s.endMove 2 (gen * 4096 + id)).translateTier g.addr (alloyLength (s.mslot g.modelSlot).info r.image)).onMem (placePieces (factorPieces (s.mslot g.modelSlot).info g r.image))).onModels (fun m => { m with gens := m.gens.map (fun (x : AlloyGen) => if x.id = id && x.gen = gen then residentGen g (s.mslot g.modelSlot).info r.image else x), lastGen := noteGen g m.lastGen }))) ∧
  (∀ (s : State) (id gen : Nat) (r : AlloyRead) (g : AlloyGen) (c : MbCommand), s.models.gens.find? (fun g => g.id = id && g.gen = gen) = some g → settlesLong s = true ∧ s.sceolUp = true → moveDone s 2 (gen * 4096 + id) = true → g.state = .loading → alloyStatus s (s.mslot g.modelSlot).info g.addr r = St.ok → alloyCmd s id gen = some c →
      
  exec (.alloyGenResident id gen r) s = .next (((((s.endMove 2 (gen * 4096 + id)).translateTier g.addr (alloyLength (s.mslot g.modelSlot).info r.image)).onMem (placePieces (factorPieces (s.mslot g.modelSlot).info g r.image))).onModels (fun m => { m with gens := m.gens.map (fun (x : AlloyGen) => if x.id = id && x.gen = gen then residentGen g (s.mslot g.modelSlot).info r.image else x), lastGen := noteGen g m.lastGen })).complete c St.ok (leBytes 1 gen))) ∧
  (∀ (s : State) (id gen : Nat) (r : AlloyRead) (g : AlloyGen), s.models.gens.find? (fun g => g.id = id && g.gen = gen) = some g → settlesLong s = true ∧ s.sceolUp = true → r.fail = true ∨ moveDone s 2 (gen * 4096 + id) = true → g.state = .loading → alloyStatus s (s.mslot g.modelSlot).info g.addr r ≠ St.ok →
      exec (.alloyGenResident id gen r) s = .next (s.freeGen id gen none (alloyStatus s (s.mslot g.modelSlot).info g.addr r))) ∧
  (∀ (s : State) (mb : Nat) (c : MbCommand), Due s mb 0x76 c → s.variant = .cb →
      exec (.alloyRetire mb) s = .next (s.begin.complete c St.unsupportedUnit [])) ∧
  (∀ (s : State) (mb : Nat) (c : MbCommand), Due s mb 0x76 c → s.variant ≠ .cb → genLive s (cf c 0 2) (cf c 2 1) = true → genRefs s (cf c 0 2) (cf c 2 1) = 0 →
      exec (.alloyRetire mb) s = .next ((s.begin.freeGen (cf c 0 2) (cf c 2 1) none St.cancelled).complete c St.ok [])) ∧
  (∀ (s : State) (mb : Nat) (c : MbCommand), Due s mb 0x76 c → s.variant ≠ .cb → genLive s (cf c 0 2) (cf c 2 1) = true → genRefs s (cf c 0 2) (cf c 2 1) ≠ 0 →
      
  exec (.alloyRetire mb) s = .next ((s.begin.onModels (fun m => { m with gens := m.gens.map (fun (g : AlloyGen) => if g.id = cf c 0 2 && g.gen = cf c 2 1 then { g with state := .retiring } else g) })).complete c St.ok [])) ∧
  (∀ (s : State) (mb : Nat) (c : MbCommand), Due s mb 0x76 c → s.variant ≠ .cb → genLive s (cf c 0 2) (cf c 2 1) = false →
      exec (.alloyRetire mb) s = .next (s.begin.complete c St.notFound []))

/-- A DEVICE_STATE that asks for the current state completes OK and changes nothing else. From READY or MAINTENANCE it reaches
SERVING (DEGRADED where a part is marked failed), from READY MAINTENANCE and from MAINTENANCE READY; from SERVING or DEGRADED it
reaches READY or MAINTENANCE where every request is FREE, and completes BUSY otherwise. Every other transition completes
BAD_STATE. -/
def Obligations.DeviceStateAndReset : Prop :=
  (∀ (s : State) (mb : Nat) (c : MbCommand), Due s mb 0x02 c → cf c 0 1 = devCode s.start.state →
      exec (.deviceState mb) s = .next (s.begin.complete c St.ok (leBytes 1 (devCode s.begin.start.state)))) ∧
  (∀ (s : State) (mb : Nat) (c : MbCommand), Due s mb 0x02 c → s.start.state = .ready ∨ s.start.state = .maintenance → cf c 0 1 = 4 → degraded s = false →
      exec (.deviceState mb) s = .next (((s.begin.onStart (fun x => { x with state := .serving })).onTick (fun k => { k with everServing := true })).complete c St.ok (leBytes 1 4))) ∧
  (∀ (s : State) (mb : Nat) (c : MbCommand), Due s mb 0x02 c → s.start.state = .ready ∨ s.start.state = .maintenance → cf c 0 1 = 4 → degraded s = true →
      exec (.deviceState mb) s = .next ((s.begin.onStart (fun x => { x with state := .degraded })).complete c St.ok (leBytes 1 5))) ∧
  (∀ (s : State) (mb : Nat) (c : MbCommand), Due s mb 0x02 c → s.start.state = .ready → cf c 0 1 = 6 →
      exec (.deviceState mb) s = .next ((s.begin.onStart (fun x => { x with state := .maintenance })).complete c St.ok (leBytes 1 6))) ∧
  (∀ (s : State) (mb : Nat) (c : MbCommand), Due s mb 0x02 c → s.start.state = .maintenance → cf c 0 1 = 3 →
      exec (.deviceState mb) s = .next (s.begin.enterReady.complete c St.ok (leBytes 1 3))) ∧
  (∀ (s : State) (mb : Nat) (c : MbCommand), Due s mb 0x02 c → s.start.state = .serving ∨ s.start.state = .degraded → cf c 0 1 = 3 → anyRequest s (fun _ => true) = false →
      exec (.deviceState mb) s = .next (s.begin.enterReady.complete c St.ok (leBytes 1 3))) ∧
  (∀ (s : State) (mb : Nat) (c : MbCommand), Due s mb 0x02 c → s.start.state = .serving ∨ s.start.state = .degraded → cf c 0 1 = 6 → anyRequest s (fun _ => true) = false →
      exec (.deviceState mb) s = .next ((s.begin.onStart (fun x => { x with state := .maintenance })).complete c St.ok (leBytes 1 6))) ∧
  (∀ (s : State) (mb : Nat) (c : MbCommand), Due s mb 0x02 c → s.start.state = .serving ∨ s.start.state = .degraded → cf c 0 1 = 3 ∨ cf c 0 1 = 6 → anyRequest s (fun _ => true) = true →
      exec (.deviceState mb) s = .next (s.begin.complete c St.busy [])) ∧
  (∀ (s : State) (mb : Nat) (c : MbCommand), Due s mb 0x02 c → cf c 0 1 ≠ devCode s.start.state → (s.start.state, cf c 0 1) ∉ [(DevState.ready, 4), (.ready, 6), (.maintenance, 4), (.maintenance, 3), (.serving, 3), (.serving, 6), (.degraded, 3), (.degraded, 6)] →
      exec (.deviceState mb) s = .next (s.begin.complete c St.badState []))

/-- WARM_RESET taken in its commit window makes a warm reset pending, marks its command as waiting for it, and changes nothing else
until the window ends. ABORT of the tag of an outstanding MODEL_LOAD, ALLOY_LOAD, FW_STAGE or CAL_WRITE cancels that command and
completes OK; where no such command has the tag it completes NOT_FOUND. A command that has not started is completed CANCELLED
with nothing undone; of one that has, the staged image is discarded and invalid, the record's write is dropped, the generation
is freed, and a load in a slot is failed. -/
def Obligations.ResetAndAbort : Prop :=
  (∀ (s : State) (mb : Nat) (c : MbCommand), Due s mb 0x03 c →
      exec (.warmReset mb) s = .next ((s.begin.onStart (fun x => { x with warmPending := true, warmMb := setAdd mb x.warmMb })).setCmd { c with phase := 1 })) ∧
  (∀ (s : State) (mb : Nat) (c x : MbCommand), Due s mb 0x06 c → s.mb.outstanding.find? (fun x => x.tag = cf c 0 1 && [0x70, 0x75, 0xA0, 0x91].contains x.opcode) = some x →
      exec (.abort mb) s = .next ((s.begin.undo x).complete c St.ok [])) ∧
  (∀ (s : State) (mb : Nat) (c : MbCommand), Due s mb 0x06 c → s.mb.outstanding.find? (fun x => x.tag = cf c 0 1 && [0x70, 0x75, 0xA0, 0x91].contains x.opcode) = none →
      exec (.abort mb) s = .next (s.begin.complete c St.notFound [])) ∧
  (∀ (s : State) (x : MbCommand), x.phase = 0 →
      s.undo x = s.complete x St.cancelled []) ∧
  (∀ (s : State) (x : MbCommand), x.phase = 1 → x.opcode = 0xA0 →
      s.undo x = (((s.setOther {}).onMb (fun m => { m with staging := none })).capChanged).complete x St.cancelled []) ∧
  (∀ (s : State) (x : MbCommand), x.phase = 1 → x.opcode = 0x91 →
      s.undo x = (s.onMb (fun m => { m with calWrite := none })).complete x St.cancelled []) ∧
  (∀ (s : State) (x : MbCommand), x.phase = 1 → x.opcode = 0x75 →
      s.undo x = s.freeGen (x.aux % 4096) (x.aux / 4096) none St.cancelled) ∧
  (∀ (s : State) (x : MbCommand) (p : Nat × ModelSlot), x.phase = 2 → x.opcode = 0x70 → s.models.slots.find? (fun p => p.2.state = .loading && p.2.loadMb = some x.slot) = some p →
      s.undo x = s.failLoad p.1 St.cancelled)

/-- STATS_READ of a block that fits its buffer writes the readable snapshot's block there and returns its length and tick; a short
buffer completes BAD_LENGTH, one that cannot be written BAD_ADDRESS, and a block that does not exist BAD_ARGUMENT. CAL_READ
writes the record in force to a buffer that holds it and returns its length, BAD_LENGTH for a short buffer, BAD_ADDRESS where it
cannot be written. While no host port is up both wait (the model's reading of R349, log 27). CAL_WRITE in MAINTENANCE of a
record that passes its checks starts; one that does not completes BAD_IMAGE, a buffer that cannot be read BAD_ADDRESS, in
another state BAD_STATE, and with another record under way BUSY; CAL_RECORD_SWITCHED before a commit window's events puts the
record in force and completes it. FW_STAGE of an image of at most 256 MiB starts with the image as it was read; a longer one
completes BAD_LENGTH, one that cannot be read BAD_ADDRESS, and with one under way BUSY; FW_STAGE_VERIFIED settles it there too:
OK, BAD_SIGNATURE or FAULT_FLASH, an invalid image in the last two. FW_ACTIVATE with mode 1 moves the boot pointer to a valid
staged image and completes OK, NOT_FOUND for an invalid one, BUSY while one is staged or activated; a mode above 1 completes
BAD_ARGUMENT. With mode 0, with a healthy standby and a valid staged image, live activation starts, BAD_STATE, NOT_FOUND or BUSY
otherwise: the standby boots the image; it catches up, or fails to and the activation ends; the control dies hand over with
CONTROL_FAILOVER, probation runs its 1,000 ticks, the boot pointer moves and the former active die comes back as standby. Each
of these happens only in the state the one before it leaves. -/
def Obligations.FirmwareAndCalibration : Prop :=
  (∀ (s : State) (mb : Nat) (c : MbCommand) (r : Nat × List (List Byte)), Asked s mb 0x80 c → s.noPort = false → blockRecords (s.tel.readable.getD {}) (cf c 0 2) = some r → 32 + r.1 * r.2.length ≤ cf c 4 4 →
      
  exec (.statsRead mb true) s = .next ((s.bufferWrite c.port (cf c 8 8) (statsBlock (s.tel.readable.getD {}) (cf c 0 2) r.1 r.2)).complete c St.ok (leBytes 4 (statsBlock (s.tel.readable.getD {}) (cf c 0 2) r.1 r.2).length ++ leBytes 4 0 ++ leBytes 8 (s.tel.readable.getD {}).tick))) ∧
  (∀ (s : State) (mb : Nat) (c : MbCommand) (r : Nat × List (List Byte)), Asked s mb 0x80 c → s.noPort = false → blockRecords (s.tel.readable.getD {}) (cf c 0 2) = some r → cf c 4 4 < 32 + r.1 * r.2.length →
      exec (.statsRead mb true) s = .next (s.complete c St.badLength [])) ∧
  (∀ (s : State) (mb : Nat) (c : MbCommand) (r : Nat × List (List Byte)), Asked s mb 0x80 c → s.noPort = false → blockRecords (s.tel.readable.getD {}) (cf c 0 2) = some r → 32 + r.1 * r.2.length ≤ cf c 4 4 →
      exec (.statsRead mb false) s = .next (s.complete c St.badAddress [])) ∧
  (∀ (s : State) (mb : Nat) (c : MbCommand) (ok : Bool), Asked s mb 0x80 c → s.noPort = false → blockRecords (s.tel.readable.getD {}) (cf c 0 2) = none →
      exec (.statsRead mb ok) s = .next (s.complete c St.badArgument [])) ∧
  (∀ (s : State) (mb : Nat) (ok : Bool), s.noPort = true →
      exec (.statsRead mb ok) s = .next s ∧ exec (.calRead mb ok) s = .next s) ∧
  (∀ (s : State) (mb : Nat) (c : MbCommand), Asked s mb 0x90 c → s.noPort = false → s.start.record.length ≤ cf c 4 4 →
      exec (.calRead mb false) s = .next (s.complete c St.badAddress [])) ∧
  (∀ (s : State) (mb : Nat) (c : MbCommand), Asked s mb 0x90 c → s.noPort = false → s.start.record.length ≤ cf c 4 4 →
      exec (.calRead mb true) s = .next ((s.bufferWrite c.port (cf c 8 8) s.start.record).complete c St.ok (leBytes 4 s.start.record.length))) ∧
  (∀ (s : State) (mb : Nat) (c : MbCommand) (ok : Bool), Asked s mb 0x90 c → s.noPort = false → cf c 4 4 < s.start.record.length →
      exec (.calRead mb ok) s = .next (s.complete c St.badLength [])) ∧
  (∀ (s : State) (mb : Nat) (c : MbCommand) (b : List Byte), Due s mb 0x91 c → s.start.state = .maintenance → s.mb.calWrite = none → calOk s.mb.serial (b.take (cf c 4 4)) = true →
      
  exec (.calWrite mb (some b)) s = .next (((s.begin.hostRead c.port (cf c 8 8) (cf c 4 4)).onMb (fun m => { m with calWrite := some (mb, (b.take (cf c 4 4)).take (field (b.take (cf c 4 4)) 20 4)) })).setCmd { c with phase := 1 })) ∧
  (∀ (s : State) (mb : Nat) (c : MbCommand) (b : List Byte), Due s mb 0x91 c → s.start.state = .maintenance → s.mb.calWrite = none → calOk s.mb.serial (b.take (cf c 4 4)) = false →
      exec (.calWrite mb (some b)) s = .next (s.begin.complete c St.badImage [])) ∧
  (∀ (s : State) (mb : Nat) (c : MbCommand) (b : Option (List Byte)), Due s mb 0x91 c → s.start.state ≠ .maintenance →
      exec (.calWrite mb b) s = .next (s.begin.complete c St.badState [])) ∧
  (∀ (s : State) (mb : Nat) (c : MbCommand) (b : Option (List Byte)), Due s mb 0x91 c → s.start.state = .maintenance → s.mb.calWrite.isSome = true →
      exec (.calWrite mb b) s = .next (s.begin.complete c St.busy [])) ∧
  (∀ (s : State) (mb : Nat) (c : MbCommand), Due s mb 0x91 c → s.start.state = .maintenance → s.mb.calWrite = none →
      exec (.calWrite mb none) s = .next (s.begin.complete c St.badAddress [])) ∧
  (∀ (s : State) (mb : Nat) (c : MbCommand) (r : FwRead), Due s mb 0xA0 c → cf c 4 4 ≤ 268435456 → fwBusy s = false → r.readFail = false →
      
  exec (.fwStage mb r) s = .next (((s.begin.hostRead c.port (cf c 8 8) (cf c 4 4)).onMb (fun m => { m with staging := some (mb, { fwImageOf r with valid := fwVerified s.begin r }) })).setCmd { c with phase := 1 })) ∧
  (∀ (s : State) (mb : Nat) (c : MbCommand) (r : FwRead), Due s mb 0xA0 c → 268435456 < cf c 4 4 →
      exec (.fwStage mb r) s = .next (s.begin.complete c St.badLength [])) ∧
  (∀ (s : State) (mb : Nat) (c : MbCommand) (r : FwRead), Due s mb 0xA0 c → cf c 4 4 ≤ 268435456 → fwBusy s = true →
      exec (.fwStage mb r) s = .next (s.begin.complete c St.busy [])) ∧
  (∀ (s : State) (mb : Nat) (c : MbCommand) (r : FwRead), Due s mb 0xA0 c → cf c 4 4 ≤ 268435456 → fwBusy s = false → r.readFail = true →
      exec (.fwStage mb r) s = .next (s.begin.complete c St.badAddress [])) ∧
  (∀ (s : State) (mb : Nat) (c : MbCommand), Due s mb 0xA1 c → cf c 0 1 = 1 → (otherImage s).valid = true → fwBusy s = false →
      exec (.fwActivateNextReset mb) s = .next ((s.begin.moveBoot false).complete c St.ok [2])) ∧
  (∀ (s : State) (mb : Nat) (c : MbCommand), Due s mb 0xA1 c → cf c 0 1 = 1 → (otherImage s).valid = false →
      exec (.fwActivateNextReset mb) s = .next (s.begin.complete c St.notFound [])) ∧
  (∀ (s : State) (mb : Nat) (c : MbCommand), Due s mb 0xA1 c → cf c 0 1 = 1 → (otherImage s).valid = true → fwBusy s = true →
      exec (.fwActivateNextReset mb) s = .next (s.begin.complete c St.busy [])) ∧
  (∀ (s : State) (mb : Nat) (c : MbCommand), Due s mb 0xA1 c → 2 ≤ cf c 0 1 →
      exec (.fwActivateNextReset mb) s = .next (s.begin.complete c St.badArgument [])) ∧
  (∀ (s : State) (mb : Nat) (c : MbCommand), Due s mb 0xA1 c → cf c 0 1 = 0 → s.faults.ctFailed = [] → s.faults.ctStandby = true → (otherImage s).valid = false →
      exec (.fwActivateLive mb) s = .next (s.begin.complete c St.notFound [])) ∧
  (∀ (s : State) (mb : Nat) (c : MbCommand), Due s mb 0xA1 c → cf c 0 1 = 0 → s.faults.ctFailed = [] → s.faults.ctStandby = true → (otherImage s).valid = true → fwBusy s = true →
      exec (.fwActivateLive mb) s = .next (s.begin.complete c St.busy [])) ∧
  (∀ (s : State) (mb : Nat) (c : MbCommand), Due s mb 0xA1 c → cf c 0 1 = 0 → s.faults.ctFailed = [] → s.faults.ctStandby = true → (otherImage s).valid = true → fwBusy s = false →
      
  exec (.fwActivateLive mb) s = .next (((s.begin.onMb (fun m => { m with act := .booting, actMb := mb, actSince := s.begin.now, actTicks := 0 })).onFaults (fun f => { f with ctStandby := false })).setCmd { c with phase := 1 })) ∧
  (∀ (s : State) (mb : Nat) (c : MbCommand), Due s mb 0xA1 c → cf c 0 1 = 0 → s.faults.ctStandby = false ∨ s.faults.ctFailed ≠ [] →
      exec (.fwActivateLive mb) s = .next (s.begin.complete c St.badState [])) ∧
  (∀ (s : State) (t : Nat), s.mb.act = .booting → t ≤ s.mb.actSince + 30000000000 →
      ∃ u, exec (.standbyCaughtUp t true) s = .next u ∧ u.mb.act = .caughtUp ∧ u.mb.actSince = t ∧ u.mb.runsB = s.mb.runsB.set (1 - s.faults.ctActive) (!s.mb.bootB) ∧ u.faults.ctStandby = !s.faults.ctFailed.contains (1 - s.faults.ctActive)) ∧
  (∀ (s : State) (t : Nat) (ok : Bool), s.mb.act = .booting → ok = false ∨ s.mb.actSince + 30000000000 < t → s.sceolUp = true →
      exec (.standbyCaughtUp t ok) s = .next (((s.atTime t).onFaults (fun f => { f with ctStandby := !f.ctFailed.contains (1 - f.ctActive) })).endActivation)) ∧
  (∀ (s : State), s.mb.act = .caughtUp → s.faults.takeover = none → s.faults.ctStandby = true → edgeSince s s.mb.actSince = true →
      ∃ u, exec .activationHandover s = .next u ∧ u.mb.act = .probation ∧ u.mb.actTicks = 0 ∧ u.faults.ctActive = 1 - s.faults.ctActive ∧ u.mb.eventCount = (s.mb.eventCount + 1) % 2 ^ 32) ∧
  (∀ (s : State), s.mb.act = .probation → 1000 ≤ s.mb.actTicks → s.faults.takeover = none →
      exec .probationEnd s = .next (((s.moveBoot true).onMb (fun m => { m with act := .formerBooting })).onFaults (fun f => { f with ctStandby := false }))) ∧
  (∀ (s : State) (t : Nat), s.mb.act = .formerBooting → s.faults.ctFailed.contains (1 - s.faults.ctActive) = false → s.sceolUp = true →
      
  exec (.formerActiveStandby t) s = .next ((((s.atTime t).runsImage (1 - s.faults.ctActive) s.mb.bootB).onFaults (fun f => { f with ctStandby := true })).endActivation)) ∧
  (∀ (s : State) (mb : Nat) (c : MbCommand) (i : FwImage), settlesLong s = true → s.sceolUp = true → s.mb.staging = some (mb, i) → i.valid = true → s.cmdAt mb [0xA0] = some c →
      
  exec (.fwStageVerified true true) s = .next ((((s.setOther i).onMb (fun m => { m with staging := none })).capChanged).complete c St.ok (leBytes 1 (b2n (!s.mb.bootB)) ++ leBytes 3 0 ++ leBytes 4 i.version))) ∧
  (∀ (s : State) (mb : Nat) (c : MbCommand) (i : FwImage), settlesLong s = true → s.sceolUp = true → s.mb.staging = some (mb, i) → i.valid = false → s.cmdAt mb [0xA0] = some c →
      
  exec (.fwStageVerified true true) s = .next ((((s.setOther {}).onMb (fun m => { m with staging := none })).capChanged).complete c St.badSignature [])) ∧
  (∀ (s : State) (mb : Nat) (c : MbCommand) (i : FwImage), settlesLong s = true → s.sceolUp = true → s.mb.staging = some (mb, i) → s.cmdAt mb [0xA0] = some c →
      
  exec (.fwStageVerified true false) s = .next ((((s.setOther {}).onMb (fun m => { m with staging := none })).capChanged).complete c St.faultFlash [])) ∧
  (∀ (s : State) (mb : Nat) (c : MbCommand) (b : List Byte), settlesLong s = true → s.sceolUp = true → s.mb.calWrite = some (mb, b) → s.cmdAt mb [0x91] = some c →
      
  exec .calRecordSwitched s = .next (((s.onStart (fun x => { x with record := b, calStat := (x.calStat &&& ~~~0x10#32) ||| BitVec.ofNat 32 (16 * b2n (!calHas s.mb.serial b 5 0)) })).onMb (fun m => { m with calWrite := none })).complete c St.ok []))

/-- In an execute window, once the job of a slot's row has finished without a fault, SAMPLER_ROW_MERGE of a decode row (or of the
prefill chunk that samples the first token) whose records are all there reads the records (R199, R225) and settles the attempt
with the merged path and the non-finite flag, which stands where an entry or query has set it before, stamped with its time, and
draws one free value. While a record is missing, or the attempt is settled, it changes nothing but Invar. TREE_BUILD of a decode
row whose job has not started holds for a request of source 1 or 3 the tree found from its committed text, no deeper than the
row (the root alone where SV_SPEC_CTL has trees off), cut to what was planned for the row; it leaves a request of source 0 or 2
as it was. -/
def Obligations.RowsOfTheSampler : Prop :=
  (∀ (s : State) (t slot : Nat) (row : PlanRow) (r : Request) (a : Attempt) (j : Job) (p : List (Nat × BitVec 16 × Nat) × Bool), s.row? slot = some row → s.req? slot = some r → s.attempt? slot = some a → s.job? row.modelSlot = some j → j.finished = true ∧ j.faulted = false → s.tick.running = true ∧ s.tick.inCommit = false → row.kind = .decode ∨ (row.kind = .prefill ∧ chunkSamples r row.tokens = true) → a.done = false → mergeRow (s.atTime t) r row = some p →
      
  exec (.samplerRowMerge t slot) s = .next (((readRecords (s.atTime t) row.modelSlot slot).draw).modAttempt slot (fun a => { a with path := p.1, nonfinite := a.nonfinite || p.2, stamp := (s.atTime t).now, done := true }))) ∧
  (∀ (s : State) (t slot : Nat) (row : PlanRow) (r : Request) (a : Attempt), s.row? slot = some row → s.req? slot = some r → s.attempt? slot = some a → mergeRow (s.atTime t) r row = none ∨ a.done = true →
      exec (.samplerRowMerge t slot) s = .next (s.atTime t)) ∧
  (∀ (s : State) (slot : Nat) (row : PlanRow) (r : Request) (j : Job), s.row? slot = some row → s.req? slot = some r → row.kind = .decode → s.tick.running = true ∧ s.tick.inCommit = false → s.job? row.modelSlot = some j → j.active = false ∧ j.next = 0 → r.spec.source = 1 ∨ r.spec.source = 3 →
      
  exec (.treeBuild slot) s = .next (s.holdTree row (if bit s.regs.specCtl.toNat 8 then lookupTree r row.depth else rootTree r) [])) ∧
  (∀ (s : State) (slot : Nat) (r : Request), s.req? slot = some r → r.spec.source = 0 ∨ r.spec.source = 2 →
      exec (.treeBuild slot) s = .next s)

/-- In an execute window with a plan, KERNEL_START of the next kernel of an open job that is not saved, that waits for no input of
another device, that no other job blocks and that has the semaphores its header declares makes the job active with the tier-1
and scratchpad ranges granted, initialises those semaphores and starts every cluster's ingot ordinals over; kernel 0 also builds
the draft trees of the job's rows. KERNEL_START of any other kernel of the job changes nothing. KERNEL_END of the running
kernel, its commands all ended, records its measures, frees its CLOSED groups, clears the weight registers, restores the tables
and returns its semaphores, and the next kernel is due with the inputs it waits for; at the last one the job ends; where the
kernel still holds a semaphore the job faults. PREEMPT between two kernels of a started job without class 7, for one of class 7
with a kernel ready, with urgent_preempt set and no job saved, saves its dirty regions and its OPEN groups, drops its prefetched
ingots, marks it saved and counts it; JOB_RESUME, once no job runs and none of class 7 has a kernel ready, restores its regions
and groups and leaves no job saved. -/
def Obligations.KernelsRunInOrder : Prop :=
  (∀ (s : State) (m k : Nat) (g : Grant) (ds : List DraftLogits) (j : Job), s.job? m = some j → s.tick.running = true ∧ s.tick.inCommit = false → jobOpen j = true ∧ j.waits = 0 ∧ j.active = false ∧ j.next = k ∧ 0 < k → s.plan.saved ≠ some m ∧ s.plan.emptyRunning = false → jobClear s m = true → (kernelHeader s m k).nsem ≤ (semGrant s j (kernelHeader s m k).nsem).length →
      
  exec (.kernelStart m k g ds) s = .next (((s.modJob m (fun j => { j with active := true, t1 := g.t1, sp := g.sp })).onStore (fun u => { u with sems := (semGrant s j (kernelHeader s m k).nsem).foldl (fun t n => tabPut n { value := (kernelHeader s m k).semInit, initial := (kernelHeader s m k).semInit, job := m, waiters := [] } t) u.sems })).allMcl (fun c => { c with nextOrdinal := 0 }))) ∧
  (∀ (s : State) (m : Nat) (g : Grant) (ds : List DraftLogits) (j : Job), s.job? m = some j → s.tick.running = true ∧ s.tick.inCommit = false → jobOpen j = true ∧ j.waits = 0 ∧ j.active = false ∧ j.next = 0 → s.plan.saved ≠ some m ∧ s.plan.emptyRunning = false → jobClear s m = true → (kernelHeader s m 0).nsem ≤ (semGrant s j (kernelHeader s m 0).nsem).length →
      
  exec (.kernelStart m 0 g ds) s = .next ((((s.modJob m (fun j => { j with active := true, t1 := g.t1, sp := g.sp })).onStore (fun u => { u with sems := (semGrant s j (kernelHeader s m 0).nsem).foldl (fun t n => tabPut n { value := (kernelHeader s m 0).semInit, initial := (kernelHeader s m 0).semInit, job := m, waiters := [] } t) u.sems })).allMcl (fun c => { c with nextOrdinal := 0 })).buildDrafts m ds)) ∧
  (∀ (s : State) (m k : Nat) (g : Grant) (ds : List DraftLogits) (j : Job), s.job? m = some j → j.next ≠ k ∨ j.active = true ∨ jobOpen j = false ∨ j.waits ≠ 0 ∨ s.tick.inCommit = true →
      exec (.kernelStart m k g ds) s = .next s) ∧
  (∀ (s : State) (t m : Nat) (x : KernelMeasure) (j : Job), s.job? m = some j → s.jobRuns m = true → waitsFor s m = false → holdsSem s m = false → j.next + 1 < j.kernels →
      
  exec (.kernelEnd t m j.next x) s = .next ((((s.atTime t).measure m j.next x).kernelClear m).modJob m (fun j => { j with active := false, next := j.next + 1, waits := x.waits, t1 := [], sp := [] }))) ∧
  (∀ (s : State) (t m : Nat) (x : KernelMeasure) (j : Job), s.job? m = some j → s.jobRuns m = true → waitsFor s m = false → holdsSem s m = false → j.kernels ≤ j.next + 1 →
      
  exec (.kernelEnd t m j.next x) s = .next (((((s.atTime t).measure m j.next x).kernelClear m).modJob m (fun j => { j with active := false, next := j.next + 1, waits := x.waits, t1 := [], sp := [] })).jobEnd m)) ∧
  (∀ (s : State) (t m : Nat) (x : KernelMeasure) (j : Job), s.job? m = some j → s.jobRuns m = true → waitsFor s m = false → holdsSem s m = true →
      exec (.kernelEnd t m j.next x) s = .next ((((s.atTime t).measure m j.next x).kernelClear m).jobFault m)) ∧
  (∀ (s u : State) (m : Nat) (d : List (Nat × Nat × Nat)) (j : Job), s.job? m = some j → s.tick.running = true ∧ s.tick.inCommit = false → bit s.regs.planCtl.toNat 19 = true → jobOpen j = true ∧ j.active = false ∧ 0 < j.next ∧ j.urgent = false → s.plan.saved = none → s.plan.jobs.any (fun u => u.urgent && jobOpen u && u.waits = 0) = true → u = s.saveDirty d →
      
  exec (.preempt m d) s = .next ((((u.matrix.foldl (saveGroups m) u).allMcl (dropIngots m)).onPlan (fun p => { p with saved := some m })).countStep (fun c => { c with preemptions := inc64 c.preemptions }))) ∧
  (∀ (s u : State) (m : Nat), s.plan.saved = some m → s.tick.running = true ∧ s.tick.inCommit = false → s.plan.jobs.all (fun j => !j.active && !(j.urgent && jobOpen j && j.waits = 0)) = true → u = s.matrix.foldl restoreScratch s →
      
  exec (.jobResume m) s = .next ((s.matrix.foldl (restoreGroups m) u).onPlan (fun p => { p with saved := none })))

/-- A bank-unit command of a job (or of control space in MAINTENANCE) that keeps every rule of R122 to R125, behind no command that
shares a bank with it, with its banks refreshed and under the stream cap, inside the job's ranges, and with no violation where
the range checker is on, answers a next state with the effect of Table 5-7 in every bank of its scope: NOP none; QLOAD writes
the query set named, a job's with the masks of its tree, a rebuild row's with what its group recorded; GLOAD the gather list;
TLOAD the exponent table, which becomes valid; ACLR clears the accumulator sets named; PASS passes the frame at its row and
counts its taints; DRAIN writes the records to scratchpad; COPY copies count rows from row to dst_row, completes the columns
that failed and logs them; FILL writes zero to count rows; TLOGRD writes the taint record and empties the log; GATHER moves the
listed tokens, in an execute window for a job and, in a commit window, where a commit owes it (R253), for that commit, with the
lanes that its path gives, and is owed no more; one that no commit owes does nothing. The banks of a streaming command have
streamed its time. -/
def Obligations.BankCommandsRun : Prop :=
  (∀ (s : State) (cl job : Nat) (w : BitVec 128), BankRuns s cl { op := 0, job := job, word := w } →
      exec (.buNop cl job w) s = .next s) ∧
  (∀ (s : State) (cl job : Nat) (w : BitVec 128) (d : QueryData) (q : QuerySet), BankRuns s cl { op := 1, job := job, word := w, payload := d.words, node := d.node, rebuild := d.rebuild, draft := d.draft } → q = { querySetOf (payloadBytes d.words) with rebuild := d.rebuild, draft := d.draft } →
      
  exec (.qload cl job w d) s = .next (s.modScope cl (buScope s.variant w) (fun u => { u with sets := tabPut ((buSetList w).headD 0) (match d.rebuild with | some h => rebuildSet s h ((buSetList w).headD 0) q | none => if job < 16 && !d.draft then treeSet s d.node q else q) u.sets }))) ∧
  (∀ (s : State) (cl job : Nat) (w : BitVec 128) (p : List (BitVec 128)), BankRuns s cl { op := 2, job := job, word := w, payload := p } →
      exec (.gload cl job w p) s = .next (s.modScope cl (buScope s.variant w) (fun u => { u with gather := u16s 16 (payloadBytes p) }))) ∧
  (∀ (s u : State) (cl job : Nat) (w : BitVec 128) (p : List (BitVec 128)), BankRuns s cl { op := 3, job := job, word := w, payload := p } → u = s.modScope cl (buScope s.variant w) (fun u => { u with exptab := u16s 256 (payloadBytes p), exptabValid := true }) →
      
  exec (.tload cl job w p) s = .next (u.modBcl cl (fun x => { x with tloadValid := tloadValidOf u cl }))) ∧
  (∀ (s : State) (cl job : Nat) (w : BitVec 128), BankRuns s cl { op := 4, job := job, word := w } →
      exec (.aclr cl job w) s = .next (s.modScope cl (buScope s.variant w) (fun u => { u with accs := (buSetList w).foldl (fun a i => tabPut i clearedSet a) u.accs }))) ∧
  (∀ (s : State) (cl job : Nat) (w : BitVec 128) (bad : List BadColumn), BankRuns s cl { op := 5, job := job, word := w, bad := bad } →
      
  exec (.pass cl job w bad) s = .next (buStream cl w s (countTaints cl s ((buScope s.variant w).foldl (fun u b => u.modBu cl b (passBank s cl (buRow w) (buVariant w) (buSetList w) bad b)) s) (buScope s.variant w)))) ∧
  (∀ (s : State) (cl job : Nat) (w x : BitVec 128), BankRuns s cl { op := 6, job := job, word := w, ext := x } →
      exec (.drain cl job w x) s = .next ((buScope s.variant w).zipIdx.foldl (drainBank cl job (bxSp x) (rf (nth s.regs.buCfg cl 0) 23 20)) s)) ∧
  (∀ (s : State) (cl job : Nat) (w x : BitVec 128) (bad : List BadColumn), BankRuns s cl { op := 7, job := job, word := w, ext := x, bad := bad } →
      exec (.copy cl job w x bad) s = .next (buStream cl w s (doCopy cl { op := 7, job := job, word := w, ext := x, bad := bad } s))) ∧
  (∀ (s : State) (cl job : Nat) (w : BitVec 128), BankRuns s cl { op := 9, job := job, word := w } →
      exec (.fill cl job w) s = .next (buStream cl w s ((buScope s.variant w).foldl (fun u b => fillRows cl b (buRow w) (buCount w) u) s))) ∧
  (∀ (s : State) (cl job : Nat) (w x : BitVec 128), BankRuns s cl { op := 11, job := job, word := w, ext := x } →
      exec (.tlogrd cl job w x) s = .next ((buScope s.variant w).foldl (fun v b => (v.putBytes (spBase cl + bxSp x * 256) (leBytes 1 (v.bu cl b).taints.length ++ leBytes 1 (b2n (v.bu cl b).taintOvf) ++ List.replicate 14 0 ++ taintLogBytes (v.bu cl b).taints)).modBu cl b pullLog) s)) ∧
  (∀ (s : State) (cl job : Nat) (w x : BitVec 128) (bad : List BadColumn), s.tick.inCommit = false → BankRuns s cl { op := 8, job := job, word := w, ext := x, bad := bad } →
      exec (.gather cl job w x bad) s = .next (buStream cl w s (doGather cl { op := 8, job := job, word := w, ext := x, bad := bad } s))) ∧
  (∀ (s u : State) (cl job : Nat) (w x : BitVec 128) (bad : List BadColumn) (c : BuCmd), c = { op := 8, job := 17, word := w, ext := x, bad := bad } → s.tick.inCommit = true ∧ s.clusterUp cl = true ∧ gatherOwed s cl w x = true → buFormOk (s.loadLanes cl w x) c = true ∧ buFits (s.loadLanes cl w x) cl c = true → ((s.loadLanes cl w x).bcl cl).queue.any (fun q => buShare s.variant q c) = false ∧ buStarts (s.loadLanes cl w x) cl w = true → u = (s.loadLanes cl w x).loadLanes cl w x → gatherOwed u cl w x = true ∧ buUnitsOk u cl c = true ∧ commitRowsOk u cl c = true → rchkFinds u cl c = none →
      
  exec (.gather cl job w x bad) s = .next ((buStream cl w u (doGather cl c u)).onReq (fun q => { q with gathersDue := gathersLeft s.variant cl w x q.gathersDue }))) ∧
  (∀ (s : State) (cl job : Nat) (w x : BitVec 128) (bad : List BadColumn), s.tick.inCommit = true → s.clusterUp cl = false ∨ gatherOwed s cl w x = false →
      exec (.gather cl job w x bad) s = .next s)

/-- Every bank-unit command goes to its cluster's sequencer. There, for a job that runs: where the command breaks the rules of its
words the job faults and nothing else happens (R122 to R124); where an earlier command that shares a bank with it waits, or one
of its banks owes two refreshes between bursts or has no room left in its burst, or its scope passes the stream cap, it enters
the queue and changes nothing else (R125, R133); where its units or ranges do not allow it the job faults (R124, R141); where
the range checker finds a pending append entry in a range it reads, or a range it writes held in scratchpad, the violation is
recorded and the job faults (R140). A command of a job that does not run, outside MAINTENANCE, changes nothing. Faulting a job
leaves device memory, the bank units and append buffers, requests, tiers, configuration, the tick, the host ports, the mailbox
and the plan's rows as they were. -/
def Obligations.BankCommandsAreChecked : Prop :=
  (∀ (s : State) (cl job : Nat) (w x : BitVec 128) (d : QueryData) (p : List (BitVec 128)) (bad : List BadColumn), 
  exec (.buNop cl job w) s = .next (buIssue cl { op := 0, job := job, word := w } s) ∧ exec (.qload cl job w d) s = .next (buIssue cl { op := 1, job := job, word := w, payload := d.words, node := d.node, rebuild := d.rebuild, draft := d.draft } s) ∧
  exec (.gload cl job w p) s = .next (buIssue cl { op := 2, job := job, word := w, payload := p } s) ∧ exec (.tload cl job w p) s = .next (buIssue cl { op := 3, job := job, word := w, payload := p } s) ∧
  exec (.aclr cl job w) s = .next (buIssue cl { op := 4, job := job, word := w } s) ∧ exec (.pass cl job w bad) s = .next (buIssue cl { op := 5, job := job, word := w, bad := bad } s) ∧
  exec (.drain cl job w x) s = .next (buIssue cl { op := 6, job := job, word := w, ext := x } s) ∧ exec (.copy cl job w x bad) s = .next (buIssue cl { op := 7, job := job, word := w, ext := x, bad := bad } s) ∧
  exec (.fill cl job w) s = .next (buIssue cl { op := 9, job := job, word := w } s) ∧ exec (.tlogrd cl job w x) s = .next (buIssue cl { op := 11, job := job, word := w, ext := x } s)) ∧
  (∀ (s : State) (cl job : Nat) (w x : BitVec 128) (bad : List BadColumn), s.tick.inCommit = false →
      exec (.gather cl job w x bad) s = .next (buIssue cl { op := 8, job := job, word := w, ext := x, bad := bad } s)) ∧
  (∀ (s : State) (cl : Nat) (c : BuCmd), (s.clusterUp cl = true ∧ s.mayQueue c.job = true) ∧ c.op ≠ 16 ∧ c.job ≠ 17 → buFormOk s c = false ∨ buFits s cl c = false →
      buIssue cl c s = s.jobFault c.job) ∧
  (∀ (s : State) (cl : Nat) (c : BuCmd), (s.clusterUp cl = true ∧ s.mayQueue c.job = true) ∧ c.op ≠ 16 ∧ c.job ≠ 17 → buFormOk s c = true ∧ buFits s cl c = true → (s.bcl cl).queue.any (fun q => buShare s.variant q c) = true ∨ buStarts s cl c.word = false →
      
  buIssue cl c s = s.modBcl cl (fun x => { x with queue := x.queue ++ [c] })) ∧
  (∀ (s : State) (cl : Nat) (c : BuCmd), (s.clusterUp cl = true ∧ s.mayQueue c.job = true) ∧ c.op ≠ 16 ∧ c.job ≠ 17 → buFormOk s c = true ∧ buFits s cl c = true → (s.bcl cl).queue.any (fun q => buShare s.variant q c) = false ∧ buStarts s cl c.word = true → buUnitsOk s cl c = false ∨ buGrantsOk s cl c = false →
      buIssue cl c s = s.jobFault c.job) ∧
  (∀ (s : State) (cl : Nat) (c : BuCmd) (p : Nat × Nat), (s.clusterUp cl = true ∧ s.mayQueue c.job = true) ∧ c.op ≠ 16 ∧ c.job ≠ 17 → buFormOk s c = true ∧ buFits s cl c = true → (s.bcl cl).queue.any (fun q => buShare s.variant q c) = false ∧ buStarts s cl c.word = true → buUnitsOk s cl c = true ∧ buGrantsOk s cl c = true → rchkFinds s cl c = some p →
      
  buIssue cl c s = (rchkNote s cl c.job p.1 p.2 c.op).jobFault c.job) ∧
  (∀ (s : State) (cl : Nat) (c : BuCmd) (g : Nat), rchkOn s cl = true → c.op = 5 ∨ c.op = 7 ∨ c.op = 8 → rchkRead s cl c.word = some g →
      rchkFinds s cl c = some (g, 0)) ∧
  (∀ (s : State) (cl : Nat) (c : BuCmd) (g : Nat), rchkOn s cl = true → c.op = 9 → rchkWrite s cl c.job c.word (buRow c.word) = some g →
      rchkFinds s cl c = some (g, 1)) ∧
  (∀ (s : State) (cl : Nat) (c : BuCmd), s.mayQueue c.job = false →
      buIssue cl c s = s) ∧
  (∀ (s : State) (m : Nat), (s.jobFault m).mem = s.mem ∧ (∀ cl, ((s.jobFault m).bcl cl).units = (s.bcl cl).units ∧ ((s.jobFault m).bcl cl).append = (s.bcl cl).append) ∧ (s.jobFault m).req = s.req ∧ (s.jobFault m).tier = s.tier ∧ (s.jobFault m).cfg = s.cfg ∧ (s.jobFault m).cfgNext = s.cfgNext ∧ (s.jobFault m).tick = s.tick ∧ (s.jobFault m).host = s.host ∧ (s.jobFault m).mb = s.mb ∧ (s.jobFault m).plan.rows = s.plan.rows)

/-- From every state whose memory has its canonical form, a FILL of one bank that runs leaves every byte of its rows zero and every
other byte as it was. NOP, QLOAD, GLOAD, TLOAD, ACLR and PASS leave every byte of device memory as it was, run or not, and so
does any bank-unit command that enters the queue or breaks the rules of its words. KVFLUSH, of a job whose ranges hold the
granules and that no waiting command shares a bank with, or in a commit window, writes every buffer entry whose frame meets the
range and keeps the others. A write-back of a buffer of at least 3,072 entries writes and drops the oldest; a buffer with fewer
is left. A SCRUB of the controller that may start scrubs its rows, where the range checker is on noting a read of pending
entries (with model_slot 0, and the scrub runs: the model's choice, log 29); one that a kernel issues faults its job. -/
def Obligations.BankMemory : Prop :=
  (∀ (s : State) (cl job b : Nat) (w : BitVec 128), s.mem.wf = true → BankRuns s cl { op := 9, job := job, word := w } → buScope s.variant w = [b] →
      ∃ t, exec (.fill cl job w) s = .next t ∧
  ∀ a, Memory.read t.mem a = if t1Addr cl b (buRow w) 0 ≤ a ∧ a < t1Addr cl b (buRow w) 0 + buCount w * 2048 then 0 else Memory.read s.mem a) ∧
  (∀ (s : State) (cl job : Nat) (w : BitVec 128) (d : QueryData) (p : List (BitVec 128)) (bad : List BadColumn), (∃ t, exec (.buNop cl job w) s = .next t ∧ t.mem = s.mem) ∧ (∃ t, exec (.qload cl job w d) s = .next t ∧ t.mem = s.mem) ∧ (∃ t, exec (.gload cl job w p) s = .next t ∧ t.mem = s.mem) ∧ (∃ t, exec (.tload cl job w p) s = .next t ∧ t.mem = s.mem) ∧ (∃ t, exec (.aclr cl job w) s = .next t ∧ t.mem = s.mem) ∧ (∃ t, exec (.pass cl job w bad) s = .next t ∧ t.mem = s.mem)) ∧
  (∀ (s : State) (cl : Nat) (c : BuCmd), c.op ≠ 16 → (buFormOk s c = false ∨ buFits s cl c = false) ∨ (s.bcl cl).queue.any (fun q => buShare s.variant q c) = true ∨ buStarts s cl c.word = false →
      (buIssue cl c s).mem = s.mem) ∧
  (∀ (s : State) (cl job first count : Nat), s.clusterUp cl = true → s.tick.inCommit = true →
      
  exec (.kvflush cl job first count) s = .next ((((s.bcl cl).append.filter (entryIn first count)).foldl (writeEntry cl) s).modBcl cl (fun c => { c with append := (s.bcl cl).append.filter (fun e => !entryIn first count e) }))) ∧
  (∀ (s : State) (cl job first count : Nat), s.clusterUp cl = true → s.tick.inCommit = false → s.mayQueue job = true ∧ job ≠ 17 → (s.bcl cl).queue.any (fun q => buShare s.variant q { op := 16, job := job, first := first, count := count }) = false → granulesGranted s cl job first count = true →
      
  exec (.kvflush cl job first count) s = .next ((((s.bcl cl).append.filter (entryIn first count)).foldl (writeEntry cl) s).modBcl cl (fun c => { c with append := (s.bcl cl).append.filter (fun e => !entryIn first count e) }))) ∧
  (∀ (s : State) (cl n : Nat), s.clusterUp cl = true → 3072 ≤ (s.bcl cl).append.length →
      
  exec (.appendBufferWriteback cl n) s = .next ((((s.bcl cl).append.take n).foldl (writeEntry cl) s).modBcl cl (fun c => { c with append := c.append.drop n }))) ∧
  (∀ (s : State) (cl n : Nat), (s.bcl cl).append.length < 3072 →
      exec (.appendBufferWriteback cl n) s = .next s) ∧
  (∀ (s : State) (cl m : Nat) (w : BitVec 128) (bad : List BadColumn), s.clusterUp cl = true → s.mayQueue m = true →
      exec (.scrub cl (some m) w bad) s = .next (s.jobFault m)) ∧
  (∀ (s : State) (cl : Nat) (w : BitVec 128) (bad : List BadColumn), s.clusterUp cl = true → buFormOk s { op := 10, word := w } = true → buFits s cl { op := 10, word := w } = true → buStarts s cl w = true → buRow w + buCount w ≤ 32768 → rchkOn s cl = false →
      
  exec (.scrub cl none w bad) s = .next (buStream cl w s (scrubRows cl (buRow w) (buCount w) (buScope s.variant w) bad s))) ∧
  (∀ (s : State) (cl g : Nat) (w : BitVec 128) (bad : List BadColumn), s.clusterUp cl = true → buFormOk s { op := 10, word := w } = true → buFits s cl { op := 10, word := w } = true → buStarts s cl w = true → buRow w + buCount w ≤ 32768 → rchkOn s cl = true → rchkRead s cl w = some g →
      
  exec (.scrub cl none w bad) s = .next (buStream cl w s (scrubRows cl (buRow w) (buCount w) (buScope s.variant w) bad (rchkNote s cl 0 g 0 10))))

/-- BANK_REFRESH of a bank in service ends its burst and pays the oldest interval that it owes (where it owes none its next interval
begins), and then offers the stack's waiting commands again in queue order; a bank owes one refresh less after it.
STACK_HOT_CHANGE sets the hot state of a stack above 85 and clears it below 83, and keeps it between. PATROL_SCRUB with patrol
enabled, of a bank between its bursts that may stream, scrubs the bank's next row and moves on, modulo 32,768; where patrol is
off or the bank may not stream it changes nothing. LAYER_COMBINE of a layer of the running job's model, or of its draft model,
with drain records of it and no queued command left combines them. On a stack out of service or a bank that the device lacks
BANK_REFRESH changes nothing. -/
def Obligations.BankController : Prop :=
  (∀ (s : State) (cl b : Nat), s.clusterUp cl = true ∧ b < banksOf s.variant →
      exec (.bankRefresh cl b) s = .next ((s.modBu cl b (refreshBank s.now (s.bcl cl) b)).buPump cl)) ∧
  (∀ (c : BankCluster) (now b : Nat) (u : BankUnit), u = tabGetD b {} c.units → c.refreshFrom ≤ now ∧ u.refreshed ≤ now →
      refreshDebt now { c with units := tabPut b (refreshBank now c b u) c.units } b = refreshDebt now c b - 1 ∧ (refreshBank now c b u).burst = 0) ∧
  (∀ (s : State) (cl b : Nat), s.clusterUp cl = false ∨ banksOf s.variant ≤ b →
      exec (.bankRefresh cl b) s = .next s) ∧
  (∀ (s : State) (cl temp : Nat), s.clusterUp cl = true →
      exec (.stackHotChange cl temp) s = .next (s.modBcl cl (fun c => { c with hot := (c.hot && decide (83 ≤ temp)) || decide (85 < temp) }))) ∧
  (∀ (s : State) (cl b : Nat) (bad : List BadColumn), s.clusterUp cl = true ∧ b < banksOf s.variant → bit (nth s.regs.buScrub cl 0).toNat 12 = true → buStarts s cl (patrolWord s.variant b (s.bu cl b).patrolRow) = true →
      
  exec (.patrolScrub cl b bad) s = .next ((scrubRun cl (patrolWord s.variant b (s.bu cl b).patrolRow) bad s).modBu cl b (fun u => { u with patrolRow := ((s.bu cl b).patrolRow + 1) % 32768 }))) ∧
  (∀ (s : State) (cl b : Nat) (bad : List BadColumn), bit (nth s.regs.buScrub cl 0).toNat 12 = false ∨ buStarts s cl (patrolWord s.variant b (s.bu cl b).patrolRow) = false →
      exec (.patrolScrub cl b bad) s = .next s) ∧
  (∀ (s : State) (cl job layer : Nat) (bad : List BadColumn), s.clusterUp cl = true ∧ layer < max (s.mslot job).info.layers (s.mslot job).info.draftModel.layers → s.jobRuns job = true → (s.bcl cl).drains.any (fun r => r.job = job) = true → (s.bcl cl).queue.any (fun q => q.job = job) = false →
      exec (.layerCombine cl job layer bad) s = .next (layerCombine cl job layer bad s))

/-- A matrix command of a job (or of control space in MAINTENANCE) that breaks no rule of Table 6-9, and for one that names a unit
has no waiting command of that unit before it, answers a next state: NOP none; ILOAD moves the arrived ingot of its ordinal to
the unit's back registers, frees its staging slot and hold, and the next ordinal is due; where its ingot has not arrived it
waits in the queue, the next ordinal due too; GOPEN opens a group with every lane zero for the job; MPASS adds the rows'
products to the group's lanes, and where new is 1 the back set moves to the front first; where the ingot is poisoned it marks
the attempts of its rows; GCLOSE closes; GFREE frees; APASS applies the segment list's deltas with the factors of a logical
cluster that the cluster hosts; SPLOAD copies granules into scratchpad with one hold; SPINV drops the job's overlapping holds. -/
def Obligations.MatrixCommandsRun : Prop :=
  (∀ (s : State) (cl job : Nat) (w : BitVec 128), MxRuns s cl job 0 w 0 0 0 →
      exec (.mxNop cl job w) s = .next s) ∧
  (∀ (s : State) (cl job : Nat) (w : BitVec 128) (f : Staged), MxStarts s cl { job := job, op := 1, word := w } → (s.mcl cl).staging.find? (fun f => f.model = job && f.kernel = s.kernelOf job && f.ordinal = mxGranule w && f.arrived) = some f →
      
  exec (.iload cl job w) s = .next ((s.modMcl cl (fun c => { c with nextOrdinal := c.nextOrdinal + 1 })).modMcl cl (fun c => settleHalves { c with units := tabUpd (mxMu w) {} (fun u => { u with back := some f.ingot }) c.units, staging := c.staging.erase f, holds := c.holds.filter (fun h => !(h.ingot && h.job = job && h.ordinal = mxGranule w && h.first = f.granule)) }))) ∧
  (∀ (s : State) (cl job : Nat) (w : BitVec 128), mxTakes s cl job = true → mxWordBad s cl 1 w = none → (s.mcl cl).staging.find? (fun f => f.model = job && f.kernel = s.kernelOf job && f.ordinal = mxGranule w && f.arrived) = none →
      
  exec (.iload cl job w) s = .next ((s.modMcl cl (fun c => { c with nextOrdinal := c.nextOrdinal + 1 })).modMcl cl (fun c => { c with queue := c.queue ++ [{ job := job, op := 1, word := w }] }))) ∧
  (∀ (s : State) (cl job : Nat) (w : BitVec 128), MxStarts s cl { job := job, op := 2, word := w } →
      exec (.gopen cl job w) s = .next (s.setGrp cl (mxGid w) { state := .opened, fp32 := bit (mxVariant w) 0, owner := job, lanes := [] })) ∧
  (∀ (s : State) (cl job : Nat) (w : BitVec 128) (rows : List Nat) (i : Ingot), MxStarts s cl { job := job, op := 3, word := w, rows := rows } → mxNew w = false → (s.mu cl (mxMu w)).front = some i → i.poisoned = false →
      
  exec (.mpass cl job w rows) s = .next (s.setGrp cl (mxGid w) { s.grp cl (mxGid w) with lanes := (List.range (mxRows w)).foldl (fun l r => rowPass i r (s.getBytes (spBase cl + mxSp w * 256 + r * actBytes i.fmt) (actBytes i.fmt)) l) (s.grp cl (mxGid w)).lanes })) ∧
  (∀ (s : State) (cl job : Nat) (w : BitVec 128) (rows : List Nat) (i : Ingot), MxStarts s cl { job := job, op := 3, word := w, rows := rows } → mxNew w = false → (s.mu cl (mxMu w)).front = some i → i.poisoned = true →
      
  exec (.mpass cl job w rows) s = .next ((s.setGrp cl (mxGid w) { s.grp cl (mxGid w) with lanes := (List.range (mxRows w)).foldl (fun l r => rowPass i r (s.getBytes (spBase cl + mxSp w * 256 + r * actBytes i.fmt) (actBytes i.fmt)) l) (s.grp cl (mxGid w)).lanes }).onPlan (fun p => { p with attempts := markAttempts rows (fun a => { a with poisoned := true }) p.attempts }))) ∧
  (∀ (s : State) (cl job : Nat) (w : BitVec 128) (rows : List Nat) (i : Ingot), MxStarts s cl { job := job, op := 3, word := w, rows := rows } → mxNew w = true → (s.mu cl (mxMu w)).back = some i → i.poisoned = false →
      
  exec (.mpass cl job w rows) s = .next ((s.setGrp cl (mxGid w) { s.grp cl (mxGid w) with lanes := (List.range (mxRows w)).foldl (fun l r => rowPass i r (s.getBytes (spBase cl + mxSp w * 256 + r * actBytes i.fmt) (actBytes i.fmt)) l) (s.grp cl (mxGid w)).lanes }).modMcl cl (fun c => { c with units := tabUpd (mxMu w) {} (fun _ => { front := some i, back := none }) c.units }))) ∧
  (∀ (s : State) (cl job : Nat) (w : BitVec 128) (rows : List Nat) (i : Ingot), MxStarts s cl { job := job, op := 3, word := w, rows := rows } → mxNew w = true → (s.mu cl (mxMu w)).back = some i → i.poisoned = true →
      
  exec (.mpass cl job w rows) s = .next (((s.setGrp cl (mxGid w) { s.grp cl (mxGid w) with lanes := (List.range (mxRows w)).foldl (fun l r => rowPass i r (s.getBytes (spBase cl + mxSp w * 256 + r * actBytes i.fmt) (actBytes i.fmt)) l) (s.grp cl (mxGid w)).lanes }).modMcl cl (fun c => { c with units := tabUpd (mxMu w) {} (fun _ => { front := some i, back := none }) c.units })).onPlan (fun p => { p with attempts := markAttempts rows (fun a => { a with poisoned := true }) p.attempts }))) ∧
  (∀ (s : State) (cl job : Nat) (w : BitVec 128), MxStarts s cl { job := job, op := 4, word := w } →
      exec (.gclose cl job w) s = .next (s.setGrp cl (mxGid w) { s.grp cl (mxGid w) with state := .closed })) ∧
  (∀ (s : State) (cl job : Nat) (w : BitVec 128), MxStarts s cl { job := job, op := 5, word := w } →
      exec (.gfree cl job w) s = .next (s.dropGrp cl (mxGid w))) ∧
  (∀ (s : State) (cl logical job tensor layer : Nat) (w : BitVec 128) (zx : BitVec 8) (rows : List ApassRow) (l : List Segment), MxRuns s cl job 6 w (apassFmt rows) (projShape s job logical tensor).1 (projShape s job logical tensor).2 → segList s cl job (mxSp2 w) = some l → nth s.faults.clmap logical 16 = cl →
      
  exec (.apass cl job w tensor layer zx ⟨logical, rows⟩) s = .next (l.foldl (segDeltas cl logical job tensor layer zx (spBase cl + mxSp w * 256) (mxRows w) (rows.take (mxRows w))) s)) ∧
  (∀ (s : State) (cl job : Nat) (w : BitVec 128), MxRuns s cl job 7 w 0 0 0 →
      
  exec (.spload cl job w) s = .next ((s.putBytes (spBase cl + mxSp w * 256) (s.getBytes (granAddr cl (mxGranule w) 0) (mxCount w * 2048))).modMcl cl (fun c => { c with holds := c.holds ++ [{ job := job, first := mxGranule w, count := mxCount w, ingot := false, ordinal := 0 }] }))) ∧
  (∀ (s : State) (cl job : Nat) (w : BitVec 128), MxRuns s cl job 8 w 0 0 0 →
      exec (.spinv cl job w) s = .next (s.modMcl cl (fun c => { c with holds := c.holds.filter (fun h => !(h.job = job && h.first < mxGranule w + mxCount w && mxGranule w < h.first + h.count)) })))

/-- A matrix command goes to its cluster's sequencer. There, for a job that runs: where its word breaks a rule of Table 6-9, or with
nothing to wait for the command breaks one as it comes to run, MX_FAULT_INFO takes the cause, opcode and job unless it already
records one, and the job faults; a command that names a unit and stands behind a waiting one of the unit waits in the queue. A
command of a job that does not run, outside MAINTENANCE, changes nothing. GSAVE and GRSTR issued by a kernel are rejected with
cause 2. GSAVE by the sequencer of an OPEN group writes its lanes to its place in the save area, whose other bytes there become
zero, keeps its mode and owner beside and frees it; GRSTR of a saved group whose place is FREE opens it as it was kept, with the
lanes that the save area holds. -/
def Obligations.MatrixCommandsAreChecked : Prop :=
  (∀ (s : State) (cl job : Nat) (w : BitVec 128) (rows : List Nat), exec (.iload cl job w) s = .next (mxIssue s cl { job := job, op := 1, word := w }) ∧ exec (.gopen cl job w) s = .next (mxIssue s cl { job := job, op := 2, word := w }) ∧ exec (.mpass cl job w rows) s = .next (mxIssue s cl { job := job, op := 3, word := w, rows := rows }) ∧ exec (.gclose cl job w) s = .next (mxIssue s cl { job := job, op := 4, word := w }) ∧ exec (.gfree cl job w) s = .next (mxIssue s cl { job := job, op := 5, word := w })) ∧
  (∀ (s : State) (cl : Nat) (q : MxCmd) (c : Nat × Nat), mxTakes s cl q.job = true → mxWordBad s cl q.op q.word = some c →
      mxIssue s cl q = mxFault s cl q.job (mxOp q.word) c.1 c.2) ∧
  (∀ (s : State) (cl : Nat) (q : MxCmd) (c : Nat × Nat), mxTakes s cl q.job = true → mxWordBad s cl q.op q.word = none ∧ q.op ≠ 1 → mxBehind (s.mcl cl).queue q = false → mxReject s cl q.job q.op q.word 0 0 0 = some c →
      mxIssue s cl q = mxFault s cl q.job (mxOp q.word) c.1 c.2) ∧
  (∀ (s : State) (cl : Nat) (q : MxCmd), mxTakes s cl q.job = true → mxWordBad s cl q.op q.word = none ∧ q.op ≠ 1 → mxBehind (s.mcl cl).queue q = true →
      mxIssue s cl q = s.modMcl cl (fun c => { c with queue := c.queue ++ [q] })) ∧
  (∀ (s : State) (cl job op fmt inW outW : Nat) (w : BitVec 128) (f : State → State) (c : Nat × Nat), mxTakes s cl job = true → mxWordBad s cl op w = some c ∨ (mxWordBad s cl op w = none ∧ mxReject s cl job op w fmt inW outW = some c) →
      mxRun s cl job op w fmt inW outW f = mxFault s cl job (mxOp w) c.1 c.2) ∧
  (∀ (s : State) (cl job op fmt inW outW : Nat) (w : BitVec 128) (f : State → State), s.mayQueue job = false →
      mxRun s cl job op w fmt inW outW f = s ∧ ∀ q : MxCmd, q.job = job → mxIssue s cl q = s) ∧
  (∀ (s : State) (cl job op cause a : Nat), bit (s.mcl cl).faultInfo.toNat 31 = true →
      mxFault s cl job op cause a = s.jobFault job) ∧
  (∀ (s : State) (cl job op cause a : Nat), bit (s.mcl cl).faultInfo.toNat 31 = false →
      mxFault s cl job op cause a = (s.modMcl cl (fun c => { c with faultAddr := if a = 0 then c.faultAddr else a, faultInfo := BitVec.ofNat 32 (2 ^ 31 + cause * 2 ^ 26 + op * 256 + job % 16) })).jobFault job) ∧
  (∀ (s : State) (cl g m : Nat), cl < 16 ∧ s.mayQueue m = true →
      exec (.gsave cl g (some m)) s = .next (mxFault s cl m 9 2 0) ∧ exec (.grstr cl g (some m)) s = .next (mxFault s cl m 10 2 0)) ∧
  (∀ (s : State) (cl g : Nat) (x : AccGroup), cl < 16 ∧ g < 96 ∧ s.grp cl g = x ∧ x.state = .opened →
      
  exec (.gsave cl g none) s = .next (((x.lanes.foldl (fun t l => t.putBytes (groupArea s cl g + 4 * l.1) (leBytes 4 l.2.toNat)) (s.onMem (fun m => m.clear (groupArea s cl g) 65536))).modMcl cl (fun c => { c with save := tabPut g { x with lanes := [] } c.save })).dropGrp cl g)) ∧
  (∀ (s : State) (cl g : Nat) (x : AccGroup), cl < 16 ∧ g < 96 ∧ (s.grp cl g).state = .free → tabGet g (s.mcl cl).save = some x →
      
  exec (.grstr cl g none) s = .next ((s.setGrp cl g { x with lanes := savedLanes s cl g }).modMcl cl (fun c => { c with save := tabDel g c.save })))

/-- Adding to an INT32 lane gives the exact sum where it lies strictly between the end values, the upper end value where it reaches
or passes it, and the lower where it reaches or passes that; a lane at an end value keeps it for every later addition, so a
whole sequence of additions to it leaves it there. Read by the vector pipe the upper end value is plus infinity, the lower minus
infinity. -/
def Obligations.SaturatingLanes : Prop :=
  (∀ (x : BitVec 32) (v : Int), x ≠ 0x7FFFFFFF → x ≠ 0x80000000 → -2147483648 < x.toInt + v → x.toInt + v < 2147483647 →
    (laneAdd x v).toInt = x.toInt + v) ∧
  (∀ (x : BitVec 32) (v : Int), x ≠ 0x80000000 → 2147483647 ≤ x.toInt + v → laneAdd x v = 0x7FFFFFFF) ∧
  (∀ (x : BitVec 32) (v : Int), x ≠ 0x7FFFFFFF → x.toInt + v ≤ -2147483648 → laneAdd x v = 0x80000000) ∧
  (∀ (x : BitVec 32) (l : List Int), x = 0x7FFFFFFF ∨ x = 0x80000000 → l.foldl laneAdd x = x) ∧
  (laneRead false 0x7FFFFFFF = fpInf false ∧ laneRead false 0x80000000 = fpInf true)

/-- INGOT_FETCH_ISSUE on a stack in service, of the running job's kernel with all earlier kernels fetched, or in a commit window of
the first layer kernel of a job of the next plan, with a free fetch, staging space and hold entry, stages the directory's next
ordinal with its hold, and changes no other cluster, no bank unit, no plan and no memory; with no ordinal left or nothing free
it changes nothing. INGOT_FETCH_DONE of an outstanding fetch makes it arrive with the ingot that memory holds; where its data
cannot be corrected or its header is inconsistent the ingot arrives poisoned, which is counted, recorded against its slot, and
keeps the job out of plans; commands that waited for it run, and in a commit window the loader prefetches on. With no such fetch
outstanding it changes nothing. -/
def Obligations.IngotLoader : Prop :=
  (∀ (s t : State) (cl job k : Nat), s.clusterUp cl = true → (s.jobRuns job = true ∧ s.kernelOf job ≤ k ∧ fetchedTo s cl job k = true) ∨ mayPrefetch s cl job k = true → issueFetch s cl job k = some t →
      exec (.ingotFetchIssue cl job k) s = .next t ∧ t.mem = s.mem ∧ t.plan = s.plan ∧ t.banks = s.banks ∧ (∀ c, c ≠ cl → t.mcl c = s.mcl c) ∧ (t.mcl cl).holds.length = (s.mcl cl).holds.length + 1 ∧ (t.mcl cl).staging.length = (s.mcl cl).staging.length + 1) ∧
  (∀ (s : State) (cl job k : Nat), issueFetch s cl job k = none →
      exec (.ingotFetchIssue cl job k) s = .next s) ∧
  (∀ (s u : State) (cl job k o : Nat) (f : Staged) (i : Ingot) (bad : Bool), (s.mcl cl).staging.find? (fun f => f.model = job && f.kernel = k && f.ordinal = o && !f.arrived) = some f → headerBad s cl f.granule (nth (dirOf s cl f.model f.kernel) o {}) (kernelLayer s f.model f.kernel) = false → i = { readIngot s cl f.granule with poisoned := false, fmt := f.ingot.fmt } → bad = false → u = s.modMcl cl (fun c => { c with staging := c.staging.map (fun x => if x = f then { f with arrived := true, ingot := i } else x) }) → s.tick.inCommit = false →
      
  exec (.ingotFetchDone cl ⟨job, k, o⟩ bad) s = .next (mxPump cl (u.mcl cl).queue.length u)) ∧
  (∀ (s u : State) (cl job k o : Nat) (f : Staged) (i : Ingot) (b : Bool), (s.mcl cl).staging.find? (fun f => f.model = job && f.kernel = k && f.ordinal = o && !f.arrived) = some f → b = true ∨ headerBad s cl f.granule (nth (dirOf s cl f.model f.kernel) o {}) (kernelLayer s f.model f.kernel) = true → i = { readIngot s cl f.granule with poisoned := true, fmt := f.ingot.fmt } → u = (s.modMcl cl (fun c => { c with staging := c.staging.map (fun x => if x = f then { f with arrived := true, ingot := i } else x) })).notePoison f.model cl f.granule → s.tick.inCommit = false →
      
  exec (.ingotFetchDone cl ⟨job, k, o⟩ b) s = .next (mxPump cl (u.mcl cl).queue.length u)) ∧
  (∀ (s u : State) (cl job k o : Nat) (f : Staged) (i : Ingot), (s.mcl cl).staging.find? (fun f => f.model = job && f.kernel = k && f.ordinal = o && !f.arrived) = some f → headerBad s cl f.granule (nth (dirOf s cl f.model f.kernel) o {}) (kernelLayer s f.model f.kernel) = false → i = { readIngot s cl f.granule with poisoned := false, fmt := f.ingot.fmt } → u = s.modMcl cl (fun c => { c with staging := c.staging.map (fun x => if x = f then { f with arrived := true, ingot := i } else x) }) → s.tick.inCommit = true →
      
  exec (.ingotFetchDone cl ⟨job, k, o⟩ false) s = .next (mxPump cl (u.mcl cl).queue.length u).prefetch) ∧
  (∀ (s u : State) (cl job k o : Nat) (f : Staged) (i : Ingot) (b : Bool), (s.mcl cl).staging.find? (fun f => f.model = job && f.kernel = k && f.ordinal = o && !f.arrived) = some f → b = true ∨ headerBad s cl f.granule (nth (dirOf s cl f.model f.kernel) o {}) (kernelLayer s f.model f.kernel) = true → i = { readIngot s cl f.granule with poisoned := true, fmt := f.ingot.fmt } → u = (s.modMcl cl (fun c => { c with staging := c.staging.map (fun x => if x = f then { f with arrived := true, ingot := i } else x) })).notePoison f.model cl f.granule → s.tick.inCommit = true →
      
  exec (.ingotFetchDone cl ⟨job, k, o⟩ b) s = .next (mxPump cl (u.mcl cl).queue.length u).prefetch) ∧
  (∀ (s : State) (cl job k o : Nat) (u : Bool), (s.mcl cl).staging.find? (fun f => f.model = job && f.kernel = k && f.ordinal = o && !f.arrived) = none →
      exec (.ingotFetchDone cl ⟨job, k, o⟩ u) s = .next s)

/-- A chain whose configuration word keeps R211 runs on an engine in service of a running job where what it reads and writes lies in
what the job holds; an output conversion of CLOSED tiles, a cache entry, a query row and the logits of a row run so too. A
configuration word that breaks R211, a conversion of no tiles, or a range outside faults the job and does nothing else; a read
of a tile that is not CLOSED is rejection cause 11. FUNCTION_TABLE_LOAD by a running job puts 3,104 bytes into one of an
engine's four tables, and touches no other engine or table. ROW_REDUCTION of a job whose semaphore has reached its number of
sources, with nobody waiting and its partials and residual in the blocks that hold them, adds the partials in source order into
the residual and takes the sources from the semaphore; outside those blocks it faults the job; with fewer sources it changes
nothing. -/
def Obligations.VectorAndReduction : Prop :=
  (∀ (s : State) (job e : Nat) (rd wr : List (Place × Nat)) (f : State → State), s.jobRuns job = true → rd.any (readBreaks s job e) = false ∧ wr.any (writeBreaks e) = false → (rd ++ wr).all (placeOk s job e) = true →
      s.engineRun job e rd wr f = f ((rd.filterMap storeRange).foldl (fun t r => t.jobReads job r) s)) ∧
  (∀ (s : State) (r : ChainRun), engineOk s r.engine = true → chainOk r.config = true → s.jobRuns r.job = true → (chainReads r).any (readBreaks s r.job r.engine) = false ∧ (chainWrites s r).any (writeBreaks r.engine) = false → (chainReads r ++ chainWrites s r).all (placeOk s r.job r.engine) = true →
      
  exec (.vectorChain (.chain r)) s = .next (runChain r (((chainReads r).filterMap storeRange).foldl (fun t x => t.jobReads r.job x) s))) ∧
  (∀ (s : State) (r : ChainRun), engineOk s r.engine = true → chainOk r.config = false → s.jobRuns r.job = true →
      exec (.vectorChain (.chain r)) s = .next (s.jobFault r.job)) ∧
  (∀ (s : State) (x : TileConv), s.clusterUp x.cluster = true ∧ s.jobRuns x.job = true → tileOk x = true →
      
  exec (.vectorChain (.tile x)) s = .next (s.engineRun x.job x.cluster (tileReads x) [(x.out, 4 * x.ncols)] (fun u => u.putPlace x.cluster x.out (rowBytes 0 ((List.range x.ncols).map (tileElem u x)))))) ∧
  (∀ (s : State) (x : TileConv), s.clusterUp x.cluster = true ∧ s.jobRuns x.job = true → tileOk x = false →
      exec (.vectorChain (.tile x)) s = .next (s.jobFault x.job)) ∧
  (∀ (s : State) (r : EntryConv) (q : QueryConv), r.cluster < 16 ∧ s.clusterUp (nth s.faults.clmap r.cluster 0) = true → q.cluster < 16 ∧ s.clusterUp (nth s.faults.clmap q.cluster 0) = true →
      
  exec (.vectorChain (.entry r)) s = .next (s.engineRun r.job (nth s.faults.clmap r.cluster 0) [(r.k, 4 * fmtDim (formatOf s r.job r.draft r.layer r.head)), (r.v, 4 * fmtDim (formatOf s r.job r.draft r.layer r.head))] [] (runEntry r)) ∧
  exec (.vectorChain (.query q)) s = .next (s.engineRun q.job (nth s.faults.clmap q.cluster 0) [(q.x, 4 * fmtDim (formatOf s q.job q.draft q.layer q.head))] [(q.out, 260)] (runQuery q))) ∧
  (∀ (s : State) (r : LogitRun) (row : PlanRow), s.row? r.slot = some row → s.jobRuns row.modelSlot = true ∧ r.cluster < 16 →
      exec (.vectorChain (.logits r)) s = .next (runLogits r row.modelSlot s)) ∧
  (∀ (s : State) (job e : Nat) (rd wr : List (Place × Nat)) (f : State → State), s.jobRuns job = true → rd.any (readBreaks s job e) = true ∨ wr.any (writeBreaks e) = true →
      s.engineRun job e rd wr f = mxFault s e job 0 11 0) ∧
  (∀ (s : State) (job e : Nat) (rd wr : List (Place × Nat)) (f : State → State), s.jobRuns job = true → rd.any (readBreaks s job e) = false ∧ wr.any (writeBreaks e) = false → (rd ++ wr).all (placeOk s job e) = false →
      s.engineRun job e rd wr f = s.jobFault job) ∧
  (∀ (s : State) (e job n : Nat) (b : List Byte), engineOk s e = true → s.jobRuns job = true → n < 4 →
      exec (.functionTableLoad e job n b) s = .next (s.modEngine e (fun x => { x with tables := tabPut n (slice b 0 3104) x.tables }))) ∧
  (∀ (s : State) (e job n : Nat) (b : List Byte), s.jobRuns job = false ∨ 4 ≤ n →
      exec (.functionTableLoad e job n b) s = .next s) ∧
  (∀ (s : State) (job sem : Nat) (src adr : List Nat) (a : List (Nat × Nat)) (residual k : Nat) (q : Semaphore), a = src.zip adr → tabGet sem s.store.sems = some q → s.jobRuns job = true → q.job = job ∧ q.waiters = [] → a.length ≤ q.value → a.all (partHeld s job k) = true ∧ holdsIn s (jobHolding job) residual (4 * k) = true →
      
  exec (.rowReduction job sem src adr residual k) s = .next ((reduceRow job (sourceOrder a) residual k s).onStore (fun w => { w with sems := tabMod sem (fun x => { x with value := x.value - a.length }) w.sems }))) ∧
  (∀ (s : State) (job sem : Nat) (src adr : List Nat) (a : List (Nat × Nat)) (residual k : Nat) (q : Semaphore), a = src.zip adr → tabGet sem s.store.sems = some q → s.jobRuns job = true → q.job = job ∧ q.waiters = [] → a.length ≤ q.value → a.all (partHeld s job k) = false ∨ holdsIn s (jobHolding job) residual (4 * k) = false →
      exec (.rowReduction job sem src adr residual k) s = .next (s.jobFault job)) ∧
  (∀ (s : State) (job sem : Nat) (src adr : List Nat) (a : List (Nat × Nat)) (residual k : Nat) (q : Semaphore), a = src.zip adr → tabGet sem s.store.sems = some q → q.value < a.length ∨ q.waiters ≠ [] →
      exec (.rowReduction job sem src adr residual k) s = .next s)

/-- STORE_RESERVE for a standing class is answered BAD_ARGUMENT above the class's ceiling, granted whole and answered OK where the
class's ceiling and the other classes' reserves allow it, and else queued and counted; for a class that lasts a tick it changes
nothing. STORE_RESERVE_RETRY tries the first waiting request of each class: one that may now be granted is granted and leaves
the queue, one that may not leaves it as it is; shipments whose windows wait for room then move them on. STORE_RELEASE frees a
holder's blocks of any class but JOURNAL and touches no other holder's; of JOURNAL it frees none. -/
def Obligations.StoreReservations : Prop :=
  (∀ (s : State) (c : StoreClass) (h n : Nat), isTick c = false → classCeiling s c < n →
      exec (.storeReserve c h n) s = .next (s.answerWith (leBytes 2 St.badArgument))) ∧
  (∀ (s : State) (c : StoreClass) (h n : Nat), isTick c = false → n ≤ classCeiling s c → mayGrant s c n = true →
      exec (.storeReserve c h n) s = .next ((s.grantBlocks c h n).answerWith (leBytes 2 St.ok))) ∧
  (∀ (s : State) (c : StoreClass) (h n : Nat), isTick c = false → n ≤ classCeiling s c → mayGrant s c n = false →
      
  exec (.storeReserve c h n) s = .next ((s.onStore (fun u => { u with queue := u.queue ++ [{ cls := c, blocks := n, holder := h }] })).count (fun x => { x with store := { x.store with reservationWaits := inc64 x.store.reservationWaits } }))) ∧
  (∀ (s : State) (c : StoreClass) (h n : Nat), isTick c = true →
      exec (.storeReserve c h n) s = .next s) ∧
  (∀ (s : State), exec .storeReserveRetry s = .next (allClasses.foldl retryClass s).moveWindows) ∧
  (∀ (s : State) (c : StoreClass) (w : Waiter), s.store.queue.find? (fun x => x.cls = c) = some w → mayGrant s c w.blocks = true →
      retryClass s c = (s.grantBlocks c w.holder w.blocks).onStore (fun u => { u with queue := u.queue.erase w })) ∧
  (∀ (s : State) (c : StoreClass), (∀ w, s.store.queue.find? (fun x => x.cls = c) = some w → mayGrant s c w.blocks = false) →
      retryClass s c = s) ∧
  (∀ (s : State) (c : StoreClass) (h : Nat), c ≠ .journal →
      exec (.storeRelease c h) s = .next (s.onStore (fun u => { u with held := u.held.filter (fun x => !(x.cls = c && x.holder = h)) }))) ∧
  (∀ (s : State) (h : Nat), exec (.storeRelease .journal h) s = .next s)

/-- STORE_POISONED_READ of a row with at most two erasures changes nothing (the read is rebuilt). With three it returns zeros and
counts the read, and the class decides: the job's attempts are poisoned (ACT, LOGIT), the shipment is granted again (SHIP), host
writes are issued again (HOST), a page group's read or demotion fails in this commit window or the next (TIER), the active
control die fails (JOURNAL), the row is written again (RTCACHE), and the bucket's operation is one that may be retried (PINDEX).
STORE_PATROL is told of units whose CRC fails: with patrol enabled each is treated, and otherwise they stay for a read to meet.
STORE_RESTRIPE in the empty tick's execute window copies the standing pool once, and in no other state does anything.
HUB_DIE_FAILED of the first die of ten sets its bit, drops lost semaphores, makes a re-striping pending over the other nine, and
empties the next plan; of a die already failed it changes nothing. -/
def Obligations.StoreStripes : Prop :=
  (∀ (s : State) (c : StoreClass) (a h : Nat), rowLost s (stripeRow s a) = false →
      exec (.storePoisonedRead c a h) s = .next s) ∧
  (∀ (s u : State) (c : StoreClass) (a h : Nat), rowLost s (stripeRow s a) = true → u = (s.answerWith (List.replicate 64 0)).readStore a 64 → c = .act ∨ c = .logit →
      
  exec (.storePoisonedRead c a h) s = .next (u.onPlan (fun p => { p with attempts := markAttempts (u.jobSlots h) (fun a => { a with poisoned := true }) p.attempts }))) ∧
  (∀ (s u : State) (a h : Nat), rowLost s (stripeRow s a) = true → u = (s.answerWith (List.replicate 64 0)).readStore a 64 →
      
  exec (.storePoisonedRead .ship a h) s = .next (u.regrantShip h) ∧ exec (.storePoisonedRead .host a h) s = .next u.reissueAll ∧ exec (.storePoisonedRead .journal a h) s = .next (u.controlDieFails u.faults.ctActive) ∧
  exec (.storePoisonedRead .rtcache a h) s = .next (u.onStore (mendRow (stripeRow u a))) ∧ exec (.storePoisonedRead .pindex a h) s = .next (u.onTier (fun v => { v with poisonedBuckets := v.poisonedBuckets ++ [h] })) ∧
  exec (.storePoisonedRead .tier a h) s = .next (if u.tick.inCommit then (u.readFailed h).demotionFailed h else u.onFaults (fun f => { f with lossDue := f.lossDue ++ [.tier2 h] }))) ∧
  (∀ (s : State) (bad : List (Nat × Nat)), bit s.regs.storeCtl.toNat 16 = true →
      exec (.storePatrol bad) s = .next (bad.foldl patrolUnit (s.markBad bad))) ∧
  (∀ (s : State) (bad : List (Nat × Nat)), bit s.regs.storeCtl.toNat 16 = false →
      exec (.storePatrol bad) s = .next (s.markBad bad)) ∧
  (∀ (s : State), s.store.reconfPending = true ∧ s.store.sevenTwo = false ∧ s.store.restriped = false → s.plan.emptyRunning = true → s.tick.running = true ∧ s.tick.inCommit = false →
      exec .storeRestripe s = .next (copyPool s)) ∧
  (∀ (s : State), s.plan.emptyRunning = false ∨ s.tick.inCommit = true ∨ s.store.restriped = true →
      exec .storeRestripe s = .next s) ∧
  (∀ (s : State) (t die : Nat), die < 10 ∧ s.store.failed = [] ∧ s.store.sevenTwo = false → s.start.state ≠ .off → s.faults.orphan = false →
      
  exec (.hubDieFailed t die) s = .next ((((((s.atTime t).onStore (fun u => { u with failed := (List.range 10).filter (fun d => d = die || u.failed.contains d) })).markFailed (fun f => f)).loseSems).onStore (fun u => { u with reconfPending := true, survivors := setDel die (List.range 10) })).onPlan (fun p => { p with emptyTick := true }))) ∧
  (∀ (s : State) (t die : Nat), 10 ≤ die ∨ die ∈ s.store.failed →
      exec (.hubDieFailed t die) s = .next (s.atTime t))

/-- SEM_SIGNAL of a job's semaphore with a surviving die adds v, and faults the job where the value would pass 65,535. SEM_WAIT
takes v at once where nobody waits and the value is at least v, and else joins the queue. SEM_WAIT_SATISFIED serves only the
first waiter, once its v is there. SEM_READ returns the value and the number of waiters, and changes nothing else. A semaphore
that the job does not hold is left alone. -/
def Obligations.Semaphores : Prop :=
  (∀ (s : State) (job n v : Nat) (q : Semaphore), tabGet n s.store.sems = some q → s.jobRuns job = true ∧ q.job = job → semServed s n = true → q.value + v ≤ 65535 →
      exec (.semSignal job n v) s = .next (s.modSem n (fun x => { x with value := x.value + v }))) ∧
  (∀ (s : State) (job n v : Nat) (q : Semaphore), tabGet n s.store.sems = some q → s.jobRuns job = true ∧ q.job = job → semServed s n = true → 65535 < q.value + v →
      exec (.semSignal job n v) s = .next (s.jobFault job)) ∧
  (∀ (s : State) (job n v w : Nat) (q : Semaphore), tabGet n s.store.sems = some q → s.jobRuns job = true ∧ q.job = job → semServed s n = true → q.waiters = [] ∧ v ≤ q.value →
      exec (.semWait job n v w) s = .next (s.modSem n (fun x => { x with value := x.value - v }))) ∧
  (∀ (s : State) (job n v w : Nat) (q : Semaphore), tabGet n s.store.sems = some q → s.jobRuns job = true ∧ q.job = job → semServed s n = true → q.waiters ≠ [] ∨ q.value < v →
      exec (.semWait job n v w) s = .next (s.modSem n (fun x => { x with waiters := x.waiters ++ [(w, v)] }))) ∧
  (∀ (s : State) (job n v w : Nat) (q : Semaphore), tabGet n s.store.sems = some q → q.job ≠ job →
      exec (.semWait job n v w) s = .next s ∧ exec (.semSignal job n v) s = .next s) ∧
  (∀ (s : State) (n : Nat) (q : Semaphore) (w : Nat × Nat) (r : List (Nat × Nat)), tabGet n s.store.sems = some q → q.waiters = w :: r → w.2 ≤ q.value → semServed s n = true →
      exec (.semWaitSatisfied n) s = .next (s.modSem n (fun x => { x with value := x.value - w.2, waiters := r }))) ∧
  (∀ (s : State) (n : Nat) (q : Semaphore) (w : Nat × Nat) (r : List (Nat × Nat)), tabGet n s.store.sems = some q → q.waiters = w :: r → q.value < w.2 →
      exec (.semWaitSatisfied n) s = .next s) ∧
  (∀ (s : State) (n : Nat) (q : Semaphore), n < 4096 → semServed s n = true → tabGet n s.store.sems = some q →
      exec (.semRead n) s = .next (s.answerWith (leBytes 2 q.value ++ leBytes 2 q.waiters.length)))

/-- A device in no group takes no SYNC, nor one of itself or in a warm reset. A SYNC of another group is noted as heard. One of a
member of the group notes the member; from the tick master it also gives a member its offset and tick lengths; and a member with
no grid yet takes the grid and the tick master from it, unless it comes in the joiner's own commit window (the model's choice,
log 14). After 16 aligned edges ALIGNMENT_RESTORED sets aligned again. After two edges without the tick master's SYNC the lowest
healthy member becomes master; a device that becomes it asks the members for the sets of the ticks not settled and keeps those
they answer with for a commit window. A VOTE, COMMIT_SET or SHARD_PLAN by a port that is down, or that finds the TC0 area full,
is dropped; any other takes its bytes of that area. A VOTE of this tick gives its costs, at once in the commit window and else
for it; on the master one before the cutoff is counted with the shards it names, later ones are ignored, and one of another tick
or malformed is a partner violation. VOTE_CUTOFF closes the vote at o_k + C/2, sends the COMMIT_SET and applies it. On a member
a COMMIT_SET of this tick, or of a tick of which it holds rows, is kept and applied in a commit window; one for held rows in an
execute window waits; one malformed or of a tick not expected is a violation; the master ignores this tick's. CSET_REQ is
answered with the set held. A SHARD_PLAN of the next tick is listed up to o_k + C/4, later ignored, and otherwise a violation. -/
def Obligations.GroupTick : Prop :=
  (∀ (s : State) (t : Nat) (m : SyncMsg), s.tick.inGroup = false ∨ 16 ≤ m.member ∨ s.start.warmRunning = true ∨ (m.group = s.tick.group ∧ m.member = memberNo s) →
      exec (.sync t m) s = .next (s.atTime t)) ∧
  (∀ (s : State) (t : Nat) (m : SyncMsg), s.tick.inGroup = true ∧ m.group ≠ s.tick.group ∧ m.member < 16 ∧ s.start.warmRunning = false →
      exec (.sync t m) s = .next ((s.atTime t).hearGroup m)) ∧
  (∀ (s : State) (t : Nat) (m : SyncMsg), s.tick.inGroup = true ∧ m.group = s.tick.group ∧ m.member ≠ memberNo s ∧ m.member < 16 ∧ s.start.warmRunning = false → s.tick.gridSynced = true → m.member ≠ s.tick.master ∨ s.tick.isMaster = true →
      exec (.sync t m) s = .next ((s.atTime t).hearMember m)) ∧
  (∀ (s : State) (t : Nat) (m : SyncMsg), s.tick.inGroup = true ∧ m.group = s.tick.group ∧ m.member ≠ memberNo s ∧ m.member < 16 ∧ s.start.warmRunning = false → s.tick.gridSynced = true → m.member = s.tick.master ∧ s.tick.isMaster = false →
      exec (.sync t m) s = .next ((((s.atTime t).hearMember m).noteOffset m.offset).takeLengths m)) ∧
  (∀ (s : State) (t : Nat) (m : SyncMsg), s.tick.inGroup = true ∧ m.group = s.tick.group ∧ m.member ≠ memberNo s ∧ m.member < 16 ∧ s.start.warmRunning = false → s.tick.gridSynced = false → s.tick.inCommit = false →
      exec (.sync t m) s = .next ((((s.atTime t).hearMember m).adoptGrid m).setMaster m.master)) ∧
  (∀ (s : State) (t : Nat) (m : SyncMsg), s.tick.inGroup = true ∧ m.group = s.tick.group ∧ m.member ≠ memberNo s ∧ m.member < 16 ∧ s.start.warmRunning = false → s.tick.gridSynced = false → s.tick.inCommit = true →
      exec (.sync t m) s = .next ((s.atTime t).hearMember m)) ∧
  (∀ (s : State) (t : Nat), s.tick.inGroup = true ∧ s.tick.aligned = false → 16 ≤ s.tick.alignedRun →
      exec (.alignmentRestored t) s = .next ((s.atTime t).onTick (fun k => { k with aligned := true, alignedRun := 0 }))) ∧
  (∀ (s : State) (t : Nat), s.tick.alignedRun < 16 →
      exec (.alignmentRestored t) s = .next (s.atTime t)) ∧
  (∀ (s : State) (f : List (Nat × List (Nat × Nat × Nat × Nat))) (m : Nat), s.tick.inGroup = true ∧ 2 ≤ s.tick.masterMisses → lowestOf ((healthyMembers s).filter (fun m => m ≠ s.tick.master)) = some m → m ≠ memberNo s →
      exec (.tickMasterRecompute f) s = .next (s.setMaster m)) ∧
  (∀ (s u : State) (f : List (Nat × List (Nat × Nat × Nat × Nat))) (m : Nat), s.tick.inGroup = true ∧ 2 ≤ s.tick.masterMisses → lowestOf ((healthyMembers s).filter (fun m => m ≠ s.tick.master)) = some m → m = memberNo s → u = (((openTicks (s.setMaster m)).foldl (fun t k => t.broadcast 4 (leBytes 8 k)) (s.setMaster m)).onTick (fun k => { k with settling := openTicks (s.setMaster m) })) →
      
  exec (.tickMasterRecompute f) s = .next ((f.filter (fun c => (openTicks (s.setMaster m)).contains c.1)).foldl (fun t c => t.keepFetched c.1 c.2) u)) ∧
  (∀ (s : State) (f : List (Nat × List (Nat × Nat × Nat × Nat))), s.tick.inGroup = false ∨ s.tick.masterMisses < 2 →
      exec (.tickMasterRecompute f) s = .next s) ∧
  (∀ (s u : State) (t port : Nat) (b : List Byte) (c : List (Nat × Nat × Nat × Nat)) (n : List (Nat × Nat × List Nat)), s.tick.inGroup = true ∧ s.tick.isMaster = true ∧ s.tick.running = true → Tc0Lands s port b → s.tick.inCommit = true ∧ u = c.foldl State.takeCost (tc0Taken t b s) → voteOk b = true ∧ field b 0 8 = s.tick.index → s.tick.votingOpen = true → t < s.tick.commitOpenAt + s.tick.commitUs * 500 →
      exec (.vote t port ⟨b, c, n⟩) s = .next ((u.addVotes (field b 8 2) (voteEntries b)).onTick (fun k => { k with named := k.named ++ n }))) ∧
  (∀ (s : State) (t port : Nat) (b : List Byte) (c : List (Nat × Nat × Nat × Nat)) (n : List (Nat × Nat × List Nat)), s.tick.inGroup = true ∧ s.tick.isMaster = true ∧ s.tick.running = true → Tc0Lands s port b → s.tick.inCommit = false → voteOk b = true ∧ field b 0 8 = s.tick.index → t < s.tick.commitOpenAt + s.tick.commitUs * 500 →
      exec (.vote t port ⟨b, c, n⟩) s = .next ((((tc0Taken t b s).onPlan (fun p => { p with costsEarly := p.costsEarly ++ c })).addVotes (field b 8 2) (voteEntries b)).onTick (fun k => { k with named := k.named ++ n }))) ∧
  (∀ (s u : State) (t port : Nat) (b : List Byte) (c : List (Nat × Nat × Nat × Nat)) (n : List (Nat × Nat × List Nat)), s.tick.inGroup = true ∧ s.tick.isMaster = true ∧ s.tick.running = true → Tc0Lands s port b → s.tick.inCommit = true ∧ u = c.foldl State.takeCost (tc0Taken t b s) → voteOk b = true ∧ field b 0 8 = s.tick.index → s.tick.votingOpen = false ∨ s.tick.commitOpenAt + s.tick.commitUs * 500 ≤ t →
      exec (.vote t port ⟨b, c, n⟩) s = .next u) ∧
  (∀ (s u : State) (t port : Nat) (b : List Byte) (c : List (Nat × Nat × Nat × Nat)) (n : List (Nat × Nat × List Nat)), s.tick.inGroup = true ∧ s.tick.isMaster = true ∧ s.tick.running = true → Tc0Lands s port b → s.tick.inCommit = true ∧ u = c.foldl State.takeCost (tc0Taken t b s) → voteOk b = false ∨ field b 0 8 ≠ s.tick.index →
      exec (.vote t port ⟨b, c, n⟩) s = .next (u.violate port)) ∧
  (∀ (s : State) (t port : Nat) (b : List Byte) (c : List (Nat × Nat × Nat × Nat)) (n : List (Nat × Nat × List Nat)), s.tick.inGroup = true ∧ s.tick.isMaster = false ∧ s.tick.running = true → Tc0Lands s port b → s.tick.inCommit = true →
      exec (.vote t port ⟨b, c, n⟩) s = .next (c.foldl State.takeCost (tc0Taken t b s))) ∧
  (∀ (s : State) (t port : Nat) (b : List Byte) (c : List (Nat × Nat × Nat × Nat)) (n : List (Nat × Nat × List Nat)), s.tick.inGroup = true ∧ s.tick.running = true → (s.gport port).up = false ∨ 4194304 < s.gelcon.tc0Used + tc0Size b →
      exec (.vote t port ⟨b, c, n⟩) s = .next (s.atTime t) ∧ exec (.commitSet t port b) s = .next (s.atTime t) ∧ exec (.shardPlan t port b) s = .next (s.atTime t)) ∧
  (∀ (s u : State), s.tick.inGroup = true ∧ s.tick.isMaster = true → s.tick.inCommit = true ∧ s.tick.votingOpen = true → u = (s.atTime (s.tick.commitOpenAt + s.tick.commitUs * 500)).onTick (fun k => { k with votingOpen := false }) →
      
  exec .voteCutoff s = .next (((u.keepSet u.tick.index (cutoffSet u u.tick.named)).broadcast 3 (voteBytes u.tick.index (identityOf u) (setEntries (cutoffSet u u.tick.named)))).applySet u.tick.index (cutoffSet u u.tick.named))) ∧
  (∀ (s : State), s.tick.isMaster = false ∨ s.tick.votingOpen = false →
      exec .voteCutoff s = .next s) ∧
  (∀ (s : State) (t port : Nat) (b : List Byte) (set : List (Nat × Nat × Nat × Nat)), s.tick.inGroup = true ∧ s.tick.isMaster = false → Tc0Lands s port b → voteOk b = true ∧ field b 0 8 = s.tick.index → s.tick.inCommit = true → set = ((voteEntries b).filter (fun e => e.2.2.1)).map (fun e => (e.1, e.2.1, e.2.2.2.1, e.2.2.2.2)) →
      
  exec (.commitSet t port b) s = .next (((tc0Taken t b s).keepSet s.tick.index set).applySet s.tick.index set)) ∧
  (∀ (s : State) (t port k : Nat) (b : List Byte) (set : List (Nat × Nat × Nat × Nat)), s.tick.inGroup = true ∧ s.tick.isMaster = false → Tc0Lands s port b → voteOk b = true ∧ field b 0 8 = k → k ≠ s.tick.index ∧ s.plan.heldRows.any (fun h => h.1 = k) = true → s.tick.inCommit = true → set = ((voteEntries b).filter (fun e => e.2.2.1)).map (fun e => (e.1, e.2.1, e.2.2.2.1, e.2.2.2.2)) →
      
  exec (.commitSet t port b) s = .next (((tc0Taken t b s).keepSet k set).applySet k set)) ∧
  (∀ (s : State) (t port : Nat) (b : List Byte) (set : List (Nat × Nat × Nat × Nat)), s.tick.inGroup = true ∧ s.tick.isMaster = false → Tc0Lands s port b → voteOk b = true ∧ field b 0 8 ≠ s.tick.index → s.plan.heldRows.any (fun h => h.1 = field b 0 8) = true → s.tick.inCommit = false → set = ((voteEntries b).filter (fun e => e.2.2.1)).map (fun e => (e.1, e.2.1, e.2.2.2.1, e.2.2.2.2)) →
      
  exec (.commitSet t port b) s = .next ((tc0Taken t b s).keepFetched (field b 0 8) set)) ∧
  (∀ (s : State) (t port : Nat) (b : List Byte), s.tick.inGroup = true → Tc0Lands s port b → voteOk b = false ∨ setExpected s (field b 0 8) = false →
      exec (.commitSet t port b) s = .next ((tc0Taken t b s).violate port)) ∧
  (∀ (s : State) (t port : Nat) (b : List Byte), s.tick.inGroup = true → Tc0Lands s port b → voteOk b = true ∧ field b 0 8 = s.tick.index → s.tick.isMaster = true ∨ s.tick.inCommit = false →
      exec (.commitSet t port b) s = .next (tc0Taken t b s)) ∧
  (∀ (s : State) (t src k : Nat) (c : Nat × List (Nat × Nat × Nat × Nat)), s.tick.inGroup = true → s.tick.commitSets.find? (fun c => c.1 = k) = some c →
      exec (.csetReq t src k) s = .next ((s.atTime t).sendMsg src 3 0 0 0 false (voteBytes k (identityOf (s.atTime t)) (setEntries c.2)))) ∧
  (∀ (s : State) (t port : Nat) (b : List Byte), s.tick.inGroup = true ∧ s.tick.running = true → Tc0Lands s port b → shardPlanOk b = true ∧ field b 0 8 = s.tick.index + 1 → t < s.tick.commitOpenAt + s.tick.commitUs * 250 →
      exec (.shardPlan t port b) s = .next ((tc0Taken t b s).onPlan (fun p => { p with shardListed := p.shardListed ++ shardEntries b }))) ∧
  (∀ (s : State) (t port : Nat) (b : List Byte), s.tick.inGroup = true ∧ s.tick.running = true → Tc0Lands s port b → shardPlanOk b = true ∧ field b 0 8 = s.tick.index + 1 → s.tick.commitOpenAt + s.tick.commitUs * 250 ≤ t →
      exec (.shardPlan t port b) s = .next (tc0Taken t b s)) ∧
  (∀ (s : State) (t port : Nat) (b : List Byte), s.tick.inGroup = true ∧ s.tick.running = true → Tc0Lands s port b → shardPlanOk b = false ∨ field b 0 8 ≠ s.tick.index + 1 →
      exec (.shardPlan t port b) s = .next ((tc0Taken t b s).violate port))

/-- ACT_DATA for this device within its receive space writes its payload at its address and is one packet less that its row's job
waits for; outside that space it is discarded, counted, raised as STORE_BOUNDS and a violation. One of this device's own for
another is sent while a job runs, urgent where that job includes class 7, and else nothing happens. MGMT is kept for its commit
window with its port, but for port states, which update the group's view at once. ERR is recorded. By a port that is down, or on
a virtual channel whose stream is being discarded and whose next header has not been located, no packet acts; one whose header
has been located acts as on a channel that is not. A packet of another device takes no effect here, nor does one other than MGMT
over a port that carries only MGMT, and one with a bad header is dropped, answered and counted at its port. PACKET_FORWARD on a
port that is up and carries more than MGMT sends a packet on by its next hop, keeps one that is at its destination, and drops
one with no hop or a bad header. -/
def Obligations.Packets : Prop :=
  (∀ (s : State) (t port : Nat) (p : Packet), ForUs s port p 0x10 → holdsIn s rowHolding p.addr p.payload.length = true →
      exec (.actData t ⟨port, p⟩) s = .next (((s.atTime t).putStore p.addr p.payload).actArrived p.addr)) ∧
  (∀ (s : State) (t port : Nat) (p : Packet), ForUs s port p 0x10 → holdsIn s rowHolding p.addr p.payload.length = false →
      exec (.actData t ⟨port, p⟩) s = .next (((s.atTime t).outOfBounds p.addr).violate port)) ∧
  (∀ (s : State) (t port : Nat) (p : Packet), p.src = identityOf s ∧ p.dst ≠ identityOf s ∧ p.ptype = 0x10 → headerCause s p = 0 → s.plan.jobs.any (fun j => j.active) = true →
      exec (.actData t ⟨port, p⟩) s = .next ((s.atTime t).sendPacket { p with urgent := s.plan.jobs.any (fun j => j.active && j.urgent) })) ∧
  (∀ (s : State) (t port : Nat) (p : Packet), p.src = identityOf s ∧ p.dst ≠ identityOf s ∧ p.ptype = 0x10 → headerCause s p ≠ 0 ∨ s.plan.jobs.any (fun j => j.active) = false →
      exec (.actData t ⟨port, p⟩) s = .next (s.atTime t)) ∧
  (∀ (s : State) (t port : Nat) (p : Packet) (m : MgmtMsg), (p.ptype = 0x30 ∧ headerCause s p = 0) ∧ p.dst = identityOf s → Located s port p → (∀ a l, m ≠ .portStates a l) →
      exec (.mgmt t ⟨port, p⟩ m) s = .next ((s.atTime t).onGelcon (fun g => { g with mgmtIn := g.mgmtIn ++ [((s.atTime t).now, port, p.src, m)] }))) ∧
  (∀ (s : State) (t port : Nat) (p : Packet) (a : Nat) (l : List (Nat × Bool)), (p.ptype = 0x30 ∧ headerCause s p = 0) ∧ p.dst = identityOf s → Located s port p →
      exec (.mgmt t ⟨port, p⟩ (.portStates a l)) s = .next ((s.atTime t).onGelcon (fun g => { g with view := g.view.filter (fun v => v.1 ≠ a) ++ l.map (fun x => (a, x.1, x.2)) }))) ∧
  (∀ (s : State) (t port : Nat) (p : Packet), ForUs s port p 0x3E →
      exec (.err t ⟨port, p⟩) s = .next ((s.atTime t).onGelcon (fun g => { g with errs := g.errs ++ [(field p.payload 0 1, field p.payload 1 1, field p.payload 4 4)] }))) ∧
  (∀ (s : State) (t port : Nat) (p : Packet) (q : List (Nat × Nat)) (m : MgmtMsg), p.src ≠ identityOf s → (s.gport port).up = false ∨ ((portVc (s.gport port) (2 * (p.tc % 4) + p.hop % 2)).resync = true ∧ p.located = false) →
      
  exec (.actData t ⟨port, p⟩) s = .next (s.atTime t) ∧
  exec (.err t ⟨port, p⟩) s = .next (s.atTime t) ∧
  exec (.mgmt t ⟨port, p⟩ m) s = .next (s.atTime t) ∧
  exec (.shipOpen t ⟨port, p⟩) s = .next (s.atTime t) ∧
  exec (.shipGrant t ⟨port, p⟩) s = .next (s.atTime t) ∧
  exec (.shipData t port p) s = .next (s.atTime t) ∧
  exec (.shipDone t port p) s = .next (s.atTime t) ∧
  exec (.shipEnd t port p) s = .next (s.atTime t) ∧
  exec (.packetForward t port p q) s = .next (s.atTime t)) ∧
  (∀ (s u : State) (t port : Nat) (p : Packet) (m : MgmtMsg), (s.gport port).up = true ∧ (portVc (s.gport port) (2 * (p.tc % 4) + p.hop % 2)).resync = true → p.located = true ∧ p.src ≠ identityOf s ∧ onlyMgmt s port = false → u = s.modPort port (modVc (2 * (p.tc % 4) + p.hop % 2) (fun v => { v with resync := false })) →
      
  (p.ptype = 0x10 → exec (.actData t ⟨port, p⟩) s = exec (.actData t ⟨port, p⟩) u) ∧
  (p.ptype = 0x3E → exec (.err t ⟨port, p⟩) s = exec (.err t ⟨port, p⟩) u) ∧
  (p.ptype = 0x30 → exec (.mgmt t ⟨port, p⟩ m) s = exec (.mgmt t ⟨port, p⟩ m) u) ∧
  (p.ptype = 0x20 → exec (.shipOpen t ⟨port, p⟩) s = exec (.shipOpen t ⟨port, p⟩) u) ∧
  (p.ptype = 0x21 → exec (.shipGrant t ⟨port, p⟩) s = exec (.shipGrant t ⟨port, p⟩) u) ∧
  (p.ptype = 0x22 → exec (.shipData t port p) s = exec (.shipData t port p) u) ∧
  (p.ptype = 0x23 → exec (.shipDone t port p) s = exec (.shipDone t port p) u) ∧
  (p.ptype = 0x24 → exec (.shipEnd t port p) s = exec (.shipEnd t port p) u)) ∧
  (∀ (s : State) (t port : Nat) (p : Packet) (m : MgmtMsg), Located s port p → headerCause s p = 0 ∧ p.dst ≠ identityOf s ∧ p.src ≠ identityOf s →
      
  exec (.actData t ⟨port, p⟩) s = .next (s.atTime t) ∧
  exec (.err t ⟨port, p⟩) s = .next (s.atTime t) ∧
  exec (.mgmt t ⟨port, p⟩ m) s = .next (s.atTime t) ∧
  exec (.shipOpen t ⟨port, p⟩) s = .next (s.atTime t) ∧
  exec (.shipGrant t ⟨port, p⟩) s = .next (s.atTime t) ∧
  exec (.shipData t port p) s = .next (s.atTime t) ∧
  exec (.shipDone t port p) s = .next (s.atTime t) ∧
  exec (.shipEnd t port p) s = .next (s.atTime t)) ∧
  (∀ (s : State) (t port : Nat) (p : Packet) (q : List (Nat × Nat)), onlyMgmt s port = true → p.src ≠ identityOf s →
      
  exec (.actData t ⟨port, p⟩) s = .next (s.atTime t) ∧
  exec (.err t ⟨port, p⟩) s = .next (s.atTime t) ∧
  exec (.shipOpen t ⟨port, p⟩) s = .next (s.atTime t) ∧
  exec (.shipGrant t ⟨port, p⟩) s = .next (s.atTime t) ∧
  exec (.shipData t port p) s = .next (s.atTime t) ∧
  exec (.shipDone t port p) s = .next (s.atTime t) ∧
  exec (.shipEnd t port p) s = .next (s.atTime t) ∧
  exec (.packetForward t port p q) s = .next (s.atTime t)) ∧
  (∀ (s u : State) (t port : Nat) (p : Packet) (m : MgmtMsg), Located s port p → onlyMgmt s port = false ∧ p.src ≠ identityOf s → headerCause s p ≠ 0 → u = (s.atTime t).badPacket port (headerCause s p) p →
      
  (p.ptype = 0x10 → exec (.actData t ⟨port, p⟩) s = .next u) ∧
  (p.ptype = 0x3E → exec (.err t ⟨port, p⟩) s = .next u) ∧
  (p.ptype = 0x30 → exec (.mgmt t ⟨port, p⟩ m) s = .next u) ∧
  (p.ptype = 0x20 → exec (.shipOpen t ⟨port, p⟩) s = .next u) ∧
  (p.ptype = 0x21 → exec (.shipGrant t ⟨port, p⟩) s = .next u) ∧
  (p.ptype = 0x22 → exec (.shipData t port p) s = .next u) ∧
  (p.ptype = 0x23 → exec (.shipDone t port p) s = .next u) ∧
  (p.ptype = 0x24 → exec (.shipEnd t port p) s = .next u)) ∧
  (∀ (s : State) (t port : Nat) (p : Packet) (q : List (Nat × Nat)) (n : Nat) (h : Packet), Located s port p ∧ onlyMgmt s port = false → headerCause s p = 0 → route (s.atTime t) p q (decide (port < 15)) = .out n h →
      exec (.packetForward t port p q) s = .next (((s.atTime t).onGelcon (fun g => { g with outbox := g.outbox ++ [h] })).queueFlits n (packetFlits p h true (decide (port < 15))))) ∧
  (∀ (s : State) (t port : Nat) (p : Packet) (q : List (Nat × Nat)), Located s port p ∧ onlyMgmt s port = false → headerCause s p = 0 → route (s.atTime t) p q (decide (port < 15)) = .keep →
      exec (.packetForward t port p q) s = .next (s.atTime t)) ∧
  (∀ (s : State) (t port : Nat) (p : Packet) (q : List (Nat × Nat)) (c : Nat), Located s port p ∧ onlyMgmt s port = false → (headerCause s p ≠ 0 ∧ c = headerCause s p) ∨ (headerCause s p = 0 ∧ route (s.atTime t) p q (decide (port < 15)) = .drop c) →
      exec (.packetForward t port p q) s = .next ((s.atTime t).badPacket port c p))

/-- SHIP_OPEN of a handle not open, with fewer than 4,096 received shipments open, opens it unclaimed; one more or one repeated is
answered SHIP_END with cause 4, and one whose fields are out of range opens nothing. SHIP_GRANT at the origin sends the bytes
that the window opens, or those granted again, and SHIP_DONE after the last. SHIP_DATA inside the window of a claimed shipment
keeps its bytes and where they lie, outside it is a violation. SHIP_WINDOW_ADVANCE in an execute window lands received bytes and
moves the window; SHIP_DONE takes the blocks' CRCs and verifies, or asks again for what has not come, at most three times, and
then fails. SHIP_END closes the handle and tells the import or the migration it belongs to. An unclaimed shipment fails with
cause 3 at its time limit. SHIPMENT_APPLY in a commit window after verification sets the request prefilling from what was
shipped. A packet of a handle that is not open, or of a shipment of the other side, is a violation of its port. -/
def Obligations.ShipmentsArrive : Prop :=
  (∀ (s : State) (t port : Nat) (p : Packet), ForUs s port p 0x20 → shipOpenOk p = true → (s.gelcon.ships.filter (fun x => !x.outgoing)).length < 4096 → s.ship? (field p.payload 0 8) = none →
      
  exec (.shipOpen t ⟨port, p⟩) s = .next ((s.atTime t).onGelcon (fun g => { g with ships := g.ships ++ [{ handle := field p.payload 0 8, modelFp := BitVec.ofNat 256 (field p.payload 8 32), cfmt := field p.payload 40 1, blocks := field p.payload 44 4, openedAt := (s.atTime t).now, tc := p.tc }] }))) ∧
  (∀ (s : State) (t port : Nat) (p : Packet), ForUs s port p 0x20 → shipOpenOk p = true → 4096 ≤ (s.gelcon.ships.filter (fun x => !x.outgoing)).length ∨ (s.ship? (field p.payload 0 8)).isSome = true →
      exec (.shipOpen t ⟨port, p⟩) s = .next ((s.atTime t).sendEnd p.src (field p.payload 0 8) p.tc 4)) ∧
  (∀ (s : State) (t port : Nat) (p : Packet), ForUs s port p 0x20 → shipOpenOk p = false →
      exec (.shipOpen t ⟨port, p⟩) s = .next (s.atTime t)) ∧
  (∀ (s : State) (t port : Nat) (p : Packet) (x : Shipment), s.ship? (field p.payload 0 8) = none →
      (ForUs s port p 0x21 → exec (.shipGrant t ⟨port, p⟩) s = .next ((s.atTime t).badPacket port 9 p)) ∧ (ForUs s port p 0x23 → exec (.shipDone t port p) s = .next ((s.atTime t).badPacket port 9 p)) ∧ (ForUs s port p 0x24 → exec (.shipEnd t port p) s = .next ((s.atTime t).badPacket port 9 p))) ∧
  (∀ (s : State) (t port : Nat) (p : Packet) (x : Shipment), ForUs s port p 0x21 → s.ship? (field p.payload 0 8) = some x → x.outgoing = false ∨ x.slot = none →
      exec (.shipGrant t ⟨port, p⟩) s = .next ((s.atTime t).badPacket port 9 p)) ∧
  (∀ (s u : State) (t port : Nat) (p : Packet) (x y : Shipment) (n lo stop : Nat) (r : Request) (i : ModelInfo), ForUs s port p 0x21 → s.ship? (field p.payload 0 8) = some x → x.outgoing = true ∧ x.slot = some n → s.req? n = some r → i = (s.mslot r.modelSlot).info ∧ stop = min (field p.payload 16 8) (x.blocks * blockBytes i) → lo = (if stop ≤ x.landed then field p.payload 8 4 * blockBytes i else max x.landed (field p.payload 8 4 * blockBytes i)) → y = { x with landed := max x.landed stop, windowEnd := stop, firstBlock := if x.landed = 0 then field p.payload 8 4 else x.firstBlock } → u = ((s.atTime t).setShip y).sendMsg p.src 0x22 x.tc lo (field p.payload 0 8) false (outBytes (s.atTime t) i r lo (stop - lo)) →
      
  exec (.shipGrant t ⟨port, p⟩) s = .next (if y.landed = x.blocks * blockBytes i then u.sendDone i r y p.src y.firstBlock else u)) ∧
  (∀ (s : State) (t port : Nat) (p : Packet) (x : Shipment), ForUs s port p 0x22 → s.ship? p.handle = some x → x.outgoing = false ∧ x.slot.isSome = true → x.firstBlock * blockBytes (shipModel s x) ≤ p.addr ∧ p.addr + p.payload.length ≤ x.windowEnd →
      
  exec (.shipData t port p) s = .next ((s.atTime t).setShip { x with body := Memory.writeN x.body p.addr p.payload, got := x.got ++ [(p.addr, p.addr + p.payload.length)] })) ∧
  (∀ (s : State) (t port : Nat) (p : Packet) (x : Shipment), ForUs s port p 0x22 → s.ship? p.handle = some x → x.outgoing = true ∨ p.addr < x.firstBlock * blockBytes (shipModel s x) ∨ x.windowEnd < p.addr + p.payload.length ∨ x.slot = none →
      exec (.shipData t port p) s = .next ((s.atTime t).badPacket port 9 p)) ∧
  (∀ (s : State) (t port : Nat) (p : Packet), ForUs s port p 0x22 → s.ship? p.handle = none →
      exec (.shipData t port p) s = .next ((s.atTime t).badPacket port 9 p)) ∧
  (∀ (s : State) (h upto n : Nat) (x : Shipment) (r : Request), s.ship? h = some x → x.slot = some n ∧ x.outgoing = false → s.req? n = some r → s.tick.running = true ∧ s.tick.inCommit = false → x.landed ≤ upto ∧ upto ≤ coveredTo x.got x.got.length x.landed →
      
  exec (.shipWindowAdvance h upto) s = .next (((s.landBytes (shipModel s x) r x x.landed (upto - x.landed)).moveWindow { x with landed := upto }).tryVerify h)) ∧
  (∀ (s : State) (t port : Nat) (p : Packet) (x y : Shipment) (n : Nat), ForUs s port p 0x23 → s.ship? (field p.payload 0 8) = some x → x.outgoing = false ∧ x.slot.isSome = true → n = field p.payload 12 4 ∧ inRange n 1 1020 = true → y = { x with crcs := (List.range n).foldl (fun l k => tabPut (field p.payload 8 4 + k) (field p.payload (16 + 4 * k) 4) l) x.crcs } → min x.grantEnd ((field p.payload 8 4 + n) * blockBytes (shipModel s x)) ≤ coveredTo x.got x.got.length (max (field p.payload 8 4 * blockBytes (shipModel s x)) (x.firstBlock * blockBytes (shipModel s x))) →
      
  exec (.shipDone t port p) s = .next (((s.atTime t).setShip y).tryVerify x.handle)) ∧
  (∀ (s : State) (t port : Nat) (p : Packet) (x y : Shipment) (n c : Nat), ForUs s port p 0x23 → s.ship? (field p.payload 0 8) = some x → x.outgoing = false ∧ x.slot.isSome = true → n = field p.payload 12 4 ∧ inRange n 1 1020 = true → c = coveredTo x.got x.got.length (max (field p.payload 8 4 * blockBytes (shipModel s x)) (x.firstBlock * blockBytes (shipModel s x))) ∧ c < min x.grantEnd ((field p.payload 8 4 + n) * blockBytes (shipModel s x)) → x.regrants < 3 → y = { x with crcs := (List.range n).foldl (fun l k => tabPut (field p.payload 8 4 + k) (field p.payload (16 + 4 * k) 4) l) x.crcs, regrants := x.regrants + 1 } →
      
  exec (.shipDone t port p) s = .next (((s.atTime t).setShip y).sendGrant y (c / blockBytes (shipModel s x)))) ∧
  (∀ (s : State) (t port : Nat) (p : Packet) (x y : Shipment) (n : Nat), ForUs s port p 0x23 → s.ship? (field p.payload 0 8) = some x → x.outgoing = false ∧ x.slot.isSome = true → n = field p.payload 12 4 ∧ inRange n 1 1020 = true → coveredTo x.got x.got.length (max (field p.payload 8 4 * blockBytes (shipModel s x)) (x.firstBlock * blockBytes (shipModel s x))) < min x.grantEnd ((field p.payload 8 4 + n) * blockBytes (shipModel s x)) → 3 ≤ x.regrants → y = { x with crcs := (List.range n).foldl (fun l k => tabPut (field p.payload 8 4 + k) (field p.payload (16 + 4 * k) 4) l) x.crcs } →
      
  exec (.shipDone t port p) s = .next ((s.atTime t).failShip y 1)) ∧
  (∀ (s : State) (t port : Nat) (p : Packet) (x : Shipment), ForUs s port p 0x24 → s.ship? (field p.payload 0 8) = some x → x.slot = none →
      exec (.shipEnd t port p) s = .next ((s.atTime t).dropShip (field p.payload 0 8))) ∧
  (∀ (s : State) (t port n : Nat) (p : Packet) (x : Shipment), ForUs s port p 0x24 → s.ship? (field p.payload 0 8) = some x → x.slot = some n →
      exec (.shipEnd t port p) s = .next (if x.outgoing then ((s.atTime t).dropShip (field p.payload 0 8)).shipResult n (field p.payload 8 1) else ((s.atTime t).dropShip (field p.payload 0 8)).failImport n)) ∧
  (∀ (s : State) (t h : Nat) (x : Shipment), s.ship? h = some x → x.slot = none ∧ x.outgoing = false → x.openedAt + rf s.regs.glShip 31 16 * 1000000 ≤ t →
      exec (.shipUnclaimedTimeout t h) s = .next ((s.atTime t).failShip x 3)) ∧
  (∀ (s : State) (t h : Nat) (x : Shipment), s.ship? h = some x → x.slot.isSome = true ∨ t < x.openedAt + rf s.regs.glShip 31 16 * 1000000 →
      exec (.shipUnclaimedTimeout t h) s = .next (s.atTime t)) ∧
  (∀ (s : State) (t h upto : Nat), s.ship? h = none →
      exec (.shipUnclaimedTimeout t h) s = .next (s.atTime t) ∧ exec (.shipWindowAdvance h upto) s = .next s ∧ exec (.shipmentApply h) s = .next s) ∧
  (∀ (s : State) (h n : Nat) (x : Shipment) (r : Request) (len : Nat), s.ship? h = some x → x.slot = some n → s.req? n = some r → s.tick.inCommit = true → x.verified = true ∧ x.verifiedAt < s.tick.commitOpenAt → r.state = .importing ∧ r.migrating = false ∧ n ∉ s.req.unsettled → len = 128 * (x.grantEnd / blockBytes (shipModel s x)) →
      
  exec (.shipmentApply h) s = .next ((((s.modReq n (fun q => { q with state := .prefilling, committedLen := max q.committedLen len })).markPublish n (128 * x.firstBlock) len).dropShip h).sendEnd (shipSender h) h x.tc 0))

/-- A flit at a port that is trained and not quarantined counts the codewords that the FEC corrected and could not, and gives its
lane's frame count; with one it could not correct it is discarded. A bad CRC counts and leaves a sequence gap; a reserved type
is a violation, one of another row's type does nothing, and so is a control flit with nonzero reserved bytes. A sequenced flit
that is not the expected one waits while an active lane's frames are behind its own and is a gap where none is; a gap is
answered with a NAK only while none waits. A good flit in its turn delivers its ack and credit fields, then what its type
carries: FLIT_DATA is accepted into its virtual channel, FLIT_IDLE nothing, FLIT_CREDIT the eight credit counts, FLIT_NAK with
cause 0 resends from its sequence number and with cause 1 restarts a channel, FLIT_VC_RESET restarts the receiver's counts of a
channel, FLIT_IDENT brings the port up (and reports it where it was down) or marks it miscabled, FLIT_LANE sets the lanes from
its frame on and answers where its mask differs; then flits that waited follow, in sequence order, and what may go is sent. At
any other port a flit changes nothing but Invar. -/
def Obligations.Flits : Prop :=
  (∀ (s u : State) (t p : Nat) (f : FlitIn), FlitComes (s.atTime t) p 1 f → u = flitFields (s.atTime t) p f →
      exec (.flitData t p f) s = .next (afterFlit p ((u.accept p f.bytes).dataFlit p f.bytes))) ∧
  (∀ (s u : State) (t p : Nat) (f : FlitIn), FlitGood (s.atTime t) p 0 f → u = flitFields (s.atTime t) p f →
      exec (.flitIdle t p f) s = .next (afterFlit p u)) ∧
  (∀ (s u : State) (t p : Nat) (f : FlitIn), FlitComes (s.atTime t) p 2 f → allZero ((flData f.bytes).drop 16) = true → u = flitFields (s.atTime t) p f →
      exec (.flitCredit t p f) s = .next (afterFlit p ((u.accept p f.bytes).modPort p (fun g => (List.range 8).foldl (fun g n => modVc n (fun v => { v with allowed := field (flData f.bytes) (2 * n) 2 }) g) g)))) ∧
  (∀ (s u : State) (t p : Nat) (f : FlitIn), FlitComes (s.atTime t) p 4 f → allZero ((flData f.bytes).drop 1) = true ∧ field (flData f.bytes) 0 1 < 8 → u = flitFields (s.atTime t) p f →
      exec (.flitVcReset t p f) s = .next (afterFlit p ((u.accept p f.bytes).modPort p (modVc (field (flData f.bytes) 0 1) (restartReceive (field (flData f.bytes) 0 1)))))) ∧
  (∀ (s u : State) (t p : Nat) (f : FlitIn), FlitComes (s.atTime t) p 2 f → allZero ((flData f.bytes).drop 16) = false → u = flitFields (s.atTime t) p f →
      exec (.flitCredit t p f) s = .next (afterFlit p ((u.accept p f.bytes).violate p))) ∧
  (∀ (s u : State) (t p : Nat) (f : FlitIn), FlitComes (s.atTime t) p 4 f → allZero ((flData f.bytes).drop 1) = false ∨ 8 ≤ field (flData f.bytes) 0 1 → u = flitFields (s.atTime t) p f →
      exec (.flitVcReset t p f) s = .next (afterFlit p ((u.accept p f.bytes).violate p))) ∧
  (∀ (s u : State) (t p : Nat) (f : FlitIn), FlitGood (s.atTime t) p 3 f → allZero ((flData f.bytes).drop 4) = false → u = flitFields (s.atTime t) p f →
      exec (.flitNak t p f) s = .next (afterFlit p (u.violate p))) ∧
  (∀ (s u : State) (t p : Nat) (f : FlitIn), FlitGood (s.atTime t) p 6 f → allZero ((flData f.bytes).drop 5) = false → u = flitFields (s.atTime t) p f →
      exec (.flitLane t p f) s = .next (afterFlit p (u.violate p))) ∧
  (∀ (s u : State) (t p : Nat) (f : FlitIn), FlitGood (s.atTime t) p 3 f → allZero ((flData f.bytes).drop 4) = true → field (flData f.bytes) 0 1 = 0 → u = flitFields (s.atTime t) p f →
      exec (.flitNak t p f) s = .next (afterFlit p (u.resendFrom p (field (flData f.bytes) 2 2 % 4096)))) ∧
  (∀ (s u : State) (t p n : Nat) (f : FlitIn), FlitGood (s.atTime t) p 3 f → allZero ((flData f.bytes).drop 4) = true → field (flData f.bytes) 0 1 = 1 ∧ field (flData f.bytes) 1 1 = n ∧ n < 8 → u = flitFields (s.atTime t) p f →
      
  exec (.flitNak t p f) s = .next (afterFlit p ((u.modPort p (fun g => { modVc n (restartSend n) g with txq := g.txq.filter (fun f => !(f.ftype = 1 && f.vc = n)) })).queueFlits p [{ ftype := 4, data := leBytes 1 n }]))) ∧
  (∀ (s u : State) (t p : Nat) (f : FlitIn) (tags : List (BitVec 8)), FlitGood (s.atTime t) p 5 f → u = flitFields (s.atTime t) p f → tagsOk u p (flData f.bytes) tags = false ∨ identOk u p (flData f.bytes) = false →
      exec (.flitIdent t p f tags) s = .next (afterFlit p (u.miscable p))) ∧
  (∀ (s u : State) (t p : Nat) (f : FlitIn) (tags : List (BitVec 8)), FlitGood (s.atTime t) p 5 f → u = flitFields (s.atTime t) p f → tagsOk u p (flData f.bytes) tags = true ∧ identOk u p (flData f.bytes) = true → (u.gport p).up = true →
      
  exec (.flitIdent t p f tags) s = .next (afterFlit p (u.modPort p (fun g => { g with up := g.laneMask ≠ 0, miscabled := false, peer := field (flData f.bytes) 0 2 % 512 })))) ∧
  (∀ (s u : State) (t p : Nat) (f : FlitIn) (tags : List (BitVec 8)), FlitGood (s.atTime t) p 5 f → u = flitFields (s.atTime t) p f → tagsOk u p (flData f.bytes) tags = true ∧ identOk u p (flData f.bytes) = true → (u.gport p).up = false →
      
  exec (.flitIdent t p f tags) s = .next (afterFlit p (u.modPort p (fun g => { g with up := g.laneMask ≠ 0, miscabled := false, peer := field (flData f.bytes) 0 2 % 512 })).reportPorts)) ∧
  (∀ (s u : State) (t p : Nat) (f : FlitIn), FlitGood (s.atTime t) p 6 f → allZero ((flData f.bytes).drop 5) = true → u = flitFields (s.atTime t) p f → field (flData f.bytes) 0 1 % 2 ^ portLanes p = maskNext (u.gport p) →
      exec (.flitLane t p f) s = .next (afterFlit p (u.setLanes p (maskNext (u.gport p)) (field (flData f.bytes) 1 4)))) ∧
  (∀ (s u : State) (t p m : Nat) (f : FlitIn), FlitGood (s.atTime t) p 6 f → allZero ((flData f.bytes).drop 5) = true → u = flitFields (s.atTime t) p f → field (flData f.bytes) 0 1 % 2 ^ portLanes p = m ∧ m ≠ maskNext (u.gport p) →
      exec (.flitLane t p f) s = .next (afterFlit p ((u.sendPlain p 6 (laneData m (field (flData f.bytes) 1 4))).setLanes p m (field (flData f.bytes) 1 4)))) ∧
  (∀ (s : State) (t p : Nat) (f : FlitIn) (tags : List (BitVec 8)), (s.gport p).trained = false ∨ (s.gport p).quarantined = true →
      
  exec (.flitData t p f) s = .next (s.atTime t) ∧
  exec (.flitIdle t p f) s = .next (s.atTime t) ∧
  exec (.flitCredit t p f) s = .next (s.atTime t) ∧
  exec (.flitNak t p f) s = .next (s.atTime t) ∧
  exec (.flitVcReset t p f) s = .next (s.atTime t) ∧
  exec (.flitLane t p f) s = .next (s.atTime t) ∧
  exec (.flitIdent t p f tags) s = .next (s.atTime t)) ∧
  (∀ (s : State) (t p : Nat) (f : FlitIn) (tags : List (BitVec 8)), (s.gport p).trained = true ∧ (s.gport p).quarantined = false → 0 < f.fec.2 →
      
  exec (.flitData t p f) s = .next (flitSeen (s.atTime t) p f) ∧
  exec (.flitIdle t p f) s = .next (flitSeen (s.atTime t) p f) ∧
  exec (.flitCredit t p f) s = .next (flitSeen (s.atTime t) p f) ∧
  exec (.flitNak t p f) s = .next (flitSeen (s.atTime t) p f) ∧
  exec (.flitVcReset t p f) s = .next (flitSeen (s.atTime t) p f) ∧
  exec (.flitLane t p f) s = .next (flitSeen (s.atTime t) p f) ∧
  exec (.flitIdent t p f tags) s = .next (flitSeen (s.atTime t) p f)) ∧
  (∀ (s u : State) (t p : Nat) (f : FlitIn) (tags : List (BitVec 8)), (s.gport p).trained = true ∧ (s.gport p).quarantined = false → f.fec.2 = 0 ∧ flCrcOk f.bytes = false → u = (((flitSeen (s.atTime t) p f).countPort p (fun c => { c with crcErrors := inc64 c.crcErrors })).gap p) →
      
  exec (.flitData t p f) s = .next u ∧
  exec (.flitIdle t p f) s = .next u ∧
  exec (.flitCredit t p f) s = .next u ∧
  exec (.flitNak t p f) s = .next u ∧
  exec (.flitVcReset t p f) s = .next u ∧
  exec (.flitLane t p f) s = .next u ∧
  exec (.flitIdent t p f tags) s = .next u) ∧
  (∀ (s : State) (t p : Nat) (f : FlitIn) (tags : List (BitVec 8)), (s.gport p).trained = true ∧ (s.gport p).quarantined = false → f.fec.2 = 0 ∧ flCrcOk f.bytes = true ∧ 7 ≤ flType f.bytes →
      
  exec (.flitData t p f) s = .next ((flitSeen (s.atTime t) p f).violate p) ∧
  exec (.flitIdle t p f) s = .next ((flitSeen (s.atTime t) p f).violate p) ∧
  exec (.flitCredit t p f) s = .next ((flitSeen (s.atTime t) p f).violate p) ∧
  exec (.flitNak t p f) s = .next ((flitSeen (s.atTime t) p f).violate p) ∧
  exec (.flitVcReset t p f) s = .next ((flitSeen (s.atTime t) p f).violate p) ∧
  exec (.flitLane t p f) s = .next ((flitSeen (s.atTime t) p f).violate p) ∧
  exec (.flitIdent t p f tags) s = .next ((flitSeen (s.atTime t) p f).violate p)) ∧
  (∀ (s u : State) (t p : Nat) (f : FlitIn) (tags : List (BitVec 8)), (s.gport p).trained = true ∧ (s.gport p).quarantined = false → f.fec.2 = 0 ∧ flCrcOk f.bytes = true ∧ flType f.bytes < 7 → u = flitSeen (s.atTime t) p f →
      
  (flType f.bytes ≠ 1 → exec (.flitData t p f) s = .next u) ∧
  (flType f.bytes ≠ 0 → exec (.flitIdle t p f) s = .next u) ∧
  (flType f.bytes ≠ 2 → exec (.flitCredit t p f) s = .next u) ∧
  (flType f.bytes ≠ 3 → exec (.flitNak t p f) s = .next u) ∧
  (flType f.bytes ≠ 4 → exec (.flitVcReset t p f) s = .next u) ∧
  (flType f.bytes ≠ 6 → exec (.flitLane t p f) s = .next u) ∧
  (flType f.bytes ≠ 5 → exec (.flitIdent t p f tags) s = .next u)) ∧
  (∀ (s u : State) (t p ft : Nat) (f : FlitIn), FlitGood (s.atTime t) p ft f → u = flitSeen (s.atTime t) p f → flSeq f.bytes ≠ (u.gport p).expect → laneBehind (u.gport p) f.frame = true →
      
  (ft = 1 → exec (.flitData t p f) s = .next (afterFlit p (u.modPort p (fun g => { g with held := g.held ++ [(f.frame, f.bytes)] })))) ∧ (ft = 2 → exec (.flitCredit t p f) s = .next (afterFlit p (u.modPort p (fun g => { g with held := g.held ++ [(f.frame, f.bytes)] })))) ∧
  (ft = 4 → exec (.flitVcReset t p f) s = .next (afterFlit p (u.modPort p (fun g => { g with held := g.held ++ [(f.frame, f.bytes)] }))))) ∧
  (∀ (s u : State) (t p ft : Nat) (f : FlitIn), FlitGood (s.atTime t) p ft f → u = flitSeen (s.atTime t) p f → flSeq f.bytes ≠ (u.gport p).expect → laneBehind (u.gport p) f.frame = false →
      
  (ft = 1 → exec (.flitData t p f) s = .next (afterFlit p (u.gap p))) ∧ (ft = 2 → exec (.flitCredit t p f) s = .next (afterFlit p (u.gap p))) ∧ (ft = 4 → exec (.flitVcReset t p f) s = .next (afterFlit p (u.gap p)))) ∧
  (∀ (s : State) (p n : Nat) (h : Nat × List (BitVec 8)), (s.gport p).held.find? (fun h => flSeq h.2 = (s.gport p).expect) = some h →
      drainHeld p (n + 1) s = drainHeld p n ((s.modPort p (fun g => { g with held := g.held.erase h })).inOrderFlit p h.2)) ∧
  (∀ (s : State) (p n : Nat) (h : Nat × List (BitVec 8)), (s.gport p).held.find? (fun h => flSeq h.2 = (s.gport p).expect) = none → (s.gport p).held.find? (fun h => !laneBehind (s.gport p) h.1) = some h →
      drainHeld p (n + 1) s = drainHeld p n ((s.modPort p (fun g => { g with held := g.held.erase h })).gap p)) ∧
  (∀ (s : State) (p : Nat), (s.gport p).nakWait = true →
      s.gap p = s) ∧
  (∀ (s : State) (p : Nat), (s.gport p).nakWait = false →
      s.gap p = ((s.countPort p (fun c => { c with seqGaps := inc64 c.seqGaps })).modPort p (fun g => { g with nakWait := true })).sendNak p 0 0)

/-- NAK_REPEAT sends the NAK again 1 us after the last while one waits, RESEND_TIMEOUT resends from the oldest unacknowledged flit 4
us after the last rise in ack, ACK_TIMER acknowledges, CREDIT_RETURN_TIMER adds what the port lends of its pool and returns owed
credits; where nothing is outstanding or its time has not come they change nothing but Invar. PARTNER_VIOLATION on a live port:
cause 0 is a gap; 1 drops the virtual channel with a NAK and counts; 2 to 6 and 9 answer with an ERR, discard the packet's
channel to the next header and count; 7 and 10 count; 8 only answers. A violation adds one to the port's count, and past the
limit of GL_VIOL within its window the port is quarantined with an event; a quarantined or untrained port takes none. -/
def Obligations.LinkTimersAndViolations : Prop :=
  (∀ (s : State) (t p : Nat), (s.gport p).nakWait = true ∧ (s.gport p).trained = true → (s.gport p).nakAt + 1000 ≤ (s.atTime t).now →
      exec (.nakRepeat t p) s = .next ((s.atTime t).sendNak p 0 0)) ∧
  (∀ (s : State) (t p : Nat), (s.gport p).nakWait = false ∨ (s.atTime t).now < (s.gport p).nakAt + 1000 →
      exec (.nakRepeat t p) s = .next (s.atTime t)) ∧
  (∀ (s : State) (t p : Nat) (f : Flit) (l : List Flit), (s.gport p).resend = f :: l → (s.gport p).ackAt + 4000 ≤ (s.atTime t).now →
      exec (.resendTimeout t p) s = .next ((s.atTime t).resendFrom p f.seq)) ∧
  (∀ (s : State) (t p : Nat), (s.gport p).resend = [] ∨ (s.atTime t).now < (s.gport p).ackAt + 4000 →
      exec (.resendTimeout t p) s = .next (s.atTime t)) ∧
  (∀ (s : State) (t p : Nat), (s.gport p).trained = true →
      exec (.ackTimer t p) s = .next ((s.atTime t).sendAck p) ∧ exec (.creditReturnTimer t p) s = .next (((s.atTime t).draw.modPort p (lendPool s.freeCtr)).returnCredits p)) ∧
  (∀ (s : State) (t p : Nat), (s.gport p).trained = false →
      exec (.ackTimer t p) s = .next (s.atTime t) ∧ exec (.creditReturnTimer t p) s = .next (s.atTime t)) ∧
  (∀ (s : State) (t p c v : Nat) (k : Packet), (s.gport p).trained = true ∧ (s.gport p).quarantined = false →
      
  exec (.partnerViolation t p 0 v k) s = .next ((s.atTime t).gap p) ∧ exec (.partnerViolation t p 7 v k) s = .next ((s.atTime t).violate p) ∧ exec (.partnerViolation t p 8 v k) s = .next ((s.atTime t).sendErr k 8) ∧
  exec (.partnerViolation t p 10 v k) s = .next ((s.atTime t).violate p) ∧
  (v < 8 → exec (.partnerViolation t p 1 v k) s = .next ((((s.atTime t).modPort p (modVc v (fun v => { v with dropping := true }))).sendNak p 1 v).violate p)) ∧
  (c ∈ [2, 3, 4, 5, 6, 9] → exec (.partnerViolation t p c v k) s = .next ((((s.atTime t).sendErr k c).resyncVc p (2 * (k.tc % 4) + k.hop % 2)).violate p))) ∧
  (∀ (s : State) (t p c v : Nat) (k : Packet), (s.gport p).trained = false ∨ (s.gport p).quarantined = true →
      exec (.partnerViolation t p c v k) s = .next (s.atTime t)) ∧
  (∀ (s u : State) (p : Nat), u = (s.countPort p (fun c => { c with violations := inc64 c.violations })).modPort p (fun g => if g.violStart + rf s.regs.glViol 31 16 * 1000000 ≤ s.now then { g with viol := 1, violStart := s.now } else { g with viol := g.viol + 1 }) →
      
  s.violate p = if rf s.regs.glViol 7 0 < (u.gport p).viol ∧ (u.gport p).quarantined = false then ((u.portFalls p (fun g => { g with quarantined := true, trained := false })).countPort p (fun c => { c with quarantines := (c.quarantines + 1) % 256 })).postEvent St.gelconQuarantine p 0 else u)

/-- PORT_TRAINED of a port the device has, with Gelcon enabled, no failed link die and no quarantine, starts the port anew on the
lanes trained, with fresh sequence numbers and credits, its count of violations kept and the port not yet up, and sends IDENT;
of any other port it changes nothing but Invar. LANE_RETIRE of a lane in use that fails training or has more than 16
uncorrectable codewords takes it out of the mask that is to be, counts it and sends the new mask. LANE_RETRAIN of a retired lane
that passes puts it back, sends the mask and IDENT again. A mask holds from the frame count sent with it on, once an active
lane's frames have come to it; at width 0 the port falls at once. GELCON_PORT_DOWN of a trained port makes it fall and leaves it
untrained. -/
def Obligations.PortsAndLanes : Prop :=
  (∀ (s : State) (t p lanes m : Nat) (g : Port), p < portCount s.variant → m = lanes % 2 ^ portLanes p ∧ m ≠ 0 → bit s.regs.glCtl.toNat 0 = true → (s.gport p).quarantined = false ∧ linkDieBad s p = false ∧ s.start.state ≠ .off → g = { trained := true, laneMask := m, cabled := popCount m 4, viol := (s.gport p).viol, violStart := (s.gport p).violStart, retired := (List.range (portLanes p)).filter (fun l => !bit m l), vcs := freshVcs } →
      
  exec (.portTrained t p lanes) s = .next (((s.atTime t).portFalls p (fun _ => g)).sendPlain p 5 (ownIdent (s.atTime t) p))) ∧
  (∀ (s : State) (t p lanes : Nat), portCount s.variant ≤ p ∨ lanes % 2 ^ portLanes p = 0 ∨ (s.gport p).quarantined = true →
      exec (.portTrained t p lanes) s = .next (s.atTime t)) ∧
  (∀ (s : State) (t p l f c : Nat), bit (maskNext (s.gport p)) l = true ∧ l < portLanes p → c = 0 ∨ 16 < c →
      
  exec (.laneRetire t p ⟨l, c⟩ f) s = .next ((((((s.atTime t).modPort p (fun g => { g with retired := setAdd l g.retired })).countPort p (fun c => { c with laneRetirements := (c.laneRetirements + 1) % 65536 })).sendPlain p 6 (laneData ((maskNext (s.gport p)) - 2 ^ l) f)).setLanes p ((maskNext (s.gport p)) - 2 ^ l) f))) ∧
  (∀ (s : State) (t p l f c : Nat), bit (maskNext (s.gport p)) l = false ∨ (0 < c ∧ c ≤ 16) →
      exec (.laneRetire t p ⟨l, c⟩ f) s = .next (s.atTime t)) ∧
  (∀ (s u : State) (t p l f : Nat), (s.gport p).retired.contains l = true → (s.gport p).trained = true ∧ (s.gport p).quarantined = false → bit (maskNext (s.gport p)) l = false → u = (s.atTime t).modPort p (fun g => { g with retired := setDel l g.retired }) →
      
  exec (.laneRetrain t p l f true) s = .next (((u.sendPlain p 6 (laneData ((maskNext (s.gport p)) + 2 ^ l) f)).setLanes p ((maskNext (s.gport p)) + 2 ^ l) f).sendPlain p 5 (ownIdent u p))) ∧
  (∀ (s : State) (t p l f : Nat) (ok : Bool), ok = false ∨ (s.gport p).retired.contains l = false →
      exec (.laneRetrain t p l f ok) s = .next (s.atTime t)) ∧
  (∀ (s : State) (t p : Nat), (s.gport p).trained = true →
      exec (.gelconPortDown t p) s = .next ((s.atTime t).portFalls p (fun g => { g with trained := false, laneMask := 0 }))) ∧
  (∀ (s : State) (t p : Nat), (s.gport p).trained = false →
      exec (.gelconPortDown t p) s = .next (s.atTime t)) ∧
  (∀ (s u : State) (t p l f : Nat), (s.gport p).retired.contains l = true → (s.gport p).trained = true ∧ (s.gport p).quarantined = false → bit (maskNext (s.gport p)) l = true → u = (s.atTime t).modPort p (fun g => { g with retired := setDel l g.retired }) →
      
  exec (.laneRetrain t p l f true) s = .next (((u.sendPlain p 6 (laneData (maskNext (s.gport p)) f)).setLanes p (maskNext (s.gport p)) f).sendPlain p 5 (ownIdent u p))) ∧
  (∀ (s u : State) (p m f : Nat), u = s.modPort p (fun g => { g with laneAt := some (m, f) }) →
      s.setLanes p m f = if m = 0 then u.portFalls p (fun g => { g with trained := false, laneMask := 0, laneAt := none }) else if (u.gport p).frames.any (fun x => bit (u.gport p).laneMask x.1 && !frameBehind x.2 f) then u.modPort p (fun g => { g with laneMask := m, laneAt := none }) else u)

/-- HOST_PORT_DOWN of a port that is up declares it down: what has streamed so far is counted, its flushes and cache go, and its
bindings are to move. A reset or a loss of bus mastering clears its memory enable and a reset or a loss of the link takes its
BAR0, of a port that is down too. HOST_PORT_UP of a healthy port after stage 4, at a rate and width it supports, gives it its
BAR0 and, where its port_en bit is set, brings it up; else it changes nothing but Invar. HOST_DMA_FAIL acts by the kind of
transfer: a descriptor's, a ring's, a live request's prompt, a stream, a standing page in tier 2, an image; the last two act in
a commit window, that one or the next. ATS_INVALIDATION drops one page of a port's cache. A flush read that completes confirms
the port's log writes issued no later than it, drops them from the port's posted writes and releases the blocks they left from,
touching no other port's. MSIX_TABLE_WRITE writes the table where BAR0 can be reached outside a warm reset. -/
def Obligations.HostPorts : Prop :=
  (∀ (s u : State) (t p : Nat) (c : PortCause), s.portUp p = true → u = (s.atTime t).modHport p (fun h => { h with memEnable := h.memEnable && !(c = .reset || c = .busMaster), bar := h.bar && !(c = .reset || c = .link) }) →
      
  exec (.hostPortDown t p c) s = .next (((((((u.serveTier.modHport p (fun h => { h with up := false, declared := true, flushes := [], cache := [] })).onHost (fun h => { h with rebind := true })).noteSingle).portsChanged).capChanged)).noteSingle)) ∧
  (∀ (s : State) (t p : Nat) (c : PortCause), s.portUp p = false →
      exec (.hostPortDown t p c) s = .next (((s.atTime t).modHport p (fun h => { h with memEnable := h.memEnable && !(c = .reset || c = .busMaster), bar := h.bar && !(c = .reset || c = .link) })).noteSingle)) ∧
  (∀ (s u : State) (t p g l : Nat), mayTrain s p = true ∧ linkOk g l = true → bit s.regs.hxCtl.toNat p = true → u = ((((s.atTime t).serveTier.modHport p (fun h => { h with bar := true, memEnable := true, gts := g, lanes := l })).noteSingle).modHport p (fun h => { h with up := true })) →
      
  exec (.hostPortUp t p g l) s = .next (((u.onHost (fun h => { h with rejoin := h.rejoin || s.noPort })).portsChanged).capChanged)) ∧
  (∀ (s : State) (t p g l : Nat), mayTrain s p = true ∧ linkOk g l = true → bit s.regs.hxCtl.toNat p = false →
      exec (.hostPortUp t p g l) s = .next (((s.atTime t).serveTier.modHport p (fun h => { h with bar := true, memEnable := true, gts := g, lanes := l })).noteSingle)) ∧
  (∀ (s : State) (t p g l : Nat), mayTrain s p = false ∨ linkOk g l = false →
      exec (.hostPortUp t p g l) s = .next (s.atTime t)) ∧
  (∀ (s : State) (t n q : Nat), exec (.hostDmaFail t .descriptor n q) s = .next ((s.atTime t).failDescriptor n (q ≠ 0)) ∧ exec (.hostDmaFail t .completion n q) s = .next ((s.atTime t).failRing n) ∧ exec (.hostDmaFail t .head n q) s = .next ((s.atTime t).failRing n) ∧
  exec (.hostDmaFail t .stream n q) s = .next ((s.atTime t).failStream n q) ∧
  exec (.hostDmaFail t .image n q) s = .next (if settlesLong s then (s.atTime t).failImage n else (s.atTime t).onFaults (fun f => { f with lossDue := f.lossDue ++ [.image n] })) ∧
  exec (.hostDmaFail t .prompt n q) s = .next (if reqLive (s.reqState n) then (s.atTime t).closeSoon n St.faultHostDma else s.atTime t) ∧
  exec (.hostDmaFail t .tier2 n q) s = .next (if s.tick.inCommit then ((s.atTime t).readFailed n).demotionFailed n else (s.atTime t).onFaults (fun f => { f with lossDue := f.lossDue ++ [.tier2 n] }))) ∧
  (∀ (s : State) (t p page : Nat), exec (.atsInvalidation t p page) s = .next ((s.atTime t).modHport p (fun h => { h with cache := setDel page h.cache }))) ∧
  (∀ (s : State) (t p k z : Nat) (l : List (Nat × Nat)), s.portUp p = true → (s.hport p).flushes = (k, z) :: l →
      
  exec (.flushReadComplete t p) s = .next (((((s.atTime t).modHport p (fun h => { h with flushes := l })).closeTransit .host (64 + p)).onReq (fun r => { r with log := r.log.map (fun w => if w.port = p && w.issued ≤ k then { w with confirmed := true } else w) })).onHost (fun h => { h with posted := h.posted.filter (fun w => !(w.port = p && w.issued ≤ k)) }))) ∧
  (∀ (s : State) (t p : Nat), s.portUp p = false ∨ (s.hport p).flushes = [] →
      exec (.flushReadComplete t p) s = .next (s.atTime t)) ∧
  (∀ (s : State) (a : Nat) (v : BitVec 32), s.barAny = true ∧ s.start.warmRunning = false →
      exec (.msixTableWrite a v) s = .next (s.msixWrite a v.toNat)) ∧
  (∀ (s : State) (a : Nat) (v : BitVec 32), s.barAny = false ∨ s.start.warmRunning = true →
      exec (.msixTableWrite a v) s = .next s)

/-- A read of the debug window returns the bytes of control space at the window's base, zeros in a warm reset, and changes nothing
else; a write goes through the window's rules; outside its range, or with BAR0 not reachable, the access has no effect.
REGISTER_WRITE of BAR0 writes by the access codes of the register. A write of control space writes by them in MAINTENANCE, is
counted as denied in any other state, and in a warm reset or with BAR0 not reachable is dropped. -/
def Obligations.RegistersByAccess : Prop :=
  (∀ (s : State) (a : Nat) (b : List (BitVec 8)), s.barAny = true → 0x1000000 ≤ a ∧ a < 0x4000000 →
      exec (.debugWindowAccess false a b) s = .next (s.answerWith ((List.range b.length).map (fun k => barByte s (a + k))))) ∧
  (∀ (s : State) (a : Nat) (b : List (BitVec 8)), s.barAny = true ∧ s.start.warmRunning = true → 0x1000000 ≤ a ∧ a + b.length ≤ 0x4000000 →
      exec (.debugWindowAccess false a b) s = .next (s.answerWith (List.replicate b.length 0)) ∧ exec (.debugWindowAccess true a b) s = .next s) ∧
  (∀ (s : State) (a : Nat) (b : List (BitVec 8)), s.barAny = true ∧ s.start.warmRunning = false → 0x1000000 ≤ a ∧ a < 0x4000000 →
      exec (.debugWindowAccess true a b) s = .next (s.debugWrite a b)) ∧
  (∀ (s : State) (w : Bool) (a : Nat) (b : List (BitVec 8)), s.barAny = false ∨ a < 0x1000000 ∨ 0x4000000 ≤ a →
      exec (.debugWindowAccess w a b) s = .next s) ∧
  (∀ (s : State) (t a : Nat) (b : List (BitVec 8)), exec (.registerWrite t true a b) s = .next ((s.atTime t).barWrite a b)) ∧
  (∀ (s : State) (t a : Nat) (b : List (BitVec 8)), s.barAny = true ∧ s.start.warmRunning = false → s.start.state = .maintenance →
      exec (.registerWrite t false a b) s = .next ((s.atTime t).ctlWrite a b)) ∧
  (∀ (s : State) (t a : Nat) (b : List (BitVec 8)), s.barAny = true ∧ s.start.warmRunning = false → s.start.state ≠ .maintenance →
      exec (.registerWrite t false a b) s = .next ((s.atTime t).onHost (fun h => { h with dbgDenied := (h.dbgDenied + 1) % two32 }))) ∧
  (∀ (s : State) (t a : Nat) (b : List (BitVec 8)), s.barAny = false ∨ s.start.warmRunning = true →
      exec (.registerWrite t false a b) s = .next (s.atTime t))

/-- PPS_EDGE with capture on stamps the edge; with snapping on before SERVING, an edge that does not fall on a whole second steps
Invar to a free whole number of seconds. REFERENCE_LOST of a selected reference sets ref_lost and holdover and clears locked,
REFERENCE_RESTORED the reverse but for ref_lost; with the oscillator selected both change nothing but Invar. GOVERNOR_STEP_DOWN
above the envelope lowers the cluster domains until all are at half, then the hub domain; OVERCURRENT_STEP halves all;
OVERCURRENT_HALT trips. A thermal alert is entered once per sensor with its event and pin; throttling holds the die and steps
its domain (a cluster's own, the hub's, or none), or marks a DRAM stack; at its trip temperature the device records and trips;
in SAFE_HALT a DRAM at 105 powers off and tier 1 is lost. A threshold is left 3 degrees below. MEASUREMENT_UPDATE updates the
power and thermal registers, the energy, the averages and the millisecond counts, and keeps the readings that are used at the
next commit-open. Below a threshold, or with power not good, nothing changes but Invar. -/
def Obligations.TimeAndPower : Prop :=
  (∀ (s u : State) (t : Nat), u = (if bit s.cfg.ivCtl.toNat 2 then (s.atTime t).onTick (fun k => { k with ppsStamp := k.iv, ppsSeen := true }) else s.atTime t) → s.start.state = .off ∨ bit s.cfg.ivCtl.toNat 3 = false ∨ s.tick.everServing = true ∨ (s.atTime t).tick.iv % 1000000000 = 0 →
      exec (.ppsEdge t) s = .next u) ∧
  (∀ (s u : State) (t : Nat), u = (if bit s.cfg.ivCtl.toNat 2 then (s.atTime t).onTick (fun k => { k with ppsStamp := k.iv, ppsSeen := true }) else s.atTime t) → s.start.state ≠ .off ∧ bit s.cfg.ivCtl.toNat 3 = true ∧ s.tick.everServing = false → (s.atTime t).tick.iv % 1000000000 ≠ 0 →
      
  exec (.ppsEdge t) s = .next ((u.onTick (fun k => { k with iv := Config.ppsSecond u.freeCtr % 18446744073 * 1000000000 })).draw)) ∧
  (∀ (s : State) (t : Nat), refSel s ≠ 0 →
      exec (.referenceLost t) s = .next ((s.atTime t).onTick (fun k => { k with refLost := true, holdover := true, locked := false })) ∧ exec (.referenceRestored t) s = .next ((s.atTime t).onTick (fun k => { k with holdover := false, locked := true }))) ∧
  (∀ (s : State) (t : Nat), refSel s = 0 →
      exec (.referenceLost t) s = .next (s.atTime t) ∧ exec (.referenceRestored t) s = .next (s.atTime t)) ∧
  (∀ (s : State) (t w : Nat), s.start.pwrGood = true ∧ min s.cfg.envelope 4200 < w → clustersAbove s = true →
      exec (.governorStepDown t w) s = .next (((s.atTime t).onPower (fun p => { p with clusterGov := p.clusterGov.map (stepDown 1600) })).countStep (fun c => { c with governorSteps := inc64 c.governorSteps }))) ∧
  (∀ (s : State) (t w : Nat), s.start.pwrGood = true ∧ min s.cfg.envelope 4200 < w → clustersAbove s = false →
      exec (.governorStepDown t w) s = .next (((s.atTime t).onPower (fun p => { p with hubGov := stepDown 2000 p.hubGov })).countStep (fun c => { c with governorSteps := inc64 c.governorSteps }))) ∧
  (∀ (s : State) (t w : Nat), s.start.pwrGood = false ∨ w ≤ min s.cfg.envelope 4200 →
      exec (.governorStepDown t w) s = .next (s.atTime t)) ∧
  (∀ (s : State) (t : Nat), s.start.pwrGood = true →
      exec (.overcurrentStep t) s = .next ((s.atTime t).onPower (fun p => { p with clusterGov := List.replicate 16 800, hubGov := 1000 })) ∧ exec (.overcurrentHalt t) s = .next (s.atTime t).trip) ∧
  (∀ (s : State) (t c h : Nat), sensorOn s c = true → alertAt s c ≤ h → c ∉ s.power.alerts →
      
  exec (.thermalAlert t c h) s = .next (((((s.atTime t).onPower (fun p => { p with alerts := p.alerts ++ [c] })).noteAlert).count (fun c => { c with alerts := inc64 c.alerts })).postEvent St.thermalAlert c h)) ∧
  (∀ (s : State) (t c h : Nat), h < alertAt s c ∨ c ∈ s.power.alerts →
      exec (.thermalAlert t c h) s = .next (s.atTime t)) ∧
  (∀ (s : State) (t c h : Nat), sensorOn s c = true ∧ throttleAt s c ≤ h → isDram c = true →
      exec (.thermalThrottleStep t c h) s = .next ((s.atTime t).onPower (fun p => { p with dramThrottle := setAdd (c - 40) p.dramThrottle }))) ∧
  (∀ (s : State) (t c h : Nat), sensorOn s c = true ∧ throttleAt s c ≤ h → isDram c = false ∧ c < 16 →
      
  exec (.thermalThrottleStep t c h) s = .next (((s.atTime t).onPower (fun p => { p with thermHold := setAdd c p.thermHold })).onPower (fun p => { p with clusterTherm := p.clusterTherm.set c (stepDown 1600 (min (nth s.power.clusterGov c 1600) (nth s.power.clusterTherm c 1600))) }))) ∧
  (∀ (s : State) (t c h : Nat), sensorOn s c = true ∧ throttleAt s c ≤ h → isDram c = false ∧ 16 ≤ c → hubDie c = true →
      
  exec (.thermalThrottleStep t c h) s = .next (((s.atTime t).onPower (fun p => { p with thermHold := setAdd c p.thermHold })).onPower (fun p => { p with hubTherm := stepDown 2000 (min p.hubGov p.hubTherm) }))) ∧
  (∀ (s : State) (t c h : Nat), sensorOn s c = true ∧ throttleAt s c ≤ h → isDram c = false ∧ 16 ≤ c → hubDie c = false →
      exec (.thermalThrottleStep t c h) s = .next ((s.atTime t).onPower (fun p => { p with thermHold := setAdd c p.thermHold }))) ∧
  (∀ (s : State) (t c h : Nat), h < throttleAt s c →
      exec (.thermalThrottleStep t c h) s = .next (s.atTime t)) ∧
  (∀ (s : State) (t c h : Nat), sensorOn s c = true ∧ tripAt s c ≤ h → s.start.state ≠ .safeHalt →
      exec (.thermalTrip t c h) s = .next (((s.atTime t).onPower (fun p => { p with tripCode := c, tripTemp := h % 256 })).trip)) ∧
  (∀ (s : State) (t c h : Nat), s.start.state = .safeHalt ∧ isDram c = true ∧ 105 ≤ h →
      exec (.dramOvertempPowerOff t c h) s = .next (((s.atTime t).onStart (fun x => { x with pwrReq := false })).onMem (fun m => m.clear (stackBase 0) 0x10000000000))) ∧
  (∀ (s : State) (t c h : Nat), h + 3 ≤ alertAt s c → isDram c = true →
      exec (.thermalThresholdLeft t c h) s = .next ((((s.atTime t).onPower (fun p => { p with dramThrottle := setDel (c - 40) p.dramThrottle })).onPower (fun p => { p with alerts := setDel c p.alerts })).noteAlert)) ∧
  (∀ (s : State) (t c h : Nat), h + 3 ≤ alertAt s c → isDram c = false →
      exec (.thermalThresholdLeft t c h) s = .next ((((s.atTime t).onPower (fun p => { p with thermHold := setDel c p.thermHold })).onPower (fun p => { p with alerts := setDel c p.alerts })).noteAlert)) ∧
  (∀ (s : State) (t c h : Nat), alertAt s c < h + 3 → h + 3 ≤ throttleAt s c → isDram c = false →
      exec (.thermalThresholdLeft t c h) s = .next ((s.atTime t).onPower (fun p => { p with thermHold := setDel c p.thermHold }))) ∧
  (∀ (s : State) (t c h : Nat), alertAt s c < h + 3 → h + 3 ≤ throttleAt s c → isDram c = true →
      exec (.thermalThresholdLeft t c h) s = .next ((s.atTime t).onPower (fun p => { p with dramThrottle := setDel (c - 40) p.dramThrottle }))) ∧
  (∀ (s : State) (t c h : Nat), throttleAt s c < h + 3 →
      exec (.thermalThresholdLeft t c h) s = .next (s.atTime t)) ∧
  (∀ (s u : State) (t w v a l d : Nat) (r : Readings), s.start.state ≠ .off → u = ((s.atTime t).onPower (fun p => { p with msW := w % 65536, volts10mv := v % 65536, amps10ma := a % 65536, logicMax := l % 256, dramMax := d % 256, hotCode := r.hot % 64, energyMj := add64 p.energyMj (w % 65536), tickPowerSum := p.tickPowerSum + w % 65536, tickPowerN := p.tickPowerN + 1 })).onPlan (fun p => { p with readyPowerSum := p.readyPowerSum + w % 65536, readyPowerN := p.readyPowerN + 1, running := r.running, meters := p.meters ++ r.meters }) →
      
  exec (.measurementUpdate t w v a l d r) s = .next (u.count (fun c => { c with msWMax := max c.msWMax (w % 65536), logicThrottleMs := add64 c.logicThrottleMs (b2n (s.power.thermHold.any (fun d => d < 16 || hubDie d))), dramThrottleMs := add64 c.dramThrottleMs (b2n (!s.power.dramThrottle.isEmpty)) }))) ∧
  (∀ (s : State) (t w v a l d : Nat) (r : Readings), s.start.state = .off →
      exec (.measurementUpdate t w v a l d r) s = .next (s.atTime t))

/-- After reset the device is in BOOT with Invar 0, no tick, a 10,000 us tick and 400 us commit window, an envelope of 3,600 W,
every slot FREE, no ring, no model, no port up, the identity cluster map and every counter zero. POWER_ON in OFF starts a cold
reset. FIRMWARE_VERIFIED runs the image the boot pointer names, or the other, and asks for power; with neither it reports and
stays. PWR_GOOD enters TRAIN; its time-out drops PWR_REQ with FAULT_N, and asks again after 10 s. A boot stage that ends before
stage 8 leads to the next. RESET_N low and a rising RESET_N cold-reset; WARM_RESET_N in a commit window waits for its end and
else takes effect; WARM_RESET_COMPLETE resumes the state before it. Loss of MAIN48 with power good is a cold reset with cause 3;
loss of AUX12 leaves OFF. -/
def Obligations.StartupAndResets : Prop :=
  (State.reset.start.state = .boot ∧ State.reset.tick.iv = 0 ∧ State.reset.tick.running = false ∧ (State.reset.tick.tickUs, State.reset.tick.commitUs) = (10000, 400) ∧ State.reset.cfg.envelope = 3600 ∧ State.reset.req.table = [] ∧ State.reset.req.rings = [] ∧
  State.reset.models.slots = [] ∧ State.reset.gelcon.ports = [] ∧ State.reset.faults.clmap = List.range 16 ∧ State.reset.tel.live = {} ∧ State.reset.mem = [] ∧ State.reset.mb.outstanding = [] ∧ State.reset.pending = []) ∧
  (∀ (s : State) (m c : Nat), (s.cold m c).start.state = .boot ∧ (s.cold m c).start.memberId = m % 16 ∧ (s.cold m c).start.cause = c ∧ (s.cold m c).tick = {} ∧ (s.cold m c).req = {} ∧ (s.cold m c).cfg = {} ∧ (s.cold m c).cfgNext = {} ∧ (s.cold m c).tier = {} ∧ (s.cold m c).models = {} ∧ (s.cold m c).gelcon = {} ∧ (s.cold m c).tel = {} ∧ (s.cold m c).mem = [] ∧ (s.cold m c).mb.serial = s.mb.serial ∧ (s.cold m c).variant = s.variant) ∧
  (∀ (s : State) (m : Nat), s.start.state = .off ∧ s.start.resetN = true →
      exec (.powerOn m) s = .next (s.cold m 0)) ∧
  (∀ (s : State) (m : Nat), s.start.state ≠ .off →
      exec (.powerOn m) s = .next s) ∧
  (∀ (s : State) (t : Nat) (a b : FwRead), s.start.state = .boot ∧ s.start.resetN = true ∧ s.start.firmwareOk = false ∧ s.faults.ctFailed.length ≠ 2 → fwVerified s a = false ∧ fwVerified s b = false →
      
  exec (.firmwareVerified t a b) s = .next ((((s.atTime t).onMb (fun m => { m with imageA := { fwImageOf a with valid := false }, imageB := { fwImageOf b with valid := false } })).onStart (fun u => { u with faultN := true, cause := 1 })).noteSentinel)) ∧
  (∀ (s u : State) (t n : Nat) (a b f : FwRead) (x : Bool), s.start.state = .boot ∧ s.start.resetN = true ∧ s.start.firmwareOk = false ∧ s.faults.ctFailed.length ≠ 2 → x = s.mb.bootB ∧ f = (if x then b else a) → fwVerified s f = true → n = (if (fwImageOf f).raiseSvn then max s.start.fusedSvn (fwImageOf f).svn else s.start.fusedSvn) → u = (s.atTime t).onMb (fun m => { m with imageA := { fwImageOf a with valid := fwVerified s a }, imageB := { fwImageOf b with valid := fwVerified s b } }) →
      
  exec (.firmwareVerified t a b) s = .next ((((u.onStart (fun v => { v with firmwareOk := true, imageB := x, pwrReq := true, pwrReqAt := u.now, stage := 1, fusedSvn := n })).onMb (fun m => { m with runsB := [x, x] })).onFaults (fun f => { f with ctActive := if f.ctFailed.contains 0 then 1 else 0 })).measureBoot ((0, digest384 (Config.pointerBytes s.mb.bootB s.mb.bootWrites)) :: (fwImageOf f).digests ++ [(7, digest384 s.start.record), (8, digest384 (Config.fuseBytes n s.start.keySlots s.start.revoked))]))) ∧
  (∀ (s u : State) (t n : Nat) (a b f : FwRead) (x : Bool), s.start.state = .boot ∧ s.start.resetN = true ∧ s.start.firmwareOk = false ∧ s.faults.ctFailed.length ≠ 2 → x = !s.mb.bootB ∧ f = (if x then b else a) → fwVerified s (if x then a else b) = false ∧ fwVerified s f = true → n = s.start.fusedSvn → u = (s.atTime t).onMb (fun m => { m with imageA := { fwImageOf a with valid := fwVerified s a }, imageB := { fwImageOf b with valid := fwVerified s b } }) →
      
  exec (.firmwareVerified t a b) s = .next ((((u.onStart (fun v => { v with firmwareOk := true, imageB := x, pwrReq := true, pwrReqAt := u.now, stage := 1 })).onMb (fun m => { m with runsB := [x, x] })).onFaults (fun f => { f with ctActive := if f.ctFailed.contains 0 then 1 else 0 })).measureBoot ((0, digest384 (Config.pointerBytes s.mb.bootB s.mb.bootWrites)) :: (fwImageOf f).digests ++ [(7, digest384 s.start.record), (8, digest384 (Config.fuseBytes n s.start.keySlots s.start.revoked))]))) ∧
  (∀ (s : State) (t : Nat), s.start.state = .boot ∧ s.start.pwrReq = true ∧ s.start.firmwareOk = true →
      exec (.pwrGood t) s = .next ((s.atTime t).onStart (fun x => { x with pwrGood := true, state := .train, stage := 2, pwrRetryAt := 0 }))) ∧
  (∀ (s : State) (t : Nat), s.start.state = .boot ∧ s.start.firmwareOk = true ∧ s.start.pwrReq = true → s.start.pwrReqAt + 1000000000 ≤ t →
      exec (.pwrGoodTimeout t) s = .next (((s.atTime t).onStart (fun x => { x with pwrReq := false, faultN := true, cause := 2, pwrRetryAt := t + 10000000000 })).noteSentinel)) ∧
  (∀ (s : State) (t : Nat), s.start.state = .boot ∧ s.start.firmwareOk = true ∧ s.start.pwrReq = false → s.start.pwrRetryAt ≠ 0 ∧ s.start.pwrRetryAt ≤ t →
      exec (.pwrGoodTimeout t) s = .next ((s.atTime t).onStart (fun x => { x with pwrReq := true, pwrReqAt := t, pwrRetryAt := 0 }))) ∧
  (∀ (s u : State) (t : Nat) (r : StageReport), s.start.state = .train ∧ s.start.stage < 8 ∧ s.start.stage ≠ 4 → u = ((s.atTime t).takeReport r).onStart (fun x => { x with derived := x.derived ++ derivedIn ((s.atTime t).takeReport r) r }) → u.start.stage = s.start.stage →
      exec (.bootStageDone t r) s = .next (u.onStart (fun x => { x with stage := x.stage + 1 }))) ∧
  (∀ (s u : State) (t : Nat) (r : StageReport), s.start.state = .train ∧ s.start.stage = 4 → u = ((s.atTime t).takeReport r).onStart (fun x => { x with derived := x.derived ++ derivedIn ((s.atTime t).takeReport r) r }) → u.start.stage = 4 ∧ ((u.trainPorts r).portsChanged).start.stage = 4 →
      exec (.bootStageDone t r) s = .next (((u.trainPorts r).portsChanged).onStart (fun x => { x with stage := x.stage + 1 }))) ∧
  (∀ (s u : State) (t : Nat) (r : StageReport), s.start.state = .train ∧ s.start.stage = 8 → u = ((s.atTime t).takeReport r).onStart (fun x => { x with derived := x.derived ++ derivedIn ((s.atTime t).takeReport r) r }) → u.start.stage = 8 →
      exec (.bootStageDone t r) s = .next (u.finishBoot t r)) ∧
  (∀ (s u : State) (t : Nat) (r : StageReport), s.start.state = .boot ∧ s.start.resetN = true ∧ s.start.firmwareOk = false → u = (r.badDies.filter (fun c => c = 34 || c = 35)).foldl State.failsTest (s.atTime t) →
      
  exec (.bootStageDone t r) s = .next (if u.faults.ctFailed.length = 2 then (u.onStart (fun x => { x with faultN := true, cause := 4 })).noteSentinel else u)) ∧
  (∀ (s : State) (t : Nat) (r : StageReport), s.start.state ≠ .train ∧ s.start.state ≠ .boot →
      exec (.bootStageDone t r) s = .next (s.atTime t)) ∧
  (∀ (s : State) (t m : Nat), s.start.state ≠ .off →
      exec (.resetN t false m) s = .next ((s.onStart (fun x => { x with resetN := false })).cold s.start.memberId 0) ∧ (s.start.resetN = false → exec (.resetN t true m) s = .next ((s.onStart (fun x => { x with resetN := true })).cold m 0)) ∧ (s.start.resetN = true → exec (.resetN t true m) s = .next (s.atTime t))) ∧
  (∀ (s : State) (t : Nat), warmOpen s = true ∧ s.start.warmRunning = false → s.tick.running = true ∧ s.tick.inCommit = true →
      exec (.warmResetN t) s = .next ((s.atTime t).onStart (fun x => { x with warmPending := true }))) ∧
  (∀ (s : State) (t : Nat), warmOpen s = true ∧ s.start.warmRunning = false → s.tick.inCommit = false →
      exec (.warmResetN t) s = .next (s.atTime t).warmNow) ∧
  (∀ (s : State) (t : Nat) (ok : Bool), s.start.warmRunning = false →
      exec (.warmResetComplete t ok) s = .next (s.atTime t)) ∧
  (∀ (s u : State) (t n : Nat) (ok : Bool), s.start.warmRunning = true → n = (t + 1000000 - s.tick.firstEdge + max 1 (s.tick.tickUs * 1000) - 1) / max 1 (s.tick.tickUs * 1000) → u = (((((((s.atTime t).onStart (fun x => { x with warmRunning := false, state := x.prior })).onTick (fun k => { k with firstEdge := k.firstEdge + n * max 1 (s.tick.tickUs * 1000), firstIndex := k.firstIndex + n, frozenCfg := if k.pendIndex ≠ 0 && k.pendIndex ≤ k.firstIndex + n then none else k.frozenCfg, pendIndex := if k.pendIndex = 0 then 0 else max (k.firstIndex + n) k.pendIndex })).refreshAll t).controlBack ok).resumeTier (s.tick.firstIndex + n)).reissueAll) →
      
  exec (.warmResetComplete t ok) s = .next (if u.sceolUp then (u.takeLatched.mb.outstanding.foldl State.afterReset u.takeLatched).onStart (fun x => { x with warmMb := [] }) else u)) ∧
  (∀ (s : State) (t : Nat), s.start.pwrGood = true →
      exec (.main48Loss t) s = .next (s.cold s.start.memberId 3)) ∧
  (∀ (s : State) (t : Nat), s.start.state ≠ .off →
      exec (.aux12Loss t) s = .next (((s.onPower (fun p => { p with tripCode := 0, tripTemp := 0 })).cold s.start.memberId 0).onStart (fun x => { x with state := .off, ibi := 0, i3cByte1 := 0 }))) ∧
  (∀ (s : State) (t m : Nat) (h : Bool), s.start.state = .off →
      exec (.resetN t h m) s = .next (s.onStart (fun x => { x with resetN := h })) ∧ exec (.aux12Loss t) s = .next (s.atTime t)) ∧
  (∀ (s : State) (t : Nat), warmOpen s = false ∨ s.start.warmRunning = true →
      exec (.warmResetN t) s = .next (s.atTime t)) ∧
  (∀ (s : State) (t : Nat), s.start.pwrGood = false →
      exec (.main48Loss t) s = .next (s.atTime t))

/-- While the lease holds, a control heartbeat time-out with no promotion under way fails the active control die, and a serving
heartbeat time-out while a tick runs fails the active serving die. At the edge after its declaration, CONTROL_TAKEOVER makes the
standby active and takes the latched doorbells, and ORPHAN_ENTER, with no standby, enters ORPHAN with its event; before that
edge both change nothing. LEASE_RENEW of a live lease extends it 50 ms and gives it back to SN0 where that was asked;
LEASE_EXPIRY passes a lapsed lease to the other Sentinel, where that one is there; LEASE_RECLAIM asks for it. I3C_WRITE sets the
index, I3C_READ returns bytes from it; where the Sentinel that holds the lease is not there neither does anything. A Sentinel is
there while its host die is (the model's reading, log 27) and the device is not off. A failed control or serving die that
reboots healthy for the first time, and has not lost both its hub dies, becomes standby again. SNAPSHOT_READABLE makes the
frozen snapshot the readable one. -/
def Obligations.ControlAndSentinels : Prop :=
  (∀ (s : State) (t : Nat), leaseLive s t = true ∧ s.faults.takeover = none ∧ s.start.state ≠ .off →
      exec (.controlHeartbeatTimeout t) s = .next ((s.atTime t).controlDieFails s.faults.ctActive)) ∧
  (∀ (s : State) (t : Nat), leaseLive s t = false ∨ s.faults.takeover.isSome = true →
      exec (.controlHeartbeatTimeout t) s = .next (s.atTime t)) ∧
  (∀ (s : State) (t : Nat), leaseLive s t = true ∧ s.tick.running = true →
      exec (.servingHeartbeatTimeout t) s = .next ((s.atTime t).servingDieFails s.faults.svActive)) ∧
  (∀ (s : State) (t : Nat), leaseLive s t = false ∨ s.tick.running = false →
      exec (.servingHeartbeatTimeout t) s = .next (s.atTime t)) ∧
  (∀ (s : State) (d n : Nat), s.faults.takeover = some d → standbyDie s = some n → edgeSince s d = true ∧ (holderUp s = true ∨ s.faults.orphan = true) →
      
  exec .controlTakeover s = .next ((((((s.onFaults (fun f => { f with ctActive := n, takeover := none, orphan := false, controlLost := false, ctStandby := !f.ctFailed.contains (1 - n) })).takeLatched).reissueAll.postEvent St.controlFailover 0 0).endActivation).portsChanged).noteSentinel)) ∧
  (∀ (s : State) (d : Nat), s.faults.takeover = some d → edgeSince s d = false →
      exec .controlTakeover s = .next s ∧ exec .orphanEnter s = .next s) ∧
  (∀ (s : State), s.faults.takeover = none ∨ standbyDie s = none ∨ (holderUp s = false ∧ s.faults.orphan = false) →
      exec .controlTakeover s = .next s) ∧
  (∀ (s : State) (d : Nat), s.faults.takeover = some d → standbyDie s = none → edgeSince s d = true ∧ s.faults.orphan = false →
      exec .orphanEnter s = .next ((((s.onFaults (fun f => { f with orphan := true, controlLost := true })).postEvent St.controlLost 0 0).portsChanged).noteSentinel)) ∧
  (∀ (s : State), s.faults.takeover = none ∨ s.faults.orphan = true →
      exec .orphanEnter s = .next s) ∧
  (∀ (s : State) (t : Nat), leaseLive s t = true →
      exec (.leaseRenew t) s = .next ((s.atTime t).onFaults (fun f => { f with lease1 := f.lease1 && !f.reclaim, reclaim := false, leaseUntil := t + 50000000 }))) ∧
  (∀ (s : State) (t : Nat), leaseLive s t = false →
      exec (.leaseRenew t) s = .next (s.atTime t)) ∧
  (∀ (s : State) (t : Nat), s.faults.leaseUntil ≤ t ∧ sentinelUp s (b2n (!s.faults.lease1)) = true →
      exec (.leaseExpiry t) s = .next ((s.atTime t).onFaults (fun f => { f with lease1 := !f.lease1, reclaim := false, leaseUntil := t + 50000000 }))) ∧
  (∀ (s : State) (t : Nat), s.faults.lease1 = true ∧ sentinelUp s 0 = true →
      exec (.leaseReclaim t) s = .next ((s.atTime t).onFaults (fun f => { f with reclaim := true }))) ∧
  (∀ (s : State) (i n : Nat), holderUp s = true →
      exec (.i3cWrite i) s = .next (s.onStart (fun x => { x with i3cIndex := i % 256 })) ∧ exec (.i3cRead n) s = .next (s.answerWith (slice (sentinelBytes s) s.start.i3cIndex n))) ∧
  (∀ (s : State) (i n : Nat), holderUp s = false →
      exec (.i3cWrite i) s = .next s ∧ exec (.i3cRead n) s = .next s) ∧
  (∀ (s : State) (t d : Nat), d < 2 ∧ d ∈ s.faults.ctFailed ∧ 34 + d ∉ s.faults.rebooted → 34 + d ∉ isolatedDies s.store.failed →
      exec (.dieRebootedHealthy t (34 + d)) s = .next ((((s.atTime t).onFaults (fun f => { f with rebooted := f.rebooted ++ [34 + d] })).onFaults (fun f => { f with ctFailed := setDel d f.ctFailed, ctStandby := true })).capChanged)) ∧
  (∀ (s : State) (t d : Nat), d < 2 ∧ d ∈ s.faults.svFailed ∧ 36 + d ∉ s.faults.rebooted → 36 + d ∉ isolatedDies s.store.failed →
      exec (.dieRebootedHealthy t (36 + d)) s = .next ((((s.atTime t).onFaults (fun f => { f with rebooted := f.rebooted ++ [36 + d] })).onFaults (fun f => { f with svFailed := setDel d f.svFailed, svStandby := true })).capChanged)) ∧
  (∀ (s : State) (t c : Nat), c ∈ s.faults.rebooted ∨ c ∈ isolatedDies s.store.failed →
      exec (.dieRebootedHealthy t c) s = .next (s.atTime t)) ∧
  (∀ (s : State) (t : Nat) (x : Snapshot), s.tel.frozen = some x →
      exec (.snapshotReadable t) s = .next ((s.atTime t).onTel (fun k => { k with readable := some x, frozen := none }))) ∧
  (∀ (s : State) (t : Nat), s.tel.frozen = none →
      exec (.snapshotReadable t) s = .next (s.atTime t)) ∧
  (∀ (s : State) (t : Nat), t < s.faults.leaseUntil ∨ sentinelUp s (b2n (!s.faults.lease1)) = false →
      exec (.leaseExpiry t) s = .next (s.atTime t)) ∧
  (∀ (s : State) (t : Nat), s.faults.lease1 = false ∨ sentinelUp s 0 = false →
      exec (.leaseReclaim t) s = .next (s.atTime t)) ∧
  (∀ (s : State) (n : Nat), sentinelUp s n = true ↔ n ∉ s.faults.hxFailed ∧ s.start.state ≠ .off)

/-- UNCORRECTABLE_DATA at an address of a healthy stack's tier 1 that the device has records it, counts, poisons the attempts that
read it, and then acts by class: an ingot is poisoned; managers' data and the commit log fail the active control die when both
copies are lost; a page is rebuilt and an object of a request is lost in a commit window, that one or the next.
INGOT_REPAIR_DONE writes the ingot back in an execute window and, where its header agrees, clears the poison; a failed repair
breaks the slot with its event in a commit window before its events; a failed pair's stack is left alone. 200 ticks later
BROKEN_SLOT_TIMEOUT closes the slot's requests with FAULT_MODEL. REBUILD_COMMIT settles a rebuilt group in a commit window.
Spare rows, columns, banks and TSV groups are used while they last on banks in use; a third TSV group on a channel fails the
pair. BANK_RETIRE retires a pool bank once and fails the pair for a bank outside the pool. CLUSTER_PAIR_FAILED fails the pair.
CLMAP_SWITCH places the shards that wait, and with none waiting changes nothing. -/
def Obligations.DataFaultsAndSpares : Prop :=
  (∀ (s u : State) (t a n : Nat) (lost : Bool) (rs : List Nat), stackBase 0 ≤ a ∧ (granuleOf a).1 < 16 ∧ (granuleOf a).2 < banksOf s.variant * 32768 ∧ (granuleOf a).1 ∉ s.faults.clFailed → u = ((((s.atTime t).onFaults (fun f => { f with lastUncorr := a % two64 })).countStack (granuleOf a).1 (fun c => { c with uncorrectable := inc64 c.uncorrectable })).onPlan (fun u => { u with attempts := markAttempts rs (fun a => { a with poisoned := true }) u.attempts })) →
      
  exec (.uncorrectableData t .ingot a n lost rs) s = .next (u.notePoison n (granuleOf a).1 (match frameOf u n (granuleOf a).1 (granuleOf a).2 with | none => (granuleOf a).2 | some x => x.2.granule)) ∧
  exec (.uncorrectableData t .manager a n lost rs) s = .next (if lost then u.controlDieFails u.faults.ctActive else u) ∧ exec (.uncorrectableData t .commitLog a n lost rs) s = .next (if lost then u.controlDieFails u.faults.ctActive else u)) ∧
  (∀ (s u : State) (t a n : Nat) (k : UncorrKind) (lost : Bool) (rs : List Nat), stackBase 0 ≤ a ∧ (granuleOf a).1 < 16 ∧ (granuleOf a).2 < banksOf s.variant * 32768 ∧ (granuleOf a).1 ∉ s.faults.clFailed → u = ((((s.atTime t).onFaults (fun f => { f with lastUncorr := a % two64 })).countStack (granuleOf a).1 (fun c => { c with uncorrectable := inc64 c.uncorrectable })).onPlan (fun u => { u with attempts := markAttempts rs (fun a => { a with poisoned := true }) u.attempts })) → k ≠ .ingot ∧ k ≠ .manager ∧ k ≠ .commitLog → s.tick.inCommit = false →
      exec (.uncorrectableData t k a n lost rs) s = .next (u.onFaults (fun f => { f with lossDue := f.lossDue ++ [.data k n lost] }))) ∧
  (∀ (s u : State) (t a n : Nat) (k : UncorrKind) (lost : Bool) (rs : List Nat), stackBase 0 ≤ a ∧ (granuleOf a).1 < 16 ∧ (granuleOf a).2 < banksOf s.variant * 32768 ∧ (granuleOf a).1 ∉ s.faults.clFailed → u = ((((s.atTime t).onFaults (fun f => { f with lastUncorr := a % two64 })).countStack (granuleOf a).1 (fun c => { c with uncorrectable := inc64 c.uncorrectable })).onPlan (fun u => { u with attempts := markAttempts rs (fun a => { a with poisoned := true }) u.attempts })) → k ≠ .ingot ∧ k ≠ .manager ∧ k ≠ .commitLog → s.tick.inCommit = true →
      exec (.uncorrectableData t k a n lost rs) s = .next (if k = .page then u.losePage n else u.loseObject k n lost)) ∧
  (∀ (s : State) (t a n : Nat) (k : UncorrKind) (lost : Bool) (rs : List Nat), a < stackBase 0 ∨ 16 ≤ (granuleOf a).1 ∨ banksOf s.variant * 32768 ≤ (granuleOf a).2 ∨ (granuleOf a).1 ∈ s.faults.clFailed →
      exec (.uncorrectableData t k a n lost rs) s = .next (s.atTime t)) ∧
  (∀ (s : State) (m cl g : Nat) (b : List (BitVec 8)), (cl, g) ∈ (s.mslot m).poisoned ∧ (s.mslot m).state = .resident → s.clusterUp cl = true ∧ s.tick.inCommit = true ∧ s.req.begun = false ∧ s.faults.orphan = false →
      exec (.ingotRepairDone m cl g false b) s = .next ((s.modMslot m (fun m => { m with state := .broken, brokenAt := s.tick.index })).postEvent St.modelBroken m 0)) ∧
  (∀ (s u : State) (m cl g : Nat) (b : List (BitVec 8)), (cl, g) ∈ (s.mslot m).poisoned ∧ (s.mslot m).state = .resident → s.clusterUp cl = true ∧ s.tick.running = true ∧ s.tick.inCommit = false → u = (if 2 ≤ poisonings s cl g then s.useSpareRow cl (g / 32768) (g % 32768) else s).putBytes (granAddr cl g 0) b →
      
  exec (.ingotRepairDone m cl g true b) s = .next (if frameAgrees u m cl g then (u.modMslot m (fun x => { x with poisoned := (s.mslot m).poisoned.filter (fun x => x ≠ (cl, g)) })).onPlan (fun p => { p with repairing := if ((s.mslot m).poisoned.filter (fun x => x ≠ (cl, g))).isEmpty then setDel m p.repairing else p.repairing }) else u)) ∧
  (∀ (s : State) (m cl g : Nat) (ok : Bool) (b : List (BitVec 8)), (cl, g) ∉ (s.mslot m).poisoned ∨ s.clusterUp cl = false →
      exec (.ingotRepairDone m cl g ok b) s = .next s) ∧
  (∀ (s : State) (m : Nat), s.tick.inCommit = true → (s.mslot m).state = .broken ∧ (s.mslot m).brokenAt + 200 ≤ s.tick.index →
      exec (.brokenSlotTimeout m) s = .next ((s.req.table.filter (fun p => p.2.modelSlot = m && reqLive p.2.state)).foldl (fun t p => t.closeSoon p.1 St.faultModel) s)) ∧
  (∀ (s : State) (m : Nat), (s.mslot m).state ≠ .broken ∨ s.tick.index < (s.mslot m).brokenAt + 200 →
      exec (.brokenSlotTimeout m) s = .next s) ∧
  (∀ (s : State) (h : Nat), exec (.rebuildCommit h) s = .next (if s.tick.inCommit then s.settleRebuild h else s)) ∧
  (∀ (s : State) (st b r : Nat), s.faults.orphan = false → bankInUse s st b = true →
      (r < 32768 → exec (.spareRowSwap st b r) s = .next (s.useSpareRow st b r)) ∧
  (r < 64 → (s.faults.spareCols.filter (fun c => c.1 = st && c.2.1 = b)).length < 4 → exec (.spareColumnSwap st b r) s = .next (s.onFaults (fun f => { f with spareCols := f.spareCols ++ [(st, b, r)] }))) ∧
  (32768 ≤ r → exec (.spareRowSwap st b r) s = .next s ∧ exec (.spareColumnSwap st b r) s = .next s)) ∧
  (∀ (s : State) (st b n : Nat), s.faults.orphan = false → bankInUse s st b = true ∧ n < 2 → s.faults.spareBanks = [] ∧ s.faults.bankSwaps = [] →
      exec (.spareBankCopyDone st b n) s = .next (s.onFaults (fun f => { f with bankSwaps := [(st, b, n)] }))) ∧
  (∀ (s : State) (st l : Nat), s.faults.orphan = false → bankInUse s st 0 = true ∧ l < 4608 ∧ s.tick.inCommit = true →
      exec (.tsvSpareSwitch st l) s = .next (if (s.faults.tsvSpares.filter (fun x => x = (st, l / 64))).length < 2 then (s.onFaults (fun f => { f with tsvSpares := f.tsvSpares ++ [(st, l / 64)] })).noteSpares st else s.failPair st)) ∧
  (∀ (s : State) (t st b : Nat), s.faults.orphan = false → bankInUse s st b = true ∧ (st, b) ∉ s.faults.retiredBanks →
      exec (.bankRetire t st b) s = .next (if poolBanks s.variant ≤ b then (s.atTime t).failPair st else (s.atTime t).retireBank st b)) ∧
  (∀ (s : State) (t p : Nat), exec (.clusterPairFailed t p) s = .next ((s.atTime t).failPair p)) ∧
  (∀ (s : State), s.faults.remapDue = none →
      exec .clmapSwitch s = .next s) ∧
  (∀ (s : State) (map : List Nat), s.faults.remapDue = some map →
      
  exec .clmapSwitch s = .next ((s.faults.clsToPlace.foldl (fun t c => (((t.models.slots.filter (fun m => m.2.state = .resident)).foldl (fun u m => u.moveShard { stack := nth t.faults.clmap c c, dest := nth map c c } c m.1) t).moveAlloys { stack := nth t.faults.clmap c c, dest := nth map c c } c)) s).onFaults (fun f => { f with clsToPlace := [] }))) ∧
  (∀ (s : State) (map : List Nat), s.faults.remapDue = some map → s.faults.clsToPlace = [] →
      exec .clmapSwitch s = .next s)
end

