-- ==== Sys2Proof/Laws/Config.lean ====
section
/-! SUPPORT. What the writes of a configuration command come to, entry by entry (R362), and what a command on a request comes to (R74). -/

namespace Sys2Proof.Laws

open Sys2Proof Sys2Proof.Machine

/-- Writing one entry more. -/
theorem writtenRegs_succ (op : Nat) (p : List Byte) (r : Registers) (n : Nat) :
    writtenRegs op p r (n + 1) =
      match rwAt op (configEntry p n).1 with
      | none => writtenRegs op p r n
      | some g => rwSet (writtenRegs op p r n) (entryValue op p (writtenRegs op p r n) n) g := by
  unfold writtenRegs
  rw [List.range_succ, List.foldl_append]
  rfl

/-- Entries that all fit are written in order. -/
theorem configWrites_fit (op : Nat) (p : List Byte) (k : Nat) : ∀ (n : Nat) (r : Registers),
    (∀ i, i < n → entryFits op p (writtenRegs op p r (k + i)) (k + i) = true) →
    configWrites op p (List.range' k n) (writtenRegs op p r k) =
      .ok (writtenRegs op p r (k + n), (List.range' k n).map (fun i => entryValue op p (writtenRegs op p r i) i)) := by
  intro n
  induction n generalizing k with
  | zero => intro r _; rfl
  | succ n ih =>
    intro r h
    have h0 := h 0 (Nat.succ_pos n)
    have ih' := ih (k + 1) r (fun i hi => by have := h (i + 1) (by omega); rwa [show k + (i + 1) = k + 1 + i by omega] at this)
    rw [Nat.add_zero] at h0
    rw [List.range'_succ, List.map_cons]
    have hw := writtenRegs_succ op p r k
    unfold configWrites
    unfold entryFits at h0
    dsimp only
    cases hg : rwAt op (configEntry p k).1 with
    | none => rw [hg] at h0; cases h0
    | some g =>
      rw [hg] at hw h0
      have hv : entryValue op p (writtenRegs op p r k) k
          = maskWrite (rwGet (writtenRegs op p r k) g) (configEntry p k).2.1 (configEntry p k).2.2 := by unfold entryValue; rw [hg]
      dsimp only at hw h0 ⊢
      rw [← hv, if_pos h0, ← hw, ih', show k + 1 + n = k + (n + 1) by omega]

/-- Where some entry does not fit, the check that fails is BAD_ARGUMENT. -/
theorem configWrites_unfit (op : Nat) (p : List Byte) (k : Nat) : ∀ (n : Nat) (r : Registers),
    (∃ i, i < n ∧ entryFits op p (writtenRegs op p r (k + i)) (k + i) = false) →
    configWrites op p (List.range' k n) (writtenRegs op p r k) = .error St.badArgument := by
  intro n
  induction n generalizing k with
  | zero => rintro r ⟨i, hi, _⟩; omega
  | succ n ih =>
    rintro r ⟨i, hi, hf⟩
    rw [List.range'_succ]
    have hw := writtenRegs_succ op p r k
    unfold configWrites
    dsimp only
    cases hg : rwAt op (configEntry p k).1 with
    | none => rfl
    | some g =>
      rw [hg] at hw
      have hv : entryValue op p (writtenRegs op p r k) k
          = maskWrite (rwGet (writtenRegs op p r k) g) (configEntry p k).2.1 (configEntry p k).2.2 := by unfold entryValue; rw [hg]
      dsimp only at hw ⊢
      rw [← hv]
      split
      · next h0 =>
        cases i with
        | zero =>
          unfold entryFits at hf
          rw [Nat.add_zero, hg] at hf
          dsimp only at hf
          rw [hf] at h0
          cases h0
        | succ j =>
          rw [← hw, ih (k + 1) r ⟨j, by omega, by rw [show k + 1 + j = k + (j + 1) by omega]; exact hf⟩]
      · rfl

/-- The writes of a command whose entries all fit. -/
theorem configWrites_all (op : Nat) (c : MbCommand) (r : Registers) (h : entriesFit op c r = true) :
    configWrites op c.payload (List.range (entryCount c)) r =
      .ok (writtenRegs op c.payload r (entryCount c),
        (List.range (entryCount c)).map (fun i => entryValue op c.payload (writtenRegs op c.payload r i) i)) := by
  have h' := configWrites_fit op c.payload 0 (entryCount c) r (fun i hi => by
    rw [Nat.zero_add]
    exact List.all_eq_true.1 h i (List.mem_range.2 hi))
  rw [Nat.zero_add, ← List.range_eq_range'] at h'
  exact h'

/-- The writes of a command of which an entry does not fit. -/
theorem configWrites_none (op : Nat) (c : MbCommand) (r : Registers) (h : entriesFit op c r = false) :
    configWrites op c.payload (List.range (entryCount c)) r = .error St.badArgument := by
  have hx : ∃ i, i < entryCount c ∧ entryFits op c.payload (writtenRegs op c.payload r (0 + i)) (0 + i) = false := by
    unfold entriesFit at h
    rw [List.all_eq_false] at h
    obtain ⟨i, hi, hf⟩ := h
    exact ⟨i, List.mem_range.1 hi, by simpa using hf⟩
  have h' := configWrites_unfit op c.payload 0 (entryCount c) r hx
  rw [← List.range_eq_range'] at h'
  exact h'

/-- A command that is due and names a live request and its admission is its body, run once the events before it are taken (R42, R74). -/
theorem reqCommand_on {s : State} {mb op : Nat} {c : MbCommand} {r : Request} (f : MbCommand → Nat → Request → State → State)
    (h : OnRequest s mb op c r) : s.reqCommand mb op f = afterCommand (f c (cf c 0 4) r (credited s c)) (cf c 0 4) := by
  obtain ⟨⟨ha, hu, hd⟩, hr, hl, hn⟩ := h
  unfold credited at hr
  simp only [State.reqCommand, ha, hu, hd, hr, hl, hn, Bool.and_self, if_true, afterCommand, credited]
  rfl

/-- One that names a FREE or CLOSING slot, or another admission, completes REQ_CLOSED (R74). -/
theorem reqCommand_closed {s : State} {mb op : Nat} {c : MbCommand} (f : MbCommand → Nat → Request → State → State) (h : Due s mb op c)
    (hr : ((credited s c).req? (cf c 0 4)).all (fun r => !(reqLive r.state && namesReq c r)) = true) :
    s.reqCommand mb op f = afterCommand ((credited s c).complete c St.reqClosed []) (cf c 0 4) := by
  obtain ⟨ha, hu, hd⟩ := h
  unfold credited at hr
  simp only [State.reqCommand, ha, hu, hd, Bool.and_self, if_true, afterCommand, credited]
  cases hq : (s.begin.takeEventsFor (cf c 0 4) (some (s.cmdKey c))).req? (cf c 0 4) with
  | none => rfl
  | some r =>
    rw [hq] at hr
    simp only [Option.all_some, Bool.not_eq_true'] at hr
    simp [hr]

end Sys2Proof.Laws
end

