-- ==== Sys2Proof/Laws/Engines.lean ====
section
/-! SUPPORT. What a bank-unit or matrix command comes to where its sequencer runs it at once (R125, R156, R160). -/

namespace Sys2Proof.Laws

open Sys2Proof Sys2Proof.Machine

/-- A command that the bank-unit sequencer runs as it is issued has its effect, and its time counts in the bursts of its banks (R125, R133). -/
theorem buIssue_runs {s : State} {cl : Nat} {c : BuCmd} (h : BankRuns s cl c) : buIssue cl c s = buStream cl c.word s (buEffect cl c s) := by
  obtain ⟨⟨hu, hq, hj⟩, ⟨hf, hs⟩, ⟨hb, hst⟩, ha, hr⟩ := h
  simp only [buIssue, hu, hq, hf, hs, Bool.not_true, Bool.or_self, Bool.and_self, Bool.or_true, Bool.false_eq_true, if_false, if_true, buOffer, hb,
    hst, buBegin, if_neg hj, buRun, ha, hr]

/-- The words of a command name its opcode (R122), so one that does not stream counts in no burst. -/
theorem buStream_quiet {s : State} {cl : Nat} {c : BuCmd} (h : BankRuns s cl c) (hs : buStreams c.op = false) (b t : State) : buStream cl c.word b t = t := by
  have hw : buOp c.word = c.op := by
    have hf := h.2.1.1
    simp only [buFormOk, buWordOk, Bool.and_eq_true, decide_eq_true_eq] at hf
    tauto
  simp only [buStream, hw, hs, Bool.false_eq_true, if_false]

/-- So a command that does not stream comes to its effect alone. -/
theorem buIssue_quiet {s : State} {cl : Nat} {c : BuCmd} (h : BankRuns s cl c) (hs : buStreams c.op = false) : buIssue cl c s = buEffect cl c s := by
  rw [buIssue_runs h, buStream_quiet h hs]

/-- A GATHER that a commit owes, with its lists loaded, runs as it is reported (R253). -/
theorem offerGather_runs {s u : State} {cl : Nat} {c : BuCmd} (hc : c.op = 8 ∧ c.job = 17) (hu : s.clusterUp cl = true ∧ gatherOwed s cl c.word c.ext = true)
    (hf : buFormOk (s.loadLanes cl c.word c.ext) c = true ∧ buFits (s.loadLanes cl c.word c.ext) cl c = true)
    (hb : ((s.loadLanes cl c.word c.ext).bcl cl).queue.any (fun q => buShare (s.loadLanes cl c.word c.ext).variant q c) = false ∧
      buStarts (s.loadLanes cl c.word c.ext) cl c.word = true)
    (he : u = (s.loadLanes cl c.word c.ext).loadLanes cl c.word c.ext)
    (hg : gatherOwed u cl c.word c.ext = true ∧ buUnitsOk u cl c = true ∧ commitRowsOk u cl c = true) (hr : rchkFinds u cl c = none) :
    offerGather cl c s = (buStream cl c.word u (doGather cl c u)).onReq (fun q => { q with gathersDue := gathersLeft u.variant cl c.word c.ext q.gathersDue }) := by
  simp only [offerGather, hu.1, hu.2, hf.1, hf.2, Bool.and_self, if_true, buOffer, hb.1, hb.2, Bool.or_true, Bool.not_true, Bool.or_self, Bool.false_eq_true, if_false,
    buBegin, hc.2, commitGather, ← he, hg.1, hg.2.1, hg.2.2, hr, buEffect, hc.1]
  rfl

/-- A matrix command that names no unit has its effect where the sequencer accepts it (R161). -/
theorem mxRun_runs {s : State} {cl job op fmt inW outW : Nat} {w : BitVec 128} (f : State → State) (h : MxRuns s cl job op w fmt inW outW) :
    mxRun s cl job op w fmt inW outW f = f s := by
  obtain ⟨ht, hw, hr⟩ := h
  simp only [mxRun, ht, hw, mxDo, hr, if_true]

/-- A command other than ILOAD that names a unit and has nothing to wait for has its effect (R160). -/
theorem mxIssue_runs {s : State} {cl : Nat} {q : MxCmd} (h : MxStarts s cl q) (ho : q.op ≠ 1) : mxIssue s cl q = mxEffect cl q s := by
  obtain ⟨⟨ht, hw, hr⟩, hn, hb⟩ := h
  simp only [mxIssue, ht, hw, if_neg ho, hn, hb, Bool.or_self, Bool.false_eq_true, if_false, if_true, mxUnitDo, mxDo, hr]

end Sys2Proof.Laws
end

