-- ==== Sys2Proof/Laws/Memory.lean ====
section
/-! SUPPORT. The sparse tables and the memory: what a read answers after a write, and that every operation keeps the canonical
form. -/

namespace Sys2Proof.Laws

open Sys2Proof Sys2Proof.Machine

variable {α : Type}

/-! ## Tables -/

/-- Every key of the table is above k. -/
def keysAbove (k : Nat) (t : List (Nat × α)) : Prop := ∀ p ∈ t, k < p.1

@[simp] theorem tabSorted_nil : tabSorted ([] : List (Nat × α)) = true := rfl

theorem tabSorted_cons (p : Nat × α) (r : List (Nat × α)) :
    tabSorted (p :: r) = true ↔ keysAbove p.1 r ∧ tabSorted r = true := by
  induction r generalizing p with
  | nil => simp [tabSorted, keysAbove]
  | cons q r ih =>
    have hq := ih q
    simp only [tabSorted, Bool.and_eq_true, decide_eq_true_eq] at hq ⊢
    constructor
    · rintro ⟨hlt, h⟩
      refine ⟨?_, h⟩
      intro x hx
      rcases List.mem_cons.mp hx with rfl | hx
      · exact hlt
      · exact Nat.lt_trans hlt ((hq.mp h).1 x hx)
    · rintro ⟨ha, h⟩
      exact ⟨ha q (by simp), h⟩

theorem mem_tabPut {k : Nat} {v : α} {t : List (Nat × α)} {p : Nat × α} (h : p ∈ tabPut k v t) : p = (k, v) ∨ p ∈ t := by
  induction t with
  | nil => simpa [tabPut] using h
  | cons q r ih =>
    obtain ⟨a, w⟩ := q
    simp only [tabPut] at h
    split at h
    · simpa using h
    · split at h
      · simp only [List.mem_cons] at h ⊢
        tauto
      · simp only [List.mem_cons] at h ⊢
        rcases h with h | h
        · tauto
        · rcases ih h with h | h <;> tauto

theorem tabSorted_tabPut (k : Nat) (v : α) {t : List (Nat × α)} (h : tabSorted t = true) : tabSorted (tabPut k v t) = true := by
  induction t with
  | nil => simp [tabPut, tabSorted]
  | cons q r ih =>
    obtain ⟨a, w⟩ := q
    have hc := (tabSorted_cons _ _).mp h
    simp only [tabPut]
    split
    · rename_i hk
      refine (tabSorted_cons _ _).mpr ⟨?_, h⟩
      intro x hx
      rcases List.mem_cons.mp hx with rfl | hx
      · exact hk
      · exact Nat.lt_trans hk (hc.1 x hx)
    · split
      · rename_i hk
        refine (tabSorted_cons _ _).mpr ⟨?_, hc.2⟩
        simpa [hk] using hc.1
      · rename_i h1 h2
        refine (tabSorted_cons _ _).mpr ⟨?_, ih hc.2⟩
        intro x hx
        rcases mem_tabPut hx with rfl | hx
        · simp only; omega
        · exact hc.1 x hx

theorem tabSorted_filter (f : Nat × α → Bool) {t : List (Nat × α)} (h : tabSorted t = true) : tabSorted (t.filter f) = true := by
  induction t with
  | nil => simp
  | cons q r ih =>
    have hc := (tabSorted_cons _ _).mp h
    rw [List.filter_cons]
    split
    · exact (tabSorted_cons _ _).mpr ⟨fun x hx => hc.1 x (List.mem_filter.mp hx).1, ih hc.2⟩
    · exact ih hc.2

theorem tabSorted_tabDel (k : Nat) {t : List (Nat × α)} (h : tabSorted t = true) : tabSorted (tabDel k t) = true :=
  tabSorted_filter _ h

@[simp] theorem tabGet_tabPut (k j : Nat) (v : α) (t : List (Nat × α)) :
    tabGet j (tabPut k v t) = if k = j then some v else tabGet j t := by
  induction t with
  | nil => simp [tabPut, tabGet]
  | cons q r ih =>
    obtain ⟨a, w⟩ := q
    simp only [tabPut]
    split
    · simp [tabGet]
    · split
      · rename_i hk
        subst hk
        simp only [tabGet]
        split <;> simp_all
      · simp only [tabGet, ih]
        split
        · rename_i h1 h2 h3
          subst h3
          simp [Ne.symm h2]
        · rfl

@[simp] theorem tabGet_tabDel (k j : Nat) (t : List (Nat × α)) : tabGet j (tabDel k t) = if k = j then none else tabGet j t := by
  induction t with
  | nil => simp [tabDel, tabGet]
  | cons q r ih =>
    obtain ⟨a, w⟩ := q
    have ih' : tabGet j (List.filter (fun p => decide (p.1 ≠ k)) r) = if k = j then none else tabGet j r := ih
    simp only [tabDel, List.filter_cons, tabGet]
    by_cases hak : a = k
    · subst hak
      simp only [ne_eq, not_true_eq_false, decide_false, Bool.false_eq_true, if_false, ih']
      split
      · rfl
      · rfl
    · simp only [ne_eq, hak, not_false_eq_true, decide_true, if_true, tabGet, ih']
      by_cases haj : a = j
      · subst haj; simp [Ne.symm hak]
      · simp [haj]

/-! ## Memory -/

theorem wf_iff (m : Memory) : m.wf = true ↔ tabSorted m = true ∧ ∀ p ∈ m, p.2 ≠ 0 := by
  simp [Memory.wf, List.all_eq_true]

@[simp] theorem wf_nil : Memory.wf [] = true := rfl

/-- A byte written keeps the canonical form. -/
theorem wf_write (a : Nat) (b : Byte) {m : Memory} (h : m.wf = true) : (m.write a b).wf = true := by
  rw [wf_iff] at *
  unfold Memory.write
  split
  · exact ⟨tabSorted_tabDel _ h.1, fun p hp => h.2 p (List.mem_filter.mp hp).1⟩
  · rename_i hb
    refine ⟨tabSorted_tabPut _ _ h.1, fun p hp => ?_⟩
    rcases mem_tabPut hp with rfl | hp
    · exact hb
    · exact h.2 p hp

/-- Bytes written keep the canonical form. -/
theorem wf_writeN (bs : List Byte) (a : Nat) {m : Memory} (h : m.wf = true) : (m.writeN a bs).wf = true := by
  induction bs generalizing a m with
  | nil => exact h
  | cons b r ih => exact ih _ (wf_write a b h)

/-- Bytes cleared keep the canonical form. -/
theorem wf_clear (a n : Nat) {m : Memory} (h : m.wf = true) : (m.clear a n).wf = true := by
  rw [wf_iff] at *
  exact ⟨tabSorted_filter _ h.1, fun p hp => h.2 p (List.mem_filter.mp hp).1⟩

/-- A fold of operations that keep the canonical form keeps it. -/
theorem wf_foldl {β : Type} (f : Memory → β → Memory) (hf : ∀ m x, m.wf = true → (f m x).wf = true) (l : List β) {m : Memory}
    (h : m.wf = true) : (l.foldl f m).wf = true := by
  induction l generalizing m with
  | nil => exact h
  | cons x r ih => exact ih (hf m x h)

/-- A read after a write of one byte. -/
theorem read_write (a c : Nat) (b : Byte) {m : Memory} (h : m.wf = true) :
    (m.write a b).read c = if a = c then b else m.read c := by
  have hs := ((wf_iff m).mp h).1
  unfold Memory.write Memory.read tabGetD
  split
  · rename_i hb
    subst hb
    rw [tabGet_tabDel]
    split <;> simp_all
  · rw [tabGet_tabPut]
    split <;> simp

/-- A read outside the bytes written answers what it answered before. -/
theorem read_writeN_out (bs : List Byte) (a c : Nat) {m : Memory} (h : m.wf = true) (hc : c < a ∨ a + bs.length ≤ c) :
    (m.writeN a bs).read c = m.read c := by
  induction bs generalizing a m with
  | nil => rfl
  | cons b r ih =>
    simp only [List.length_cons] at hc
    rw [Memory.writeN, ih _ (wf_write a b h) (by omega), read_write a c b h, if_neg (by omega)]

end Sys2Proof.Laws
end

