-- ==== Sys2Proof/Laws/State.lean ====
section
/-! SUPPORT. What each update of a part of the state does to each field: the part updated takes the new value, every other
field is as it was. -/

namespace Sys2Proof.Laws

open Sys2Proof Sys2Proof.Machine

variable (s : State)

@[simp] theorem onStart_variant (f : StartUnit → StartUnit) : (s.onStart f).variant = s.variant := rfl
@[simp] theorem onStart_start (f : StartUnit → StartUnit) : (s.onStart f).start = f s.start := rfl
@[simp] theorem onStart_power (f : StartUnit → StartUnit) : (s.onStart f).power = s.power := rfl
@[simp] theorem onStart_tick (f : StartUnit → StartUnit) : (s.onStart f).tick = s.tick := rfl
@[simp] theorem onStart_req (f : StartUnit → StartUnit) : (s.onStart f).req = s.req := rfl
@[simp] theorem onStart_cfg (f : StartUnit → StartUnit) : (s.onStart f).cfg = s.cfg := rfl
@[simp] theorem onStart_cfgNext (f : StartUnit → StartUnit) : (s.onStart f).cfgNext = s.cfgNext := rfl
@[simp] theorem onStart_mb (f : StartUnit → StartUnit) : (s.onStart f).mb = s.mb := rfl
@[simp] theorem onStart_plan (f : StartUnit → StartUnit) : (s.onStart f).plan = s.plan := rfl
@[simp] theorem onStart_banks (f : StartUnit → StartUnit) : (s.onStart f).banks = s.banks := rfl
@[simp] theorem onStart_matrix (f : StartUnit → StartUnit) : (s.onStart f).matrix = s.matrix := rfl
@[simp] theorem onStart_store (f : StartUnit → StartUnit) : (s.onStart f).store = s.store := rfl
@[simp] theorem onStart_tier (f : StartUnit → StartUnit) : (s.onStart f).tier = s.tier := rfl
@[simp] theorem onStart_models (f : StartUnit → StartUnit) : (s.onStart f).models = s.models := rfl
@[simp] theorem onStart_gelcon (f : StartUnit → StartUnit) : (s.onStart f).gelcon = s.gelcon := rfl
@[simp] theorem onStart_host (f : StartUnit → StartUnit) : (s.onStart f).host = s.host := rfl
@[simp] theorem onStart_faults (f : StartUnit → StartUnit) : (s.onStart f).faults = s.faults := rfl
@[simp] theorem onStart_tel (f : StartUnit → StartUnit) : (s.onStart f).tel = s.tel := rfl
@[simp] theorem onStart_mem (f : StartUnit → StartUnit) : (s.onStart f).mem = s.mem := rfl
@[simp] theorem onStart_reply (f : StartUnit → StartUnit) : (s.onStart f).reply = s.reply := rfl
@[simp] theorem onStart_freeCtr (f : StartUnit → StartUnit) : (s.onStart f).freeCtr = s.freeCtr := rfl
@[simp] theorem onStart_pending (f : StartUnit → StartUnit) : (s.onStart f).pending = s.pending := rfl
@[simp] theorem onPower_variant (f : PowerUnit → PowerUnit) : (s.onPower f).variant = s.variant := rfl
@[simp] theorem onPower_start (f : PowerUnit → PowerUnit) : (s.onPower f).start = s.start := rfl
@[simp] theorem onPower_power (f : PowerUnit → PowerUnit) : (s.onPower f).power = f s.power := rfl
@[simp] theorem onPower_tick (f : PowerUnit → PowerUnit) : (s.onPower f).tick = s.tick := rfl
@[simp] theorem onPower_req (f : PowerUnit → PowerUnit) : (s.onPower f).req = s.req := rfl
@[simp] theorem onPower_cfg (f : PowerUnit → PowerUnit) : (s.onPower f).cfg = s.cfg := rfl
@[simp] theorem onPower_cfgNext (f : PowerUnit → PowerUnit) : (s.onPower f).cfgNext = s.cfgNext := rfl
@[simp] theorem onPower_mb (f : PowerUnit → PowerUnit) : (s.onPower f).mb = s.mb := rfl
@[simp] theorem onPower_plan (f : PowerUnit → PowerUnit) : (s.onPower f).plan = s.plan := rfl
@[simp] theorem onPower_banks (f : PowerUnit → PowerUnit) : (s.onPower f).banks = s.banks := rfl
@[simp] theorem onPower_matrix (f : PowerUnit → PowerUnit) : (s.onPower f).matrix = s.matrix := rfl
@[simp] theorem onPower_store (f : PowerUnit → PowerUnit) : (s.onPower f).store = s.store := rfl
@[simp] theorem onPower_tier (f : PowerUnit → PowerUnit) : (s.onPower f).tier = s.tier := rfl
@[simp] theorem onPower_models (f : PowerUnit → PowerUnit) : (s.onPower f).models = s.models := rfl
@[simp] theorem onPower_gelcon (f : PowerUnit → PowerUnit) : (s.onPower f).gelcon = s.gelcon := rfl
@[simp] theorem onPower_host (f : PowerUnit → PowerUnit) : (s.onPower f).host = s.host := rfl
@[simp] theorem onPower_faults (f : PowerUnit → PowerUnit) : (s.onPower f).faults = s.faults := rfl
@[simp] theorem onPower_tel (f : PowerUnit → PowerUnit) : (s.onPower f).tel = s.tel := rfl
@[simp] theorem onPower_mem (f : PowerUnit → PowerUnit) : (s.onPower f).mem = s.mem := rfl
@[simp] theorem onPower_reply (f : PowerUnit → PowerUnit) : (s.onPower f).reply = s.reply := rfl
@[simp] theorem onPower_freeCtr (f : PowerUnit → PowerUnit) : (s.onPower f).freeCtr = s.freeCtr := rfl
@[simp] theorem onPower_pending (f : PowerUnit → PowerUnit) : (s.onPower f).pending = s.pending := rfl
@[simp] theorem onTick_variant (f : TickUnit → TickUnit) : (s.onTick f).variant = s.variant := rfl
@[simp] theorem onTick_start (f : TickUnit → TickUnit) : (s.onTick f).start = s.start := rfl
@[simp] theorem onTick_power (f : TickUnit → TickUnit) : (s.onTick f).power = s.power := rfl
@[simp] theorem onTick_tick (f : TickUnit → TickUnit) : (s.onTick f).tick = f s.tick := rfl
@[simp] theorem onTick_req (f : TickUnit → TickUnit) : (s.onTick f).req = s.req := rfl
@[simp] theorem onTick_cfg (f : TickUnit → TickUnit) : (s.onTick f).cfg = s.cfg := rfl
@[simp] theorem onTick_cfgNext (f : TickUnit → TickUnit) : (s.onTick f).cfgNext = s.cfgNext := rfl
@[simp] theorem onTick_mb (f : TickUnit → TickUnit) : (s.onTick f).mb = s.mb := rfl
@[simp] theorem onTick_plan (f : TickUnit → TickUnit) : (s.onTick f).plan = s.plan := rfl
@[simp] theorem onTick_banks (f : TickUnit → TickUnit) : (s.onTick f).banks = s.banks := rfl
@[simp] theorem onTick_matrix (f : TickUnit → TickUnit) : (s.onTick f).matrix = s.matrix := rfl
@[simp] theorem onTick_store (f : TickUnit → TickUnit) : (s.onTick f).store = s.store := rfl
@[simp] theorem onTick_tier (f : TickUnit → TickUnit) : (s.onTick f).tier = s.tier := rfl
@[simp] theorem onTick_models (f : TickUnit → TickUnit) : (s.onTick f).models = s.models := rfl
@[simp] theorem onTick_gelcon (f : TickUnit → TickUnit) : (s.onTick f).gelcon = s.gelcon := rfl
@[simp] theorem onTick_host (f : TickUnit → TickUnit) : (s.onTick f).host = s.host := rfl
@[simp] theorem onTick_faults (f : TickUnit → TickUnit) : (s.onTick f).faults = s.faults := rfl
@[simp] theorem onTick_tel (f : TickUnit → TickUnit) : (s.onTick f).tel = s.tel := rfl
@[simp] theorem onTick_mem (f : TickUnit → TickUnit) : (s.onTick f).mem = s.mem := rfl
@[simp] theorem onTick_reply (f : TickUnit → TickUnit) : (s.onTick f).reply = s.reply := rfl
@[simp] theorem onTick_freeCtr (f : TickUnit → TickUnit) : (s.onTick f).freeCtr = s.freeCtr := rfl
@[simp] theorem onTick_pending (f : TickUnit → TickUnit) : (s.onTick f).pending = s.pending := rfl
@[simp] theorem onReq_variant (f : ReqUnit → ReqUnit) : (s.onReq f).variant = s.variant := rfl
@[simp] theorem onReq_start (f : ReqUnit → ReqUnit) : (s.onReq f).start = s.start := rfl
@[simp] theorem onReq_power (f : ReqUnit → ReqUnit) : (s.onReq f).power = s.power := rfl
@[simp] theorem onReq_tick (f : ReqUnit → ReqUnit) : (s.onReq f).tick = s.tick := rfl
@[simp] theorem onReq_req (f : ReqUnit → ReqUnit) : (s.onReq f).req = f s.req := rfl
@[simp] theorem onReq_cfg (f : ReqUnit → ReqUnit) : (s.onReq f).cfg = s.cfg := rfl
@[simp] theorem onReq_cfgNext (f : ReqUnit → ReqUnit) : (s.onReq f).cfgNext = s.cfgNext := rfl
@[simp] theorem onReq_mb (f : ReqUnit → ReqUnit) : (s.onReq f).mb = s.mb := rfl
@[simp] theorem onReq_plan (f : ReqUnit → ReqUnit) : (s.onReq f).plan = s.plan := rfl
@[simp] theorem onReq_banks (f : ReqUnit → ReqUnit) : (s.onReq f).banks = s.banks := rfl
@[simp] theorem onReq_matrix (f : ReqUnit → ReqUnit) : (s.onReq f).matrix = s.matrix := rfl
@[simp] theorem onReq_store (f : ReqUnit → ReqUnit) : (s.onReq f).store = s.store := rfl
@[simp] theorem onReq_tier (f : ReqUnit → ReqUnit) : (s.onReq f).tier = s.tier := rfl
@[simp] theorem onReq_models (f : ReqUnit → ReqUnit) : (s.onReq f).models = s.models := rfl
@[simp] theorem onReq_gelcon (f : ReqUnit → ReqUnit) : (s.onReq f).gelcon = s.gelcon := rfl
@[simp] theorem onReq_host (f : ReqUnit → ReqUnit) : (s.onReq f).host = s.host := rfl
@[simp] theorem onReq_faults (f : ReqUnit → ReqUnit) : (s.onReq f).faults = s.faults := rfl
@[simp] theorem onReq_tel (f : ReqUnit → ReqUnit) : (s.onReq f).tel = s.tel := rfl
@[simp] theorem onReq_mem (f : ReqUnit → ReqUnit) : (s.onReq f).mem = s.mem := rfl
@[simp] theorem onReq_reply (f : ReqUnit → ReqUnit) : (s.onReq f).reply = s.reply := rfl
@[simp] theorem onReq_freeCtr (f : ReqUnit → ReqUnit) : (s.onReq f).freeCtr = s.freeCtr := rfl
@[simp] theorem onReq_pending (f : ReqUnit → ReqUnit) : (s.onReq f).pending = s.pending := rfl
@[simp] theorem onCfg_variant (f : Settings → Settings) : (s.onCfg f).variant = s.variant := rfl
@[simp] theorem onCfg_start (f : Settings → Settings) : (s.onCfg f).start = s.start := rfl
@[simp] theorem onCfg_power (f : Settings → Settings) : (s.onCfg f).power = s.power := rfl
@[simp] theorem onCfg_tick (f : Settings → Settings) : (s.onCfg f).tick = s.tick := rfl
@[simp] theorem onCfg_req (f : Settings → Settings) : (s.onCfg f).req = s.req := rfl
@[simp] theorem onCfg_cfg (f : Settings → Settings) : (s.onCfg f).cfg = f s.cfg := rfl
@[simp] theorem onCfg_cfgNext (f : Settings → Settings) : (s.onCfg f).cfgNext = s.cfgNext := rfl
@[simp] theorem onCfg_mb (f : Settings → Settings) : (s.onCfg f).mb = s.mb := rfl
@[simp] theorem onCfg_plan (f : Settings → Settings) : (s.onCfg f).plan = s.plan := rfl
@[simp] theorem onCfg_banks (f : Settings → Settings) : (s.onCfg f).banks = s.banks := rfl
@[simp] theorem onCfg_matrix (f : Settings → Settings) : (s.onCfg f).matrix = s.matrix := rfl
@[simp] theorem onCfg_store (f : Settings → Settings) : (s.onCfg f).store = s.store := rfl
@[simp] theorem onCfg_tier (f : Settings → Settings) : (s.onCfg f).tier = s.tier := rfl
@[simp] theorem onCfg_models (f : Settings → Settings) : (s.onCfg f).models = s.models := rfl
@[simp] theorem onCfg_gelcon (f : Settings → Settings) : (s.onCfg f).gelcon = s.gelcon := rfl
@[simp] theorem onCfg_host (f : Settings → Settings) : (s.onCfg f).host = s.host := rfl
@[simp] theorem onCfg_faults (f : Settings → Settings) : (s.onCfg f).faults = s.faults := rfl
@[simp] theorem onCfg_tel (f : Settings → Settings) : (s.onCfg f).tel = s.tel := rfl
@[simp] theorem onCfg_mem (f : Settings → Settings) : (s.onCfg f).mem = s.mem := rfl
@[simp] theorem onCfg_reply (f : Settings → Settings) : (s.onCfg f).reply = s.reply := rfl
@[simp] theorem onCfg_freeCtr (f : Settings → Settings) : (s.onCfg f).freeCtr = s.freeCtr := rfl
@[simp] theorem onCfg_pending (f : Settings → Settings) : (s.onCfg f).pending = s.pending := rfl
@[simp] theorem onCfgNext_variant (f : Settings → Settings) : (s.onCfgNext f).variant = s.variant := rfl
@[simp] theorem onCfgNext_start (f : Settings → Settings) : (s.onCfgNext f).start = s.start := rfl
@[simp] theorem onCfgNext_power (f : Settings → Settings) : (s.onCfgNext f).power = s.power := rfl
@[simp] theorem onCfgNext_tick (f : Settings → Settings) : (s.onCfgNext f).tick = s.tick := rfl
@[simp] theorem onCfgNext_req (f : Settings → Settings) : (s.onCfgNext f).req = s.req := rfl
@[simp] theorem onCfgNext_cfg (f : Settings → Settings) : (s.onCfgNext f).cfg = s.cfg := rfl
@[simp] theorem onCfgNext_cfgNext (f : Settings → Settings) : (s.onCfgNext f).cfgNext = f s.cfgNext := rfl
@[simp] theorem onCfgNext_mb (f : Settings → Settings) : (s.onCfgNext f).mb = s.mb := rfl
@[simp] theorem onCfgNext_plan (f : Settings → Settings) : (s.onCfgNext f).plan = s.plan := rfl
@[simp] theorem onCfgNext_banks (f : Settings → Settings) : (s.onCfgNext f).banks = s.banks := rfl
@[simp] theorem onCfgNext_matrix (f : Settings → Settings) : (s.onCfgNext f).matrix = s.matrix := rfl
@[simp] theorem onCfgNext_store (f : Settings → Settings) : (s.onCfgNext f).store = s.store := rfl
@[simp] theorem onCfgNext_tier (f : Settings → Settings) : (s.onCfgNext f).tier = s.tier := rfl
@[simp] theorem onCfgNext_models (f : Settings → Settings) : (s.onCfgNext f).models = s.models := rfl
@[simp] theorem onCfgNext_gelcon (f : Settings → Settings) : (s.onCfgNext f).gelcon = s.gelcon := rfl
@[simp] theorem onCfgNext_host (f : Settings → Settings) : (s.onCfgNext f).host = s.host := rfl
@[simp] theorem onCfgNext_faults (f : Settings → Settings) : (s.onCfgNext f).faults = s.faults := rfl
@[simp] theorem onCfgNext_tel (f : Settings → Settings) : (s.onCfgNext f).tel = s.tel := rfl
@[simp] theorem onCfgNext_mem (f : Settings → Settings) : (s.onCfgNext f).mem = s.mem := rfl
@[simp] theorem onCfgNext_reply (f : Settings → Settings) : (s.onCfgNext f).reply = s.reply := rfl
@[simp] theorem onCfgNext_freeCtr (f : Settings → Settings) : (s.onCfgNext f).freeCtr = s.freeCtr := rfl
@[simp] theorem onCfgNext_pending (f : Settings → Settings) : (s.onCfgNext f).pending = s.pending := rfl
@[simp] theorem onMb_variant (f : MbUnit → MbUnit) : (s.onMb f).variant = s.variant := rfl
@[simp] theorem onMb_start (f : MbUnit → MbUnit) : (s.onMb f).start = s.start := rfl
@[simp] theorem onMb_power (f : MbUnit → MbUnit) : (s.onMb f).power = s.power := rfl
@[simp] theorem onMb_tick (f : MbUnit → MbUnit) : (s.onMb f).tick = s.tick := rfl
@[simp] theorem onMb_req (f : MbUnit → MbUnit) : (s.onMb f).req = s.req := rfl
@[simp] theorem onMb_cfg (f : MbUnit → MbUnit) : (s.onMb f).cfg = s.cfg := rfl
@[simp] theorem onMb_cfgNext (f : MbUnit → MbUnit) : (s.onMb f).cfgNext = s.cfgNext := rfl
@[simp] theorem onMb_mb (f : MbUnit → MbUnit) : (s.onMb f).mb = f s.mb := rfl
@[simp] theorem onMb_plan (f : MbUnit → MbUnit) : (s.onMb f).plan = s.plan := rfl
@[simp] theorem onMb_banks (f : MbUnit → MbUnit) : (s.onMb f).banks = s.banks := rfl
@[simp] theorem onMb_matrix (f : MbUnit → MbUnit) : (s.onMb f).matrix = s.matrix := rfl
@[simp] theorem onMb_store (f : MbUnit → MbUnit) : (s.onMb f).store = s.store := rfl
@[simp] theorem onMb_tier (f : MbUnit → MbUnit) : (s.onMb f).tier = s.tier := rfl
@[simp] theorem onMb_models (f : MbUnit → MbUnit) : (s.onMb f).models = s.models := rfl
@[simp] theorem onMb_gelcon (f : MbUnit → MbUnit) : (s.onMb f).gelcon = s.gelcon := rfl
@[simp] theorem onMb_host (f : MbUnit → MbUnit) : (s.onMb f).host = s.host := rfl
@[simp] theorem onMb_faults (f : MbUnit → MbUnit) : (s.onMb f).faults = s.faults := rfl
@[simp] theorem onMb_tel (f : MbUnit → MbUnit) : (s.onMb f).tel = s.tel := rfl
@[simp] theorem onMb_mem (f : MbUnit → MbUnit) : (s.onMb f).mem = s.mem := rfl
@[simp] theorem onMb_reply (f : MbUnit → MbUnit) : (s.onMb f).reply = s.reply := rfl
@[simp] theorem onMb_freeCtr (f : MbUnit → MbUnit) : (s.onMb f).freeCtr = s.freeCtr := rfl
@[simp] theorem onMb_pending (f : MbUnit → MbUnit) : (s.onMb f).pending = s.pending := rfl
@[simp] theorem onPlan_variant (f : PlanUnit → PlanUnit) : (s.onPlan f).variant = s.variant := rfl
@[simp] theorem onPlan_start (f : PlanUnit → PlanUnit) : (s.onPlan f).start = s.start := rfl
@[simp] theorem onPlan_power (f : PlanUnit → PlanUnit) : (s.onPlan f).power = s.power := rfl
@[simp] theorem onPlan_tick (f : PlanUnit → PlanUnit) : (s.onPlan f).tick = s.tick := rfl
@[simp] theorem onPlan_req (f : PlanUnit → PlanUnit) : (s.onPlan f).req = s.req := rfl
@[simp] theorem onPlan_cfg (f : PlanUnit → PlanUnit) : (s.onPlan f).cfg = s.cfg := rfl
@[simp] theorem onPlan_cfgNext (f : PlanUnit → PlanUnit) : (s.onPlan f).cfgNext = s.cfgNext := rfl
@[simp] theorem onPlan_mb (f : PlanUnit → PlanUnit) : (s.onPlan f).mb = s.mb := rfl
@[simp] theorem onPlan_plan (f : PlanUnit → PlanUnit) : (s.onPlan f).plan = f s.plan := rfl
@[simp] theorem onPlan_banks (f : PlanUnit → PlanUnit) : (s.onPlan f).banks = s.banks := rfl
@[simp] theorem onPlan_matrix (f : PlanUnit → PlanUnit) : (s.onPlan f).matrix = s.matrix := rfl
@[simp] theorem onPlan_store (f : PlanUnit → PlanUnit) : (s.onPlan f).store = s.store := rfl
@[simp] theorem onPlan_tier (f : PlanUnit → PlanUnit) : (s.onPlan f).tier = s.tier := rfl
@[simp] theorem onPlan_models (f : PlanUnit → PlanUnit) : (s.onPlan f).models = s.models := rfl
@[simp] theorem onPlan_gelcon (f : PlanUnit → PlanUnit) : (s.onPlan f).gelcon = s.gelcon := rfl
@[simp] theorem onPlan_host (f : PlanUnit → PlanUnit) : (s.onPlan f).host = s.host := rfl
@[simp] theorem onPlan_faults (f : PlanUnit → PlanUnit) : (s.onPlan f).faults = s.faults := rfl
@[simp] theorem onPlan_tel (f : PlanUnit → PlanUnit) : (s.onPlan f).tel = s.tel := rfl
@[simp] theorem onPlan_mem (f : PlanUnit → PlanUnit) : (s.onPlan f).mem = s.mem := rfl
@[simp] theorem onPlan_reply (f : PlanUnit → PlanUnit) : (s.onPlan f).reply = s.reply := rfl
@[simp] theorem onPlan_freeCtr (f : PlanUnit → PlanUnit) : (s.onPlan f).freeCtr = s.freeCtr := rfl
@[simp] theorem onPlan_pending (f : PlanUnit → PlanUnit) : (s.onPlan f).pending = s.pending := rfl
@[simp] theorem onStore_variant (f : StoreUnit → StoreUnit) : (s.onStore f).variant = s.variant := rfl
@[simp] theorem onStore_start (f : StoreUnit → StoreUnit) : (s.onStore f).start = s.start := rfl
@[simp] theorem onStore_power (f : StoreUnit → StoreUnit) : (s.onStore f).power = s.power := rfl
@[simp] theorem onStore_tick (f : StoreUnit → StoreUnit) : (s.onStore f).tick = s.tick := rfl
@[simp] theorem onStore_req (f : StoreUnit → StoreUnit) : (s.onStore f).req = s.req := rfl
@[simp] theorem onStore_cfg (f : StoreUnit → StoreUnit) : (s.onStore f).cfg = s.cfg := rfl
@[simp] theorem onStore_cfgNext (f : StoreUnit → StoreUnit) : (s.onStore f).cfgNext = s.cfgNext := rfl
@[simp] theorem onStore_mb (f : StoreUnit → StoreUnit) : (s.onStore f).mb = s.mb := rfl
@[simp] theorem onStore_plan (f : StoreUnit → StoreUnit) : (s.onStore f).plan = s.plan := rfl
@[simp] theorem onStore_banks (f : StoreUnit → StoreUnit) : (s.onStore f).banks = s.banks := rfl
@[simp] theorem onStore_matrix (f : StoreUnit → StoreUnit) : (s.onStore f).matrix = s.matrix := rfl
@[simp] theorem onStore_store (f : StoreUnit → StoreUnit) : (s.onStore f).store = f s.store := rfl
@[simp] theorem onStore_tier (f : StoreUnit → StoreUnit) : (s.onStore f).tier = s.tier := rfl
@[simp] theorem onStore_models (f : StoreUnit → StoreUnit) : (s.onStore f).models = s.models := rfl
@[simp] theorem onStore_gelcon (f : StoreUnit → StoreUnit) : (s.onStore f).gelcon = s.gelcon := rfl
@[simp] theorem onStore_host (f : StoreUnit → StoreUnit) : (s.onStore f).host = s.host := rfl
@[simp] theorem onStore_faults (f : StoreUnit → StoreUnit) : (s.onStore f).faults = s.faults := rfl
@[simp] theorem onStore_tel (f : StoreUnit → StoreUnit) : (s.onStore f).tel = s.tel := rfl
@[simp] theorem onStore_mem (f : StoreUnit → StoreUnit) : (s.onStore f).mem = s.mem := rfl
@[simp] theorem onStore_reply (f : StoreUnit → StoreUnit) : (s.onStore f).reply = s.reply := rfl
@[simp] theorem onStore_freeCtr (f : StoreUnit → StoreUnit) : (s.onStore f).freeCtr = s.freeCtr := rfl
@[simp] theorem onStore_pending (f : StoreUnit → StoreUnit) : (s.onStore f).pending = s.pending := rfl
@[simp] theorem onTier_variant (f : TierUnit → TierUnit) : (s.onTier f).variant = s.variant := rfl
@[simp] theorem onTier_start (f : TierUnit → TierUnit) : (s.onTier f).start = s.start := rfl
@[simp] theorem onTier_power (f : TierUnit → TierUnit) : (s.onTier f).power = s.power := rfl
@[simp] theorem onTier_tick (f : TierUnit → TierUnit) : (s.onTier f).tick = s.tick := rfl
@[simp] theorem onTier_req (f : TierUnit → TierUnit) : (s.onTier f).req = s.req := rfl
@[simp] theorem onTier_cfg (f : TierUnit → TierUnit) : (s.onTier f).cfg = s.cfg := rfl
@[simp] theorem onTier_cfgNext (f : TierUnit → TierUnit) : (s.onTier f).cfgNext = s.cfgNext := rfl
@[simp] theorem onTier_mb (f : TierUnit → TierUnit) : (s.onTier f).mb = s.mb := rfl
@[simp] theorem onTier_plan (f : TierUnit → TierUnit) : (s.onTier f).plan = s.plan := rfl
@[simp] theorem onTier_banks (f : TierUnit → TierUnit) : (s.onTier f).banks = s.banks := rfl
@[simp] theorem onTier_matrix (f : TierUnit → TierUnit) : (s.onTier f).matrix = s.matrix := rfl
@[simp] theorem onTier_store (f : TierUnit → TierUnit) : (s.onTier f).store = s.store := rfl
@[simp] theorem onTier_tier (f : TierUnit → TierUnit) : (s.onTier f).tier = f s.tier := rfl
@[simp] theorem onTier_models (f : TierUnit → TierUnit) : (s.onTier f).models = s.models := rfl
@[simp] theorem onTier_gelcon (f : TierUnit → TierUnit) : (s.onTier f).gelcon = s.gelcon := rfl
@[simp] theorem onTier_host (f : TierUnit → TierUnit) : (s.onTier f).host = s.host := rfl
@[simp] theorem onTier_faults (f : TierUnit → TierUnit) : (s.onTier f).faults = s.faults := rfl
@[simp] theorem onTier_tel (f : TierUnit → TierUnit) : (s.onTier f).tel = s.tel := rfl
@[simp] theorem onTier_mem (f : TierUnit → TierUnit) : (s.onTier f).mem = s.mem := rfl
@[simp] theorem onTier_reply (f : TierUnit → TierUnit) : (s.onTier f).reply = s.reply := rfl
@[simp] theorem onTier_freeCtr (f : TierUnit → TierUnit) : (s.onTier f).freeCtr = s.freeCtr := rfl
@[simp] theorem onTier_pending (f : TierUnit → TierUnit) : (s.onTier f).pending = s.pending := rfl
@[simp] theorem onModels_variant (f : ModelUnit → ModelUnit) : (s.onModels f).variant = s.variant := rfl
@[simp] theorem onModels_start (f : ModelUnit → ModelUnit) : (s.onModels f).start = s.start := rfl
@[simp] theorem onModels_power (f : ModelUnit → ModelUnit) : (s.onModels f).power = s.power := rfl
@[simp] theorem onModels_tick (f : ModelUnit → ModelUnit) : (s.onModels f).tick = s.tick := rfl
@[simp] theorem onModels_req (f : ModelUnit → ModelUnit) : (s.onModels f).req = s.req := rfl
@[simp] theorem onModels_cfg (f : ModelUnit → ModelUnit) : (s.onModels f).cfg = s.cfg := rfl
@[simp] theorem onModels_cfgNext (f : ModelUnit → ModelUnit) : (s.onModels f).cfgNext = s.cfgNext := rfl
@[simp] theorem onModels_mb (f : ModelUnit → ModelUnit) : (s.onModels f).mb = s.mb := rfl
@[simp] theorem onModels_plan (f : ModelUnit → ModelUnit) : (s.onModels f).plan = s.plan := rfl
@[simp] theorem onModels_banks (f : ModelUnit → ModelUnit) : (s.onModels f).banks = s.banks := rfl
@[simp] theorem onModels_matrix (f : ModelUnit → ModelUnit) : (s.onModels f).matrix = s.matrix := rfl
@[simp] theorem onModels_store (f : ModelUnit → ModelUnit) : (s.onModels f).store = s.store := rfl
@[simp] theorem onModels_tier (f : ModelUnit → ModelUnit) : (s.onModels f).tier = s.tier := rfl
@[simp] theorem onModels_models (f : ModelUnit → ModelUnit) : (s.onModels f).models = f s.models := rfl
@[simp] theorem onModels_gelcon (f : ModelUnit → ModelUnit) : (s.onModels f).gelcon = s.gelcon := rfl
@[simp] theorem onModels_host (f : ModelUnit → ModelUnit) : (s.onModels f).host = s.host := rfl
@[simp] theorem onModels_faults (f : ModelUnit → ModelUnit) : (s.onModels f).faults = s.faults := rfl
@[simp] theorem onModels_tel (f : ModelUnit → ModelUnit) : (s.onModels f).tel = s.tel := rfl
@[simp] theorem onModels_mem (f : ModelUnit → ModelUnit) : (s.onModels f).mem = s.mem := rfl
@[simp] theorem onModels_reply (f : ModelUnit → ModelUnit) : (s.onModels f).reply = s.reply := rfl
@[simp] theorem onModels_freeCtr (f : ModelUnit → ModelUnit) : (s.onModels f).freeCtr = s.freeCtr := rfl
@[simp] theorem onModels_pending (f : ModelUnit → ModelUnit) : (s.onModels f).pending = s.pending := rfl
@[simp] theorem onGelcon_variant (f : GelconUnit → GelconUnit) : (s.onGelcon f).variant = s.variant := rfl
@[simp] theorem onGelcon_start (f : GelconUnit → GelconUnit) : (s.onGelcon f).start = s.start := rfl
@[simp] theorem onGelcon_power (f : GelconUnit → GelconUnit) : (s.onGelcon f).power = s.power := rfl
@[simp] theorem onGelcon_tick (f : GelconUnit → GelconUnit) : (s.onGelcon f).tick = s.tick := rfl
@[simp] theorem onGelcon_req (f : GelconUnit → GelconUnit) : (s.onGelcon f).req = s.req := rfl
@[simp] theorem onGelcon_cfg (f : GelconUnit → GelconUnit) : (s.onGelcon f).cfg = s.cfg := rfl
@[simp] theorem onGelcon_cfgNext (f : GelconUnit → GelconUnit) : (s.onGelcon f).cfgNext = s.cfgNext := rfl
@[simp] theorem onGelcon_mb (f : GelconUnit → GelconUnit) : (s.onGelcon f).mb = s.mb := rfl
@[simp] theorem onGelcon_plan (f : GelconUnit → GelconUnit) : (s.onGelcon f).plan = s.plan := rfl
@[simp] theorem onGelcon_banks (f : GelconUnit → GelconUnit) : (s.onGelcon f).banks = s.banks := rfl
@[simp] theorem onGelcon_matrix (f : GelconUnit → GelconUnit) : (s.onGelcon f).matrix = s.matrix := rfl
@[simp] theorem onGelcon_store (f : GelconUnit → GelconUnit) : (s.onGelcon f).store = s.store := rfl
@[simp] theorem onGelcon_tier (f : GelconUnit → GelconUnit) : (s.onGelcon f).tier = s.tier := rfl
@[simp] theorem onGelcon_models (f : GelconUnit → GelconUnit) : (s.onGelcon f).models = s.models := rfl
@[simp] theorem onGelcon_gelcon (f : GelconUnit → GelconUnit) : (s.onGelcon f).gelcon = f s.gelcon := rfl
@[simp] theorem onGelcon_host (f : GelconUnit → GelconUnit) : (s.onGelcon f).host = s.host := rfl
@[simp] theorem onGelcon_faults (f : GelconUnit → GelconUnit) : (s.onGelcon f).faults = s.faults := rfl
@[simp] theorem onGelcon_tel (f : GelconUnit → GelconUnit) : (s.onGelcon f).tel = s.tel := rfl
@[simp] theorem onGelcon_mem (f : GelconUnit → GelconUnit) : (s.onGelcon f).mem = s.mem := rfl
@[simp] theorem onGelcon_reply (f : GelconUnit → GelconUnit) : (s.onGelcon f).reply = s.reply := rfl
@[simp] theorem onGelcon_freeCtr (f : GelconUnit → GelconUnit) : (s.onGelcon f).freeCtr = s.freeCtr := rfl
@[simp] theorem onGelcon_pending (f : GelconUnit → GelconUnit) : (s.onGelcon f).pending = s.pending := rfl
@[simp] theorem onHost_variant (f : HostUnit → HostUnit) : (s.onHost f).variant = s.variant := rfl
@[simp] theorem onHost_start (f : HostUnit → HostUnit) : (s.onHost f).start = s.start := rfl
@[simp] theorem onHost_power (f : HostUnit → HostUnit) : (s.onHost f).power = s.power := rfl
@[simp] theorem onHost_tick (f : HostUnit → HostUnit) : (s.onHost f).tick = s.tick := rfl
@[simp] theorem onHost_req (f : HostUnit → HostUnit) : (s.onHost f).req = s.req := rfl
@[simp] theorem onHost_cfg (f : HostUnit → HostUnit) : (s.onHost f).cfg = s.cfg := rfl
@[simp] theorem onHost_cfgNext (f : HostUnit → HostUnit) : (s.onHost f).cfgNext = s.cfgNext := rfl
@[simp] theorem onHost_mb (f : HostUnit → HostUnit) : (s.onHost f).mb = s.mb := rfl
@[simp] theorem onHost_plan (f : HostUnit → HostUnit) : (s.onHost f).plan = s.plan := rfl
@[simp] theorem onHost_banks (f : HostUnit → HostUnit) : (s.onHost f).banks = s.banks := rfl
@[simp] theorem onHost_matrix (f : HostUnit → HostUnit) : (s.onHost f).matrix = s.matrix := rfl
@[simp] theorem onHost_store (f : HostUnit → HostUnit) : (s.onHost f).store = s.store := rfl
@[simp] theorem onHost_tier (f : HostUnit → HostUnit) : (s.onHost f).tier = s.tier := rfl
@[simp] theorem onHost_models (f : HostUnit → HostUnit) : (s.onHost f).models = s.models := rfl
@[simp] theorem onHost_gelcon (f : HostUnit → HostUnit) : (s.onHost f).gelcon = s.gelcon := rfl
@[simp] theorem onHost_host (f : HostUnit → HostUnit) : (s.onHost f).host = f s.host := rfl
@[simp] theorem onHost_faults (f : HostUnit → HostUnit) : (s.onHost f).faults = s.faults := rfl
@[simp] theorem onHost_tel (f : HostUnit → HostUnit) : (s.onHost f).tel = s.tel := rfl
@[simp] theorem onHost_mem (f : HostUnit → HostUnit) : (s.onHost f).mem = s.mem := rfl
@[simp] theorem onHost_reply (f : HostUnit → HostUnit) : (s.onHost f).reply = s.reply := rfl
@[simp] theorem onHost_freeCtr (f : HostUnit → HostUnit) : (s.onHost f).freeCtr = s.freeCtr := rfl
@[simp] theorem onHost_pending (f : HostUnit → HostUnit) : (s.onHost f).pending = s.pending := rfl
@[simp] theorem onFaults_variant (f : FaultUnit → FaultUnit) : (s.onFaults f).variant = s.variant := rfl
@[simp] theorem onFaults_start (f : FaultUnit → FaultUnit) : (s.onFaults f).start = s.start := rfl
@[simp] theorem onFaults_power (f : FaultUnit → FaultUnit) : (s.onFaults f).power = s.power := rfl
@[simp] theorem onFaults_tick (f : FaultUnit → FaultUnit) : (s.onFaults f).tick = s.tick := rfl
@[simp] theorem onFaults_req (f : FaultUnit → FaultUnit) : (s.onFaults f).req = s.req := rfl
@[simp] theorem onFaults_cfg (f : FaultUnit → FaultUnit) : (s.onFaults f).cfg = s.cfg := rfl
@[simp] theorem onFaults_cfgNext (f : FaultUnit → FaultUnit) : (s.onFaults f).cfgNext = s.cfgNext := rfl
@[simp] theorem onFaults_mb (f : FaultUnit → FaultUnit) : (s.onFaults f).mb = s.mb := rfl
@[simp] theorem onFaults_plan (f : FaultUnit → FaultUnit) : (s.onFaults f).plan = s.plan := rfl
@[simp] theorem onFaults_banks (f : FaultUnit → FaultUnit) : (s.onFaults f).banks = s.banks := rfl
@[simp] theorem onFaults_matrix (f : FaultUnit → FaultUnit) : (s.onFaults f).matrix = s.matrix := rfl
@[simp] theorem onFaults_store (f : FaultUnit → FaultUnit) : (s.onFaults f).store = s.store := rfl
@[simp] theorem onFaults_tier (f : FaultUnit → FaultUnit) : (s.onFaults f).tier = s.tier := rfl
@[simp] theorem onFaults_models (f : FaultUnit → FaultUnit) : (s.onFaults f).models = s.models := rfl
@[simp] theorem onFaults_gelcon (f : FaultUnit → FaultUnit) : (s.onFaults f).gelcon = s.gelcon := rfl
@[simp] theorem onFaults_host (f : FaultUnit → FaultUnit) : (s.onFaults f).host = s.host := rfl
@[simp] theorem onFaults_faults (f : FaultUnit → FaultUnit) : (s.onFaults f).faults = f s.faults := rfl
@[simp] theorem onFaults_tel (f : FaultUnit → FaultUnit) : (s.onFaults f).tel = s.tel := rfl
@[simp] theorem onFaults_mem (f : FaultUnit → FaultUnit) : (s.onFaults f).mem = s.mem := rfl
@[simp] theorem onFaults_reply (f : FaultUnit → FaultUnit) : (s.onFaults f).reply = s.reply := rfl
@[simp] theorem onFaults_freeCtr (f : FaultUnit → FaultUnit) : (s.onFaults f).freeCtr = s.freeCtr := rfl
@[simp] theorem onFaults_pending (f : FaultUnit → FaultUnit) : (s.onFaults f).pending = s.pending := rfl
@[simp] theorem onTel_variant (f : TelUnit → TelUnit) : (s.onTel f).variant = s.variant := rfl
@[simp] theorem onTel_start (f : TelUnit → TelUnit) : (s.onTel f).start = s.start := rfl
@[simp] theorem onTel_power (f : TelUnit → TelUnit) : (s.onTel f).power = s.power := rfl
@[simp] theorem onTel_tick (f : TelUnit → TelUnit) : (s.onTel f).tick = s.tick := rfl
@[simp] theorem onTel_req (f : TelUnit → TelUnit) : (s.onTel f).req = s.req := rfl
@[simp] theorem onTel_cfg (f : TelUnit → TelUnit) : (s.onTel f).cfg = s.cfg := rfl
@[simp] theorem onTel_cfgNext (f : TelUnit → TelUnit) : (s.onTel f).cfgNext = s.cfgNext := rfl
@[simp] theorem onTel_mb (f : TelUnit → TelUnit) : (s.onTel f).mb = s.mb := rfl
@[simp] theorem onTel_plan (f : TelUnit → TelUnit) : (s.onTel f).plan = s.plan := rfl
@[simp] theorem onTel_banks (f : TelUnit → TelUnit) : (s.onTel f).banks = s.banks := rfl
@[simp] theorem onTel_matrix (f : TelUnit → TelUnit) : (s.onTel f).matrix = s.matrix := rfl
@[simp] theorem onTel_store (f : TelUnit → TelUnit) : (s.onTel f).store = s.store := rfl
@[simp] theorem onTel_tier (f : TelUnit → TelUnit) : (s.onTel f).tier = s.tier := rfl
@[simp] theorem onTel_models (f : TelUnit → TelUnit) : (s.onTel f).models = s.models := rfl
@[simp] theorem onTel_gelcon (f : TelUnit → TelUnit) : (s.onTel f).gelcon = s.gelcon := rfl
@[simp] theorem onTel_host (f : TelUnit → TelUnit) : (s.onTel f).host = s.host := rfl
@[simp] theorem onTel_faults (f : TelUnit → TelUnit) : (s.onTel f).faults = s.faults := rfl
@[simp] theorem onTel_tel (f : TelUnit → TelUnit) : (s.onTel f).tel = f s.tel := rfl
@[simp] theorem onTel_mem (f : TelUnit → TelUnit) : (s.onTel f).mem = s.mem := rfl
@[simp] theorem onTel_reply (f : TelUnit → TelUnit) : (s.onTel f).reply = s.reply := rfl
@[simp] theorem onTel_freeCtr (f : TelUnit → TelUnit) : (s.onTel f).freeCtr = s.freeCtr := rfl
@[simp] theorem onTel_pending (f : TelUnit → TelUnit) : (s.onTel f).pending = s.pending := rfl

end Sys2Proof.Laws
end

