-- ==== Sys2Proof/Laws/Keeps.lean ====
section
/-! SUPPORT. What every operation keeps: the variant, the queue of waiting commands, the count of drawn free values (which only
rises) and the invariant. Each operation gets one lemma: from a state that s0 came to so far, it leads to another such. -/

namespace Sys2Proof.Laws

open Sys2Proof Sys2Proof.Machine

/-- What holds between the state a command starts in and every state it passes through. -/
structure Keeps (s0 s : State) : Prop where
  variant : s.variant = s0.variant
  pending : s.pending = s0.pending
  freeCtr : s0.freeCtr ≤ s.freeCtr
  inv : Inv s0 → Inv s

theorem Keeps.refl (s : State) : Keeps s s := ⟨rfl, rfl, Nat.le_refl _, id⟩

theorem Keeps.trans {a b c : State} (h : Keeps a b) (k : Keeps b c) : Keeps a c :=
  ⟨k.variant.trans h.variant, k.pending.trans h.pending, Nat.le_trans h.freeCtr k.freeCtr, fun i => k.inv (h.inv i)⟩

variable {s0 s : State}

/-- A change of fields the invariant does not speak of. -/
theorem Keeps.of_eq {t : State} (h : Keeps s0 s) (h1 : t.variant = s.variant) (h2 : t.pending = s.pending) (h3 : s.freeCtr ≤ t.freeCtr)
    (h4 : t.mem = s.mem) (h5 : t.mb.bytes = s.mb.bytes) (h6 : t.mb.events = s.mb.events) (h7 : t.host.misuseLog = s.host.misuseLog) :
    Keeps s0 t := by
  refine h.trans ⟨h1, h2, h3, ?_⟩
  rintro ⟨⟨a, b⟩, c, d⟩
  exact ⟨⟨h4 ▸ a, h5 ▸ b⟩, h6 ▸ c, h7 ▸ d⟩

theorem onStart_k (f : StartUnit → StartUnit) (h : Keeps s0 s) : Keeps s0 (s.onStart f) := h.of_eq rfl rfl (Nat.le_refl _) rfl rfl rfl rfl
theorem onPower_k (f : PowerUnit → PowerUnit) (h : Keeps s0 s) : Keeps s0 (s.onPower f) := h.of_eq rfl rfl (Nat.le_refl _) rfl rfl rfl rfl
theorem onTick_k (f : TickUnit → TickUnit) (h : Keeps s0 s) : Keeps s0 (s.onTick f) := h.of_eq rfl rfl (Nat.le_refl _) rfl rfl rfl rfl
theorem onReq_k (f : ReqUnit → ReqUnit) (h : Keeps s0 s) : Keeps s0 (s.onReq f) := h.of_eq rfl rfl (Nat.le_refl _) rfl rfl rfl rfl
theorem onCfg_k (f : Settings → Settings) (h : Keeps s0 s) : Keeps s0 (s.onCfg f) := h.of_eq rfl rfl (Nat.le_refl _) rfl rfl rfl rfl
theorem onCfgNext_k (f : Settings → Settings) (h : Keeps s0 s) : Keeps s0 (s.onCfgNext f) := h.of_eq rfl rfl (Nat.le_refl _) rfl rfl rfl rfl
theorem onPlan_k (f : PlanUnit → PlanUnit) (h : Keeps s0 s) : Keeps s0 (s.onPlan f) := h.of_eq rfl rfl (Nat.le_refl _) rfl rfl rfl rfl
theorem onStore_k (f : StoreUnit → StoreUnit) (h : Keeps s0 s) : Keeps s0 (s.onStore f) := h.of_eq rfl rfl (Nat.le_refl _) rfl rfl rfl rfl
theorem onTier_k (f : TierUnit → TierUnit) (h : Keeps s0 s) : Keeps s0 (s.onTier f) := h.of_eq rfl rfl (Nat.le_refl _) rfl rfl rfl rfl
theorem onModels_k (f : ModelUnit → ModelUnit) (h : Keeps s0 s) : Keeps s0 (s.onModels f) := h.of_eq rfl rfl (Nat.le_refl _) rfl rfl rfl rfl
theorem onGelcon_k (f : GelconUnit → GelconUnit) (h : Keeps s0 s) : Keeps s0 (s.onGelcon f) := h.of_eq rfl rfl (Nat.le_refl _) rfl rfl rfl rfl
theorem onFaults_k (f : FaultUnit → FaultUnit) (h : Keeps s0 s) : Keeps s0 (s.onFaults f) := h.of_eq rfl rfl (Nat.le_refl _) rfl rfl rfl rfl
theorem onTel_k (f : TelUnit → TelUnit) (h : Keeps s0 s) : Keeps s0 (s.onTel f) := h.of_eq rfl rfl (Nat.le_refl _) rfl rfl rfl rfl

/-- A change of the mailbox unit that leaves the slots' bytes and the event queue. -/
theorem onMb_k (f : MbUnit → MbUnit) (hb : (f s.mb).bytes = s.mb.bytes) (he : (f s.mb).events = s.mb.events) (h : Keeps s0 s) :
    Keeps s0 (s.onMb f) := h.of_eq rfl rfl (Nat.le_refl _) rfl hb he rfl

/-- A change of the host ports that leaves the misuse log. -/
theorem onHost_k (f : HostUnit → HostUnit) (hl : (f s.host).misuseLog = s.host.misuseLog) (h : Keeps s0 s) :
    Keeps s0 (s.onHost f) := h.of_eq rfl rfl (Nat.le_refl _) rfl rfl rfl hl

/-- A change of the device memory that keeps its canonical form. -/
theorem onMem_k (f : Memory → Memory) (hf : ∀ m, m.wf = true → (f m).wf = true) (h : Keeps s0 s) : Keeps s0 (s.onMem f) := by
  refine h.trans ⟨rfl, rfl, Nat.le_refl _, ?_⟩
  rintro ⟨⟨a, b⟩, c⟩
  exact ⟨⟨hf _ a, b⟩, c⟩

theorem onBanks_k (f : List (Nat × BankCluster) → List (Nat × BankCluster)) (h : Keeps s0 s) : Keeps s0 (s.onBanks f) :=
  h.of_eq rfl rfl (Nat.le_refl _) rfl rfl rfl rfl
theorem onMatrix_k (f : List (Nat × MatrixCluster) → List (Nat × MatrixCluster)) (h : Keeps s0 s) : Keeps s0 (s.onMatrix f) :=
  h.of_eq rfl rfl (Nat.le_refl _) rfl rfl rfl rfl
theorem answerWith_k (bs : List Byte) (h : Keeps s0 s) : Keeps s0 (s.answerWith bs) :=
  h.of_eq rfl rfl (Nat.le_refl _) rfl rfl rfl rfl
theorem draw_k (h : Keeps s0 s) : Keeps s0 s.draw := h.of_eq rfl rfl (Nat.le_succ _) rfl rfl rfl rfl

theorem keeps_ite {c : Prop} [Decidable c] {a b : State} (ha : c → Keeps s0 a) (hb : ¬c → Keeps s0 b) :
    Keeps s0 (if c then a else b) := by
  split
  · exact ha ‹_›
  · exact hb ‹_›

theorem keeps_foldl {α : Type} {f : State → α → State} {l : List α} (hf : ∀ s x, Keeps s0 s → Keeps s0 (f s x)) (h : Keeps s0 s) :
    Keeps s0 (l.foldl f s) := by
  induction l generalizing s with
  | nil => exact h
  | cons x r ih => exact ih (hf s x h)

theorem keeps_foldl_fst {α β : Type} {f : State × β → α → State × β} {l : List α} {p : State × β}
    (hf : ∀ p x, Keeps s0 p.1 → Keeps s0 (f p x).1) (h : Keeps s0 p.1) : Keeps s0 (l.foldl f p).1 := by
  induction l generalizing p with
  | nil => exact h
  | cons x r ih => exact ih (hf p x h)

/-! ## Results that are not a state -/

/-- What a body that may fail a check keeps, where it does not. -/
def KeepsE {α : Type} (g : α → State) (s0 : State) (e : Except Nat α) : Prop := ∀ a, e = .ok a → Keeps s0 (g a)

/-- What an outcome keeps, where it is a next state. -/
def KeepsO (s0 : State) (o : Host.Outcome State Fault Refusal) : Prop := ∀ t, o = .next t → Keeps s0 t

theorem keepsO_next {t : State} (h : Keeps s0 t) : KeepsO s0 (.next t) := by
  rintro u ⟨⟩
  exact h

theorem keepsE_ok {α : Type} {g : α → State} {a : α} (h : Keeps s0 (g a)) : KeepsE g s0 (.ok a) := by
  rintro u ⟨⟩
  exact h

theorem keepsE_okS {t : State} (h : Keeps s0 t) : KeepsE id s0 (.ok t) := by
  rintro u ⟨⟩
  exact h

theorem keepsE_error {α : Type} {g : α → State} {e : Nat} : KeepsE g s0 (.error e) := by
  rintro u ⟨⟩

theorem keepsE_need {α : Type} {g : α → State} {b : Bool} {e : Nat} {k : Unit → Except Nat α} (h : b = true → KeepsE g s0 (k ())) :
    KeepsE g s0 (need b e >>= k) := by
  intro a ha
  unfold need at ha
  split at ha
  · exact h ‹_› a ha
  · exact absurd ha (by simp [bind, Except.bind])

theorem keepsE_bind {α β : Type} {g : α → State} {f : β → State} {e : Except Nat β} {k : β → Except Nat α} (he : KeepsE f s0 e)
    (hk : ∀ b, Keeps s0 (f b) → KeepsE g s0 (k b)) : KeepsE g s0 (e >>= k) := by
  intro a ha
  cases e with
  | error x => exact absurd ha (by simp [bind, Except.bind])
  | ok b => exact hk b (he b rfl) a ha

theorem keepsE_bindS {α : Type} {g : α → State} {e : Except Nat State} {k : State → Except Nat α} (he : KeepsE id s0 e)
    (hk : ∀ b, Keeps s0 b → KeepsE g s0 (k b)) : KeepsE g s0 (e >>= k) := keepsE_bind he hk

end Sys2Proof.Laws
end

