-- ==== Sys2Proof/Laws/Grid.lean ====
section
/-! SUPPORT. What the work of a commit window and of an edge leaves alone: the tick grid, and the configuration in force. Each
operation gets one lemma: from a state that s0 came to so far, it leads to another such. -/

namespace Sys2Proof.Laws

open Sys2Proof Sys2Proof.Machine

/-- The tick in progress, its grid, and the configuration, as they were. -/
structure Grid (s0 s : State) : Prop where
  running : s.tick.running = s0.tick.running
  index : s.tick.index = s0.tick.index
  edge : s.tick.edge = s0.tick.edge
  tickUs : s.tick.tickUs = s0.tick.tickUs
  commitUs : s.tick.commitUs = s0.tick.commitUs
  openAt : s.tick.commitOpenAt = s0.tick.commitOpenAt
  inCommit : s.tick.inCommit = s0.tick.inCommit
  frozen : s.tick.frozenCfg = s0.tick.frozenCfg
  cfg : s.cfg = s0.cfg
  cfgNext : s.cfgNext = s0.cfgNext
  warm : s.start.warmPending = s0.start.warmPending

theorem Grid.refl (s : State) : Grid s s := ⟨rfl, rfl, rfl, rfl, rfl, rfl, rfl, rfl, rfl, rfl, rfl⟩

theorem Grid.trans {a b c : State} (h : Grid a b) (k : Grid b c) : Grid a c :=
  ⟨k.running.trans h.running, k.index.trans h.index, k.edge.trans h.edge, k.tickUs.trans h.tickUs, k.commitUs.trans h.commitUs,
   k.openAt.trans h.openAt, k.inCommit.trans h.inCommit, k.frozen.trans h.frozen, k.cfg.trans h.cfg, k.cfgNext.trans h.cfgNext, k.warm.trans h.warm⟩

variable {s0 s : State}

/-- A change of other parts of the state. -/
theorem Grid.of_eq {t : State} (h : Grid s0 s) (h1 : t.tick = s.tick) (h2 : t.cfg = s.cfg) (h3 : t.cfgNext = s.cfgNext) (h4 : t.start = s.start) :
    Grid s0 t :=
  h.trans ⟨by rw [h1], by rw [h1], by rw [h1], by rw [h1], by rw [h1], by rw [h1], by rw [h1], by rw [h1], h2, h3, by rw [h4]⟩

theorem onTick_g (f : TickUnit → TickUnit) (h1 : (f s.tick).running = s.tick.running) (h2 : (f s.tick).index = s.tick.index)
    (h3 : (f s.tick).edge = s.tick.edge) (h4 : (f s.tick).tickUs = s.tick.tickUs) (h5 : (f s.tick).commitUs = s.tick.commitUs)
    (h6 : (f s.tick).commitOpenAt = s.tick.commitOpenAt) (h7 : (f s.tick).inCommit = s.tick.inCommit)
    (h8 : (f s.tick).frozenCfg = s.tick.frozenCfg) (h : Grid s0 s) : Grid s0 (s.onTick f) :=
  h.trans ⟨h1, h2, h3, h4, h5, h6, h7, h8, rfl, rfl, rfl⟩

theorem onStart_g (f : StartUnit → StartUnit) (h1 : (f s.start).warmPending = s.start.warmPending) (h : Grid s0 s) : Grid s0 (s.onStart f) :=
  h.trans ⟨rfl, rfl, rfl, rfl, rfl, rfl, rfl, rfl, rfl, rfl, h1⟩

theorem onPower_g (f : PowerUnit → PowerUnit) (h : Grid s0 s) : Grid s0 (s.onPower f) := h.of_eq rfl rfl rfl rfl
theorem onReq_g (f : ReqUnit → ReqUnit) (h : Grid s0 s) : Grid s0 (s.onReq f) := h.of_eq rfl rfl rfl rfl
theorem onMb_g (f : MbUnit → MbUnit) (h : Grid s0 s) : Grid s0 (s.onMb f) := h.of_eq rfl rfl rfl rfl
theorem onPlan_g (f : PlanUnit → PlanUnit) (h : Grid s0 s) : Grid s0 (s.onPlan f) := h.of_eq rfl rfl rfl rfl
theorem onStore_g (f : StoreUnit → StoreUnit) (h : Grid s0 s) : Grid s0 (s.onStore f) := h.of_eq rfl rfl rfl rfl
theorem onTier_g (f : TierUnit → TierUnit) (h : Grid s0 s) : Grid s0 (s.onTier f) := h.of_eq rfl rfl rfl rfl
theorem onModels_g (f : ModelUnit → ModelUnit) (h : Grid s0 s) : Grid s0 (s.onModels f) := h.of_eq rfl rfl rfl rfl
theorem onGelcon_g (f : GelconUnit → GelconUnit) (h : Grid s0 s) : Grid s0 (s.onGelcon f) := h.of_eq rfl rfl rfl rfl
theorem onHost_g (f : HostUnit → HostUnit) (h : Grid s0 s) : Grid s0 (s.onHost f) := h.of_eq rfl rfl rfl rfl
theorem onFaults_g (f : FaultUnit → FaultUnit) (h : Grid s0 s) : Grid s0 (s.onFaults f) := h.of_eq rfl rfl rfl rfl
theorem onTel_g (f : TelUnit → TelUnit) (h : Grid s0 s) : Grid s0 (s.onTel f) := h.of_eq rfl rfl rfl rfl
theorem onMem_g (f : Memory → Memory) (h : Grid s0 s) : Grid s0 (s.onMem f) := h.of_eq rfl rfl rfl rfl
theorem onBanks_g (f : List (Nat × BankCluster) → List (Nat × BankCluster)) (h : Grid s0 s) : Grid s0 (s.onBanks f) := h.of_eq rfl rfl rfl rfl
theorem onMatrix_g (f : List (Nat × MatrixCluster) → List (Nat × MatrixCluster)) (h : Grid s0 s) : Grid s0 (s.onMatrix f) := h.of_eq rfl rfl rfl rfl
theorem answerWith_g (bs : List Byte) (h : Grid s0 s) : Grid s0 (s.answerWith bs) := h.of_eq rfl rfl rfl rfl
theorem draw_g (h : Grid s0 s) : Grid s0 s.draw := h.of_eq rfl rfl rfl rfl

theorem grid_foldl {α : Type} {f : State → α → State} {l : List α} (hf : ∀ s x, Grid s0 s → Grid s0 (f s x)) (h : Grid s0 s) :
    Grid s0 (l.foldl f s) := by
  induction l generalizing s with
  | nil => exact h
  | cons x r ih => exact ih (hf s x h)

theorem grid_foldl_fst {α β : Type} {f : State × β → α → State × β} {l : List α} {p : State × β}
    (hf : ∀ p x, Grid s0 p.1 → Grid s0 (f p x).1) (h : Grid s0 p.1) : Grid s0 (l.foldl f p).1 := by
  induction l generalizing p with
  | nil => exact h
  | cons x r ih => exact ih (hf p x h)

end Sys2Proof.Laws
end

