-- ==== Sys2Proof/Laws/GridOps.lean ====
section
/-! SUPPORT. What the operations of Machine/Ops.lean leave alone (Laws/Grid.lean). -/

set_option linter.unusedTactic false
set_option linter.unreachableTactic false
set_option linter.unusedVariables false

namespace Sys2Proof.Laws

open Sys2Proof Sys2Proof.Machine

theorem putBytes_g {s0 : State} (s : State) (a : Nat) (bs : List Byte) (hK : Grid s0 s) : Grid s0 (State.putBytes s a bs) := by
  unfold State.putBytes
  repeat' first
    | with_reducible assumption
    | with_reducible apply onMem_g
    | with_reducible rfl
    | split
    | with_reducible intro _
    | dsimp only

theorem modHport_g {s0 : State} (s : State) (p : Nat) (f : HostPort → HostPort) (hK : Grid s0 s) : Grid s0 (State.modHport s p f) := by
  unfold State.modHport
  repeat' first
    | with_reducible assumption
    | with_reducible apply onHost_g
    | with_reducible rfl
    | split
    | with_reducible intro _
    | dsimp only

theorem sendVector_g {s0 : State} (s : State) (v p : Nat) (hK : Grid s0 s) : Grid s0 (State.sendVector s v p) := by
  unfold State.sendVector
  repeat' first
    | with_reducible assumption
    | with_reducible apply onHost_g
    | with_reducible rfl
    | split
    | with_reducible intro _
    | dsimp only

theorem raiseVector_g {s0 : State} (s : State) (v p : Nat) (hK : Grid s0 s) : Grid s0 (State.raiseVector s v p) := by
  unfold State.raiseVector
  repeat' first
    | with_reducible assumption
    | with_reducible apply onHost_g
    | with_reducible apply sendVector_g
    | with_reducible rfl
    | split
    | with_reducible intro _
    | dsimp only

theorem raiseLow_g {s0 : State} (s : State) (v : Nat) (hK : Grid s0 s) : Grid s0 (State.raiseLow s v) := by
  unfold State.raiseLow
  repeat' first
    | with_reducible assumption
    | with_reducible apply raiseVector_g
    | with_reducible rfl
    | split
    | with_reducible intro _
    | dsimp only

theorem flushVectors_g {s0 : State} (s : State) (hK : Grid s0 s) : Grid s0 (State.flushVectors s) := by
  unfold State.flushVectors
  repeat' first
    | with_reducible assumption
    | with_reducible apply grid_foldl
    | with_reducible apply grid_foldl_fst
    | with_reducible apply sendVector_g
    | with_reducible apply onHost_g
    | with_reducible rfl
    | split
    | with_reducible intro _
    | dsimp only

theorem postEvent_g {s0 : State} (s : State) (code arg16 arg32 : Nat) (hK : Grid s0 s) : Grid s0 (State.postEvent s code arg16 arg32) := by
  unfold State.postEvent
  repeat' first
    | with_reducible assumption
    | with_reducible apply onMb_g
    | with_reducible apply raiseLow_g
    | with_reducible rfl
    | split
    | with_reducible intro _
    | dsimp only

theorem capChanged_g {s0 : State} (s : State) (hK : Grid s0 s) : Grid s0 (State.capChanged s) := by
  unfold State.capChanged
  repeat' first
    | with_reducible assumption
    | with_reducible apply onMb_g
    | with_reducible apply postEvent_g
    | with_reducible rfl
    | split
    | with_reducible intro _
    | dsimp only

theorem misuse_g {s0 : State} (s : State) (stamp value cause port target : Nat) (hK : Grid s0 s) : Grid s0 (State.misuse s stamp value cause port target) := by
  unfold State.misuse
  repeat' first
    | with_reducible assumption
    | with_reducible apply onHost_g
    | with_reducible apply onMb_g
    | with_reducible apply raiseLow_g
    | with_reducible rfl
    | split
    | with_reducible intro _
    | dsimp only

theorem translate_g {s0 : State} (s : State) (port addr n : Nat) (hK : Grid s0 s) : Grid s0 (State.translate s port addr n) := by
  unfold State.translate
  repeat' first
    | with_reducible assumption
    | with_reducible apply modHport_g
    | with_reducible apply grid_foldl
    | with_reducible apply grid_foldl_fst
    | with_reducible rfl
    | split
    | with_reducible intro _
    | dsimp only

theorem hostRead_g {s0 : State} (s : State) (port addr n : Nat) (hK : Grid s0 s) : Grid s0 (State.hostRead s port addr n) := by
  unfold State.hostRead
  repeat' first
    | with_reducible assumption
    | with_reducible apply translate_g
    | with_reducible rfl
    | split
    | with_reducible intro _
    | dsimp only

theorem issue_g {s0 : State} (s : State) (w : HostWrite) (hK : Grid s0 s) : Grid s0 (State.issue s w) := by
  unfold State.issue
  repeat' first
    | with_reducible assumption
    | with_reducible apply translate_g
    | with_reducible apply onHost_g
    | with_reducible rfl
    | split
    | with_reducible intro _
    | dsimp only

theorem hostWrite_g {s0 : State} (s : State) (port addr slotPlus : Nat) (bs : List Byte) (hK : Grid s0 s) : Grid s0 (State.hostWrite s port addr slotPlus bs) := by
  unfold State.hostWrite
  repeat' first
    | with_reducible assumption
    | with_reducible apply onReq_g
    | with_reducible apply issue_g
    | with_reducible rfl
    | split
    | with_reducible intro _
    | dsimp only

theorem complete_g {s0 : State} (s : State) (c : MbCommand) (status : Nat) (data : List Byte) (hK : Grid s0 s) : Grid s0 (State.complete s c status data) := by
  unfold State.complete
  repeat' first
    | with_reducible assumption
    | with_reducible apply onMb_g
    | with_reducible apply raiseLow_g
    | with_reducible rfl
    | split
    | with_reducible intro _
    | dsimp only

theorem setReq_g {s0 : State} (s : State) (n : Nat) (r : Request) (hK : Grid s0 s) : Grid s0 (State.setReq s n r) := by
  unfold State.setReq
  repeat' first
    | with_reducible assumption
    | with_reducible apply onReq_g
    | with_reducible rfl
    | split
    | with_reducible intro _
    | dsimp only

theorem modReq_g {s0 : State} (s : State) (n : Nat) (f : Request → Request) (hK : Grid s0 s) : Grid s0 (State.modReq s n f) := by
  unfold State.modReq
  repeat' first
    | with_reducible assumption
    | with_reducible apply onReq_g
    | with_reducible rfl
    | split
    | with_reducible intro _
    | dsimp only

theorem modMslot_g {s0 : State} (s : State) (n : Nat) (f : ModelSlot → ModelSlot) (hK : Grid s0 s) : Grid s0 (State.modMslot s n f) := by
  unfold State.modMslot
  repeat' first
    | with_reducible assumption
    | with_reducible apply onModels_g
    | with_reducible rfl
    | split
    | with_reducible intro _
    | dsimp only

theorem count_g {s0 : State} (s : State) (f : Counters → Counters) (hK : Grid s0 s) : Grid s0 (State.count s f) := by
  unfold State.count
  repeat' first
    | with_reducible assumption
    | with_reducible apply onTel_g
    | with_reducible rfl
    | split
    | with_reducible intro _
    | dsimp only

theorem countStep_g {s0 : State} (s : State) (f : StepCounters → StepCounters) (hK : Grid s0 s) : Grid s0 (State.countStep s f) := by
  unfold State.countStep
  repeat' first
    | with_reducible assumption
    | with_reducible apply count_g
    | with_reducible rfl
    | split
    | with_reducible intro _
    | dsimp only

theorem countStack_g {s0 : State} (s : State) (n : Nat) (f : StackCounters → StackCounters) (hK : Grid s0 s) : Grid s0 (State.countStack s n f) := by
  unfold State.countStack
  repeat' first
    | with_reducible assumption
    | with_reducible apply count_g
    | with_reducible rfl
    | split
    | with_reducible intro _
    | dsimp only

theorem countPort_g {s0 : State} (s : State) (n : Nat) (f : PortCounters → PortCounters) (hK : Grid s0 s) : Grid s0 (State.countPort s n f) := by
  unfold State.countPort
  repeat' first
    | with_reducible assumption
    | with_reducible apply count_g
    | with_reducible rfl
    | split
    | with_reducible intro _
    | dsimp only

theorem countTenant_g {s0 : State} (s : State) (n : Nat) (f : TenantCounters → TenantCounters) (hK : Grid s0 s) : Grid s0 (State.countTenant s n f) := by
  unfold State.countTenant
  repeat' first
    | with_reducible assumption
    | with_reducible apply count_g
    | with_reducible rfl
    | split
    | with_reducible intro _
    | dsimp only

theorem modBcl_g {s0 : State} (s : State) (c : Nat) (f : BankCluster → BankCluster) (hK : Grid s0 s) : Grid s0 (State.modBcl s c f) := by
  unfold State.modBcl
  repeat' first
    | with_reducible assumption
    | with_reducible apply onBanks_g
    | with_reducible rfl
    | split
    | with_reducible intro _
    | dsimp only

theorem modMcl_g {s0 : State} (s : State) (c : Nat) (f : MatrixCluster → MatrixCluster) (hK : Grid s0 s) : Grid s0 (State.modMcl s c f) := by
  unfold State.modMcl
  repeat' first
    | with_reducible assumption
    | with_reducible apply onMatrix_g
    | with_reducible rfl
    | split
    | with_reducible intro _
    | dsimp only

theorem modJob_g {s0 : State} (s : State) (m : Nat) (f : Job → Job) (hK : Grid s0 s) : Grid s0 (State.modJob s m f) := by
  unfold State.modJob
  repeat' first
    | with_reducible assumption
    | with_reducible apply onPlan_g
    | with_reducible rfl
    | split
    | with_reducible intro _
    | dsimp only

end Sys2Proof.Laws
end

