-- ==== Sys2Proof/Laws/GridJobs.lean ====
section
/-! SUPPORT. What the operations of Machine/Jobs.lean leave alone (Laws/Grid.lean). -/

set_option linter.unusedTactic false
set_option linter.unreachableTactic false
set_option linter.unusedVariables false

namespace Sys2Proof.Laws

open Sys2Proof Sys2Proof.Machine

theorem serveTier_g {s0 : State} (s : State) (hK : Grid s0 s) : Grid s0 (State.serveTier s) := by
  unfold State.serveTier
  repeat' first
    | with_reducible assumption
    | with_reducible apply onTier_g
    | with_reducible rfl
    | split
    | with_reducible intro _
    | dsimp only

theorem beginMove_g {s0 : State} (s : State) (kind key cls taken n : Nat) (hK : Grid s0 s) : Grid s0 (State.beginMove s kind key cls taken n) := by
  unfold State.beginMove
  repeat' first
    | with_reducible assumption
    | with_reducible apply serveTier_g
    | with_reducible apply onTier_g
    | with_reducible rfl
    | split
    | with_reducible intro _
    | dsimp only

theorem endMove_g {s0 : State} (s : State) (kind key : Nat) (hK : Grid s0 s) : Grid s0 (State.endMove s kind key) := by
  unfold State.endMove
  repeat' first
    | with_reducible assumption
    | with_reducible apply serveTier_g
    | with_reducible apply onTier_g
    | with_reducible rfl
    | split
    | with_reducible intro _
    | dsimp only

theorem allBcl_g {s0 : State} (s : State) (f : BankCluster → BankCluster) (hK : Grid s0 s) : Grid s0 (State.allBcl s f) := by
  unfold State.allBcl
  repeat' first
    | with_reducible assumption
    | with_reducible apply onBanks_g
    | with_reducible rfl
    | split
    | with_reducible intro _
    | dsimp only

theorem allMcl_g {s0 : State} (s : State) (f : MatrixCluster → MatrixCluster) (hK : Grid s0 s) : Grid s0 (State.allMcl s f) := by
  unfold State.allMcl
  repeat' first
    | with_reducible assumption
    | with_reducible apply onMatrix_g
    | with_reducible rfl
    | split
    | with_reducible intro _
    | dsimp only

theorem returnStore_g {s0 : State} (s : State) (m : Nat) (hK : Grid s0 s) : Grid s0 (State.returnStore s m) := by
  unfold State.returnStore
  repeat' first
    | with_reducible assumption
    | with_reducible apply onStore_g
    | with_reducible rfl
    | split
    | with_reducible intro _
    | dsimp only

theorem kernelClear_g {s0 : State} (s : State) (m : Nat) (hK : Grid s0 s) : Grid s0 (State.kernelClear s m) := by
  unfold State.kernelClear
  repeat' first
    | with_reducible assumption
    | with_reducible apply allMcl_g
    | with_reducible apply onStore_g
    | with_reducible rfl
    | split
    | with_reducible intro _
    | dsimp only

theorem jobFault_g {s0 : State} (s : State) (m : Nat) (hK : Grid s0 s) : Grid s0 (State.jobFault s m) := by
  unfold State.jobFault
  repeat' first
    | with_reducible assumption
    | with_reducible apply kernelClear_g
    | with_reducible apply allBcl_g
    | with_reducible apply modJob_g
    | with_reducible apply allMcl_g
    | with_reducible apply returnStore_g
    | with_reducible apply onPlan_g
    | with_reducible apply countStep_g
    | with_reducible rfl
    | split
    | with_reducible intro _
    | dsimp only

end Sys2Proof.Laws
end

