-- ==== Sys2Proof/Laws/GridStore.lean ====
section
/-! SUPPORT. What the operations of Machine/Store.lean leave alone (Laws/Grid.lean). -/

set_option linter.unusedTactic false
set_option linter.unreachableTactic false
set_option linter.unusedVariables false

namespace Sys2Proof.Laws

open Sys2Proof Sys2Proof.Machine

theorem grantBlocks_g {s0 : State} (s : State) (c : StoreClass) (holder n : Nat) (hK : Grid s0 s) : Grid s0 (State.grantBlocks s c holder n) := by
  unfold State.grantBlocks
  repeat' first
    | with_reducible assumption
    | with_reducible apply draw_g
    | with_reducible apply onStore_g
    | with_reducible apply onMem_g
    | with_reducible apply grid_foldl
    | with_reducible apply grid_foldl_fst
    | with_reducible rfl
    | split
    | with_reducible intro _
    | dsimp only

theorem releaseBlocks_g {s0 : State} (s : State) (c : StoreClass) (holder : Nat) (hK : Grid s0 s) : Grid s0 (State.releaseBlocks s c holder) := by
  unfold State.releaseBlocks
  repeat' first
    | with_reducible assumption
    | with_reducible apply onStore_g
    | with_reducible rfl
    | split
    | with_reducible intro _
    | dsimp only

theorem setHeld_g {s0 : State} (s : State) (c : StoreClass) (holder n : Nat) (hK : Grid s0 s) : Grid s0 (State.setHeld s c holder n) := by
  unfold State.setHeld
  repeat' first
    | with_reducible assumption
    | with_reducible apply grantBlocks_g
    | with_reducible apply onStore_g
    | with_reducible rfl
    | split
    | with_reducible intro _
    | dsimp only

theorem retryClass_g {s0 : State} (s : State) (c : StoreClass) (hK : Grid s0 s) : Grid s0 (retryClass s c) := by
  unfold retryClass
  repeat' first
    | with_reducible assumption
    | with_reducible apply grantBlocks_g
    | with_reducible apply onStore_g
    | with_reducible rfl
    | split
    | with_reducible intro _
    | dsimp only

theorem openTransit_g {s0 : State} (s : State) (c : StoreClass) (holder n : Nat) (hK : Grid s0 s) : Grid s0 (State.openTransit s c holder n) := by
  unfold State.openTransit
  repeat' first
    | with_reducible assumption
    | with_reducible apply grantBlocks_g
    | with_reducible apply onStore_g
    | with_reducible apply count_g
    | with_reducible rfl
    | split
    | with_reducible intro _
    | dsimp only

theorem closeTransit_g {s0 : State} (s : State) (c : StoreClass) (holder : Nat) (hK : Grid s0 s) : Grid s0 (State.closeTransit s c holder) := by
  unfold State.closeTransit
  repeat' first
    | with_reducible assumption
    | with_reducible apply retryClass_g
    | with_reducible apply releaseBlocks_g
    | with_reducible apply onStore_g
    | with_reducible rfl
    | split
    | with_reducible intro _
    | dsimp only

theorem endTransits_g {s0 : State} (s : State) (c : StoreClass) (hK : Grid s0 s) : Grid s0 (State.endTransits s c) := by
  unfold State.endTransits
  repeat' first
    | with_reducible assumption
    | with_reducible apply grid_foldl
    | with_reducible apply grid_foldl_fst
    | with_reducible apply closeTransit_g
    | with_reducible rfl
    | split
    | with_reducible intro _
    | dsimp only

end Sys2Proof.Laws
end

