-- ==== Sys2Proof/Laws/GridFlags.lean ====
section
/-! SUPPORT. What the operations of Machine/Flags.lean leave alone (Laws/Grid.lean). -/

set_option linter.unusedTactic false
set_option linter.unreachableTactic false
set_option linter.unusedVariables false

namespace Sys2Proof.Laws

open Sys2Proof Sys2Proof.Machine

theorem portsChanged_g {s0 : State} (s : State) (hK : Grid s0 s) : Grid s0 (State.portsChanged s) := by
  unfold State.portsChanged
  repeat' first
    | with_reducible assumption
    | with_reducible apply onHost_g
    | with_reducible apply raiseLow_g
    | with_reducible rfl
    | split
    | with_reducible intro _
    | dsimp only

end Sys2Proof.Laws
end

