-- ==== Sys2Proof/Laws/GridMatrix.lean ====
section
/-! SUPPORT. What the operations of Machine/Matrix.lean leave alone (Laws/Grid.lean). -/

set_option linter.unusedTactic false
set_option linter.unreachableTactic false
set_option linter.unusedVariables false

namespace Sys2Proof.Laws

open Sys2Proof Sys2Proof.Machine

-- TODO issueFetch

theorem issueFetch_g {s0 s t : State} {cl m k : Nat} (h : Grid s0 s) (ht : issueFetch s cl m k = some t) : Grid s0 t := by
  unfold issueFetch at ht
  dsimp only at ht
  split at ht
  · cases ht
  · split at ht
    · split at ht
      · cases ht
      · cases ht
        exact modMcl_g _ _ _ h
    · cases ht

theorem issueFetches_g {s0 : State} (cl m k n : Nat) (s : State) (h : Grid s0 s) : Grid s0 (issueFetches cl m k n s) := by
  induction n generalizing s with
  | zero => exact h
  | succ n ih =>
    unfold issueFetches
    split
    · exact h
    · exact ih _ (issueFetch_g h ‹_›)

theorem prefetchJobs_g {s0 : State} (c : Nat) (a0 : List Nat) (s : State) (hK : Grid s0 s) : Grid s0 (prefetchJobs c a0 s) := by
  induction a0 generalizing s with
  | nil => exact hK
  | cons x r ih =>
    unfold prefetchJobs
    repeat' first
      | with_reducible assumption
      | with_reducible apply ih
      | with_reducible apply issueFetches_g
      | with_reducible rfl
      | split
      | with_reducible intro _
      | dsimp only

theorem prefetch_g {s0 : State} (s : State) (hK : Grid s0 s) : Grid s0 (State.prefetch s) := by
  unfold State.prefetch
  repeat' first
    | with_reducible assumption
    | with_reducible apply grid_foldl
    | with_reducible apply grid_foldl_fst
    | with_reducible apply prefetchJobs_g
    | with_reducible rfl
    | split
    | with_reducible intro _
    | dsimp only

end Sys2Proof.Laws
end

