-- ==== Sys2Proof/Laws/GridKernels.lean ====
section
/-! SUPPORT. What the operations of Machine/Kernels.lean leave alone (Laws/Grid.lean). -/

set_option linter.unusedTactic false
set_option linter.unreachableTactic false
set_option linter.unusedVariables false

namespace Sys2Proof.Laws

open Sys2Proof Sys2Proof.Machine

theorem measure_g {s0 : State} (s : State) (m kernel : Nat) (k : KernelMeasure) (hK : Grid s0 s) : Grid s0 (State.measure s m kernel k) := by
  unfold State.measure
  repeat' first
    | with_reducible assumption
    | with_reducible apply onPlan_g
    | with_reducible rfl
    | split
    | with_reducible intro _
    | dsimp only

theorem measureStopped_g {s0 : State} (s : State) (l : List (Nat × Nat × KernelMeasure)) (hK : Grid s0 s) : Grid s0 (State.measureStopped s l) := by
  unfold State.measureStopped
  repeat' first
    | with_reducible assumption
    | with_reducible apply grid_foldl
    | with_reducible apply grid_foldl_fst
    | with_reducible apply measure_g
    | with_reducible apply modJob_g
    | with_reducible rfl
    | split
    | with_reducible intro _
    | dsimp only

end Sys2Proof.Laws
end

