-- ==== Sys2Proof/Laws/GridPackets.lean ====
section
/-! SUPPORT. What the operations of Machine/Packets.lean leave alone (Laws/Grid.lean). -/

set_option linter.unusedTactic false
set_option linter.unreachableTactic false
set_option linter.unusedVariables false

namespace Sys2Proof.Laws

open Sys2Proof Sys2Proof.Machine

theorem modPort_g {s0 : State} (s : State) (p : Nat) (f : Port → Port) (hK : Grid s0 s) : Grid s0 (State.modPort s p f) := by
  unfold State.modPort
  repeat' first
    | with_reducible assumption
    | with_reducible apply onGelcon_g
    | with_reducible rfl
    | split
    | with_reducible intro _
    | dsimp only

theorem pump_g {s0 : State} (s : State) (p : Nat) (hK : Grid s0 s) : Grid s0 (State.pump s p) := by
  unfold State.pump
  repeat' first
    | with_reducible assumption
    | with_reducible apply modPort_g
    | with_reducible apply countPort_g
    | with_reducible rfl
    | split
    | with_reducible intro _
    | dsimp only

theorem queueFlits_g {s0 : State} (s : State) (p : Nat) (l : List Flit) (hK : Grid s0 s) : Grid s0 (State.queueFlits s p l) := by
  unfold State.queueFlits
  repeat' first
    | with_reducible assumption
    | with_reducible apply modPort_g
    | with_reducible apply pump_g
    | with_reducible rfl
    | split
    | with_reducible intro _
    | dsimp only

theorem reportPorts_g {s0 : State} (s : State) (hK : Grid s0 s) : Grid s0 (State.reportPorts s) := by
  unfold State.reportPorts
  repeat' first
    | with_reducible assumption
    | with_reducible apply onGelcon_g
    | with_reducible rfl
    | split
    | with_reducible intro _
    | dsimp only

theorem noteErr_g {s0 : State} (s : State) (cause ptype tag : Nat) (hK : Grid s0 s) : Grid s0 (State.noteErr s cause ptype tag) := by
  unfold State.noteErr
  repeat' first
    | with_reducible assumption
    | with_reducible apply onGelcon_g
    | with_reducible rfl
    | split
    | with_reducible intro _
    | dsimp only

theorem sendPacket_g {s0 : State} (s : State) (p : Packet) (hK : Grid s0 s) : Grid s0 (State.sendPacket s p) := by
  unfold State.sendPacket
  repeat' first
    | with_reducible assumption
    | with_reducible apply onGelcon_g
    | with_reducible apply queueFlits_g
    | with_reducible apply noteErr_g
    | with_reducible rfl
    | split
    | with_reducible intro _
    | dsimp only

theorem sendMsg_g {s0 : State} (s : State) (dst ptype tc base handle : Nat) (ordered : Bool) (payload : List Byte) (hK : Grid s0 s) : Grid s0 (State.sendMsg s dst ptype tc base handle ordered payload) := by
  unfold State.sendMsg
  repeat' first
    | with_reducible assumption
    | with_reducible apply onGelcon_g
    | with_reducible apply grid_foldl
    | with_reducible apply grid_foldl_fst
    | with_reducible apply sendPacket_g
    | with_reducible rfl
    | split
    | with_reducible intro _
    | dsimp only

theorem sendErr_g {s0 : State} (s : State) (p : Packet) (cause : Nat) (hK : Grid s0 s) : Grid s0 (State.sendErr s p cause) := by
  unfold State.sendErr
  repeat' first
    | with_reducible assumption
    | with_reducible apply sendMsg_g
    | with_reducible rfl
    | split
    | with_reducible intro _
    | dsimp only

theorem sendAgain_g {s0 : State} (s : State) (f : Flit) (hK : Grid s0 s) : Grid s0 (State.sendAgain s f) := by
  unfold State.sendAgain
  repeat' first
    | with_reducible assumption
    | with_reducible apply queueFlits_g
    | with_reducible apply noteErr_g
    | with_reducible apply sendErr_g
    | with_reducible rfl
    | split
    | with_reducible intro _
    | dsimp only

theorem portFalls_g {s0 : State} (s : State) (p : Nat) (f : Port → Port) (hK : Grid s0 s) : Grid s0 (State.portFalls s p f) := by
  unfold State.portFalls
  repeat' first
    | with_reducible assumption
    | with_reducible apply modPort_g
    | with_reducible apply grid_foldl
    | with_reducible apply grid_foldl_fst
    | with_reducible apply sendAgain_g
    | with_reducible apply reportPorts_g
    | with_reducible rfl
    | split
    | with_reducible intro _
    | dsimp only

end Sys2Proof.Laws
end

