-- ==== Sys2Proof/Laws/GridBank.lean ====
section
/-! SUPPORT. What the operations of Machine/Bank.lean leave alone (Laws/Grid.lean). -/

set_option linter.unusedTactic false
set_option linter.unreachableTactic false
set_option linter.unusedVariables false

namespace Sys2Proof.Laws

open Sys2Proof Sys2Proof.Machine

theorem modBu_g {s0 : State} (s : State) (cl b : Nat) (f : BankUnit → BankUnit) (hK : Grid s0 s) : Grid s0 (State.modBu s cl b f) := by
  unfold State.modBu
  repeat' first
    | with_reducible assumption
    | with_reducible apply modBcl_g
    | with_reducible rfl
    | split
    | with_reducible intro _
    | dsimp only

theorem countTaints_g {s0 : State} (cl : Nat) (old new : State) (scope : List Nat) (hK : Grid s0 old) (hK1 : Grid s0 new) : Grid s0 (countTaints cl old new scope) := by
  unfold countTaints
  repeat' first
    | with_reducible assumption
    | with_reducible apply countStack_g
    | with_reducible rfl
    | split
    | with_reducible intro _
    | dsimp only

theorem noteColumns_g {s0 : State} (cl : Nat) (bad : List BadColumn) (s : State) (hK : Grid s0 s) : Grid s0 (noteColumns cl bad s) := by
  unfold noteColumns
  repeat' first
    | with_reducible assumption
    | with_reducible apply countStack_g
    | with_reducible apply onFaults_g
    | with_reducible rfl
    | split
    | with_reducible intro _
    | dsimp only

theorem logColumns_g {s0 : State} (cl kind row : Nat) (bads : List BadColumn) (s : State) (hK : Grid s0 s) : Grid s0 (logColumns cl kind row bads s) := by
  unfold logColumns
  repeat' first
    | with_reducible assumption
    | with_reducible apply grid_foldl
    | with_reducible apply grid_foldl_fst
    | with_reducible apply modBu_g
    | with_reducible rfl
    | split
    | with_reducible intro _
    | dsimp only

theorem putCode_g {s0 : State} (fmt a place code : Nat) (s : State) (hK : Grid s0 s) : Grid s0 (putCode fmt a place code s) := by
  unfold putCode
  repeat' first
    | with_reducible assumption
    | with_reducible apply putBytes_g
    | with_reducible rfl
    | split
    | with_reducible intro _
    | dsimp only

theorem moveK_g {s0 : State} (cl b dst : Nat) (f : Frame) (lost : Nat → Bool) (st dt : Nat) (s : State) (hK : Grid s0 s) : Grid s0 (moveK cl b dst f lost st dt s) := by
  unfold moveK
  repeat' first
    | with_reducible assumption
    | with_reducible apply grid_foldl
    | with_reducible apply grid_foldl_fst
    | with_reducible apply putCode_g
    | with_reducible rfl
    | split
    | with_reducible intro _
    | dsimp only

theorem moveV_g {s0 : State} (cl b dst : Nat) (f : Frame) (lost : Nat → Bool) (st dt : Nat) (s : State) (hK : Grid s0 s) : Grid s0 (moveV cl b dst f lost st dt s) := by
  unfold moveV
  repeat' first
    | with_reducible assumption
    | with_reducible apply grid_foldl
    | with_reducible apply grid_foldl_fst
    | with_reducible apply putCode_g
    | with_reducible rfl
    | split
    | with_reducible intro _
    | dsimp only

theorem moveMant_g {s0 : State} (cl b dst : Nat) (f : Frame) (lost : Nat → Bool) (st dt : Nat) (s : State) (hK : Grid s0 s) : Grid s0 (moveMant cl b dst f lost st dt s) := by
  unfold moveMant
  repeat' first
    | with_reducible assumption
    | with_reducible apply putBytes_g
    | with_reducible rfl
    | split
    | with_reducible intro _
    | dsimp only

theorem gatherBank_g {s0 : State} (cl row dst variant : Nat) (bad : List BadColumn) (s : State) (b : Nat) (hK : Grid s0 s) : Grid s0 (gatherBank cl row dst variant bad s b) := by
  unfold gatherBank
  repeat' first
    | with_reducible assumption
    | with_reducible apply grid_foldl
    | with_reducible apply grid_foldl_fst
    | with_reducible apply moveK_g
    | with_reducible apply moveV_g
    | with_reducible apply moveMant_g
    | with_reducible rfl
    | split
    | with_reducible intro _
    | dsimp only

theorem gatherScope_g {s0 : State} (cl row dst variant : Nat) (bad : List BadColumn) (scope : List Nat) (s : State) (hK : Grid s0 s) : Grid s0 (gatherScope cl row dst variant bad scope s).1 := by
  unfold gatherScope
  repeat' first
    | with_reducible assumption
    | with_reducible apply grid_foldl
    | with_reducible apply grid_foldl_fst
    | with_reducible apply gatherBank_g
    | with_reducible apply modBu_g
    | with_reducible rfl
    | split
    | with_reducible intro _
    | dsimp only

theorem doGather_g {s0 : State} (cl : Nat) (c : BuCmd) (t : State) (hK : Grid s0 t) : Grid s0 (doGather cl c t) := by
  unfold doGather
  repeat' first
    | with_reducible assumption
    | with_reducible apply gatherScope_g
    | with_reducible apply noteColumns_g
    | with_reducible apply countTaints_g
    | with_reducible apply logColumns_g
    | with_reducible apply jobFault_g
    | with_reducible rfl
    | split
    | with_reducible intro _
    | dsimp only

theorem writeEntry_g {s0 : State} (cl : Nat) (s : State) (e : AppendEntry) (hK : Grid s0 s) : Grid s0 (writeEntry cl s e) := by
  unfold writeEntry
  repeat' first
    | with_reducible assumption
    | with_reducible apply grid_foldl
    | with_reducible apply grid_foldl_fst
    | with_reducible apply putCode_g
    | with_reducible apply putBytes_g
    | with_reducible rfl
    | split
    | with_reducible intro _
    | dsimp only

theorem doKvflush_g {s0 : State} (cl first count : Nat) (s : State) (hK : Grid s0 s) : Grid s0 (doKvflush cl first count s) := by
  unfold doKvflush
  repeat' first
    | with_reducible assumption
    | with_reducible apply count_g
    | with_reducible apply grid_foldl
    | with_reducible apply grid_foldl_fst
    | with_reducible apply writeEntry_g
    | with_reducible apply modBcl_g
    | with_reducible rfl
    | split
    | with_reducible intro _
    | dsimp only

theorem loadLanes_g {s0 : State} (s : State) (cl : Nat) (w x : U128) (hK : Grid s0 s) : Grid s0 (State.loadLanes s cl w x) := by
  unfold State.loadLanes
  repeat' first
    | with_reducible assumption
    | with_reducible apply grid_foldl
    | with_reducible apply grid_foldl_fst
    | with_reducible apply modBu_g
    | with_reducible rfl
    | split
    | with_reducible intro _
    | dsimp only

theorem endGather_g {s0 : State} (s : State) (g : GatherDue) (hK : Grid s0 s) : Grid s0 (endGather s g) := by
  unfold endGather
  repeat' first
    | with_reducible assumption
    | with_reducible apply doKvflush_g
    | with_reducible apply doGather_g
    | with_reducible apply loadLanes_g
    | with_reducible rfl
    | split
    | with_reducible intro _
    | dsimp only

theorem endGathers_g {s0 : State} (s : State) (slot : Nat) (hK : Grid s0 s) : Grid s0 (State.endGathers s slot) := by
  unfold State.endGathers
  repeat' first
    | with_reducible assumption
    | with_reducible apply grid_foldl
    | with_reducible apply grid_foldl_fst
    | with_reducible apply endGather_g
    | with_reducible apply onReq_g
    | with_reducible rfl
    | split
    | with_reducible intro _
    | dsimp only

theorem endAllGathers_g {s0 : State} (s : State) (hK : Grid s0 s) : Grid s0 (State.endAllGathers s) := by
  unfold State.endAllGathers
  repeat' first
    | with_reducible assumption
    | with_reducible apply grid_foldl
    | with_reducible apply grid_foldl_fst
    | with_reducible apply endGather_g
    | with_reducible apply onReq_g
    | with_reducible apply allBcl_g
    | with_reducible rfl
    | split
    | with_reducible intro _
    | dsimp only

end Sys2Proof.Laws
end

