-- ==== Sys2Proof/Laws/GridTierOps.lean ====
section
/-! SUPPORT. What the operations of Machine/TierOps.lean leave alone (Laws/Grid.lean). -/

set_option linter.unusedTactic false
set_option linter.unreachableTactic false
set_option linter.unusedVariables false

namespace Sys2Proof.Laws

open Sys2Proof Sys2Proof.Machine

theorem modGroup_g {s0 : State} (s : State) (h : Nat) (f : PageGroup → PageGroup) (hK : Grid s0 s) : Grid s0 (State.modGroup s h f) := by
  unfold State.modGroup
  repeat' first
    | with_reducible assumption
    | with_reducible apply onTier_g
    | with_reducible rfl
    | split
    | with_reducible intro _
    | dsimp only

theorem releaseT2_g {s0 : State} (s : State) (h : Nat) (hK : Grid s0 s) : Grid s0 (State.releaseT2 s h) := by
  unfold State.releaseT2
  repeat' first
    | with_reducible assumption
    | with_reducible apply onTier_g
    | with_reducible apply modGroup_g
    | with_reducible rfl
    | split
    | with_reducible intro _
    | dsimp only

theorem addFillAt_g {s0 : State} (s : State) (n : Nat) (tenant forTenant group slotOf : Option Nat) (spans : List (Nat × Nat × Nat)) (hK : Grid s0 s) : Grid s0 (State.addFillAt s n tenant forTenant group slotOf spans) := by
  unfold State.addFillAt
  repeat' first
    | with_reducible assumption
    | with_reducible apply onTier_g
    | with_reducible rfl
    | split
    | with_reducible intro _
    | dsimp only

theorem unindex_g {s0 : State} (s : State) (h : Nat) (hK : Grid s0 s) : Grid s0 (State.unindex s h) := by
  unfold State.unindex
  repeat' first
    | with_reducible assumption
    | with_reducible apply onTier_g
    | with_reducible apply modGroup_g
    | with_reducible rfl
    | split
    | with_reducible intro _
    | dsimp only

theorem freeGroup_g {s0 : State} (s : State) (h : Nat) (forTenant : Option Nat) (hK : Grid s0 s) : Grid s0 (State.freeGroup s h forTenant) := by
  unfold State.freeGroup
  repeat' first
    | with_reducible assumption
    | with_reducible apply unindex_g
    | with_reducible apply releaseT2_g
    | with_reducible apply addFillAt_g
    | with_reducible apply modGroup_g
    | with_reducible rfl
    | split
    | with_reducible intro _
    | dsimp only

theorem recheck_g {s0 : State} (s : State) (h : Nat) (hK : Grid s0 s) : Grid s0 (State.recheck s h) := by
  unfold State.recheck
  repeat' first
    | with_reducible assumption
    | with_reducible apply freeGroup_g
    | with_reducible rfl
    | split
    | with_reducible intro _
    | dsimp only

theorem takeRef_g {s0 : State} (s : State) (h : Nat) (hK : Grid s0 s) : Grid s0 (State.takeRef s h) := by
  unfold State.takeRef
  repeat' first
    | with_reducible assumption
    | with_reducible apply modGroup_g
    | with_reducible rfl
    | split
    | with_reducible intro _
    | dsimp only

theorem dropRef_g {s0 : State} (s : State) (h : Nat) (hK : Grid s0 s) : Grid s0 (State.dropRef s h) := by
  unfold State.dropRef
  repeat' first
    | with_reducible assumption
    | with_reducible apply modGroup_g
    | with_reducible apply recheck_g
    | with_reducible rfl
    | split
    | with_reducible intro _
    | dsimp only

theorem countVictim_g {s0 : State} (s : State) (hK : Grid s0 s) : Grid s0 (State.countVictim s) := by
  unfold State.countVictim
  repeat' first
    | with_reducible assumption
    | with_reducible apply onTier_g
    | with_reducible rfl
    | split
    | with_reducible intro _
    | dsimp only

theorem reclaimT2_g {s0 : State} (own : Option Nat) (a0 : Nat) (a1 : Nat) (s : State) (hK : Grid s0 s) : Grid s0 (reclaimT2 own a0 a1 s) := by
  induction a0 generalizing a1 s with
  | zero => exact hK
  | succ n ih =>
    unfold reclaimT2
    repeat' first
      | with_reducible assumption
      | with_reducible apply ih
      | with_reducible apply freeGroup_g
      | with_reducible apply countVictim_g
      | with_reducible rfl
      | split
      | with_reducible intro _
      | dsimp only

theorem refuse_g {s0 : State} (s : State) (hK : Grid s0 s) : Grid s0 (State.refuse s) := by
  unfold State.refuse
  repeat' first
    | with_reducible assumption
    | with_reducible apply onTier_g
    | with_reducible rfl
    | split
    | with_reducible intro _
    | dsimp only

theorem grant2_g {s0 : State} (s : State) (t n : Nat) (hK : Grid s0 s) : Grid s0 (State.grant2 s t n).1 := by
  unfold State.grant2
  repeat' first
    | with_reducible assumption
    | with_reducible apply reclaimT2_g
    | with_reducible apply refuse_g
    | with_reducible apply onTier_g
    | with_reducible rfl
    | split
    | with_reducible intro _
    | dsimp only

theorem demoteGroup_g {s0 : State} (s : State) (h : Nat) (forTenant : Option Nat) (hK : Grid s0 s) : Grid s0 (State.demoteGroup s h forTenant).1 := by
  unfold State.demoteGroup
  repeat' first
    | with_reducible assumption
    | with_reducible apply grant2_g
    | with_reducible apply draw_g
    | with_reducible apply modGroup_g
    | with_reducible apply beginMove_g
    | with_reducible apply openTransit_g
    | with_reducible apply onTier_g
    | with_reducible rfl
    | split
    | with_reducible intro _
    | dsimp only

theorem departT1_g {s0 : State} (s : State) (h : Nat) (hK : Grid s0 s) : Grid s0 (State.departT1 s h) := by
  unfold State.departT1
  repeat' first
    | with_reducible assumption
    | with_reducible apply freeGroup_g
    | with_reducible apply countVictim_g
    | with_reducible apply demoteGroup_g
    | with_reducible rfl
    | split
    | with_reducible intro _
    | dsimp only

theorem reclaimT1_g {s0 : State} (own : Option Nat) (a0 : Nat) (a1 : Nat) (s : State) (hK : Grid s0 s) : Grid s0 (reclaimT1 own a0 a1 s) := by
  induction a0 generalizing a1 s with
  | zero => exact hK
  | succ n ih =>
    unfold reclaimT1
    repeat' first
      | with_reducible assumption
      | with_reducible apply ih
      | with_reducible apply departT1_g
      | with_reducible rfl
      | split
      | with_reducible intro _
      | dsimp only

theorem reclaimAny_g {s0 : State} (s : State) (short : Nat) (hK : Grid s0 s) : Grid s0 (State.reclaimAny s short) := by
  unfold State.reclaimAny
  repeat' first
    | with_reducible assumption
    | with_reducible apply reclaimT1_g
    | with_reducible rfl
    | split
    | with_reducible intro _
    | dsimp only

theorem grant1_g {s0 : State} (s : State) (t n : Nat) (admission : Bool) (hK : Grid s0 s) : Grid s0 (State.grant1 s t n admission).1 := by
  unfold State.grant1
  repeat' first
    | with_reducible assumption
    | with_reducible apply reclaimT1_g
    | with_reducible apply refuse_g
    | with_reducible apply reclaimAny_g
    | with_reducible apply onTier_g
    | with_reducible rfl
    | split
    | with_reducible intro _
    | dsimp only

theorem newGroup_g {s0 : State} (s : State) (slot b : Nat) (draft rebuild : Bool) (hK : Grid s0 s) : Grid s0 (State.newGroup s slot b draft rebuild).1 := by
  unfold State.newGroup
  repeat' first
    | with_reducible assumption
    | with_reducible apply refuse_g
    | with_reducible apply grant1_g
    | with_reducible apply draw_g
    | with_reducible apply onMem_g
    | with_reducible apply onTier_g
    | with_reducible apply writeSidecars_wf
    | with_reducible rfl
    | split
    | with_reducible intro _
    | dsimp only

theorem needBlock_g {s0 : State} (s : State) (slot b : Nat) (draft : Bool) (hK : Grid s0 s) : Grid s0 (State.needBlock s slot b draft).1 := by
  unfold State.needBlock
  repeat' first
    | with_reducible assumption
    | with_reducible apply newGroup_g
    | with_reducible apply modReq_g
    | with_reducible rfl
    | split
    | with_reducible intro _
    | dsimp only

theorem needBlocks_g {s0 : State} (s : State) (slot : Nat) (draft : Bool) (bs : List Nat) (hK : Grid s0 s) : Grid s0 (State.needBlocks s slot draft bs).1 := by
  unfold State.needBlocks
  repeat' first
    | with_reducible assumption
    | with_reducible apply grid_foldl
    | with_reducible apply grid_foldl_fst
    | with_reducible apply needBlock_g
    | with_reducible rfl
    | split
    | with_reducible intro _
    | dsimp only

theorem endTransfer_g {s0 : State} (s : State) (kind h : Nat) (hK : Grid s0 s) : Grid s0 (State.endTransfer s kind h) := by
  unfold State.endTransfer
  repeat' first
    | with_reducible assumption
    | with_reducible apply endMove_g
    | with_reducible apply closeTransit_g
    | with_reducible apply onTier_g
    | with_reducible rfl
    | split
    | with_reducible intro _
    | dsimp only

theorem towardResident_g {s0 : State} (s : State) (h : Nat) (slotPlus : Nat) (hK : Grid s0 s) : Grid s0 (State.towardResident s h slotPlus) := by
  unfold State.towardResident
  repeat' first
    | with_reducible assumption
    | with_reducible apply releaseT2_g
    | with_reducible apply modGroup_g
    | with_reducible apply endTransfer_g
    | with_reducible apply grant1_g
    | with_reducible apply refuse_g
    | with_reducible apply draw_g
    | with_reducible apply beginMove_g
    | with_reducible apply openTransit_g
    | with_reducible apply onTier_g
    | with_reducible rfl
    | split
    | with_reducible intro _
    | dsimp only

theorem promoted_g {s0 : State} (s : State) (h : Nat) (hK : Grid s0 s) : Grid s0 (State.promoted s h) := by
  unfold State.promoted
  repeat' first
    | with_reducible assumption
    | with_reducible apply releaseT2_g
    | with_reducible apply modGroup_g
    | with_reducible apply endTransfer_g
    | with_reducible apply recheck_g
    | with_reducible rfl
    | split
    | with_reducible intro _
    | dsimp only

theorem hitEntry_g {s0 : State} (s : State) (h : Nat) (hK : Grid s0 s) : Grid s0 (State.hitEntry s h) := by
  unfold State.hitEntry
  repeat' first
    | with_reducible assumption
    | with_reducible apply onTier_g
    | with_reducible rfl
    | split
    | with_reducible intro _
    | dsimp only

theorem insertEntry_g {s0 : State} (s : State) (h : Nat) (g : PageGroup) (d : Nat) (hK : Grid s0 s) : Grid s0 (State.insertEntry s h g d) := by
  unfold State.insertEntry
  repeat' first
    | with_reducible assumption
    | with_reducible apply unindex_g
    | with_reducible apply onTier_g
    | with_reducible apply recheck_g
    | with_reducible apply modGroup_g
    | with_reducible rfl
    | split
    | with_reducible intro _
    | dsimp only

theorem dropEntries_g {s0 : State} (s : State) (p : IndexEntry → Bool) (hK : Grid s0 s) : Grid s0 (State.dropEntries s p) := by
  unfold State.dropEntries
  repeat' first
    | with_reducible assumption
    | with_reducible apply grid_foldl
    | with_reducible apply grid_foldl_fst
    | with_reducible apply unindex_g
    | with_reducible apply recheck_g
    | with_reducible rfl
    | split
    | with_reducible intro _
    | dsimp only

theorem usePipe_g {s0 : State} (s : State) (n : Nat) (hK : Grid s0 s) : Grid s0 (State.usePipe s n) := by
  unfold State.usePipe
  repeat' first
    | with_reducible assumption
    | with_reducible apply onTier_g
    | with_reducible rfl
    | split
    | with_reducible intro _
    | dsimp only

theorem takeMatches_g {s0 : State} (s : State) (slotPlus : Nat) (es : List IndexEntry) (hK : Grid s0 s) : Grid s0 (State.takeMatches s slotPlus es) := by
  unfold State.takeMatches
  repeat' first
    | with_reducible assumption
    | with_reducible apply grid_foldl
    | with_reducible apply grid_foldl_fst
    | with_reducible apply takeRef_g
    | with_reducible apply hitEntry_g
    | with_reducible apply towardResident_g
    | with_reducible rfl
    | split
    | with_reducible intro _
    | dsimp only

theorem publishGroup_g {s0 : State} (s : State) (h : Nat) (hK : Grid s0 s) : Grid s0 (State.publishGroup s h) := by
  unfold State.publishGroup
  repeat' first
    | with_reducible assumption
    | with_reducible apply onTier_g
    | with_reducible apply insertEntry_g
    | with_reducible apply modGroup_g
    | with_reducible apply takeRef_g
    | with_reducible apply hitEntry_g
    | with_reducible apply modReq_g
    | with_reducible apply dropRef_g
    | with_reducible apply unindex_g
    | with_reducible apply recheck_g
    | with_reducible rfl
    | split
    | with_reducible intro _
    | dsimp only

theorem markPublish_g {s0 : State} (s : State) (slot oldLen newLen : Nat) (hK : Grid s0 s) : Grid s0 (State.markPublish s slot oldLen newLen) := by
  unfold State.markPublish
  repeat' first
    | with_reducible assumption
    | with_reducible apply grid_foldl
    | with_reducible apply grid_foldl_fst
    | with_reducible apply modGroup_g
    | with_reducible apply onTier_g
    | with_reducible rfl
    | split
    | with_reducible intro _
    | dsimp only

theorem dropRequestRefs_g {s0 : State} (s : State) (slot : Nat) (r : Request) (hK : Grid s0 s) : Grid s0 (State.dropRequestRefs s slot r) := by
  unfold State.dropRequestRefs
  repeat' first
    | with_reducible assumption
    | with_reducible apply grid_foldl
    | with_reducible apply grid_foldl_fst
    | with_reducible apply modGroup_g
    | with_reducible apply dropRef_g
    | with_reducible apply addFillAt_g
    | with_reducible rfl
    | split
    | with_reducible intro _
    | dsimp only

theorem parkRefs_g {s0 : State} (s : State) (slot : Nat) (hK : Grid s0 s) : Grid s0 (State.parkRefs s slot) := by
  unfold State.parkRefs
  repeat' first
    | with_reducible assumption
    | with_reducible apply grid_foldl
    | with_reducible apply grid_foldl_fst
    | with_reducible apply modReq_g
    | with_reducible apply dropRef_g
    | with_reducible rfl
    | split
    | with_reducible intro _
    | dsimp only

theorem parkDemote_g {s0 : State} (s : State) (slot : Nat) (hK : Grid s0 s) : Grid s0 (State.parkDemote s slot) := by
  unfold State.parkDemote
  repeat' first
    | with_reducible assumption
    | with_reducible apply grid_foldl
    | with_reducible apply grid_foldl_fst
    | with_reducible apply demoteGroup_g
    | with_reducible rfl
    | split
    | with_reducible intro _
    | dsimp only

theorem walkEntry_g {s0 : State} (s : State) (slot b prev : Nat) (hK : Grid s0 s) : Grid s0 (State.walkEntry s slot b prev) := by
  unfold State.walkEntry
  repeat' first
    | with_reducible assumption
    | with_reducible apply modReq_g
    | with_reducible apply towardResident_g
    | with_reducible apply takeRef_g
    | with_reducible apply takeMatches_g
    | with_reducible apply newGroup_g
    | with_reducible rfl
    | split
    | with_reducible intro _
    | dsimp only

theorem walkPages_g {s0 : State} (slot : Nat) (a0 : Nat) (a1 : Nat) (a2 : Nat) (s : State) (hK : Grid s0 s) : Grid s0 (walkPages slot a0 a1 a2 s) := by
  induction a0 generalizing a1 a2 s with
  | zero => exact hK
  | succ n ih =>
    unfold walkPages
    repeat' first
      | with_reducible assumption
      | with_reducible apply ih
      | with_reducible apply walkEntry_g
      | with_reducible rfl
      | split
      | with_reducible intro _
      | dsimp only

theorem resumeWalk_g {s0 : State} (s : State) (slot : Nat) (hK : Grid s0 s) : Grid s0 (State.resumeWalk s slot) := by
  unfold State.resumeWalk
  repeat' first
    | with_reducible assumption
    | with_reducible apply walkPages_g
    | with_reducible apply grid_foldl
    | with_reducible apply grid_foldl_fst
    | with_reducible apply towardResident_g
    | with_reducible rfl
    | split
    | with_reducible intro _
    | dsimp only

end Sys2Proof.Laws
end

