-- ==== Sys2Proof/Laws/GridSettle.lean ====
section
/-! SUPPORT. What the operations of Machine/Settle.lean leave alone (Laws/Grid.lean). -/

set_option linter.unusedTactic false
set_option linter.unreachableTactic false
set_option linter.unusedVariables false

namespace Sys2Proof.Laws

open Sys2Proof Sys2Proof.Machine

theorem writeStream_g {s0 : State} (s : State) (slot token flags : Nat) (logprob : BitVec 16) (hK : Grid s0 s) : Grid s0 (State.writeStream s slot token flags logprob) := by
  unfold State.writeStream
  repeat' first
    | with_reducible assumption
    | with_reducible apply hostWrite_g
    | with_reducible apply modReq_g
    | with_reducible apply raiseVector_g
    | with_reducible rfl
    | split
    | with_reducible intro _
    | dsimp only

theorem writeTokens_g {s0 : State} (s : State) (slot : Nat) (l : List (OutToken × Bool)) (hK : Grid s0 s) : Grid s0 (State.writeTokens s slot l) := by
  unfold State.writeTokens
  repeat' first
    | with_reducible assumption
    | with_reducible apply grid_foldl
    | with_reducible apply grid_foldl_fst
    | with_reducible apply writeStream_g
    | with_reducible rfl
    | split
    | with_reducible intro _
    | dsimp only

theorem writeFinal_g {s0 : State} (s : State) (slot status : Nat) (hK : Grid s0 s) : Grid s0 (State.writeFinal s slot status) := by
  unfold State.writeFinal
  repeat' first
    | with_reducible assumption
    | with_reducible apply writeStream_g
    | with_reducible rfl
    | split
    | with_reducible intro _
    | dsimp only

theorem countEnd_g {s0 : State} (s : State) (e : AttemptEnd) (hK : Grid s0 s) : Grid s0 (State.countEnd s e) := by
  unfold State.countEnd
  repeat' first
    | with_reducible assumption
    | with_reducible apply countStep_g
    | with_reducible rfl
    | split
    | with_reducible intro _
    | dsimp only

theorem endAttempt_g {s0 : State} (s : State) (slot : Nat) (e : AttemptEnd) (hK : Grid s0 s) : Grid s0 (State.endAttempt s slot e) := by
  unfold State.endAttempt
  repeat' first
    | with_reducible assumption
    | with_reducible apply countEnd_g
    | with_reducible apply onPlan_g
    | with_reducible rfl
    | split
    | with_reducible intro _
    | dsimp only

theorem closeReq_g {s0 : State} (s : State) (slot status drop : Nat) (hK : Grid s0 s) : Grid s0 (State.closeReq s slot status drop) := by
  unfold State.closeReq
  repeat' first
    | with_reducible assumption
    | with_reducible apply modReq_g
    | with_reducible apply writeTokens_g
    | with_reducible apply writeFinal_g
    | with_reducible apply endAttempt_g
    | with_reducible rfl
    | split
    | with_reducible intro _
    | dsimp only

theorem noteCommit_g {s0 : State} (s : State) (slot oldLen newLen : Nat) (hK : Grid s0 s) : Grid s0 (State.noteCommit s slot oldLen newLen) := by
  unfold State.noteCommit
  repeat' first
    | with_reducible assumption
    | with_reducible apply grid_foldl
    | with_reducible apply grid_foldl_fst
    | with_reducible apply modGroup_g
    | with_reducible rfl
    | split
    | with_reducible intro _
    | dsimp only

theorem noteTokens_g {s0 : State} (s : State) (slot oldLen newLen : Nat) (hK : Grid s0 s) : Grid s0 (State.noteTokens s slot oldLen newLen) := by
  unfold State.noteTokens
  repeat' first
    | with_reducible assumption
    | with_reducible apply grid_foldl
    | with_reducible apply grid_foldl_fst
    | with_reducible apply modGroup_g
    | with_reducible rfl
    | split
    | with_reducible intro _
    | dsimp only

theorem debit_g {s0 : State} (s : State) (tenant gen prefill : Nat) (hK : Grid s0 s) : Grid s0 (State.debit s tenant gen prefill) := by
  unfold State.debit
  repeat' first
    | with_reducible assumption
    | with_reducible apply onPlan_g
    | with_reducible rfl
    | split
    | with_reducible intro _
    | dsimp only

theorem releaseOuts_g {s0 : State} (s : State) (slot : Nat) (l : List (OutToken × Bool)) (close : Option (Nat × Nat)) (hK : Grid s0 s) : Grid s0 (State.releaseOuts s slot l close) := by
  unfold State.releaseOuts
  repeat' first
    | with_reducible assumption
    | with_reducible apply writeTokens_g
    | with_reducible apply writeFinal_g
    | with_reducible rfl
    | split
    | with_reducible intro _
    | dsimp only

theorem commitPath_g {s0 : State} (s : State) (slot : Nat) (r : Request) (row : PlanRow) (a : Attempt) (hK : Grid s0 s) : Grid s0 (State.commitPath s slot r row a) := by
  unfold State.commitPath
  repeat' first
    | with_reducible assumption
    | with_reducible apply noteCommit_g
    | with_reducible apply modReq_g
    | with_reducible apply grid_foldl
    | with_reducible apply grid_foldl_fst
    | with_reducible apply noteTokens_g
    | with_reducible apply markPublish_g
    | with_reducible apply debit_g
    | with_reducible apply countTenant_g
    | with_reducible apply countStep_g
    | with_reducible apply endAttempt_g
    | with_reducible apply onReq_g
    | with_reducible apply releaseOuts_g
    | with_reducible rfl
    | split
    | with_reducible intro _
    | dsimp only

theorem commitNumeric_g {s0 : State} (s : State) (slot : Nat) (r : Request) (a : Attempt) (hK : Grid s0 s) : Grid s0 (State.commitNumeric s slot r a) := by
  unfold State.commitNumeric
  repeat' first
    | with_reducible assumption
    | with_reducible apply modReq_g
    | with_reducible apply endAttempt_g
    | with_reducible apply closeReq_g
    | with_reducible rfl
    | split
    | with_reducible intro _
    | dsimp only

theorem settleImport_g {s0 : State} (s : State) (slot : Nat) (hK : Grid s0 s) : Grid s0 (State.settleImport s slot) := by
  unfold State.settleImport
  repeat' first
    | with_reducible assumption
    | with_reducible apply grid_foldl
    | with_reducible apply grid_foldl_fst
    | with_reducible apply dropRef_g
    | with_reducible apply modReq_g
    | with_reducible apply closeReq_g
    | with_reducible rfl
    | split
    | with_reducible intro _
    | dsimp only

theorem failImport_g {s0 : State} (s : State) (slot : Nat) (hK : Grid s0 s) : Grid s0 (State.failImport s slot) := by
  unfold State.failImport
  repeat' first
    | with_reducible assumption
    | with_reducible apply modReq_g
    | with_reducible apply settleImport_g
    | with_reducible rfl
    | split
    | with_reducible intro _
    | dsimp only

theorem settleAttempt_g {s0 : State} (s : State) (slot : Nat) (hK : Grid s0 s) : Grid s0 (State.settleAttempt s slot) := by
  unfold State.settleAttempt
  repeat' first
    | with_reducible assumption
    | with_reducible apply endAttempt_g
    | with_reducible apply commitNumeric_g
    | with_reducible apply commitPath_g
    | with_reducible rfl
    | split
    | with_reducible intro _
    | dsimp only

theorem parkReq_g {s0 : State} (s : State) (slot : Nat) (hK : Grid s0 s) : Grid s0 (State.parkReq s slot) := by
  unfold State.parkReq
  repeat' first
    | with_reducible assumption
    | with_reducible apply modReq_g
    | with_reducible apply parkRefs_g
    | with_reducible apply parkDemote_g
    | with_reducible rfl
    | split
    | with_reducible intro _
    | dsimp only

theorem settleMarks_g {s0 : State} (s : State) (slot : Nat) (hK : Grid s0 s) : Grid s0 (State.settleMarks s slot) := by
  unfold State.settleMarks
  repeat' first
    | with_reducible assumption
    | with_reducible apply grid_foldl
    | with_reducible apply grid_foldl_fst
    | with_reducible apply complete_g
    | with_reducible apply onReq_g
    | with_reducible apply modReq_g
    | with_reducible rfl
    | split
    | with_reducible intro _
    | dsimp only

theorem settleTimers_g {s0 : State} (s : State) (slot : Nat) (hK : Grid s0 s) : Grid s0 (State.settleTimers s slot) := by
  unfold State.settleTimers
  repeat' first
    | with_reducible assumption
    | with_reducible apply closeReq_g
    | with_reducible apply parkReq_g
    | with_reducible rfl
    | split
    | with_reducible intro _
    | dsimp only

theorem settleRest_g {s0 : State} (s : State) (slot : Nat) (hK : Grid s0 s) : Grid s0 (State.settleRest s slot) := by
  unfold State.settleRest
  repeat' first
    | with_reducible assumption
    | with_reducible apply settleImport_g
    | with_reducible apply settleMarks_g
    | with_reducible apply onReq_g
    | with_reducible rfl
    | split
    | with_reducible intro _
    | dsimp only

theorem settleCommit_g {s0 : State} (s : State) (slot : Nat) (hK : Grid s0 s) : Grid s0 (State.settleCommit s slot) := by
  unfold State.settleCommit
  repeat' first
    | with_reducible assumption
    | with_reducible apply closeReq_g
    | with_reducible apply settleRest_g
    | with_reducible apply endAttempt_g
    | with_reducible apply settleAttempt_g
    | with_reducible rfl
    | split
    | with_reducible intro _
    | dsimp only

theorem settlePump_g {s0 : State} (s : State) (hK : Grid s0 s) : Grid s0 (State.settlePump s) := by
  unfold State.settlePump
  repeat' first
    | with_reducible assumption
    | with_reducible apply grid_foldl
    | with_reducible apply grid_foldl_fst
    | with_reducible apply settleCommit_g
    | with_reducible rfl
    | split
    | with_reducible intro _
    | dsimp only

theorem settleForce_g {s0 : State} (s : State) (slot : Nat) (hK : Grid s0 s) : Grid s0 (State.settleForce s slot) := by
  unfold State.settleForce
  repeat' first
    | with_reducible assumption
    | with_reducible apply settleTimers_g
    | with_reducible apply settleCommit_g
    | with_reducible rfl
    | split
    | with_reducible intro _
    | dsimp only

end Sys2Proof.Laws
end

