-- ==== Sys2Proof/Laws/GridShips.lean ====
section
/-! SUPPORT. What the operations of Machine/Ships.lean leave alone (Laws/Grid.lean). -/

set_option linter.unusedTactic false
set_option linter.unreachableTactic false
set_option linter.unusedVariables false

namespace Sys2Proof.Laws

open Sys2Proof Sys2Proof.Machine

theorem setShip_g {s0 : State} (s : State) (x : Shipment) (hK : Grid s0 s) : Grid s0 (State.setShip s x) := by
  unfold State.setShip
  repeat' first
    | with_reducible assumption
    | with_reducible apply onGelcon_g
    | with_reducible rfl
    | split
    | with_reducible intro _
    | dsimp only

theorem dropShip_g {s0 : State} (s : State) (h : Nat) (hK : Grid s0 s) : Grid s0 (State.dropShip s h) := by
  unfold State.dropShip
  repeat' first
    | with_reducible assumption
    | with_reducible apply releaseBlocks_g
    | with_reducible apply onGelcon_g
    | with_reducible rfl
    | split
    | with_reducible intro _
    | dsimp only

theorem sendEnd_g {s0 : State} (s : State) (dst h tc cause : Nat) (hK : Grid s0 s) : Grid s0 (State.sendEnd s dst h tc cause) := by
  unfold State.sendEnd
  repeat' first
    | with_reducible assumption
    | with_reducible apply sendMsg_g
    | with_reducible rfl
    | split
    | with_reducible intro _
    | dsimp only

theorem sendGrant_g {s0 : State} (s : State) (x : Shipment) (first : Nat) (hK : Grid s0 s) : Grid s0 (State.sendGrant s x first) := by
  unfold State.sendGrant
  repeat' first
    | with_reducible assumption
    | with_reducible apply sendMsg_g
    | with_reducible rfl
    | split
    | with_reducible intro _
    | dsimp only

theorem moveWindow_g {s0 : State} (s : State) (x : Shipment) (hK : Grid s0 s) : Grid s0 (State.moveWindow s x) := by
  unfold State.moveWindow
  repeat' first
    | with_reducible assumption
    | with_reducible apply setShip_g
    | with_reducible apply setHeld_g
    | with_reducible apply sendGrant_g
    | with_reducible rfl
    | split
    | with_reducible intro _
    | dsimp only

theorem failShip_g {s0 : State} (s : State) (x : Shipment) (cause : Nat) (hK : Grid s0 s) : Grid s0 (State.failShip s x cause) := by
  unfold State.failShip
  repeat' first
    | with_reducible assumption
    | with_reducible apply dropShip_g
    | with_reducible apply sendEnd_g
    | with_reducible apply failImport_g
    | with_reducible rfl
    | split
    | with_reducible intro _
    | dsimp only

theorem tryVerify_g {s0 : State} (s : State) (h : Nat) (hK : Grid s0 s) : Grid s0 (State.tryVerify s h) := by
  unfold State.tryVerify
  repeat' first
    | with_reducible assumption
    | with_reducible apply setShip_g
    | with_reducible apply failShip_g
    | with_reducible rfl
    | split
    | with_reducible intro _
    | dsimp only

theorem shipGroups_g {s0 : State} (slot : Nat) (a0 : Nat) (a1 : Nat) (s : State) (hK : Grid s0 s) : Grid s0 (shipGroups slot a0 a1 s).1 := by
  induction a0 generalizing a1 s with
  | zero => exact hK
  | succ n ih =>
    unfold shipGroups
    repeat' first
      | with_reducible assumption
      | with_reducible apply ih
      | with_reducible apply newGroup_g
      | with_reducible apply modReq_g
      | with_reducible apply modGroup_g
      | with_reducible rfl
      | split
      | with_reducible intro _
      | dsimp only

theorem claimShip_g {s0 : State} (s : State) (slot handle matched limit : Nat) (hK : Grid s0 s) : Grid s0 (State.claimShip s slot handle matched limit) := by
  unfold State.claimShip
  repeat' first
    | with_reducible assumption
    | with_reducible apply shipGroups_g
    | with_reducible apply setShip_g
    | with_reducible apply tryVerify_g
    | with_reducible apply moveWindow_g
    | with_reducible rfl
    | split
    | with_reducible intro _
    | dsimp only

theorem endClosedShips_g {s0 : State} (s : State) (hK : Grid s0 s) : Grid s0 (State.endClosedShips s) := by
  unfold State.endClosedShips
  repeat' first
    | with_reducible assumption
    | with_reducible apply grid_foldl
    | with_reducible apply grid_foldl_fst
    | with_reducible apply dropShip_g
    | with_reducible apply sendEnd_g
    | with_reducible rfl
    | split
    | with_reducible intro _
    | dsimp only

end Sys2Proof.Laws
end

