-- ==== Sys2Proof/Laws/GridPlanner.lean ====
section
/-! SUPPORT. What the operations of Machine/Planner.lean leave alone (Laws/Grid.lean). -/

set_option linter.unusedTactic false
set_option linter.unreachableTactic false
set_option linter.unusedVariables false

namespace Sys2Proof.Laws

open Sys2Proof Sys2Proof.Machine

theorem decodeDepth_g {s0 : State} (s : State) (slot : Nat) (r : Request) (hK : Grid s0 s) : Grid s0 (decodeDepth s slot r).1 := by
  unfold decodeDepth
  repeat' first
    | with_reducible assumption
    | with_reducible apply needBlocks_g
    | with_reducible rfl
    | split
    | with_reducible intro _
    | dsimp only

theorem fitCand_g {s0 : State} (s : State) (c : Cand) (allow : Nat) (hK : Grid s0 s) : Grid s0 (fitCand s c allow).1 := by
  unfold fitCand
  repeat' first
    | with_reducible assumption
    | with_reducible apply decodeDepth_g
    | with_reducible apply needBlocks_g
    | with_reducible rfl
    | split
    | with_reducible intro _
    | dsimp only

theorem reserveRow_g {s0 : State} (s : State) (slot n : Nat) (hK : Grid s0 s) : Grid s0 (reserveRow s slot n).1 := by
  unfold reserveRow
  repeat' first
    | with_reducible assumption
    | with_reducible apply grantBlocks_g
    | with_reducible apply onPlan_g
    | with_reducible rfl
    | split
    | with_reducible intro _
    | dsimp only

theorem dropReserved_g {s0 : State} (s : State) (keep : Nat → Nat → Bool) (hK : Grid s0 s) : Grid s0 (State.dropReserved s keep) := by
  unfold State.dropReserved
  repeat' first
    | with_reducible assumption
    | with_reducible apply grid_foldl
    | with_reducible apply grid_foldl_fst
    | with_reducible apply releaseBlocks_g
    | with_reducible apply onPlan_g
    | with_reducible rfl
    | split
    | with_reducible intro _
    | dsimp only

theorem listedBlocks_g {s0 : State} (s : State) (row : PlanRow) (r : Request) (hK : Grid s0 s) : Grid s0 (listedBlocks s row r).1 := by
  unfold listedBlocks
  repeat' first
    | with_reducible assumption
    | with_reducible apply needBlocks_g
    | with_reducible rfl
    | split
    | with_reducible intro _
    | dsimp only

theorem reserveJob_g {s0 : State} (m : Nat) (a0 : Nat) (s : State) (a2 : List PlanRow) (a3 : Nat) (hK : Grid s0 s) : Grid s0 (reserveJob m a0 s a2 a3).1 := by
  induction a0 generalizing s a2 a3 with
  | zero => exact hK
  | succ n ih =>
    unfold reserveJob
    repeat' first
      | with_reducible assumption
      | with_reducible apply ih
      | with_reducible apply grantBlocks_g
      | with_reducible rfl
      | split
      | with_reducible intro _
      | dsimp only

theorem reserveJobs_g {s0 : State} (s : State) (rows : List PlanRow) (hK : Grid s0 s) : Grid s0 (reserveJobs s rows).1 :=
  grid_foldl_fst (fun _ _ h => reserveJob_g _ _ _ _ _ h) hK

theorem noteStalls_g {s0 : State} (s : State) (hK : Grid s0 s) : Grid s0 s.noteStalls := onReq_g _ hK

theorem tryCand_g {s0 : State} (d : Draft) (c : Cand) (hK : Grid s0 d.st) : Grid s0 (tryCand d c).st := by
  have hf := fitCand_g d.st c d.allow hK
  unfold tryCand raiseVt
  dsimp only
  (repeat' split) <;> first | exact hf | exact reserveRow_g _ _ _ hf

theorem fillClass_g {s0 : State} (n : Nat) (l : List Cand) (d : Draft) (hK : Grid s0 d.st) : Grid s0 (fillClass n l d).st := by
  induction n generalizing l d with
  | zero => exact hK
  | succ n ih =>
    unfold fillClass
    split
    · split
      · exact hK
      · exact ih _ _ (tryCand_g _ _ hK)
    · exact hK

theorem draft_foldl_g {s0 : State} {α : Type} {f : Draft → α → Draft} {l : List α} {d : Draft}
    (hf : ∀ d x, Grid s0 d.st → Grid s0 (f d x).st) (h : Grid s0 d.st) : Grid s0 (l.foldl f d).st := by
  induction l generalizing d with
  | nil => exact h
  | cons x r ih => exact ih (hf d x h)

theorem addRebuilds_g {s0 : State} (c : Nat) (d : Draft) (hK : Grid s0 d.st) : Grid s0 (addRebuilds c d).st := by
  refine draft_foldl_g (fun d x h => ?_) hK
  split <;> exact h

theorem keepSent_g {s0 : State} (d : Draft) (row : PlanRow) (hK : Grid s0 d.st) : Grid s0 (keepSent d row).st := by
  unfold keepSent
  (repeat' split) <;> first | exact hK | exact tryCand_g _ _ hK

theorem addListed_g {s0 : State} (d : Draft) (l : Nat × Nat × Nat × Nat) (hK : Grid s0 d.st) : Grid s0 (addListed d l).st := by
  have hb := fun row r => listedBlocks_g d.st row r hK
  unfold addListed
  dsimp only
  (repeat' split) <;> first | exact hK | exact hb _ _ | exact reserveRow_g _ _ _ (hb _ _)

theorem fillPlan_g {s0 : State} (s : State) (hK : Grid s0 s) : Grid s0 (fillPlan s).st := by
  unfold fillPlan
  refine draft_foldl_g (fun d x h => fillClass_g _ _ _ (addRebuilds_g _ _ h)) ?_
  refine draft_foldl_g (fun d x h => fillClass_g _ _ _ h) ?_
  refine draft_foldl_g (fun d x h => keepSent_g _ _ h) ?_
  exact draft_foldl_g (fun d x h => addListed_g _ _ h) hK

theorem buildPlan_g {s0 : State} (s : State) (hK : Grid s0 s) : Grid s0 (State.buildPlan s) := by
  unfold State.buildPlan
  repeat' first
    | with_reducible assumption
    | with_reducible apply noteStalls_g
    | with_reducible apply dropReserved_g
    | with_reducible apply onStore_g
    | with_reducible apply onPlan_g
    | with_reducible apply reserveJobs_g
    | with_reducible apply fillPlan_g
    | with_reducible rfl
    | split
    | with_reducible intro _
    | dsimp only

theorem notePairs_g {s0 : State} (s : State) (hK : Grid s0 s) : Grid s0 (State.notePairs s) := by
  unfold State.notePairs
  repeat' first
    | with_reducible assumption
    | with_reducible apply grid_foldl
    | with_reducible apply grid_foldl_fst
    | with_reducible apply onPlan_g
    | with_reducible rfl
    | split
    | with_reducible intro _
    | dsimp only

theorem chargePair_g {s0 : State} (s : State) (tenant cls clusterNs bankNs hubBytes : Nat) (hK : Grid s0 s) : Grid s0 (State.chargePair s tenant cls clusterNs bankNs hubBytes) := by
  unfold State.chargePair
  repeat' first
    | with_reducible assumption
    | with_reducible apply onPlan_g
    | with_reducible rfl
    | split
    | with_reducible intro _
    | dsimp only

theorem chargeRow_g {s0 : State} (t : State) (row : PlanRow) (hK : Grid s0 t) : Grid s0 (State.chargeRow t row) := by
  unfold State.chargeRow
  repeat' first
    | with_reducible assumption
    | with_reducible apply countTenant_g
    | with_reducible apply chargePair_g
    | with_reducible apply onPlan_g
    | with_reducible rfl
    | split
    | with_reducible intro _
    | dsimp only

theorem chargeRows_g {s0 : State} (s : State) (hK : Grid s0 s) : Grid s0 (State.chargeRows s) := by
  unfold State.chargeRows
  repeat' first
    | with_reducible assumption
    | with_reducible apply grid_foldl
    | with_reducible apply grid_foldl_fst
    | with_reducible apply chargeRow_g
    | with_reducible rfl
    | split
    | with_reducible intro _
    | dsimp only

theorem chargeShared_g {s0 : State} (s : State) (hK : Grid s0 s) : Grid s0 (State.chargeShared s) := by
  unfold State.chargeShared
  repeat' first
    | with_reducible assumption
    | with_reducible apply grid_foldl
    | with_reducible apply grid_foldl_fst
    | with_reducible apply chargePair_g
    | with_reducible apply onPlan_g
    | with_reducible rfl
    | split
    | with_reducible intro _
    | dsimp only

end Sys2Proof.Laws
end

