-- ==== Sys2Proof/Laws/GridAdmission.lean ====
section
/-! SUPPORT. What the operations of Machine/Admission.lean leave alone (Laws/Grid.lean). -/

set_option linter.unusedTactic false
set_option linter.unreachableTactic false
set_option linter.unusedVariables false

namespace Sys2Proof.Laws

open Sys2Proof Sys2Proof.Machine

theorem modRing_g {s0 : State} (s : State) (n : Nat) (f : Ring → Ring) (hK : Grid s0 s) : Grid s0 (State.modRing s n f) := by
  unfold State.modRing
  repeat' first
    | with_reducible assumption
    | with_reducible apply onReq_g
    | with_reducible rfl
    | split
    | with_reducible intro _
    | dsimp only

theorem takeCreditBell_g {s0 : State} (s : State) (c : Nat × Nat × Nat × Nat × Nat) (hK : Grid s0 s) : Grid s0 (State.takeCreditBell s c) := by
  unfold State.takeCreditBell
  repeat' first
    | with_reducible assumption
    | with_reducible apply modReq_g
    | with_reducible apply misuse_g
    | with_reducible rfl
    | split
    | with_reducible intro _
    | dsimp only

theorem takeCreditsOf_g {s0 : State} (s : State) (p : Nat × Nat × Nat × Nat × Nat → Bool) (hK : Grid s0 s) : Grid s0 (State.takeCreditsOf s p) := by
  unfold State.takeCreditsOf
  repeat' first
    | with_reducible assumption
    | with_reducible apply grid_foldl
    | with_reducible apply grid_foldl_fst
    | with_reducible apply takeCreditBell_g
    | with_reducible apply onReq_g
    | with_reducible rfl
    | split
    | with_reducible intro _
    | dsimp only

theorem takeCredits_g {s0 : State} (s : State) (hK : Grid s0 s) : Grid s0 (State.takeCredits s) := by
  unfold State.takeCredits
  repeat' first
    | with_reducible assumption
    | with_reducible apply takeCreditsOf_g
    | with_reducible rfl
    | split
    | with_reducible intro _
    | dsimp only

theorem takeFreeCredits_g {s0 : State} (s : State) (hK : Grid s0 s) : Grid s0 (State.takeFreeCredits s) := by
  unfold State.takeFreeCredits
  repeat' first
    | with_reducible assumption
    | with_reducible apply takeCreditsOf_g
    | with_reducible rfl
    | split
    | with_reducible intro _
    | dsimp only

theorem allocObjects_g {s0 : State} (s : State) (slot : Nat) (r : Request) (hK : Grid s0 s) : Grid s0 (State.allocObjects s slot r).1 := by
  unfold State.allocObjects
  repeat' first
    | with_reducible assumption
    | with_reducible apply grant1_g
    | with_reducible apply refuse_g
    | with_reducible apply draw_g
    | with_reducible apply onMem_g
    | with_reducible apply writeProvs_wf
    | with_reducible rfl
    | split
    | with_reducible intro _
    | dsimp only

theorem admitReq_g {s0 : State} (s : State) (slot port : Nat) (r : Request) (ctx : List Nat) (hK : Grid s0 s) : Grid s0 (State.admitReq s slot port r ctx).1 := by
  unfold State.admitReq
  repeat' first
    | with_reducible assumption
    | with_reducible apply allocObjects_g
    | with_reducible apply usePipe_g
    | with_reducible apply takeMatches_g
    | with_reducible apply setReq_g
    | with_reducible rfl
    | split
    | with_reducible intro _
    | dsimp only

theorem consume_g {s0 : State} (s : State) (n : Nat) (hK : Grid s0 s) : Grid s0 (State.consume s n) := by
  unfold State.consume
  repeat' first
    | with_reducible assumption
    | with_reducible apply modRing_g
    | with_reducible apply onReq_g
    | with_reducible rfl
    | split
    | with_reducible intro _
    | dsimp only

theorem readBuffers_g {s0 : State} (s : State) (port : Nat) (b : List Byte) (d : DescRead) (hK : Grid s0 s) : Grid s0 (State.readBuffers s port b d) := by
  unfold State.readBuffers
  repeat' first
    | with_reducible assumption
    | with_reducible apply hostRead_g
    | with_reducible rfl
    | split
    | with_reducible intro _
    | dsimp only

theorem startRequest_g {s0 : State} (s : State) (slot : Nat) (hK : Grid s0 s) : Grid s0 (State.startRequest s slot) := by
  unfold State.startRequest
  repeat' first
    | with_reducible assumption
    | with_reducible apply writeStream_g
    | with_reducible apply modReq_g
    | with_reducible apply claimShip_g
    | with_reducible rfl
    | split
    | with_reducible intro _
    | dsimp only

theorem recoverOne_g {s0 : State} (s : State) (c : MbCommand) (r : RecoverRead) (hK : Grid s0 s) : Grid s0 (recoverOne s c r).1 := by
  unfold recoverOne
  repeat' first
    | with_reducible assumption
    | with_reducible apply readBuffers_g
    | with_reducible apply hostRead_g
    | with_reducible apply admitReq_g
    | with_reducible apply modReq_g
    | with_reducible apply grid_foldl
    | with_reducible apply grid_foldl_fst
    | with_reducible apply closeReq_g
    | with_reducible rfl
    | split
    | with_reducible intro _
    | dsimp only

end Sys2Proof.Laws
end

