-- ==== Sys2Proof/Laws/GridMigration.lean ====
section
/-! SUPPORT. What the operations of Machine/Migration.lean leave alone (Laws/Grid.lean). -/

set_option linter.unusedTactic false
set_option linter.unreachableTactic false
set_option linter.unusedVariables false

namespace Sys2Proof.Laws

open Sys2Proof Sys2Proof.Machine

theorem sendMgmt_g {s0 : State} (s : State) (dst : Nat) (m : MgmtMsg) (hK : Grid s0 s) : Grid s0 (State.sendMgmt s dst m) := by
  unfold State.sendMgmt
  repeat' first
    | with_reducible assumption
    | with_reducible apply onGelcon_g
    | with_reducible rfl
    | split
    | with_reducible intro _
    | dsimp only

theorem setMigration_g {s0 : State} (s : State) (slot step : Nat) (hK : Grid s0 s) : Grid s0 (State.setMigration s slot step) := by
  unfold State.setMigration
  repeat' first
    | with_reducible assumption
    | with_reducible apply onGelcon_g
    | with_reducible rfl
    | split
    | with_reducible intro _
    | dsimp only

theorem endMigration_g {s0 : State} (s : State) (slot status : Nat) (hK : Grid s0 s) : Grid s0 (State.endMigration s slot status) := by
  unfold State.endMigration
  repeat' first
    | with_reducible assumption
    | with_reducible apply complete_g
    | with_reducible apply modReq_g
    | with_reducible apply onGelcon_g
    | with_reducible apply sendMgmt_g
    | with_reducible rfl
    | split
    | with_reducible intro _
    | dsimp only

theorem startMigration_g {s0 : State} (s : State) (slot dst : Nat) (hK : Grid s0 s) : Grid s0 (State.startMigration s slot dst) := by
  unfold State.startMigration
  repeat' first
    | with_reducible assumption
    | with_reducible apply endMigration_g
    | with_reducible apply onGelcon_g
    | with_reducible apply sendMsg_g
    | with_reducible apply sendMgmt_g
    | with_reducible apply setMigration_g
    | with_reducible rfl
    | split
    | with_reducible intro _
    | dsimp only

theorem dropIncoming_g {s0 : State} (s : State) (slot : Nat) (hK : Grid s0 s) : Grid s0 (State.dropIncoming s slot) := by
  unfold State.dropIncoming
  repeat' first
    | with_reducible assumption
    | with_reducible apply grid_foldl
    | with_reducible apply grid_foldl_fst
    | with_reducible apply dropShip_g
    | with_reducible apply sendEnd_g
    | with_reducible apply onGelcon_g
    | with_reducible apply dropRequestRefs_g
    | with_reducible apply onReq_g
    | with_reducible rfl
    | split
    | with_reducible intro _
    | dsimp only

theorem takePrepare_g {s0 : State} (s : State) (src slot : Nat) (r : Request) (mfp afp : Nat) (hK : Grid s0 s) : Grid s0 (State.takePrepare s src slot r mfp afp) := by
  unfold State.takePrepare
  repeat' first
    | with_reducible assumption
    | with_reducible apply sendMgmt_g
    | with_reducible apply allocObjects_g
    | with_reducible apply takeMatches_g
    | with_reducible apply setReq_g
    | with_reducible apply onGelcon_g
    | with_reducible apply claimShip_g
    | with_reducible apply dropIncoming_g
    | with_reducible rfl
    | split
    | with_reducible intro _
    | dsimp only

theorem ownIncoming_g {s0 : State} (s : State) (slot : Nat) (hK : Grid s0 s) : Grid s0 (State.ownIncoming s slot) := by
  unfold State.ownIncoming
  repeat' first
    | with_reducible assumption
    | with_reducible apply modReq_g
    | with_reducible apply onGelcon_g
    | with_reducible rfl
    | split
    | with_reducible intro _
    | dsimp only

theorem shipResult_g {s0 : State} (s : State) (slot result : Nat) (hK : Grid s0 s) : Grid s0 (State.shipResult s slot result) := by
  unfold State.shipResult
  repeat' first
    | with_reducible assumption
    | with_reducible apply setMigration_g
    | with_reducible rfl
    | split
    | with_reducible intro _
    | dsimp only

theorem takeMgmt_g {s0 : State} (s : State) (src : Nat) (m : MgmtMsg) (hK : Grid s0 s) : Grid s0 (State.takeMgmt s src m) := by
  unfold State.takeMgmt
  repeat' first
    | with_reducible assumption
    | with_reducible apply takePrepare_g
    | with_reducible apply endMigration_g
    | with_reducible apply shipResult_g
    | with_reducible apply dropIncoming_g
    | with_reducible rfl
    | split
    | with_reducible intro _
    | dsimp only

theorem takeMgmts_g {s0 : State} (s : State) (p : Nat × Nat × Nat × MgmtMsg → Bool) (hK : Grid s0 s) : Grid s0 (State.takeMgmts s p) := by
  unfold State.takeMgmts
  repeat' first
    | with_reducible assumption
    | with_reducible apply grid_foldl
    | with_reducible apply grid_foldl_fst
    | with_reducible apply takeMgmt_g
    | with_reducible apply onGelcon_g
    | with_reducible rfl
    | split
    | with_reducible intro _
    | dsimp only

theorem checkIncoming_g {s0 : State} (s : State) (hK : Grid s0 s) : Grid s0 (State.checkIncoming s) := by
  unfold State.checkIncoming
  repeat' first
    | with_reducible assumption
    | with_reducible apply grid_foldl
    | with_reducible apply grid_foldl_fst
    | with_reducible apply dropIncoming_g
    | with_reducible apply dropShip_g
    | with_reducible apply sendEnd_g
    | with_reducible rfl
    | split
    | with_reducible intro _
    | dsimp only

end Sys2Proof.Laws
end

