-- ==== Sys2Proof/Laws/GridGroup.lean ====
section
/-! SUPPORT. What the operations of Machine/Group.lean leave alone (Laws/Grid.lean). -/

set_option linter.unusedTactic false
set_option linter.unreachableTactic false
set_option linter.unusedVariables false

namespace Sys2Proof.Laws

open Sys2Proof Sys2Proof.Machine

theorem broadcast_g {s0 : State} (s : State) (ptype : Nat) (payload : List Byte) (hK : Grid s0 s) : Grid s0 (State.broadcast s ptype payload) := by
  unfold State.broadcast
  repeat' first
    | with_reducible assumption
    | with_reducible apply grid_foldl
    | with_reducible apply grid_foldl_fst
    | with_reducible apply sendMsg_g
    | with_reducible rfl
    | split
    | with_reducible intro _
    | dsimp only

theorem setMaster_g {s0 : State} (s : State) (m : Nat) (hK : Grid s0 s) : Grid s0 (State.setMaster s m) := by
  unfold State.setMaster
  repeat' first
    | with_reducible assumption
    | with_reducible apply onTick_g
    | with_reducible rfl
    | split
    | with_reducible intro _
    | dsimp only

theorem addVotes_g {s0 : State} (s : State) (sender : Nat) (l : List VoteEntry) (hK : Grid s0 s) : Grid s0 (State.addVotes s sender l) := by
  unfold State.addVotes
  repeat' first
    | with_reducible assumption
    | with_reducible apply onTick_g
    | with_reducible rfl
    | split
    | with_reducible intro _
    | dsimp only

theorem castVotes_g {s0 : State} (s : State) (hK : Grid s0 s) : Grid s0 (State.castVotes s) := by
  unfold State.castVotes
  repeat' first
    | with_reducible assumption
    | with_reducible apply onTick_g
    | with_reducible apply onPlan_g
    | with_reducible apply grid_foldl
    | with_reducible apply grid_foldl_fst
    | with_reducible apply setMigration_g
    | with_reducible apply addVotes_g
    | with_reducible apply sendMsg_g
    | with_reducible rfl
    | split
    | with_reducible intro _
    | dsimp only

theorem takeCost_g {s0 : State} (s : State) (c : Nat × Nat × Nat × Nat) (hK : Grid s0 s) : Grid s0 (State.takeCost s c) := by
  unfold State.takeCost
  repeat' first
    | with_reducible assumption
    | with_reducible apply onPlan_g
    | with_reducible rfl
    | split
    | with_reducible intro _
    | dsimp only

theorem takeEarlyCosts_g {s0 : State} (s : State) (hK : Grid s0 s) : Grid s0 (State.takeEarlyCosts s) := by
  unfold State.takeEarlyCosts
  repeat' first
    | with_reducible assumption
    | with_reducible apply grid_foldl
    | with_reducible apply grid_foldl_fst
    | with_reducible apply takeCost_g
    | with_reducible apply onPlan_g
    | with_reducible rfl
    | split
    | with_reducible intro _
    | dsimp only

theorem advanceShard_g {s0 : State} (s : State) (slot home : Nat) (r : Request) (row : PlanRow) (a : Attempt) (toks chunk : Nat) (hK : Grid s0 s) : Grid s0 (State.advanceShard s slot home r row a toks chunk) := by
  unfold State.advanceShard
  repeat' first
    | with_reducible assumption
    | with_reducible apply noteCommit_g
    | with_reducible apply modReq_g
    | with_reducible apply noteTokens_g
    | with_reducible apply markPublish_g
    | with_reducible apply onReq_g
    | with_reducible apply onPlan_g
    | with_reducible rfl
    | split
    | with_reducible intro _
    | dsimp only

theorem applyHome_g {s0 : State} (s : State) (row : PlanRow) (listed : Bool) (hK : Grid s0 s) : Grid s0 (State.applyHome s row listed) := by
  unfold State.applyHome
  repeat' first
    | with_reducible assumption
    | with_reducible apply settleTimers_g
    | with_reducible apply endAttempt_g
    | with_reducible apply closeReq_g
    | with_reducible apply commitPath_g
    | with_reducible apply commitNumeric_g
    | with_reducible rfl
    | split
    | with_reducible intro _
    | dsimp only

theorem applyRow_g {s0 : State} (s : State) (set : List (Nat × Nat × Nat × Nat)) (row : PlanRow) (hK : Grid s0 s) : Grid s0 (State.applyRow s set row) := by
  unfold State.applyRow
  repeat' first
    | with_reducible assumption
    | with_reducible apply applyHome_g
    | with_reducible apply advanceShard_g
    | with_reducible apply onPlan_g
    | with_reducible apply modReq_g
    | with_reducible apply settleRest_g
    | with_reducible rfl
    | split
    | with_reducible intro _
    | dsimp only

theorem applyHandovers_g {s0 : State} (s : State) (set : List (Nat × Nat × Nat × Nat)) (hK : Grid s0 s) : Grid s0 (State.applyHandovers s set) := by
  unfold State.applyHandovers
  repeat' first
    | with_reducible assumption
    | with_reducible apply grid_foldl
    | with_reducible apply grid_foldl_fst
    | with_reducible apply endMigration_g
    | with_reducible apply closeReq_g
    | with_reducible apply ownIncoming_g
    | with_reducible rfl
    | split
    | with_reducible intro _
    | dsimp only

theorem keepSet_g {s0 : State} (s : State) (tick : Nat) (set : List (Nat × Nat × Nat × Nat)) (hK : Grid s0 s) : Grid s0 (State.keepSet s tick set) := by
  unfold State.keepSet
  repeat' first
    | with_reducible assumption
    | with_reducible apply onTick_g
    | with_reducible rfl
    | split
    | with_reducible intro _
    | dsimp only

theorem applySet_g {s0 : State} (s : State) (tick : Nat) (set : List (Nat × Nat × Nat × Nat)) (hK : Grid s0 s) : Grid s0 (State.applySet s tick set) := by
  unfold State.applySet
  repeat' first
    | with_reducible assumption
    | with_reducible apply onTick_g
    | with_reducible apply grid_foldl
    | with_reducible apply grid_foldl_fst
    | with_reducible apply applyRow_g
    | with_reducible apply applyHandovers_g
    | with_reducible apply onPlan_g
    | with_reducible rfl
    | split
    | with_reducible intro _
    | dsimp only

theorem applyFetched_g {s0 : State} (s : State) (hK : Grid s0 s) : Grid s0 (State.applyFetched s) := by
  unfold State.applyFetched
  repeat' first
    | with_reducible assumption
    | with_reducible apply grid_foldl
    | with_reducible apply grid_foldl_fst
    | with_reducible apply keepSet_g
    | with_reducible apply applySet_g
    | with_reducible apply onTick_g
    | with_reducible rfl
    | split
    | with_reducible intro _
    | dsimp only

theorem holdRows_g {s0 : State} (s : State) (hK : Grid s0 s) : Grid s0 (State.holdRows s) := by
  unfold State.holdRows
  repeat' first
    | with_reducible assumption
    | with_reducible apply grid_foldl
    | with_reducible apply grid_foldl_fst
    | with_reducible apply modReq_g
    | with_reducible apply settleRest_g
    | with_reducible apply onPlan_g
    | with_reducible apply sendMsg_g
    | with_reducible rfl
    | split
    | with_reducible intro _
    | dsimp only

theorem sendShardPlans_g {s0 : State} (s : State) (hK : Grid s0 s) : Grid s0 (State.sendShardPlans s) := by
  unfold State.sendShardPlans
  repeat' first
    | with_reducible assumption
    | with_reducible apply grid_foldl
    | with_reducible apply grid_foldl_fst
    | with_reducible apply sendMsg_g
    | with_reducible apply onPlan_g
    | with_reducible rfl
    | split
    | with_reducible intro _
    | dsimp only

theorem succeed_g {s0 : State} (s : State) (m : Nat) (hK : Grid s0 s) : Grid s0 (State.succeed s m) := by
  unfold State.succeed
  repeat' first
    | with_reducible assumption
    | with_reducible apply setMaster_g
    | with_reducible apply grid_foldl
    | with_reducible apply grid_foldl_fst
    | with_reducible apply broadcast_g
    | with_reducible apply onTick_g
    | with_reducible rfl
    | split
    | with_reducible intro _
    | dsimp only

theorem settleTick_g {s0 : State} (s : State) (k : Nat) (hK : Grid s0 s) : Grid s0 (State.settleTick s k) := by
  unfold State.settleTick
  repeat' first
    | with_reducible assumption
    | with_reducible apply keepSet_g
    | with_reducible apply broadcast_g
    | with_reducible apply applySet_g
    | with_reducible rfl
    | split
    | with_reducible intro _
    | dsimp only

theorem settleTicks_g {s0 : State} (s : State) (hK : Grid s0 s) : Grid s0 (State.settleTicks s) := by
  unfold State.settleTicks
  repeat' first
    | with_reducible assumption
    | with_reducible apply grid_foldl
    | with_reducible apply grid_foldl_fst
    | with_reducible apply settleTick_g
    | with_reducible apply onTick_g
    | with_reducible rfl
    | split
    | with_reducible intro _
    | dsimp only

theorem noteSyncs_g {s0 : State} (s : State) (hK : Grid s0 s) : Grid s0 (State.noteSyncs s) := by
  unfold State.noteSyncs
  repeat' first
    | with_reducible assumption
    | with_reducible apply onTick_g
    | with_reducible apply grid_foldl
    | with_reducible apply grid_foldl_fst
    | with_reducible apply setMaster_g
    | with_reducible apply succeed_g
    | with_reducible rfl
    | split
    | with_reducible intro _
    | dsimp only

theorem sendSync_g {s0 : State} (s : State) (hK : Grid s0 s) : Grid s0 (State.sendSync s) := by
  unfold State.sendSync
  repeat' first
    | with_reducible assumption
    | with_reducible apply broadcast_g
    | with_reducible apply onTick_g
    | with_reducible apply grid_foldl
    | with_reducible apply grid_foldl_fst
    | with_reducible apply sendMsg_g
    | with_reducible rfl
    | split
    | with_reducible intro _
    | dsimp only

end Sys2Proof.Laws
end

