-- ==== Sys2Proof/Laws/GridTiers.lean ====
section
/-! SUPPORT. What the operations of Machine/Tiers.lean leave alone (Laws/Grid.lean). -/

set_option linter.unusedTactic false
set_option linter.unreachableTactic false
set_option linter.unusedVariables false

namespace Sys2Proof.Laws

open Sys2Proof Sys2Proof.Machine

theorem markFault_g {s0 : State} (s : State) (slot status : Nat) (hK : Grid s0 s) : Grid s0 (State.markFault s slot status) := by
  unfold State.markFault
  repeat' first
    | with_reducible assumption
    | with_reducible apply modReq_g
    | with_reducible rfl
    | split
    | with_reducible intro _
    | dsimp only

theorem closeSoon_g {s0 : State} (s : State) (slot status : Nat) (hK : Grid s0 s) : Grid s0 (State.closeSoon s slot status) := by
  unfold State.closeSoon
  repeat' first
    | with_reducible assumption
    | with_reducible apply closeReq_g
    | with_reducible apply markFault_g
    | with_reducible rfl
    | split
    | with_reducible intro _
    | dsimp only

theorem closeAlloyLost_g {s0 : State} (s : State) (hK : Grid s0 s) : Grid s0 (State.closeAlloyLost s) := by
  unfold State.closeAlloyLost
  repeat' first
    | with_reducible assumption
    | with_reducible apply grid_foldl
    | with_reducible apply grid_foldl_fst
    | with_reducible apply closeSoon_g
    | with_reducible rfl
    | split
    | with_reducible intro _
    | dsimp only

theorem setRebuild_g {s0 : State} (s : State) (h : Nat) (hK : Grid s0 s) : Grid s0 (State.setRebuild s h) := by
  unfold State.setRebuild
  repeat' first
    | with_reducible assumption
    | with_reducible apply modGroup_g
    | with_reducible apply closeAlloyLost_g
    | with_reducible rfl
    | split
    | with_reducible intro _
    | dsimp only

theorem readFailed_g {s0 : State} (s : State) (h : Nat) (hK : Grid s0 s) : Grid s0 (State.readFailed s h) := by
  unfold State.readFailed
  repeat' first
    | with_reducible assumption
    | with_reducible apply endTransfer_g
    | with_reducible apply onTier_g
    | with_reducible apply setRebuild_g
    | with_reducible apply modGroup_g
    | with_reducible apply closeSoon_g
    | with_reducible apply recheck_g
    | with_reducible rfl
    | split
    | with_reducible intro _
    | dsimp only

theorem failLate_g {s0 : State} (s : State) (hK : Grid s0 s) : Grid s0 (State.failLate s) := by
  unfold State.failLate
  repeat' first
    | with_reducible assumption
    | with_reducible apply serveTier_g
    | with_reducible apply grid_foldl
    | with_reducible apply grid_foldl_fst
    | with_reducible apply readFailed_g
    | with_reducible apply onTier_g
    | with_reducible rfl
    | split
    | with_reducible intro _
    | dsimp only

theorem demotionFailed_g {s0 : State} (s : State) (h : Nat) (hK : Grid s0 s) : Grid s0 (State.demotionFailed s h) := by
  unfold State.demotionFailed
  repeat' first
    | with_reducible assumption
    | with_reducible apply releaseT2_g
    | with_reducible apply modGroup_g
    | with_reducible apply endTransfer_g
    | with_reducible apply onTier_g
    | with_reducible apply recheck_g
    | with_reducible rfl
    | split
    | with_reducible intro _
    | dsimp only

end Sys2Proof.Laws
end

