-- ==== Sys2Proof/Laws/GridModels.lean ====
section
/-! SUPPORT. What the operations of Machine/Models.lean leave alone (Laws/Grid.lean). -/

set_option linter.unusedTactic false
set_option linter.unreachableTactic false
set_option linter.unusedVariables false

namespace Sys2Proof.Laws

open Sys2Proof Sys2Proof.Machine

theorem freeGen_g {s0 : State} (s : State) (id gen : Nat) (slotOf : Option Nat) (status : Nat) (hK : Grid s0 s) : Grid s0 (State.freeGen s id gen slotOf status) := by
  unfold State.freeGen
  repeat' first
    | with_reducible assumption
    | with_reducible apply endMove_g
    | with_reducible apply onModels_g
    | with_reducible apply addFillAt_g
    | with_reducible apply dropEntries_g
    | with_reducible apply closeAlloyLost_g
    | with_reducible apply complete_g
    | with_reducible rfl
    | split
    | with_reducible intro _
    | dsimp only

theorem startEvict_g {s0 : State} (s : State) (n : Nat) (hK : Grid s0 s) : Grid s0 (State.startEvict s n) := by
  unfold State.startEvict
  repeat' first
    | with_reducible assumption
    | with_reducible apply modMslot_g
    | with_reducible apply grid_foldl
    | with_reducible apply grid_foldl_fst
    | with_reducible apply modGroup_g
    | with_reducible apply dropEntries_g
    | with_reducible apply recheck_g
    | with_reducible apply freeGen_g
    | with_reducible apply addFillAt_g
    | with_reducible rfl
    | split
    | with_reducible intro _
    | dsimp only

theorem failLoad_g {s0 : State} (s : State) (n status : Nat) (hK : Grid s0 s) : Grid s0 (State.failLoad s n status) := by
  unfold State.failLoad
  repeat' first
    | with_reducible assumption
    | with_reducible apply complete_g
    | with_reducible apply endMove_g
    | with_reducible apply startEvict_g
    | with_reducible apply modMslot_g
    | with_reducible rfl
    | split
    | with_reducible intro _
    | dsimp only

theorem freeRetired_g {s0 : State} (s : State) (hK : Grid s0 s) : Grid s0 (State.freeRetired s) := by
  unfold State.freeRetired
  repeat' first
    | with_reducible assumption
    | with_reducible apply grid_foldl
    | with_reducible apply grid_foldl_fst
    | with_reducible apply freeGen_g
    | with_reducible rfl
    | split
    | with_reducible intro _
    | dsimp only

theorem followAll_g {s0 : State} (s : State) (hK : Grid s0 s) : Grid s0 (State.followAll s) := by
  unfold State.followAll
  repeat' first
    | with_reducible assumption
    | with_reducible apply onReq_g
    | with_reducible apply closeAlloyLost_g
    | with_reducible rfl
    | split
    | with_reducible intro _
    | dsimp only

theorem failImage_g {s0 : State} (s : State) (target : Nat) (hK : Grid s0 s) : Grid s0 (State.failImage s target) := by
  unfold State.failImage
  repeat' first
    | with_reducible assumption
    | with_reducible apply failLoad_g
    | with_reducible apply freeGen_g
    | with_reducible rfl
    | split
    | with_reducible intro _
    | dsimp only

theorem failLateLoads_g {s0 : State} (s : State) (hK : Grid s0 s) : Grid s0 (State.failLateLoads s) := by
  unfold State.failLateLoads
  repeat' first
    | with_reducible assumption
    | with_reducible apply grid_foldl
    | with_reducible apply grid_foldl_fst
    | with_reducible apply failImage_g
    | with_reducible rfl
    | split
    | with_reducible intro _
    | dsimp only

end Sys2Proof.Laws
end

