-- ==== Sys2Proof/Laws/GridHostPorts.lean ====
section
/-! SUPPORT. What the operations of Machine/HostPorts.lean leave alone (Laws/Grid.lean). -/

set_option linter.unusedTactic false
set_option linter.unreachableTactic false
set_option linter.unusedVariables false

namespace Sys2Proof.Laws

open Sys2Proof Sys2Proof.Machine

theorem noteSingle_g {s0 : State} (s : State) (hK : Grid s0 s) : Grid s0 (State.noteSingle s) := by
  unfold State.noteSingle
  repeat' first
    | with_reducible assumption
    | with_reducible apply onHost_g
    | with_reducible rfl
    | split
    | with_reducible intro _
    | dsimp only

theorem declareDown_g {s0 : State} (s : State) (p : Nat) (hK : Grid s0 s) : Grid s0 (State.declareDown s p) := by
  unfold State.declareDown
  repeat' first
    | with_reducible assumption
    | with_reducible apply serveTier_g
    | with_reducible apply modHport_g
    | with_reducible apply onHost_g
    | with_reducible apply noteSingle_g
    | with_reducible apply portsChanged_g
    | with_reducible apply capChanged_g
    | with_reducible rfl
    | split
    | with_reducible intro _
    | dsimp only

theorem reissue_g {s0 : State} (s : State) (bad : Nat → Bool) (dest : Nat → Nat) (hK : Grid s0 s) : Grid s0 (State.reissue s bad dest) := by
  unfold State.reissue
  repeat' first
    | with_reducible assumption
    | with_reducible apply onReq_g
    | with_reducible apply onHost_g
    | with_reducible apply grid_foldl
    | with_reducible apply grid_foldl_fst
    | with_reducible apply issue_g
    | with_reducible rfl
    | split
    | with_reducible intro _
    | dsimp only

theorem rebindPorts_g {s0 : State} (s : State) (hK : Grid s0 s) : Grid s0 (State.rebindPorts s) := by
  unfold State.rebindPorts
  repeat' first
    | with_reducible assumption
    | with_reducible apply onReq_g
    | with_reducible apply onHost_g
    | with_reducible apply reissue_g
    | with_reducible apply raiseLow_g
    | with_reducible rfl
    | split
    | with_reducible intro _
    | dsimp only

theorem flushRead_g {s0 : State} (s : State) (p : Nat) (hK : Grid s0 s) : Grid s0 (State.flushRead s p) := by
  unfold State.flushRead
  repeat' first
    | with_reducible assumption
    | with_reducible apply translate_g
    | with_reducible apply modHport_g
    | with_reducible rfl
    | split
    | with_reducible intro _
    | dsimp only

theorem trimLog_g {s0 : State} (s : State) (hK : Grid s0 s) : Grid s0 (State.trimLog s) := by
  unfold State.trimLog
  repeat' first
    | with_reducible assumption
    | with_reducible apply onReq_g
    | with_reducible rfl
    | split
    | with_reducible intro _
    | dsimp only

theorem failTier2_g {s0 : State} (s : State) (h : Nat) (hK : Grid s0 s) : Grid s0 (State.failTier2 s h) := by
  unfold State.failTier2
  repeat' first
    | with_reducible assumption
    | with_reducible apply readFailed_g
    | with_reducible apply demotionFailed_g
    | with_reducible apply onFaults_g
    | with_reducible rfl
    | split
    | with_reducible intro _
    | dsimp only

end Sys2Proof.Laws
end

