-- ==== Sys2Proof/Laws/GridFaults.lean ====
section
/-! SUPPORT. What the operations of Machine/Faults.lean leave alone (Laws/Grid.lean). -/

set_option linter.unusedTactic false
set_option linter.unreachableTactic false
set_option linter.unusedVariables false

namespace Sys2Proof.Laws

open Sys2Proof Sys2Proof.Machine

theorem moveRun_g {s0 : State} (l : Lost) (b : Bool) (q : Moving) (x : Want × Nat × Nat) (hK : Grid s0 q.st) :
    Grid s0 (moveRun l b q x).st := by
  unfold moveRun
  split
  · split
    · dsimp only
      split
      · exact putBytes_g _ _ _ hK
      · exact hK
    · exact hK
  · exact hK

theorem moveRuns_g {s0 : State} (s : State) (l : Lost) (b : Bool) (xs : List (Want × Nat × Nat)) (hK : Grid s0 s) :
    Grid s0 (moveRuns s l b xs).st := by
  have h : ∀ q : Moving, Grid s0 q.st → Grid s0 (xs.foldl (moveRun l b) q).st := by
    induction xs with
    | nil => exact fun _ h => h
    | cons x r ih => exact fun q h => ih _ (moveRun_g _ _ _ _ h)
  exact h _ hK

theorem stopJob_g {s0 : State} (s : State) (m : Nat) (hK : Grid s0 s) : Grid s0 (State.stopJob s m) := by
  unfold State.stopJob
  repeat' first
    | with_reducible assumption
    | with_reducible apply kernelClear_g
    | with_reducible apply allBcl_g
    | with_reducible apply allMcl_g
    | with_reducible apply returnStore_g
    | with_reducible apply modJob_g
    | with_reducible rfl
    | split
    | with_reducible intro _
    | dsimp only

theorem stopKernels_g {s0 : State} (s : State) (hK : Grid s0 s) : Grid s0 (State.stopKernels s) := by
  unfold State.stopKernels
  repeat' first
    | with_reducible assumption
    | with_reducible apply grid_foldl
    | with_reducible apply grid_foldl_fst
    | with_reducible apply stopJob_g
    | with_reducible apply allMcl_g
    | with_reducible apply onPlan_g
    | with_reducible rfl
    | split
    | with_reducible intro _
    | dsimp only

theorem moveGroup_g {s0 : State} (s : State) (l : Lost) (readable : Bool) (h : Nat) (hK : Grid s0 s) : Grid s0 (State.moveGroup s l readable h) := by
  unfold State.moveGroup
  repeat' first
    | with_reducible assumption
    | with_reducible apply draw_g
    | with_reducible apply modGroup_g
    | with_reducible apply onMem_g
    | with_reducible apply demotionFailed_g
    | with_reducible apply setRebuild_g
    | with_reducible apply moveRuns_g
    | with_reducible apply writeSidecars_wf
    | with_reducible rfl
    | split
    | with_reducible intro _
    | dsimp only

theorem moveObjects_g {s0 : State} (s : State) (l : Lost) (readable : Bool) (slot : Nat) (hK : Grid s0 s) : Grid s0 (State.moveObjects s l readable slot) := by
  unfold State.moveObjects
  repeat' first
    | with_reducible assumption
    | with_reducible apply draw_g
    | with_reducible apply onMem_g
    | with_reducible apply modReq_g
    | with_reducible apply moveRuns_g
    | with_reducible apply writeProvs_wf
    | with_reducible rfl
    | split
    | with_reducible intro _
    | dsimp only

theorem moveShard_g {s0 : State} (s : State) (l : Lost) (cl m : Nat) (hK : Grid s0 s) : Grid s0 (State.moveShard s l cl m) := by
  unfold State.moveShard
  repeat' first
    | with_reducible assumption
    | with_reducible apply draw_g
    | with_reducible apply onMem_g
    | with_reducible apply modMslot_g
    | with_reducible apply moveRuns_g
    | with_reducible apply rewritePieces_wf
    | with_reducible rfl
    | split
    | with_reducible intro _
    | dsimp only

theorem moveAlloy_g {s0 : State} (l : Lost) (cl : Nat) (s : State) (g : AlloyGen) (hK : Grid s0 s) : Grid s0 (State.moveAlloy l cl s g) := by
  unfold State.moveAlloy
  repeat' first
    | with_reducible assumption
    | with_reducible apply draw_g
    | with_reducible apply onMem_g
    | with_reducible apply onModels_g
    | with_reducible apply moveRuns_g
    | with_reducible apply rewritePieces_wf
    | with_reducible rfl
    | split
    | with_reducible intro _
    | dsimp only

theorem moveAlloys_g {s0 : State} (s : State) (l : Lost) (cl : Nat) (hK : Grid s0 s) : Grid s0 (State.moveAlloys s l cl) := by
  unfold State.moveAlloys
  repeat' first
    | with_reducible assumption
    | with_reducible apply grid_foldl
    | with_reducible apply grid_foldl_fst
    | with_reducible apply moveAlloy_g
    | with_reducible rfl
    | split
    | with_reducible intro _
    | dsimp only

theorem evacuate_g {s0 : State} (s : State) (p : Nat) (lost : List Nat) (map : List Nat) (hK : Grid s0 s) : Grid s0 (State.evacuate s p lost map) := by
  unfold State.evacuate
  repeat' first
    | with_reducible assumption
    | with_reducible apply grid_foldl
    | with_reducible apply grid_foldl_fst
    | with_reducible apply modReq_g
    | with_reducible apply moveObjects_g
    | with_reducible apply moveGroup_g
    | with_reducible rfl
    | split
    | with_reducible intro _
    | dsimp only

theorem loseObject_g {s0 : State} (s : State) (kind : UncorrKind) (slot : Nat) (bothLost : Bool) (hK : Grid s0 s) : Grid s0 (State.loseObject s kind slot bothLost) := by
  unfold State.loseObject
  repeat' first
    | with_reducible assumption
    | with_reducible apply onReq_g
    | with_reducible apply onPlan_g
    | with_reducible apply closeSoon_g
    | with_reducible apply modReq_g
    | with_reducible rfl
    | split
    | with_reducible intro _
    | dsimp only

theorem losePage_g {s0 : State} (s : State) (h : Nat) (hK : Grid s0 s) : Grid s0 (State.losePage s h) := by
  unfold State.losePage
  repeat' first
    | with_reducible assumption
    | with_reducible apply demotionFailed_g
    | with_reducible apply setRebuild_g
    | with_reducible rfl
    | split
    | with_reducible intro _
    | dsimp only

theorem leaveBank_g {s0 : State} (s : State) (stack bank : Nat) (hK : Grid s0 s) : Grid s0 (State.leaveBank s stack bank) := by
  unfold State.leaveBank
  repeat' first
    | with_reducible assumption
    | with_reducible apply onTier_g
    | with_reducible apply grid_foldl
    | with_reducible apply grid_foldl_fst
    | with_reducible apply moveObjects_g
    | with_reducible apply moveGroup_g
    | with_reducible apply moveShard_g
    | with_reducible apply moveAlloys_g
    | with_reducible rfl
    | split
    | with_reducible intro _
    | dsimp only

theorem applyLoss_g {s0 : State} (s : State) (l : LossDue) (hK : Grid s0 s) : Grid s0 (State.applyLoss s l) := by
  unfold State.applyLoss
  repeat' first
    | with_reducible assumption
    | with_reducible apply onReq_g
    | with_reducible apply onTier_g
    | with_reducible apply evacuate_g
    | with_reducible apply leaveBank_g
    | with_reducible apply losePage_g
    | with_reducible apply failTier2_g
    | with_reducible apply failImage_g
    | with_reducible apply loseObject_g
    | with_reducible rfl
    | split
    | with_reducible intro _
    | dsimp only

theorem applyLosses_g {s0 : State} (s : State) (hK : Grid s0 s) : Grid s0 (State.applyLosses s) := by
  unfold State.applyLosses
  repeat' first
    | with_reducible assumption
    | with_reducible apply grid_foldl
    | with_reducible apply grid_foldl_fst
    | with_reducible apply applyLoss_g
    | with_reducible apply onFaults_g
    | with_reducible rfl
    | split
    | with_reducible intro _
    | dsimp only

theorem noteSpares_g {s0 : State} (s : State) (n : Nat) (hK : Grid s0 s) : Grid s0 (State.noteSpares s n) := by
  unfold State.noteSpares
  repeat' first
    | with_reducible assumption
    | with_reducible apply onFaults_g
    | with_reducible rfl
    | split
    | with_reducible intro _
    | dsimp only

theorem settleRebuild_g {s0 : State} (s : State) (h : Nat) (hK : Grid s0 s) : Grid s0 (State.settleRebuild s h) := by
  unfold State.settleRebuild
  repeat' first
    | with_reducible assumption
    | with_reducible apply endAttempt_g
    | with_reducible apply grid_foldl
    | with_reducible apply grid_foldl_fst
    | with_reducible apply countStack_g
    | with_reducible apply modGroup_g
    | with_reducible apply promoted_g
    | with_reducible apply unindex_g
    | with_reducible apply recheck_g
    | with_reducible rfl
    | split
    | with_reducible intro _
    | dsimp only

theorem switchBanks_g {s0 : State} (s : State) (hK : Grid s0 s) : Grid s0 (State.switchBanks s) := by
  unfold State.switchBanks
  repeat' first
    | with_reducible assumption
    | with_reducible apply grid_foldl
    | with_reducible apply grid_foldl_fst
    | with_reducible apply modBcl_g
    | with_reducible apply onFaults_g
    | with_reducible apply noteSpares_g
    | with_reducible rfl
    | split
    | with_reducible intro _
    | dsimp only

end Sys2Proof.Laws
end

