-- ==== Sys2Proof/Laws/GridPower.lean ====
section
/-! SUPPORT. What the operations of Machine/Power.lean leave alone (Laws/Grid.lean). -/

set_option linter.unusedTactic false
set_option linter.unreachableTactic false
set_option linter.unusedVariables false

namespace Sys2Proof.Laws

open Sys2Proof Sys2Proof.Machine

theorem raiseClocks_g {s0 : State} (s : State) (hK : Grid s0 s) : Grid s0 (State.raiseClocks s) := by
  unfold State.raiseClocks
  repeat' first
    | with_reducible assumption
    | with_reducible apply onPower_g
    | with_reducible rfl
    | split
    | with_reducible intro _
    | dsimp only

end Sys2Proof.Laws
end

