-- ==== Sys2Proof/Laws/GridRequests.lean ====
section
/-! SUPPORT. What the operations of Machine/Requests.lean leave alone (Laws/Grid.lean). -/

set_option linter.unusedTactic false
set_option linter.unreachableTactic false
set_option linter.unusedVariables false

namespace Sys2Proof.Laws

open Sys2Proof Sys2Proof.Machine

theorem resumeDone_g {s0 : State} (s : State) (slot : Nat) (hK : Grid s0 s) : Grid s0 (State.resumeDone s slot) := by
  unfold State.resumeDone
  repeat' first
    | with_reducible assumption
    | with_reducible apply modReq_g
    | with_reducible rfl
    | split
    | with_reducible intro _
    | dsimp only

theorem writeDue_g {s0 : State} (s : State) (slot : Nat) (hK : Grid s0 s) : Grid s0 (State.writeDue s slot) := by
  unfold State.writeDue
  repeat' first
    | with_reducible assumption
    | with_reducible apply endGathers_g
    | with_reducible apply onReq_g
    | with_reducible apply writeTokens_g
    | with_reducible apply writeFinal_g
    | with_reducible rfl
    | split
    | with_reducible intro _
    | dsimp only

theorem beginWindow_g {s0 : State} (s : State) (t : Nat) (hK : Grid s0 s) : Grid s0 (State.beginWindow s t) := by
  unfold State.beginWindow
  repeat' first
    | with_reducible assumption
    | with_reducible apply onPlan_g
    | with_reducible rfl
    | split
    | with_reducible intro _
    | dsimp only

end Sys2Proof.Laws
end

