-- ==== Sys2Proof/Laws/GridTelemetry.lean ====
section
/-! SUPPORT. What the operations of Machine/Telemetry.lean leave alone (Laws/Grid.lean). -/

set_option linter.unusedTactic false
set_option linter.unreachableTactic false
set_option linter.unusedVariables false

namespace Sys2Proof.Laws

open Sys2Proof Sys2Proof.Machine

theorem freeze_g {s0 : State} (s : State) (k stamp : Nat) (hK : Grid s0 s) : Grid s0 (State.freeze s k stamp) := by
  unfold State.freeze
  repeat' first
    | with_reducible assumption
    | with_reducible apply onTel_g
    | with_reducible rfl
    | split
    | with_reducible intro _
    | dsimp only

end Sys2Proof.Laws
end

