-- ==== Sys2Proof/Laws/GridCommit.lean ====
section
/-! SUPPORT. What the operations of Machine/Commit.lean leave alone (Laws/Grid.lean). -/

set_option linter.unusedTactic false
set_option linter.unreachableTactic false
set_option linter.unusedVariables false

namespace Sys2Proof.Laws

open Sys2Proof Sys2Proof.Machine

theorem rekey_g {s0 : State} (s : State) (old : Settings) (hK : Grid s0 s) : Grid s0 (State.rekey s old) := by
  unfold State.rekey
  repeat' first
    | with_reducible assumption
    | with_reducible apply dropEntries_g
    | with_reducible rfl
    | split
    | with_reducible intro _
    | dsimp only

theorem beginWindows_g {s0 : State} (s : State) (hK : Grid s0 s) : Grid s0 (State.beginWindows s) := by
  unfold State.beginWindows
  repeat' first
    | with_reducible assumption
    | with_reducible apply grid_foldl
    | with_reducible apply grid_foldl_fst
    | with_reducible apply beginWindow_g
    | with_reducible rfl
    | split
    | with_reducible intro _
    | dsimp only

theorem countFaults_g {s0 : State} (s : State) (hK : Grid s0 s) : Grid s0 (State.countFaults s) := by
  unfold State.countFaults
  repeat' first
    | with_reducible assumption
    | with_reducible apply grid_foldl
    | with_reducible apply grid_foldl_fst
    | with_reducible apply onPlan_g
    | with_reducible apply postEvent_g
    | with_reducible rfl
    | split
    | with_reducible intro _
    | dsimp only

theorem noteIdle_g {s0 : State} (s : State) (meters : List Meter) (hK : Grid s0 s) : Grid s0 (State.noteIdle s meters) := by
  unfold State.noteIdle
  repeat' first
    | with_reducible assumption
    | with_reducible apply onPlan_g
    | with_reducible apply grid_foldl
    | with_reducible apply grid_foldl_fst
    | with_reducible rfl
    | split
    | with_reducible intro _
    | dsimp only

theorem updateCorr_g {s0 : State} (s : State) (meters : List Meter) (hK : Grid s0 s) : Grid s0 (State.updateCorr s meters) := by
  unfold State.updateCorr
  repeat' first
    | with_reducible assumption
    | with_reducible apply grid_foldl
    | with_reducible apply grid_foldl_fst
    | with_reducible apply onPlan_g
    | with_reducible rfl
    | split
    | with_reducible intro _
    | dsimp only

theorem countTrees_g {s0 : State} (s : State) (hK : Grid s0 s) : Grid s0 (State.countTrees s) := by
  unfold State.countTrees
  repeat' first
    | with_reducible assumption
    | with_reducible apply grid_foldl
    | with_reducible apply grid_foldl_fst
    | with_reducible apply countStep_g
    | with_reducible rfl
    | split
    | with_reducible intro _
    | dsimp only

theorem publishAll_g {s0 : State} (s : State) (hK : Grid s0 s) : Grid s0 (State.publishAll s) := by
  unfold State.publishAll
  repeat' first
    | with_reducible assumption
    | with_reducible apply grid_foldl
    | with_reducible apply grid_foldl_fst
    | with_reducible apply publishGroup_g
    | with_reducible rfl
    | split
    | with_reducible intro _
    | dsimp only

theorem retryGroups_g {s0 : State} (s : State) (hK : Grid s0 s) : Grid s0 (State.retryGroups s) := by
  unfold State.retryGroups
  repeat' first
    | with_reducible assumption
    | with_reducible apply grid_foldl
    | with_reducible apply grid_foldl_fst
    | with_reducible apply resumeWalk_g
    | with_reducible apply towardResident_g
    | with_reducible apply parkDemote_g
    | with_reducible rfl
    | split
    | with_reducible intro _
    | dsimp only

theorem endFailed_g {s0 : State} (s : State) (hK : Grid s0 s) : Grid s0 (State.endFailed s) := by
  unfold State.endFailed
  repeat' first
    | with_reducible assumption
    | with_reducible apply grid_foldl
    | with_reducible apply grid_foldl_fst
    | with_reducible apply endMigration_g
    | with_reducible rfl
    | split
    | with_reducible intro _
    | dsimp only

theorem takeFreeMgmts_g {s0 : State} (s : State) (hK : Grid s0 s) : Grid s0 (State.takeFreeMgmts s) := by
  unfold State.takeFreeMgmts
  repeat' first
    | with_reducible assumption
    | with_reducible apply takeMgmts_g
    | with_reducible rfl
    | split
    | with_reducible intro _
    | dsimp only

theorem closeLost_g {s0 : State} (s : State) (hK : Grid s0 s) : Grid s0 (State.closeLost s) := by
  unfold State.closeLost
  repeat' first
    | with_reducible assumption
    | with_reducible apply grid_foldl
    | with_reducible apply grid_foldl_fst
    | with_reducible apply markFault_g
    | with_reducible rfl
    | split
    | with_reducible intro _
    | dsimp only

theorem settleOpen_g {s0 : State} (s : State) (hK : Grid s0 s) : Grid s0 (State.settleOpen s) := by
  unfold State.settleOpen
  repeat' first
    | with_reducible assumption
    | with_reducible apply onReq_g
    | with_reducible apply settlePump_g
    | with_reducible rfl
    | split
    | with_reducible intro _
    | dsimp only

theorem dropStaging_g {s0 : State} (s : State) (hK : Grid s0 s) : Grid s0 (State.dropStaging s) := by
  unfold State.dropStaging
  repeat' first
    | with_reducible assumption
    | with_reducible apply allMcl_g
    | with_reducible rfl
    | split
    | with_reducible intro _
    | dsimp only

theorem grantSems_g {s0 : State} (s : State) (hK : Grid s0 s) : Grid s0 (State.grantSems s) := by
  unfold State.grantSems
  repeat' first
    | with_reducible assumption
    | with_reducible apply onPlan_g
    | with_reducible rfl
    | split
    | with_reducible intro _
    | dsimp only

theorem planFirst_g {s0 : State} (s : State) (hK : Grid s0 s) : Grid s0 (State.planFirst s) := by
  unfold State.planFirst
  repeat' first
    | with_reducible assumption
    | with_reducible apply buildPlan_g
    | with_reducible apply grantSems_g
    | with_reducible apply onTier_g
    | with_reducible rfl
    | split
    | with_reducible intro _
    | dsimp only

theorem dropAttempts_g {s0 : State} (s : State) (hK : Grid s0 s) : Grid s0 (State.dropAttempts s) := by
  unfold State.dropAttempts
  repeat' first
    | with_reducible assumption
    | with_reducible apply grid_foldl
    | with_reducible apply grid_foldl_fst
    | with_reducible apply endAttempt_g
    | with_reducible rfl
    | split
    | with_reducible intro _
    | dsimp only

theorem writeHeads_g {s0 : State} (s : State) (hK : Grid s0 s) : Grid s0 (State.writeHeads s) := by
  unfold State.writeHeads
  repeat' first
    | with_reducible assumption
    | with_reducible apply grid_foldl
    | with_reducible apply grid_foldl_fst
    | with_reducible apply modRing_g
    | with_reducible apply hostWrite_g
    | with_reducible apply raiseVector_g
    | with_reducible rfl
    | split
    | with_reducible intro _
    | dsimp only

theorem closeWindow_g {s0 : State} (s : State) (hK : Grid s0 s) : Grid s0 (State.closeWindow s) := by
  unfold State.closeWindow
  repeat' first
    | with_reducible assumption
    | with_reducible apply chargeShared_g
    | with_reducible apply takeCredits_g
    | with_reducible apply takeMgmts_g
    | with_reducible apply failLate_g
    | with_reducible apply grid_foldl
    | with_reducible apply grid_foldl_fst
    | with_reducible apply settleTimers_g
    | with_reducible apply settleForce_g
    | with_reducible apply settleRebuild_g
    | with_reducible apply holdRows_g
    | with_reducible apply dropAttempts_g
    | with_reducible apply endAllGathers_g
    | with_reducible apply writeDue_g
    | with_reducible apply resumeDone_g
    | with_reducible apply startMigration_g
    | with_reducible apply endClosedShips_g
    | with_reducible apply followAll_g
    | with_reducible apply freeRetired_g
    | with_reducible apply endTransits_g
    | with_reducible apply writeHeads_g
    | with_reducible apply flushVectors_g
    | with_reducible apply flushRead_g
    | with_reducible apply onReq_g
    | with_reducible rfl
    | split
    | with_reducible intro _
    | dsimp only

theorem planFinal_g {s0 : State} (s : State) (hK : Grid s0 s) : Grid s0 (State.planFinal s) := by
  unfold State.planFinal
  repeat' first
    | with_reducible assumption
    | with_reducible apply onPlan_g
    | with_reducible apply buildPlan_g
    | with_reducible apply notePairs_g
    | with_reducible apply grantSems_g
    | with_reducible rfl
    | split
    | with_reducible intro _
    | dsimp only

theorem freeClosing_g {s0 : State} (s : State) (hK : Grid s0 s) : Grid s0 (State.freeClosing s) := by
  unfold State.freeClosing
  repeat' first
    | with_reducible assumption
    | with_reducible apply grid_foldl
    | with_reducible apply grid_foldl_fst
    | with_reducible apply dropRequestRefs_g
    | with_reducible apply onReq_g
    | with_reducible rfl
    | split
    | with_reducible intro _
    | dsimp only

theorem noteTierEvents_g {s0 : State} (s : State) (hK : Grid s0 s) : Grid s0 (State.noteTierEvents s) := by
  unfold State.noteTierEvents
  repeat' first
    | with_reducible assumption
    | with_reducible apply onTier_g
    | with_reducible rfl
    | split
    | with_reducible intro _
    | dsimp only

theorem noteTick_g {s0 : State} (s : State) (hK : Grid s0 s) : Grid s0 (State.noteTick s) := by
  unfold State.noteTick
  repeat' first
    | with_reducible assumption
    | with_reducible apply onPower_g
    | with_reducible apply onPlan_g
    | with_reducible apply countStep_g
    | with_reducible rfl
    | split
    | with_reducible intro _
    | dsimp only

theorem clearPerTick_g {s0 : State} (s : State) (hK : Grid s0 s) : Grid s0 (State.clearPerTick s) := by
  unfold State.clearPerTick
  repeat' first
    | with_reducible assumption
    | with_reducible apply onGelcon_g
    | with_reducible apply count_g
    | with_reducible rfl
    | split
    | with_reducible intro _
    | dsimp only

theorem switchStore_g {s0 : State} (s : State) (hK : Grid s0 s) : Grid s0 (State.switchStore s) := by
  unfold State.switchStore
  repeat' first
    | with_reducible assumption
    | with_reducible apply onStore_g
    | with_reducible apply capChanged_g
    | with_reducible rfl
    | split
    | with_reducible intro _
    | dsimp only

theorem switchMap_g {s0 : State} (s : State) (hK : Grid s0 s) : Grid s0 (State.switchMap s) := by
  unfold State.switchMap
  repeat' first
    | with_reducible assumption
    | with_reducible apply onFaults_g
    | with_reducible rfl
    | split
    | with_reducible intro _
    | dsimp only

theorem touchGroups_g {s0 : State} (s : State) (hK : Grid s0 s) : Grid s0 (State.touchGroups s) := by
  unfold State.touchGroups
  repeat' first
    | with_reducible assumption
    | with_reducible apply grid_foldl
    | with_reducible apply grid_foldl_fst
    | with_reducible apply modGroup_g
    | with_reducible rfl
    | split
    | with_reducible intro _
    | dsimp only

theorem touchModels_g {s0 : State} (s : State) (hK : Grid s0 s) : Grid s0 (State.touchModels s) := by
  unfold State.touchModels
  repeat' first
    | with_reducible assumption
    | with_reducible apply grid_foldl
    | with_reducible apply grid_foldl_fst
    | with_reducible apply modMslot_g
    | with_reducible rfl
    | split
    | with_reducible intro _
    | dsimp only

end Sys2Proof.Laws
end

