-- ==== Sys2Proof/Laws/KeepsOps.lean ====
section
/-! SUPPORT. What the operations of Machine/Ops.lean keep (Laws/Keeps.lean). -/

set_option linter.unusedTactic false
set_option linter.unreachableTactic false
set_option linter.unusedVariables false

namespace Sys2Proof.Laws

open Sys2Proof Sys2Proof.Machine

-- so does onMem_k

theorem putBytes_k {s0 : State} (s : State) (a : Nat) (bs : List Byte) (h : Keeps s0 s) : Keeps s0 (s.putBytes a bs) :=
  onMem_k _ (fun _ => wf_writeN bs a) h

theorem atTime_k {s0 : State} (s : State) (t : Nat) (hK : Keeps s0 s) : Keeps s0 (State.atTime s t) := by
  unfold State.atTime
  repeat' first
    | with_reducible assumption
    | with_reducible apply onTick_k
    | with_reducible rfl
    | split
    | with_reducible intro _
    | dsimp only

theorem idle_k {s0 : State} (s : State) (hK : Keeps s0 s) : Keeps s0 (idle s) := by
  unfold idle
  repeat' first
    | with_reducible assumption
    | with_reducible apply onTick_k
    | with_reducible rfl
    | split
    | with_reducible intro _
    | dsimp only

-- and answerWith_k

-- draw_k stands in Laws/Keeps.lean

theorem modHport_k {s0 : State} (s : State) (p : Nat) (f : HostPort → HostPort) (hK : Keeps s0 s) : Keeps s0 (State.modHport s p f) := by
  unfold State.modHport
  repeat' first
    | with_reducible assumption
    | with_reducible apply onHost_k
    | with_reducible rfl
    | split
    | with_reducible intro _
    | dsimp only

theorem sendVector_k {s0 : State} (s : State) (v p : Nat) (hK : Keeps s0 s) : Keeps s0 (State.sendVector s v p) := by
  unfold State.sendVector
  repeat' first
    | with_reducible assumption
    | with_reducible apply onHost_k
    | with_reducible rfl
    | split
    | with_reducible intro _
    | dsimp only

theorem raiseVector_k {s0 : State} (s : State) (v p : Nat) (hK : Keeps s0 s) : Keeps s0 (State.raiseVector s v p) := by
  unfold State.raiseVector
  repeat' first
    | with_reducible assumption
    | with_reducible apply onHost_k
    | with_reducible apply sendVector_k
    | with_reducible rfl
    | split
    | with_reducible intro _
    | dsimp only

theorem raiseLow_k {s0 : State} (s : State) (v : Nat) (hK : Keeps s0 s) : Keeps s0 (State.raiseLow s v) := by
  unfold State.raiseLow
  repeat' first
    | with_reducible assumption
    | with_reducible apply raiseVector_k
    | with_reducible rfl
    | split
    | with_reducible intro _
    | dsimp only

theorem flushVectors_k {s0 : State} (s : State) (hK : Keeps s0 s) : Keeps s0 (State.flushVectors s) := by
  unfold State.flushVectors
  repeat' first
    | with_reducible assumption
    | with_reducible apply keeps_foldl
    | with_reducible apply keeps_foldl_fst
    | with_reducible apply sendVector_k
    | with_reducible apply onHost_k
    | with_reducible rfl
    | split
    | with_reducible intro _
    | dsimp only

theorem postEvent_k {s0 : State} (s : State) (code arg16 arg32 : Nat) (h : Keeps s0 s) : Keeps s0 (s.postEvent code arg16 arg32) := by
  refine raiseLow_k _ _ (h.trans ⟨rfl, rfl, Nat.le_refl _, ?_⟩)
  rintro ⟨⟨a, b⟩, c, d⟩
  refine ⟨⟨a, b⟩, ?_, d⟩
  simp only [State.onMb]
  split <;> simp <;> omega

theorem capChanged_k {s0 : State} (s : State) (hK : Keeps s0 s) : Keeps s0 (State.capChanged s) := by
  unfold State.capChanged
  repeat' first
    | with_reducible assumption
    | with_reducible apply onMb_k
    | with_reducible apply postEvent_k
    | with_reducible rfl
    | split
    | with_reducible intro _
    | dsimp only

theorem misuse_k {s0 : State} (s : State) (stamp value cause port target : Nat) (h : Keeps s0 s) :
    Keeps s0 (s.misuse stamp value cause port target) := by
  refine raiseLow_k _ _ (h.trans ⟨rfl, rfl, Nat.le_refl _, ?_⟩)
  rintro ⟨⟨a, b⟩, c, d⟩
  exact ⟨⟨a, b⟩, c, by simpa [State.onMb, State.onHost] using d⟩

theorem translate_k {s0 : State} (s : State) (port addr n : Nat) (hK : Keeps s0 s) : Keeps s0 (State.translate s port addr n) := by
  unfold State.translate
  repeat' first
    | with_reducible assumption
    | with_reducible apply modHport_k
    | with_reducible apply keeps_foldl
    | with_reducible apply keeps_foldl_fst
    | with_reducible rfl
    | split
    | with_reducible intro _
    | dsimp only

theorem hostRead_k {s0 : State} (s : State) (port addr n : Nat) (hK : Keeps s0 s) : Keeps s0 (State.hostRead s port addr n) := by
  unfold State.hostRead
  repeat' first
    | with_reducible assumption
    | with_reducible apply translate_k
    | with_reducible rfl
    | split
    | with_reducible intro _
    | dsimp only

theorem issue_k {s0 : State} (s : State) (w : HostWrite) (hK : Keeps s0 s) : Keeps s0 (State.issue s w) := by
  unfold State.issue
  repeat' first
    | with_reducible assumption
    | with_reducible apply translate_k
    | with_reducible apply onHost_k
    | with_reducible rfl
    | split
    | with_reducible intro _
    | dsimp only

theorem hostWrite_k {s0 : State} (s : State) (port addr slotPlus : Nat) (bs : List Byte) (hK : Keeps s0 s) : Keeps s0 (State.hostWrite s port addr slotPlus bs) := by
  unfold State.hostWrite
  repeat' first
    | with_reducible assumption
    | with_reducible apply onReq_k
    | with_reducible apply issue_k
    | with_reducible rfl
    | split
    | with_reducible intro _
    | dsimp only

theorem bufferWrite_k {s0 : State} (s : State) (port addr : Nat) (bs : List Byte) (hK : Keeps s0 s) : Keeps s0 (State.bufferWrite s port addr bs) := by
  unfold State.bufferWrite
  repeat' first
    | with_reducible assumption
    | with_reducible apply issue_k
    | with_reducible rfl
    | split
    | with_reducible intro _
    | dsimp only

theorem complete_k {s0 : State} (s : State) (c : MbCommand) (status : Nat) (data : List Byte) (h : Keeps s0 s) :
    Keeps s0 (s.complete c status data) := by
  refine raiseLow_k _ _ (h.trans ⟨rfl, rfl, Nat.le_refl _, ?_⟩)
  rintro ⟨⟨a, b⟩, d⟩
  refine ⟨⟨a, ?_⟩, d⟩
  simp only [State.onMb]
  exact wf_writeN _ _ b

theorem setCmd_k {s0 : State} (s : State) (c : MbCommand) (hK : Keeps s0 s) : Keeps s0 (State.setCmd s c) := by
  unfold State.setCmd
  repeat' first
    | with_reducible assumption
    | with_reducible apply onMb_k
    | with_reducible rfl
    | split
    | with_reducible intro _
    | dsimp only

theorem answer_k {s0 : State} (s : State) (c : MbCommand) (e : Except Nat (State × List Byte)) (h : Keeps s0 s)
    (he : KeepsE Prod.fst s0 e) : Keeps s0 (answer s c e) := by
  unfold answer
  split
  · exact complete_k _ _ _ _ (he _ rfl)
  · exact complete_k _ _ _ _ h

theorem arrive_k {s0 : State} (s : State) (hK : Keeps s0 s) : Keeps s0 (State.arrive s) := by
  unfold State.arrive
  repeat' first
    | with_reducible assumption
    | with_reducible apply onHost_k
    | with_reducible rfl
    | split
    | with_reducible intro _
    | dsimp only

theorem setReq_k {s0 : State} (s : State) (n : Nat) (r : Request) (hK : Keeps s0 s) : Keeps s0 (State.setReq s n r) := by
  unfold State.setReq
  repeat' first
    | with_reducible assumption
    | with_reducible apply onReq_k
    | with_reducible rfl
    | split
    | with_reducible intro _
    | dsimp only

theorem modReq_k {s0 : State} (s : State) (n : Nat) (f : Request → Request) (hK : Keeps s0 s) : Keeps s0 (State.modReq s n f) := by
  unfold State.modReq
  repeat' first
    | with_reducible assumption
    | with_reducible apply onReq_k
    | with_reducible rfl
    | split
    | with_reducible intro _
    | dsimp only

theorem modMslot_k {s0 : State} (s : State) (n : Nat) (f : ModelSlot → ModelSlot) (hK : Keeps s0 s) : Keeps s0 (State.modMslot s n f) := by
  unfold State.modMslot
  repeat' first
    | with_reducible assumption
    | with_reducible apply onModels_k
    | with_reducible rfl
    | split
    | with_reducible intro _
    | dsimp only

theorem count_k {s0 : State} (s : State) (f : Counters → Counters) (hK : Keeps s0 s) : Keeps s0 (State.count s f) := by
  unfold State.count
  repeat' first
    | with_reducible assumption
    | with_reducible apply onTel_k
    | with_reducible rfl
    | split
    | with_reducible intro _
    | dsimp only

theorem countStep_k {s0 : State} (s : State) (f : StepCounters → StepCounters) (hK : Keeps s0 s) : Keeps s0 (State.countStep s f) := by
  unfold State.countStep
  repeat' first
    | with_reducible assumption
    | with_reducible apply count_k
    | with_reducible rfl
    | split
    | with_reducible intro _
    | dsimp only

theorem countStack_k {s0 : State} (s : State) (n : Nat) (f : StackCounters → StackCounters) (hK : Keeps s0 s) : Keeps s0 (State.countStack s n f) := by
  unfold State.countStack
  repeat' first
    | with_reducible assumption
    | with_reducible apply count_k
    | with_reducible rfl
    | split
    | with_reducible intro _
    | dsimp only

theorem countPort_k {s0 : State} (s : State) (n : Nat) (f : PortCounters → PortCounters) (hK : Keeps s0 s) : Keeps s0 (State.countPort s n f) := by
  unfold State.countPort
  repeat' first
    | with_reducible assumption
    | with_reducible apply count_k
    | with_reducible rfl
    | split
    | with_reducible intro _
    | dsimp only

theorem countTenant_k {s0 : State} (s : State) (n : Nat) (f : TenantCounters → TenantCounters) (hK : Keeps s0 s) : Keeps s0 (State.countTenant s n f) := by
  unfold State.countTenant
  repeat' first
    | with_reducible assumption
    | with_reducible apply count_k
    | with_reducible rfl
    | split
    | with_reducible intro _
    | dsimp only

-- and onBanks_k

-- and onMatrix_k

theorem modBcl_k {s0 : State} (s : State) (c : Nat) (f : BankCluster → BankCluster) (hK : Keeps s0 s) : Keeps s0 (State.modBcl s c f) := by
  unfold State.modBcl
  repeat' first
    | with_reducible assumption
    | with_reducible apply onBanks_k
    | with_reducible rfl
    | split
    | with_reducible intro _
    | dsimp only

theorem modMcl_k {s0 : State} (s : State) (c : Nat) (f : MatrixCluster → MatrixCluster) (hK : Keeps s0 s) : Keeps s0 (State.modMcl s c f) := by
  unfold State.modMcl
  repeat' first
    | with_reducible assumption
    | with_reducible apply onMatrix_k
    | with_reducible rfl
    | split
    | with_reducible intro _
    | dsimp only

theorem modJob_k {s0 : State} (s : State) (m : Nat) (f : Job → Job) (hK : Keeps s0 s) : Keeps s0 (State.modJob s m f) := by
  unfold State.modJob
  repeat' first
    | with_reducible assumption
    | with_reducible apply onPlan_k
    | with_reducible rfl
    | split
    | with_reducible intro _
    | dsimp only

end Sys2Proof.Laws
end

