-- ==== Sys2Proof/Laws/KeepsJobs.lean ====
section
/-! SUPPORT. What the operations of Machine/Jobs.lean keep (Laws/Keeps.lean). -/

set_option linter.unusedTactic false
set_option linter.unreachableTactic false
set_option linter.unusedVariables false

namespace Sys2Proof.Laws

open Sys2Proof Sys2Proof.Machine

theorem serveTier_k {s0 : State} (s : State) (hK : Keeps s0 s) : Keeps s0 (State.serveTier s) := by
  unfold State.serveTier
  repeat' first
    | with_reducible assumption
    | with_reducible apply onTier_k
    | with_reducible rfl
    | split
    | with_reducible intro _
    | dsimp only

theorem beginMove_k {s0 : State} (s : State) (kind key cls taken n : Nat) (hK : Keeps s0 s) : Keeps s0 (State.beginMove s kind key cls taken n) := by
  unfold State.beginMove
  repeat' first
    | with_reducible assumption
    | with_reducible apply serveTier_k
    | with_reducible apply onTier_k
    | with_reducible rfl
    | split
    | with_reducible intro _
    | dsimp only

theorem endMove_k {s0 : State} (s : State) (kind key : Nat) (hK : Keeps s0 s) : Keeps s0 (State.endMove s kind key) := by
  unfold State.endMove
  repeat' first
    | with_reducible assumption
    | with_reducible apply serveTier_k
    | with_reducible apply onTier_k
    | with_reducible rfl
    | split
    | with_reducible intro _
    | dsimp only

theorem allBcl_k {s0 : State} (s : State) (f : BankCluster → BankCluster) (hK : Keeps s0 s) : Keeps s0 (State.allBcl s f) := by
  unfold State.allBcl
  repeat' first
    | with_reducible assumption
    | with_reducible apply onBanks_k
    | with_reducible rfl
    | split
    | with_reducible intro _
    | dsimp only

theorem allMcl_k {s0 : State} (s : State) (f : MatrixCluster → MatrixCluster) (hK : Keeps s0 s) : Keeps s0 (State.allMcl s f) := by
  unfold State.allMcl
  repeat' first
    | with_reducible assumption
    | with_reducible apply onMatrix_k
    | with_reducible rfl
    | split
    | with_reducible intro _
    | dsimp only

theorem returnStore_k {s0 : State} (s : State) (m : Nat) (hK : Keeps s0 s) : Keeps s0 (State.returnStore s m) := by
  unfold State.returnStore
  repeat' first
    | with_reducible assumption
    | with_reducible apply onStore_k
    | with_reducible rfl
    | split
    | with_reducible intro _
    | dsimp only

theorem kernelClear_k {s0 : State} (s : State) (m : Nat) (hK : Keeps s0 s) : Keeps s0 (State.kernelClear s m) := by
  unfold State.kernelClear
  repeat' first
    | with_reducible assumption
    | with_reducible apply allMcl_k
    | with_reducible apply onStore_k
    | with_reducible rfl
    | split
    | with_reducible intro _
    | dsimp only

theorem jobFault_k {s0 : State} (s : State) (m : Nat) (hK : Keeps s0 s) : Keeps s0 (State.jobFault s m) := by
  unfold State.jobFault
  repeat' first
    | with_reducible assumption
    | with_reducible apply kernelClear_k
    | with_reducible apply allBcl_k
    | with_reducible apply modJob_k
    | with_reducible apply allMcl_k
    | with_reducible apply returnStore_k
    | with_reducible apply onPlan_k
    | with_reducible apply countStep_k
    | with_reducible rfl
    | split
    | with_reducible intro _
    | dsimp only

theorem jobFaults_k {s0 : State} (s : State) (l : List Nat) (hK : Keeps s0 s) : Keeps s0 (State.jobFaults s l) := by
  unfold State.jobFaults
  repeat' first
    | with_reducible assumption
    | with_reducible apply keeps_foldl
    | with_reducible apply keeps_foldl_fst
    | with_reducible apply jobFault_k
    | with_reducible rfl
    | split
    | with_reducible intro _
    | dsimp only

end Sys2Proof.Laws
end

