-- ==== Sys2Proof/Laws/KeepsStore.lean ====
section
/-! SUPPORT. What the operations of Machine/Store.lean keep (Laws/Keeps.lean). -/

set_option linter.unusedTactic false
set_option linter.unreachableTactic false
set_option linter.unusedVariables false

namespace Sys2Proof.Laws

open Sys2Proof Sys2Proof.Machine

theorem grantBlocks_k {s0 : State} (s : State) (c : StoreClass) (holder n : Nat) (hK : Keeps s0 s) : Keeps s0 (State.grantBlocks s c holder n) := by
  unfold State.grantBlocks
  repeat' first
    | with_reducible assumption
    | with_reducible apply draw_k
    | with_reducible apply onStore_k
    | with_reducible apply onMem_k
    | with_reducible apply keeps_foldl
    | with_reducible apply keeps_foldl_fst
    | with_reducible apply wf_foldl
    | with_reducible apply wf_clear
    | with_reducible apply wf_writeN
    | with_reducible apply wf_write
    | with_reducible rfl
    | split
    | with_reducible intro _
    | dsimp only

theorem releaseBlocks_k {s0 : State} (s : State) (c : StoreClass) (holder : Nat) (hK : Keeps s0 s) : Keeps s0 (State.releaseBlocks s c holder) := by
  unfold State.releaseBlocks
  repeat' first
    | with_reducible assumption
    | with_reducible apply onStore_k
    | with_reducible rfl
    | split
    | with_reducible intro _
    | dsimp only

theorem setHeld_k {s0 : State} (s : State) (c : StoreClass) (holder n : Nat) (hK : Keeps s0 s) : Keeps s0 (State.setHeld s c holder n) := by
  unfold State.setHeld
  repeat' first
    | with_reducible assumption
    | with_reducible apply grantBlocks_k
    | with_reducible apply onStore_k
    | with_reducible rfl
    | split
    | with_reducible intro _
    | dsimp only

theorem execStoreReserve_k {s0 : State} (cls : StoreClass) (holder blocks : Nat) (s : State) (hK : Keeps s0 s) : KeepsO s0 (execStoreReserve cls holder blocks s) := by
  unfold execStoreReserve
  repeat' first
    | with_reducible assumption
    | with_reducible apply keepsO_next
    | with_reducible apply answerWith_k
    | with_reducible apply grantBlocks_k
    | with_reducible apply onStore_k
    | with_reducible apply count_k
    | with_reducible rfl
    | split
    | with_reducible intro _
    | dsimp only

theorem retryClass_k {s0 : State} (s : State) (c : StoreClass) (hK : Keeps s0 s) : Keeps s0 (retryClass s c) := by
  unfold retryClass
  repeat' first
    | with_reducible assumption
    | with_reducible apply grantBlocks_k
    | with_reducible apply onStore_k
    | with_reducible rfl
    | split
    | with_reducible intro _
    | dsimp only

theorem execStoreRelease_k {s0 : State} (cls : StoreClass) (holder : Nat) (s : State) (hK : Keeps s0 s) : KeepsO s0 (execStoreRelease cls holder s) := by
  unfold execStoreRelease
  repeat' first
    | with_reducible assumption
    | with_reducible apply keepsO_next
    | with_reducible apply releaseBlocks_k
    | with_reducible rfl
    | split
    | with_reducible intro _
    | dsimp only

theorem readRow_k {s0 : State} (a n : Nat) (s : State) (row : Nat) (hK : Keeps s0 s) : Keeps s0 (readRow a n s row) := by
  unfold readRow
  repeat' first
    | with_reducible assumption
    | with_reducible apply onStore_k
    | with_reducible apply count_k
    | with_reducible rfl
    | split
    | with_reducible intro _
    | dsimp only

theorem readStore_k {s0 : State} (s : State) (a n : Nat) (hK : Keeps s0 s) : Keeps s0 (State.readStore s a n) := by
  unfold State.readStore
  repeat' first
    | with_reducible assumption
    | with_reducible apply keeps_foldl
    | with_reducible apply keeps_foldl_fst
    | with_reducible apply readRow_k
    | with_reducible rfl
    | split
    | with_reducible intro _
    | dsimp only

theorem writeRow_k {s0 : State} (a n : Nat) (s : State) (row : Nat) (hK : Keeps s0 s) : Keeps s0 (writeRow a n s row) := by
  unfold writeRow
  repeat' first
    | with_reducible assumption
    | with_reducible apply onStore_k
    | with_reducible apply readRow_k
    | with_reducible rfl
    | split
    | with_reducible intro _
    | dsimp only

theorem putStore_k {s0 : State} (s : State) (a : Nat) (bs : List Byte) (hK : Keeps s0 s) : Keeps s0 (State.putStore s a bs) := by
  unfold State.putStore
  repeat' first
    | with_reducible assumption
    | with_reducible apply keeps_foldl
    | with_reducible apply keeps_foldl_fst
    | with_reducible apply writeRow_k
    | with_reducible apply putBytes_k
    | with_reducible rfl
    | split
    | with_reducible intro _
    | dsimp only

theorem poisonJob_k {s0 : State} (s : State) (job : Nat) (hK : Keeps s0 s) : Keeps s0 (State.poisonJob s job) := by
  unfold State.poisonJob
  repeat' first
    | with_reducible assumption
    | with_reducible apply onPlan_k
    | with_reducible rfl
    | split
    | with_reducible intro _
    | dsimp only

theorem jobReads_k {s0 : State} (s : State) (job : Nat) (r : Nat × Nat) (hK : Keeps s0 s) : Keeps s0 (State.jobReads s job r) := by
  unfold State.jobReads
  repeat' first
    | with_reducible assumption
    | with_reducible apply poisonJob_k
    | with_reducible apply readStore_k
    | with_reducible rfl
    | split
    | with_reducible intro _
    | dsimp only

theorem markBad_k {s0 : State} (s : State) (l : List (Nat × Nat)) (hK : Keeps s0 s) : Keeps s0 (State.markBad s l) := by
  unfold State.markBad
  repeat' first
    | with_reducible assumption
    | with_reducible apply onStore_k
    | with_reducible apply keeps_foldl
    | with_reducible apply keeps_foldl_fst
    | with_reducible rfl
    | split
    | with_reducible intro _
    | dsimp only

theorem patrolUnit_k {s0 : State} (s : State) (u : Nat × Nat) (hK : Keeps s0 s) : Keeps s0 (patrolUnit s u) := by
  unfold patrolUnit
  repeat' first
    | with_reducible assumption
    | with_reducible apply onStore_k
    | with_reducible rfl
    | split
    | with_reducible intro _
    | dsimp only

theorem execStorePatrol_k {s0 : State} (bad : List (Nat × Nat)) (s : State) (hK : Keeps s0 s) : KeepsO s0 (execStorePatrol bad s) := by
  unfold execStorePatrol
  repeat' first
    | with_reducible assumption
    | with_reducible apply keepsO_next
    | with_reducible apply markBad_k
    | with_reducible apply keeps_foldl
    | with_reducible apply keeps_foldl_fst
    | with_reducible apply patrolUnit_k
    | with_reducible rfl
    | split
    | with_reducible intro _
    | dsimp only

theorem copyPool_k {s0 : State} (s : State) (hK : Keeps s0 s) : Keeps s0 (copyPool s) := by
  unfold copyPool
  repeat' first
    | with_reducible assumption
    | with_reducible apply onMem_k
    | with_reducible apply keeps_foldl
    | with_reducible apply keeps_foldl_fst
    | with_reducible apply onStore_k
    | with_reducible apply count_k
    | with_reducible apply wf_foldl
    | with_reducible apply wf_clear
    | with_reducible apply wf_writeN
    | with_reducible apply wf_write
    | with_reducible rfl
    | split
    | with_reducible intro _
    | dsimp only

theorem execStoreRestripe_k {s0 : State} (s : State) (hK : Keeps s0 s) : KeepsO s0 (execStoreRestripe s) := by
  unfold execStoreRestripe
  repeat' first
    | with_reducible assumption
    | with_reducible apply keepsO_next
    | with_reducible apply copyPool_k
    | with_reducible rfl
    | split
    | with_reducible intro _
    | dsimp only

theorem openTransit_k {s0 : State} (s : State) (c : StoreClass) (holder n : Nat) (hK : Keeps s0 s) : Keeps s0 (State.openTransit s c holder n) := by
  unfold State.openTransit
  repeat' first
    | with_reducible assumption
    | with_reducible apply grantBlocks_k
    | with_reducible apply onStore_k
    | with_reducible apply count_k
    | with_reducible rfl
    | split
    | with_reducible intro _
    | dsimp only

theorem closeTransit_k {s0 : State} (s : State) (c : StoreClass) (holder : Nat) (hK : Keeps s0 s) : Keeps s0 (State.closeTransit s c holder) := by
  unfold State.closeTransit
  repeat' first
    | with_reducible assumption
    | with_reducible apply retryClass_k
    | with_reducible apply releaseBlocks_k
    | with_reducible apply onStore_k
    | with_reducible rfl
    | split
    | with_reducible intro _
    | dsimp only

theorem endTransits_k {s0 : State} (s : State) (c : StoreClass) (hK : Keeps s0 s) : Keeps s0 (State.endTransits s c) := by
  unfold State.endTransits
  repeat' first
    | with_reducible assumption
    | with_reducible apply keeps_foldl
    | with_reducible apply keeps_foldl_fst
    | with_reducible apply closeTransit_k
    | with_reducible rfl
    | split
    | with_reducible intro _
    | dsimp only

theorem modSem_k {s0 : State} (s : State) (n : Nat) (f : Semaphore → Semaphore) (hK : Keeps s0 s) : Keeps s0 (State.modSem s n f) := by
  unfold State.modSem
  repeat' first
    | with_reducible assumption
    | with_reducible apply onStore_k
    | with_reducible rfl
    | split
    | with_reducible intro _
    | dsimp only

theorem execSemSignal_k {s0 : State} (job n v : Nat) (s : State) (hK : Keeps s0 s) : KeepsO s0 (execSemSignal job n v s) := by
  unfold execSemSignal
  repeat' first
    | with_reducible assumption
    | with_reducible apply keepsO_next
    | with_reducible apply jobFault_k
    | with_reducible apply modSem_k
    | with_reducible rfl
    | split
    | with_reducible intro _
    | dsimp only

theorem execSemWait_k {s0 : State} (job n v waiter : Nat) (s : State) (hK : Keeps s0 s) : KeepsO s0 (execSemWait job n v waiter s) := by
  unfold execSemWait
  repeat' first
    | with_reducible assumption
    | with_reducible apply keepsO_next
    | with_reducible apply modSem_k
    | with_reducible rfl
    | split
    | with_reducible intro _
    | dsimp only

theorem execSemWaitSatisfied_k {s0 : State} (n : Nat) (s : State) (hK : Keeps s0 s) : KeepsO s0 (execSemWaitSatisfied n s) := by
  unfold execSemWaitSatisfied
  repeat' first
    | with_reducible assumption
    | with_reducible apply keepsO_next
    | with_reducible apply modSem_k
    | with_reducible rfl
    | split
    | with_reducible intro _
    | dsimp only

theorem execSemRead_k {s0 : State} (n : Nat) (s : State) (hK : Keeps s0 s) : KeepsO s0 (execSemRead n s) := by
  unfold execSemRead
  repeat' first
    | with_reducible assumption
    | with_reducible apply keepsO_next
    | with_reducible apply answerWith_k
    | with_reducible rfl
    | split
    | with_reducible intro _
    | dsimp only

end Sys2Proof.Laws
end

