-- ==== Sys2Proof/Laws/KeepsFlags.lean ====
section
/-! SUPPORT. What the operations of Machine/Flags.lean keep (Laws/Keeps.lean). -/

set_option linter.unusedTactic false
set_option linter.unreachableTactic false
set_option linter.unusedVariables false

namespace Sys2Proof.Laws

open Sys2Proof Sys2Proof.Machine

theorem runI_k {s0 : State} (s : State) (mb op : Nat) (f : MbCommand → State → Except Nat (State × List Byte))
    (hf : ∀ c t, Keeps s0 t → KeepsE Prod.fst s0 (f c t)) (h : Keeps s0 s) : Keeps s0 (runI s mb op f) := by
  unfold runI
  split
  · exact h
  · split
    · exact answer_k _ _ _ h (hf _ _ h)
    · exact h

theorem begin_k {s0 : State} (s : State) (hK : Keeps s0 s) : Keeps s0 (State.begin s) := by
  unfold State.begin
  repeat' first
    | with_reducible assumption
    | with_reducible apply onReq_k
    | with_reducible rfl
    | split
    | with_reducible intro _
    | dsimp only

theorem runT_k {s0 : State} (s : State) (mb op : Nat) (f : MbCommand → State → Except Nat (State × List Byte))
    (hf : ∀ c t, Keeps s0 t → KeepsE Prod.fst s0 (f c t)) (h : Keeps s0 s) : Keeps s0 (runT s mb op f) := by
  have h' := begin_k s h
  unfold runT
  split
  · exact h
  · split
    · exact answer_k _ _ _ h' (hf _ _ h')
    · exact h

theorem runL_k {s0 : State} (s : State) (mb op : Nat) (f : MbCommand → State → Except Nat State)
    (hf : ∀ c t, Keeps s0 t → KeepsE id s0 (f c t)) (h : Keeps s0 s) : Keeps s0 (runL s mb op f) := by
  have h' := begin_k s h
  unfold runL
  split
  · exact h
  · split
    · split
      · rename_i heq
        exact hf _ _ h' _ heq
      · exact complete_k _ _ _ _ h'
    · exact h

theorem portsChanged_k {s0 : State} (s : State) (hK : Keeps s0 s) : Keeps s0 (State.portsChanged s) := by
  unfold State.portsChanged
  repeat' first
    | with_reducible assumption
    | with_reducible apply onHost_k
    | with_reducible apply raiseLow_k
    | with_reducible rfl
    | split
    | with_reducible intro _
    | dsimp only

end Sys2Proof.Laws
end

