-- ==== Sys2Proof/Laws/KeepsMailbox.lean ====
section
/-! SUPPORT. What the operations of Machine/Mailbox.lean keep (Laws/Keeps.lean). -/

set_option linter.unusedTactic false
set_option linter.unreachableTactic false
set_option linter.unusedVariables false

namespace Sys2Proof.Laws

open Sys2Proof Sys2Proof.Machine

theorem takeDoorbell_k {s0 : State} (s : State) (slot stamp port arrival : Nat) (hK : Keeps s0 s) : Keeps s0 (State.takeDoorbell s slot stamp port arrival) := by
  unfold State.takeDoorbell
  repeat' first
    | with_reducible assumption
    | with_reducible apply onMb_k
    | with_reducible apply complete_k
    | with_reducible rfl
    | split
    | with_reducible intro _
    | dsimp only

theorem execMbDoorbell_k {s0 : State} (t port offset width : Nat) (value : BitVec 32) (s : State) (hK : Keeps s0 s) : KeepsO s0 (execMbDoorbell t port offset width value s) := by
  unfold execMbDoorbell
  repeat' first
    | with_reducible assumption
    | with_reducible apply keepsO_next
    | with_reducible apply atTime_k
    | with_reducible apply misuse_k
    | with_reducible apply arrive_k
    | with_reducible apply takeDoorbell_k
    | with_reducible apply onMb_k
    | with_reducible rfl
    | split
    | with_reducible intro _
    | dsimp only

theorem takeLatched_k {s0 : State} (s : State) (hK : Keeps s0 s) : Keeps s0 (State.takeLatched s) := by
  unfold State.takeLatched
  repeat' first
    | with_reducible assumption
    | with_reducible apply keeps_foldl
    | with_reducible apply keeps_foldl_fst
    | with_reducible apply takeDoorbell_k
    | with_reducible apply onMb_k
    | with_reducible rfl
    | split
    | with_reducible intro _
    | dsimp only

theorem execIdentify_k {s0 : State} (mb : Nat) (s : State) (hK : Keeps s0 s) : KeepsO s0 (execIdentify mb s) := by
  unfold execIdentify
  repeat' first
    | with_reducible assumption
    | with_reducible apply keepsO_next
    | with_reducible apply runI_k
    | with_reducible apply keepsE_need
    | with_reducible apply keepsE_bindS
    | with_reducible apply keepsE_bind
    | with_reducible apply keepsE_okS
    | with_reducible apply keepsE_ok
    | with_reducible apply keepsE_error
    | with_reducible rfl
    | split
    | with_reducible intro _
    | dsimp only

theorem execEventRead_k {s0 : State} (mb : Nat) (s : State) (h : Keeps s0 s) : KeepsO s0 (execEventRead mb s) := by
  refine keepsO_next (runI_k _ _ _ _ (fun c t ht => keepsE_need fun _ => keepsE_ok ?_) h)
  refine ht.trans ⟨rfl, rfl, Nat.le_refl _, ?_⟩
  rintro ⟨⟨a, b⟩, d, e⟩
  refine ⟨⟨a, b⟩, ?_, e⟩
  simp only [State.onMb, List.length_drop]
  omega

theorem execPowerConfig_k {s0 : State} (mb : Nat) (s : State) (hK : Keeps s0 s) : KeepsO s0 (execPowerConfig mb s) := by
  unfold execPowerConfig
  repeat' first
    | with_reducible assumption
    | with_reducible apply keepsO_next
    | with_reducible apply runI_k
    | with_reducible apply onCfgNext_k
    | with_reducible apply keepsE_need
    | with_reducible apply keepsE_bindS
    | with_reducible apply keepsE_bind
    | with_reducible apply keepsE_okS
    | with_reducible apply keepsE_ok
    | with_reducible apply keepsE_error
    | with_reducible rfl
    | split
    | with_reducible intro _
    | dsimp only

theorem pendLengths_k {s0 : State} (s : State) (t c first : Nat) (hK : Keeps s0 s) : Keeps s0 (State.pendLengths s t c first) := by
  unfold State.pendLengths
  repeat' first
    | with_reducible assumption
    | with_reducible apply onTick_k
    | with_reducible rfl
    | split
    | with_reducible intro _
    | dsimp only

theorem execTickConfig_k {s0 : State} (mb : Nat) (s : State) (hK : Keeps s0 s) : KeepsO s0 (execTickConfig mb s) := by
  unfold execTickConfig
  repeat' first
    | with_reducible assumption
    | with_reducible apply keepsO_next
    | with_reducible apply runI_k
    | with_reducible apply pendLengths_k
    | with_reducible apply onCfgNext_k
    | with_reducible apply keepsE_need
    | with_reducible apply keepsE_bindS
    | with_reducible apply keepsE_bind
    | with_reducible apply keepsE_okS
    | with_reducible apply keepsE_ok
    | with_reducible apply keepsE_error
    | with_reducible rfl
    | split
    | with_reducible intro _
    | dsimp only

theorem execTenantConfig_k {s0 : State} (mb : Nat) (s : State) (hK : Keeps s0 s) : KeepsO s0 (execTenantConfig mb s) := by
  unfold execTenantConfig
  repeat' first
    | with_reducible assumption
    | with_reducible apply keepsO_next
    | with_reducible apply runI_k
    | with_reducible apply onCfgNext_k
    | with_reducible apply keepsE_need
    | with_reducible apply keepsE_bindS
    | with_reducible apply keepsE_bind
    | with_reducible apply keepsE_okS
    | with_reducible apply keepsE_ok
    | with_reducible apply keepsE_error
    | with_reducible rfl
    | split
    | with_reducible intro _
    | dsimp only

theorem execDomainConfig_k {s0 : State} (mb : Nat) (s : State) (hK : Keeps s0 s) : KeepsO s0 (execDomainConfig mb s) := by
  unfold execDomainConfig
  repeat' first
    | with_reducible assumption
    | with_reducible apply keepsO_next
    | with_reducible apply runI_k
    | with_reducible apply onCfgNext_k
    | with_reducible apply keepsE_need
    | with_reducible apply keepsE_bindS
    | with_reducible apply keepsE_bind
    | with_reducible apply keepsE_okS
    | with_reducible apply keepsE_ok
    | with_reducible apply keepsE_error
    | with_reducible rfl
    | split
    | with_reducible intro _
    | dsimp only

theorem configBody_k {s0 : State} (op : Nat) (c : MbCommand) (s : State) (hK : Keeps s0 s) : KeepsE Prod.fst s0 (configBody op c s) := by
  unfold configBody
  refine keepsE_need fun _ => keepsE_bind (f := fun _ => s) (fun _ _ => hK) fun _ h => keepsE_need fun _ => keepsE_ok ?_
  dsimp only
  exact onCfgNext_k _ h

theorem execPlanConfig_k {s0 : State} (mb : Nat) (s : State) (hK : Keeps s0 s) : KeepsO s0 (execPlanConfig mb s) := by
  unfold execPlanConfig
  repeat' first
    | with_reducible assumption
    | with_reducible apply keepsO_next
    | with_reducible apply runI_k
    | with_reducible apply configBody_k
    | with_reducible apply keepsE_need
    | with_reducible apply keepsE_bindS
    | with_reducible apply keepsE_bind
    | with_reducible apply keepsE_okS
    | with_reducible apply keepsE_ok
    | with_reducible apply keepsE_error
    | with_reducible rfl
    | split
    | with_reducible intro _
    | dsimp only

theorem execBankConfig_k {s0 : State} (mb : Nat) (s : State) (hK : Keeps s0 s) : KeepsO s0 (execBankConfig mb s) := by
  unfold execBankConfig
  repeat' first
    | with_reducible assumption
    | with_reducible apply keepsO_next
    | with_reducible apply runI_k
    | with_reducible apply configBody_k
    | with_reducible apply keepsE_need
    | with_reducible apply keepsE_bindS
    | with_reducible apply keepsE_bind
    | with_reducible apply keepsE_okS
    | with_reducible apply keepsE_ok
    | with_reducible apply keepsE_error
    | with_reducible rfl
    | split
    | with_reducible intro _
    | dsimp only

theorem execMatrixConfig_k {s0 : State} (mb : Nat) (s : State) (hK : Keeps s0 s) : KeepsO s0 (execMatrixConfig mb s) := by
  unfold execMatrixConfig
  repeat' first
    | with_reducible assumption
    | with_reducible apply keepsO_next
    | with_reducible apply runI_k
    | with_reducible apply configBody_k
    | with_reducible apply keepsE_need
    | with_reducible apply keepsE_bindS
    | with_reducible apply keepsE_bind
    | with_reducible apply keepsE_okS
    | with_reducible apply keepsE_ok
    | with_reducible apply keepsE_error
    | with_reducible rfl
    | split
    | with_reducible intro _
    | dsimp only

theorem execQuantConfig_k {s0 : State} (mb : Nat) (s : State) (hK : Keeps s0 s) : KeepsO s0 (execQuantConfig mb s) := by
  unfold execQuantConfig
  repeat' first
    | with_reducible assumption
    | with_reducible apply keepsO_next
    | with_reducible apply runI_k
    | with_reducible apply configBody_k
    | with_reducible apply keepsE_need
    | with_reducible apply keepsE_bindS
    | with_reducible apply keepsE_bind
    | with_reducible apply keepsE_okS
    | with_reducible apply keepsE_ok
    | with_reducible apply keepsE_error
    | with_reducible rfl
    | split
    | with_reducible intro _
    | dsimp only

theorem execStoreConfig_k {s0 : State} (mb : Nat) (s : State) (hK : Keeps s0 s) : KeepsO s0 (execStoreConfig mb s) := by
  unfold execStoreConfig
  repeat' first
    | with_reducible assumption
    | with_reducible apply keepsO_next
    | with_reducible apply runI_k
    | with_reducible apply configBody_k
    | with_reducible apply keepsE_need
    | with_reducible apply keepsE_bindS
    | with_reducible apply keepsE_bind
    | with_reducible apply keepsE_okS
    | with_reducible apply keepsE_ok
    | with_reducible apply keepsE_error
    | with_reducible rfl
    | split
    | with_reducible intro _
    | dsimp only

theorem execTierConfig_k {s0 : State} (mb : Nat) (s : State) (hK : Keeps s0 s) : KeepsO s0 (execTierConfig mb s) := by
  unfold execTierConfig
  repeat' first
    | with_reducible assumption
    | with_reducible apply keepsO_next
    | with_reducible apply runI_k
    | with_reducible apply configBody_k
    | with_reducible apply keepsE_need
    | with_reducible apply keepsE_bindS
    | with_reducible apply keepsE_bind
    | with_reducible apply keepsE_okS
    | with_reducible apply keepsE_ok
    | with_reducible apply keepsE_error
    | with_reducible rfl
    | split
    | with_reducible intro _
    | dsimp only

theorem execHostConfig_k {s0 : State} (mb : Nat) (s : State) (hK : Keeps s0 s) : KeepsO s0 (execHostConfig mb s) := by
  unfold execHostConfig
  repeat' first
    | with_reducible assumption
    | with_reducible apply keepsO_next
    | with_reducible apply runI_k
    | with_reducible apply configBody_k
    | with_reducible apply keepsE_need
    | with_reducible apply keepsE_bindS
    | with_reducible apply keepsE_bind
    | with_reducible apply keepsE_okS
    | with_reducible apply keepsE_ok
    | with_reducible apply keepsE_error
    | with_reducible rfl
    | split
    | with_reducible intro _
    | dsimp only

theorem execModelConfig_k {s0 : State} (mb : Nat) (s : State) (hK : Keeps s0 s) : KeepsO s0 (execModelConfig mb s) := by
  unfold execModelConfig
  repeat' first
    | with_reducible assumption
    | with_reducible apply keepsO_next
    | with_reducible apply runI_k
    | with_reducible apply configBody_k
    | with_reducible apply keepsE_need
    | with_reducible apply keepsE_bindS
    | with_reducible apply keepsE_bind
    | with_reducible apply keepsE_okS
    | with_reducible apply keepsE_ok
    | with_reducible apply keepsE_error
    | with_reducible rfl
    | split
    | with_reducible intro _
    | dsimp only

theorem execSceolConfig_k {s0 : State} (mb : Nat) (s : State) (hK : Keeps s0 s) : KeepsO s0 (execSceolConfig mb s) := by
  unfold execSceolConfig
  repeat' first
    | with_reducible assumption
    | with_reducible apply keepsO_next
    | with_reducible apply runI_k
    | with_reducible apply configBody_k
    | with_reducible apply keepsE_need
    | with_reducible apply keepsE_bindS
    | with_reducible apply keepsE_bind
    | with_reducible apply keepsE_okS
    | with_reducible apply keepsE_ok
    | with_reducible apply keepsE_error
    | with_reducible rfl
    | split
    | with_reducible intro _
    | dsimp only

theorem execGelconConfig_k {s0 : State} (mb : Nat) (s : State) (hK : Keeps s0 s) : KeepsO s0 (execGelconConfig mb s) := by
  unfold execGelconConfig
  repeat' first
    | with_reducible assumption
    | with_reducible apply keepsO_next
    | with_reducible apply runI_k
    | with_reducible apply configBody_k
    | with_reducible apply keepsE_need
    | with_reducible apply keepsE_bindS
    | with_reducible apply keepsE_bind
    | with_reducible apply keepsE_okS
    | with_reducible apply keepsE_ok
    | with_reducible apply keepsE_error
    | with_reducible rfl
    | split
    | with_reducible intro _
    | dsimp only

theorem releaseQuarantine_k {s0 : State} (s : State) (p : Nat) (hK : Keeps s0 s) : Keeps s0 (State.releaseQuarantine s p) := by
  unfold State.releaseQuarantine
  repeat' first
    | with_reducible assumption
    | with_reducible apply onGelcon_k
    | with_reducible rfl
    | split
    | with_reducible intro _
    | dsimp only

theorem execGelconQuarantineRelease_k {s0 : State} (mb : Nat) (s : State) (hK : Keeps s0 s) : KeepsO s0 (execGelconQuarantineRelease mb s) := by
  unfold execGelconQuarantineRelease
  repeat' first
    | with_reducible assumption
    | with_reducible apply keepsO_next
    | with_reducible apply runI_k
    | with_reducible apply releaseQuarantine_k
    | with_reducible apply keepsE_need
    | with_reducible apply keepsE_bindS
    | with_reducible apply keepsE_bind
    | with_reducible apply keepsE_okS
    | with_reducible apply keepsE_ok
    | with_reducible apply keepsE_error
    | with_reducible rfl
    | split
    | with_reducible intro _
    | dsimp only

theorem execGelconSpareAssign_k {s0 : State} (mb : Nat) (s : State) (hK : Keeps s0 s) : KeepsO s0 (execGelconSpareAssign mb s) := by
  unfold execGelconSpareAssign
  repeat' first
    | with_reducible assumption
    | with_reducible apply keepsO_next
    | with_reducible apply runI_k
    | with_reducible apply onGelcon_k
    | with_reducible apply keepsE_need
    | with_reducible apply keepsE_bindS
    | with_reducible apply keepsE_bind
    | with_reducible apply keepsE_okS
    | with_reducible apply keepsE_ok
    | with_reducible apply keepsE_error
    | with_reducible rfl
    | split
    | with_reducible intro _
    | dsimp only

end Sys2Proof.Laws
end

