-- ==== Sys2Proof/Laws/KeepsMatrix.lean ====
section
/-! SUPPORT. What the operations of Machine/Matrix.lean keep (Laws/Keeps.lean). -/

set_option linter.unusedTactic false
set_option linter.unreachableTactic false
set_option linter.unusedVariables false

namespace Sys2Proof.Laws

open Sys2Proof Sys2Proof.Machine

theorem putDelta_k {s0 : State} (cl tile r : Nat) (d : List U32) (s : State) (hK : Keeps s0 s) : Keeps s0 (putDelta cl tile r d s) := by
  unfold putDelta
  repeat' first
    | with_reducible assumption
    | with_reducible apply keeps_foldl
    | with_reducible apply keeps_foldl_fst
    | with_reducible apply putBytes_k
    | with_reducible rfl
    | split
    | with_reducible intro _
    | dsimp only

theorem segDeltas_k {s0 : State} (cl c job tensor layer : Nat) (zx : Byte) (base nrows : Nat) (rows : List ApassRow) (s : State) (g : Segment) (hK : Keeps s0 s) : Keeps s0 (segDeltas cl c job tensor layer zx base nrows rows s g) := by
  unfold segDeltas
  repeat' first
    | with_reducible assumption
    | with_reducible apply keeps_foldl
    | with_reducible apply keeps_foldl_fst
    | with_reducible apply putDelta_k
    | with_reducible rfl
    | split
    | with_reducible intro _
    | dsimp only

theorem mxFault_k {s0 : State} (s : State) (cl job op cause addr : Nat) (hK : Keeps s0 s) : Keeps s0 (mxFault s cl job op cause addr) := by
  unfold mxFault
  repeat' first
    | with_reducible assumption
    | with_reducible apply modMcl_k
    | with_reducible apply jobFault_k
    | with_reducible rfl
    | split
    | with_reducible intro _
    | dsimp only

theorem mxDo_k {s0 : State} (s : State) (cl job op : Nat) (w : U128) (fmt inW outW : Nat) (f : State → State) (hFf : ∀ t, Keeps s0 t → Keeps s0 (f t)) (hK : Keeps s0 s) : Keeps s0 (mxDo s cl job op w fmt inW outW f) := by
  unfold mxDo
  repeat' first
    | with_reducible assumption
    | with_reducible apply hFf
    | with_reducible apply mxFault_k
    | with_reducible rfl
    | split
    | with_reducible intro _
    | dsimp only

theorem mxRun_k {s0 : State} (s : State) (cl job op : Nat) (w : U128) (fmt inW outW : Nat) (f : State → State) (hFf : ∀ t, Keeps s0 t → Keeps s0 (f t)) (hK : Keeps s0 s) : Keeps s0 (mxRun s cl job op w fmt inW outW f) := by
  unfold mxRun
  repeat' first
    | with_reducible assumption
    | with_reducible apply hFf
    | with_reducible apply mxFault_k
    | with_reducible apply mxDo_k
    | with_reducible rfl
    | split
    | with_reducible intro _
    | dsimp only

theorem setGrp_k {s0 : State} (s : State) (cl g : Nat) (v : AccGroup) (hK : Keeps s0 s) : Keeps s0 (State.setGrp s cl g v) := by
  unfold State.setGrp
  repeat' first
    | with_reducible assumption
    | with_reducible apply modMcl_k
    | with_reducible rfl
    | split
    | with_reducible intro _
    | dsimp only

theorem dropGrp_k {s0 : State} (s : State) (cl g : Nat) (hK : Keeps s0 s) : Keeps s0 (State.dropGrp s cl g) := by
  unfold State.dropGrp
  repeat' first
    | with_reducible assumption
    | with_reducible apply modMcl_k
    | with_reducible rfl
    | split
    | with_reducible intro _
    | dsimp only

theorem loadIngot_k {s0 : State} (t : State) (cl job : Nat) (w : U128) (hK : Keeps s0 t) : Keeps s0 (loadIngot t cl job w) := by
  unfold loadIngot
  repeat' first
    | with_reducible assumption
    | with_reducible apply modMcl_k
    | with_reducible rfl
    | split
    | with_reducible intro _
    | dsimp only

theorem openGroup_k {s0 : State} (t : State) (cl job : Nat) (w : U128) (hK : Keeps s0 t) : Keeps s0 (openGroup t cl job w) := by
  unfold openGroup
  repeat' first
    | with_reducible assumption
    | with_reducible apply setGrp_k
    | with_reducible rfl
    | split
    | with_reducible intro _
    | dsimp only

theorem passRows_k {s0 : State} (t : State) (cl : Nat) (w : U128) (rows : List Nat) (hK : Keeps s0 t) : Keeps s0 (passRows t cl w rows) := by
  unfold passRows
  repeat' first
    | with_reducible assumption
    | with_reducible apply keeps_foldl
    | with_reducible apply keeps_foldl_fst
    | with_reducible apply setGrp_k
    | with_reducible apply modMcl_k
    | with_reducible apply onPlan_k
    | with_reducible rfl
    | split
    | with_reducible intro _
    | dsimp only

theorem closeGroup_k {s0 : State} (t : State) (cl : Nat) (w : U128) (hK : Keeps s0 t) : Keeps s0 (closeGroup t cl w) := by
  unfold closeGroup
  repeat' first
    | with_reducible assumption
    | with_reducible apply setGrp_k
    | with_reducible rfl
    | split
    | with_reducible intro _
    | dsimp only

theorem mxEffect_k {s0 : State} (cl : Nat) (q : MxCmd) (t : State) (hK : Keeps s0 t) : Keeps s0 (mxEffect cl q t) := by
  unfold mxEffect
  repeat' first
    | with_reducible assumption
    | with_reducible apply loadIngot_k
    | with_reducible apply openGroup_k
    | with_reducible apply passRows_k
    | with_reducible apply closeGroup_k
    | with_reducible apply dropGrp_k
    | with_reducible rfl
    | split
    | with_reducible intro _
    | dsimp only

theorem mxUnitDo_k {s0 : State} (cl : Nat) (s : State) (q : MxCmd) (hK : Keeps s0 s) : Keeps s0 (mxUnitDo cl s q) := by
  unfold mxUnitDo
  repeat' first
    | with_reducible assumption
    | with_reducible apply mxDo_k
    | with_reducible apply mxEffect_k
    | with_reducible rfl
    | split
    | with_reducible intro _
    | dsimp only

theorem mxPump_k {s0 : State} (cl : Nat) (a0 : Nat) (s : State) (hK : Keeps s0 s) : Keeps s0 (mxPump cl a0 s) := by
  induction a0 generalizing s with
  | zero => exact hK
  | succ n ih =>
    unfold mxPump
    repeat' first
      | with_reducible assumption
      | with_reducible apply ih
      | with_reducible apply mxUnitDo_k
      | with_reducible apply modMcl_k
      | with_reducible rfl
      | split
      | with_reducible intro _
      | dsimp only

theorem mxIssue_k {s0 : State} (s : State) (cl : Nat) (q : MxCmd) (hK : Keeps s0 s) : Keeps s0 (mxIssue s cl q) := by
  unfold mxIssue
  repeat' first
    | with_reducible assumption
    | with_reducible apply mxFault_k
    | with_reducible apply modMcl_k
    | with_reducible apply mxUnitDo_k
    | with_reducible rfl
    | split
    | with_reducible intro _
    | dsimp only

theorem execIload_k {s0 : State} (cl job : Nat) (word : BitVec 128) (s : State) (hK : Keeps s0 s) : KeepsO s0 (execIload cl job word s) := by
  unfold execIload
  repeat' first
    | with_reducible assumption
    | with_reducible apply keepsO_next
    | with_reducible apply mxIssue_k
    | with_reducible rfl
    | split
    | with_reducible intro _
    | dsimp only

theorem execGopen_k {s0 : State} (cl job : Nat) (word : BitVec 128) (s : State) (hK : Keeps s0 s) : KeepsO s0 (execGopen cl job word s) := by
  unfold execGopen
  repeat' first
    | with_reducible assumption
    | with_reducible apply keepsO_next
    | with_reducible apply mxIssue_k
    | with_reducible rfl
    | split
    | with_reducible intro _
    | dsimp only

theorem execMpass_k {s0 : State} (cl job : Nat) (word : BitVec 128) (rows : List Nat) (s : State) (hK : Keeps s0 s) : KeepsO s0 (execMpass cl job word rows s) := by
  unfold execMpass
  repeat' first
    | with_reducible assumption
    | with_reducible apply keepsO_next
    | with_reducible apply mxIssue_k
    | with_reducible rfl
    | split
    | with_reducible intro _
    | dsimp only

theorem execGclose_k {s0 : State} (cl job : Nat) (word : BitVec 128) (s : State) (hK : Keeps s0 s) : KeepsO s0 (execGclose cl job word s) := by
  unfold execGclose
  repeat' first
    | with_reducible assumption
    | with_reducible apply keepsO_next
    | with_reducible apply mxIssue_k
    | with_reducible rfl
    | split
    | with_reducible intro _
    | dsimp only

theorem execGfree_k {s0 : State} (cl job : Nat) (word : BitVec 128) (s : State) (hK : Keeps s0 s) : KeepsO s0 (execGfree cl job word s) := by
  unfold execGfree
  repeat' first
    | with_reducible assumption
    | with_reducible apply keepsO_next
    | with_reducible apply mxIssue_k
    | with_reducible rfl
    | split
    | with_reducible intro _
    | dsimp only

theorem execMxNop_k {s0 : State} (cl job : Nat) (word : BitVec 128) (s : State) (h : Keeps s0 s) : KeepsO s0 (execMxNop cl job word s) :=
  keepsO_next (mxRun_k _ _ _ _ _ _ _ _ _ (fun _ ht => ht) h)

theorem execApass_k {s0 : State} (cl job : Nat) (word : BitVec 128) (tensor layer : Nat) (zx : BitVec 8) (a : ApassData) (s : State) (hK : Keeps s0 s) : KeepsO s0 (execApass cl job word tensor layer zx a s) := by
  unfold execApass
  repeat' first
    | with_reducible assumption
    | with_reducible apply keepsO_next
    | with_reducible apply mxRun_k
    | with_reducible apply keeps_foldl
    | with_reducible apply keeps_foldl_fst
    | with_reducible apply segDeltas_k
    | with_reducible rfl
    | split
    | with_reducible intro _
    | dsimp only

theorem execSpload_k {s0 : State} (cl job : Nat) (word : BitVec 128) (s : State) (hK : Keeps s0 s) : KeepsO s0 (execSpload cl job word s) := by
  unfold execSpload
  repeat' first
    | with_reducible assumption
    | with_reducible apply keepsO_next
    | with_reducible apply mxRun_k
    | with_reducible apply putBytes_k
    | with_reducible apply modMcl_k
    | with_reducible apply count_k
    | with_reducible rfl
    | split
    | with_reducible intro _
    | dsimp only

theorem execSpinv_k {s0 : State} (cl job : Nat) (word : BitVec 128) (s : State) (hK : Keeps s0 s) : KeepsO s0 (execSpinv cl job word s) := by
  unfold execSpinv
  repeat' first
    | with_reducible assumption
    | with_reducible apply keepsO_next
    | with_reducible apply mxRun_k
    | with_reducible apply modMcl_k
    | with_reducible apply count_k
    | with_reducible rfl
    | split
    | with_reducible intro _
    | dsimp only

theorem saveGroup_k {s0 : State} (s : State) (cl g : Nat) (hK : Keeps s0 s) : Keeps s0 (State.saveGroup s cl g) := by
  unfold State.saveGroup
  repeat' first
    | with_reducible assumption
    | with_reducible apply onMem_k
    | with_reducible apply keeps_foldl
    | with_reducible apply keeps_foldl_fst
    | with_reducible apply putBytes_k
    | with_reducible apply modMcl_k
    | with_reducible apply dropGrp_k
    | with_reducible apply wf_foldl
    | with_reducible apply wf_clear
    | with_reducible apply wf_writeN
    | with_reducible apply wf_write
    | with_reducible rfl
    | split
    | with_reducible intro _
    | dsimp only

theorem restoreGroup_k {s0 : State} (s : State) (cl g : Nat) (hK : Keeps s0 s) : Keeps s0 (State.restoreGroup s cl g) := by
  unfold State.restoreGroup
  repeat' first
    | with_reducible assumption
    | with_reducible apply setGrp_k
    | with_reducible apply modMcl_k
    | with_reducible rfl
    | split
    | with_reducible intro _
    | dsimp only

theorem kernelIssued_k {s0 : State} (s : State) (cl m op : Nat) (hK : Keeps s0 s) : Keeps s0 (kernelIssued s cl m op) := by
  unfold kernelIssued
  repeat' first
    | with_reducible assumption
    | with_reducible apply mxFault_k
    | with_reducible rfl
    | split
    | with_reducible intro _
    | dsimp only

theorem execGsave_k {s0 : State} (cl group : Nat) (kernel : Option Nat) (s : State) (hK : Keeps s0 s) : KeepsO s0 (execGsave cl group kernel s) := by
  unfold execGsave
  repeat' first
    | with_reducible assumption
    | with_reducible apply keepsO_next
    | with_reducible apply kernelIssued_k
    | with_reducible apply saveGroup_k
    | with_reducible rfl
    | split
    | with_reducible intro _
    | dsimp only

theorem execGrstr_k {s0 : State} (cl group : Nat) (kernel : Option Nat) (s : State) (hK : Keeps s0 s) : KeepsO s0 (execGrstr cl group kernel s) := by
  unfold execGrstr
  repeat' first
    | with_reducible assumption
    | with_reducible apply keepsO_next
    | with_reducible apply kernelIssued_k
    | with_reducible apply restoreGroup_k
    | with_reducible rfl
    | split
    | with_reducible intro _
    | dsimp only

theorem issueFetch_k {s0 s t : State} {cl m k : Nat} (h : Keeps s0 s) (ht : issueFetch s cl m k = some t) : Keeps s0 t := by
  unfold issueFetch at ht
  dsimp only at ht
  split at ht
  · cases ht
  · split at ht
    · split at ht
      · cases ht
      · cases ht
        exact modMcl_k _ _ _ h
    · cases ht

theorem issueFetches_k {s0 : State} (cl m k n : Nat) (s : State) (h : Keeps s0 s) : Keeps s0 (issueFetches cl m k n s) := by
  induction n generalizing s with
  | zero => exact h
  | succ n ih =>
    unfold issueFetches
    split
    · exact h
    · exact ih _ (issueFetch_k h ‹_›)

theorem prefetchJobs_k {s0 : State} (c : Nat) (a0 : List Nat) (s : State) (hK : Keeps s0 s) : Keeps s0 (prefetchJobs c a0 s) := by
  induction a0 generalizing s with
  | nil => exact hK
  | cons x r ih =>
    unfold prefetchJobs
    repeat' first
      | with_reducible assumption
      | with_reducible apply ih
      | with_reducible apply issueFetches_k
      | with_reducible rfl
      | split
      | with_reducible intro _
      | dsimp only

theorem prefetch_k {s0 : State} (s : State) (hK : Keeps s0 s) : Keeps s0 (State.prefetch s) := by
  unfold State.prefetch
  repeat' first
    | with_reducible assumption
    | with_reducible apply keeps_foldl
    | with_reducible apply keeps_foldl_fst
    | with_reducible apply prefetchJobs_k
    | with_reducible rfl
    | split
    | with_reducible intro _
    | dsimp only

theorem execIngotFetchIssue_k {s0 : State} (cl job kernel : Nat) (s : State) (h : Keeps s0 s) :
    KeepsO s0 (execIngotFetchIssue cl job kernel s) := by
  refine keepsO_next ?_
  split
  · cases hi : issueFetch s cl job kernel with
    | none => exact h
    | some t => exact issueFetch_k h hi
  · exact h

theorem notePoison_k {s0 : State} (s : State) (m cl g : Nat) (hK : Keeps s0 s) : Keeps s0 (State.notePoison s m cl g) := by
  unfold State.notePoison
  repeat' first
    | with_reducible assumption
    | with_reducible apply countStack_k
    | with_reducible apply modMslot_k
    | with_reducible apply onFaults_k
    | with_reducible apply onPlan_k
    | with_reducible rfl
    | split
    | with_reducible intro _
    | dsimp only

theorem execIngotFetchDone_k {s0 : State} (cl : Nat) (i : FetchId) (uncorrectable : Bool) (s : State) (hK : Keeps s0 s) : KeepsO s0 (execIngotFetchDone cl i uncorrectable s) := by
  unfold execIngotFetchDone
  repeat' first
    | with_reducible assumption
    | with_reducible apply keepsO_next
    | with_reducible apply modMcl_k
    | with_reducible apply notePoison_k
    | with_reducible apply mxPump_k
    | with_reducible apply prefetch_k
    | with_reducible rfl
    | split
    | with_reducible intro _
    | dsimp only

end Sys2Proof.Laws
end

