-- ==== Sys2Proof/Laws/KeepsSampler.lean ====
section
/-! SUPPORT. What the operations of Machine/Sampler.lean keep (Laws/Keeps.lean). -/

set_option linter.unusedTactic false
set_option linter.unreachableTactic false
set_option linter.unusedVariables false

namespace Sys2Proof.Laws

open Sys2Proof Sys2Proof.Machine

theorem putRecord_k {s0 : State} (s : State) (c : CandRec) (hK : Keeps s0 s) : Keeps s0 (State.putRecord s c) := by
  unfold State.putRecord
  repeat' first
    | with_reducible assumption
    | with_reducible apply onStore_k
    | with_reducible rfl
    | split
    | with_reducible intro _
    | dsimp only

theorem modAttempt_k {s0 : State} (s : State) (slot : Nat) (f : Attempt → Attempt) (hK : Keeps s0 s) : Keeps s0 (State.modAttempt s slot f) := by
  unfold State.modAttempt
  repeat' first
    | with_reducible assumption
    | with_reducible apply onPlan_k
    | with_reducible rfl
    | split
    | with_reducible intro _
    | dsimp only

theorem readRecords_k {s0 : State} (s : State) (job slot : Nat) (hK : Keeps s0 s) : Keeps s0 (readRecords s job slot) := by
  unfold readRecords
  repeat' first
    | with_reducible assumption
    | with_reducible apply keeps_foldl
    | with_reducible apply keeps_foldl_fst
    | with_reducible apply jobReads_k
    | with_reducible rfl
    | split
    | with_reducible intro _
    | dsimp only

theorem execSamplerRowMerge_k {s0 : State} (t slot : Nat) (s : State) (hK : Keeps s0 s) : KeepsO s0 (execSamplerRowMerge t slot s) := by
  unfold execSamplerRowMerge
  repeat' first
    | with_reducible assumption
    | with_reducible apply keepsO_next
    | with_reducible apply atTime_k
    | with_reducible apply readRecords_k
    | with_reducible apply draw_k
    | with_reducible apply modAttempt_k
    | with_reducible rfl
    | split
    | with_reducible intro _
    | dsimp only

end Sys2Proof.Laws
end

