-- ==== Sys2Proof/Laws/KeepsKernels.lean ====
section
/-! SUPPORT. What the operations of Machine/Kernels.lean keep (Laws/Keeps.lean). -/

set_option linter.unusedTactic false
set_option linter.unreachableTactic false
set_option linter.unusedVariables false

namespace Sys2Proof.Laws

open Sys2Proof Sys2Proof.Machine

theorem putTree_k {s0 : State} (s : State) (slot : Nat) (hK : Keeps s0 s) : Keeps s0 (State.putTree s slot) := by
  unfold State.putTree
  repeat' first
    | with_reducible assumption
    | with_reducible apply putStore_k
    | with_reducible apply keepsE_need
    | with_reducible apply keepsE_bindS
    | with_reducible apply keepsE_bind
    | with_reducible apply keepsE_okS
    | with_reducible apply keepsE_ok
    | with_reducible apply keepsE_error
    | with_reducible rfl
    | split
    | with_reducible intro _
    | dsimp only

theorem holdTree_k {s0 : State} (s : State) (row : PlanRow) (t : List (Nat × Nat)) (qs : List (List (Nat × U32))) (hK : Keeps s0 s) : Keeps s0 (State.holdTree s row t qs) := by
  unfold State.holdTree
  repeat' first
    | with_reducible assumption
    | with_reducible apply modReq_k
    | with_reducible apply onPlan_k
    | with_reducible apply putTree_k
    | with_reducible rfl
    | split
    | with_reducible intro _
    | dsimp only

theorem draftRow_k {s0 : State} (s : State) (drafts : List DraftLogits) (row : PlanRow) (hK : Keeps s0 s) : Keeps s0 (State.draftRow s drafts row) := by
  unfold State.draftRow
  repeat' first
    | with_reducible assumption
    | with_reducible apply holdTree_k
    | with_reducible rfl
    | split
    | with_reducible intro _
    | dsimp only

theorem settleNodes_k {s0 : State} (s : State) (m : Nat) (hK : Keeps s0 s) : Keeps s0 (State.settleNodes s m) := by
  unfold State.settleNodes
  repeat' first
    | with_reducible assumption
    | with_reducible apply onPlan_k
    | with_reducible apply keepsE_need
    | with_reducible apply keepsE_bindS
    | with_reducible apply keepsE_bind
    | with_reducible apply keepsE_okS
    | with_reducible apply keepsE_ok
    | with_reducible apply keepsE_error
    | with_reducible rfl
    | split
    | with_reducible intro _
    | dsimp only

theorem buildDrafts_k {s0 : State} (s : State) (m : Nat) (drafts : List DraftLogits) (hK : Keeps s0 s) : Keeps s0 (State.buildDrafts s m drafts) := by
  unfold State.buildDrafts
  repeat' first
    | with_reducible assumption
    | with_reducible apply keeps_foldl
    | with_reducible apply keeps_foldl_fst
    | with_reducible apply draftRow_k
    | with_reducible apply settleNodes_k
    | with_reducible apply draw_k
    | with_reducible rfl
    | split
    | with_reducible intro _
    | dsimp only

theorem execTreeBuild_k {s0 : State} (slot : Nat) (s : State) (hK : Keeps s0 s) : KeepsO s0 (execTreeBuild slot s) := by
  unfold execTreeBuild
  repeat' first
    | with_reducible assumption
    | with_reducible apply keepsO_next
    | with_reducible apply holdTree_k
    | with_reducible rfl
    | split
    | with_reducible intro _
    | dsimp only

theorem execKernelStart_k {s0 : State} (model kernel : Nat) (g : Grant) (drafts : List DraftLogits) (s : State) (hK : Keeps s0 s) : KeepsO s0 (execKernelStart model kernel g drafts s) := by
  unfold execKernelStart
  repeat' first
    | with_reducible assumption
    | with_reducible apply keepsO_next
    | with_reducible apply modJob_k
    | with_reducible apply onStore_k
    | with_reducible apply keeps_foldl
    | with_reducible apply keeps_foldl_fst
    | with_reducible apply allMcl_k
    | with_reducible apply buildDrafts_k
    | with_reducible rfl
    | split
    | with_reducible intro _
    | dsimp only

theorem measure_k {s0 : State} (s : State) (m kernel : Nat) (k : KernelMeasure) (hK : Keeps s0 s) : Keeps s0 (State.measure s m kernel k) := by
  unfold State.measure
  repeat' first
    | with_reducible assumption
    | with_reducible apply onPlan_k
    | with_reducible rfl
    | split
    | with_reducible intro _
    | dsimp only

theorem measureStopped_k {s0 : State} (s : State) (l : List (Nat × Nat × KernelMeasure)) (hK : Keeps s0 s) : Keeps s0 (State.measureStopped s l) := by
  unfold State.measureStopped
  repeat' first
    | with_reducible assumption
    | with_reducible apply keeps_foldl
    | with_reducible apply keeps_foldl_fst
    | with_reducible apply measure_k
    | with_reducible apply modJob_k
    | with_reducible rfl
    | split
    | with_reducible intro _
    | dsimp only

theorem noteJobCost_k {s0 : State} (s : State) (m : Nat) (hK : Keeps s0 s) : Keeps s0 (State.noteJobCost s m) := by
  unfold State.noteJobCost
  repeat' first
    | with_reducible assumption
    | with_reducible apply onPlan_k
    | with_reducible rfl
    | split
    | with_reducible intro _
    | dsimp only

theorem jobEnd_k {s0 : State} (s : State) (m : Nat) (hK : Keeps s0 s) : Keeps s0 (State.jobEnd s m) := by
  unfold State.jobEnd
  repeat' first
    | with_reducible assumption
    | with_reducible apply modJob_k
    | with_reducible apply allMcl_k
    | with_reducible apply returnStore_k
    | with_reducible apply onPlan_k
    | with_reducible apply noteJobCost_k
    | with_reducible rfl
    | split
    | with_reducible intro _
    | dsimp only

theorem execKernelEnd_k {s0 : State} (t model kernel : Nat) (m : KernelMeasure) (s : State) (hK : Keeps s0 s) : KeepsO s0 (execKernelEnd t model kernel m s) := by
  unfold execKernelEnd
  repeat' first
    | with_reducible assumption
    | with_reducible apply keepsO_next
    | with_reducible apply atTime_k
    | with_reducible apply measure_k
    | with_reducible apply kernelClear_k
    | with_reducible apply jobFault_k
    | with_reducible apply modJob_k
    | with_reducible apply jobEnd_k
    | with_reducible rfl
    | split
    | with_reducible intro _
    | dsimp only

theorem saveGroups_k {s0 : State} (m : Nat) (s : State) (p : Nat × MatrixCluster) (hK : Keeps s0 s) : Keeps s0 (saveGroups m s p) := by
  unfold saveGroups
  repeat' first
    | with_reducible assumption
    | with_reducible apply keeps_foldl
    | with_reducible apply keeps_foldl_fst
    | with_reducible apply saveGroup_k
    | with_reducible rfl
    | split
    | with_reducible intro _
    | dsimp only

theorem restoreGroups_k {s0 : State} (m : Nat) (s : State) (p : Nat × MatrixCluster) (hK : Keeps s0 s) : Keeps s0 (restoreGroups m s p) := by
  unfold restoreGroups
  repeat' first
    | with_reducible assumption
    | with_reducible apply keeps_foldl
    | with_reducible apply keeps_foldl_fst
    | with_reducible apply restoreGroup_k
    | with_reducible rfl
    | split
    | with_reducible intro _
    | dsimp only

theorem saveUnits_k {s0 : State} (s : State) (cl u n : Nat) (hK : Keeps s0 s) : Keeps s0 (saveUnits s cl u n) := by
  unfold saveUnits
  repeat' first
    | with_reducible assumption
    | with_reducible apply putBytes_k
    | with_reducible rfl
    | split
    | with_reducible intro _
    | dsimp only

theorem restoreUnits_k {s0 : State} (s : State) (cl u n : Nat) (hK : Keeps s0 s) : Keeps s0 (restoreUnits s cl u n) := by
  unfold restoreUnits
  repeat' first
    | with_reducible assumption
    | with_reducible apply putBytes_k
    | with_reducible rfl
    | split
    | with_reducible intro _
    | dsimp only

theorem saveDirty_k {s0 : State} (s : State) (dirty : List (Nat × Nat × Nat)) (hK : Keeps s0 s) : Keeps s0 (State.saveDirty s dirty) := by
  unfold State.saveDirty
  repeat' first
    | with_reducible assumption
    | with_reducible apply keeps_foldl
    | with_reducible apply keeps_foldl_fst
    | with_reducible apply saveUnits_k
    | with_reducible apply modMcl_k
    | with_reducible rfl
    | split
    | with_reducible intro _
    | dsimp only

theorem restoreScratch_k {s0 : State} (s : State) (p : Nat × MatrixCluster) (hK : Keeps s0 s) : Keeps s0 (restoreScratch s p) := by
  unfold restoreScratch
  repeat' first
    | with_reducible assumption
    | with_reducible apply keeps_foldl
    | with_reducible apply keeps_foldl_fst
    | with_reducible apply restoreUnits_k
    | with_reducible apply modMcl_k
    | with_reducible rfl
    | split
    | with_reducible intro _
    | dsimp only

theorem execPreempt_k {s0 : State} (model : Nat) (dirty : List (Nat × Nat × Nat)) (s : State) (hK : Keeps s0 s) : KeepsO s0 (execPreempt model dirty s) := by
  unfold execPreempt
  repeat' first
    | with_reducible assumption
    | with_reducible apply keepsO_next
    | with_reducible apply saveDirty_k
    | with_reducible apply keeps_foldl
    | with_reducible apply keeps_foldl_fst
    | with_reducible apply saveGroups_k
    | with_reducible apply allMcl_k
    | with_reducible apply onPlan_k
    | with_reducible apply countStep_k
    | with_reducible rfl
    | split
    | with_reducible intro _
    | dsimp only

theorem execJobResume_k {s0 : State} (model : Nat) (s : State) (hK : Keeps s0 s) : KeepsO s0 (execJobResume model s) := by
  unfold execJobResume
  repeat' first
    | with_reducible assumption
    | with_reducible apply keepsO_next
    | with_reducible apply keeps_foldl
    | with_reducible apply keeps_foldl_fst
    | with_reducible apply restoreScratch_k
    | with_reducible apply restoreGroups_k
    | with_reducible apply onPlan_k
    | with_reducible rfl
    | split
    | with_reducible intro _
    | dsimp only

end Sys2Proof.Laws
end

