-- ==== Sys2Proof/Laws/KeepsPackets.lean ====
section
/-! SUPPORT. What the operations of Machine/Packets.lean keep (Laws/Keeps.lean). -/

set_option linter.unusedTactic false
set_option linter.unreachableTactic false
set_option linter.unusedVariables false

namespace Sys2Proof.Laws

open Sys2Proof Sys2Proof.Machine

theorem modPort_k {s0 : State} (s : State) (p : Nat) (f : Port → Port) (hK : Keeps s0 s) : Keeps s0 (State.modPort s p f) := by
  unfold State.modPort
  repeat' first
    | with_reducible assumption
    | with_reducible apply onGelcon_k
    | with_reducible rfl
    | split
    | with_reducible intro _
    | dsimp only

theorem pump_k {s0 : State} (s : State) (p : Nat) (hK : Keeps s0 s) : Keeps s0 (State.pump s p) := by
  unfold State.pump
  repeat' first
    | with_reducible assumption
    | with_reducible apply modPort_k
    | with_reducible apply countPort_k
    | with_reducible rfl
    | split
    | with_reducible intro _
    | dsimp only

theorem queueFlits_k {s0 : State} (s : State) (p : Nat) (l : List Flit) (hK : Keeps s0 s) : Keeps s0 (State.queueFlits s p l) := by
  unfold State.queueFlits
  repeat' first
    | with_reducible assumption
    | with_reducible apply modPort_k
    | with_reducible apply pump_k
    | with_reducible rfl
    | split
    | with_reducible intro _
    | dsimp only

theorem sendPlain_k {s0 : State} (s : State) (p ftype : Nat) (data : List Byte) (hK : Keeps s0 s) : Keeps s0 (State.sendPlain s p ftype data) := by
  unfold State.sendPlain
  repeat' first
    | with_reducible assumption
    | with_reducible apply modPort_k
    | with_reducible rfl
    | split
    | with_reducible intro _
    | dsimp only

theorem sendNak_k {s0 : State} (s : State) (p cause vc : Nat) (hK : Keeps s0 s) : Keeps s0 (State.sendNak s p cause vc) := by
  unfold State.sendNak
  repeat' first
    | with_reducible assumption
    | with_reducible apply sendPlain_k
    | with_reducible apply modPort_k
    | with_reducible rfl
    | split
    | with_reducible intro _
    | dsimp only

theorem resendFrom_k {s0 : State} (s : State) (p seq : Nat) (hK : Keeps s0 s) : Keeps s0 (State.resendFrom s p seq) := by
  unfold State.resendFrom
  repeat' first
    | with_reducible assumption
    | with_reducible apply modPort_k
    | with_reducible apply countPort_k
    | with_reducible rfl
    | split
    | with_reducible intro _
    | dsimp only

theorem returnCredits_k {s0 : State} (s : State) (p : Nat) (hK : Keeps s0 s) : Keeps s0 (State.returnCredits s p) := by
  unfold State.returnCredits
  repeat' first
    | with_reducible assumption
    | with_reducible apply modPort_k
    | with_reducible apply queueFlits_k
    | with_reducible rfl
    | split
    | with_reducible intro _
    | dsimp only

theorem sendAck_k {s0 : State} (s : State) (p : Nat) (hK : Keeps s0 s) : Keeps s0 (State.sendAck s p) := by
  unfold State.sendAck
  repeat' first
    | with_reducible assumption
    | with_reducible apply sendPlain_k
    | with_reducible rfl
    | split
    | with_reducible intro _
    | dsimp only

theorem reportPorts_k {s0 : State} (s : State) (hK : Keeps s0 s) : Keeps s0 (State.reportPorts s) := by
  unfold State.reportPorts
  repeat' first
    | with_reducible assumption
    | with_reducible apply onGelcon_k
    | with_reducible rfl
    | split
    | with_reducible intro _
    | dsimp only

theorem noteErr_k {s0 : State} (s : State) (cause ptype tag : Nat) (hK : Keeps s0 s) : Keeps s0 (State.noteErr s cause ptype tag) := by
  unfold State.noteErr
  repeat' first
    | with_reducible assumption
    | with_reducible apply onGelcon_k
    | with_reducible rfl
    | split
    | with_reducible intro _
    | dsimp only

theorem sendPacket_k {s0 : State} (s : State) (p : Packet) (hK : Keeps s0 s) : Keeps s0 (State.sendPacket s p) := by
  unfold State.sendPacket
  repeat' first
    | with_reducible assumption
    | with_reducible apply onGelcon_k
    | with_reducible apply queueFlits_k
    | with_reducible apply noteErr_k
    | with_reducible rfl
    | split
    | with_reducible intro _
    | dsimp only

theorem sendMsg_k {s0 : State} (s : State) (dst ptype tc base handle : Nat) (ordered : Bool) (payload : List Byte) (hK : Keeps s0 s) : Keeps s0 (State.sendMsg s dst ptype tc base handle ordered payload) := by
  unfold State.sendMsg
  repeat' first
    | with_reducible assumption
    | with_reducible apply onGelcon_k
    | with_reducible apply keeps_foldl
    | with_reducible apply keeps_foldl_fst
    | with_reducible apply sendPacket_k
    | with_reducible rfl
    | split
    | with_reducible intro _
    | dsimp only

theorem sendErr_k {s0 : State} (s : State) (p : Packet) (cause : Nat) (hK : Keeps s0 s) : Keeps s0 (State.sendErr s p cause) := by
  unfold State.sendErr
  repeat' first
    | with_reducible assumption
    | with_reducible apply sendMsg_k
    | with_reducible rfl
    | split
    | with_reducible intro _
    | dsimp only

theorem sendAgain_k {s0 : State} (s : State) (f : Flit) (hK : Keeps s0 s) : Keeps s0 (State.sendAgain s f) := by
  unfold State.sendAgain
  repeat' first
    | with_reducible assumption
    | with_reducible apply queueFlits_k
    | with_reducible apply noteErr_k
    | with_reducible apply sendErr_k
    | with_reducible rfl
    | split
    | with_reducible intro _
    | dsimp only

theorem portFalls_k {s0 : State} (s : State) (p : Nat) (f : Port → Port) (hK : Keeps s0 s) : Keeps s0 (State.portFalls s p f) := by
  unfold State.portFalls
  repeat' first
    | with_reducible assumption
    | with_reducible apply modPort_k
    | with_reducible apply keeps_foldl
    | with_reducible apply keeps_foldl_fst
    | with_reducible apply sendAgain_k
    | with_reducible apply reportPorts_k
    | with_reducible rfl
    | split
    | with_reducible intro _
    | dsimp only

theorem violate_k {s0 : State} (s : State) (p : Nat) (hK : Keeps s0 s) : Keeps s0 (State.violate s p) := by
  unfold State.violate
  repeat' first
    | with_reducible assumption
    | with_reducible apply countPort_k
    | with_reducible apply modPort_k
    | with_reducible apply portFalls_k
    | with_reducible apply postEvent_k
    | with_reducible rfl
    | split
    | with_reducible intro _
    | dsimp only

theorem resyncVc_k {s0 : State} (s : State) (p vc : Nat) (hK : Keeps s0 s) : Keeps s0 (State.resyncVc s p vc) := by
  unfold State.resyncVc
  repeat' first
    | with_reducible assumption
    | with_reducible apply modPort_k
    | with_reducible rfl
    | split
    | with_reducible intro _
    | dsimp only

theorem badPacket_k {s0 : State} (s : State) (port cause : Nat) (p : Packet) (hK : Keeps s0 s) : Keeps s0 (State.badPacket s port cause p) := by
  unfold State.badPacket
  repeat' first
    | with_reducible assumption
    | with_reducible apply sendErr_k
    | with_reducible apply resyncVc_k
    | with_reducible apply violate_k
    | with_reducible rfl
    | split
    | with_reducible intro _
    | dsimp only

theorem arrives_k {s0 s t : State} {port : Nat} {p : Packet} (hK : Keeps s0 s) (h : s.arrives port p = some t) : Keeps s0 t := by
  unfold State.arrives at h
  dsimp only at h
  split at h
  · cases h
  · split at h
    · split at h
      · cases h
        exact modPort_k _ _ _ hK
      · cases h
    · cases h
      exact hK

theorem receive_k {s0 : State} (s : State) (port : Nat) (p : Packet) (ptype : Nat) (f : State → State) (hFf : ∀ t, Keeps s0 t → Keeps s0 (f t)) (hK : Keeps s0 s) : Keeps s0 (State.receive s port p ptype f) := by
  unfold State.receive
  repeat' first
    | with_reducible assumption
    | with_reducible apply hFf
    | with_reducible apply badPacket_k
    | exact arrives_k hK ‹_›
    | exact arrives_k (atTime_k _ _ hK) ‹_›
    | with_reducible rfl
    | split
    | with_reducible intro _
    | dsimp only

theorem tc0In_k {s0 : State} (s : State) (port : Nat) (payload : List Byte) (f : State → State) (hFf : ∀ t, Keeps s0 t → Keeps s0 (f t)) (hK : Keeps s0 s) : Keeps s0 (State.tc0In s port payload f) := by
  unfold State.tc0In
  repeat' first
    | with_reducible assumption
    | with_reducible apply hFf
    | with_reducible apply onGelcon_k
    | with_reducible rfl
    | split
    | with_reducible intro _
    | dsimp only

end Sys2Proof.Laws
end

