-- ==== Sys2Proof/Laws/KeepsLinks.lean ====
section
/-! SUPPORT. What the operations of Machine/Links.lean keep (Laws/Keeps.lean). -/

set_option linter.unusedTactic false
set_option linter.unreachableTactic false
set_option linter.unusedVariables false

namespace Sys2Proof.Laws

open Sys2Proof Sys2Proof.Machine

theorem freeVc_k {s0 : State} (p : Nat) (q : State × List Nat) (n : Nat) (hK : Keeps s0 q.1) : Keeps s0 (freeVc p q n).1 := by
  unfold freeVc
  repeat' first
    | with_reducible assumption
    | with_reducible apply modPort_k
    | with_reducible rfl
    | split
    | with_reducible intro _
    | dsimp only

theorem returnMany_k {s0 : State} (s : State) (p : Nat) (hK : Keeps s0 s) : Keeps s0 (State.returnMany s p) := by
  unfold State.returnMany
  repeat' first
    | with_reducible assumption
    | with_reducible apply returnCredits_k
    | with_reducible rfl
    | split
    | with_reducible intro _
    | dsimp only

theorem freeTransit_k {s0 : State} (s : State) (hK : Keeps s0 s) : Keeps s0 (State.freeTransit s) := by
  unfold State.freeTransit
  repeat' first
    | with_reducible assumption
    | with_reducible apply keeps_foldl
    | with_reducible apply keeps_foldl_fst
    | with_reducible apply freeVc_k
    | with_reducible apply returnMany_k
    | with_reducible rfl
    | split
    | with_reducible intro _
    | dsimp only

theorem gap_k {s0 : State} (s : State) (p : Nat) (hK : Keeps s0 s) : Keeps s0 (State.gap s p) := by
  unfold State.gap
  repeat' first
    | with_reducible assumption
    | with_reducible apply countPort_k
    | with_reducible apply modPort_k
    | with_reducible apply sendNak_k
    | with_reducible rfl
    | split
    | with_reducible intro _
    | dsimp only

theorem accept_k {s0 : State} (s : State) (p : Nat) (b : List Byte) (hK : Keeps s0 s) : Keeps s0 (State.accept s p b) := by
  unfold State.accept
  repeat' first
    | with_reducible assumption
    | with_reducible apply countPort_k
    | with_reducible apply modPort_k
    | with_reducible apply sendAck_k
    | with_reducible rfl
    | split
    | with_reducible intro _
    | dsimp only

theorem control_k {s0 : State} (s : State) (p : Nat) (clean : Bool) (k : State → State) (hFk : ∀ t, Keeps s0 t → Keeps s0 (k t)) (hK : Keeps s0 s) : Keeps s0 (State.control s p clean k) := by
  unfold State.control
  repeat' first
    | with_reducible assumption
    | with_reducible apply hFk
    | with_reducible apply violate_k
    | with_reducible rfl
    | split
    | with_reducible intro _
    | dsimp only

theorem dataFlit_k {s0 : State} (s : State) (p : Nat) (b : List Byte) (hK : Keeps s0 s) : Keeps s0 (State.dataFlit s p b) := by
  unfold State.dataFlit
  repeat' first
    | with_reducible assumption
    | with_reducible apply modPort_k
    | with_reducible apply sendNak_k
    | with_reducible apply violate_k
    | with_reducible apply returnMany_k
    | with_reducible rfl
    | split
    | with_reducible intro _
    | dsimp only

theorem flitBody_k {s0 : State} (s : State) (p : Nat) (b : List Byte) (hK : Keeps s0 s) : Keeps s0 (State.flitBody s p b) := by
  unfold State.flitBody
  repeat' first
    | with_reducible assumption
    | with_reducible apply dataFlit_k
    | with_reducible apply control_k
    | with_reducible apply modPort_k
    | with_reducible apply keeps_foldl
    | with_reducible apply keeps_foldl_fst
    | with_reducible rfl
    | split
    | with_reducible intro _
    | dsimp only

theorem takeMask_k {s0 : State} (s : State) (p : Nat) (hK : Keeps s0 s) : Keeps s0 (State.takeMask s p) := by
  unfold State.takeMask
  repeat' first
    | with_reducible assumption
    | with_reducible apply portFalls_k
    | with_reducible apply modPort_k
    | with_reducible rfl
    | split
    | with_reducible intro _
    | dsimp only

theorem setLanes_k {s0 : State} (s : State) (p mask frame : Nat) (hK : Keeps s0 s) : Keeps s0 (State.setLanes s p mask frame) := by
  unfold State.setLanes
  repeat' first
    | with_reducible assumption
    | with_reducible apply modPort_k
    | with_reducible apply takeMask_k
    | with_reducible rfl
    | split
    | with_reducible intro _
    | dsimp only

theorem seeFrame_k {s0 : State} (s : State) (p : Nat) (f : FlitIn) (hK : Keeps s0 s) : Keeps s0 (State.seeFrame s p f) := by
  unfold State.seeFrame
  repeat' first
    | with_reducible assumption
    | with_reducible apply modPort_k
    | with_reducible apply takeMask_k
    | with_reducible rfl
    | split
    | with_reducible intro _
    | dsimp only

theorem inOrderFlit_k {s0 : State} (s : State) (p : Nat) (b : List Byte) (hK : Keeps s0 s) : Keeps s0 (State.inOrderFlit s p b) := by
  unfold State.inOrderFlit
  repeat' first
    | with_reducible assumption
    | with_reducible apply modPort_k
    | with_reducible apply accept_k
    | with_reducible apply flitBody_k
    | with_reducible rfl
    | split
    | with_reducible intro _
    | dsimp only

theorem drainHeld_k {s0 : State} (p : Nat) (a0 : Nat) (s : State) (hK : Keeps s0 s) : Keeps s0 (drainHeld p a0 s) := by
  induction a0 generalizing s with
  | zero => exact hK
  | succ n ih =>
    unfold drainHeld
    repeat' first
      | with_reducible assumption
      | with_reducible apply ih
      | with_reducible apply modPort_k
      | with_reducible apply inOrderFlit_k
      | with_reducible apply gap_k
      | with_reducible rfl
      | split
      | with_reducible intro _
      | dsimp only

theorem flitIn_k {s0 : State} (s : State) (p ft : Nat) (f : FlitIn) (k : State → State) (hFk : ∀ t, Keeps s0 t → Keeps s0 (k t)) (hK : Keeps s0 s) : Keeps s0 (State.flitIn s p ft f k) := by
  unfold State.flitIn
  repeat' first
    | with_reducible assumption
    | with_reducible apply hFk
    | with_reducible apply countPort_k
    | with_reducible apply seeFrame_k
    | with_reducible apply gap_k
    | with_reducible apply violate_k
    | with_reducible apply modPort_k
    | with_reducible apply inOrderFlit_k
    | with_reducible apply drainHeld_k
    | with_reducible apply pump_k
    | with_reducible apply freeTransit_k
    | with_reducible rfl
    | split
    | with_reducible intro _
    | dsimp only

theorem execFlitData_k {s0 : State} (t port : Nat) (f : FlitIn) (s : State) (hK : Keeps s0 s) : KeepsO s0 (execFlitData t port f s) := by
  unfold execFlitData
  repeat' first
    | with_reducible assumption
    | with_reducible apply keepsO_next
    | with_reducible apply atTime_k
    | with_reducible apply flitIn_k
    | with_reducible rfl
    | split
    | with_reducible intro _
    | dsimp only

theorem execFlitIdle_k {s0 : State} (t port : Nat) (f : FlitIn) (s : State) (hK : Keeps s0 s) : KeepsO s0 (execFlitIdle t port f s) := by
  unfold execFlitIdle
  repeat' first
    | with_reducible assumption
    | with_reducible apply keepsO_next
    | with_reducible apply atTime_k
    | with_reducible apply flitIn_k
    | with_reducible rfl
    | split
    | with_reducible intro _
    | dsimp only

theorem execFlitCredit_k {s0 : State} (t port : Nat) (f : FlitIn) (s : State) (hK : Keeps s0 s) : KeepsO s0 (execFlitCredit t port f s) := by
  unfold execFlitCredit
  repeat' first
    | with_reducible assumption
    | with_reducible apply keepsO_next
    | with_reducible apply atTime_k
    | with_reducible apply flitIn_k
    | with_reducible rfl
    | split
    | with_reducible intro _
    | dsimp only

theorem execFlitNak_k {s0 : State} (t port : Nat) (f : FlitIn) (s : State) (hK : Keeps s0 s) : KeepsO s0 (execFlitNak t port f s) := by
  unfold execFlitNak
  repeat' first
    | with_reducible assumption
    | with_reducible apply keepsO_next
    | with_reducible apply atTime_k
    | with_reducible apply flitIn_k
    | with_reducible apply control_k
    | with_reducible apply modPort_k
    | with_reducible apply queueFlits_k
    | with_reducible apply resendFrom_k
    | with_reducible rfl
    | split
    | with_reducible intro _
    | dsimp only

theorem execFlitVcReset_k {s0 : State} (t port : Nat) (f : FlitIn) (s : State) (hK : Keeps s0 s) : KeepsO s0 (execFlitVcReset t port f s) := by
  unfold execFlitVcReset
  repeat' first
    | with_reducible assumption
    | with_reducible apply keepsO_next
    | with_reducible apply atTime_k
    | with_reducible apply flitIn_k
    | with_reducible rfl
    | split
    | with_reducible intro _
    | dsimp only

theorem miscable_k {s0 : State} (s : State) (p : Nat) (hK : Keeps s0 s) : Keeps s0 (State.miscable s p) := by
  unfold State.miscable
  repeat' first
    | with_reducible assumption
    | with_reducible apply portFalls_k
    | with_reducible apply postEvent_k
    | with_reducible rfl
    | split
    | with_reducible intro _
    | dsimp only

theorem execFlitIdent_k {s0 : State} (t port : Nat) (f : FlitIn) (tags : List (BitVec 8)) (s : State) (hK : Keeps s0 s) : KeepsO s0 (execFlitIdent t port f tags s) := by
  unfold execFlitIdent
  repeat' first
    | with_reducible assumption
    | with_reducible apply keepsO_next
    | with_reducible apply atTime_k
    | with_reducible apply flitIn_k
    | with_reducible apply modPort_k
    | with_reducible apply reportPorts_k
    | with_reducible apply miscable_k
    | with_reducible rfl
    | split
    | with_reducible intro _
    | dsimp only

theorem execFlitLane_k {s0 : State} (t port : Nat) (f : FlitIn) (s : State) (hK : Keeps s0 s) : KeepsO s0 (execFlitLane t port f s) := by
  unfold execFlitLane
  repeat' first
    | with_reducible assumption
    | with_reducible apply keepsO_next
    | with_reducible apply atTime_k
    | with_reducible apply flitIn_k
    | with_reducible apply control_k
    | with_reducible apply setLanes_k
    | with_reducible apply sendPlain_k
    | with_reducible rfl
    | split
    | with_reducible intro _
    | dsimp only

theorem execLaneRetire_k {s0 : State} (t port : Nat) (l : LaneReport) (frame : Nat) (s : State) (hK : Keeps s0 s) : KeepsO s0 (execLaneRetire t port l frame s) := by
  unfold execLaneRetire
  repeat' first
    | with_reducible assumption
    | with_reducible apply keepsO_next
    | with_reducible apply atTime_k
    | with_reducible apply modPort_k
    | with_reducible apply countPort_k
    | with_reducible apply sendPlain_k
    | with_reducible apply setLanes_k
    | with_reducible rfl
    | split
    | with_reducible intro _
    | dsimp only

theorem execLaneRetrain_k {s0 : State} (t port lane frame : Nat) (ok : Bool) (s : State) (hK : Keeps s0 s) : KeepsO s0 (execLaneRetrain t port lane frame ok s) := by
  unfold execLaneRetrain
  repeat' first
    | with_reducible assumption
    | with_reducible apply keepsO_next
    | with_reducible apply atTime_k
    | with_reducible apply modPort_k
    | with_reducible apply sendPlain_k
    | with_reducible apply setLanes_k
    | with_reducible rfl
    | split
    | with_reducible intro _
    | dsimp only

theorem execPortTrained_k {s0 : State} (t port lanes : Nat) (s : State) (hK : Keeps s0 s) : KeepsO s0 (execPortTrained t port lanes s) := by
  unfold execPortTrained
  repeat' first
    | with_reducible assumption
    | with_reducible apply keepsO_next
    | with_reducible apply atTime_k
    | with_reducible apply portFalls_k
    | with_reducible apply sendPlain_k
    | with_reducible rfl
    | split
    | with_reducible intro _
    | dsimp only

theorem execGelconPortDown_k {s0 : State} (t port : Nat) (s : State) (hK : Keeps s0 s) : KeepsO s0 (execGelconPortDown t port s) := by
  unfold execGelconPortDown
  repeat' first
    | with_reducible assumption
    | with_reducible apply keepsO_next
    | with_reducible apply atTime_k
    | with_reducible apply portFalls_k
    | with_reducible rfl
    | split
    | with_reducible intro _
    | dsimp only

theorem execNakRepeat_k {s0 : State} (t port : Nat) (s : State) (hK : Keeps s0 s) : KeepsO s0 (execNakRepeat t port s) := by
  unfold execNakRepeat
  repeat' first
    | with_reducible assumption
    | with_reducible apply keepsO_next
    | with_reducible apply atTime_k
    | with_reducible apply sendNak_k
    | with_reducible rfl
    | split
    | with_reducible intro _
    | dsimp only

theorem execResendTimeout_k {s0 : State} (t port : Nat) (s : State) (hK : Keeps s0 s) : KeepsO s0 (execResendTimeout t port s) := by
  unfold execResendTimeout
  repeat' first
    | with_reducible assumption
    | with_reducible apply keepsO_next
    | with_reducible apply atTime_k
    | with_reducible apply resendFrom_k
    | with_reducible rfl
    | split
    | with_reducible intro _
    | dsimp only

theorem execAckTimer_k {s0 : State} (t port : Nat) (s : State) (hK : Keeps s0 s) : KeepsO s0 (execAckTimer t port s) := by
  unfold execAckTimer
  repeat' first
    | with_reducible assumption
    | with_reducible apply keepsO_next
    | with_reducible apply atTime_k
    | with_reducible apply sendAck_k
    | with_reducible rfl
    | split
    | with_reducible intro _
    | dsimp only

theorem execCreditReturnTimer_k {s0 : State} (t port : Nat) (s : State) (hK : Keeps s0 s) : KeepsO s0 (execCreditReturnTimer t port s) := by
  unfold execCreditReturnTimer
  repeat' first
    | with_reducible assumption
    | with_reducible apply keepsO_next
    | with_reducible apply atTime_k
    | with_reducible apply draw_k
    | with_reducible apply modPort_k
    | with_reducible apply returnCredits_k
    | with_reducible rfl
    | split
    | with_reducible intro _
    | dsimp only

theorem execPartnerViolation_k {s0 : State} (t port cause vc : Nat) (p : Packet) (s : State) (hK : Keeps s0 s) : KeepsO s0 (execPartnerViolation t port cause vc p s) := by
  unfold execPartnerViolation
  repeat' first
    | with_reducible assumption
    | with_reducible apply keepsO_next
    | with_reducible apply atTime_k
    | with_reducible apply gap_k
    | with_reducible apply modPort_k
    | with_reducible apply sendNak_k
    | with_reducible apply violate_k
    | with_reducible apply badPacket_k
    | with_reducible rfl
    | split
    | with_reducible intro _
    | dsimp only

theorem execPacketForward_k {s0 : State} (t port : Nat) (p : Packet) (queues : List (Nat × Nat)) (s : State) (hK : Keeps s0 s) : KeepsO s0 (execPacketForward t port p queues s) := by
  unfold execPacketForward
  repeat' first
    | with_reducible assumption
    | with_reducible apply keepsO_next
    | with_reducible apply atTime_k
    | with_reducible apply badPacket_k
    | with_reducible apply onGelcon_k
    | with_reducible apply queueFlits_k
    | exact arrives_k hK ‹_›
    | exact arrives_k (atTime_k _ _ hK) ‹_›
    | with_reducible rfl
    | split
    | with_reducible intro _
    | dsimp only

theorem execErr_k {s0 : State} (t : Nat) (a : Arrival) (s : State) (hK : Keeps s0 s) : KeepsO s0 (execErr t a s) := by
  unfold execErr
  repeat' first
    | with_reducible assumption
    | with_reducible apply keepsO_next
    | with_reducible apply atTime_k
    | with_reducible apply receive_k
    | with_reducible apply noteErr_k
    | with_reducible rfl
    | split
    | with_reducible intro _
    | dsimp only

theorem outOfBounds_k {s0 : State} (s : State) (a : Nat) (hK : Keeps s0 s) : Keeps s0 (State.outOfBounds s a) := by
  unfold State.outOfBounds
  repeat' first
    | with_reducible assumption
    | with_reducible apply count_k
    | with_reducible apply postEvent_k
    | with_reducible rfl
    | split
    | with_reducible intro _
    | dsimp only

theorem actArrived_k {s0 : State} (s : State) (a : Nat) (hK : Keeps s0 s) : Keeps s0 (State.actArrived s a) := by
  unfold State.actArrived
  repeat' first
    | with_reducible assumption
    | with_reducible apply modJob_k
    | with_reducible rfl
    | split
    | with_reducible intro _
    | dsimp only

theorem execActData_k {s0 : State} (t : Nat) (a : Arrival) (s : State) (hK : Keeps s0 s) : KeepsO s0 (execActData t a s) := by
  unfold execActData
  repeat' first
    | with_reducible assumption
    | with_reducible apply keepsO_next
    | with_reducible apply atTime_k
    | with_reducible apply sendPacket_k
    | with_reducible apply receive_k
    | with_reducible apply putStore_k
    | with_reducible apply actArrived_k
    | with_reducible apply outOfBounds_k
    | with_reducible apply violate_k
    | with_reducible rfl
    | split
    | with_reducible intro _
    | dsimp only

end Sys2Proof.Laws
end

