-- ==== Sys2Proof/Laws/KeepsBank.lean ====
section
/-! SUPPORT. What the operations of Machine/Bank.lean keep (Laws/Keeps.lean). -/

set_option linter.unusedTactic false
set_option linter.unreachableTactic false
set_option linter.unusedVariables false

namespace Sys2Proof.Laws

open Sys2Proof Sys2Proof.Machine

theorem modBu_k {s0 : State} (s : State) (cl b : Nat) (f : BankUnit → BankUnit) (hK : Keeps s0 s) : Keeps s0 (State.modBu s cl b f) := by
  unfold State.modBu
  repeat' first
    | with_reducible assumption
    | with_reducible apply modBcl_k
    | with_reducible rfl
    | split
    | with_reducible intro _
    | dsimp only

theorem modScope_k {s0 : State} (s : State) (cl : Nat) (l : List Nat) (f : BankUnit → BankUnit) (hK : Keeps s0 s) : Keeps s0 (State.modScope s cl l f) := by
  unfold State.modScope
  repeat' first
    | with_reducible assumption
    | with_reducible apply keeps_foldl
    | with_reducible apply keeps_foldl_fst
    | with_reducible apply modBu_k
    | with_reducible rfl
    | split
    | with_reducible intro _
    | dsimp only

theorem buStream_k {s0 : State} (cl : Nat) (w : U128) (before : State) (s : State) (hK : Keeps s0 before) (hK1 : Keeps s0 s) : Keeps s0 (buStream cl w before s) := by
  unfold buStream
  repeat' first
    | with_reducible assumption
    | with_reducible apply keeps_foldl
    | with_reducible apply keeps_foldl_fst
    | with_reducible apply modBu_k
    | with_reducible rfl
    | split
    | with_reducible intro _
    | dsimp only

theorem rchkNote_k {s0 : State} (s : State) (cl job g kind op : Nat) (hK : Keeps s0 s) : Keeps s0 (rchkNote s cl job g kind op) := by
  unfold rchkNote
  repeat' first
    | with_reducible assumption
    | with_reducible apply modBcl_k
    | with_reducible rfl
    | split
    | with_reducible intro _
    | dsimp only

theorem doQload_k {s0 : State} (cl : Nat) (c : BuCmd) (t : State) (hK : Keeps s0 t) : Keeps s0 (doQload cl c t) := by
  unfold doQload
  repeat' first
    | with_reducible assumption
    | with_reducible apply modScope_k
    | with_reducible rfl
    | split
    | with_reducible intro _
    | dsimp only

theorem doGload_k {s0 : State} (cl : Nat) (c : BuCmd) (t : State) (hK : Keeps s0 t) : Keeps s0 (doGload cl c t) := by
  unfold doGload
  repeat' first
    | with_reducible assumption
    | with_reducible apply modScope_k
    | with_reducible rfl
    | split
    | with_reducible intro _
    | dsimp only

theorem doTload_k {s0 : State} (cl : Nat) (c : BuCmd) (t : State) (hK : Keeps s0 t) : Keeps s0 (doTload cl c t) := by
  unfold doTload
  repeat' first
    | with_reducible assumption
    | with_reducible apply modScope_k
    | with_reducible apply modBcl_k
    | with_reducible rfl
    | split
    | with_reducible intro _
    | dsimp only

theorem doAclr_k {s0 : State} (cl : Nat) (c : BuCmd) (t : State) (hK : Keeps s0 t) : Keeps s0 (doAclr cl c t) := by
  unfold doAclr
  repeat' first
    | with_reducible assumption
    | with_reducible apply modScope_k
    | with_reducible apply keeps_foldl
    | with_reducible apply keeps_foldl_fst
    | with_reducible rfl
    | split
    | with_reducible intro _
    | dsimp only

theorem countTaints_k {s0 : State} (cl : Nat) (old new : State) (scope : List Nat) (hK : Keeps s0 old) (hK1 : Keeps s0 new) : Keeps s0 (countTaints cl old new scope) := by
  unfold countTaints
  repeat' first
    | with_reducible assumption
    | with_reducible apply countStack_k
    | with_reducible rfl
    | split
    | with_reducible intro _
    | dsimp only

theorem doPass_k {s0 : State} (cl : Nat) (c : BuCmd) (t : State) (hK : Keeps s0 t) : Keeps s0 (doPass cl c t) := by
  unfold doPass
  repeat' first
    | with_reducible assumption
    | with_reducible apply countTaints_k
    | with_reducible apply keeps_foldl
    | with_reducible apply keeps_foldl_fst
    | with_reducible apply modBu_k
    | with_reducible rfl
    | split
    | with_reducible intro _
    | dsimp only

theorem drainBank_k {s0 : State} (cl job sp thr : Nat) (t : State) (p : Nat × Nat) (hK : Keeps s0 t) : Keeps s0 (drainBank cl job sp thr t p) := by
  unfold drainBank
  repeat' first
    | with_reducible assumption
    | with_reducible apply modBu_k
    | with_reducible apply putBytes_k
    | with_reducible apply modBcl_k
    | with_reducible rfl
    | split
    | with_reducible intro _
    | dsimp only

theorem doDrain_k {s0 : State} (cl : Nat) (c : BuCmd) (t : State) (hK : Keeps s0 t) : Keeps s0 (doDrain cl c t) := by
  unfold doDrain
  repeat' first
    | with_reducible assumption
    | with_reducible apply keeps_foldl
    | with_reducible apply keeps_foldl_fst
    | with_reducible apply drainBank_k
    | with_reducible rfl
    | split
    | with_reducible intro _
    | dsimp only

theorem copyRow_k {s0 : State} (cl b r d : Nat) (bad : List BadColumn) (s : State) (hK : Keeps s0 s) : Keeps s0 (copyRow cl b r d bad s) := by
  unfold copyRow
  repeat' first
    | with_reducible assumption
    | with_reducible apply keeps_foldl
    | with_reducible apply keeps_foldl_fst
    | with_reducible apply putBytes_k
    | with_reducible rfl
    | split
    | with_reducible intro _
    | dsimp only

theorem noteColumns_k {s0 : State} (cl : Nat) (bad : List BadColumn) (s : State) (hK : Keeps s0 s) : Keeps s0 (noteColumns cl bad s) := by
  unfold noteColumns
  repeat' first
    | with_reducible assumption
    | with_reducible apply countStack_k
    | with_reducible apply onFaults_k
    | with_reducible rfl
    | split
    | with_reducible intro _
    | dsimp only

theorem logColumns_k {s0 : State} (cl kind row : Nat) (bads : List BadColumn) (s : State) (hK : Keeps s0 s) : Keeps s0 (logColumns cl kind row bads s) := by
  unfold logColumns
  repeat' first
    | with_reducible assumption
    | with_reducible apply keeps_foldl
    | with_reducible apply keeps_foldl_fst
    | with_reducible apply modBu_k
    | with_reducible rfl
    | split
    | with_reducible intro _
    | dsimp only

theorem doCopy_k {s0 : State} (cl : Nat) (c : BuCmd) (t : State) (hK : Keeps s0 t) : Keeps s0 (doCopy cl c t) := by
  unfold doCopy
  repeat' first
    | with_reducible assumption
    | with_reducible apply keeps_foldl
    | with_reducible apply keeps_foldl_fst
    | with_reducible apply copyRow_k
    | with_reducible apply noteColumns_k
    | with_reducible apply countTaints_k
    | with_reducible apply logColumns_k
    | with_reducible rfl
    | split
    | with_reducible intro _
    | dsimp only

theorem putCode_k {s0 : State} (fmt a place code : Nat) (s : State) (hK : Keeps s0 s) : Keeps s0 (putCode fmt a place code s) := by
  unfold putCode
  repeat' first
    | with_reducible assumption
    | with_reducible apply putBytes_k
    | with_reducible rfl
    | split
    | with_reducible intro _
    | dsimp only

theorem moveK_k {s0 : State} (cl b dst : Nat) (f : Frame) (lost : Nat → Bool) (st dt : Nat) (s : State) (hK : Keeps s0 s) : Keeps s0 (moveK cl b dst f lost st dt s) := by
  unfold moveK
  repeat' first
    | with_reducible assumption
    | with_reducible apply keeps_foldl
    | with_reducible apply keeps_foldl_fst
    | with_reducible apply putCode_k
    | with_reducible rfl
    | split
    | with_reducible intro _
    | dsimp only

theorem moveV_k {s0 : State} (cl b dst : Nat) (f : Frame) (lost : Nat → Bool) (st dt : Nat) (s : State) (hK : Keeps s0 s) : Keeps s0 (moveV cl b dst f lost st dt s) := by
  unfold moveV
  repeat' first
    | with_reducible assumption
    | with_reducible apply keeps_foldl
    | with_reducible apply keeps_foldl_fst
    | with_reducible apply putCode_k
    | with_reducible rfl
    | split
    | with_reducible intro _
    | dsimp only

theorem moveMant_k {s0 : State} (cl b dst : Nat) (f : Frame) (lost : Nat → Bool) (st dt : Nat) (s : State) (hK : Keeps s0 s) : Keeps s0 (moveMant cl b dst f lost st dt s) := by
  unfold moveMant
  repeat' first
    | with_reducible assumption
    | with_reducible apply putBytes_k
    | with_reducible rfl
    | split
    | with_reducible intro _
    | dsimp only

theorem gatherBank_k {s0 : State} (cl row dst variant : Nat) (bad : List BadColumn) (s : State) (b : Nat) (hK : Keeps s0 s) : Keeps s0 (gatherBank cl row dst variant bad s b) := by
  unfold gatherBank
  repeat' first
    | with_reducible assumption
    | with_reducible apply keeps_foldl
    | with_reducible apply keeps_foldl_fst
    | with_reducible apply moveK_k
    | with_reducible apply moveV_k
    | with_reducible apply moveMant_k
    | with_reducible rfl
    | split
    | with_reducible intro _
    | dsimp only

theorem gatherScope_k {s0 : State} (cl row dst variant : Nat) (bad : List BadColumn) (scope : List Nat) (s : State) (hK : Keeps s0 s) : Keeps s0 (gatherScope cl row dst variant bad scope s).1 := by
  unfold gatherScope
  repeat' first
    | with_reducible assumption
    | with_reducible apply keeps_foldl
    | with_reducible apply keeps_foldl_fst
    | with_reducible apply gatherBank_k
    | with_reducible apply modBu_k
    | with_reducible rfl
    | split
    | with_reducible intro _
    | dsimp only

theorem doGather_k {s0 : State} (cl : Nat) (c : BuCmd) (t : State) (hK : Keeps s0 t) : Keeps s0 (doGather cl c t) := by
  unfold doGather
  repeat' first
    | with_reducible assumption
    | with_reducible apply gatherScope_k
    | with_reducible apply noteColumns_k
    | with_reducible apply countTaints_k
    | with_reducible apply logColumns_k
    | with_reducible apply jobFault_k
    | with_reducible rfl
    | split
    | with_reducible intro _
    | dsimp only

theorem fillRows_k {s0 : State} (cl b r n : Nat) (s : State) (hK : Keeps s0 s) : Keeps s0 (fillRows cl b r n s) := by
  unfold fillRows
  repeat' first
    | with_reducible assumption
    | with_reducible apply onMem_k
    | with_reducible apply wf_foldl
    | with_reducible apply wf_clear
    | with_reducible apply wf_writeN
    | with_reducible apply wf_write
    | with_reducible rfl
    | split
    | with_reducible intro _
    | dsimp only

theorem doFill_k {s0 : State} (cl : Nat) (c : BuCmd) (t : State) (hK : Keeps s0 t) : Keeps s0 (doFill cl c t) := by
  unfold doFill
  repeat' first
    | with_reducible assumption
    | with_reducible apply keeps_foldl
    | with_reducible apply keeps_foldl_fst
    | with_reducible apply fillRows_k
    | with_reducible rfl
    | split
    | with_reducible intro _
    | dsimp only

theorem doTlogrd_k {s0 : State} (cl : Nat) (c : BuCmd) (t : State) (hK : Keeps s0 t) : Keeps s0 (doTlogrd cl c t) := by
  unfold doTlogrd
  repeat' first
    | with_reducible assumption
    | with_reducible apply keeps_foldl
    | with_reducible apply keeps_foldl_fst
    | with_reducible apply putBytes_k
    | with_reducible apply modBu_k
    | with_reducible rfl
    | split
    | with_reducible intro _
    | dsimp only

theorem writeEntry_k {s0 : State} (cl : Nat) (s : State) (e : AppendEntry) (hK : Keeps s0 s) : Keeps s0 (writeEntry cl s e) := by
  unfold writeEntry
  repeat' first
    | with_reducible assumption
    | with_reducible apply keeps_foldl
    | with_reducible apply keeps_foldl_fst
    | with_reducible apply putCode_k
    | with_reducible apply putBytes_k
    | with_reducible rfl
    | split
    | with_reducible intro _
    | dsimp only

theorem doKvflush_k {s0 : State} (cl first count : Nat) (s : State) (hK : Keeps s0 s) : Keeps s0 (doKvflush cl first count s) := by
  unfold doKvflush
  repeat' first
    | with_reducible assumption
    | with_reducible apply count_k
    | with_reducible apply keeps_foldl
    | with_reducible apply keeps_foldl_fst
    | with_reducible apply writeEntry_k
    | with_reducible apply modBcl_k
    | with_reducible rfl
    | split
    | with_reducible intro _
    | dsimp only

theorem buEffect_k {s0 : State} (cl : Nat) (c : BuCmd) (t : State) (hK : Keeps s0 t) : Keeps s0 (buEffect cl c t) := by
  unfold buEffect
  repeat' first
    | with_reducible assumption
    | with_reducible apply doQload_k
    | with_reducible apply doGload_k
    | with_reducible apply doTload_k
    | with_reducible apply doAclr_k
    | with_reducible apply doPass_k
    | with_reducible apply doDrain_k
    | with_reducible apply doCopy_k
    | with_reducible apply doGather_k
    | with_reducible apply doFill_k
    | with_reducible apply doTlogrd_k
    | with_reducible apply doKvflush_k
    | with_reducible apply count_k
    | with_reducible rfl
    | split
    | with_reducible intro _
    | dsimp only

theorem buRun_k {s0 : State} (cl : Nat) (s : State) (c : BuCmd) (hK : Keeps s0 s) : Keeps s0 (buRun cl s c) := by
  unfold buRun
  repeat' first
    | with_reducible assumption
    | with_reducible apply jobFault_k
    | with_reducible apply rchkNote_k
    | with_reducible apply buStream_k
    | with_reducible apply buEffect_k
    | with_reducible rfl
    | split
    | with_reducible intro _
    | dsimp only

theorem loadLanes_k {s0 : State} (s : State) (cl : Nat) (w x : U128) (hK : Keeps s0 s) : Keeps s0 (State.loadLanes s cl w x) := by
  unfold State.loadLanes
  repeat' first
    | with_reducible assumption
    | with_reducible apply keeps_foldl
    | with_reducible apply keeps_foldl_fst
    | with_reducible apply modBu_k
    | with_reducible rfl
    | split
    | with_reducible intro _
    | dsimp only

theorem commitGather_k {s0 : State} (cl : Nat) (s : State) (c : BuCmd) (hK : Keeps s0 s) : Keeps s0 (commitGather cl s c) := by
  unfold commitGather
  repeat' first
    | with_reducible assumption
    | with_reducible apply loadLanes_k
    | with_reducible apply rchkNote_k
    | with_reducible apply buStream_k
    | with_reducible apply buEffect_k
    | with_reducible apply onReq_k
    | with_reducible rfl
    | split
    | with_reducible intro _
    | dsimp only

theorem buBegin_k {s0 : State} (cl : Nat) (s : State) (c : BuCmd) (hK : Keeps s0 s) : Keeps s0 (buBegin cl s c) := by
  unfold buBegin
  repeat' first
    | with_reducible assumption
    | with_reducible apply commitGather_k
    | with_reducible apply buRun_k
    | with_reducible rfl
    | split
    | with_reducible intro _
    | dsimp only

theorem buOffer_k {s0 : State} (cl : Nat) (s : State) (c : BuCmd) (hK : Keeps s0 s) : Keeps s0 (buOffer cl s c) := by
  unfold buOffer
  repeat' first
    | with_reducible assumption
    | with_reducible apply modBcl_k
    | with_reducible apply buBegin_k
    | with_reducible rfl
    | split
    | with_reducible intro _
    | dsimp only

theorem buPump_k {s0 : State} (s : State) (cl : Nat) (hK : Keeps s0 s) : Keeps s0 (State.buPump s cl) := by
  unfold State.buPump
  repeat' first
    | with_reducible assumption
    | with_reducible apply keeps_foldl
    | with_reducible apply keeps_foldl_fst
    | with_reducible apply buOffer_k
    | with_reducible apply modBcl_k
    | with_reducible rfl
    | split
    | with_reducible intro _
    | dsimp only

theorem buIssue_k {s0 : State} (cl : Nat) (c : BuCmd) (s : State) (hK : Keeps s0 s) : Keeps s0 (buIssue cl c s) := by
  unfold buIssue
  repeat' first
    | with_reducible assumption
    | with_reducible apply buOffer_k
    | with_reducible apply jobFault_k
    | with_reducible rfl
    | split
    | with_reducible intro _
    | dsimp only

theorem execBuNop_k {s0 : State} (cl job : Nat) (word : BitVec 128) (s : State) (hK : Keeps s0 s) : KeepsO s0 (execBuNop cl job word s) := by
  unfold execBuNop
  repeat' first
    | with_reducible assumption
    | with_reducible apply keepsO_next
    | with_reducible apply buIssue_k
    | with_reducible rfl
    | split
    | with_reducible intro _
    | dsimp only

theorem execQload_k {s0 : State} (cl job : Nat) (word : BitVec 128) (q : QueryData) (s : State) (hK : Keeps s0 s) : KeepsO s0 (execQload cl job word q s) := by
  unfold execQload
  repeat' first
    | with_reducible assumption
    | with_reducible apply keepsO_next
    | with_reducible apply buIssue_k
    | with_reducible rfl
    | split
    | with_reducible intro _
    | dsimp only

theorem execGload_k {s0 : State} (cl job : Nat) (word : BitVec 128) (payload : List (BitVec 128)) (s : State) (hK : Keeps s0 s) : KeepsO s0 (execGload cl job word payload s) := by
  unfold execGload
  repeat' first
    | with_reducible assumption
    | with_reducible apply keepsO_next
    | with_reducible apply buIssue_k
    | with_reducible rfl
    | split
    | with_reducible intro _
    | dsimp only

theorem execTload_k {s0 : State} (cl job : Nat) (word : BitVec 128) (payload : List (BitVec 128)) (s : State) (hK : Keeps s0 s) : KeepsO s0 (execTload cl job word payload s) := by
  unfold execTload
  repeat' first
    | with_reducible assumption
    | with_reducible apply keepsO_next
    | with_reducible apply buIssue_k
    | with_reducible rfl
    | split
    | with_reducible intro _
    | dsimp only

theorem execAclr_k {s0 : State} (cl job : Nat) (word : BitVec 128) (s : State) (hK : Keeps s0 s) : KeepsO s0 (execAclr cl job word s) := by
  unfold execAclr
  repeat' first
    | with_reducible assumption
    | with_reducible apply keepsO_next
    | with_reducible apply buIssue_k
    | with_reducible rfl
    | split
    | with_reducible intro _
    | dsimp only

theorem execPass_k {s0 : State} (cl job : Nat) (word : BitVec 128) (bad : List BadColumn) (s : State) (hK : Keeps s0 s) : KeepsO s0 (execPass cl job word bad s) := by
  unfold execPass
  repeat' first
    | with_reducible assumption
    | with_reducible apply keepsO_next
    | with_reducible apply buIssue_k
    | with_reducible rfl
    | split
    | with_reducible intro _
    | dsimp only

theorem execDrain_k {s0 : State} (cl job : Nat) (word ext : BitVec 128) (s : State) (hK : Keeps s0 s) : KeepsO s0 (execDrain cl job word ext s) := by
  unfold execDrain
  repeat' first
    | with_reducible assumption
    | with_reducible apply keepsO_next
    | with_reducible apply buIssue_k
    | with_reducible rfl
    | split
    | with_reducible intro _
    | dsimp only

theorem execCopy_k {s0 : State} (cl job : Nat) (word ext : BitVec 128) (bad : List BadColumn) (s : State) (hK : Keeps s0 s) : KeepsO s0 (execCopy cl job word ext bad s) := by
  unfold execCopy
  repeat' first
    | with_reducible assumption
    | with_reducible apply keepsO_next
    | with_reducible apply buIssue_k
    | with_reducible rfl
    | split
    | with_reducible intro _
    | dsimp only

theorem endGather_k {s0 : State} (s : State) (g : GatherDue) (hK : Keeps s0 s) : Keeps s0 (endGather s g) := by
  unfold endGather
  repeat' first
    | with_reducible assumption
    | with_reducible apply doKvflush_k
    | with_reducible apply doGather_k
    | with_reducible apply loadLanes_k
    | with_reducible rfl
    | split
    | with_reducible intro _
    | dsimp only

theorem endGathers_k {s0 : State} (s : State) (slot : Nat) (hK : Keeps s0 s) : Keeps s0 (State.endGathers s slot) := by
  unfold State.endGathers
  repeat' first
    | with_reducible assumption
    | with_reducible apply keeps_foldl
    | with_reducible apply keeps_foldl_fst
    | with_reducible apply endGather_k
    | with_reducible apply onReq_k
    | with_reducible rfl
    | split
    | with_reducible intro _
    | dsimp only

theorem endAllGathers_k {s0 : State} (s : State) (hK : Keeps s0 s) : Keeps s0 (State.endAllGathers s) := by
  unfold State.endAllGathers
  repeat' first
    | with_reducible assumption
    | with_reducible apply keeps_foldl
    | with_reducible apply keeps_foldl_fst
    | with_reducible apply endGather_k
    | with_reducible apply onReq_k
    | with_reducible apply allBcl_k
    | with_reducible rfl
    | split
    | with_reducible intro _
    | dsimp only

theorem offerGather_k {s0 : State} (cl : Nat) (c : BuCmd) (s : State) (hK : Keeps s0 s) : Keeps s0 (offerGather cl c s) := by
  unfold offerGather
  repeat' first
    | with_reducible assumption
    | with_reducible apply loadLanes_k
    | with_reducible apply buOffer_k
    | with_reducible rfl
    | split
    | with_reducible intro _
    | dsimp only

theorem execGather_k {s0 : State} (cl job : Nat) (word ext : BitVec 128) (bad : List BadColumn) (s : State) (hK : Keeps s0 s) : KeepsO s0 (execGather cl job word ext bad s) := by
  unfold execGather
  repeat' first
    | with_reducible assumption
    | with_reducible apply keepsO_next
    | with_reducible apply offerGather_k
    | with_reducible apply buIssue_k
    | with_reducible rfl
    | split
    | with_reducible intro _
    | dsimp only

theorem execFill_k {s0 : State} (cl job : Nat) (word : BitVec 128) (s : State) (hK : Keeps s0 s) : KeepsO s0 (execFill cl job word s) := by
  unfold execFill
  repeat' first
    | with_reducible assumption
    | with_reducible apply keepsO_next
    | with_reducible apply buIssue_k
    | with_reducible rfl
    | split
    | with_reducible intro _
    | dsimp only

theorem scrubRows_k {s0 : State} (cl row rows : Nat) (scope : List Nat) (bad : List BadColumn) (s : State) (hK : Keeps s0 s) : Keeps s0 (scrubRows cl row rows scope bad s) := by
  unfold scrubRows
  repeat' first
    | with_reducible assumption
    | with_reducible apply countTaints_k
    | with_reducible apply logColumns_k
    | with_reducible apply modScope_k
    | with_reducible apply keeps_foldl
    | with_reducible apply keeps_foldl_fst
    | with_reducible apply putBytes_k
    | with_reducible apply noteColumns_k
    | with_reducible apply countStack_k
    | with_reducible rfl
    | split
    | with_reducible intro _
    | dsimp only

theorem scrubRun_k {s0 : State} (cl : Nat) (word : U128) (bad : List BadColumn) (s : State) (hK : Keeps s0 s) : Keeps s0 (scrubRun cl word bad s) := by
  unfold scrubRun
  repeat' first
    | with_reducible assumption
    | with_reducible apply rchkNote_k
    | with_reducible apply buStream_k
    | with_reducible apply scrubRows_k
    | with_reducible rfl
    | split
    | with_reducible intro _
    | dsimp only

theorem execScrub_k {s0 : State} (cl : Nat) (kernel : Option Nat) (word : BitVec 128) (bad : List BadColumn) (s : State) (hK : Keeps s0 s) : KeepsO s0 (execScrub cl kernel word bad s) := by
  unfold execScrub
  repeat' first
    | with_reducible assumption
    | with_reducible apply keepsO_next
    | with_reducible apply jobFault_k
    | with_reducible apply scrubRun_k
    | with_reducible rfl
    | split
    | with_reducible intro _
    | dsimp only

theorem execTlogrd_k {s0 : State} (cl job : Nat) (word ext : BitVec 128) (s : State) (hK : Keeps s0 s) : KeepsO s0 (execTlogrd cl job word ext s) := by
  unfold execTlogrd
  repeat' first
    | with_reducible assumption
    | with_reducible apply keepsO_next
    | with_reducible apply buIssue_k
    | with_reducible rfl
    | split
    | with_reducible intro _
    | dsimp only

theorem execKvflush_k {s0 : State} (cl job first count : Nat) (s : State) (hK : Keeps s0 s) : KeepsO s0 (execKvflush cl job first count s) := by
  unfold execKvflush
  repeat' first
    | with_reducible assumption
    | with_reducible apply keepsO_next
    | with_reducible apply doKvflush_k
    | with_reducible apply count_k
    | with_reducible apply buIssue_k
    | with_reducible rfl
    | split
    | with_reducible intro _
    | dsimp only

theorem execAppendBufferWriteback_k {s0 : State} (cl entries : Nat) (s : State) (hK : Keeps s0 s) : KeepsO s0 (execAppendBufferWriteback cl entries s) := by
  unfold execAppendBufferWriteback
  repeat' first
    | with_reducible assumption
    | with_reducible apply keepsO_next
    | with_reducible apply keeps_foldl
    | with_reducible apply keeps_foldl_fst
    | with_reducible apply writeEntry_k
    | with_reducible apply modBcl_k
    | with_reducible rfl
    | split
    | with_reducible intro _
    | dsimp only

theorem storeRec_k {s0 : State} (s : State) (r : DrainRec) (hK : Keeps s0 s) : Keeps s0 (storeRec s r) := by
  unfold storeRec
  repeat' first
    | with_reducible assumption
    | with_reducible apply putBytes_k
    | with_reducible rfl
    | split
    | with_reducible intro _
    | dsimp only

theorem rerunSet_k {s0 : State} (cl thr : Nat) (m : Int) (bad : List BadColumn) (p : State × DrainRec) (i : Nat) (hK : Keeps s0 p.1) : Keeps s0 (rerunSet cl thr m bad p i).1 := by
  unfold rerunSet
  repeat' first
    | with_reducible assumption
    | with_reducible apply modBu_k
    | with_reducible apply putBytes_k
    | with_reducible rfl
    | split
    | with_reducible intro _
    | dsimp only

theorem rerunQuery_k {s0 : State} (cl thr : Nat) (i : ModelInfo) (k : Nat × QuerySet) (m : Int) (bad : List BadColumn) (p : State × List DrainRec) (hK : Keeps s0 p.1) : Keeps s0 (rerunQuery cl thr i k m bad p).1 := by
  unfold rerunQuery
  repeat' first
    | with_reducible assumption
    | with_reducible apply keeps_foldl
    | with_reducible apply keeps_foldl_fst
    | with_reducible apply rerunSet_k
    | with_reducible rfl
    | split
    | with_reducible intro _
    | dsimp only

theorem rerunFailed_k {s0 : State} (cl thr : Nat) (i : ModelInfo) (bad : List BadColumn) (ks : List (Nat × QuerySet)) (p : State × List DrainRec) (hK : Keeps s0 p.1) : Keeps s0 (rerunFailed cl thr i bad ks p).1 := by
  unfold rerunFailed
  repeat' first
    | with_reducible assumption
    | with_reducible apply keeps_foldl
    | with_reducible apply keeps_foldl_fst
    | with_reducible apply rerunQuery_k
    | with_reducible apply countStep_k
    | with_reducible rfl
    | split
    | with_reducible intro _
    | dsimp only

theorem noteMax_k {s0 : State} (m : ModelInfo) (k : Nat × QuerySet) (v : Int) (s : State) (hK : Keeps s0 s) : Keeps s0 (noteMax m k v s) := by
  unfold noteMax
  repeat' first
    | with_reducible assumption
    | with_reducible apply onPlan_k
    | with_reducible rfl
    | split
    | with_reducible intro _
    | dsimp only

theorem layerCombine_k {s0 : State} (cl job layer : Nat) (bad : List BadColumn) (s : State) (hK : Keeps s0 s) : Keeps s0 (layerCombine cl job layer bad s) := by
  unfold layerCombine
  repeat' first
    | with_reducible assumption
    | with_reducible apply rerunFailed_k
    | with_reducible apply keeps_foldl
    | with_reducible apply keeps_foldl_fst
    | with_reducible apply storeRec_k
    | with_reducible apply noteColumns_k
    | with_reducible apply noteMax_k
    | with_reducible apply modBcl_k
    | with_reducible rfl
    | split
    | with_reducible intro _
    | dsimp only

theorem execLayerCombine_k {s0 : State} (cl job layer : Nat) (bad : List BadColumn) (s : State) (hK : Keeps s0 s) : KeepsO s0 (execLayerCombine cl job layer bad s) := by
  unfold execLayerCombine
  repeat' first
    | with_reducible assumption
    | with_reducible apply keepsO_next
    | with_reducible apply layerCombine_k
    | with_reducible rfl
    | split
    | with_reducible intro _
    | dsimp only

theorem execBankRefresh_k {s0 : State} (cl bank : Nat) (s : State) (hK : Keeps s0 s) : KeepsO s0 (execBankRefresh cl bank s) := by
  unfold execBankRefresh
  repeat' first
    | with_reducible assumption
    | with_reducible apply keepsO_next
    | with_reducible apply modBu_k
    | with_reducible apply buPump_k
    | with_reducible rfl
    | split
    | with_reducible intro _
    | dsimp only

theorem execStackHotChange_k {s0 : State} (cl temp : Nat) (s : State) (hK : Keeps s0 s) : KeepsO s0 (execStackHotChange cl temp s) := by
  unfold execStackHotChange
  repeat' first
    | with_reducible assumption
    | with_reducible apply keepsO_next
    | with_reducible apply modBcl_k
    | with_reducible rfl
    | split
    | with_reducible intro _
    | dsimp only

theorem execPatrolScrub_k {s0 : State} (cl bank : Nat) (bad : List BadColumn) (s : State) (hK : Keeps s0 s) : KeepsO s0 (execPatrolScrub cl bank bad s) := by
  unfold execPatrolScrub
  repeat' first
    | with_reducible assumption
    | with_reducible apply keepsO_next
    | with_reducible apply scrubRun_k
    | with_reducible apply modBu_k
    | with_reducible rfl
    | split
    | with_reducible intro _
    | dsimp only

end Sys2Proof.Laws
end

