-- ==== Sys2Proof/Laws/KeepsSettle.lean ====
section
/-! SUPPORT. What the operations of Machine/Settle.lean keep (Laws/Keeps.lean). -/

set_option linter.unusedTactic false
set_option linter.unreachableTactic false
set_option linter.unusedVariables false

namespace Sys2Proof.Laws

open Sys2Proof Sys2Proof.Machine

theorem writeStream_k {s0 : State} (s : State) (slot token flags : Nat) (logprob : BitVec 16) (hK : Keeps s0 s) : Keeps s0 (State.writeStream s slot token flags logprob) := by
  unfold State.writeStream
  repeat' first
    | with_reducible assumption
    | with_reducible apply hostWrite_k
    | with_reducible apply modReq_k
    | with_reducible apply raiseVector_k
    | with_reducible rfl
    | split
    | with_reducible intro _
    | dsimp only

theorem writeTokens_k {s0 : State} (s : State) (slot : Nat) (l : List (OutToken × Bool)) (hK : Keeps s0 s) : Keeps s0 (State.writeTokens s slot l) := by
  unfold State.writeTokens
  repeat' first
    | with_reducible assumption
    | with_reducible apply keeps_foldl
    | with_reducible apply keeps_foldl_fst
    | with_reducible apply writeStream_k
    | with_reducible rfl
    | split
    | with_reducible intro _
    | dsimp only

theorem writeFinal_k {s0 : State} (s : State) (slot status : Nat) (hK : Keeps s0 s) : Keeps s0 (State.writeFinal s slot status) := by
  unfold State.writeFinal
  repeat' first
    | with_reducible assumption
    | with_reducible apply writeStream_k
    | with_reducible rfl
    | split
    | with_reducible intro _
    | dsimp only

theorem countEnd_k {s0 : State} (s : State) (e : AttemptEnd) (hK : Keeps s0 s) : Keeps s0 (State.countEnd s e) := by
  unfold State.countEnd
  repeat' first
    | with_reducible assumption
    | with_reducible apply countStep_k
    | with_reducible rfl
    | split
    | with_reducible intro _
    | dsimp only

theorem endAttempt_k {s0 : State} (s : State) (slot : Nat) (e : AttemptEnd) (hK : Keeps s0 s) : Keeps s0 (State.endAttempt s slot e) := by
  unfold State.endAttempt
  repeat' first
    | with_reducible assumption
    | with_reducible apply countEnd_k
    | with_reducible apply onPlan_k
    | with_reducible rfl
    | split
    | with_reducible intro _
    | dsimp only

theorem closeReq_k {s0 : State} (s : State) (slot status drop : Nat) (hK : Keeps s0 s) : Keeps s0 (State.closeReq s slot status drop) := by
  unfold State.closeReq
  repeat' first
    | with_reducible assumption
    | with_reducible apply modReq_k
    | with_reducible apply writeTokens_k
    | with_reducible apply writeFinal_k
    | with_reducible apply endAttempt_k
    | with_reducible rfl
    | split
    | with_reducible intro _
    | dsimp only

theorem noteCommit_k {s0 : State} (s : State) (slot oldLen newLen : Nat) (hK : Keeps s0 s) : Keeps s0 (State.noteCommit s slot oldLen newLen) := by
  unfold State.noteCommit
  repeat' first
    | with_reducible assumption
    | with_reducible apply keeps_foldl
    | with_reducible apply keeps_foldl_fst
    | with_reducible apply modGroup_k
    | with_reducible rfl
    | split
    | with_reducible intro _
    | dsimp only

theorem noteTokens_k {s0 : State} (s : State) (slot oldLen newLen : Nat) (hK : Keeps s0 s) : Keeps s0 (State.noteTokens s slot oldLen newLen) := by
  unfold State.noteTokens
  repeat' first
    | with_reducible assumption
    | with_reducible apply keeps_foldl
    | with_reducible apply keeps_foldl_fst
    | with_reducible apply modGroup_k
    | with_reducible rfl
    | split
    | with_reducible intro _
    | dsimp only

theorem debit_k {s0 : State} (s : State) (tenant gen prefill : Nat) (hK : Keeps s0 s) : Keeps s0 (State.debit s tenant gen prefill) := by
  unfold State.debit
  repeat' first
    | with_reducible assumption
    | with_reducible apply onPlan_k
    | with_reducible rfl
    | split
    | with_reducible intro _
    | dsimp only

theorem releaseOuts_k {s0 : State} (s : State) (slot : Nat) (l : List (OutToken × Bool)) (close : Option (Nat × Nat)) (hK : Keeps s0 s) : Keeps s0 (State.releaseOuts s slot l close) := by
  unfold State.releaseOuts
  repeat' first
    | with_reducible assumption
    | with_reducible apply writeTokens_k
    | with_reducible apply writeFinal_k
    | with_reducible rfl
    | split
    | with_reducible intro _
    | dsimp only

theorem commitPath_k {s0 : State} (s : State) (slot : Nat) (r : Request) (row : PlanRow) (a : Attempt) (hK : Keeps s0 s) : Keeps s0 (State.commitPath s slot r row a) := by
  unfold State.commitPath
  repeat' first
    | with_reducible assumption
    | with_reducible apply noteCommit_k
    | with_reducible apply modReq_k
    | with_reducible apply keeps_foldl
    | with_reducible apply keeps_foldl_fst
    | with_reducible apply noteTokens_k
    | with_reducible apply markPublish_k
    | with_reducible apply debit_k
    | with_reducible apply countTenant_k
    | with_reducible apply countStep_k
    | with_reducible apply endAttempt_k
    | with_reducible apply onReq_k
    | with_reducible apply releaseOuts_k
    | with_reducible rfl
    | split
    | with_reducible intro _
    | dsimp only

theorem commitNumeric_k {s0 : State} (s : State) (slot : Nat) (r : Request) (a : Attempt) (hK : Keeps s0 s) : Keeps s0 (State.commitNumeric s slot r a) := by
  unfold State.commitNumeric
  repeat' first
    | with_reducible assumption
    | with_reducible apply modReq_k
    | with_reducible apply endAttempt_k
    | with_reducible apply closeReq_k
    | with_reducible rfl
    | split
    | with_reducible intro _
    | dsimp only

theorem settleImport_k {s0 : State} (s : State) (slot : Nat) (hK : Keeps s0 s) : Keeps s0 (State.settleImport s slot) := by
  unfold State.settleImport
  repeat' first
    | with_reducible assumption
    | with_reducible apply keeps_foldl
    | with_reducible apply keeps_foldl_fst
    | with_reducible apply dropRef_k
    | with_reducible apply modReq_k
    | with_reducible apply closeReq_k
    | with_reducible rfl
    | split
    | with_reducible intro _
    | dsimp only

theorem failImport_k {s0 : State} (s : State) (slot : Nat) (hK : Keeps s0 s) : Keeps s0 (State.failImport s slot) := by
  unfold State.failImport
  repeat' first
    | with_reducible assumption
    | with_reducible apply modReq_k
    | with_reducible apply settleImport_k
    | with_reducible rfl
    | split
    | with_reducible intro _
    | dsimp only

theorem settleAttempt_k {s0 : State} (s : State) (slot : Nat) (hK : Keeps s0 s) : Keeps s0 (State.settleAttempt s slot) := by
  unfold State.settleAttempt
  repeat' first
    | with_reducible assumption
    | with_reducible apply endAttempt_k
    | with_reducible apply commitNumeric_k
    | with_reducible apply commitPath_k
    | with_reducible rfl
    | split
    | with_reducible intro _
    | dsimp only

theorem parkReq_k {s0 : State} (s : State) (slot : Nat) (hK : Keeps s0 s) : Keeps s0 (State.parkReq s slot) := by
  unfold State.parkReq
  repeat' first
    | with_reducible assumption
    | with_reducible apply modReq_k
    | with_reducible apply parkRefs_k
    | with_reducible apply parkDemote_k
    | with_reducible rfl
    | split
    | with_reducible intro _
    | dsimp only

theorem settleMarks_k {s0 : State} (s : State) (slot : Nat) (hK : Keeps s0 s) : Keeps s0 (State.settleMarks s slot) := by
  unfold State.settleMarks
  repeat' first
    | with_reducible assumption
    | with_reducible apply keeps_foldl
    | with_reducible apply keeps_foldl_fst
    | with_reducible apply complete_k
    | with_reducible apply onReq_k
    | with_reducible apply modReq_k
    | with_reducible rfl
    | split
    | with_reducible intro _
    | dsimp only

theorem settleTimers_k {s0 : State} (s : State) (slot : Nat) (hK : Keeps s0 s) : Keeps s0 (State.settleTimers s slot) := by
  unfold State.settleTimers
  repeat' first
    | with_reducible assumption
    | with_reducible apply closeReq_k
    | with_reducible apply parkReq_k
    | with_reducible rfl
    | split
    | with_reducible intro _
    | dsimp only

theorem settleRest_k {s0 : State} (s : State) (slot : Nat) (hK : Keeps s0 s) : Keeps s0 (State.settleRest s slot) := by
  unfold State.settleRest
  repeat' first
    | with_reducible assumption
    | with_reducible apply settleImport_k
    | with_reducible apply settleMarks_k
    | with_reducible apply onReq_k
    | with_reducible rfl
    | split
    | with_reducible intro _
    | dsimp only

theorem settleCommit_k {s0 : State} (s : State) (slot : Nat) (hK : Keeps s0 s) : Keeps s0 (State.settleCommit s slot) := by
  unfold State.settleCommit
  repeat' first
    | with_reducible assumption
    | with_reducible apply closeReq_k
    | with_reducible apply settleRest_k
    | with_reducible apply endAttempt_k
    | with_reducible apply settleAttempt_k
    | with_reducible rfl
    | split
    | with_reducible intro _
    | dsimp only

theorem settlePump_k {s0 : State} (s : State) (hK : Keeps s0 s) : Keeps s0 (State.settlePump s) := by
  unfold State.settlePump
  repeat' first
    | with_reducible assumption
    | with_reducible apply keeps_foldl
    | with_reducible apply keeps_foldl_fst
    | with_reducible apply settleCommit_k
    | with_reducible rfl
    | split
    | with_reducible intro _
    | dsimp only

theorem settleForce_k {s0 : State} (s : State) (slot : Nat) (hK : Keeps s0 s) : Keeps s0 (State.settleForce s slot) := by
  unfold State.settleForce
  repeat' first
    | with_reducible assumption
    | with_reducible apply settleTimers_k
    | with_reducible apply settleCommit_k
    | with_reducible rfl
    | split
    | with_reducible intro _
    | dsimp only

end Sys2Proof.Laws
end

