-- ==== Sys2Proof/Laws/KeepsShips.lean ====
section
/-! SUPPORT. What the operations of Machine/Ships.lean keep (Laws/Keeps.lean). -/

set_option linter.unusedTactic false
set_option linter.unreachableTactic false
set_option linter.unusedVariables false

namespace Sys2Proof.Laws

open Sys2Proof Sys2Proof.Machine

theorem setShip_k {s0 : State} (s : State) (x : Shipment) (hK : Keeps s0 s) : Keeps s0 (State.setShip s x) := by
  unfold State.setShip
  repeat' first
    | with_reducible assumption
    | with_reducible apply onGelcon_k
    | with_reducible rfl
    | split
    | with_reducible intro _
    | dsimp only

theorem dropShip_k {s0 : State} (s : State) (h : Nat) (hK : Keeps s0 s) : Keeps s0 (State.dropShip s h) := by
  unfold State.dropShip
  repeat' first
    | with_reducible assumption
    | with_reducible apply releaseBlocks_k
    | with_reducible apply onGelcon_k
    | with_reducible rfl
    | split
    | with_reducible intro _
    | dsimp only

theorem sendEnd_k {s0 : State} (s : State) (dst h tc cause : Nat) (hK : Keeps s0 s) : Keeps s0 (State.sendEnd s dst h tc cause) := by
  unfold State.sendEnd
  repeat' first
    | with_reducible assumption
    | with_reducible apply sendMsg_k
    | with_reducible rfl
    | split
    | with_reducible intro _
    | dsimp only

theorem sendGrant_k {s0 : State} (s : State) (x : Shipment) (first : Nat) (hK : Keeps s0 s) : Keeps s0 (State.sendGrant s x first) := by
  unfold State.sendGrant
  repeat' first
    | with_reducible assumption
    | with_reducible apply sendMsg_k
    | with_reducible rfl
    | split
    | with_reducible intro _
    | dsimp only

theorem moveWindow_k {s0 : State} (s : State) (x : Shipment) (hK : Keeps s0 s) : Keeps s0 (State.moveWindow s x) := by
  unfold State.moveWindow
  repeat' first
    | with_reducible assumption
    | with_reducible apply setShip_k
    | with_reducible apply setHeld_k
    | with_reducible apply sendGrant_k
    | with_reducible rfl
    | split
    | with_reducible intro _
    | dsimp only

theorem moveWindows_k {s0 : State} (s : State) (hK : Keeps s0 s) : Keeps s0 (State.moveWindows s) := by
  unfold State.moveWindows
  repeat' first
    | with_reducible assumption
    | with_reducible apply keeps_foldl
    | with_reducible apply keeps_foldl_fst
    | with_reducible apply moveWindow_k
    | with_reducible rfl
    | split
    | with_reducible intro _
    | dsimp only

theorem execStoreReserveRetry_k {s0 : State} (s : State) (hK : Keeps s0 s) : KeepsO s0 (execStoreReserveRetry s) := by
  unfold execStoreReserveRetry
  repeat' first
    | with_reducible assumption
    | with_reducible apply keepsO_next
    | with_reducible apply keeps_foldl
    | with_reducible apply keeps_foldl_fst
    | with_reducible apply retryClass_k
    | with_reducible apply moveWindows_k
    | with_reducible rfl
    | split
    | with_reducible intro _
    | dsimp only

theorem failShip_k {s0 : State} (s : State) (x : Shipment) (cause : Nat) (hK : Keeps s0 s) : Keeps s0 (State.failShip s x cause) := by
  unfold State.failShip
  repeat' first
    | with_reducible assumption
    | with_reducible apply dropShip_k
    | with_reducible apply sendEnd_k
    | with_reducible apply failImport_k
    | with_reducible rfl
    | split
    | with_reducible intro _
    | dsimp only

theorem tryVerify_k {s0 : State} (s : State) (h : Nat) (hK : Keeps s0 s) : Keeps s0 (State.tryVerify s h) := by
  unfold State.tryVerify
  repeat' first
    | with_reducible assumption
    | with_reducible apply setShip_k
    | with_reducible apply failShip_k
    | with_reducible rfl
    | split
    | with_reducible intro _
    | dsimp only

theorem shipGroups_k {s0 : State} (slot : Nat) (a0 : Nat) (a1 : Nat) (s : State) (hK : Keeps s0 s) : Keeps s0 (shipGroups slot a0 a1 s).1 := by
  induction a0 generalizing a1 s with
  | zero => exact hK
  | succ n ih =>
    unfold shipGroups
    repeat' first
      | with_reducible assumption
      | with_reducible apply ih
      | with_reducible apply newGroup_k
      | with_reducible apply modReq_k
      | with_reducible apply modGroup_k
      | with_reducible rfl
      | split
      | with_reducible intro _
      | dsimp only

theorem claimShip_k {s0 : State} (s : State) (slot handle matched limit : Nat) (hK : Keeps s0 s) : Keeps s0 (State.claimShip s slot handle matched limit) := by
  unfold State.claimShip
  repeat' first
    | with_reducible assumption
    | with_reducible apply shipGroups_k
    | with_reducible apply setShip_k
    | with_reducible apply tryVerify_k
    | with_reducible apply moveWindow_k
    | with_reducible rfl
    | split
    | with_reducible intro _
    | dsimp only

theorem execShipOpen_k {s0 : State} (t : Nat) (a : Arrival) (s : State) (hK : Keeps s0 s) : KeepsO s0 (execShipOpen t a s) := by
  unfold execShipOpen
  repeat' first
    | with_reducible assumption
    | with_reducible apply keepsO_next
    | with_reducible apply atTime_k
    | with_reducible apply receive_k
    | with_reducible apply sendEnd_k
    | with_reducible apply onGelcon_k
    | with_reducible rfl
    | split
    | with_reducible intro _
    | dsimp only

theorem shipPacket_k {s0 : State} (s : State) (port : Nat) (p : Packet) (h : Nat) (outgoing : Bool) (k : State → Shipment → State) (hFk : ∀ a0 a1, Keeps s0 a0 → Keeps s0 (k a0 a1)) (hK : Keeps s0 s) : Keeps s0 (State.shipPacket s port p h outgoing k) := by
  unfold State.shipPacket
  repeat' first
    | with_reducible assumption
    | with_reducible apply hFk
    | with_reducible apply badPacket_k
    | with_reducible rfl
    | split
    | with_reducible intro _
    | dsimp only

theorem execShipData_k {s0 : State} (t port : Nat) (p : Packet) (s : State) (hK : Keeps s0 s) : KeepsO s0 (execShipData t port p s) := by
  unfold execShipData
  repeat' first
    | with_reducible assumption
    | with_reducible apply keepsO_next
    | with_reducible apply atTime_k
    | with_reducible apply receive_k
    | with_reducible apply shipPacket_k
    | with_reducible apply setShip_k
    | with_reducible apply badPacket_k
    | with_reducible rfl
    | split
    | with_reducible intro _
    | dsimp only

theorem landBytes_k {s0 : State} (s : State) (i : ModelInfo) (r : Request) (x : Shipment) (lo n : Nat) (hK : Keeps s0 s) : Keeps s0 (State.landBytes s i r x lo n) := by
  unfold State.landBytes
  repeat' first
    | with_reducible assumption
    | with_reducible apply onMem_k
    | with_reducible apply keeps_foldl
    | with_reducible apply keeps_foldl_fst
    | with_reducible apply wf_foldl
    | with_reducible apply wf_clear
    | with_reducible apply wf_writeN
    | with_reducible apply wf_write
    | with_reducible rfl
    | split
    | with_reducible intro _
    | dsimp only

theorem execShipWindowAdvance_k {s0 : State} (handle upto : Nat) (s : State) (hK : Keeps s0 s) : KeepsO s0 (execShipWindowAdvance handle upto s) := by
  unfold execShipWindowAdvance
  repeat' first
    | with_reducible assumption
    | with_reducible apply keepsO_next
    | with_reducible apply landBytes_k
    | with_reducible apply moveWindow_k
    | with_reducible apply tryVerify_k
    | with_reducible rfl
    | split
    | with_reducible intro _
    | dsimp only

theorem execShipDone_k {s0 : State} (t port : Nat) (p : Packet) (s : State) (hK : Keeps s0 s) : KeepsO s0 (execShipDone t port p s) := by
  unfold execShipDone
  repeat' first
    | with_reducible assumption
    | with_reducible apply keepsO_next
    | with_reducible apply atTime_k
    | with_reducible apply receive_k
    | with_reducible apply shipPacket_k
    | with_reducible apply badPacket_k
    | with_reducible apply keeps_foldl
    | with_reducible apply keeps_foldl_fst
    | with_reducible apply setShip_k
    | with_reducible apply sendGrant_k
    | with_reducible apply failShip_k
    | with_reducible apply tryVerify_k
    | with_reducible rfl
    | split
    | with_reducible intro _
    | dsimp only

theorem execShipmentApply_k {s0 : State} (handle : Nat) (s : State) (hK : Keeps s0 s) : KeepsO s0 (execShipmentApply handle s) := by
  unfold execShipmentApply
  repeat' first
    | with_reducible assumption
    | with_reducible apply keepsO_next
    | with_reducible apply modReq_k
    | with_reducible apply markPublish_k
    | with_reducible apply dropShip_k
    | with_reducible apply sendEnd_k
    | with_reducible rfl
    | split
    | with_reducible intro _
    | dsimp only

theorem execShipUnclaimedTimeout_k {s0 : State} (t handle : Nat) (s : State) (hK : Keeps s0 s) : KeepsO s0 (execShipUnclaimedTimeout t handle s) := by
  unfold execShipUnclaimedTimeout
  repeat' first
    | with_reducible assumption
    | with_reducible apply keepsO_next
    | with_reducible apply atTime_k
    | with_reducible apply failShip_k
    | with_reducible rfl
    | split
    | with_reducible intro _
    | dsimp only

theorem execImportTimeout_k {s0 : State} (t slot : Nat) (s : State) (hK : Keeps s0 s) : KeepsO s0 (execImportTimeout t slot s) := by
  unfold execImportTimeout
  repeat' first
    | with_reducible assumption
    | with_reducible apply keepsO_next
    | with_reducible apply atTime_k
    | with_reducible apply failShip_k
    | with_reducible apply failImport_k
    | with_reducible rfl
    | split
    | with_reducible intro _
    | dsimp only

theorem endClosedShips_k {s0 : State} (s : State) (hK : Keeps s0 s) : Keeps s0 (State.endClosedShips s) := by
  unfold State.endClosedShips
  repeat' first
    | with_reducible assumption
    | with_reducible apply keeps_foldl
    | with_reducible apply keeps_foldl_fst
    | with_reducible apply dropShip_k
    | with_reducible apply sendEnd_k
    | with_reducible rfl
    | split
    | with_reducible intro _
    | dsimp only

theorem sendDone_k {s0 : State} (s : State) (i : ModelInfo) (r : Request) (x : Shipment) (dst first : Nat) (hK : Keeps s0 s) : Keeps s0 (State.sendDone s i r x dst first) := by
  unfold State.sendDone
  repeat' first
    | with_reducible assumption
    | with_reducible apply keeps_foldl
    | with_reducible apply keeps_foldl_fst
    | with_reducible apply sendMsg_k
    | with_reducible rfl
    | split
    | with_reducible intro _
    | dsimp only

theorem execShipGrant_k {s0 : State} (t : Nat) (a : Arrival) (s : State) (hK : Keeps s0 s) : KeepsO s0 (execShipGrant t a s) := by
  unfold execShipGrant
  repeat' first
    | with_reducible assumption
    | with_reducible apply keepsO_next
    | with_reducible apply atTime_k
    | with_reducible apply receive_k
    | with_reducible apply badPacket_k
    | with_reducible apply setShip_k
    | with_reducible apply sendMsg_k
    | with_reducible apply sendDone_k
    | with_reducible rfl
    | split
    | with_reducible intro _
    | dsimp only

end Sys2Proof.Laws
end

