-- ==== Sys2Proof/Laws/KeepsPlanner.lean ====
section
/-! SUPPORT. What the operations of Machine/Planner.lean keep (Laws/Keeps.lean). -/

set_option linter.unusedTactic false
set_option linter.unreachableTactic false
set_option linter.unusedVariables false

namespace Sys2Proof.Laws

open Sys2Proof Sys2Proof.Machine

theorem decodeDepth_k {s0 : State} (s : State) (slot : Nat) (r : Request) (hK : Keeps s0 s) : Keeps s0 (decodeDepth s slot r).1 := by
  unfold decodeDepth
  repeat' first
    | with_reducible assumption
    | with_reducible apply needBlocks_k
    | with_reducible rfl
    | split
    | with_reducible intro _
    | dsimp only

theorem fitCand_k {s0 : State} (s : State) (c : Cand) (allow : Nat) (hK : Keeps s0 s) : Keeps s0 (fitCand s c allow).1 := by
  unfold fitCand
  repeat' first
    | with_reducible assumption
    | with_reducible apply decodeDepth_k
    | with_reducible apply needBlocks_k
    | with_reducible rfl
    | split
    | with_reducible intro _
    | dsimp only

theorem reserveRow_k {s0 : State} (s : State) (slot n : Nat) (hK : Keeps s0 s) : Keeps s0 (reserveRow s slot n).1 := by
  unfold reserveRow
  repeat' first
    | with_reducible assumption
    | with_reducible apply grantBlocks_k
    | with_reducible apply onPlan_k
    | with_reducible rfl
    | split
    | with_reducible intro _
    | dsimp only

theorem dropReserved_k {s0 : State} (s : State) (keep : Nat → Nat → Bool) (hK : Keeps s0 s) : Keeps s0 (State.dropReserved s keep) := by
  unfold State.dropReserved
  repeat' first
    | with_reducible assumption
    | with_reducible apply keeps_foldl
    | with_reducible apply keeps_foldl_fst
    | with_reducible apply releaseBlocks_k
    | with_reducible apply onPlan_k
    | with_reducible rfl
    | split
    | with_reducible intro _
    | dsimp only

theorem listedBlocks_k {s0 : State} (s : State) (row : PlanRow) (r : Request) (hK : Keeps s0 s) : Keeps s0 (listedBlocks s row r).1 := by
  unfold listedBlocks
  repeat' first
    | with_reducible assumption
    | with_reducible apply needBlocks_k
    | with_reducible rfl
    | split
    | with_reducible intro _
    | dsimp only

theorem reserveJob_k {s0 : State} (m : Nat) (a0 : Nat) (s : State) (a2 : List PlanRow) (a3 : Nat) (hK : Keeps s0 s) : Keeps s0 (reserveJob m a0 s a2 a3).1 := by
  induction a0 generalizing s a2 a3 with
  | zero => exact hK
  | succ n ih =>
    unfold reserveJob
    repeat' first
      | with_reducible assumption
      | with_reducible apply ih
      | with_reducible apply grantBlocks_k
      | with_reducible rfl
      | split
      | with_reducible intro _
      | dsimp only

theorem reserveJobs_k {s0 : State} (s : State) (rows : List PlanRow) (hK : Keeps s0 s) : Keeps s0 (reserveJobs s rows).1 :=
  keeps_foldl_fst (fun _ _ h => reserveJob_k _ _ _ _ _ h) hK

theorem noteStalls_k {s0 : State} (s : State) (hK : Keeps s0 s) : Keeps s0 s.noteStalls := onReq_k _ hK

theorem tryCand_k {s0 : State} (d : Draft) (c : Cand) (hK : Keeps s0 d.st) : Keeps s0 (tryCand d c).st := by
  have hf := fitCand_k d.st c d.allow hK
  unfold tryCand raiseVt
  dsimp only
  (repeat' split) <;> first | exact hf | exact reserveRow_k _ _ _ hf

theorem fillClass_k {s0 : State} (n : Nat) (l : List Cand) (d : Draft) (hK : Keeps s0 d.st) : Keeps s0 (fillClass n l d).st := by
  induction n generalizing l d with
  | zero => exact hK
  | succ n ih =>
    unfold fillClass
    split
    · split
      · exact hK
      · exact ih _ _ (tryCand_k _ _ hK)
    · exact hK

theorem draft_foldl_k {s0 : State} {α : Type} {f : Draft → α → Draft} {l : List α} {d : Draft}
    (hf : ∀ d x, Keeps s0 d.st → Keeps s0 (f d x).st) (h : Keeps s0 d.st) : Keeps s0 (l.foldl f d).st := by
  induction l generalizing d with
  | nil => exact h
  | cons x r ih => exact ih (hf d x h)

theorem addRebuilds_k {s0 : State} (c : Nat) (d : Draft) (hK : Keeps s0 d.st) : Keeps s0 (addRebuilds c d).st := by
  refine draft_foldl_k (fun d x h => ?_) hK
  split <;> exact h

theorem keepSent_k {s0 : State} (d : Draft) (row : PlanRow) (hK : Keeps s0 d.st) : Keeps s0 (keepSent d row).st := by
  unfold keepSent
  (repeat' split) <;> first | exact hK | exact tryCand_k _ _ hK

theorem addListed_k {s0 : State} (d : Draft) (l : Nat × Nat × Nat × Nat) (hK : Keeps s0 d.st) : Keeps s0 (addListed d l).st := by
  have hb := fun row r => listedBlocks_k d.st row r hK
  unfold addListed
  dsimp only
  (repeat' split) <;> first | exact hK | exact hb _ _ | exact reserveRow_k _ _ _ (hb _ _)

theorem fillPlan_k {s0 : State} (s : State) (hK : Keeps s0 s) : Keeps s0 (fillPlan s).st := by
  unfold fillPlan
  refine draft_foldl_k (fun d x h => fillClass_k _ _ _ (addRebuilds_k _ _ h)) ?_
  refine draft_foldl_k (fun d x h => fillClass_k _ _ _ h) ?_
  refine draft_foldl_k (fun d x h => keepSent_k _ _ h) ?_
  exact draft_foldl_k (fun d x h => addListed_k _ _ h) hK

theorem buildPlan_k {s0 : State} (s : State) (hK : Keeps s0 s) : Keeps s0 (State.buildPlan s) := by
  unfold State.buildPlan
  repeat' first
    | with_reducible assumption
    | with_reducible apply noteStalls_k
    | with_reducible apply dropReserved_k
    | with_reducible apply onStore_k
    | with_reducible apply onPlan_k
    | with_reducible apply reserveJobs_k
    | with_reducible apply fillPlan_k
    | with_reducible rfl
    | split
    | with_reducible intro _
    | dsimp only

theorem notePairs_k {s0 : State} (s : State) (hK : Keeps s0 s) : Keeps s0 (State.notePairs s) := by
  unfold State.notePairs
  repeat' first
    | with_reducible assumption
    | with_reducible apply keeps_foldl
    | with_reducible apply keeps_foldl_fst
    | with_reducible apply onPlan_k
    | with_reducible rfl
    | split
    | with_reducible intro _
    | dsimp only

theorem chargePair_k {s0 : State} (s : State) (tenant cls clusterNs bankNs hubBytes : Nat) (hK : Keeps s0 s) : Keeps s0 (State.chargePair s tenant cls clusterNs bankNs hubBytes) := by
  unfold State.chargePair
  repeat' first
    | with_reducible assumption
    | with_reducible apply onPlan_k
    | with_reducible rfl
    | split
    | with_reducible intro _
    | dsimp only

theorem chargeRow_k {s0 : State} (t : State) (row : PlanRow) (hK : Keeps s0 t) : Keeps s0 (State.chargeRow t row) := by
  unfold State.chargeRow
  repeat' first
    | with_reducible assumption
    | with_reducible apply countTenant_k
    | with_reducible apply chargePair_k
    | with_reducible apply onPlan_k
    | with_reducible rfl
    | split
    | with_reducible intro _
    | dsimp only

theorem chargeRows_k {s0 : State} (s : State) (hK : Keeps s0 s) : Keeps s0 (State.chargeRows s) := by
  unfold State.chargeRows
  repeat' first
    | with_reducible assumption
    | with_reducible apply keeps_foldl
    | with_reducible apply keeps_foldl_fst
    | with_reducible apply chargeRow_k
    | with_reducible rfl
    | split
    | with_reducible intro _
    | dsimp only

theorem chargeShared_k {s0 : State} (s : State) (hK : Keeps s0 s) : Keeps s0 (State.chargeShared s) := by
  unfold State.chargeShared
  repeat' first
    | with_reducible assumption
    | with_reducible apply keeps_foldl
    | with_reducible apply keeps_foldl_fst
    | with_reducible apply chargePair_k
    | with_reducible apply onPlan_k
    | with_reducible rfl
    | split
    | with_reducible intro _
    | dsimp only

end Sys2Proof.Laws
end

