-- ==== Sys2Proof/Laws/KeepsAdmission.lean ====
section
/-! SUPPORT. What the operations of Machine/Admission.lean keep (Laws/Keeps.lean). -/

set_option linter.unusedTactic false
set_option linter.unreachableTactic false
set_option linter.unusedVariables false

namespace Sys2Proof.Laws

open Sys2Proof Sys2Proof.Machine

theorem modRing_k {s0 : State} (s : State) (n : Nat) (f : Ring → Ring) (hK : Keeps s0 s) : Keeps s0 (State.modRing s n f) := by
  unfold State.modRing
  repeat' first
    | with_reducible assumption
    | with_reducible apply onReq_k
    | with_reducible rfl
    | split
    | with_reducible intro _
    | dsimp only

theorem stopRing_k {s0 : State} (s : State) (n : Nat) (hK : Keeps s0 s) : Keeps s0 (State.stopRing s n) := by
  unfold State.stopRing
  repeat' first
    | with_reducible assumption
    | with_reducible apply modRing_k
    | with_reducible apply postEvent_k
    | with_reducible rfl
    | split
    | with_reducible intro _
    | dsimp only

theorem execSubmissionRingDoorbell_k {s0 : State} (t port ring offset width : Nat) (value : BitVec 32) (s : State) (hK : Keeps s0 s) : KeepsO s0 (execSubmissionRingDoorbell t port ring offset width value s) := by
  unfold execSubmissionRingDoorbell
  repeat' first
    | with_reducible assumption
    | with_reducible apply keepsO_next
    | with_reducible apply atTime_k
    | with_reducible apply misuse_k
    | with_reducible apply modRing_k
    | with_reducible rfl
    | split
    | with_reducible intro _
    | dsimp only

theorem execStreamCreditDoorbell_k {s0 : State} (t port offset width : Nat) (value : BitVec 64) (s : State) (hK : Keeps s0 s) : KeepsO s0 (execStreamCreditDoorbell t port offset width value s) := by
  unfold execStreamCreditDoorbell
  repeat' first
    | with_reducible assumption
    | with_reducible apply keepsO_next
    | with_reducible apply atTime_k
    | with_reducible apply misuse_k
    | with_reducible apply arrive_k
    | with_reducible apply onReq_k
    | with_reducible rfl
    | split
    | with_reducible intro _
    | dsimp only

theorem takeCreditBell_k {s0 : State} (s : State) (c : Nat × Nat × Nat × Nat × Nat) (hK : Keeps s0 s) : Keeps s0 (State.takeCreditBell s c) := by
  unfold State.takeCreditBell
  repeat' first
    | with_reducible assumption
    | with_reducible apply modReq_k
    | with_reducible apply misuse_k
    | with_reducible rfl
    | split
    | with_reducible intro _
    | dsimp only

theorem takeCreditsOf_k {s0 : State} (s : State) (p : Nat × Nat × Nat × Nat × Nat → Bool) (hK : Keeps s0 s) : Keeps s0 (State.takeCreditsOf s p) := by
  unfold State.takeCreditsOf
  repeat' first
    | with_reducible assumption
    | with_reducible apply keeps_foldl
    | with_reducible apply keeps_foldl_fst
    | with_reducible apply takeCreditBell_k
    | with_reducible apply onReq_k
    | with_reducible rfl
    | split
    | with_reducible intro _
    | dsimp only

theorem takeCredits_k {s0 : State} (s : State) (hK : Keeps s0 s) : Keeps s0 (State.takeCredits s) := by
  unfold State.takeCredits
  repeat' first
    | with_reducible assumption
    | with_reducible apply takeCreditsOf_k
    | with_reducible rfl
    | split
    | with_reducible intro _
    | dsimp only

theorem takeFreeCredits_k {s0 : State} (s : State) (hK : Keeps s0 s) : Keeps s0 (State.takeFreeCredits s) := by
  unfold State.takeFreeCredits
  repeat' first
    | with_reducible assumption
    | with_reducible apply takeCreditsOf_k
    | with_reducible rfl
    | split
    | with_reducible intro _
    | dsimp only

theorem execRingRegister_k {s0 : State} (mb : Nat) (s : State) (hK : Keeps s0 s) : KeepsO s0 (execRingRegister mb s) := by
  unfold execRingRegister
  repeat' first
    | with_reducible assumption
    | with_reducible apply keepsO_next
    | with_reducible apply runI_k
    | with_reducible apply onReq_k
    | with_reducible apply keepsE_need
    | with_reducible apply keepsE_bindS
    | with_reducible apply keepsE_bind
    | with_reducible apply keepsE_okS
    | with_reducible apply keepsE_ok
    | with_reducible apply keepsE_error
    | with_reducible rfl
    | split
    | with_reducible intro _
    | dsimp only

theorem execRingRelease_k {s0 : State} (mb : Nat) (s : State) (hK : Keeps s0 s) : KeepsO s0 (execRingRelease mb s) := by
  unfold execRingRelease
  repeat' first
    | with_reducible assumption
    | with_reducible apply keepsO_next
    | with_reducible apply runT_k
    | with_reducible apply onReq_k
    | with_reducible apply keepsE_need
    | with_reducible apply keepsE_bindS
    | with_reducible apply keepsE_bind
    | with_reducible apply keepsE_okS
    | with_reducible apply keepsE_ok
    | with_reducible apply keepsE_error
    | with_reducible rfl
    | split
    | with_reducible intro _
    | dsimp only

theorem allocObjects_k {s0 : State} (s : State) (slot : Nat) (r : Request) (hK : Keeps s0 s) : Keeps s0 (State.allocObjects s slot r).1 := by
  unfold State.allocObjects
  repeat' first
    | with_reducible assumption
    | with_reducible apply grant1_k
    | with_reducible apply refuse_k
    | with_reducible apply draw_k
    | with_reducible apply onMem_k
    | with_reducible apply writeProvs_wf
    | with_reducible apply wf_foldl
    | with_reducible apply wf_clear
    | with_reducible apply wf_writeN
    | with_reducible apply wf_write
    | with_reducible rfl
    | split
    | with_reducible intro _
    | dsimp only

theorem admitReq_k {s0 : State} (s : State) (slot port : Nat) (r : Request) (ctx : List Nat) (hK : Keeps s0 s) : Keeps s0 (State.admitReq s slot port r ctx).1 := by
  unfold State.admitReq
  repeat' first
    | with_reducible assumption
    | with_reducible apply allocObjects_k
    | with_reducible apply usePipe_k
    | with_reducible apply takeMatches_k
    | with_reducible apply setReq_k
    | with_reducible rfl
    | split
    | with_reducible intro _
    | dsimp only

theorem consume_k {s0 : State} (s : State) (n : Nat) (hK : Keeps s0 s) : Keeps s0 (State.consume s n) := by
  unfold State.consume
  repeat' first
    | with_reducible assumption
    | with_reducible apply modRing_k
    | with_reducible apply onReq_k
    | with_reducible rfl
    | split
    | with_reducible intro _
    | dsimp only

theorem readBuffers_k {s0 : State} (s : State) (port : Nat) (b : List Byte) (d : DescRead) (hK : Keeps s0 s) : Keeps s0 (State.readBuffers s port b d) := by
  unfold State.readBuffers
  repeat' first
    | with_reducible assumption
    | with_reducible apply hostRead_k
    | with_reducible rfl
    | split
    | with_reducible intro _
    | dsimp only

theorem startRequest_k {s0 : State} (s : State) (slot : Nat) (hK : Keeps s0 s) : Keeps s0 (State.startRequest s slot) := by
  unfold State.startRequest
  repeat' first
    | with_reducible assumption
    | with_reducible apply writeStream_k
    | with_reducible apply modReq_k
    | with_reducible apply claimShip_k
    | with_reducible rfl
    | split
    | with_reducible intro _
    | dsimp only

theorem execSubmit_k {s0 : State} (ring : Nat) (d : DescRead) (s : State) (hK : Keeps s0 s) : KeepsO s0 (execSubmit ring d s) := by
  unfold execSubmit
  repeat' first
    | with_reducible assumption
    | with_reducible apply keepsO_next
    | with_reducible apply consume_k
    | with_reducible apply closeTransit_k
    | with_reducible apply hostRead_k
    | with_reducible apply stopRing_k
    | with_reducible apply hostWrite_k
    | with_reducible apply readBuffers_k
    | with_reducible apply admitReq_k
    | with_reducible apply startRequest_k
    | with_reducible rfl
    | split
    | with_reducible intro _
    | dsimp only

theorem execRecover_k {s0 : State} (mb : Nat) (s : State) (hK : Keeps s0 s) : KeepsO s0 (execRecover mb s) := by
  unfold execRecover
  repeat' first
    | with_reducible assumption
    | with_reducible apply keepsO_next
    | with_reducible apply runL_k
    | with_reducible apply setCmd_k
    | with_reducible apply keepsE_need
    | with_reducible apply keepsE_bindS
    | with_reducible apply keepsE_bind
    | with_reducible apply keepsE_okS
    | with_reducible apply keepsE_ok
    | with_reducible apply keepsE_error
    | with_reducible rfl
    | split
    | with_reducible intro _
    | dsimp only

theorem recoverOne_k {s0 : State} (s : State) (c : MbCommand) (r : RecoverRead) (hK : Keeps s0 s) : Keeps s0 (recoverOne s c r).1 := by
  unfold recoverOne
  repeat' first
    | with_reducible assumption
    | with_reducible apply readBuffers_k
    | with_reducible apply hostRead_k
    | with_reducible apply admitReq_k
    | with_reducible apply modReq_k
    | with_reducible apply keeps_foldl
    | with_reducible apply keeps_foldl_fst
    | with_reducible apply closeReq_k
    | with_reducible rfl
    | split
    | with_reducible intro _
    | dsimp only

theorem execRecoverEntry_k {s0 : State} (mb : Nat) (r : RecoverRead) (s : State) (hK : Keeps s0 s) : KeepsO s0 (execRecoverEntry mb r s) := by
  unfold execRecoverEntry
  repeat' first
    | with_reducible assumption
    | with_reducible apply keepsO_next
    | with_reducible apply recoverOne_k
    | with_reducible apply onReq_k
    | with_reducible apply hostRead_k
    | with_reducible apply hostWrite_k
    | with_reducible apply complete_k
    | with_reducible apply setCmd_k
    | with_reducible rfl
    | split
    | with_reducible intro _
    | dsimp only

end Sys2Proof.Laws
end

