-- ==== Sys2Proof/Laws/KeepsMigration.lean ====
section
/-! SUPPORT. What the operations of Machine/Migration.lean keep (Laws/Keeps.lean). -/

set_option linter.unusedTactic false
set_option linter.unreachableTactic false
set_option linter.unusedVariables false

namespace Sys2Proof.Laws

open Sys2Proof Sys2Proof.Machine

theorem sendMgmt_k {s0 : State} (s : State) (dst : Nat) (m : MgmtMsg) (hK : Keeps s0 s) : Keeps s0 (State.sendMgmt s dst m) := by
  unfold State.sendMgmt
  repeat' first
    | with_reducible assumption
    | with_reducible apply onGelcon_k
    | with_reducible rfl
    | split
    | with_reducible intro _
    | dsimp only

theorem setMigration_k {s0 : State} (s : State) (slot step : Nat) (hK : Keeps s0 s) : Keeps s0 (State.setMigration s slot step) := by
  unfold State.setMigration
  repeat' first
    | with_reducible assumption
    | with_reducible apply onGelcon_k
    | with_reducible rfl
    | split
    | with_reducible intro _
    | dsimp only

theorem endMigration_k {s0 : State} (s : State) (slot status : Nat) (hK : Keeps s0 s) : Keeps s0 (State.endMigration s slot status) := by
  unfold State.endMigration
  repeat' first
    | with_reducible assumption
    | with_reducible apply complete_k
    | with_reducible apply modReq_k
    | with_reducible apply onGelcon_k
    | with_reducible apply sendMgmt_k
    | with_reducible rfl
    | split
    | with_reducible intro _
    | dsimp only

theorem startMigration_k {s0 : State} (s : State) (slot dst : Nat) (hK : Keeps s0 s) : Keeps s0 (State.startMigration s slot dst) := by
  unfold State.startMigration
  repeat' first
    | with_reducible assumption
    | with_reducible apply endMigration_k
    | with_reducible apply onGelcon_k
    | with_reducible apply sendMsg_k
    | with_reducible apply sendMgmt_k
    | with_reducible apply setMigration_k
    | with_reducible rfl
    | split
    | with_reducible intro _
    | dsimp only

theorem dropIncoming_k {s0 : State} (s : State) (slot : Nat) (hK : Keeps s0 s) : Keeps s0 (State.dropIncoming s slot) := by
  unfold State.dropIncoming
  repeat' first
    | with_reducible assumption
    | with_reducible apply keeps_foldl
    | with_reducible apply keeps_foldl_fst
    | with_reducible apply dropShip_k
    | with_reducible apply sendEnd_k
    | with_reducible apply onGelcon_k
    | with_reducible apply dropRequestRefs_k
    | with_reducible apply onReq_k
    | with_reducible rfl
    | split
    | with_reducible intro _
    | dsimp only

theorem takePrepare_k {s0 : State} (s : State) (src slot : Nat) (r : Request) (mfp afp : Nat) (hK : Keeps s0 s) : Keeps s0 (State.takePrepare s src slot r mfp afp) := by
  unfold State.takePrepare
  repeat' first
    | with_reducible assumption
    | with_reducible apply sendMgmt_k
    | with_reducible apply allocObjects_k
    | with_reducible apply takeMatches_k
    | with_reducible apply setReq_k
    | with_reducible apply onGelcon_k
    | with_reducible apply claimShip_k
    | with_reducible apply dropIncoming_k
    | with_reducible rfl
    | split
    | with_reducible intro _
    | dsimp only

theorem ownIncoming_k {s0 : State} (s : State) (slot : Nat) (hK : Keeps s0 s) : Keeps s0 (State.ownIncoming s slot) := by
  unfold State.ownIncoming
  repeat' first
    | with_reducible assumption
    | with_reducible apply modReq_k
    | with_reducible apply onGelcon_k
    | with_reducible rfl
    | split
    | with_reducible intro _
    | dsimp only

theorem shipResult_k {s0 : State} (s : State) (slot result : Nat) (hK : Keeps s0 s) : Keeps s0 (State.shipResult s slot result) := by
  unfold State.shipResult
  repeat' first
    | with_reducible assumption
    | with_reducible apply setMigration_k
    | with_reducible rfl
    | split
    | with_reducible intro _
    | dsimp only

theorem takeMgmt_k {s0 : State} (s : State) (src : Nat) (m : MgmtMsg) (hK : Keeps s0 s) : Keeps s0 (State.takeMgmt s src m) := by
  unfold State.takeMgmt
  repeat' first
    | with_reducible assumption
    | with_reducible apply takePrepare_k
    | with_reducible apply endMigration_k
    | with_reducible apply shipResult_k
    | with_reducible apply dropIncoming_k
    | with_reducible rfl
    | split
    | with_reducible intro _
    | dsimp only

theorem takeMgmts_k {s0 : State} (s : State) (p : Nat × Nat × Nat × MgmtMsg → Bool) (hK : Keeps s0 s) : Keeps s0 (State.takeMgmts s p) := by
  unfold State.takeMgmts
  repeat' first
    | with_reducible assumption
    | with_reducible apply keeps_foldl
    | with_reducible apply keeps_foldl_fst
    | with_reducible apply takeMgmt_k
    | with_reducible apply onGelcon_k
    | with_reducible rfl
    | split
    | with_reducible intro _
    | dsimp only

theorem checkIncoming_k {s0 : State} (s : State) (hK : Keeps s0 s) : Keeps s0 (State.checkIncoming s) := by
  unfold State.checkIncoming
  repeat' first
    | with_reducible assumption
    | with_reducible apply keeps_foldl
    | with_reducible apply keeps_foldl_fst
    | with_reducible apply dropIncoming_k
    | with_reducible apply dropShip_k
    | with_reducible apply sendEnd_k
    | with_reducible rfl
    | split
    | with_reducible intro _
    | dsimp only

theorem execMgmt_k {s0 : State} (t : Nat) (a : Arrival) (msg : MgmtMsg) (s : State) (hK : Keeps s0 s) : KeepsO s0 (execMgmt t a msg s) := by
  unfold execMgmt
  repeat' first
    | with_reducible assumption
    | with_reducible apply keepsO_next
    | with_reducible apply atTime_k
    | with_reducible apply receive_k
    | with_reducible apply onGelcon_k
    | with_reducible rfl
    | split
    | with_reducible intro _
    | dsimp only

theorem execShipEnd_k {s0 : State} (t port : Nat) (p : Packet) (s : State) (hK : Keeps s0 s) : KeepsO s0 (execShipEnd t port p s) := by
  unfold execShipEnd
  repeat' first
    | with_reducible assumption
    | with_reducible apply keepsO_next
    | with_reducible apply atTime_k
    | with_reducible apply receive_k
    | with_reducible apply badPacket_k
    | with_reducible apply dropShip_k
    | with_reducible apply shipResult_k
    | with_reducible apply failImport_k
    | with_reducible rfl
    | split
    | with_reducible intro _
    | dsimp only

end Sys2Proof.Laws
end

