-- ==== Sys2Proof/Laws/KeepsGroup.lean ====
section
/-! SUPPORT. What the operations of Machine/Group.lean keep (Laws/Keeps.lean). -/

set_option linter.unusedTactic false
set_option linter.unreachableTactic false
set_option linter.unusedVariables false

namespace Sys2Proof.Laws

open Sys2Proof Sys2Proof.Machine

theorem broadcast_k {s0 : State} (s : State) (ptype : Nat) (payload : List Byte) (hK : Keeps s0 s) : Keeps s0 (State.broadcast s ptype payload) := by
  unfold State.broadcast
  repeat' first
    | with_reducible assumption
    | with_reducible apply keeps_foldl
    | with_reducible apply keeps_foldl_fst
    | with_reducible apply sendMsg_k
    | with_reducible rfl
    | split
    | with_reducible intro _
    | dsimp only

theorem setMaster_k {s0 : State} (s : State) (m : Nat) (hK : Keeps s0 s) : Keeps s0 (State.setMaster s m) := by
  unfold State.setMaster
  repeat' first
    | with_reducible assumption
    | with_reducible apply onTick_k
    | with_reducible rfl
    | split
    | with_reducible intro _
    | dsimp only

theorem addVotes_k {s0 : State} (s : State) (sender : Nat) (l : List VoteEntry) (hK : Keeps s0 s) : Keeps s0 (State.addVotes s sender l) := by
  unfold State.addVotes
  repeat' first
    | with_reducible assumption
    | with_reducible apply onTick_k
    | with_reducible rfl
    | split
    | with_reducible intro _
    | dsimp only

theorem castVotes_k {s0 : State} (s : State) (hK : Keeps s0 s) : Keeps s0 (State.castVotes s) := by
  unfold State.castVotes
  repeat' first
    | with_reducible assumption
    | with_reducible apply onTick_k
    | with_reducible apply onPlan_k
    | with_reducible apply keeps_foldl
    | with_reducible apply keeps_foldl_fst
    | with_reducible apply setMigration_k
    | with_reducible apply addVotes_k
    | with_reducible apply sendMsg_k
    | with_reducible rfl
    | split
    | with_reducible intro _
    | dsimp only

theorem takeCost_k {s0 : State} (s : State) (c : Nat × Nat × Nat × Nat) (hK : Keeps s0 s) : Keeps s0 (State.takeCost s c) := by
  unfold State.takeCost
  repeat' first
    | with_reducible assumption
    | with_reducible apply onPlan_k
    | with_reducible rfl
    | split
    | with_reducible intro _
    | dsimp only

theorem takeEarlyCosts_k {s0 : State} (s : State) (hK : Keeps s0 s) : Keeps s0 (State.takeEarlyCosts s) := by
  unfold State.takeEarlyCosts
  repeat' first
    | with_reducible assumption
    | with_reducible apply keeps_foldl
    | with_reducible apply keeps_foldl_fst
    | with_reducible apply takeCost_k
    | with_reducible apply onPlan_k
    | with_reducible rfl
    | split
    | with_reducible intro _
    | dsimp only

theorem execVote_k {s0 : State} (t port : Nat) (v : VoteIn) (s : State) (hK : Keeps s0 s) : KeepsO s0 (execVote t port v s) := by
  unfold execVote
  repeat' first
    | with_reducible assumption
    | with_reducible apply keepsO_next
    | with_reducible apply atTime_k
    | with_reducible apply tc0In_k
    | with_reducible apply keeps_foldl
    | with_reducible apply keeps_foldl_fst
    | with_reducible apply takeCost_k
    | with_reducible apply onPlan_k
    | with_reducible apply violate_k
    | with_reducible apply addVotes_k
    | with_reducible apply onTick_k
    | with_reducible rfl
    | split
    | with_reducible intro _
    | dsimp only

theorem advanceShard_k {s0 : State} (s : State) (slot home : Nat) (r : Request) (row : PlanRow) (a : Attempt) (toks chunk : Nat) (hK : Keeps s0 s) : Keeps s0 (State.advanceShard s slot home r row a toks chunk) := by
  unfold State.advanceShard
  repeat' first
    | with_reducible assumption
    | with_reducible apply noteCommit_k
    | with_reducible apply modReq_k
    | with_reducible apply noteTokens_k
    | with_reducible apply markPublish_k
    | with_reducible apply onReq_k
    | with_reducible apply onPlan_k
    | with_reducible rfl
    | split
    | with_reducible intro _
    | dsimp only

theorem applyHome_k {s0 : State} (s : State) (row : PlanRow) (listed : Bool) (hK : Keeps s0 s) : Keeps s0 (State.applyHome s row listed) := by
  unfold State.applyHome
  repeat' first
    | with_reducible assumption
    | with_reducible apply settleTimers_k
    | with_reducible apply endAttempt_k
    | with_reducible apply closeReq_k
    | with_reducible apply commitPath_k
    | with_reducible apply commitNumeric_k
    | with_reducible rfl
    | split
    | with_reducible intro _
    | dsimp only

theorem applyRow_k {s0 : State} (s : State) (set : List (Nat × Nat × Nat × Nat)) (row : PlanRow) (hK : Keeps s0 s) : Keeps s0 (State.applyRow s set row) := by
  unfold State.applyRow
  repeat' first
    | with_reducible assumption
    | with_reducible apply applyHome_k
    | with_reducible apply advanceShard_k
    | with_reducible apply onPlan_k
    | with_reducible apply modReq_k
    | with_reducible apply settleRest_k
    | with_reducible rfl
    | split
    | with_reducible intro _
    | dsimp only

theorem applyHandovers_k {s0 : State} (s : State) (set : List (Nat × Nat × Nat × Nat)) (hK : Keeps s0 s) : Keeps s0 (State.applyHandovers s set) := by
  unfold State.applyHandovers
  repeat' first
    | with_reducible assumption
    | with_reducible apply keeps_foldl
    | with_reducible apply keeps_foldl_fst
    | with_reducible apply endMigration_k
    | with_reducible apply closeReq_k
    | with_reducible apply ownIncoming_k
    | with_reducible rfl
    | split
    | with_reducible intro _
    | dsimp only

theorem keepSet_k {s0 : State} (s : State) (tick : Nat) (set : List (Nat × Nat × Nat × Nat)) (hK : Keeps s0 s) : Keeps s0 (State.keepSet s tick set) := by
  unfold State.keepSet
  repeat' first
    | with_reducible assumption
    | with_reducible apply onTick_k
    | with_reducible rfl
    | split
    | with_reducible intro _
    | dsimp only

theorem applySet_k {s0 : State} (s : State) (tick : Nat) (set : List (Nat × Nat × Nat × Nat)) (hK : Keeps s0 s) : Keeps s0 (State.applySet s tick set) := by
  unfold State.applySet
  repeat' first
    | with_reducible assumption
    | with_reducible apply onTick_k
    | with_reducible apply keeps_foldl
    | with_reducible apply keeps_foldl_fst
    | with_reducible apply applyRow_k
    | with_reducible apply applyHandovers_k
    | with_reducible apply onPlan_k
    | with_reducible rfl
    | split
    | with_reducible intro _
    | dsimp only

theorem execVoteCutoff_k {s0 : State} (s : State) (hK : Keeps s0 s) : KeepsO s0 (execVoteCutoff s) := by
  unfold execVoteCutoff
  repeat' first
    | with_reducible assumption
    | with_reducible apply keepsO_next
    | with_reducible apply atTime_k
    | with_reducible apply onTick_k
    | with_reducible apply keepSet_k
    | with_reducible apply broadcast_k
    | with_reducible apply applySet_k
    | with_reducible rfl
    | split
    | with_reducible intro _
    | dsimp only

theorem applyFetched_k {s0 : State} (s : State) (hK : Keeps s0 s) : Keeps s0 (State.applyFetched s) := by
  unfold State.applyFetched
  repeat' first
    | with_reducible assumption
    | with_reducible apply keeps_foldl
    | with_reducible apply keeps_foldl_fst
    | with_reducible apply keepSet_k
    | with_reducible apply applySet_k
    | with_reducible apply onTick_k
    | with_reducible rfl
    | split
    | with_reducible intro _
    | dsimp only

theorem keepFetched_k {s0 : State} (s : State) (k : Nat) (set : List (Nat × Nat × Nat × Nat)) (hK : Keeps s0 s) : Keeps s0 (State.keepFetched s k set) := by
  unfold State.keepFetched
  repeat' first
    | with_reducible assumption
    | with_reducible apply onTick_k
    | with_reducible rfl
    | split
    | with_reducible intro _
    | dsimp only

theorem execCommitSet_k {s0 : State} (t port : Nat) (payload : List (BitVec 8)) (s : State) (hK : Keeps s0 s) : KeepsO s0 (execCommitSet t port payload s) := by
  unfold execCommitSet
  repeat' first
    | with_reducible assumption
    | with_reducible apply keepsO_next
    | with_reducible apply atTime_k
    | with_reducible apply tc0In_k
    | with_reducible apply violate_k
    | with_reducible apply keepSet_k
    | with_reducible apply applySet_k
    | with_reducible apply keepFetched_k
    | with_reducible rfl
    | split
    | with_reducible intro _
    | dsimp only

theorem execCsetReq_k {s0 : State} (t src tick : Nat) (s : State) (hK : Keeps s0 s) : KeepsO s0 (execCsetReq t src tick s) := by
  unfold execCsetReq
  repeat' first
    | with_reducible assumption
    | with_reducible apply keepsO_next
    | with_reducible apply atTime_k
    | with_reducible apply sendMsg_k
    | with_reducible rfl
    | split
    | with_reducible intro _
    | dsimp only

theorem holdRows_k {s0 : State} (s : State) (hK : Keeps s0 s) : Keeps s0 (State.holdRows s) := by
  unfold State.holdRows
  repeat' first
    | with_reducible assumption
    | with_reducible apply keeps_foldl
    | with_reducible apply keeps_foldl_fst
    | with_reducible apply modReq_k
    | with_reducible apply settleRest_k
    | with_reducible apply onPlan_k
    | with_reducible apply sendMsg_k
    | with_reducible rfl
    | split
    | with_reducible intro _
    | dsimp only

theorem sendShardPlans_k {s0 : State} (s : State) (hK : Keeps s0 s) : Keeps s0 (State.sendShardPlans s) := by
  unfold State.sendShardPlans
  repeat' first
    | with_reducible assumption
    | with_reducible apply keeps_foldl
    | with_reducible apply keeps_foldl_fst
    | with_reducible apply sendMsg_k
    | with_reducible apply onPlan_k
    | with_reducible rfl
    | split
    | with_reducible intro _
    | dsimp only

theorem execShardPlan_k {s0 : State} (t port : Nat) (payload : List (BitVec 8)) (s : State) (hK : Keeps s0 s) : KeepsO s0 (execShardPlan t port payload s) := by
  unfold execShardPlan
  repeat' first
    | with_reducible assumption
    | with_reducible apply keepsO_next
    | with_reducible apply atTime_k
    | with_reducible apply tc0In_k
    | with_reducible apply violate_k
    | with_reducible apply onPlan_k
    | with_reducible rfl
    | split
    | with_reducible intro _
    | dsimp only

theorem adoptGrid_k {s0 : State} (s : State) (m : SyncMsg) (hK : Keeps s0 s) : Keeps s0 (State.adoptGrid s m) := by
  unfold State.adoptGrid
  repeat' first
    | with_reducible assumption
    | with_reducible apply onTick_k
    | with_reducible apply onPlan_k
    | with_reducible rfl
    | split
    | with_reducible intro _
    | dsimp only

theorem noteOffset_k {s0 : State} (s : State) (i : Int) (hK : Keeps s0 s) : Keeps s0 (State.noteOffset s i) := by
  unfold State.noteOffset
  repeat' first
    | with_reducible assumption
    | with_reducible apply onTick_k
    | with_reducible rfl
    | split
    | with_reducible intro _
    | dsimp only

theorem takeLengths_k {s0 : State} (s : State) (m : SyncMsg) (hK : Keeps s0 s) : Keeps s0 (State.takeLengths s m) := by
  unfold State.takeLengths
  repeat' first
    | with_reducible assumption
    | with_reducible apply onTick_k
    | with_reducible rfl
    | split
    | with_reducible intro _
    | dsimp only

theorem hearMember_k {s0 : State} (s : State) (m : SyncMsg) (hK : Keeps s0 s) : Keeps s0 (State.hearMember s m) := by
  unfold State.hearMember
  repeat' first
    | with_reducible assumption
    | with_reducible apply onTick_k
    | with_reducible rfl
    | split
    | with_reducible intro _
    | dsimp only

theorem hearGroup_k {s0 : State} (s : State) (m : SyncMsg) (hK : Keeps s0 s) : Keeps s0 (State.hearGroup s m) := by
  unfold State.hearGroup
  repeat' first
    | with_reducible assumption
    | with_reducible apply onTick_k
    | with_reducible apply noteOffset_k
    | with_reducible rfl
    | split
    | with_reducible intro _
    | dsimp only

theorem execSync_k {s0 : State} (t : Nat) (m : SyncMsg) (s : State) (hK : Keeps s0 s) : KeepsO s0 (execSync t m s) := by
  unfold execSync
  repeat' first
    | with_reducible assumption
    | with_reducible apply keepsO_next
    | with_reducible apply atTime_k
    | with_reducible apply hearGroup_k
    | with_reducible apply hearMember_k
    | with_reducible apply adoptGrid_k
    | with_reducible apply setMaster_k
    | with_reducible apply noteOffset_k
    | with_reducible apply takeLengths_k
    | with_reducible rfl
    | split
    | with_reducible intro _
    | dsimp only

theorem execAlignmentRestored_k {s0 : State} (t : Nat) (s : State) (hK : Keeps s0 s) : KeepsO s0 (execAlignmentRestored t s) := by
  unfold execAlignmentRestored
  repeat' first
    | with_reducible assumption
    | with_reducible apply keepsO_next
    | with_reducible apply atTime_k
    | with_reducible apply onTick_k
    | with_reducible rfl
    | split
    | with_reducible intro _
    | dsimp only

theorem succeed_k {s0 : State} (s : State) (m : Nat) (hK : Keeps s0 s) : Keeps s0 (State.succeed s m) := by
  unfold State.succeed
  repeat' first
    | with_reducible assumption
    | with_reducible apply setMaster_k
    | with_reducible apply keeps_foldl
    | with_reducible apply keeps_foldl_fst
    | with_reducible apply broadcast_k
    | with_reducible apply onTick_k
    | with_reducible rfl
    | split
    | with_reducible intro _
    | dsimp only

theorem settleTick_k {s0 : State} (s : State) (k : Nat) (hK : Keeps s0 s) : Keeps s0 (State.settleTick s k) := by
  unfold State.settleTick
  repeat' first
    | with_reducible assumption
    | with_reducible apply keepSet_k
    | with_reducible apply broadcast_k
    | with_reducible apply applySet_k
    | with_reducible rfl
    | split
    | with_reducible intro _
    | dsimp only

theorem settleTicks_k {s0 : State} (s : State) (hK : Keeps s0 s) : Keeps s0 (State.settleTicks s) := by
  unfold State.settleTicks
  repeat' first
    | with_reducible assumption
    | with_reducible apply keeps_foldl
    | with_reducible apply keeps_foldl_fst
    | with_reducible apply settleTick_k
    | with_reducible apply onTick_k
    | with_reducible rfl
    | split
    | with_reducible intro _
    | dsimp only

theorem noteSyncs_k {s0 : State} (s : State) (hK : Keeps s0 s) : Keeps s0 (State.noteSyncs s) := by
  unfold State.noteSyncs
  repeat' first
    | with_reducible assumption
    | with_reducible apply onTick_k
    | with_reducible apply keeps_foldl
    | with_reducible apply keeps_foldl_fst
    | with_reducible apply setMaster_k
    | with_reducible apply succeed_k
    | with_reducible rfl
    | split
    | with_reducible intro _
    | dsimp only

theorem sendSync_k {s0 : State} (s : State) (hK : Keeps s0 s) : Keeps s0 (State.sendSync s) := by
  unfold State.sendSync
  repeat' first
    | with_reducible assumption
    | with_reducible apply broadcast_k
    | with_reducible apply onTick_k
    | with_reducible apply keeps_foldl
    | with_reducible apply keeps_foldl_fst
    | with_reducible apply sendMsg_k
    | with_reducible rfl
    | split
    | with_reducible intro _
    | dsimp only

theorem execTickMasterRecompute_k {s0 : State} (found : List (Nat × List (Nat × Nat × Nat × Nat))) (s : State) (hK : Keeps s0 s) : KeepsO s0 (execTickMasterRecompute found s) := by
  unfold execTickMasterRecompute
  repeat' first
    | with_reducible assumption
    | with_reducible apply keepsO_next
    | with_reducible apply succeed_k
    | with_reducible apply keeps_foldl
    | with_reducible apply keeps_foldl_fst
    | with_reducible apply keepFetched_k
    | with_reducible rfl
    | split
    | with_reducible intro _
    | dsimp only

theorem execGroupConfigJoin_k {s0 : State} (mb groupTime : Nat) (s : State) (hK : Keeps s0 s) : KeepsO s0 (execGroupConfigJoin mb groupTime s) := by
  unfold execGroupConfigJoin
  repeat' first
    | with_reducible assumption
    | with_reducible apply keepsO_next
    | with_reducible apply runI_k
    | with_reducible apply onTick_k
    | with_reducible apply capChanged_k
    | with_reducible apply keepsE_need
    | with_reducible apply keepsE_bindS
    | with_reducible apply keepsE_bind
    | with_reducible apply keepsE_okS
    | with_reducible apply keepsE_ok
    | with_reducible apply keepsE_error
    | with_reducible rfl
    | split
    | with_reducible intro _
    | dsimp only

theorem execGroupConfigLeave_k {s0 : State} (mb : Nat) (s : State) (hK : Keeps s0 s) : KeepsO s0 (execGroupConfigLeave mb s) := by
  unfold execGroupConfigLeave
  repeat' first
    | with_reducible assumption
    | with_reducible apply keepsO_next
    | with_reducible apply runI_k
    | with_reducible apply onTick_k
    | with_reducible apply capChanged_k
    | with_reducible apply keepsE_need
    | with_reducible apply keepsE_bindS
    | with_reducible apply keepsE_bind
    | with_reducible apply keepsE_okS
    | with_reducible apply keepsE_ok
    | with_reducible apply keepsE_error
    | with_reducible rfl
    | split
    | with_reducible intro _
    | dsimp only

end Sys2Proof.Laws
end

