-- ==== Sys2Proof/Laws/KeepsTiers.lean ====
section
/-! SUPPORT. What the operations of Machine/Tiers.lean keep (Laws/Keeps.lean). -/

set_option linter.unusedTactic false
set_option linter.unreachableTactic false
set_option linter.unusedVariables false

namespace Sys2Proof.Laws

open Sys2Proof Sys2Proof.Machine

theorem rewriteSidecars_wf (g : PageGroup) (m : Memory) (h : m.wf = true) : (rewriteSidecars g m).wf = true :=
  wf_foldl _ (fun _ _ h => wf_writeN _ _ (wf_writeN _ _ h)) _ h

theorem writeSpans_wf (l : List (Nat × Nat × Nat)) (bs : List Byte) (m : Memory) (h : m.wf = true) : (writeSpans l bs m).wf = true := by
  induction l generalizing bs m with
  | nil => exact h
  | cons x r ih => exact ih _ _ (wf_writeN _ _ h)

theorem execTierRegister_k {s0 : State} (mb : Nat) (s : State) (hK : Keeps s0 s) : KeepsO s0 (execTierRegister mb s) := by
  unfold execTierRegister
  repeat' first
    | with_reducible assumption
    | with_reducible apply keepsO_next
    | with_reducible apply runI_k
    | with_reducible apply onTier_k
    | with_reducible apply keepsE_need
    | with_reducible apply keepsE_bindS
    | with_reducible apply keepsE_bind
    | with_reducible apply keepsE_okS
    | with_reducible apply keepsE_ok
    | with_reducible apply keepsE_error
    | with_reducible rfl
    | split
    | with_reducible intro _
    | dsimp only

theorem execTierRelease_k {s0 : State} (mb : Nat) (s : State) (hK : Keeps s0 s) : KeepsO s0 (execTierRelease mb s) := by
  unfold execTierRelease
  repeat' first
    | with_reducible assumption
    | with_reducible apply keepsO_next
    | with_reducible apply runT_k
    | with_reducible apply onTier_k
    | with_reducible apply keepsE_need
    | with_reducible apply keepsE_bindS
    | with_reducible apply keepsE_bind
    | with_reducible apply keepsE_okS
    | with_reducible apply keepsE_ok
    | with_reducible apply keepsE_error
    | with_reducible rfl
    | split
    | with_reducible intro _
    | dsimp only

theorem runDirective_k {s0 : State} (s : State) (mb d : Nat) (f : MbCommand → State → Except Nat (State × List Byte))
    (hF : ∀ c t, Keeps s0 t → KeepsE Prod.fst s0 (f c t)) (hK : Keeps s0 s) : Keeps s0 (runDirective s mb d f) := by
  unfold runDirective
  repeat' first
    | with_reducible assumption
    | with_reducible apply hF
    | with_reducible apply runT_k
    | with_reducible apply keepsE_need
    | with_reducible apply keepsE_bind
    | with_reducible apply keepsE_error
    | split
    | with_reducible intro _
    | dsimp only

theorem groupDirective_k {s0 : State} (s : State) (mb d : Nat) (f : Nat → State → Except Nat State)
    (hF : ∀ h t, Keeps s0 t → KeepsE id s0 (f h t)) (hK : Keeps s0 s) : Keeps s0 (groupDirective s mb d f) := by
  unfold groupDirective
  refine runDirective_k _ _ _ _ (fun c t ht => ?_) hK
  split
  · exact keepsE_error
  · rename_i n _
    intro a ha
    have hb := hF n _ ht
    revert ha hb
    generalize f n t = e
    intro ha hb
    cases e with
    | error x => cases ha
    | ok u =>
      cases ha
      exact hb u rfl

theorem pinChain_k {s0 : State} (a0 : Nat) (a1 : Nat) (s : State) (hK : Keeps s0 s) : Keeps s0 (pinChain a0 a1 s) := by
  induction a0 generalizing a1 s with
  | zero => exact hK
  | succ n ih =>
    unfold pinChain
    repeat' first
      | with_reducible assumption
      | with_reducible apply ih
      | with_reducible apply modGroup_k
      | with_reducible apply towardResident_k
      | with_reducible rfl
      | split
      | with_reducible intro _
      | dsimp only

theorem execPin_k {s0 : State} (mb : Nat) (s : State) (hK : Keeps s0 s) : KeepsO s0 (execPin mb s) := by
  unfold execPin
  repeat' first
    | with_reducible assumption
    | with_reducible apply keepsO_next
    | with_reducible apply groupDirective_k
    | with_reducible apply pinChain_k
    | with_reducible apply keepsE_need
    | with_reducible apply keepsE_bindS
    | with_reducible apply keepsE_bind
    | with_reducible apply keepsE_okS
    | with_reducible apply keepsE_ok
    | with_reducible apply keepsE_error
    | with_reducible rfl
    | split
    | with_reducible intro _
    | dsimp only

theorem execUnpin_k {s0 : State} (mb : Nat) (s : State) (hK : Keeps s0 s) : KeepsO s0 (execUnpin mb s) := by
  unfold execUnpin
  repeat' first
    | with_reducible assumption
    | with_reducible apply keepsO_next
    | with_reducible apply groupDirective_k
    | with_reducible apply modGroup_k
    | with_reducible apply recheck_k
    | with_reducible apply keepsE_need
    | with_reducible apply keepsE_bindS
    | with_reducible apply keepsE_bind
    | with_reducible apply keepsE_okS
    | with_reducible apply keepsE_ok
    | with_reducible apply keepsE_error
    | with_reducible rfl
    | split
    | with_reducible intro _
    | dsimp only

theorem execPromote_k {s0 : State} (mb : Nat) (s : State) (hK : Keeps s0 s) : KeepsO s0 (execPromote mb s) := by
  unfold execPromote
  repeat' first
    | with_reducible assumption
    | with_reducible apply keepsO_next
    | with_reducible apply groupDirective_k
    | with_reducible apply towardResident_k
    | with_reducible apply recheck_k
    | with_reducible apply keepsE_need
    | with_reducible apply keepsE_bindS
    | with_reducible apply keepsE_bind
    | with_reducible apply keepsE_okS
    | with_reducible apply keepsE_ok
    | with_reducible apply keepsE_error
    | with_reducible rfl
    | split
    | with_reducible intro _
    | dsimp only

theorem execDemote_k {s0 : State} (mb : Nat) (s : State) (hK : Keeps s0 s) : KeepsO s0 (execDemote mb s) := by
  unfold execDemote
  repeat' first
    | with_reducible assumption
    | with_reducible apply keepsO_next
    | with_reducible apply groupDirective_k
    | with_reducible apply demoteGroup_k
    | with_reducible apply keepsE_need
    | with_reducible apply keepsE_bindS
    | with_reducible apply keepsE_bind
    | with_reducible apply keepsE_okS
    | with_reducible apply keepsE_ok
    | with_reducible apply keepsE_error
    | with_reducible rfl
    | split
    | with_reducible intro _
    | dsimp only

theorem execDrop_k {s0 : State} (mb : Nat) (s : State) (hK : Keeps s0 s) : KeepsO s0 (execDrop mb s) := by
  unfold execDrop
  repeat' first
    | with_reducible assumption
    | with_reducible apply keepsO_next
    | with_reducible apply groupDirective_k
    | with_reducible apply unindex_k
    | with_reducible apply recheck_k
    | with_reducible apply keepsE_need
    | with_reducible apply keepsE_bindS
    | with_reducible apply keepsE_bind
    | with_reducible apply keepsE_okS
    | with_reducible apply keepsE_ok
    | with_reducible apply keepsE_error
    | with_reducible rfl
    | split
    | with_reducible intro _
    | dsimp only

theorem execParkNow_k {s0 : State} (mb : Nat) (s : State) (hK : Keeps s0 s) : KeepsO s0 (execParkNow mb s) := by
  unfold execParkNow
  repeat' first
    | with_reducible assumption
    | with_reducible apply keepsO_next
    | with_reducible apply runDirective_k
    | with_reducible apply modReq_k
    | with_reducible apply settlePump_k
    | with_reducible apply keepsE_need
    | with_reducible apply keepsE_bindS
    | with_reducible apply keepsE_bind
    | with_reducible apply keepsE_okS
    | with_reducible apply keepsE_ok
    | with_reducible apply keepsE_error
    | with_reducible rfl
    | split
    | with_reducible intro _
    | dsimp only

theorem execPrefixProbe_k {s0 : State} (mb : Nat) (tokens : Option (List Nat)) (s : State) (hK : Keeps s0 s) : KeepsO s0 (execPrefixProbe mb tokens s) := by
  unfold execPrefixProbe
  repeat' first
    | with_reducible assumption
    | with_reducible apply keepsO_next
    | with_reducible apply runT_k
    | with_reducible apply hostRead_k
    | with_reducible apply usePipe_k
    | with_reducible apply keepsE_need
    | with_reducible apply keepsE_bindS
    | with_reducible apply keepsE_bind
    | with_reducible apply keepsE_okS
    | with_reducible apply keepsE_ok
    | with_reducible apply keepsE_error
    | with_reducible rfl
    | split
    | with_reducible intro _
    | dsimp only

theorem markFault_k {s0 : State} (s : State) (slot status : Nat) (hK : Keeps s0 s) : Keeps s0 (State.markFault s slot status) := by
  unfold State.markFault
  repeat' first
    | with_reducible assumption
    | with_reducible apply modReq_k
    | with_reducible rfl
    | split
    | with_reducible intro _
    | dsimp only

theorem closeSoon_k {s0 : State} (s : State) (slot status : Nat) (hK : Keeps s0 s) : Keeps s0 (State.closeSoon s slot status) := by
  unfold State.closeSoon
  repeat' first
    | with_reducible assumption
    | with_reducible apply closeReq_k
    | with_reducible apply markFault_k
    | with_reducible rfl
    | split
    | with_reducible intro _
    | dsimp only

theorem closeAlloyLost_k {s0 : State} (s : State) (hK : Keeps s0 s) : Keeps s0 (State.closeAlloyLost s) := by
  unfold State.closeAlloyLost
  repeat' first
    | with_reducible assumption
    | with_reducible apply keeps_foldl
    | with_reducible apply keeps_foldl_fst
    | with_reducible apply closeSoon_k
    | with_reducible rfl
    | split
    | with_reducible intro _
    | dsimp only

theorem setRebuild_k {s0 : State} (s : State) (h : Nat) (hK : Keeps s0 s) : Keeps s0 (State.setRebuild s h) := by
  unfold State.setRebuild
  repeat' first
    | with_reducible assumption
    | with_reducible apply modGroup_k
    | with_reducible apply closeAlloyLost_k
    | with_reducible rfl
    | split
    | with_reducible intro _
    | dsimp only

theorem readFailed_k {s0 : State} (s : State) (h : Nat) (hK : Keeps s0 s) : Keeps s0 (State.readFailed s h) := by
  unfold State.readFailed
  repeat' first
    | with_reducible assumption
    | with_reducible apply endTransfer_k
    | with_reducible apply onTier_k
    | with_reducible apply setRebuild_k
    | with_reducible apply modGroup_k
    | with_reducible apply closeSoon_k
    | with_reducible apply recheck_k
    | with_reducible rfl
    | split
    | with_reducible intro _
    | dsimp only

theorem failLate_k {s0 : State} (s : State) (hK : Keeps s0 s) : Keeps s0 (State.failLate s) := by
  unfold State.failLate
  repeat' first
    | with_reducible assumption
    | with_reducible apply serveTier_k
    | with_reducible apply keeps_foldl
    | with_reducible apply keeps_foldl_fst
    | with_reducible apply readFailed_k
    | with_reducible apply onTier_k
    | with_reducible rfl
    | split
    | with_reducible intro _
    | dsimp only

theorem execDemotionComplete_k {s0 : State} (handle t2Addr : Nat) (s : State) (hK : Keeps s0 s) : KeepsO s0 (execDemotionComplete handle t2Addr s) := by
  unfold execDemotionComplete
  repeat' first
    | with_reducible assumption
    | with_reducible apply keepsO_next
    | with_reducible apply endTransfer_k
    | with_reducible apply translateTier_k
    | with_reducible apply onTier_k
    | with_reducible apply addFillAt_k
    | with_reducible apply modGroup_k
    | with_reducible apply recheck_k
    | with_reducible rfl
    | split
    | with_reducible intro _
    | dsimp only

theorem demotionFailed_k {s0 : State} (s : State) (h : Nat) (hK : Keeps s0 s) : Keeps s0 (State.demotionFailed s h) := by
  unfold State.demotionFailed
  repeat' first
    | with_reducible assumption
    | with_reducible apply releaseT2_k
    | with_reducible apply modGroup_k
    | with_reducible apply endTransfer_k
    | with_reducible apply onTier_k
    | with_reducible apply recheck_k
    | with_reducible rfl
    | split
    | with_reducible intro _
    | dsimp only

theorem execDemotionFail_k {s0 : State} (handle : Nat) (s : State) (hK : Keeps s0 s) : KeepsO s0 (execDemotionFail handle s) := by
  unfold execDemotionFail
  repeat' first
    | with_reducible assumption
    | with_reducible apply keepsO_next
    | with_reducible apply demotionFailed_k
    | with_reducible rfl
    | split
    | with_reducible intro _
    | dsimp only

theorem execPromotionComplete_k {s0 : State} (handle : Nat) (data : List (BitVec 8)) (s : State) (hK : Keeps s0 s) : KeepsO s0 (execPromotionComplete handle data s) := by
  unfold execPromotionComplete
  repeat' first
    | with_reducible assumption
    | with_reducible apply keepsO_next
    | with_reducible apply translateTier_k
    | with_reducible apply onMem_k
    | with_reducible apply promoted_k
    | with_reducible apply readFailed_k
    | with_reducible apply writeSpans_wf
    | with_reducible apply wf_foldl
    | with_reducible apply wf_clear
    | with_reducible apply wf_writeN
    | with_reducible apply wf_write
    | with_reducible rfl
    | split
    | with_reducible intro _
    | dsimp only

theorem execTier2ReadFail_k {s0 : State} (handle : Nat) (s : State) (hK : Keeps s0 s) : KeepsO s0 (execTier2ReadFail handle s) := by
  unfold execTier2ReadFail
  repeat' first
    | with_reducible assumption
    | with_reducible apply keepsO_next
    | with_reducible apply readFailed_k
    | with_reducible rfl
    | split
    | with_reducible intro _
    | dsimp only

theorem execPublishRewriteDone_k {s0 : State} (handle : Nat) (s : State) (hK : Keeps s0 s) : KeepsO s0 (execPublishRewriteDone handle s) := by
  unfold execPublishRewriteDone
  repeat' first
    | with_reducible assumption
    | with_reducible apply keepsO_next
    | with_reducible apply onMem_k
    | with_reducible apply modGroup_k
    | with_reducible apply writeSidecars_wf
    | with_reducible apply rewriteSidecars_wf
    | with_reducible apply wf_foldl
    | with_reducible apply wf_clear
    | with_reducible apply wf_writeN
    | with_reducible apply wf_write
    | with_reducible rfl
    | split
    | with_reducible intro _
    | dsimp only

theorem execGranuleFillDone_k {s0 : State} (index : Nat) (s : State) (hK : Keeps s0 s) : KeepsO s0 (execGranuleFillDone index s) := by
  unfold execGranuleFillDone
  repeat' first
    | with_reducible assumption
    | with_reducible apply keepsO_next
    | with_reducible apply onMem_k
    | with_reducible apply keeps_foldl
    | with_reducible apply keeps_foldl_fst
    | with_reducible apply onTier_k
    | with_reducible apply wf_foldl
    | with_reducible apply wf_clear
    | with_reducible apply wf_writeN
    | with_reducible apply wf_write
    | with_reducible rfl
    | split
    | with_reducible intro _
    | dsimp only

end Sys2Proof.Laws
end

