-- ==== Sys2Proof/Laws/KeepsModels.lean ====
section
/-! SUPPORT. What the operations of Machine/Models.lean keep (Laws/Keeps.lean). -/

set_option linter.unusedTactic false
set_option linter.unreachableTactic false
set_option linter.unusedVariables false

namespace Sys2Proof.Laws

open Sys2Proof Sys2Proof.Machine

theorem placePieces_wf (l : List (Nat × Nat × List Byte)) (m : Memory) (h : m.wf = true) : (placePieces l m).wf = true :=
  wf_foldl _ (fun _ _ h => wf_writeN _ _ h) _ h

theorem freeGen_k {s0 : State} (s : State) (id gen : Nat) (slotOf : Option Nat) (status : Nat) (hK : Keeps s0 s) : Keeps s0 (State.freeGen s id gen slotOf status) := by
  unfold State.freeGen
  repeat' first
    | with_reducible assumption
    | with_reducible apply endMove_k
    | with_reducible apply onModels_k
    | with_reducible apply addFillAt_k
    | with_reducible apply dropEntries_k
    | with_reducible apply closeAlloyLost_k
    | with_reducible apply complete_k
    | with_reducible rfl
    | split
    | with_reducible intro _
    | dsimp only

theorem startEvict_k {s0 : State} (s : State) (n : Nat) (hK : Keeps s0 s) : Keeps s0 (State.startEvict s n) := by
  unfold State.startEvict
  repeat' first
    | with_reducible assumption
    | with_reducible apply modMslot_k
    | with_reducible apply keeps_foldl
    | with_reducible apply keeps_foldl_fst
    | with_reducible apply modGroup_k
    | with_reducible apply dropEntries_k
    | with_reducible apply recheck_k
    | with_reducible apply freeGen_k
    | with_reducible apply addFillAt_k
    | with_reducible rfl
    | split
    | with_reducible intro _
    | dsimp only

theorem loadInto_k {s0 : State} (s : State) (n mb : Nat) (i : ModelInfo) (hK : Keeps s0 s) : Keeps s0 (State.loadInto s n mb i) := by
  unfold State.loadInto
  repeat' first
    | with_reducible assumption
    | with_reducible apply reclaimAny_k
    | with_reducible apply refuse_k
    | with_reducible apply complete_k
    | with_reducible apply onTier_k
    | with_reducible apply beginMove_k
    | with_reducible apply modMslot_k
    | with_reducible apply setCmd_k
    | with_reducible rfl
    | split
    | with_reducible intro _
    | dsimp only

theorem execModelLoad_k {s0 : State} (mb : Nat) (s : State) (hK : Keeps s0 s) : KeepsO s0 (execModelLoad mb s) := by
  unfold execModelLoad
  repeat' first
    | with_reducible assumption
    | with_reducible apply keepsO_next
    | with_reducible apply runL_k
    | with_reducible apply setCmd_k
    | with_reducible apply keepsE_need
    | with_reducible apply keepsE_bindS
    | with_reducible apply keepsE_bind
    | with_reducible apply keepsE_okS
    | with_reducible apply keepsE_ok
    | with_reducible apply keepsE_error
    | with_reducible rfl
    | split
    | with_reducible intro _
    | dsimp only

theorem execModelHeaderReadDone_k {s0 : State} (mb : Nat) (r : HeaderRead) (s : State) (hK : Keeps s0 s) : KeepsO s0 (execModelHeaderReadDone mb r s) := by
  unfold execModelHeaderReadDone
  repeat' first
    | with_reducible assumption
    | with_reducible apply keepsO_next
    | with_reducible apply complete_k
    | with_reducible apply translateTier_k
    | with_reducible apply loadInto_k
    | with_reducible apply startEvict_k
    | with_reducible apply modMslot_k
    | with_reducible apply setCmd_k
    | with_reducible rfl
    | split
    | with_reducible intro _
    | dsimp only

theorem failLoad_k {s0 : State} (s : State) (n status : Nat) (hK : Keeps s0 s) : Keeps s0 (State.failLoad s n status) := by
  unfold State.failLoad
  repeat' first
    | with_reducible assumption
    | with_reducible apply complete_k
    | with_reducible apply endMove_k
    | with_reducible apply startEvict_k
    | with_reducible apply modMslot_k
    | with_reducible rfl
    | split
    | with_reducible intro _
    | dsimp only

theorem finishLoad_k {s0 : State} (s : State) (slot : Nat) (b : List Byte) (q : ImgPlaced) (hK : Keeps s0 s) : Keeps s0 (State.finishLoad s slot b q) := by
  unfold State.finishLoad
  repeat' first
    | with_reducible assumption
    | with_reducible apply endMove_k
    | with_reducible apply draw_k
    | with_reducible apply onMem_k
    | with_reducible apply modMslot_k
    | with_reducible apply count_k
    | with_reducible apply complete_k
    | with_reducible apply placePieces_wf
    | with_reducible apply wf_foldl
    | with_reducible apply wf_clear
    | with_reducible apply wf_writeN
    | with_reducible apply wf_write
    | with_reducible rfl
    | split
    | with_reducible intro _
    | dsimp only

theorem execModelLoadComplete_k {s0 : State} (slot : Nat) (r : ModelRead) (s : State) (hK : Keeps s0 s) : KeepsO s0 (execModelLoadComplete slot r s) := by
  unfold execModelLoadComplete
  repeat' first
    | with_reducible assumption
    | with_reducible apply keepsO_next
    | with_reducible apply failLoad_k
    | with_reducible apply refuse_k
    | with_reducible apply translateTier_k
    | with_reducible apply finishLoad_k
    | with_reducible rfl
    | split
    | with_reducible intro _
    | dsimp only

theorem execModelEvict_k {s0 : State} (mb : Nat) (s : State) (hK : Keeps s0 s) : KeepsO s0 (execModelEvict mb s) := by
  unfold execModelEvict
  repeat' first
    | with_reducible assumption
    | with_reducible apply keepsO_next
    | with_reducible apply runL_k
    | with_reducible apply modMslot_k
    | with_reducible apply setCmd_k
    | with_reducible apply failLoad_k
    | with_reducible apply keeps_foldl
    | with_reducible apply keeps_foldl_fst
    | with_reducible apply closeReq_k
    | with_reducible apply startEvict_k
    | with_reducible apply settlePump_k
    | with_reducible apply keepsE_need
    | with_reducible apply keepsE_bindS
    | with_reducible apply keepsE_bind
    | with_reducible apply keepsE_okS
    | with_reducible apply keepsE_ok
    | with_reducible apply keepsE_error
    | with_reducible rfl
    | split
    | with_reducible intro _
    | dsimp only

theorem execModelSlotEmpty_k {s0 : State} (slot : Nat) (s : State) (hK : Keeps s0 s) : KeepsO s0 (execModelSlotEmpty slot s) := by
  unfold execModelSlotEmpty
  repeat' first
    | with_reducible assumption
    | with_reducible apply keepsO_next
    | with_reducible apply modMslot_k
    | with_reducible apply onPlan_k
    | with_reducible apply onCfg_k
    | with_reducible apply onCfgNext_k
    | with_reducible apply keeps_foldl
    | with_reducible apply keeps_foldl_fst
    | with_reducible apply complete_k
    | with_reducible apply loadInto_k
    | with_reducible rfl
    | split
    | with_reducible intro _
    | dsimp only

theorem execModelPin_k {s0 : State} (mb : Nat) (s : State) (hK : Keeps s0 s) : KeepsO s0 (execModelPin mb s) := by
  unfold execModelPin
  repeat' first
    | with_reducible assumption
    | with_reducible apply keepsO_next
    | with_reducible apply runI_k
    | with_reducible apply onCfgNext_k
    | with_reducible apply keepsE_need
    | with_reducible apply keepsE_bindS
    | with_reducible apply keepsE_bind
    | with_reducible apply keepsE_okS
    | with_reducible apply keepsE_ok
    | with_reducible apply keepsE_error
    | with_reducible rfl
    | split
    | with_reducible intro _
    | dsimp only

theorem execModelUnpin_k {s0 : State} (mb : Nat) (s : State) (hK : Keeps s0 s) : KeepsO s0 (execModelUnpin mb s) := by
  unfold execModelUnpin
  repeat' first
    | with_reducible assumption
    | with_reducible apply keepsO_next
    | with_reducible apply runI_k
    | with_reducible apply onCfgNext_k
    | with_reducible apply keepsE_need
    | with_reducible apply keepsE_bindS
    | with_reducible apply keepsE_bind
    | with_reducible apply keepsE_okS
    | with_reducible apply keepsE_ok
    | with_reducible apply keepsE_error
    | with_reducible rfl
    | split
    | with_reducible intro _
    | dsimp only

theorem execModelRelease_k {s0 : State} (mb : Nat) (s : State) (hK : Keeps s0 s) : KeepsO s0 (execModelRelease mb s) := by
  unfold execModelRelease
  repeat' first
    | with_reducible assumption
    | with_reducible apply keepsO_next
    | with_reducible apply runI_k
    | with_reducible apply onPlan_k
    | with_reducible apply keepsE_need
    | with_reducible apply keepsE_bindS
    | with_reducible apply keepsE_bind
    | with_reducible apply keepsE_okS
    | with_reducible apply keepsE_ok
    | with_reducible apply keepsE_error
    | with_reducible rfl
    | split
    | with_reducible intro _
    | dsimp only

theorem execAlloyLoad_k {s0 : State} (mb : Nat) (r : AlloyRead) (s : State) (hK : Keeps s0 s) : KeepsO s0 (execAlloyLoad mb r s) := by
  unfold execAlloyLoad
  repeat' first
    | with_reducible assumption
    | with_reducible apply keepsO_next
    | with_reducible apply runL_k
    | with_reducible apply freeGen_k
    | with_reducible apply refuse_k
    | with_reducible apply complete_k
    | with_reducible apply draw_k
    | with_reducible apply onModels_k
    | with_reducible apply onTier_k
    | with_reducible apply beginMove_k
    | with_reducible apply setCmd_k
    | with_reducible apply keepsE_need
    | with_reducible apply keepsE_bindS
    | with_reducible apply keepsE_bind
    | with_reducible apply keepsE_okS
    | with_reducible apply keepsE_ok
    | with_reducible apply keepsE_error
    | with_reducible rfl
    | split
    | with_reducible intro _
    | dsimp only

theorem execAlloyGenResident_k {s0 : State} (id gen : Nat) (r : AlloyRead) (s : State) (hK : Keeps s0 s) : KeepsO s0 (execAlloyGenResident id gen r s) := by
  unfold execAlloyGenResident
  repeat' first
    | with_reducible assumption
    | with_reducible apply keepsO_next
    | with_reducible apply freeGen_k
    | with_reducible apply endMove_k
    | with_reducible apply translateTier_k
    | with_reducible apply onMem_k
    | with_reducible apply onModels_k
    | with_reducible apply complete_k
    | with_reducible apply placePieces_wf
    | with_reducible apply wf_foldl
    | with_reducible apply wf_clear
    | with_reducible apply wf_writeN
    | with_reducible apply wf_write
    | with_reducible rfl
    | split
    | with_reducible intro _
    | dsimp only

theorem execAlloyRetire_k {s0 : State} (mb : Nat) (s : State) (hK : Keeps s0 s) : KeepsO s0 (execAlloyRetire mb s) := by
  unfold execAlloyRetire
  repeat' first
    | with_reducible assumption
    | with_reducible apply keepsO_next
    | with_reducible apply runT_k
    | with_reducible apply freeGen_k
    | with_reducible apply onModels_k
    | with_reducible apply keepsE_need
    | with_reducible apply keepsE_bindS
    | with_reducible apply keepsE_bind
    | with_reducible apply keepsE_okS
    | with_reducible apply keepsE_ok
    | with_reducible apply keepsE_error
    | with_reducible rfl
    | split
    | with_reducible intro _
    | dsimp only

theorem freeRetired_k {s0 : State} (s : State) (hK : Keeps s0 s) : Keeps s0 (State.freeRetired s) := by
  unfold State.freeRetired
  repeat' first
    | with_reducible assumption
    | with_reducible apply keeps_foldl
    | with_reducible apply keeps_foldl_fst
    | with_reducible apply freeGen_k
    | with_reducible rfl
    | split
    | with_reducible intro _
    | dsimp only

theorem followAll_k {s0 : State} (s : State) (hK : Keeps s0 s) : Keeps s0 (State.followAll s) := by
  unfold State.followAll
  repeat' first
    | with_reducible assumption
    | with_reducible apply onReq_k
    | with_reducible apply closeAlloyLost_k
    | with_reducible rfl
    | split
    | with_reducible intro _
    | dsimp only

theorem failImage_k {s0 : State} (s : State) (target : Nat) (hK : Keeps s0 s) : Keeps s0 (State.failImage s target) := by
  unfold State.failImage
  repeat' first
    | with_reducible assumption
    | with_reducible apply failLoad_k
    | with_reducible apply freeGen_k
    | with_reducible rfl
    | split
    | with_reducible intro _
    | dsimp only

theorem failLateLoads_k {s0 : State} (s : State) (hK : Keeps s0 s) : Keeps s0 (State.failLateLoads s) := by
  unfold State.failLateLoads
  repeat' first
    | with_reducible assumption
    | with_reducible apply keeps_foldl
    | with_reducible apply keeps_foldl_fst
    | with_reducible apply failImage_k
    | with_reducible rfl
    | split
    | with_reducible intro _
    | dsimp only

end Sys2Proof.Laws
end

