-- ==== Sys2Proof/Laws/KeepsHostPorts.lean ====
section
/-! SUPPORT. What the operations of Machine/HostPorts.lean keep (Laws/Keeps.lean). -/

set_option linter.unusedTactic false
set_option linter.unreachableTactic false
set_option linter.unusedVariables false

namespace Sys2Proof.Laws

open Sys2Proof Sys2Proof.Machine

theorem noteSingle_k {s0 : State} (s : State) (hK : Keeps s0 s) : Keeps s0 (State.noteSingle s) := by
  unfold State.noteSingle
  repeat' first
    | with_reducible assumption
    | with_reducible apply onHost_k
    | with_reducible rfl
    | split
    | with_reducible intro _
    | dsimp only

theorem declareDown_k {s0 : State} (s : State) (p : Nat) (hK : Keeps s0 s) : Keeps s0 (State.declareDown s p) := by
  unfold State.declareDown
  repeat' first
    | with_reducible assumption
    | with_reducible apply serveTier_k
    | with_reducible apply modHport_k
    | with_reducible apply onHost_k
    | with_reducible apply noteSingle_k
    | with_reducible apply portsChanged_k
    | with_reducible apply capChanged_k
    | with_reducible rfl
    | split
    | with_reducible intro _
    | dsimp only

theorem execHostPortDown_k {s0 : State} (t port : Nat) (cause : PortCause) (s : State) (hK : Keeps s0 s) : KeepsO s0 (execHostPortDown t port cause s) := by
  unfold execHostPortDown
  repeat' first
    | with_reducible assumption
    | with_reducible apply keepsO_next
    | with_reducible apply atTime_k
    | with_reducible apply modHport_k
    | with_reducible apply declareDown_k
    | with_reducible apply noteSingle_k
    | with_reducible rfl
    | split
    | with_reducible intro _
    | dsimp only

theorem execHostPortUp_k {s0 : State} (t port gts lanes : Nat) (s : State) (hK : Keeps s0 s) : KeepsO s0 (execHostPortUp t port gts lanes s) := by
  unfold execHostPortUp
  repeat' first
    | with_reducible assumption
    | with_reducible apply keepsO_next
    | with_reducible apply atTime_k
    | with_reducible apply serveTier_k
    | with_reducible apply modHport_k
    | with_reducible apply noteSingle_k
    | with_reducible apply onHost_k
    | with_reducible apply portsChanged_k
    | with_reducible apply capChanged_k
    | with_reducible rfl
    | split
    | with_reducible intro _
    | dsimp only

theorem reissue_k {s0 : State} (s : State) (bad : Nat → Bool) (dest : Nat → Nat) (hK : Keeps s0 s) : Keeps s0 (State.reissue s bad dest) := by
  unfold State.reissue
  repeat' first
    | with_reducible assumption
    | with_reducible apply onReq_k
    | with_reducible apply onHost_k
    | with_reducible apply keeps_foldl
    | with_reducible apply keeps_foldl_fst
    | with_reducible apply issue_k
    | with_reducible rfl
    | split
    | with_reducible intro _
    | dsimp only

theorem reissueAll_k {s0 : State} (s : State) (hK : Keeps s0 s) : Keeps s0 (State.reissueAll s) := by
  unfold State.reissueAll
  repeat' first
    | with_reducible assumption
    | with_reducible apply reissue_k
    | with_reducible rfl
    | split
    | with_reducible intro _
    | dsimp only

theorem rebindPorts_k {s0 : State} (s : State) (hK : Keeps s0 s) : Keeps s0 (State.rebindPorts s) := by
  unfold State.rebindPorts
  repeat' first
    | with_reducible assumption
    | with_reducible apply onReq_k
    | with_reducible apply onHost_k
    | with_reducible apply reissue_k
    | with_reducible apply raiseLow_k
    | with_reducible rfl
    | split
    | with_reducible intro _
    | dsimp only

theorem flushRead_k {s0 : State} (s : State) (p : Nat) (hK : Keeps s0 s) : Keeps s0 (State.flushRead s p) := by
  unfold State.flushRead
  repeat' first
    | with_reducible assumption
    | with_reducible apply translate_k
    | with_reducible apply modHport_k
    | with_reducible rfl
    | split
    | with_reducible intro _
    | dsimp only

theorem execFlushReadComplete_k {s0 : State} (t port : Nat) (s : State) (hK : Keeps s0 s) : KeepsO s0 (execFlushReadComplete t port s) := by
  unfold execFlushReadComplete
  repeat' first
    | with_reducible assumption
    | with_reducible apply keepsO_next
    | with_reducible apply atTime_k
    | with_reducible apply modHport_k
    | with_reducible apply closeTransit_k
    | with_reducible apply onReq_k
    | with_reducible apply onHost_k
    | with_reducible rfl
    | split
    | with_reducible intro _
    | dsimp only

theorem trimLog_k {s0 : State} (s : State) (hK : Keeps s0 s) : Keeps s0 (State.trimLog s) := by
  unfold State.trimLog
  repeat' first
    | with_reducible assumption
    | with_reducible apply onReq_k
    | with_reducible rfl
    | split
    | with_reducible intro _
    | dsimp only

theorem failDescriptor_k {s0 : State} (s : State) (n : Nat) (complFail : Bool) (hK : Keeps s0 s) : Keeps s0 (State.failDescriptor s n complFail) := by
  unfold State.failDescriptor
  repeat' first
    | with_reducible assumption
    | with_reducible apply consume_k
    | with_reducible apply closeTransit_k
    | with_reducible apply stopRing_k
    | with_reducible apply hostWrite_k
    | with_reducible rfl
    | split
    | with_reducible intro _
    | dsimp only

theorem failRing_k {s0 : State} (s : State) (n : Nat) (hK : Keeps s0 s) : Keeps s0 (State.failRing s n) := by
  unfold State.failRing
  repeat' first
    | with_reducible assumption
    | with_reducible apply stopRing_k
    | with_reducible rfl
    | split
    | with_reducible intro _
    | dsimp only

theorem failStream_k {s0 : State} (s : State) (slot seq : Nat) (hK : Keeps s0 s) : Keeps s0 (State.failStream s slot seq) := by
  unfold State.failStream
  repeat' first
    | with_reducible assumption
    | with_reducible apply modReq_k
    | with_reducible apply onReq_k
    | with_reducible apply writeFinal_k
    | with_reducible apply closeSoon_k
    | with_reducible rfl
    | split
    | with_reducible intro _
    | dsimp only

theorem failTier2_k {s0 : State} (s : State) (h : Nat) (hK : Keeps s0 s) : Keeps s0 (State.failTier2 s h) := by
  unfold State.failTier2
  repeat' first
    | with_reducible assumption
    | with_reducible apply readFailed_k
    | with_reducible apply demotionFailed_k
    | with_reducible apply onFaults_k
    | with_reducible rfl
    | split
    | with_reducible intro _
    | dsimp only

theorem noteImageFail_k {s0 : State} (s : State) (target : Nat) (hK : Keeps s0 s) : Keeps s0 (State.noteImageFail s target) := by
  unfold State.noteImageFail
  repeat' first
    | with_reducible assumption
    | with_reducible apply failImage_k
    | with_reducible apply onFaults_k
    | with_reducible rfl
    | split
    | with_reducible intro _
    | dsimp only

theorem execHostDmaFail_k {s0 : State} (t : Nat) (kind : XferKind) (target : Nat) (seq : Nat) (s : State) (hK : Keeps s0 s) : KeepsO s0 (execHostDmaFail t kind target seq s) := by
  unfold execHostDmaFail
  repeat' first
    | with_reducible assumption
    | with_reducible apply keepsO_next
    | with_reducible apply atTime_k
    | with_reducible apply failDescriptor_k
    | with_reducible apply failRing_k
    | with_reducible apply closeSoon_k
    | with_reducible apply failStream_k
    | with_reducible apply failTier2_k
    | with_reducible apply noteImageFail_k
    | with_reducible rfl
    | split
    | with_reducible intro _
    | dsimp only

theorem execAtsInvalidation_k {s0 : State} (t port page : Nat) (s : State) (hK : Keeps s0 s) : KeepsO s0 (execAtsInvalidation t port page s) := by
  unfold execAtsInvalidation
  repeat' first
    | with_reducible assumption
    | with_reducible apply keepsO_next
    | with_reducible apply atTime_k
    | with_reducible apply modHport_k
    | with_reducible rfl
    | split
    | with_reducible intro _
    | dsimp only

theorem msixWrite_k {s0 : State} (s : State) (offset v : Nat) (hK : Keeps s0 s) : Keeps s0 (State.msixWrite s offset v) := by
  unfold State.msixWrite
  repeat' first
    | with_reducible assumption
    | with_reducible apply onHost_k
    | with_reducible apply raiseVector_k
    | with_reducible rfl
    | split
    | with_reducible intro _
    | dsimp only

theorem execMsixTableWrite_k {s0 : State} (offset : Nat) (value : BitVec 32) (s : State) (hK : Keeps s0 s) : KeepsO s0 (execMsixTableWrite offset value s) := by
  unfold execMsixTableWrite
  repeat' first
    | with_reducible assumption
    | with_reducible apply keepsO_next
    | with_reducible apply msixWrite_k
    | with_reducible rfl
    | split
    | with_reducible intro _
    | dsimp only

theorem nextOr_k {s0 : State} (s : State) (o : Host.Outcome State Fault Refusal) (hO : KeepsO s0 o) (hK : Keeps s0 s) :
    Keeps s0 (nextOr s o) := by
  unfold nextOr
  split
  · exact hO _ rfl
  · exact hK

theorem buPortRun_k {s0 : State} (cl : Nat) (w : U128) (rest : List U128) (s : State) (hK : Keeps s0 s) : Keeps s0 (buPortRun cl w rest s) := by
  unfold buPortRun
  repeat' first
    | with_reducible assumption
    | with_reducible apply nextOr_k
    | with_reducible apply execBuNop_k
    | with_reducible apply execQload_k
    | with_reducible apply execGload_k
    | with_reducible apply execTload_k
    | with_reducible apply execAclr_k
    | with_reducible apply execPass_k
    | with_reducible apply execDrain_k
    | with_reducible apply execCopy_k
    | with_reducible apply execGather_k
    | with_reducible apply execFill_k
    | with_reducible apply execTlogrd_k
    | with_reducible rfl
    | split
    | with_reducible intro _
    | dsimp only

theorem buPort_k {s0 : State} (s : State) (cl : Nat) (w : U128) (hK : Keeps s0 s) : Keeps s0 (State.buPort s cl w) := by
  unfold State.buPort
  repeat' first
    | with_reducible assumption
    | with_reducible apply modBcl_k
    | with_reducible apply buPortRun_k
    | with_reducible rfl
    | split
    | with_reducible intro _
    | dsimp only

theorem mxPort_k {s0 : State} (s : State) (cl : Nat) (w : U128) (hK : Keeps s0 s) : Keeps s0 (State.mxPort s cl w) := by
  unfold State.mxPort
  repeat' first
    | with_reducible assumption
    | with_reducible apply nextOr_k
    | with_reducible apply execMxNop_k
    | with_reducible apply execIload_k
    | with_reducible apply execGopen_k
    | with_reducible apply execMpass_k
    | with_reducible apply execGclose_k
    | with_reducible apply execGfree_k
    | with_reducible apply execApass_k
    | with_reducible apply execSpload_k
    | with_reducible apply execSpinv_k
    | with_reducible apply mxFault_k
    | with_reducible rfl
    | split
    | with_reducible intro _
    | dsimp only

theorem rwWrite_k {s0 : State} (s : State) (g : RwReg) (v : Nat) (hK : Keeps s0 s) : Keeps s0 (State.rwWrite s g v) := by
  unfold State.rwWrite
  repeat' first
    | with_reducible assumption
    | with_reducible apply onCfgNext_k
    | with_reducible rfl
    | split
    | with_reducible intro _
    | dsimp only

theorem w1c_k {s0 : State} (s : State) (off v : Nat) (hK : Keeps s0 s) : Keeps s0 (State.w1c s off v) := by
  unfold State.w1c
  repeat' first
    | with_reducible assumption
    | with_reducible apply onTick_k
    | with_reducible apply modBcl_k
    | with_reducible apply modMcl_k
    | with_reducible rfl
    | split
    | with_reducible intro _
    | dsimp only

theorem ctlDword_k {s0 : State} (s : State) (off v : Nat) (hK : Keeps s0 s) : Keeps s0 (State.ctlDword s off v) := by
  unfold State.ctlDword
  repeat' first
    | with_reducible assumption
    | with_reducible apply rwWrite_k
    | with_reducible apply onCfgNext_k
    | with_reducible apply pendLengths_k
    | with_reducible apply w1c_k
    | with_reducible rfl
    | split
    | with_reducible intro _
    | dsimp only

theorem setAcc_k {s0 : State} (s : State) (off : Nat) (v : BitVec 32) (hK : Keeps s0 s) : Keeps s0 (State.setAcc s off v) := by
  unfold State.setAcc
  repeat' first
    | with_reducible assumption
    | with_reducible apply modMcl_k
    | with_reducible rfl
    | split
    | with_reducible intro _
    | dsimp only

theorem ctlWrite_k {s0 : State} (s : State) (off : Nat) (bs : List Byte) (hK : Keeps s0 s) : Keeps s0 (State.ctlWrite s off bs) := by
  unfold State.ctlWrite
  repeat' first
    | with_reducible assumption
    | with_reducible apply buPort_k
    | with_reducible apply mxPort_k
    | with_reducible apply keeps_foldl
    | with_reducible apply keeps_foldl_fst
    | with_reducible apply setAcc_k
    | with_reducible apply ctlDword_k
    | with_reducible rfl
    | split
    | with_reducible intro _
    | dsimp only

theorem debugWrite_k {s0 : State} (s : State) (off : Nat) (bs : List Byte) (hK : Keeps s0 s) : Keeps s0 (State.debugWrite s off bs) := by
  unfold State.debugWrite
  repeat' first
    | with_reducible assumption
    | with_reducible apply onHost_k
    | with_reducible apply ctlWrite_k
    | with_reducible rfl
    | split
    | with_reducible intro _
    | dsimp only

theorem execDebugWindowAccess_k {s0 : State} (write : Bool) (offset : Nat) (bytes : List (BitVec 8)) (s : State) (hK : Keeps s0 s) : KeepsO s0 (execDebugWindowAccess write offset bytes s) := by
  unfold execDebugWindowAccess
  repeat' first
    | with_reducible assumption
    | with_reducible apply keepsO_next
    | with_reducible apply debugWrite_k
    | with_reducible apply answerWith_k
    | with_reducible rfl
    | split
    | with_reducible intro _
    | dsimp only

theorem clearDone_k {s0 : State} (s : State) (off : Nat) (bs : List Byte) (hK : Keeps s0 s) : Keeps s0 (State.clearDone s off bs) := by
  unfold State.clearDone
  repeat' first
    | with_reducible assumption
    | with_reducible apply onMb_k
    | with_reducible rfl
    | split
    | with_reducible intro _
    | dsimp only

theorem barWrite_k {s0 : State} (s : State) (off : Nat) (bs : List Byte) (hK : Keeps s0 s) : Keeps s0 (State.barWrite s off bs) := by
  unfold State.barWrite
  split
  · exact hK
  · split
    · refine hK.trans ⟨rfl, rfl, Nat.le_refl _, ?_⟩
      rintro ⟨⟨a, b⟩, d⟩
      refine ⟨⟨a, ?_⟩, d⟩
      simp only [State.onMb]
      exact wf_writeN _ _ b
    · repeat' first
        | with_reducible assumption
        | with_reducible apply clearDone_k
        | with_reducible apply keeps_foldl
        | with_reducible apply msixWrite_k
        | with_reducible apply debugWrite_k
        | split
        | with_reducible intro _
        | dsimp only

theorem windowWrite_k {s0 : State} (s : State) (off : Nat) (bs : List Byte) (hK : Keeps s0 s) : Keeps s0 (State.windowWrite s off bs) := by
  unfold State.windowWrite
  repeat' first
    | with_reducible assumption
    | with_reducible apply ctlWrite_k
    | with_reducible apply onHost_k
    | with_reducible rfl
    | split
    | with_reducible intro _
    | dsimp only

theorem execRegisterWrite_k {s0 : State} (t : Nat) (bar : Bool) (addr : Nat) (bytes : List (BitVec 8)) (s : State) (hK : Keeps s0 s) : KeepsO s0 (execRegisterWrite t bar addr bytes s) := by
  unfold execRegisterWrite
  repeat' first
    | with_reducible assumption
    | with_reducible apply keepsO_next
    | with_reducible apply atTime_k
    | with_reducible apply barWrite_k
    | with_reducible apply windowWrite_k
    | with_reducible rfl
    | split
    | with_reducible intro _
    | dsimp only

end Sys2Proof.Laws
end

