-- ==== Sys2Proof/Laws/KeepsFaults.lean ====
section
/-! SUPPORT. What the operations of Machine/Faults.lean keep (Laws/Keeps.lean). -/

set_option linter.unusedTactic false
set_option linter.unreachableTactic false
set_option linter.unusedVariables false

namespace Sys2Proof.Laws

open Sys2Proof Sys2Proof.Machine

theorem rewritePieces_wf (was now' : List (Nat × Nat × List Byte)) (m : Memory) (h : m.wf = true) : (rewritePieces was now' m).wf = true :=
  placePieces_wf _ _ h

theorem moveRun_k {s0 : State} (l : Lost) (b : Bool) (q : Moving) (x : Want × Nat × Nat) (hK : Keeps s0 q.st) :
    Keeps s0 (moveRun l b q x).st := by
  unfold moveRun
  split
  · split
    · dsimp only
      split
      · exact putBytes_k _ _ _ hK
      · exact hK
    · exact hK
  · exact hK

theorem moveRuns_k {s0 : State} (s : State) (l : Lost) (b : Bool) (xs : List (Want × Nat × Nat)) (hK : Keeps s0 s) :
    Keeps s0 (moveRuns s l b xs).st := by
  have h : ∀ q : Moving, Keeps s0 q.st → Keeps s0 (xs.foldl (moveRun l b) q).st := by
    induction xs with
    | nil => exact fun _ h => h
    | cons x r ih => exact fun q h => ih _ (moveRun_k _ _ _ _ h)
  exact h _ hK

theorem noteSentinel_k {s0 : State} (s : State) (hK : Keeps s0 s) : Keeps s0 (State.noteSentinel s) := by
  unfold State.noteSentinel
  repeat' first
    | with_reducible assumption
    | with_reducible apply onStart_k
    | with_reducible rfl
    | split
    | with_reducible intro _
    | dsimp only

theorem execI3cWrite_k {s0 : State} (index : Nat) (s : State) (hK : Keeps s0 s) : KeepsO s0 (execI3cWrite index s) := by
  unfold execI3cWrite
  repeat' first
    | with_reducible assumption
    | with_reducible apply keepsO_next
    | with_reducible apply onStart_k
    | with_reducible rfl
    | split
    | with_reducible intro _
    | dsimp only

theorem execI3cRead_k {s0 : State} (count : Nat) (s : State) (hK : Keeps s0 s) : KeepsO s0 (execI3cRead count s) := by
  unfold execI3cRead
  repeat' first
    | with_reducible assumption
    | with_reducible apply keepsO_next
    | with_reducible apply answerWith_k
    | with_reducible apply count_k
    | with_reducible rfl
    | split
    | with_reducible intro _
    | dsimp only

theorem discardAll_k {s0 : State} (s : State) (e : AttemptEnd) (hK : Keeps s0 s) : Keeps s0 (State.discardAll s e) := by
  unfold State.discardAll
  repeat' first
    | with_reducible assumption
    | with_reducible apply keeps_foldl
    | with_reducible apply keeps_foldl_fst
    | with_reducible apply endAttempt_k
    | with_reducible apply onPlan_k
    | with_reducible rfl
    | split
    | with_reducible intro _
    | dsimp only

theorem stopJob_k {s0 : State} (s : State) (m : Nat) (hK : Keeps s0 s) : Keeps s0 (State.stopJob s m) := by
  unfold State.stopJob
  repeat' first
    | with_reducible assumption
    | with_reducible apply kernelClear_k
    | with_reducible apply allBcl_k
    | with_reducible apply allMcl_k
    | with_reducible apply returnStore_k
    | with_reducible apply modJob_k
    | with_reducible rfl
    | split
    | with_reducible intro _
    | dsimp only

theorem stopKernels_k {s0 : State} (s : State) (hK : Keeps s0 s) : Keeps s0 (State.stopKernels s) := by
  unfold State.stopKernels
  repeat' first
    | with_reducible assumption
    | with_reducible apply keeps_foldl
    | with_reducible apply keeps_foldl_fst
    | with_reducible apply stopJob_k
    | with_reducible apply allMcl_k
    | with_reducible apply onPlan_k
    | with_reducible rfl
    | split
    | with_reducible intro _
    | dsimp only

theorem safeHalt_k {s0 : State} (s : State) (e : AttemptEnd) (hK : Keeps s0 s) : Keeps s0 (State.safeHalt s e) := by
  unfold State.safeHalt
  repeat' first
    | with_reducible assumption
    | with_reducible apply stopKernels_k
    | with_reducible apply discardAll_k
    | with_reducible apply onTick_k
    | with_reducible apply onReq_k
    | with_reducible apply flushVectors_k
    | with_reducible apply onStart_k
    | with_reducible apply noteSentinel_k
    | with_reducible rfl
    | split
    | with_reducible intro _
    | dsimp only

theorem degrade_k {s0 : State} (s : State) (hK : Keeps s0 s) : Keeps s0 (State.degrade s) := by
  unfold State.degrade
  repeat' first
    | with_reducible assumption
    | with_reducible apply onStart_k
    | with_reducible rfl
    | split
    | with_reducible intro _
    | dsimp only

theorem needService_k {s0 : State} (s : State) (arg : Nat) (hK : Keeps s0 s) : Keeps s0 (State.needService s arg) := by
  unfold State.needService
  repeat' first
    | with_reducible assumption
    | with_reducible apply onFaults_k
    | with_reducible apply postEvent_k
    | with_reducible rfl
    | split
    | with_reducible intro _
    | dsimp only

theorem markFailed_k {s0 : State} (s : State) (f : FaultUnit → FaultUnit) (hK : Keeps s0 s) : Keeps s0 (State.markFailed s f) := by
  unfold State.markFailed
  repeat' first
    | with_reducible assumption
    | with_reducible apply onFaults_k
    | with_reducible apply capChanged_k
    | with_reducible apply degrade_k
    | with_reducible rfl
    | split
    | with_reducible intro _
    | dsimp only

theorem moveGroup_k {s0 : State} (s : State) (l : Lost) (readable : Bool) (h : Nat) (hK : Keeps s0 s) : Keeps s0 (State.moveGroup s l readable h) := by
  unfold State.moveGroup
  repeat' first
    | with_reducible assumption
    | with_reducible apply draw_k
    | with_reducible apply modGroup_k
    | with_reducible apply onMem_k
    | with_reducible apply demotionFailed_k
    | with_reducible apply setRebuild_k
    | with_reducible apply moveRuns_k
    | with_reducible apply writeSidecars_wf
    | with_reducible apply wf_foldl
    | with_reducible apply wf_clear
    | with_reducible apply wf_writeN
    | with_reducible apply wf_write
    | with_reducible rfl
    | split
    | with_reducible intro _
    | dsimp only

theorem moveObjects_k {s0 : State} (s : State) (l : Lost) (readable : Bool) (slot : Nat) (hK : Keeps s0 s) : Keeps s0 (State.moveObjects s l readable slot) := by
  unfold State.moveObjects
  repeat' first
    | with_reducible assumption
    | with_reducible apply draw_k
    | with_reducible apply onMem_k
    | with_reducible apply modReq_k
    | with_reducible apply moveRuns_k
    | with_reducible apply writeProvs_wf
    | with_reducible apply wf_foldl
    | with_reducible apply wf_clear
    | with_reducible apply wf_writeN
    | with_reducible apply wf_write
    | with_reducible rfl
    | split
    | with_reducible intro _
    | dsimp only

theorem moveShard_k {s0 : State} (s : State) (l : Lost) (cl m : Nat) (hK : Keeps s0 s) : Keeps s0 (State.moveShard s l cl m) := by
  unfold State.moveShard
  repeat' first
    | with_reducible assumption
    | with_reducible apply draw_k
    | with_reducible apply onMem_k
    | with_reducible apply modMslot_k
    | with_reducible apply moveRuns_k
    | with_reducible apply rewritePieces_wf
    | with_reducible apply wf_foldl
    | with_reducible apply wf_clear
    | with_reducible apply wf_writeN
    | with_reducible apply wf_write
    | with_reducible rfl
    | split
    | with_reducible intro _
    | dsimp only

theorem moveAlloy_k {s0 : State} (l : Lost) (cl : Nat) (s : State) (g : AlloyGen) (hK : Keeps s0 s) : Keeps s0 (State.moveAlloy l cl s g) := by
  unfold State.moveAlloy
  repeat' first
    | with_reducible assumption
    | with_reducible apply draw_k
    | with_reducible apply onMem_k
    | with_reducible apply onModels_k
    | with_reducible apply moveRuns_k
    | with_reducible apply rewritePieces_wf
    | with_reducible apply wf_foldl
    | with_reducible apply wf_clear
    | with_reducible apply wf_writeN
    | with_reducible apply wf_write
    | with_reducible rfl
    | split
    | with_reducible intro _
    | dsimp only

theorem moveAlloys_k {s0 : State} (s : State) (l : Lost) (cl : Nat) (hK : Keeps s0 s) : Keeps s0 (State.moveAlloys s l cl) := by
  unfold State.moveAlloys
  repeat' first
    | with_reducible assumption
    | with_reducible apply keeps_foldl
    | with_reducible apply keeps_foldl_fst
    | with_reducible apply moveAlloy_k
    | with_reducible rfl
    | split
    | with_reducible intro _
    | dsimp only

theorem evacuate_k {s0 : State} (s : State) (p : Nat) (lost : List Nat) (map : List Nat) (hK : Keeps s0 s) : Keeps s0 (State.evacuate s p lost map) := by
  unfold State.evacuate
  repeat' first
    | with_reducible assumption
    | with_reducible apply keeps_foldl
    | with_reducible apply keeps_foldl_fst
    | with_reducible apply modReq_k
    | with_reducible apply moveObjects_k
    | with_reducible apply moveGroup_k
    | with_reducible rfl
    | split
    | with_reducible intro _
    | dsimp only

theorem ladder_k {s0 : State} (s : State) (p : Nat) (hK : Keeps s0 s) : Keeps s0 (State.ladder s p) := by
  unfold State.ladder
  repeat' first
    | with_reducible assumption
    | with_reducible apply needService_k
    | with_reducible apply safeHalt_k
    | with_reducible apply degrade_k
    | with_reducible apply onFaults_k
    | with_reducible apply postEvent_k
    | with_reducible rfl
    | split
    | with_reducible intro _
    | dsimp only

theorem loseObject_k {s0 : State} (s : State) (kind : UncorrKind) (slot : Nat) (bothLost : Bool) (hK : Keeps s0 s) : Keeps s0 (State.loseObject s kind slot bothLost) := by
  unfold State.loseObject
  repeat' first
    | with_reducible assumption
    | with_reducible apply onReq_k
    | with_reducible apply onPlan_k
    | with_reducible apply closeSoon_k
    | with_reducible apply modReq_k
    | with_reducible rfl
    | split
    | with_reducible intro _
    | dsimp only

theorem losePage_k {s0 : State} (s : State) (h : Nat) (hK : Keeps s0 s) : Keeps s0 (State.losePage s h) := by
  unfold State.losePage
  repeat' first
    | with_reducible assumption
    | with_reducible apply demotionFailed_k
    | with_reducible apply setRebuild_k
    | with_reducible rfl
    | split
    | with_reducible intro _
    | dsimp only

theorem leaveBank_k {s0 : State} (s : State) (stack bank : Nat) (hK : Keeps s0 s) : Keeps s0 (State.leaveBank s stack bank) := by
  unfold State.leaveBank
  repeat' first
    | with_reducible assumption
    | with_reducible apply onTier_k
    | with_reducible apply keeps_foldl
    | with_reducible apply keeps_foldl_fst
    | with_reducible apply moveObjects_k
    | with_reducible apply moveGroup_k
    | with_reducible apply moveShard_k
    | with_reducible apply moveAlloys_k
    | with_reducible rfl
    | split
    | with_reducible intro _
    | dsimp only

theorem applyLoss_k {s0 : State} (s : State) (l : LossDue) (hK : Keeps s0 s) : Keeps s0 (State.applyLoss s l) := by
  unfold State.applyLoss
  repeat' first
    | with_reducible assumption
    | with_reducible apply onReq_k
    | with_reducible apply onTier_k
    | with_reducible apply evacuate_k
    | with_reducible apply leaveBank_k
    | with_reducible apply losePage_k
    | with_reducible apply failTier2_k
    | with_reducible apply failImage_k
    | with_reducible apply loseObject_k
    | with_reducible rfl
    | split
    | with_reducible intro _
    | dsimp only

theorem noteLoss_k {s0 : State} (s : State) (l : LossDue) (hK : Keeps s0 s) : Keeps s0 (State.noteLoss s l) := by
  unfold State.noteLoss
  repeat' first
    | with_reducible assumption
    | with_reducible apply applyLoss_k
    | with_reducible apply onFaults_k
    | with_reducible rfl
    | split
    | with_reducible intro _
    | dsimp only

theorem applyLosses_k {s0 : State} (s : State) (hK : Keeps s0 s) : Keeps s0 (State.applyLosses s) := by
  unfold State.applyLosses
  repeat' first
    | with_reducible assumption
    | with_reducible apply keeps_foldl
    | with_reducible apply keeps_foldl_fst
    | with_reducible apply applyLoss_k
    | with_reducible apply onFaults_k
    | with_reducible rfl
    | split
    | with_reducible intro _
    | dsimp only

theorem failPair_k {s0 : State} (s : State) (p : Nat) (hK : Keeps s0 s) : Keeps s0 (State.failPair s p) := by
  unfold State.failPair
  repeat' first
    | with_reducible assumption
    | with_reducible apply onFaults_k
    | with_reducible apply capChanged_k
    | with_reducible apply safeHalt_k
    | with_reducible apply stopKernels_k
    | with_reducible apply discardAll_k
    | with_reducible apply onBanks_k
    | with_reducible apply onMatrix_k
    | with_reducible apply keeps_foldl
    | with_reducible apply keeps_foldl_fst
    | with_reducible apply noteLoss_k
    | with_reducible apply ladder_k
    | with_reducible rfl
    | split
    | with_reducible intro _
    | dsimp only

theorem execClusterPairFailed_k {s0 : State} (t pair : Nat) (s : State) (hK : Keeps s0 s) : KeepsO s0 (execClusterPairFailed t pair s) := by
  unfold execClusterPairFailed
  repeat' first
    | with_reducible assumption
    | with_reducible apply keepsO_next
    | with_reducible apply atTime_k
    | with_reducible apply failPair_k
    | with_reducible rfl
    | split
    | with_reducible intro _
    | dsimp only

theorem execClmapSwitch_k {s0 : State} (s : State) (hK : Keeps s0 s) : KeepsO s0 (execClmapSwitch s) := by
  unfold execClmapSwitch
  repeat' first
    | with_reducible assumption
    | with_reducible apply keepsO_next
    | with_reducible apply keeps_foldl
    | with_reducible apply keeps_foldl_fst
    | with_reducible apply moveShard_k
    | with_reducible apply moveAlloys_k
    | with_reducible apply onFaults_k
    | with_reducible rfl
    | split
    | with_reducible intro _
    | dsimp only

theorem linkDieFails_k {s0 : State} (s : State) (n : Nat) (hK : Keeps s0 s) : Keeps s0 (State.linkDieFails s n) := by
  unfold State.linkDieFails
  repeat' first
    | with_reducible assumption
    | with_reducible apply markFailed_k
    | with_reducible apply keeps_foldl
    | with_reducible apply keeps_foldl_fst
    | with_reducible apply portFalls_k
    | with_reducible rfl
    | split
    | with_reducible intro _
    | dsimp only

theorem hostDieFails_k {s0 : State} (s : State) (n : Nat) (hK : Keeps s0 s) : Keeps s0 (State.hostDieFails s n) := by
  unfold State.hostDieFails
  repeat' first
    | with_reducible assumption
    | with_reducible apply markFailed_k
    | with_reducible apply declareDown_k
    | with_reducible rfl
    | split
    | with_reducible intro _
    | dsimp only

theorem controlDieFails_k {s0 : State} (s : State) (n : Nat) (hK : Keeps s0 s) : Keeps s0 (State.controlDieFails s n) := by
  unfold State.controlDieFails
  repeat' first
    | with_reducible assumption
    | with_reducible apply markFailed_k
    | with_reducible apply onFaults_k
    | with_reducible rfl
    | split
    | with_reducible intro _
    | dsimp only

theorem servingDieFails_k {s0 : State} (s : State) (n : Nat) (hK : Keeps s0 s) : Keeps s0 (State.servingDieFails s n) := by
  unfold State.servingDieFails
  repeat' first
    | with_reducible assumption
    | with_reducible apply markFailed_k
    | with_reducible apply onFaults_k
    | with_reducible apply discardAll_k
    | with_reducible apply onPlan_k
    | with_reducible apply reissueAll_k
    | with_reducible apply safeHalt_k
    | with_reducible rfl
    | split
    | with_reducible intro _
    | dsimp only

theorem dieFails_k {s0 : State} (s : State) (code : Nat) (hK : Keeps s0 s) : Keeps s0 (State.dieFails s code) := by
  unfold State.dieFails
  repeat' first
    | with_reducible assumption
    | with_reducible apply failPair_k
    | with_reducible apply linkDieFails_k
    | with_reducible apply controlDieFails_k
    | with_reducible apply servingDieFails_k
    | with_reducible apply hostDieFails_k
    | with_reducible rfl
    | split
    | with_reducible intro _
    | dsimp only

theorem loseSems_k {s0 : State} (s : State) (hK : Keeps s0 s) : Keeps s0 (State.loseSems s) := by
  unfold State.loseSems
  repeat' first
    | with_reducible assumption
    | with_reducible apply keeps_foldl
    | with_reducible apply keeps_foldl_fst
    | with_reducible apply endAttempt_k
    | with_reducible apply stopJob_k
    | with_reducible apply onStore_k
    | with_reducible rfl
    | split
    | with_reducible intro _
    | dsimp only

theorem execHubDieFailed_k {s0 : State} (t die : Nat) (s : State) (hK : Keeps s0 s) : KeepsO s0 (execHubDieFailed t die s) := by
  unfold execHubDieFailed
  repeat' first
    | with_reducible assumption
    | with_reducible apply keepsO_next
    | with_reducible apply atTime_k
    | with_reducible apply onStore_k
    | with_reducible apply markFailed_k
    | with_reducible apply loseSems_k
    | with_reducible apply needService_k
    | with_reducible apply safeHalt_k
    | with_reducible apply onPlan_k
    | with_reducible apply keeps_foldl
    | with_reducible apply keeps_foldl_fst
    | with_reducible apply dieFails_k
    | with_reducible rfl
    | split
    | with_reducible intro _
    | dsimp only

theorem regrantShip_k {s0 : State} (s : State) (h : Nat) (hK : Keeps s0 s) : Keeps s0 (State.regrantShip s h) := by
  unfold State.regrantShip
  repeat' first
    | with_reducible assumption
    | with_reducible apply setShip_k
    | with_reducible apply sendGrant_k
    | with_reducible rfl
    | split
    | with_reducible intro _
    | dsimp only

theorem execStorePoisonedRead_k {s0 : State} (cls : StoreClass) (addr holder : Nat) (s : State) (hK : Keeps s0 s) : KeepsO s0 (execStorePoisonedRead cls addr holder s) := by
  unfold execStorePoisonedRead
  repeat' first
    | with_reducible assumption
    | with_reducible apply keepsO_next
    | with_reducible apply answerWith_k
    | with_reducible apply readStore_k
    | with_reducible apply poisonJob_k
    | with_reducible apply regrantShip_k
    | with_reducible apply reissueAll_k
    | with_reducible apply failTier2_k
    | with_reducible apply controlDieFails_k
    | with_reducible apply onStore_k
    | with_reducible apply onTier_k
    | with_reducible rfl
    | split
    | with_reducible intro _
    | dsimp only

theorem execUncorrectableData_k {s0 : State} (t : Nat) (kind : UncorrKind) (addr target : Nat) (bothLost : Bool) (readers : List Nat) (s : State) (hK : Keeps s0 s) : KeepsO s0 (execUncorrectableData t kind addr target bothLost readers s) := by
  unfold execUncorrectableData
  repeat' first
    | with_reducible assumption
    | with_reducible apply keepsO_next
    | with_reducible apply atTime_k
    | with_reducible apply onFaults_k
    | with_reducible apply countStack_k
    | with_reducible apply onPlan_k
    | with_reducible apply notePoison_k
    | with_reducible apply controlDieFails_k
    | with_reducible apply noteLoss_k
    | with_reducible rfl
    | split
    | with_reducible intro _
    | dsimp only

theorem noteSpares_k {s0 : State} (s : State) (n : Nat) (hK : Keeps s0 s) : Keeps s0 (State.noteSpares s n) := by
  unfold State.noteSpares
  repeat' first
    | with_reducible assumption
    | with_reducible apply onFaults_k
    | with_reducible rfl
    | split
    | with_reducible intro _
    | dsimp only

theorem useSpareRow_k {s0 : State} (s : State) (stack bank row : Nat) (hK : Keeps s0 s) : Keeps s0 (State.useSpareRow s stack bank row) := by
  unfold State.useSpareRow
  repeat' first
    | with_reducible assumption
    | with_reducible apply onFaults_k
    | with_reducible rfl
    | split
    | with_reducible intro _
    | dsimp only

theorem execIngotRepairDone_k {s0 : State} (slot cl granule : Nat) (ok : Bool) (bytes : List (BitVec 8)) (s : State) (hK : Keeps s0 s) : KeepsO s0 (execIngotRepairDone slot cl granule ok bytes s) := by
  unfold execIngotRepairDone
  repeat' first
    | with_reducible assumption
    | with_reducible apply keepsO_next
    | with_reducible apply useSpareRow_k
    | with_reducible apply putBytes_k
    | with_reducible apply modMslot_k
    | with_reducible apply onPlan_k
    | with_reducible apply postEvent_k
    | with_reducible rfl
    | split
    | with_reducible intro _
    | dsimp only

theorem execBrokenSlotTimeout_k {s0 : State} (slot : Nat) (s : State) (hK : Keeps s0 s) : KeepsO s0 (execBrokenSlotTimeout slot s) := by
  unfold execBrokenSlotTimeout
  repeat' first
    | with_reducible assumption
    | with_reducible apply keepsO_next
    | with_reducible apply keeps_foldl
    | with_reducible apply keeps_foldl_fst
    | with_reducible apply closeSoon_k
    | with_reducible rfl
    | split
    | with_reducible intro _
    | dsimp only

theorem settleRebuild_k {s0 : State} (s : State) (h : Nat) (hK : Keeps s0 s) : Keeps s0 (State.settleRebuild s h) := by
  unfold State.settleRebuild
  repeat' first
    | with_reducible assumption
    | with_reducible apply endAttempt_k
    | with_reducible apply keeps_foldl
    | with_reducible apply keeps_foldl_fst
    | with_reducible apply countStack_k
    | with_reducible apply modGroup_k
    | with_reducible apply promoted_k
    | with_reducible apply unindex_k
    | with_reducible apply recheck_k
    | with_reducible rfl
    | split
    | with_reducible intro _
    | dsimp only

theorem execRebuildCommit_k {s0 : State} (handle : Nat) (s : State) (hK : Keeps s0 s) : KeepsO s0 (execRebuildCommit handle s) := by
  unfold execRebuildCommit
  repeat' first
    | with_reducible assumption
    | with_reducible apply keepsO_next
    | with_reducible apply settleRebuild_k
    | with_reducible rfl
    | split
    | with_reducible intro _
    | dsimp only

theorem sparing_k {s0 : State} (s : State) (ok : Bool) (f : State → State) (hFf : ∀ t, Keeps s0 t → Keeps s0 (f t)) (hK : Keeps s0 s) : Keeps s0 (State.sparing s ok f) := by
  unfold State.sparing
  repeat' first
    | with_reducible assumption
    | with_reducible apply hFf
    | with_reducible apply safeHalt_k
    | with_reducible rfl
    | split
    | with_reducible intro _
    | dsimp only

theorem execSpareRowSwap_k {s0 : State} (stack bank row : Nat) (s : State) (hK : Keeps s0 s) : KeepsO s0 (execSpareRowSwap stack bank row s) := by
  unfold execSpareRowSwap
  repeat' first
    | with_reducible assumption
    | with_reducible apply keepsO_next
    | with_reducible apply sparing_k
    | with_reducible apply useSpareRow_k
    | with_reducible rfl
    | split
    | with_reducible intro _
    | dsimp only

theorem execSpareColumnSwap_k {s0 : State} (stack bank column : Nat) (s : State) (hK : Keeps s0 s) : KeepsO s0 (execSpareColumnSwap stack bank column s) := by
  unfold execSpareColumnSwap
  repeat' first
    | with_reducible assumption
    | with_reducible apply keepsO_next
    | with_reducible apply sparing_k
    | with_reducible apply onFaults_k
    | with_reducible rfl
    | split
    | with_reducible intro _
    | dsimp only

theorem execSpareBankCopyDone_k {s0 : State} (stack bank spare : Nat) (s : State) (hK : Keeps s0 s) : KeepsO s0 (execSpareBankCopyDone stack bank spare s) := by
  unfold execSpareBankCopyDone
  repeat' first
    | with_reducible assumption
    | with_reducible apply keepsO_next
    | with_reducible apply sparing_k
    | with_reducible apply onFaults_k
    | with_reducible rfl
    | split
    | with_reducible intro _
    | dsimp only

theorem switchBanks_k {s0 : State} (s : State) (hK : Keeps s0 s) : Keeps s0 (State.switchBanks s) := by
  unfold State.switchBanks
  repeat' first
    | with_reducible assumption
    | with_reducible apply keeps_foldl
    | with_reducible apply keeps_foldl_fst
    | with_reducible apply modBcl_k
    | with_reducible apply onFaults_k
    | with_reducible apply noteSpares_k
    | with_reducible rfl
    | split
    | with_reducible intro _
    | dsimp only

theorem execTsvSpareSwitch_k {s0 : State} (stack lane : Nat) (s : State) (hK : Keeps s0 s) : KeepsO s0 (execTsvSpareSwitch stack lane s) := by
  unfold execTsvSpareSwitch
  repeat' first
    | with_reducible assumption
    | with_reducible apply keepsO_next
    | with_reducible apply sparing_k
    | with_reducible apply onFaults_k
    | with_reducible apply noteSpares_k
    | with_reducible apply failPair_k
    | with_reducible rfl
    | split
    | with_reducible intro _
    | dsimp only

theorem retireBank_k {s0 : State} (s : State) (stack bank : Nat) (hK : Keeps s0 s) : Keeps s0 (State.retireBank s stack bank) := by
  unfold State.retireBank
  repeat' first
    | with_reducible assumption
    | with_reducible apply onFaults_k
    | with_reducible apply countStack_k
    | with_reducible apply noteLoss_k
    | with_reducible apply capChanged_k
    | with_reducible rfl
    | split
    | with_reducible intro _
    | dsimp only

theorem execBankRetire_k {s0 : State} (t stack bank : Nat) (s : State) (hK : Keeps s0 s) : KeepsO s0 (execBankRetire t stack bank s) := by
  unfold execBankRetire
  repeat' first
    | with_reducible assumption
    | with_reducible apply keepsO_next
    | with_reducible apply atTime_k
    | with_reducible apply sparing_k
    | with_reducible apply failPair_k
    | with_reducible apply retireBank_k
    | with_reducible rfl
    | split
    | with_reducible intro _
    | dsimp only

theorem execControlHeartbeatTimeout_k {s0 : State} (t : Nat) (s : State) (hK : Keeps s0 s) : KeepsO s0 (execControlHeartbeatTimeout t s) := by
  unfold execControlHeartbeatTimeout
  repeat' first
    | with_reducible assumption
    | with_reducible apply keepsO_next
    | with_reducible apply atTime_k
    | with_reducible apply controlDieFails_k
    | with_reducible rfl
    | split
    | with_reducible intro _
    | dsimp only

theorem execServingHeartbeatTimeout_k {s0 : State} (t : Nat) (s : State) (hK : Keeps s0 s) : KeepsO s0 (execServingHeartbeatTimeout t s) := by
  unfold execServingHeartbeatTimeout
  repeat' first
    | with_reducible assumption
    | with_reducible apply keepsO_next
    | with_reducible apply atTime_k
    | with_reducible apply servingDieFails_k
    | with_reducible rfl
    | split
    | with_reducible intro _
    | dsimp only

theorem endActivation_k {s0 : State} (s : State) (hK : Keeps s0 s) : Keeps s0 (State.endActivation s) := by
  unfold State.endActivation
  repeat' first
    | with_reducible assumption
    | with_reducible apply onMb_k
    | with_reducible apply complete_k
    | with_reducible apply postEvent_k
    | with_reducible rfl
    | split
    | with_reducible intro _
    | dsimp only

theorem execControlTakeover_k {s0 : State} (s : State) (hK : Keeps s0 s) : KeepsO s0 (execControlTakeover s) := by
  unfold execControlTakeover
  repeat' first
    | with_reducible assumption
    | with_reducible apply keepsO_next
    | with_reducible apply onFaults_k
    | with_reducible apply takeLatched_k
    | with_reducible apply reissueAll_k
    | with_reducible apply postEvent_k
    | with_reducible apply endActivation_k
    | with_reducible apply portsChanged_k
    | with_reducible apply noteSentinel_k
    | with_reducible rfl
    | split
    | with_reducible intro _
    | dsimp only

theorem execOrphanEnter_k {s0 : State} (s : State) (hK : Keeps s0 s) : KeepsO s0 (execOrphanEnter s) := by
  unfold execOrphanEnter
  repeat' first
    | with_reducible assumption
    | with_reducible apply keepsO_next
    | with_reducible apply onFaults_k
    | with_reducible apply postEvent_k
    | with_reducible apply portsChanged_k
    | with_reducible apply noteSentinel_k
    | with_reducible rfl
    | split
    | with_reducible intro _
    | dsimp only

theorem execDieRebootedHealthy_k {s0 : State} (t code : Nat) (s : State) (hK : Keeps s0 s) : KeepsO s0 (execDieRebootedHealthy t code s) := by
  unfold execDieRebootedHealthy
  repeat' first
    | with_reducible assumption
    | with_reducible apply keepsO_next
    | with_reducible apply atTime_k
    | with_reducible apply onFaults_k
    | with_reducible apply capChanged_k
    | with_reducible rfl
    | split
    | with_reducible intro _
    | dsimp only

theorem execLeaseRenew_k {s0 : State} (t : Nat) (s : State) (hK : Keeps s0 s) : KeepsO s0 (execLeaseRenew t s) := by
  unfold execLeaseRenew
  repeat' first
    | with_reducible assumption
    | with_reducible apply keepsO_next
    | with_reducible apply atTime_k
    | with_reducible apply onFaults_k
    | with_reducible rfl
    | split
    | with_reducible intro _
    | dsimp only

theorem execLeaseExpiry_k {s0 : State} (t : Nat) (s : State) (hK : Keeps s0 s) : KeepsO s0 (execLeaseExpiry t s) := by
  unfold execLeaseExpiry
  repeat' first
    | with_reducible assumption
    | with_reducible apply keepsO_next
    | with_reducible apply atTime_k
    | with_reducible apply onFaults_k
    | with_reducible rfl
    | split
    | with_reducible intro _
    | dsimp only

theorem execLeaseReclaim_k {s0 : State} (t : Nat) (s : State) (hK : Keeps s0 s) : KeepsO s0 (execLeaseReclaim t s) := by
  unfold execLeaseReclaim
  repeat' first
    | with_reducible assumption
    | with_reducible apply keepsO_next
    | with_reducible apply atTime_k
    | with_reducible apply onFaults_k
    | with_reducible rfl
    | split
    | with_reducible intro _
    | dsimp only

end Sys2Proof.Laws
end

