-- ==== Sys2Proof/Laws/KeepsFirmware.lean ====
section
/-! SUPPORT. What the operations of Machine/Firmware.lean keep (Laws/Keeps.lean). -/

set_option linter.unusedTactic false
set_option linter.unreachableTactic false
set_option linter.unusedVariables false

namespace Sys2Proof.Laws

open Sys2Proof Sys2Proof.Machine

theorem enterReady_k {s0 : State} (s : State) (hK : Keeps s0 s) : Keeps s0 (State.enterReady s) := by
  unfold State.enterReady
  repeat' first
    | with_reducible assumption
    | with_reducible apply onStart_k
    | with_reducible apply onPlan_k
    | with_reducible rfl
    | split
    | with_reducible intro _
    | dsimp only

theorem serve_k {s0 : State} (s : State) (hK : Keeps s0 s) : Keeps s0 (State.serve s) := by
  unfold State.serve
  repeat' first
    | with_reducible assumption
    | with_reducible apply onStart_k
    | with_reducible apply onTick_k
    | with_reducible rfl
    | split
    | with_reducible intro _
    | dsimp only

theorem deviceTo_k {s0 : State} (s : State) (target : Nat) (hK : Keeps s0 s) : KeepsE id s0 (deviceTo s target) := by
  unfold deviceTo
  repeat' first
    | with_reducible assumption
    | with_reducible apply enterReady_k
    | with_reducible apply onStart_k
    | with_reducible apply serve_k
    | with_reducible apply keepsE_need
    | with_reducible apply keepsE_bindS
    | with_reducible apply keepsE_bind
    | with_reducible apply keepsE_okS
    | with_reducible apply keepsE_ok
    | with_reducible apply keepsE_error
    | with_reducible rfl
    | split
    | with_reducible intro _
    | dsimp only

theorem execDeviceState_k {s0 : State} (mb : Nat) (s : State) (hK : Keeps s0 s) : KeepsO s0 (execDeviceState mb s) := by
  unfold execDeviceState
  repeat' first
    | with_reducible assumption
    | with_reducible apply keepsO_next
    | with_reducible apply runL_k
    | with_reducible apply deviceTo_k
    | with_reducible apply complete_k
    | with_reducible apply keepsE_need
    | with_reducible apply keepsE_bindS
    | with_reducible apply keepsE_bind
    | with_reducible apply keepsE_okS
    | with_reducible apply keepsE_ok
    | with_reducible apply keepsE_error
    | with_reducible rfl
    | split
    | with_reducible intro _
    | dsimp only

theorem execWarmReset_k {s0 : State} (mb : Nat) (s : State) (hK : Keeps s0 s) : KeepsO s0 (execWarmReset mb s) := by
  unfold execWarmReset
  repeat' first
    | with_reducible assumption
    | with_reducible apply keepsO_next
    | with_reducible apply runL_k
    | with_reducible apply onStart_k
    | with_reducible apply setCmd_k
    | with_reducible apply keepsE_need
    | with_reducible apply keepsE_bindS
    | with_reducible apply keepsE_bind
    | with_reducible apply keepsE_okS
    | with_reducible apply keepsE_ok
    | with_reducible apply keepsE_error
    | with_reducible rfl
    | split
    | with_reducible intro _
    | dsimp only

theorem setOther_k {s0 : State} (s : State) (i : FwImage) (hK : Keeps s0 s) : Keeps s0 (State.setOther s i) := by
  unfold State.setOther
  repeat' first
    | with_reducible assumption
    | with_reducible apply onMb_k
    | with_reducible rfl
    | split
    | with_reducible intro _
    | dsimp only

theorem undo_k {s0 : State} (s : State) (c : MbCommand) (hK : Keeps s0 s) : Keeps s0 (State.undo s c) := by
  unfold State.undo
  repeat' first
    | with_reducible assumption
    | with_reducible apply complete_k
    | with_reducible apply failLoad_k
    | with_reducible apply onModels_k
    | with_reducible apply freeGen_k
    | with_reducible apply setOther_k
    | with_reducible apply onMb_k
    | with_reducible apply capChanged_k
    | with_reducible rfl
    | split
    | with_reducible intro _
    | dsimp only

theorem execAbort_k {s0 : State} (mb : Nat) (s : State) (hK : Keeps s0 s) : KeepsO s0 (execAbort mb s) := by
  unfold execAbort
  repeat' first
    | with_reducible assumption
    | with_reducible apply keepsO_next
    | with_reducible apply runT_k
    | with_reducible apply undo_k
    | with_reducible apply keepsE_need
    | with_reducible apply keepsE_bindS
    | with_reducible apply keepsE_bind
    | with_reducible apply keepsE_okS
    | with_reducible apply keepsE_ok
    | with_reducible apply keepsE_error
    | with_reducible rfl
    | split
    | with_reducible intro _
    | dsimp only

theorem execCalRead_k {s0 : State} (mb : Nat) (ok : Bool) (s : State) (hK : Keeps s0 s) : KeepsO s0 (execCalRead mb ok s) := by
  unfold execCalRead
  repeat' first
    | with_reducible assumption
    | with_reducible apply keepsO_next
    | with_reducible apply runI_k
    | with_reducible apply bufferWrite_k
    | with_reducible apply keepsE_need
    | with_reducible apply keepsE_bindS
    | with_reducible apply keepsE_bind
    | with_reducible apply keepsE_okS
    | with_reducible apply keepsE_ok
    | with_reducible apply keepsE_error
    | with_reducible rfl
    | split
    | with_reducible intro _
    | dsimp only

theorem execCalWrite_k {s0 : State} (mb : Nat) (buffer : Option (List (BitVec 8))) (s : State) (hK : Keeps s0 s) : KeepsO s0 (execCalWrite mb buffer s) := by
  unfold execCalWrite
  repeat' first
    | with_reducible assumption
    | with_reducible apply keepsO_next
    | with_reducible apply runL_k
    | with_reducible apply hostRead_k
    | with_reducible apply onMb_k
    | with_reducible apply setCmd_k
    | with_reducible apply keepsE_need
    | with_reducible apply keepsE_bindS
    | with_reducible apply keepsE_bind
    | with_reducible apply keepsE_okS
    | with_reducible apply keepsE_ok
    | with_reducible apply keepsE_error
    | with_reducible rfl
    | split
    | with_reducible intro _
    | dsimp only

theorem execCalRecordSwitched_k {s0 : State} (s : State) (hK : Keeps s0 s) : KeepsO s0 (execCalRecordSwitched s) := by
  unfold execCalRecordSwitched
  repeat' first
    | with_reducible assumption
    | with_reducible apply keepsO_next
    | with_reducible apply onStart_k
    | with_reducible apply onMb_k
    | with_reducible apply complete_k
    | with_reducible rfl
    | split
    | with_reducible intro _
    | dsimp only

theorem execFwStage_k {s0 : State} (mb : Nat) (r : FwRead) (s : State) (hK : Keeps s0 s) : KeepsO s0 (execFwStage mb r s) := by
  unfold execFwStage
  repeat' first
    | with_reducible assumption
    | with_reducible apply keepsO_next
    | with_reducible apply runL_k
    | with_reducible apply hostRead_k
    | with_reducible apply onMb_k
    | with_reducible apply setCmd_k
    | with_reducible apply keepsE_need
    | with_reducible apply keepsE_bindS
    | with_reducible apply keepsE_bind
    | with_reducible apply keepsE_okS
    | with_reducible apply keepsE_ok
    | with_reducible apply keepsE_error
    | with_reducible rfl
    | split
    | with_reducible intro _
    | dsimp only

theorem execFwStageVerified_k {s0 : State} (intact flashOk : Bool) (s : State) (hK : Keeps s0 s) : KeepsO s0 (execFwStageVerified intact flashOk s) := by
  unfold execFwStageVerified
  repeat' first
    | with_reducible assumption
    | with_reducible apply keepsO_next
    | with_reducible apply setOther_k
    | with_reducible apply onMb_k
    | with_reducible apply capChanged_k
    | with_reducible apply complete_k
    | with_reducible rfl
    | split
    | with_reducible intro _
    | dsimp only

theorem measureBoot_k {s0 : State} (s : State) (l : List (Nat × BitVec 384)) (hK : Keeps s0 s) : Keeps s0 (State.measureBoot s l) := by
  unfold State.measureBoot
  repeat' first
    | with_reducible assumption
    | with_reducible apply keeps_foldl
    | with_reducible apply keeps_foldl_fst
    | with_reducible apply onStart_k
    | with_reducible rfl
    | split
    | with_reducible intro _
    | dsimp only

theorem moveBoot_k {s0 : State} (s : State) (fuse : Bool) (hK : Keeps s0 s) : Keeps s0 (State.moveBoot s fuse) := by
  unfold State.moveBoot
  repeat' first
    | with_reducible assumption
    | with_reducible apply onMb_k
    | with_reducible apply onStart_k
    | with_reducible apply capChanged_k
    | with_reducible rfl
    | split
    | with_reducible intro _
    | dsimp only

theorem execFwActivateNextReset_k {s0 : State} (mb : Nat) (s : State) (hK : Keeps s0 s) : KeepsO s0 (execFwActivateNextReset mb s) := by
  unfold execFwActivateNextReset
  repeat' first
    | with_reducible assumption
    | with_reducible apply keepsO_next
    | with_reducible apply runL_k
    | with_reducible apply moveBoot_k
    | with_reducible apply complete_k
    | with_reducible apply keepsE_need
    | with_reducible apply keepsE_bindS
    | with_reducible apply keepsE_bind
    | with_reducible apply keepsE_okS
    | with_reducible apply keepsE_ok
    | with_reducible apply keepsE_error
    | with_reducible rfl
    | split
    | with_reducible intro _
    | dsimp only

theorem execFwActivateLive_k {s0 : State} (mb : Nat) (s : State) (hK : Keeps s0 s) : KeepsO s0 (execFwActivateLive mb s) := by
  unfold execFwActivateLive
  repeat' first
    | with_reducible assumption
    | with_reducible apply keepsO_next
    | with_reducible apply runL_k
    | with_reducible apply onMb_k
    | with_reducible apply onFaults_k
    | with_reducible apply setCmd_k
    | with_reducible apply keepsE_need
    | with_reducible apply keepsE_bindS
    | with_reducible apply keepsE_bind
    | with_reducible apply keepsE_okS
    | with_reducible apply keepsE_ok
    | with_reducible apply keepsE_error
    | with_reducible rfl
    | split
    | with_reducible intro _
    | dsimp only

theorem runsImage_k {s0 : State} (s : State) (n : Nat) (b : Bool) (hK : Keeps s0 s) : Keeps s0 (State.runsImage s n b) := by
  unfold State.runsImage
  repeat' first
    | with_reducible assumption
    | with_reducible apply onMb_k
    | with_reducible rfl
    | split
    | with_reducible intro _
    | dsimp only

theorem execStandbyCaughtUp_k {s0 : State} (t : Nat) (ok : Bool) (s : State) (hK : Keeps s0 s) : KeepsO s0 (execStandbyCaughtUp t ok s) := by
  unfold execStandbyCaughtUp
  repeat' first
    | with_reducible assumption
    | with_reducible apply keepsO_next
    | with_reducible apply atTime_k
    | with_reducible apply onFaults_k
    | with_reducible apply runsImage_k
    | with_reducible apply onMb_k
    | with_reducible apply endActivation_k
    | with_reducible rfl
    | split
    | with_reducible intro _
    | dsimp only

theorem execActivationHandover_k {s0 : State} (s : State) (hK : Keeps s0 s) : KeepsO s0 (execActivationHandover s) := by
  unfold execActivationHandover
  repeat' first
    | with_reducible assumption
    | with_reducible apply keepsO_next
    | with_reducible apply onFaults_k
    | with_reducible apply onMb_k
    | with_reducible apply postEvent_k
    | with_reducible apply measureBoot_k
    | with_reducible rfl
    | split
    | with_reducible intro _
    | dsimp only

theorem execProbationEnd_k {s0 : State} (s : State) (hK : Keeps s0 s) : KeepsO s0 (execProbationEnd s) := by
  unfold execProbationEnd
  repeat' first
    | with_reducible assumption
    | with_reducible apply keepsO_next
    | with_reducible apply moveBoot_k
    | with_reducible apply onMb_k
    | with_reducible apply onFaults_k
    | with_reducible rfl
    | split
    | with_reducible intro _
    | dsimp only

theorem execFormerActiveStandby_k {s0 : State} (t : Nat) (s : State) (hK : Keeps s0 s) : KeepsO s0 (execFormerActiveStandby t s) := by
  unfold execFormerActiveStandby
  repeat' first
    | with_reducible assumption
    | with_reducible apply keepsO_next
    | with_reducible apply atTime_k
    | with_reducible apply runsImage_k
    | with_reducible apply onFaults_k
    | with_reducible apply endActivation_k
    | with_reducible rfl
    | split
    | with_reducible intro _
    | dsimp only

end Sys2Proof.Laws
end

