-- ==== Sys2Proof/Laws/KeepsStartup.lean ====
section
/-! SUPPORT. What the operations of Machine/Startup.lean keep (Laws/Keeps.lean). -/

set_option linter.unusedTactic false
set_option linter.unreachableTactic false
set_option linter.unusedVariables false

namespace Sys2Proof.Laws

open Sys2Proof Sys2Proof.Machine

theorem cold_k {s0 : State} (s : State) (member cause : Nat) (hK : Keeps s0 s) : Keeps s0 (s.cold member cause) := by
  unfold State.cold
  dsimp only
  refine noteSentinel_k _ (hK.trans ⟨rfl, rfl, Nat.le_refl _, fun _ => ⟨?_, ?_⟩⟩)
  · exact ⟨rfl, rfl⟩
  · exact ⟨Nat.zero_le _, rfl⟩

theorem execPowerOn_k {s0 : State} (memberId : Nat) (s : State) (hK : Keeps s0 s) : KeepsO s0 (execPowerOn memberId s) := by
  unfold execPowerOn
  repeat' first
    | with_reducible assumption
    | with_reducible apply keepsO_next
    | with_reducible apply cold_k
    | with_reducible rfl
    | split
    | with_reducible intro _
    | dsimp only

theorem execResetN_k {s0 : State} (t : Nat) (high : Bool) (memberId : Nat) (s : State) (hK : Keeps s0 s) : KeepsO s0 (execResetN t high memberId s) := by
  unfold execResetN
  repeat' first
    | with_reducible assumption
    | with_reducible apply keepsO_next
    | with_reducible apply onStart_k
    | with_reducible apply atTime_k
    | with_reducible apply cold_k
    | with_reducible rfl
    | split
    | with_reducible intro _
    | dsimp only

theorem execMain48Loss_k {s0 : State} (t : Nat) (s : State) (hK : Keeps s0 s) : KeepsO s0 (execMain48Loss t s) := by
  unfold execMain48Loss
  repeat' first
    | with_reducible assumption
    | with_reducible apply keepsO_next
    | with_reducible apply cold_k
    | with_reducible apply atTime_k
    | with_reducible rfl
    | split
    | with_reducible intro _
    | dsimp only

theorem execAux12Loss_k {s0 : State} (t : Nat) (s : State) (hK : Keeps s0 s) : KeepsO s0 (execAux12Loss t s) := by
  unfold execAux12Loss
  repeat' first
    | with_reducible assumption
    | with_reducible apply keepsO_next
    | with_reducible apply atTime_k
    | with_reducible apply onPower_k
    | with_reducible apply cold_k
    | with_reducible apply onStart_k
    | with_reducible rfl
    | split
    | with_reducible intro _
    | dsimp only

theorem execFirmwareVerified_k {s0 : State} (t : Nat) (a b : FwRead) (s : State) (hK : Keeps s0 s) : KeepsO s0 (execFirmwareVerified t a b s) := by
  unfold execFirmwareVerified
  repeat' first
    | with_reducible assumption
    | with_reducible apply keepsO_next
    | with_reducible apply atTime_k
    | with_reducible apply onMb_k
    | with_reducible apply onStart_k
    | with_reducible apply onFaults_k
    | with_reducible apply measureBoot_k
    | with_reducible apply noteSentinel_k
    | with_reducible rfl
    | split
    | with_reducible intro _
    | dsimp only

theorem execPwrGood_k {s0 : State} (t : Nat) (s : State) (hK : Keeps s0 s) : KeepsO s0 (execPwrGood t s) := by
  unfold execPwrGood
  repeat' first
    | with_reducible assumption
    | with_reducible apply keepsO_next
    | with_reducible apply atTime_k
    | with_reducible apply onStart_k
    | with_reducible rfl
    | split
    | with_reducible intro _
    | dsimp only

theorem execPwrGoodTimeout_k {s0 : State} (t : Nat) (s : State) (hK : Keeps s0 s) : KeepsO s0 (execPwrGoodTimeout t s) := by
  unfold execPwrGoodTimeout
  repeat' first
    | with_reducible assumption
    | with_reducible apply keepsO_next
    | with_reducible apply atTime_k
    | with_reducible apply onStart_k
    | with_reducible apply noteSentinel_k
    | with_reducible rfl
    | split
    | with_reducible intro _
    | dsimp only

theorem dropLinkPorts_k {s0 : State} (s : State) (hK : Keeps s0 s) : Keeps s0 (State.dropLinkPorts s) := by
  unfold State.dropLinkPorts
  repeat' first
    | with_reducible assumption
    | with_reducible apply keeps_foldl
    | with_reducible apply keeps_foldl_fst
    | with_reducible apply modPort_k
    | with_reducible rfl
    | split
    | with_reducible intro _
    | dsimp only

theorem failsTest_k {s0 : State} (s : State) (code : Nat) (hK : Keeps s0 s) : Keeps s0 (State.failsTest s code) := by
  unfold State.failsTest
  repeat' first
    | with_reducible assumption
    | with_reducible apply onFaults_k
    | with_reducible apply onStore_k
    | with_reducible apply dropLinkPorts_k
    | with_reducible apply modHport_k
    | with_reducible apply onStart_k
    | with_reducible rfl
    | split
    | with_reducible intro _
    | dsimp only

theorem takeReport_k {s0 : State} (s : State) (r : StageReport) (hK : Keeps s0 s) : Keeps s0 (State.takeReport s r) := by
  unfold State.takeReport
  repeat' first
    | with_reducible assumption
    | with_reducible apply keeps_foldl
    | with_reducible apply keeps_foldl_fst
    | with_reducible apply failsTest_k
    | with_reducible apply onFaults_k
    | with_reducible apply modBcl_k
    | with_reducible apply countStack_k
    | with_reducible rfl
    | split
    | with_reducible intro _
    | dsimp only

theorem trainPorts_k {s0 : State} (s : State) (r : StageReport) (hK : Keeps s0 s) : Keeps s0 (State.trainPorts s r) := by
  unfold State.trainPorts
  repeat' first
    | with_reducible assumption
    | with_reducible apply serveTier_k
    | with_reducible apply keeps_foldl
    | with_reducible apply keeps_foldl_fst
    | with_reducible apply modHport_k
    | with_reducible rfl
    | split
    | with_reducible intro _
    | dsimp only

theorem refreshAll_k {s0 : State} (s : State) (t : Nat) (hK : Keeps s0 s) : Keeps s0 (State.refreshAll s t) := by
  unfold State.refreshAll
  repeat' first
    | with_reducible assumption
    | with_reducible apply keeps_foldl
    | with_reducible apply keeps_foldl_fst
    | with_reducible apply modBcl_k
    | with_reducible rfl
    | split
    | with_reducible intro _
    | dsimp only

theorem finishBoot_k {s0 : State} (s : State) (t : Nat) (r : StageReport) (hK : Keeps s0 s) : Keeps s0 (State.finishBoot s t r) := by
  unfold State.finishBoot
  repeat' first
    | with_reducible assumption
    | with_reducible apply keeps_foldl
    | with_reducible apply keeps_foldl_fst
    | with_reducible apply failsTest_k
    | with_reducible apply refreshAll_k
    | with_reducible apply onStart_k
    | with_reducible apply onFaults_k
    | with_reducible apply onReq_k
    | with_reducible apply onTier_k
    | with_reducible apply onStore_k
    | with_reducible apply noteSpares_k
    | with_reducible apply capChanged_k
    | with_reducible apply safeHalt_k
    | with_reducible apply enterReady_k
    | with_reducible apply onTick_k
    | with_reducible apply noteSingle_k
    | with_reducible apply portsChanged_k
    | with_reducible apply needService_k
    | with_reducible rfl
    | split
    | with_reducible intro _
    | dsimp only

theorem execBootStageDone_k {s0 : State} (t : Nat) (r : StageReport) (s : State) (hK : Keeps s0 s) : KeepsO s0 (execBootStageDone t r s) := by
  unfold execBootStageDone
  repeat' first
    | with_reducible assumption
    | with_reducible apply keepsO_next
    | with_reducible apply atTime_k
    | with_reducible apply keeps_foldl
    | with_reducible apply keeps_foldl_fst
    | with_reducible apply failsTest_k
    | with_reducible apply onStart_k
    | with_reducible apply noteSentinel_k
    | with_reducible apply takeReport_k
    | with_reducible apply trainPorts_k
    | with_reducible apply portsChanged_k
    | with_reducible apply finishBoot_k
    | with_reducible rfl
    | split
    | with_reducible intro _
    | dsimp only

theorem abandonDemotions_k {s0 : State} (s : State) (hK : Keeps s0 s) : Keeps s0 (State.abandonDemotions s) := by
  unfold State.abandonDemotions
  repeat' first
    | with_reducible assumption
    | with_reducible apply keeps_foldl
    | with_reducible apply keeps_foldl_fst
    | with_reducible apply towardResident_k
    | with_reducible apply recheck_k
    | with_reducible rfl
    | split
    | with_reducible intro _
    | dsimp only

theorem dropMigrations_k {s0 : State} (s : State) (hK : Keeps s0 s) : Keeps s0 (State.dropMigrations s) := by
  unfold State.dropMigrations
  repeat' first
    | with_reducible assumption
    | with_reducible apply keeps_foldl
    | with_reducible apply keeps_foldl_fst
    | with_reducible apply modReq_k
    | with_reducible apply dropIncoming_k
    | with_reducible apply onGelcon_k
    | with_reducible rfl
    | split
    | with_reducible intro _
    | dsimp only

theorem startWarm_k {s0 : State} (s : State) (base index T : Nat) (hK : Keeps s0 s) : Keeps s0 (State.startWarm s base index T) := by
  unfold State.startWarm
  repeat' first
    | with_reducible assumption
    | with_reducible apply stopKernels_k
    | with_reducible apply discardAll_k
    | with_reducible apply onTick_k
    | with_reducible apply keeps_foldl
    | with_reducible apply keeps_foldl_fst
    | with_reducible apply failShip_k
    | with_reducible apply dropShip_k
    | with_reducible apply sendEnd_k
    | with_reducible apply dropMigrations_k
    | with_reducible apply abandonDemotions_k
    | with_reducible apply onGelcon_k
    | with_reducible apply onBanks_k
    | with_reducible apply onMatrix_k
    | with_reducible apply onMem_k
    | with_reducible apply onStore_k
    | with_reducible apply onCfg_k
    | with_reducible apply onCfgNext_k
    | with_reducible apply onTel_k
    | with_reducible apply onPlan_k
    | with_reducible apply onHost_k
    | with_reducible apply onStart_k
    | with_reducible apply wf_foldl
    | with_reducible apply wf_clear
    | with_reducible apply wf_writeN
    | with_reducible apply wf_write
    | with_reducible rfl
    | split
    | with_reducible intro _
    | dsimp only

theorem warmNow_k {s0 : State} (s : State) (hK : Keeps s0 s) : Keeps s0 (State.warmNow s) := by
  unfold State.warmNow
  repeat' first
    | with_reducible assumption
    | with_reducible apply startWarm_k
    | with_reducible rfl
    | split
    | with_reducible intro _
    | dsimp only

theorem warmAtEdge_k {s0 : State} (s : State) (hK : Keeps s0 s) : Keeps s0 (State.warmAtEdge s) := by
  unfold State.warmAtEdge
  repeat' first
    | with_reducible assumption
    | with_reducible apply startWarm_k
    | with_reducible rfl
    | split
    | with_reducible intro _
    | dsimp only

theorem execWarmResetN_k {s0 : State} (t : Nat) (s : State) (hK : Keeps s0 s) : KeepsO s0 (execWarmResetN t s) := by
  unfold execWarmResetN
  repeat' first
    | with_reducible assumption
    | with_reducible apply keepsO_next
    | with_reducible apply atTime_k
    | with_reducible apply onStart_k
    | with_reducible apply warmNow_k
    | with_reducible rfl
    | split
    | with_reducible intro _
    | dsimp only

theorem undoQuiet_k {s0 : State} (s : State) (c : MbCommand) (hK : Keeps s0 s) : Keeps s0 (State.undoQuiet s c) := by
  unfold State.undoQuiet
  repeat' first
    | with_reducible assumption
    | with_reducible apply onModels_k
    | with_reducible apply setOther_k
    | with_reducible apply onMb_k
    | with_reducible apply capChanged_k
    | with_reducible rfl
    | split
    | with_reducible intro _
    | dsimp only

theorem afterReset_k {s0 : State} (s : State) (c : MbCommand) (hK : Keeps s0 s) : Keeps s0 (State.afterReset s c) := by
  unfold State.afterReset
  repeat' first
    | with_reducible assumption
    | with_reducible apply complete_k
    | with_reducible apply failLoad_k
    | with_reducible apply undoQuiet_k
    | with_reducible apply freeGen_k
    | with_reducible apply onMb_k
    | with_reducible rfl
    | split
    | with_reducible intro _
    | dsimp only

theorem controlBack_k {s0 : State} (s : State) (ctOk : Bool) (hK : Keeps s0 s) : Keeps s0 (State.controlBack s ctOk) := by
  unfold State.controlBack
  repeat' first
    | with_reducible assumption
    | with_reducible apply onMb_k
    | with_reducible apply onFaults_k
    | with_reducible apply capChanged_k
    | with_reducible apply postEvent_k
    | with_reducible apply portsChanged_k
    | with_reducible apply noteSentinel_k
    | with_reducible rfl
    | split
    | with_reducible intro _
    | dsimp only

theorem reissueReads_k {s0 : State} (s : State) (index : Nat) (m : TierMove) (hK : Keeps s0 s) : Keeps s0 (State.reissueReads s index m) := by
  unfold State.reissueReads
  repeat' first
    | with_reducible assumption
    | with_reducible apply onTier_k
    | with_reducible apply openTransit_k
    | with_reducible rfl
    | split
    | with_reducible intro _
    | dsimp only

theorem resumeTier_k {s0 : State} (s : State) (index : Nat) (hK : Keeps s0 s) : Keeps s0 (State.resumeTier s index) := by
  unfold State.resumeTier
  repeat' first
    | with_reducible assumption
    | with_reducible apply onTier_k
    | with_reducible apply keeps_foldl
    | with_reducible apply keeps_foldl_fst
    | with_reducible apply reissueReads_k
    | with_reducible rfl
    | split
    | with_reducible intro _
    | dsimp only

theorem execWarmResetComplete_k {s0 : State} (t : Nat) (ctOk : Bool) (s : State) (hK : Keeps s0 s) : KeepsO s0 (execWarmResetComplete t ctOk s) := by
  unfold execWarmResetComplete
  repeat' first
    | with_reducible assumption
    | with_reducible apply keepsO_next
    | with_reducible apply atTime_k
    | with_reducible apply onStart_k
    | with_reducible apply onTick_k
    | with_reducible apply refreshAll_k
    | with_reducible apply controlBack_k
    | with_reducible apply resumeTier_k
    | with_reducible apply reissueAll_k
    | with_reducible apply takeLatched_k
    | with_reducible apply keeps_foldl
    | with_reducible apply keeps_foldl_fst
    | with_reducible apply afterReset_k
    | with_reducible rfl
    | split
    | with_reducible intro _
    | dsimp only

end Sys2Proof.Laws
end

