-- ==== Sys2Proof/Laws/KeepsPower.lean ====
section
/-! SUPPORT. What the operations of Machine/Power.lean keep (Laws/Keeps.lean). -/

set_option linter.unusedTactic false
set_option linter.unreachableTactic false
set_option linter.unusedVariables false

namespace Sys2Proof.Laws

open Sys2Proof Sys2Proof.Machine

theorem execPpsEdge_k {s0 : State} (t : Nat) (s : State) (hK : Keeps s0 s) : KeepsO s0 (execPpsEdge t s) := by
  unfold execPpsEdge
  repeat' first
    | with_reducible assumption
    | with_reducible apply keepsO_next
    | with_reducible apply atTime_k
    | with_reducible apply onTick_k
    | with_reducible apply draw_k
    | with_reducible rfl
    | split
    | with_reducible intro _
    | dsimp only

theorem execReferenceLost_k {s0 : State} (t : Nat) (s : State) (hK : Keeps s0 s) : KeepsO s0 (execReferenceLost t s) := by
  unfold execReferenceLost
  repeat' first
    | with_reducible assumption
    | with_reducible apply keepsO_next
    | with_reducible apply atTime_k
    | with_reducible apply onTick_k
    | with_reducible rfl
    | split
    | with_reducible intro _
    | dsimp only

theorem execReferenceRestored_k {s0 : State} (t : Nat) (s : State) (hK : Keeps s0 s) : KeepsO s0 (execReferenceRestored t s) := by
  unfold execReferenceRestored
  repeat' first
    | with_reducible assumption
    | with_reducible apply keepsO_next
    | with_reducible apply atTime_k
    | with_reducible apply onTick_k
    | with_reducible rfl
    | split
    | with_reducible intro _
    | dsimp only

theorem execGovernorStepDown_k {s0 : State} (t watts : Nat) (s : State) (hK : Keeps s0 s) : KeepsO s0 (execGovernorStepDown t watts s) := by
  unfold execGovernorStepDown
  repeat' first
    | with_reducible assumption
    | with_reducible apply keepsO_next
    | with_reducible apply atTime_k
    | with_reducible apply onPower_k
    | with_reducible apply countStep_k
    | with_reducible rfl
    | split
    | with_reducible intro _
    | dsimp only

theorem execOvercurrentStep_k {s0 : State} (t : Nat) (s : State) (hK : Keeps s0 s) : KeepsO s0 (execOvercurrentStep t s) := by
  unfold execOvercurrentStep
  repeat' first
    | with_reducible assumption
    | with_reducible apply keepsO_next
    | with_reducible apply atTime_k
    | with_reducible apply onPower_k
    | with_reducible rfl
    | split
    | with_reducible intro _
    | dsimp only

theorem trip_k {s0 : State} (s : State) (hK : Keeps s0 s) : Keeps s0 (State.trip s) := by
  unfold State.trip
  repeat' first
    | with_reducible assumption
    | with_reducible apply safeHalt_k
    | with_reducible apply onPower_k
    | with_reducible apply noteSentinel_k
    | with_reducible rfl
    | split
    | with_reducible intro _
    | dsimp only

theorem execOvercurrentHalt_k {s0 : State} (t : Nat) (s : State) (hK : Keeps s0 s) : KeepsO s0 (execOvercurrentHalt t s) := by
  unfold execOvercurrentHalt
  repeat' first
    | with_reducible assumption
    | with_reducible apply keepsO_next
    | with_reducible apply atTime_k
    | with_reducible apply trip_k
    | with_reducible rfl
    | split
    | with_reducible intro _
    | dsimp only

theorem noteAlert_k {s0 : State} (s : State) (hK : Keeps s0 s) : Keeps s0 (State.noteAlert s) := by
  unfold State.noteAlert
  repeat' first
    | with_reducible assumption
    | with_reducible apply onStart_k
    | with_reducible apply noteSentinel_k
    | with_reducible rfl
    | split
    | with_reducible intro _
    | dsimp only

theorem execThermalAlert_k {s0 : State} (t code temp : Nat) (s : State) (hK : Keeps s0 s) : KeepsO s0 (execThermalAlert t code temp s) := by
  unfold execThermalAlert
  repeat' first
    | with_reducible assumption
    | with_reducible apply keepsO_next
    | with_reducible apply atTime_k
    | with_reducible apply onPower_k
    | with_reducible apply noteAlert_k
    | with_reducible apply count_k
    | with_reducible apply postEvent_k
    | with_reducible rfl
    | split
    | with_reducible intro _
    | dsimp only

theorem execThermalThrottleStep_k {s0 : State} (t code temp : Nat) (s : State) (hK : Keeps s0 s) : KeepsO s0 (execThermalThrottleStep t code temp s) := by
  unfold execThermalThrottleStep
  repeat' first
    | with_reducible assumption
    | with_reducible apply keepsO_next
    | with_reducible apply atTime_k
    | with_reducible apply onPower_k
    | with_reducible rfl
    | split
    | with_reducible intro _
    | dsimp only

theorem execThermalTrip_k {s0 : State} (t code temp : Nat) (s : State) (hK : Keeps s0 s) : KeepsO s0 (execThermalTrip t code temp s) := by
  unfold execThermalTrip
  repeat' first
    | with_reducible assumption
    | with_reducible apply keepsO_next
    | with_reducible apply atTime_k
    | with_reducible apply safeHalt_k
    | with_reducible apply onPower_k
    | with_reducible apply trip_k
    | with_reducible rfl
    | split
    | with_reducible intro _
    | dsimp only

theorem execThermalThresholdLeft_k {s0 : State} (t code temp : Nat) (s : State) (hK : Keeps s0 s) : KeepsO s0 (execThermalThresholdLeft t code temp s) := by
  unfold execThermalThresholdLeft
  repeat' first
    | with_reducible assumption
    | with_reducible apply keepsO_next
    | with_reducible apply atTime_k
    | with_reducible apply onPower_k
    | with_reducible apply noteAlert_k
    | with_reducible rfl
    | split
    | with_reducible intro _
    | dsimp only

theorem execDramOvertempPowerOff_k {s0 : State} (t code temp : Nat) (s : State) (hK : Keeps s0 s) : KeepsO s0 (execDramOvertempPowerOff t code temp s) := by
  unfold execDramOvertempPowerOff
  repeat' first
    | with_reducible assumption
    | with_reducible apply keepsO_next
    | with_reducible apply atTime_k
    | with_reducible apply safeHalt_k
    | with_reducible apply onStart_k
    | with_reducible apply onMem_k
    | with_reducible apply wf_foldl
    | with_reducible apply wf_clear
    | with_reducible apply wf_writeN
    | with_reducible apply wf_write
    | with_reducible rfl
    | split
    | with_reducible intro _
    | dsimp only

theorem raiseClocks_k {s0 : State} (s : State) (hK : Keeps s0 s) : Keeps s0 (State.raiseClocks s) := by
  unfold State.raiseClocks
  repeat' first
    | with_reducible assumption
    | with_reducible apply onPower_k
    | with_reducible rfl
    | split
    | with_reducible intro _
    | dsimp only

theorem execMeasurementUpdate_k {s0 : State} (t watts volts amps logic dram : Nat) (r : Readings) (s : State) (hK : Keeps s0 s) : KeepsO s0 (execMeasurementUpdate t watts volts amps logic dram r s) := by
  unfold execMeasurementUpdate
  repeat' first
    | with_reducible assumption
    | with_reducible apply keepsO_next
    | with_reducible apply atTime_k
    | with_reducible apply onPower_k
    | with_reducible apply onPlan_k
    | with_reducible apply count_k
    | with_reducible rfl
    | split
    | with_reducible intro _
    | dsimp only

end Sys2Proof.Laws
end

