-- ==== Sys2Proof/Laws/KeepsRequests.lean ====
section
/-! SUPPORT. What the operations of Machine/Requests.lean keep (Laws/Keeps.lean). -/

set_option linter.unusedTactic false
set_option linter.unreachableTactic false
set_option linter.unusedVariables false

namespace Sys2Proof.Laws

open Sys2Proof Sys2Proof.Machine

theorem takeCreditsFor_k {s0 : State} (s : State) (n : Nat) (before : Option EventKey) (hK : Keeps s0 s) : Keeps s0 (State.takeCreditsFor s n before) := by
  unfold State.takeCreditsFor
  repeat' first
    | with_reducible assumption
    | with_reducible apply takeCreditsOf_k
    | with_reducible rfl
    | split
    | with_reducible intro _
    | dsimp only

theorem takeEventsFor_k {s0 : State} (s : State) (n : Nat) (before : Option EventKey) (hK : Keeps s0 s) : Keeps s0 (State.takeEventsFor s n before) := by
  unfold State.takeEventsFor
  repeat' first
    | with_reducible assumption
    | with_reducible apply takeCreditsFor_k
    | with_reducible apply takeMgmts_k
    | with_reducible rfl
    | split
    | with_reducible intro _
    | dsimp only

theorem reqCommand_k {s0 : State} (s : State) (mb op : Nat) (f : MbCommand → Nat → Request → State → State) (hFf : ∀ a0 a1 a2 a3, Keeps s0 a3 → Keeps s0 (f a0 a1 a2 a3)) (hK : Keeps s0 s) : Keeps s0 (State.reqCommand s mb op f) := by
  unfold State.reqCommand
  repeat' first
    | with_reducible assumption
    | with_reducible apply hFf
    | with_reducible apply begin_k
    | with_reducible apply takeEventsFor_k
    | with_reducible apply complete_k
    | with_reducible apply settlePump_k
    | with_reducible rfl
    | split
    | with_reducible intro _
    | dsimp only

theorem execReqCancel_k {s0 : State} (mb : Nat) (s : State) (hK : Keeps s0 s) : KeepsO s0 (execReqCancel mb s) := by
  unfold execReqCancel
  repeat' first
    | with_reducible assumption
    | with_reducible apply keepsO_next
    | with_reducible apply reqCommand_k
    | with_reducible apply closeReq_k
    | with_reducible apply complete_k
    | with_reducible rfl
    | split
    | with_reducible intro _
    | dsimp only

theorem waitSettle_k {s0 : State} (s : State) (c : MbCommand) (n : Nat) (hK : Keeps s0 s) : Keeps s0 (State.waitSettle s c n) := by
  unfold State.waitSettle
  repeat' first
    | with_reducible assumption
    | with_reducible apply setCmd_k
    | with_reducible apply settleMarks_k
    | with_reducible rfl
    | split
    | with_reducible intro _
    | dsimp only

theorem execReqPause_k {s0 : State} (mb : Nat) (s : State) (hK : Keeps s0 s) : KeepsO s0 (execReqPause mb s) := by
  unfold execReqPause
  repeat' first
    | with_reducible assumption
    | with_reducible apply keepsO_next
    | with_reducible apply reqCommand_k
    | with_reducible apply complete_k
    | with_reducible apply onReq_k
    | with_reducible apply waitSettle_k
    | with_reducible rfl
    | split
    | with_reducible intro _
    | dsimp only

theorem execReqResume_k {s0 : State} (mb : Nat) (s : State) (hK : Keeps s0 s) : KeepsO s0 (execReqResume mb s) := by
  unfold execReqResume
  repeat' first
    | with_reducible assumption
    | with_reducible apply keepsO_next
    | with_reducible apply reqCommand_k
    | with_reducible apply modReq_k
    | with_reducible apply complete_k
    | with_reducible apply resumeWalk_k
    | with_reducible apply onReq_k
    | with_reducible apply waitSettle_k
    | with_reducible rfl
    | split
    | with_reducible intro _
    | dsimp only

theorem execReqDraft_k {s0 : State} (mb : Nat) (text : Option (List Nat)) (s : State) (hK : Keeps s0 s) : KeepsO s0 (execReqDraft mb text s) := by
  unfold execReqDraft
  repeat' first
    | with_reducible assumption
    | with_reducible apply keepsO_next
    | with_reducible apply reqCommand_k
    | with_reducible apply complete_k
    | with_reducible apply hostRead_k
    | with_reducible apply modReq_k
    | with_reducible rfl
    | split
    | with_reducible intro _
    | dsimp only

theorem execReqQuery_k {s0 : State} (mb : Nat) (s : State) (hK : Keeps s0 s) : KeepsO s0 (execReqQuery mb s) := by
  unfold execReqQuery
  repeat' first
    | with_reducible assumption
    | with_reducible apply keepsO_next
    | with_reducible apply runI_k
    | with_reducible apply keepsE_need
    | with_reducible apply keepsE_bindS
    | with_reducible apply keepsE_bind
    | with_reducible apply keepsE_okS
    | with_reducible apply keepsE_ok
    | with_reducible apply keepsE_error
    | with_reducible rfl
    | split
    | with_reducible intro _
    | dsimp only

theorem execReqMigrate_k {s0 : State} (mb : Nat) (s : State) (hK : Keeps s0 s) : KeepsO s0 (execReqMigrate mb s) := by
  unfold execReqMigrate
  repeat' first
    | with_reducible assumption
    | with_reducible apply keepsO_next
    | with_reducible apply reqCommand_k
    | with_reducible apply complete_k
    | with_reducible apply modReq_k
    | with_reducible apply onGelcon_k
    | with_reducible apply setCmd_k
    | with_reducible rfl
    | split
    | with_reducible intro _
    | dsimp only

theorem execDeadlineExpiry_k {s0 : State} (slot : Nat) (s : State) (hK : Keeps s0 s) : KeepsO s0 (execDeadlineExpiry slot s) := by
  unfold execDeadlineExpiry
  repeat' first
    | with_reducible assumption
    | with_reducible apply keepsO_next
    | with_reducible apply settleTimers_k
    | with_reducible apply settlePump_k
    | with_reducible rfl
    | split
    | with_reducible intro _
    | dsimp only

theorem execHoldExpiry_k {s0 : State} (slot : Nat) (s : State) (hK : Keeps s0 s) : KeepsO s0 (execHoldExpiry slot s) := by
  unfold execHoldExpiry
  repeat' first
    | with_reducible assumption
    | with_reducible apply keepsO_next
    | with_reducible apply settleTimers_k
    | with_reducible apply settlePump_k
    | with_reducible rfl
    | split
    | with_reducible intro _
    | dsimp only

theorem execTtlExpiry_k {s0 : State} (slot : Nat) (s : State) (hK : Keeps s0 s) : KeepsO s0 (execTtlExpiry slot s) := by
  unfold execTtlExpiry
  repeat' first
    | with_reducible assumption
    | with_reducible apply keepsO_next
    | with_reducible apply settleTimers_k
    | with_reducible apply settlePump_k
    | with_reducible rfl
    | split
    | with_reducible intro _
    | dsimp only

theorem resumeDone_k {s0 : State} (s : State) (slot : Nat) (hK : Keeps s0 s) : Keeps s0 (State.resumeDone s slot) := by
  unfold State.resumeDone
  repeat' first
    | with_reducible assumption
    | with_reducible apply modReq_k
    | with_reducible rfl
    | split
    | with_reducible intro _
    | dsimp only

theorem execResumeComplete_k {s0 : State} (slot : Nat) (s : State) (hK : Keeps s0 s) : KeepsO s0 (execResumeComplete slot s) := by
  unfold execResumeComplete
  repeat' first
    | with_reducible assumption
    | with_reducible apply keepsO_next
    | with_reducible apply resumeDone_k
    | with_reducible rfl
    | split
    | with_reducible intro _
    | dsimp only

theorem writeDue_k {s0 : State} (s : State) (slot : Nat) (hK : Keeps s0 s) : Keeps s0 (State.writeDue s slot) := by
  unfold State.writeDue
  repeat' first
    | with_reducible assumption
    | with_reducible apply endGathers_k
    | with_reducible apply onReq_k
    | with_reducible apply writeTokens_k
    | with_reducible apply writeFinal_k
    | with_reducible rfl
    | split
    | with_reducible intro _
    | dsimp only

theorem execCommitGathersDone_k {s0 : State} (slot : Nat) (s : State) (hK : Keeps s0 s) : KeepsO s0 (execCommitGathersDone slot s) := by
  unfold execCommitGathersDone
  repeat' first
    | with_reducible assumption
    | with_reducible apply keepsO_next
    | with_reducible apply writeDue_k
    | with_reducible rfl
    | split
    | with_reducible intro _
    | dsimp only

theorem beginWindow_k {s0 : State} (s : State) (t : Nat) (hK : Keeps s0 s) : Keeps s0 (State.beginWindow s t) := by
  unfold State.beginWindow
  repeat' first
    | with_reducible assumption
    | with_reducible apply onPlan_k
    | with_reducible rfl
    | split
    | with_reducible intro _
    | dsimp only

theorem execBudgetWindowStart_k {s0 : State} (tenant : Nat) (s : State) (hK : Keeps s0 s) : KeepsO s0 (execBudgetWindowStart tenant s) := by
  unfold execBudgetWindowStart
  repeat' first
    | with_reducible assumption
    | with_reducible apply keepsO_next
    | with_reducible apply beginWindow_k
    | with_reducible rfl
    | split
    | with_reducible intro _
    | dsimp only

end Sys2Proof.Laws
end

