-- ==== Sys2Proof/Laws/KeepsTelemetry.lean ====
section
/-! SUPPORT. What the operations of Machine/Telemetry.lean keep (Laws/Keeps.lean). -/

set_option linter.unusedTactic false
set_option linter.unreachableTactic false
set_option linter.unusedVariables false

namespace Sys2Proof.Laws

open Sys2Proof Sys2Proof.Machine

theorem freeze_k {s0 : State} (s : State) (k stamp : Nat) (hK : Keeps s0 s) : Keeps s0 (State.freeze s k stamp) := by
  unfold State.freeze
  repeat' first
    | with_reducible assumption
    | with_reducible apply onTel_k
    | with_reducible rfl
    | split
    | with_reducible intro _
    | dsimp only

theorem execSnapshotReadable_k {s0 : State} (t : Nat) (s : State) (hK : Keeps s0 s) : KeepsO s0 (execSnapshotReadable t s) := by
  unfold execSnapshotReadable
  repeat' first
    | with_reducible assumption
    | with_reducible apply keepsO_next
    | with_reducible apply atTime_k
    | with_reducible apply onTel_k
    | with_reducible rfl
    | split
    | with_reducible intro _
    | dsimp only

theorem execStatsRead_k {s0 : State} (mb : Nat) (ok : Bool) (s : State) (hK : Keeps s0 s) : KeepsO s0 (execStatsRead mb ok s) := by
  unfold execStatsRead
  repeat' first
    | with_reducible assumption
    | with_reducible apply keepsO_next
    | with_reducible apply runI_k
    | with_reducible apply bufferWrite_k
    | with_reducible apply keepsE_need
    | with_reducible apply keepsE_bindS
    | with_reducible apply keepsE_bind
    | with_reducible apply keepsE_okS
    | with_reducible apply keepsE_ok
    | with_reducible apply keepsE_error
    | with_reducible rfl
    | split
    | with_reducible intro _
    | dsimp only

end Sys2Proof.Laws
end

