-- ==== Sys2Proof/Laws/KeepsCommit.lean ====
section
/-! SUPPORT. What the operations of Machine/Commit.lean keep (Laws/Keeps.lean). -/

set_option linter.unusedTactic false
set_option linter.unreachableTactic false
set_option linter.unusedVariables false

namespace Sys2Proof.Laws

open Sys2Proof Sys2Proof.Machine

theorem rekey_k {s0 : State} (s : State) (old : Settings) (hK : Keeps s0 s) : Keeps s0 (State.rekey s old) := by
  unfold State.rekey
  repeat' first
    | with_reducible assumption
    | with_reducible apply dropEntries_k
    | with_reducible rfl
    | split
    | with_reducible intro _
    | dsimp only

theorem applyConfig_k {s0 : State} (s : State) (hK : Keeps s0 s) : Keeps s0 (State.applyConfig s) := by
  unfold State.applyConfig
  repeat' first
    | with_reducible assumption
    | with_reducible apply serveTier_k
    | with_reducible apply onCfg_k
    | with_reducible apply rekey_k
    | with_reducible apply onPlan_k
    | with_reducible apply keeps_foldl
    | with_reducible apply keeps_foldl_fst
    | with_reducible apply declareDown_k
    | with_reducible apply portFalls_k
    | with_reducible apply onModels_k
    | with_reducible rfl
    | split
    | with_reducible intro _
    | dsimp only

theorem freezeTick_k {s0 : State} (s : State) (hK : Keeps s0 s) : Keeps s0 (State.freezeTick s) := by
  unfold State.freezeTick
  repeat' first
    | with_reducible assumption
    | with_reducible apply onTick_k
    | with_reducible rfl
    | split
    | with_reducible intro _
    | dsimp only

theorem beginWindows_k {s0 : State} (s : State) (hK : Keeps s0 s) : Keeps s0 (State.beginWindows s) := by
  unfold State.beginWindows
  repeat' first
    | with_reducible assumption
    | with_reducible apply keeps_foldl
    | with_reducible apply keeps_foldl_fst
    | with_reducible apply beginWindow_k
    | with_reducible rfl
    | split
    | with_reducible intro _
    | dsimp only

theorem countFaults_k {s0 : State} (s : State) (hK : Keeps s0 s) : Keeps s0 (State.countFaults s) := by
  unfold State.countFaults
  repeat' first
    | with_reducible assumption
    | with_reducible apply keeps_foldl
    | with_reducible apply keeps_foldl_fst
    | with_reducible apply onPlan_k
    | with_reducible apply postEvent_k
    | with_reducible rfl
    | split
    | with_reducible intro _
    | dsimp only

theorem noteIdle_k {s0 : State} (s : State) (meters : List Meter) (hK : Keeps s0 s) : Keeps s0 (State.noteIdle s meters) := by
  unfold State.noteIdle
  repeat' first
    | with_reducible assumption
    | with_reducible apply onPlan_k
    | with_reducible apply keeps_foldl
    | with_reducible apply keeps_foldl_fst
    | with_reducible rfl
    | split
    | with_reducible intro _
    | dsimp only

theorem updateCorr_k {s0 : State} (s : State) (meters : List Meter) (hK : Keeps s0 s) : Keeps s0 (State.updateCorr s meters) := by
  unfold State.updateCorr
  repeat' first
    | with_reducible assumption
    | with_reducible apply keeps_foldl
    | with_reducible apply keeps_foldl_fst
    | with_reducible apply onPlan_k
    | with_reducible rfl
    | split
    | with_reducible intro _
    | dsimp only

theorem countTrees_k {s0 : State} (s : State) (hK : Keeps s0 s) : Keeps s0 (State.countTrees s) := by
  unfold State.countTrees
  repeat' first
    | with_reducible assumption
    | with_reducible apply keeps_foldl
    | with_reducible apply keeps_foldl_fst
    | with_reducible apply countStep_k
    | with_reducible rfl
    | split
    | with_reducible intro _
    | dsimp only

theorem publishAll_k {s0 : State} (s : State) (hK : Keeps s0 s) : Keeps s0 (State.publishAll s) := by
  unfold State.publishAll
  repeat' first
    | with_reducible assumption
    | with_reducible apply keeps_foldl
    | with_reducible apply keeps_foldl_fst
    | with_reducible apply publishGroup_k
    | with_reducible rfl
    | split
    | with_reducible intro _
    | dsimp only

theorem retryGroups_k {s0 : State} (s : State) (hK : Keeps s0 s) : Keeps s0 (State.retryGroups s) := by
  unfold State.retryGroups
  repeat' first
    | with_reducible assumption
    | with_reducible apply keeps_foldl
    | with_reducible apply keeps_foldl_fst
    | with_reducible apply resumeWalk_k
    | with_reducible apply towardResident_k
    | with_reducible apply parkDemote_k
    | with_reducible rfl
    | split
    | with_reducible intro _
    | dsimp only

theorem endFailed_k {s0 : State} (s : State) (hK : Keeps s0 s) : Keeps s0 (State.endFailed s) := by
  unfold State.endFailed
  repeat' first
    | with_reducible assumption
    | with_reducible apply keeps_foldl
    | with_reducible apply keeps_foldl_fst
    | with_reducible apply endMigration_k
    | with_reducible rfl
    | split
    | with_reducible intro _
    | dsimp only

theorem takeFreeMgmts_k {s0 : State} (s : State) (hK : Keeps s0 s) : Keeps s0 (State.takeFreeMgmts s) := by
  unfold State.takeFreeMgmts
  repeat' first
    | with_reducible assumption
    | with_reducible apply takeMgmts_k
    | with_reducible rfl
    | split
    | with_reducible intro _
    | dsimp only

theorem closeLost_k {s0 : State} (s : State) (hK : Keeps s0 s) : Keeps s0 (State.closeLost s) := by
  unfold State.closeLost
  repeat' first
    | with_reducible assumption
    | with_reducible apply keeps_foldl
    | with_reducible apply keeps_foldl_fst
    | with_reducible apply markFault_k
    | with_reducible rfl
    | split
    | with_reducible intro _
    | dsimp only

theorem settleOpen_k {s0 : State} (s : State) (hK : Keeps s0 s) : Keeps s0 (State.settleOpen s) := by
  unfold State.settleOpen
  repeat' first
    | with_reducible assumption
    | with_reducible apply onReq_k
    | with_reducible apply settlePump_k
    | with_reducible rfl
    | split
    | with_reducible intro _
    | dsimp only

theorem dropStaging_k {s0 : State} (s : State) (hK : Keeps s0 s) : Keeps s0 (State.dropStaging s) := by
  unfold State.dropStaging
  repeat' first
    | with_reducible assumption
    | with_reducible apply allMcl_k
    | with_reducible rfl
    | split
    | with_reducible intro _
    | dsimp only

theorem grantSems_k {s0 : State} (s : State) (hK : Keeps s0 s) : Keeps s0 (State.grantSems s) := by
  unfold State.grantSems
  repeat' first
    | with_reducible assumption
    | with_reducible apply onPlan_k
    | with_reducible rfl
    | split
    | with_reducible intro _
    | dsimp only

theorem planFirst_k {s0 : State} (s : State) (hK : Keeps s0 s) : Keeps s0 (State.planFirst s) := by
  unfold State.planFirst
  repeat' first
    | with_reducible assumption
    | with_reducible apply buildPlan_k
    | with_reducible apply grantSems_k
    | with_reducible apply onTier_k
    | with_reducible rfl
    | split
    | with_reducible intro _
    | dsimp only

theorem openCommit_k {s0 : State} (s : State) (hK : Keeps s0 s) : Keeps s0 (State.openCommit s) := by
  unfold State.openCommit
  repeat' first
    | with_reducible assumption
    | with_reducible apply onPlan_k
    | with_reducible apply beginWindows_k
    | with_reducible apply onTick_k
    | with_reducible apply onReq_k
    | with_reducible apply stopKernels_k
    | with_reducible apply dropStaging_k
    | with_reducible apply measureStopped_k
    | with_reducible apply onTier_k
    | with_reducible apply applyConfig_k
    | with_reducible apply freezeTick_k
    | with_reducible apply failLateLoads_k
    | with_reducible apply applyLosses_k
    | with_reducible apply applyFetched_k
    | with_reducible apply settleTicks_k
    | with_reducible apply endFailed_k
    | with_reducible apply takeFreeMgmts_k
    | with_reducible apply trimLog_k
    | with_reducible apply rebindPorts_k
    | with_reducible apply takeFreeCredits_k
    | with_reducible apply closeLost_k
    | with_reducible apply castVotes_k
    | with_reducible apply countTrees_k
    | with_reducible apply chargeRows_k
    | with_reducible apply takeEarlyCosts_k
    | with_reducible apply settleOpen_k
    | with_reducible apply countFaults_k
    | with_reducible apply updateCorr_k
    | with_reducible apply noteIdle_k
    | with_reducible apply publishAll_k
    | with_reducible apply retryGroups_k
    | with_reducible apply takeMgmts_k
    | with_reducible apply checkIncoming_k
    | with_reducible apply planFirst_k
    | with_reducible apply prefetch_k
    | with_reducible apply sendShardPlans_k
    | with_reducible apply endClosedShips_k
    | with_reducible rfl
    | split
    | with_reducible intro _
    | dsimp only

theorem execCommitOpen_k {s0 : State} (s : State) (hK : Keeps s0 s) : KeepsO s0 (execCommitOpen s) := by
  unfold execCommitOpen
  repeat' first
    | with_reducible assumption
    | with_reducible apply keepsO_next
    | with_reducible apply openCommit_k
    | with_reducible rfl
    | split
    | with_reducible intro _
    | dsimp only

theorem dropAttempts_k {s0 : State} (s : State) (hK : Keeps s0 s) : Keeps s0 (State.dropAttempts s) := by
  unfold State.dropAttempts
  repeat' first
    | with_reducible assumption
    | with_reducible apply keeps_foldl
    | with_reducible apply keeps_foldl_fst
    | with_reducible apply endAttempt_k
    | with_reducible rfl
    | split
    | with_reducible intro _
    | dsimp only

theorem writeHeads_k {s0 : State} (s : State) (hK : Keeps s0 s) : Keeps s0 (State.writeHeads s) := by
  unfold State.writeHeads
  repeat' first
    | with_reducible assumption
    | with_reducible apply keeps_foldl
    | with_reducible apply keeps_foldl_fst
    | with_reducible apply modRing_k
    | with_reducible apply hostWrite_k
    | with_reducible apply raiseVector_k
    | with_reducible rfl
    | split
    | with_reducible intro _
    | dsimp only

theorem closeWindow_k {s0 : State} (s : State) (hK : Keeps s0 s) : Keeps s0 (State.closeWindow s) := by
  unfold State.closeWindow
  repeat' first
    | with_reducible assumption
    | with_reducible apply chargeShared_k
    | with_reducible apply takeCredits_k
    | with_reducible apply takeMgmts_k
    | with_reducible apply failLate_k
    | with_reducible apply keeps_foldl
    | with_reducible apply keeps_foldl_fst
    | with_reducible apply settleTimers_k
    | with_reducible apply settleForce_k
    | with_reducible apply settleRebuild_k
    | with_reducible apply holdRows_k
    | with_reducible apply dropAttempts_k
    | with_reducible apply endAllGathers_k
    | with_reducible apply writeDue_k
    | with_reducible apply resumeDone_k
    | with_reducible apply startMigration_k
    | with_reducible apply endClosedShips_k
    | with_reducible apply followAll_k
    | with_reducible apply freeRetired_k
    | with_reducible apply endTransits_k
    | with_reducible apply writeHeads_k
    | with_reducible apply flushVectors_k
    | with_reducible apply flushRead_k
    | with_reducible apply onReq_k
    | with_reducible rfl
    | split
    | with_reducible intro _
    | dsimp only

theorem planFinal_k {s0 : State} (s : State) (hK : Keeps s0 s) : Keeps s0 (State.planFinal s) := by
  unfold State.planFinal
  repeat' first
    | with_reducible assumption
    | with_reducible apply onPlan_k
    | with_reducible apply buildPlan_k
    | with_reducible apply notePairs_k
    | with_reducible apply grantSems_k
    | with_reducible rfl
    | split
    | with_reducible intro _
    | dsimp only

theorem freeClosing_k {s0 : State} (s : State) (hK : Keeps s0 s) : Keeps s0 (State.freeClosing s) := by
  unfold State.freeClosing
  repeat' first
    | with_reducible assumption
    | with_reducible apply keeps_foldl
    | with_reducible apply keeps_foldl_fst
    | with_reducible apply dropRequestRefs_k
    | with_reducible apply onReq_k
    | with_reducible rfl
    | split
    | with_reducible intro _
    | dsimp only

theorem noteTierEvents_k {s0 : State} (s : State) (hK : Keeps s0 s) : Keeps s0 (State.noteTierEvents s) := by
  unfold State.noteTierEvents
  repeat' first
    | with_reducible assumption
    | with_reducible apply onTier_k
    | with_reducible rfl
    | split
    | with_reducible intro _
    | dsimp only

theorem noteTick_k {s0 : State} (s : State) (hK : Keeps s0 s) : Keeps s0 (State.noteTick s) := by
  unfold State.noteTick
  repeat' first
    | with_reducible assumption
    | with_reducible apply onPower_k
    | with_reducible apply onPlan_k
    | with_reducible apply countStep_k
    | with_reducible rfl
    | split
    | with_reducible intro _
    | dsimp only

theorem clearPerTick_k {s0 : State} (s : State) (hK : Keeps s0 s) : Keeps s0 (State.clearPerTick s) := by
  unfold State.clearPerTick
  repeat' first
    | with_reducible assumption
    | with_reducible apply onGelcon_k
    | with_reducible apply count_k
    | with_reducible rfl
    | split
    | with_reducible intro _
    | dsimp only

theorem switchStore_k {s0 : State} (s : State) (hK : Keeps s0 s) : Keeps s0 (State.switchStore s) := by
  unfold State.switchStore
  repeat' first
    | with_reducible assumption
    | with_reducible apply onStore_k
    | with_reducible apply capChanged_k
    | with_reducible rfl
    | split
    | with_reducible intro _
    | dsimp only

theorem switchMap_k {s0 : State} (s : State) (hK : Keeps s0 s) : Keeps s0 (State.switchMap s) := by
  unfold State.switchMap
  repeat' first
    | with_reducible assumption
    | with_reducible apply onFaults_k
    | with_reducible rfl
    | split
    | with_reducible intro _
    | dsimp only

theorem touchGroups_k {s0 : State} (s : State) (hK : Keeps s0 s) : Keeps s0 (State.touchGroups s) := by
  unfold State.touchGroups
  repeat' first
    | with_reducible assumption
    | with_reducible apply keeps_foldl
    | with_reducible apply keeps_foldl_fst
    | with_reducible apply modGroup_k
    | with_reducible rfl
    | split
    | with_reducible intro _
    | dsimp only

theorem clearTrees_k {s0 : State} (s : State) (hK : Keeps s0 s) : Keeps s0 (State.clearTrees s) := by
  unfold State.clearTrees
  repeat' first
    | with_reducible assumption
    | with_reducible apply keeps_foldl
    | with_reducible apply keeps_foldl_fst
    | with_reducible apply modReq_k
    | with_reducible rfl
    | split
    | with_reducible intro _
    | dsimp only

theorem touchModels_k {s0 : State} (s : State) (hK : Keeps s0 s) : Keeps s0 (State.touchModels s) := by
  unfold State.touchModels
  repeat' first
    | with_reducible assumption
    | with_reducible apply keeps_foldl
    | with_reducible apply keeps_foldl_fst
    | with_reducible apply modMslot_k
    | with_reducible rfl
    | split
    | with_reducible intro _
    | dsimp only

theorem startTick_k {s0 : State} (s : State) (index edge T C : Nat) (hK : Keeps s0 s) : Keeps s0 (State.startTick s index edge T C) := by
  unfold State.startTick
  repeat' first
    | with_reducible assumption
    | with_reducible apply onTick_k
    | with_reducible apply onPlan_k
    | with_reducible apply dropReserved_k
    | with_reducible apply onStore_k
    | with_reducible apply onTier_k
    | with_reducible apply allMcl_k
    | with_reducible apply onMb_k
    | with_reducible apply clearTrees_k
    | with_reducible apply touchGroups_k
    | with_reducible apply touchModels_k
    | with_reducible apply noteSyncs_k
    | with_reducible apply sendSync_k
    | with_reducible rfl
    | split
    | with_reducible intro _
    | dsimp only

theorem edge_k {s0 : State} (s : State) (hK : Keeps s0 s) : Keeps s0 (State.edge s) := by
  unfold State.edge
  repeat' first
    | with_reducible assumption
    | with_reducible apply closeWindow_k
    | with_reducible apply switchStore_k
    | with_reducible apply onTick_k
    | with_reducible apply planFinal_k
    | with_reducible apply freeClosing_k
    | with_reducible apply noteTierEvents_k
    | with_reducible apply noteTick_k
    | with_reducible apply freeze_k
    | with_reducible apply onReq_k
    | with_reducible apply clearPerTick_k
    | with_reducible apply switchMap_k
    | with_reducible apply switchBanks_k
    | with_reducible apply raiseClocks_k
    | with_reducible apply warmAtEdge_k
    | with_reducible apply startTick_k
    | with_reducible rfl
    | split
    | with_reducible intro _
    | dsimp only

theorem execTickEdge_k {s0 : State} (s : State) (hK : Keeps s0 s) : KeepsO s0 (execTickEdge s) := by
  unfold execTickEdge
  repeat' first
    | with_reducible assumption
    | with_reducible apply keepsO_next
    | with_reducible apply edge_k
    | with_reducible apply onTick_k
    | with_reducible apply switchMap_k
    | with_reducible apply switchBanks_k
    | with_reducible apply raiseClocks_k
    | with_reducible apply startTick_k
    | with_reducible rfl
    | split
    | with_reducible intro _
    | dsimp only

end Sys2Proof.Laws
end

