-- ==== Sys2Proof/Laws/KeepsQuant.lean ====
section
/-! SUPPORT. What the operations of Machine/Quant.lean keep (Laws/Keeps.lean). -/

set_option linter.unusedTactic false
set_option linter.unreachableTactic false
set_option linter.unusedVariables false

namespace Sys2Proof.Laws

open Sys2Proof Sys2Proof.Machine

theorem noteScale_k {s0 : State} (s : State) (slot : Nat) (c : CarriedScale) (hK : Keeps s0 s) : Keeps s0 (State.noteScale s slot c) := by
  unfold State.noteScale
  repeat' first
    | with_reducible assumption
    | with_reducible apply onPlan_k
    | with_reducible rfl
    | split
    | with_reducible intro _
    | dsimp only

theorem modConv_k {s0 : State} (s : State) (m tslot : Nat) (f : ConvStat → ConvStat) (hK : Keeps s0 s) : Keeps s0 (State.modConv s m tslot f) := by
  unfold State.modConv
  repeat' first
    | with_reducible assumption
    | with_reducible apply count_k
    | with_reducible rfl
    | split
    | with_reducible intro _
    | dsimp only

theorem convStats_k {s0 : State} (s : State) (m tslot : Nat) (out : List Nat) (xs : List U32) (c : Conv) (clips : Nat) (hK : Keeps s0 s) : Keeps s0 (State.convStats s m tslot out xs c clips) := by
  unfold State.convStats
  repeat' first
    | with_reducible assumption
    | with_reducible apply onTel_k
    | with_reducible apply modConv_k
    | with_reducible apply keeps_foldl
    | with_reducible apply keeps_foldl_fst
    | with_reducible apply countStep_k
    | with_reducible rfl
    | split
    | with_reducible intro _
    | dsimp only

end Sys2Proof.Laws
end

