-- ==== Sys2Proof/Laws/KeepsVector.lean ====
section
/-! SUPPORT. What the operations of Machine/Vector.lean keep (Laws/Keeps.lean). -/

set_option linter.unusedTactic false
set_option linter.unreachableTactic false
set_option linter.unusedVariables false

namespace Sys2Proof.Laws

open Sys2Proof Sys2Proof.Machine

theorem modEngine_k {s0 : State} (s : State) (n : Nat) (f : VectorEngine → VectorEngine) (hK : Keeps s0 s) : Keeps s0 (State.modEngine s n f) := by
  unfold State.modEngine
  repeat' first
    | with_reducible assumption
    | with_reducible apply onStore_k
    | with_reducible rfl
    | split
    | with_reducible intro _
    | dsimp only

theorem engineRun_k {s0 : State} (s : State) (job engine : Nat) (reads writes : List (Place × Nat)) (f : State → State) (hFf : ∀ t, Keeps s0 t → Keeps s0 (f t)) (hK : Keeps s0 s) : Keeps s0 (State.engineRun s job engine reads writes f) := by
  unfold State.engineRun
  repeat' first
    | with_reducible assumption
    | with_reducible apply hFf
    | with_reducible apply mxFault_k
    | with_reducible apply keeps_foldl
    | with_reducible apply keeps_foldl_fst
    | with_reducible apply jobReads_k
    | with_reducible apply jobFault_k
    | with_reducible rfl
    | split
    | with_reducible intro _
    | dsimp only

theorem putPlace_k {s0 : State} (s : State) (engine : Nat) (p : Place) (bs : List Byte) (hK : Keeps s0 s) : Keeps s0 (State.putPlace s engine p bs) := by
  unfold State.putPlace
  repeat' first
    | with_reducible assumption
    | with_reducible apply putStore_k
    | with_reducible apply putBytes_k
    | with_reducible rfl
    | split
    | with_reducible intro _
    | dsimp only

theorem convChain_k {s0 : State} (r : ChainRun) (regs red xs : List U32) (s : State) (hK : Keeps s0 s) : Keeps s0 (convChain r regs red xs s) := by
  unfold convChain
  repeat' first
    | with_reducible assumption
    | with_reducible apply putPlace_k
    | with_reducible apply noteScale_k
    | with_reducible apply convStats_k
    | with_reducible rfl
    | split
    | with_reducible intro _
    | dsimp only

theorem runChain_k {s0 : State} (r : ChainRun) (s : State) (hK : Keeps s0 s) : Keeps s0 (runChain r s) := by
  unfold runChain
  repeat' first
    | with_reducible assumption
    | with_reducible apply draw_k
    | with_reducible apply modEngine_k
    | with_reducible apply convChain_k
    | with_reducible apply putPlace_k
    | with_reducible rfl
    | split
    | with_reducible intro _
    | dsimp only

theorem markNan_k {s0 : State} (s : State) (slot node layer : Nat) (hK : Keeps s0 s) : Keeps s0 (State.markNan s slot node layer) := by
  unfold State.markNan
  repeat' first
    | with_reducible assumption
    | with_reducible apply onPlan_k
    | with_reducible rfl
    | split
    | with_reducible intro _
    | dsimp only

theorem entryStats_k {s0 : State} (r : EntryConv) (tslot : Nat) (f : CacheFmt) (ex : Byte) (cb : List Byte) (x : List U32) (c : List Byte × U16 × Bool) (s : State) (hK : Keeps s0 s) : Keeps s0 (entryStats r tslot f ex cb x c s) := by
  unfold entryStats
  repeat' first
    | with_reducible assumption
    | with_reducible apply convStats_k
    | with_reducible rfl
    | split
    | with_reducible intro _
    | dsimp only

theorem appendEntry_k {s0 : State} (s : State) (stack : Nat) (e : AppendEntry) (hK : Keeps s0 s) : Keeps s0 (State.appendEntry s stack e) := by
  unfold State.appendEntry
  repeat' first
    | with_reducible assumption
    | with_reducible apply keeps_foldl
    | with_reducible apply keeps_foldl_fst
    | with_reducible apply writeEntry_k
    | with_reducible apply modBcl_k
    | with_reducible rfl
    | split
    | with_reducible intro _
    | dsimp only

theorem runEntry_k {s0 : State} (r : EntryConv) (s : State) (hK : Keeps s0 s) : Keeps s0 (runEntry r s) := by
  unfold runEntry
  repeat' first
    | with_reducible assumption
    | with_reducible apply appendEntry_k
    | with_reducible apply markNan_k
    | with_reducible apply onPlan_k
    | with_reducible apply entryStats_k
    | with_reducible rfl
    | split
    | with_reducible intro _
    | dsimp only

theorem runQuery_k {s0 : State} (r : QueryConv) (s : State) (hK : Keeps s0 s) : Keeps s0 (runQuery r s) := by
  unfold runQuery
  repeat' first
    | with_reducible assumption
    | with_reducible apply markNan_k
    | with_reducible apply putPlace_k
    | with_reducible apply convStats_k
    | with_reducible rfl
    | split
    | with_reducible intro _
    | dsimp only

theorem runLogits_k {s0 : State} (r : LogitRun) (job : Nat) (s : State) (hK : Keeps s0 s) : Keeps s0 (runLogits r job s) := by
  unfold runLogits
  repeat' first
    | with_reducible assumption
    | with_reducible apply putRecord_k
    | with_reducible apply putStore_k
    | with_reducible apply jobFault_k
    | with_reducible apply keepsE_need
    | with_reducible apply keepsE_bindS
    | with_reducible apply keepsE_bind
    | with_reducible apply keepsE_okS
    | with_reducible apply keepsE_ok
    | with_reducible apply keepsE_error
    | with_reducible rfl
    | split
    | with_reducible intro _
    | dsimp only

theorem execVectorChain_k {s0 : State} (op : VecOp) (s : State) (hK : Keeps s0 s) : KeepsO s0 (execVectorChain op s) := by
  unfold execVectorChain
  repeat' first
    | with_reducible assumption
    | with_reducible apply keepsO_next
    | with_reducible apply engineRun_k
    | with_reducible apply runChain_k
    | with_reducible apply jobFault_k
    | with_reducible apply putPlace_k
    | with_reducible apply runEntry_k
    | with_reducible apply runQuery_k
    | with_reducible apply runLogits_k
    | with_reducible apply keepsE_need
    | with_reducible apply keepsE_bindS
    | with_reducible apply keepsE_bind
    | with_reducible apply keepsE_okS
    | with_reducible apply keepsE_ok
    | with_reducible apply keepsE_error
    | with_reducible rfl
    | split
    | with_reducible intro _
    | dsimp only

theorem execFunctionTableLoad_k {s0 : State} (engine job table : Nat) (bytes : List (BitVec 8)) (s : State) (hK : Keeps s0 s) : KeepsO s0 (execFunctionTableLoad engine job table bytes s) := by
  unfold execFunctionTableLoad
  repeat' first
    | with_reducible assumption
    | with_reducible apply keepsO_next
    | with_reducible apply modEngine_k
    | with_reducible rfl
    | split
    | with_reducible intro _
    | dsimp only

theorem reduceRow_k {s0 : State} (job : Nat) (addrs : List Nat) (residual n : Nat) (s : State) (hK : Keeps s0 s) : Keeps s0 (reduceRow job addrs residual n s) := by
  unfold reduceRow
  repeat' first
    | with_reducible assumption
    | with_reducible apply keeps_foldl
    | with_reducible apply keeps_foldl_fst
    | with_reducible apply jobReads_k
    | with_reducible apply putStore_k
    | with_reducible rfl
    | split
    | with_reducible intro _
    | dsimp only

theorem execRowReduction_k {s0 : State} (job sem : Nat) (sources addrs : List Nat) (residual n : Nat) (s : State) (hK : Keeps s0 s) : KeepsO s0 (execRowReduction job sem sources addrs residual n s) := by
  unfold execRowReduction
  repeat' first
    | with_reducible assumption
    | with_reducible apply keepsO_next
    | with_reducible apply reduceRow_k
    | with_reducible apply onStore_k
    | with_reducible apply jobFault_k
    | with_reducible rfl
    | split
    | with_reducible intro _
    | dsimp only

end Sys2Proof.Laws
end

