-- ==== Sys2Proof/Laws/Ops.lean ====
section
/-! SUPPORT. What the shared operations of Machine/Ops.lean do: when a command's body runs and what its checks answer, and, field by
field, what each operation leaves alone. -/

namespace Sys2Proof.Laws

open Sys2Proof Sys2Proof.Machine

/-! ## Commands -/

/-- A class-I command that is outstanding runs its body, in its turn. -/
theorem runI_asked {s : State} {mb op : Nat} {c : MbCommand} (f : MbCommand → State → Except Nat (State × List Byte))
    (h : s.cmdAt mb [op] = some c) (hu : s.sceolUp = true) (ht : turnOf s (askedCommands s) c = true) :
    runI s mb op f = answer s c (f c s) := by
  simp [runI, h, hu, ht]

/-- A class-T command whose turn it is in its commit window runs its body. -/
theorem runT_due {s : State} {mb op : Nat} {c : MbCommand} (f : MbCommand → State → Except Nat (State × List Byte))
    (h : s.cmdAt mb [op] = some c) (hu : s.sceolUp = true) (ht : firstDue s c = true) :
    runT s mb op f = answer s.begin c (f c s.begin) := by
  simp [runT, h, hu, ht]

/-- A class-L command whose turn it is to start is its body's state, or completes with the check that failed. -/
theorem runL_fresh {s : State} {mb op : Nat} {c : MbCommand} (f : MbCommand → State → Except Nat State)
    (h : s.cmdAt mb [op] = some c) (hu : s.sceolUp = true) (ht : firstDue s c = true) :
    runL s mb op f = match f c s.begin with | .ok t => t | .error e => s.begin.complete c e [] := by
  simp only [runL, h, hu, ht, Bool.and_self, if_true]
  all_goals rfl

@[simp] theorem need_true (e : Nat) : need true e = .ok () := rfl
@[simp] theorem need_false (e : Nat) : need false e = .error e := rfl
theorem need_of {b : Bool} {e : Nat} (h : b = true) : need b e = .ok () := by rw [h]; rfl
theorem need_not {b : Bool} {e : Nat} (h : b = false) : need b e = .error e := by rw [h]; rfl
@[simp] theorem ok_bind {α β : Type} (a : α) (f : α → Except Nat β) : (Except.ok a >>= f) = f a := rfl
@[simp] theorem error_bind {α β : Type} (e : Nat) (f : α → Except Nat β) : ((Except.error e : Except Nat α) >>= f) = .error e := rfl
@[simp] theorem answer_ok (s : State) (c : MbCommand) (t : State) (d : List Byte) : answer s c (.ok (t, d)) = t.complete c St.ok d := rfl
@[simp] theorem answer_error (s : State) (c : MbCommand) (e : Nat) : answer s c (.error e) = s.complete c e [] := rfl

/-! ## Fields that an operation leaves alone -/

@[simp] theorem sendVector_variant (s : State) (v p : Nat) : (s.sendVector v p).variant = s.variant := by unfold State.sendVector; split <;> rfl
@[simp] theorem sendVector_start (s : State) (v p : Nat) : (s.sendVector v p).start = s.start := by unfold State.sendVector; split <;> rfl
@[simp] theorem sendVector_power (s : State) (v p : Nat) : (s.sendVector v p).power = s.power := by unfold State.sendVector; split <;> rfl
@[simp] theorem sendVector_tick (s : State) (v p : Nat) : (s.sendVector v p).tick = s.tick := by unfold State.sendVector; split <;> rfl
@[simp] theorem sendVector_req (s : State) (v p : Nat) : (s.sendVector v p).req = s.req := by unfold State.sendVector; split <;> rfl
@[simp] theorem sendVector_cfg (s : State) (v p : Nat) : (s.sendVector v p).cfg = s.cfg := by unfold State.sendVector; split <;> rfl
@[simp] theorem sendVector_cfgNext (s : State) (v p : Nat) : (s.sendVector v p).cfgNext = s.cfgNext := by unfold State.sendVector; split <;> rfl
@[simp] theorem sendVector_mb (s : State) (v p : Nat) : (s.sendVector v p).mb = s.mb := by unfold State.sendVector; split <;> rfl
@[simp] theorem sendVector_plan (s : State) (v p : Nat) : (s.sendVector v p).plan = s.plan := by unfold State.sendVector; split <;> rfl
@[simp] theorem sendVector_banks (s : State) (v p : Nat) : (s.sendVector v p).banks = s.banks := by unfold State.sendVector; split <;> rfl
@[simp] theorem sendVector_matrix (s : State) (v p : Nat) : (s.sendVector v p).matrix = s.matrix := by unfold State.sendVector; split <;> rfl
@[simp] theorem sendVector_store (s : State) (v p : Nat) : (s.sendVector v p).store = s.store := by unfold State.sendVector; split <;> rfl
@[simp] theorem sendVector_tier (s : State) (v p : Nat) : (s.sendVector v p).tier = s.tier := by unfold State.sendVector; split <;> rfl
@[simp] theorem sendVector_models (s : State) (v p : Nat) : (s.sendVector v p).models = s.models := by unfold State.sendVector; split <;> rfl
@[simp] theorem sendVector_gelcon (s : State) (v p : Nat) : (s.sendVector v p).gelcon = s.gelcon := by unfold State.sendVector; split <;> rfl
@[simp] theorem sendVector_faults (s : State) (v p : Nat) : (s.sendVector v p).faults = s.faults := by unfold State.sendVector; split <;> rfl
@[simp] theorem sendVector_tel (s : State) (v p : Nat) : (s.sendVector v p).tel = s.tel := by unfold State.sendVector; split <;> rfl
@[simp] theorem sendVector_mem (s : State) (v p : Nat) : (s.sendVector v p).mem = s.mem := by unfold State.sendVector; split <;> rfl
@[simp] theorem sendVector_reply (s : State) (v p : Nat) : (s.sendVector v p).reply = s.reply := by unfold State.sendVector; split <;> rfl
@[simp] theorem sendVector_pending (s : State) (v p : Nat) : (s.sendVector v p).pending = s.pending := by unfold State.sendVector; split <;> rfl
@[simp] theorem sendVector_freeCtr (s : State) (v p : Nat) : (s.sendVector v p).freeCtr = s.freeCtr := by unfold State.sendVector; split <;> rfl

@[simp] theorem raiseVector_variant (s : State) (v p : Nat) : (s.raiseVector v p).variant = s.variant := by unfold State.raiseVector; split <;> (try split) <;> (try split) <;> simp
@[simp] theorem raiseVector_start (s : State) (v p : Nat) : (s.raiseVector v p).start = s.start := by unfold State.raiseVector; split <;> (try split) <;> (try split) <;> simp
@[simp] theorem raiseVector_power (s : State) (v p : Nat) : (s.raiseVector v p).power = s.power := by unfold State.raiseVector; split <;> (try split) <;> (try split) <;> simp
@[simp] theorem raiseVector_tick (s : State) (v p : Nat) : (s.raiseVector v p).tick = s.tick := by unfold State.raiseVector; split <;> (try split) <;> (try split) <;> simp
@[simp] theorem raiseVector_req (s : State) (v p : Nat) : (s.raiseVector v p).req = s.req := by unfold State.raiseVector; split <;> (try split) <;> (try split) <;> simp
@[simp] theorem raiseVector_cfg (s : State) (v p : Nat) : (s.raiseVector v p).cfg = s.cfg := by unfold State.raiseVector; split <;> (try split) <;> (try split) <;> simp
@[simp] theorem raiseVector_cfgNext (s : State) (v p : Nat) : (s.raiseVector v p).cfgNext = s.cfgNext := by unfold State.raiseVector; split <;> (try split) <;> (try split) <;> simp
@[simp] theorem raiseVector_mb (s : State) (v p : Nat) : (s.raiseVector v p).mb = s.mb := by unfold State.raiseVector; split <;> (try split) <;> (try split) <;> simp
@[simp] theorem raiseVector_plan (s : State) (v p : Nat) : (s.raiseVector v p).plan = s.plan := by unfold State.raiseVector; split <;> (try split) <;> (try split) <;> simp
@[simp] theorem raiseVector_banks (s : State) (v p : Nat) : (s.raiseVector v p).banks = s.banks := by unfold State.raiseVector; split <;> (try split) <;> (try split) <;> simp
@[simp] theorem raiseVector_matrix (s : State) (v p : Nat) : (s.raiseVector v p).matrix = s.matrix := by unfold State.raiseVector; split <;> (try split) <;> (try split) <;> simp
@[simp] theorem raiseVector_store (s : State) (v p : Nat) : (s.raiseVector v p).store = s.store := by unfold State.raiseVector; split <;> (try split) <;> (try split) <;> simp
@[simp] theorem raiseVector_tier (s : State) (v p : Nat) : (s.raiseVector v p).tier = s.tier := by unfold State.raiseVector; split <;> (try split) <;> (try split) <;> simp
@[simp] theorem raiseVector_models (s : State) (v p : Nat) : (s.raiseVector v p).models = s.models := by unfold State.raiseVector; split <;> (try split) <;> (try split) <;> simp
@[simp] theorem raiseVector_gelcon (s : State) (v p : Nat) : (s.raiseVector v p).gelcon = s.gelcon := by unfold State.raiseVector; split <;> (try split) <;> (try split) <;> simp
@[simp] theorem raiseVector_faults (s : State) (v p : Nat) : (s.raiseVector v p).faults = s.faults := by unfold State.raiseVector; split <;> (try split) <;> (try split) <;> simp
@[simp] theorem raiseVector_tel (s : State) (v p : Nat) : (s.raiseVector v p).tel = s.tel := by unfold State.raiseVector; split <;> (try split) <;> (try split) <;> simp
@[simp] theorem raiseVector_mem (s : State) (v p : Nat) : (s.raiseVector v p).mem = s.mem := by unfold State.raiseVector; split <;> (try split) <;> (try split) <;> simp
@[simp] theorem raiseVector_reply (s : State) (v p : Nat) : (s.raiseVector v p).reply = s.reply := by unfold State.raiseVector; split <;> (try split) <;> (try split) <;> simp
@[simp] theorem raiseVector_pending (s : State) (v p : Nat) : (s.raiseVector v p).pending = s.pending := by unfold State.raiseVector; split <;> (try split) <;> (try split) <;> simp
@[simp] theorem raiseVector_freeCtr (s : State) (v p : Nat) : (s.raiseVector v p).freeCtr = s.freeCtr := by unfold State.raiseVector; split <;> (try split) <;> (try split) <;> simp

@[simp] theorem raiseLow_variant (s : State) (v : Nat) : (s.raiseLow v).variant = s.variant := by simp [State.raiseLow]
@[simp] theorem raiseLow_start (s : State) (v : Nat) : (s.raiseLow v).start = s.start := by simp [State.raiseLow]
@[simp] theorem raiseLow_power (s : State) (v : Nat) : (s.raiseLow v).power = s.power := by simp [State.raiseLow]
@[simp] theorem raiseLow_tick (s : State) (v : Nat) : (s.raiseLow v).tick = s.tick := by simp [State.raiseLow]
@[simp] theorem raiseLow_req (s : State) (v : Nat) : (s.raiseLow v).req = s.req := by simp [State.raiseLow]
@[simp] theorem raiseLow_cfg (s : State) (v : Nat) : (s.raiseLow v).cfg = s.cfg := by simp [State.raiseLow]
@[simp] theorem raiseLow_cfgNext (s : State) (v : Nat) : (s.raiseLow v).cfgNext = s.cfgNext := by simp [State.raiseLow]
@[simp] theorem raiseLow_mb (s : State) (v : Nat) : (s.raiseLow v).mb = s.mb := by simp [State.raiseLow]
@[simp] theorem raiseLow_plan (s : State) (v : Nat) : (s.raiseLow v).plan = s.plan := by simp [State.raiseLow]
@[simp] theorem raiseLow_banks (s : State) (v : Nat) : (s.raiseLow v).banks = s.banks := by simp [State.raiseLow]
@[simp] theorem raiseLow_matrix (s : State) (v : Nat) : (s.raiseLow v).matrix = s.matrix := by simp [State.raiseLow]
@[simp] theorem raiseLow_store (s : State) (v : Nat) : (s.raiseLow v).store = s.store := by simp [State.raiseLow]
@[simp] theorem raiseLow_tier (s : State) (v : Nat) : (s.raiseLow v).tier = s.tier := by simp [State.raiseLow]
@[simp] theorem raiseLow_models (s : State) (v : Nat) : (s.raiseLow v).models = s.models := by simp [State.raiseLow]
@[simp] theorem raiseLow_gelcon (s : State) (v : Nat) : (s.raiseLow v).gelcon = s.gelcon := by simp [State.raiseLow]
@[simp] theorem raiseLow_faults (s : State) (v : Nat) : (s.raiseLow v).faults = s.faults := by simp [State.raiseLow]
@[simp] theorem raiseLow_tel (s : State) (v : Nat) : (s.raiseLow v).tel = s.tel := by simp [State.raiseLow]
@[simp] theorem raiseLow_mem (s : State) (v : Nat) : (s.raiseLow v).mem = s.mem := by simp [State.raiseLow]
@[simp] theorem raiseLow_reply (s : State) (v : Nat) : (s.raiseLow v).reply = s.reply := by simp [State.raiseLow]
@[simp] theorem raiseLow_pending (s : State) (v : Nat) : (s.raiseLow v).pending = s.pending := by simp [State.raiseLow]
@[simp] theorem raiseLow_freeCtr (s : State) (v : Nat) : (s.raiseLow v).freeCtr = s.freeCtr := by simp [State.raiseLow]

@[simp] theorem postEvent_variant (s : State) (x a b : Nat) : (s.postEvent x a b).variant = s.variant := by simp [State.postEvent]
@[simp] theorem postEvent_start (s : State) (x a b : Nat) : (s.postEvent x a b).start = s.start := by simp [State.postEvent]
@[simp] theorem postEvent_power (s : State) (x a b : Nat) : (s.postEvent x a b).power = s.power := by simp [State.postEvent]
@[simp] theorem postEvent_tick (s : State) (x a b : Nat) : (s.postEvent x a b).tick = s.tick := by simp [State.postEvent]
@[simp] theorem postEvent_req (s : State) (x a b : Nat) : (s.postEvent x a b).req = s.req := by simp [State.postEvent]
@[simp] theorem postEvent_cfg (s : State) (x a b : Nat) : (s.postEvent x a b).cfg = s.cfg := by simp [State.postEvent]
@[simp] theorem postEvent_cfgNext (s : State) (x a b : Nat) : (s.postEvent x a b).cfgNext = s.cfgNext := by simp [State.postEvent]
@[simp] theorem postEvent_plan (s : State) (x a b : Nat) : (s.postEvent x a b).plan = s.plan := by simp [State.postEvent]
@[simp] theorem postEvent_banks (s : State) (x a b : Nat) : (s.postEvent x a b).banks = s.banks := by simp [State.postEvent]
@[simp] theorem postEvent_matrix (s : State) (x a b : Nat) : (s.postEvent x a b).matrix = s.matrix := by simp [State.postEvent]
@[simp] theorem postEvent_store (s : State) (x a b : Nat) : (s.postEvent x a b).store = s.store := by simp [State.postEvent]
@[simp] theorem postEvent_tier (s : State) (x a b : Nat) : (s.postEvent x a b).tier = s.tier := by simp [State.postEvent]
@[simp] theorem postEvent_models (s : State) (x a b : Nat) : (s.postEvent x a b).models = s.models := by simp [State.postEvent]
@[simp] theorem postEvent_gelcon (s : State) (x a b : Nat) : (s.postEvent x a b).gelcon = s.gelcon := by simp [State.postEvent]
@[simp] theorem postEvent_faults (s : State) (x a b : Nat) : (s.postEvent x a b).faults = s.faults := by simp [State.postEvent]
@[simp] theorem postEvent_tel (s : State) (x a b : Nat) : (s.postEvent x a b).tel = s.tel := by simp [State.postEvent]
@[simp] theorem postEvent_mem (s : State) (x a b : Nat) : (s.postEvent x a b).mem = s.mem := by simp [State.postEvent]
@[simp] theorem postEvent_reply (s : State) (x a b : Nat) : (s.postEvent x a b).reply = s.reply := by simp [State.postEvent]
@[simp] theorem postEvent_pending (s : State) (x a b : Nat) : (s.postEvent x a b).pending = s.pending := by simp [State.postEvent]
@[simp] theorem postEvent_freeCtr (s : State) (x a b : Nat) : (s.postEvent x a b).freeCtr = s.freeCtr := by simp [State.postEvent]

@[simp] theorem capChanged_variant (s : State) : (s.capChanged).variant = s.variant := by simp [State.capChanged]
@[simp] theorem capChanged_start (s : State) : (s.capChanged).start = s.start := by simp [State.capChanged]
@[simp] theorem capChanged_power (s : State) : (s.capChanged).power = s.power := by simp [State.capChanged]
@[simp] theorem capChanged_tick (s : State) : (s.capChanged).tick = s.tick := by simp [State.capChanged]
@[simp] theorem capChanged_req (s : State) : (s.capChanged).req = s.req := by simp [State.capChanged]
@[simp] theorem capChanged_cfg (s : State) : (s.capChanged).cfg = s.cfg := by simp [State.capChanged]
@[simp] theorem capChanged_cfgNext (s : State) : (s.capChanged).cfgNext = s.cfgNext := by simp [State.capChanged]
@[simp] theorem capChanged_plan (s : State) : (s.capChanged).plan = s.plan := by simp [State.capChanged]
@[simp] theorem capChanged_banks (s : State) : (s.capChanged).banks = s.banks := by simp [State.capChanged]
@[simp] theorem capChanged_matrix (s : State) : (s.capChanged).matrix = s.matrix := by simp [State.capChanged]
@[simp] theorem capChanged_store (s : State) : (s.capChanged).store = s.store := by simp [State.capChanged]
@[simp] theorem capChanged_tier (s : State) : (s.capChanged).tier = s.tier := by simp [State.capChanged]
@[simp] theorem capChanged_models (s : State) : (s.capChanged).models = s.models := by simp [State.capChanged]
@[simp] theorem capChanged_gelcon (s : State) : (s.capChanged).gelcon = s.gelcon := by simp [State.capChanged]
@[simp] theorem capChanged_faults (s : State) : (s.capChanged).faults = s.faults := by simp [State.capChanged]
@[simp] theorem capChanged_tel (s : State) : (s.capChanged).tel = s.tel := by simp [State.capChanged]
@[simp] theorem capChanged_mem (s : State) : (s.capChanged).mem = s.mem := by simp [State.capChanged]
@[simp] theorem capChanged_reply (s : State) : (s.capChanged).reply = s.reply := by simp [State.capChanged]
@[simp] theorem capChanged_pending (s : State) : (s.capChanged).pending = s.pending := by simp [State.capChanged]
@[simp] theorem capChanged_freeCtr (s : State) : (s.capChanged).freeCtr = s.freeCtr := by simp [State.capChanged]

@[simp] theorem misuse_variant (s : State) (a v x p n : Nat) : (s.misuse a v x p n).variant = s.variant := by simp [State.misuse]
@[simp] theorem misuse_start (s : State) (a v x p n : Nat) : (s.misuse a v x p n).start = s.start := by simp [State.misuse]
@[simp] theorem misuse_power (s : State) (a v x p n : Nat) : (s.misuse a v x p n).power = s.power := by simp [State.misuse]
@[simp] theorem misuse_tick (s : State) (a v x p n : Nat) : (s.misuse a v x p n).tick = s.tick := by simp [State.misuse]
@[simp] theorem misuse_req (s : State) (a v x p n : Nat) : (s.misuse a v x p n).req = s.req := by simp [State.misuse]
@[simp] theorem misuse_cfg (s : State) (a v x p n : Nat) : (s.misuse a v x p n).cfg = s.cfg := by simp [State.misuse]
@[simp] theorem misuse_cfgNext (s : State) (a v x p n : Nat) : (s.misuse a v x p n).cfgNext = s.cfgNext := by simp [State.misuse]
@[simp] theorem misuse_plan (s : State) (a v x p n : Nat) : (s.misuse a v x p n).plan = s.plan := by simp [State.misuse]
@[simp] theorem misuse_banks (s : State) (a v x p n : Nat) : (s.misuse a v x p n).banks = s.banks := by simp [State.misuse]
@[simp] theorem misuse_matrix (s : State) (a v x p n : Nat) : (s.misuse a v x p n).matrix = s.matrix := by simp [State.misuse]
@[simp] theorem misuse_store (s : State) (a v x p n : Nat) : (s.misuse a v x p n).store = s.store := by simp [State.misuse]
@[simp] theorem misuse_tier (s : State) (a v x p n : Nat) : (s.misuse a v x p n).tier = s.tier := by simp [State.misuse]
@[simp] theorem misuse_models (s : State) (a v x p n : Nat) : (s.misuse a v x p n).models = s.models := by simp [State.misuse]
@[simp] theorem misuse_gelcon (s : State) (a v x p n : Nat) : (s.misuse a v x p n).gelcon = s.gelcon := by simp [State.misuse]
@[simp] theorem misuse_faults (s : State) (a v x p n : Nat) : (s.misuse a v x p n).faults = s.faults := by simp [State.misuse]
@[simp] theorem misuse_tel (s : State) (a v x p n : Nat) : (s.misuse a v x p n).tel = s.tel := by simp [State.misuse]
@[simp] theorem misuse_mem (s : State) (a v x p n : Nat) : (s.misuse a v x p n).mem = s.mem := by simp [State.misuse]
@[simp] theorem misuse_reply (s : State) (a v x p n : Nat) : (s.misuse a v x p n).reply = s.reply := by simp [State.misuse]
@[simp] theorem misuse_pending (s : State) (a v x p n : Nat) : (s.misuse a v x p n).pending = s.pending := by simp [State.misuse]
@[simp] theorem misuse_freeCtr (s : State) (a v x p n : Nat) : (s.misuse a v x p n).freeCtr = s.freeCtr := by simp [State.misuse]

@[simp] theorem translate_variant (s : State) (p a n : Nat) : (s.translate p a n).variant = s.variant := by simp [State.translate, State.modHport]
@[simp] theorem translate_start (s : State) (p a n : Nat) : (s.translate p a n).start = s.start := by simp [State.translate, State.modHport]
@[simp] theorem translate_power (s : State) (p a n : Nat) : (s.translate p a n).power = s.power := by simp [State.translate, State.modHport]
@[simp] theorem translate_tick (s : State) (p a n : Nat) : (s.translate p a n).tick = s.tick := by simp [State.translate, State.modHport]
@[simp] theorem translate_req (s : State) (p a n : Nat) : (s.translate p a n).req = s.req := by simp [State.translate, State.modHport]
@[simp] theorem translate_cfg (s : State) (p a n : Nat) : (s.translate p a n).cfg = s.cfg := by simp [State.translate, State.modHport]
@[simp] theorem translate_cfgNext (s : State) (p a n : Nat) : (s.translate p a n).cfgNext = s.cfgNext := by simp [State.translate, State.modHport]
@[simp] theorem translate_mb (s : State) (p a n : Nat) : (s.translate p a n).mb = s.mb := by simp [State.translate, State.modHport]
@[simp] theorem translate_plan (s : State) (p a n : Nat) : (s.translate p a n).plan = s.plan := by simp [State.translate, State.modHport]
@[simp] theorem translate_banks (s : State) (p a n : Nat) : (s.translate p a n).banks = s.banks := by simp [State.translate, State.modHport]
@[simp] theorem translate_matrix (s : State) (p a n : Nat) : (s.translate p a n).matrix = s.matrix := by simp [State.translate, State.modHport]
@[simp] theorem translate_store (s : State) (p a n : Nat) : (s.translate p a n).store = s.store := by simp [State.translate, State.modHport]
@[simp] theorem translate_tier (s : State) (p a n : Nat) : (s.translate p a n).tier = s.tier := by simp [State.translate, State.modHport]
@[simp] theorem translate_models (s : State) (p a n : Nat) : (s.translate p a n).models = s.models := by simp [State.translate, State.modHport]
@[simp] theorem translate_gelcon (s : State) (p a n : Nat) : (s.translate p a n).gelcon = s.gelcon := by simp [State.translate, State.modHport]
@[simp] theorem translate_faults (s : State) (p a n : Nat) : (s.translate p a n).faults = s.faults := by simp [State.translate, State.modHport]
@[simp] theorem translate_tel (s : State) (p a n : Nat) : (s.translate p a n).tel = s.tel := by simp [State.translate, State.modHport]
@[simp] theorem translate_mem (s : State) (p a n : Nat) : (s.translate p a n).mem = s.mem := by simp [State.translate, State.modHport]
@[simp] theorem translate_reply (s : State) (p a n : Nat) : (s.translate p a n).reply = s.reply := by simp [State.translate, State.modHport]
@[simp] theorem translate_pending (s : State) (p a n : Nat) : (s.translate p a n).pending = s.pending := by simp [State.translate, State.modHport]
@[simp] theorem translate_freeCtr (s : State) (p a n : Nat) : (s.translate p a n).freeCtr = s.freeCtr := by simp [State.translate, State.modHport]

@[simp] theorem hostRead_variant (s : State) (p a n : Nat) : (s.hostRead p a n).variant = s.variant := by unfold State.hostRead; split <;> simp
@[simp] theorem hostRead_start (s : State) (p a n : Nat) : (s.hostRead p a n).start = s.start := by unfold State.hostRead; split <;> simp
@[simp] theorem hostRead_power (s : State) (p a n : Nat) : (s.hostRead p a n).power = s.power := by unfold State.hostRead; split <;> simp
@[simp] theorem hostRead_tick (s : State) (p a n : Nat) : (s.hostRead p a n).tick = s.tick := by unfold State.hostRead; split <;> simp
@[simp] theorem hostRead_req (s : State) (p a n : Nat) : (s.hostRead p a n).req = s.req := by unfold State.hostRead; split <;> simp
@[simp] theorem hostRead_cfg (s : State) (p a n : Nat) : (s.hostRead p a n).cfg = s.cfg := by unfold State.hostRead; split <;> simp
@[simp] theorem hostRead_cfgNext (s : State) (p a n : Nat) : (s.hostRead p a n).cfgNext = s.cfgNext := by unfold State.hostRead; split <;> simp
@[simp] theorem hostRead_mb (s : State) (p a n : Nat) : (s.hostRead p a n).mb = s.mb := by unfold State.hostRead; split <;> simp
@[simp] theorem hostRead_plan (s : State) (p a n : Nat) : (s.hostRead p a n).plan = s.plan := by unfold State.hostRead; split <;> simp
@[simp] theorem hostRead_banks (s : State) (p a n : Nat) : (s.hostRead p a n).banks = s.banks := by unfold State.hostRead; split <;> simp
@[simp] theorem hostRead_matrix (s : State) (p a n : Nat) : (s.hostRead p a n).matrix = s.matrix := by unfold State.hostRead; split <;> simp
@[simp] theorem hostRead_store (s : State) (p a n : Nat) : (s.hostRead p a n).store = s.store := by unfold State.hostRead; split <;> simp
@[simp] theorem hostRead_tier (s : State) (p a n : Nat) : (s.hostRead p a n).tier = s.tier := by unfold State.hostRead; split <;> simp
@[simp] theorem hostRead_models (s : State) (p a n : Nat) : (s.hostRead p a n).models = s.models := by unfold State.hostRead; split <;> simp
@[simp] theorem hostRead_gelcon (s : State) (p a n : Nat) : (s.hostRead p a n).gelcon = s.gelcon := by unfold State.hostRead; split <;> simp
@[simp] theorem hostRead_faults (s : State) (p a n : Nat) : (s.hostRead p a n).faults = s.faults := by unfold State.hostRead; split <;> simp
@[simp] theorem hostRead_tel (s : State) (p a n : Nat) : (s.hostRead p a n).tel = s.tel := by unfold State.hostRead; split <;> simp
@[simp] theorem hostRead_mem (s : State) (p a n : Nat) : (s.hostRead p a n).mem = s.mem := by unfold State.hostRead; split <;> simp
@[simp] theorem hostRead_reply (s : State) (p a n : Nat) : (s.hostRead p a n).reply = s.reply := by unfold State.hostRead; split <;> simp
@[simp] theorem hostRead_pending (s : State) (p a n : Nat) : (s.hostRead p a n).pending = s.pending := by unfold State.hostRead; split <;> simp
@[simp] theorem hostRead_freeCtr (s : State) (p a n : Nat) : (s.hostRead p a n).freeCtr = s.freeCtr := by unfold State.hostRead; split <;> simp

@[simp] theorem issue_variant (s : State) (w : HostWrite) : (s.issue w).variant = s.variant := by unfold State.issue; split <;> simp
@[simp] theorem issue_start (s : State) (w : HostWrite) : (s.issue w).start = s.start := by unfold State.issue; split <;> simp
@[simp] theorem issue_power (s : State) (w : HostWrite) : (s.issue w).power = s.power := by unfold State.issue; split <;> simp
@[simp] theorem issue_tick (s : State) (w : HostWrite) : (s.issue w).tick = s.tick := by unfold State.issue; split <;> simp
@[simp] theorem issue_req (s : State) (w : HostWrite) : (s.issue w).req = s.req := by unfold State.issue; split <;> simp
@[simp] theorem issue_cfg (s : State) (w : HostWrite) : (s.issue w).cfg = s.cfg := by unfold State.issue; split <;> simp
@[simp] theorem issue_cfgNext (s : State) (w : HostWrite) : (s.issue w).cfgNext = s.cfgNext := by unfold State.issue; split <;> simp
@[simp] theorem issue_mb (s : State) (w : HostWrite) : (s.issue w).mb = s.mb := by unfold State.issue; split <;> simp
@[simp] theorem issue_plan (s : State) (w : HostWrite) : (s.issue w).plan = s.plan := by unfold State.issue; split <;> simp
@[simp] theorem issue_banks (s : State) (w : HostWrite) : (s.issue w).banks = s.banks := by unfold State.issue; split <;> simp
@[simp] theorem issue_matrix (s : State) (w : HostWrite) : (s.issue w).matrix = s.matrix := by unfold State.issue; split <;> simp
@[simp] theorem issue_store (s : State) (w : HostWrite) : (s.issue w).store = s.store := by unfold State.issue; split <;> simp
@[simp] theorem issue_tier (s : State) (w : HostWrite) : (s.issue w).tier = s.tier := by unfold State.issue; split <;> simp
@[simp] theorem issue_models (s : State) (w : HostWrite) : (s.issue w).models = s.models := by unfold State.issue; split <;> simp
@[simp] theorem issue_gelcon (s : State) (w : HostWrite) : (s.issue w).gelcon = s.gelcon := by unfold State.issue; split <;> simp
@[simp] theorem issue_faults (s : State) (w : HostWrite) : (s.issue w).faults = s.faults := by unfold State.issue; split <;> simp
@[simp] theorem issue_tel (s : State) (w : HostWrite) : (s.issue w).tel = s.tel := by unfold State.issue; split <;> simp
@[simp] theorem issue_mem (s : State) (w : HostWrite) : (s.issue w).mem = s.mem := by unfold State.issue; split <;> simp
@[simp] theorem issue_reply (s : State) (w : HostWrite) : (s.issue w).reply = s.reply := by unfold State.issue; split <;> simp
@[simp] theorem issue_pending (s : State) (w : HostWrite) : (s.issue w).pending = s.pending := by unfold State.issue; split <;> simp
@[simp] theorem issue_freeCtr (s : State) (w : HostWrite) : (s.issue w).freeCtr = s.freeCtr := by unfold State.issue; split <;> simp

@[simp] theorem hostWrite_variant (s : State) (p a n : Nat) (bs : List Byte) : (s.hostWrite p a n bs).variant = s.variant := by simp [State.hostWrite]
@[simp] theorem hostWrite_start (s : State) (p a n : Nat) (bs : List Byte) : (s.hostWrite p a n bs).start = s.start := by simp [State.hostWrite]
@[simp] theorem hostWrite_power (s : State) (p a n : Nat) (bs : List Byte) : (s.hostWrite p a n bs).power = s.power := by simp [State.hostWrite]
@[simp] theorem hostWrite_tick (s : State) (p a n : Nat) (bs : List Byte) : (s.hostWrite p a n bs).tick = s.tick := by simp [State.hostWrite]
@[simp] theorem hostWrite_cfg (s : State) (p a n : Nat) (bs : List Byte) : (s.hostWrite p a n bs).cfg = s.cfg := by simp [State.hostWrite]
@[simp] theorem hostWrite_cfgNext (s : State) (p a n : Nat) (bs : List Byte) : (s.hostWrite p a n bs).cfgNext = s.cfgNext := by simp [State.hostWrite]
@[simp] theorem hostWrite_mb (s : State) (p a n : Nat) (bs : List Byte) : (s.hostWrite p a n bs).mb = s.mb := by simp [State.hostWrite]
@[simp] theorem hostWrite_plan (s : State) (p a n : Nat) (bs : List Byte) : (s.hostWrite p a n bs).plan = s.plan := by simp [State.hostWrite]
@[simp] theorem hostWrite_banks (s : State) (p a n : Nat) (bs : List Byte) : (s.hostWrite p a n bs).banks = s.banks := by simp [State.hostWrite]
@[simp] theorem hostWrite_matrix (s : State) (p a n : Nat) (bs : List Byte) : (s.hostWrite p a n bs).matrix = s.matrix := by simp [State.hostWrite]
@[simp] theorem hostWrite_store (s : State) (p a n : Nat) (bs : List Byte) : (s.hostWrite p a n bs).store = s.store := by simp [State.hostWrite]
@[simp] theorem hostWrite_tier (s : State) (p a n : Nat) (bs : List Byte) : (s.hostWrite p a n bs).tier = s.tier := by simp [State.hostWrite]
@[simp] theorem hostWrite_models (s : State) (p a n : Nat) (bs : List Byte) : (s.hostWrite p a n bs).models = s.models := by simp [State.hostWrite]
@[simp] theorem hostWrite_gelcon (s : State) (p a n : Nat) (bs : List Byte) : (s.hostWrite p a n bs).gelcon = s.gelcon := by simp [State.hostWrite]
@[simp] theorem hostWrite_faults (s : State) (p a n : Nat) (bs : List Byte) : (s.hostWrite p a n bs).faults = s.faults := by simp [State.hostWrite]
@[simp] theorem hostWrite_tel (s : State) (p a n : Nat) (bs : List Byte) : (s.hostWrite p a n bs).tel = s.tel := by simp [State.hostWrite]
@[simp] theorem hostWrite_mem (s : State) (p a n : Nat) (bs : List Byte) : (s.hostWrite p a n bs).mem = s.mem := by simp [State.hostWrite]
@[simp] theorem hostWrite_reply (s : State) (p a n : Nat) (bs : List Byte) : (s.hostWrite p a n bs).reply = s.reply := by simp [State.hostWrite]
@[simp] theorem hostWrite_pending (s : State) (p a n : Nat) (bs : List Byte) : (s.hostWrite p a n bs).pending = s.pending := by simp [State.hostWrite]
@[simp] theorem hostWrite_freeCtr (s : State) (p a n : Nat) (bs : List Byte) : (s.hostWrite p a n bs).freeCtr = s.freeCtr := by simp [State.hostWrite]

@[simp] theorem bufferWrite_variant (s : State) (p a : Nat) (bs : List Byte) : (s.bufferWrite p a bs).variant = s.variant := by simp [State.bufferWrite]
@[simp] theorem bufferWrite_start (s : State) (p a : Nat) (bs : List Byte) : (s.bufferWrite p a bs).start = s.start := by simp [State.bufferWrite]
@[simp] theorem bufferWrite_power (s : State) (p a : Nat) (bs : List Byte) : (s.bufferWrite p a bs).power = s.power := by simp [State.bufferWrite]
@[simp] theorem bufferWrite_tick (s : State) (p a : Nat) (bs : List Byte) : (s.bufferWrite p a bs).tick = s.tick := by simp [State.bufferWrite]
@[simp] theorem bufferWrite_req (s : State) (p a : Nat) (bs : List Byte) : (s.bufferWrite p a bs).req = s.req := by simp [State.bufferWrite]
@[simp] theorem bufferWrite_cfg (s : State) (p a : Nat) (bs : List Byte) : (s.bufferWrite p a bs).cfg = s.cfg := by simp [State.bufferWrite]
@[simp] theorem bufferWrite_cfgNext (s : State) (p a : Nat) (bs : List Byte) : (s.bufferWrite p a bs).cfgNext = s.cfgNext := by simp [State.bufferWrite]
@[simp] theorem bufferWrite_mb (s : State) (p a : Nat) (bs : List Byte) : (s.bufferWrite p a bs).mb = s.mb := by simp [State.bufferWrite]
@[simp] theorem bufferWrite_plan (s : State) (p a : Nat) (bs : List Byte) : (s.bufferWrite p a bs).plan = s.plan := by simp [State.bufferWrite]
@[simp] theorem bufferWrite_banks (s : State) (p a : Nat) (bs : List Byte) : (s.bufferWrite p a bs).banks = s.banks := by simp [State.bufferWrite]
@[simp] theorem bufferWrite_matrix (s : State) (p a : Nat) (bs : List Byte) : (s.bufferWrite p a bs).matrix = s.matrix := by simp [State.bufferWrite]
@[simp] theorem bufferWrite_store (s : State) (p a : Nat) (bs : List Byte) : (s.bufferWrite p a bs).store = s.store := by simp [State.bufferWrite]
@[simp] theorem bufferWrite_tier (s : State) (p a : Nat) (bs : List Byte) : (s.bufferWrite p a bs).tier = s.tier := by simp [State.bufferWrite]
@[simp] theorem bufferWrite_models (s : State) (p a : Nat) (bs : List Byte) : (s.bufferWrite p a bs).models = s.models := by simp [State.bufferWrite]
@[simp] theorem bufferWrite_gelcon (s : State) (p a : Nat) (bs : List Byte) : (s.bufferWrite p a bs).gelcon = s.gelcon := by simp [State.bufferWrite]
@[simp] theorem bufferWrite_faults (s : State) (p a : Nat) (bs : List Byte) : (s.bufferWrite p a bs).faults = s.faults := by simp [State.bufferWrite]
@[simp] theorem bufferWrite_tel (s : State) (p a : Nat) (bs : List Byte) : (s.bufferWrite p a bs).tel = s.tel := by simp [State.bufferWrite]
@[simp] theorem bufferWrite_mem (s : State) (p a : Nat) (bs : List Byte) : (s.bufferWrite p a bs).mem = s.mem := by simp [State.bufferWrite]
@[simp] theorem bufferWrite_reply (s : State) (p a : Nat) (bs : List Byte) : (s.bufferWrite p a bs).reply = s.reply := by simp [State.bufferWrite]
@[simp] theorem bufferWrite_pending (s : State) (p a : Nat) (bs : List Byte) : (s.bufferWrite p a bs).pending = s.pending := by simp [State.bufferWrite]
@[simp] theorem bufferWrite_freeCtr (s : State) (p a : Nat) (bs : List Byte) : (s.bufferWrite p a bs).freeCtr = s.freeCtr := by simp [State.bufferWrite]

@[simp] theorem complete_variant (s : State) (c : MbCommand) (st : Nat) (d : List Byte) : (s.complete c st d).variant = s.variant := by simp [State.complete]
@[simp] theorem complete_start (s : State) (c : MbCommand) (st : Nat) (d : List Byte) : (s.complete c st d).start = s.start := by simp [State.complete]
@[simp] theorem complete_power (s : State) (c : MbCommand) (st : Nat) (d : List Byte) : (s.complete c st d).power = s.power := by simp [State.complete]
@[simp] theorem complete_tick (s : State) (c : MbCommand) (st : Nat) (d : List Byte) : (s.complete c st d).tick = s.tick := by simp [State.complete]
@[simp] theorem complete_req (s : State) (c : MbCommand) (st : Nat) (d : List Byte) : (s.complete c st d).req = s.req := by simp [State.complete]
@[simp] theorem complete_cfg (s : State) (c : MbCommand) (st : Nat) (d : List Byte) : (s.complete c st d).cfg = s.cfg := by simp [State.complete]
@[simp] theorem complete_cfgNext (s : State) (c : MbCommand) (st : Nat) (d : List Byte) : (s.complete c st d).cfgNext = s.cfgNext := by simp [State.complete]
@[simp] theorem complete_plan (s : State) (c : MbCommand) (st : Nat) (d : List Byte) : (s.complete c st d).plan = s.plan := by simp [State.complete]
@[simp] theorem complete_banks (s : State) (c : MbCommand) (st : Nat) (d : List Byte) : (s.complete c st d).banks = s.banks := by simp [State.complete]
@[simp] theorem complete_matrix (s : State) (c : MbCommand) (st : Nat) (d : List Byte) : (s.complete c st d).matrix = s.matrix := by simp [State.complete]
@[simp] theorem complete_store (s : State) (c : MbCommand) (st : Nat) (d : List Byte) : (s.complete c st d).store = s.store := by simp [State.complete]
@[simp] theorem complete_tier (s : State) (c : MbCommand) (st : Nat) (d : List Byte) : (s.complete c st d).tier = s.tier := by simp [State.complete]
@[simp] theorem complete_models (s : State) (c : MbCommand) (st : Nat) (d : List Byte) : (s.complete c st d).models = s.models := by simp [State.complete]
@[simp] theorem complete_gelcon (s : State) (c : MbCommand) (st : Nat) (d : List Byte) : (s.complete c st d).gelcon = s.gelcon := by simp [State.complete]
@[simp] theorem complete_faults (s : State) (c : MbCommand) (st : Nat) (d : List Byte) : (s.complete c st d).faults = s.faults := by simp [State.complete]
@[simp] theorem complete_tel (s : State) (c : MbCommand) (st : Nat) (d : List Byte) : (s.complete c st d).tel = s.tel := by simp [State.complete]
@[simp] theorem complete_mem (s : State) (c : MbCommand) (st : Nat) (d : List Byte) : (s.complete c st d).mem = s.mem := by simp [State.complete]
@[simp] theorem complete_reply (s : State) (c : MbCommand) (st : Nat) (d : List Byte) : (s.complete c st d).reply = s.reply := by simp [State.complete]
@[simp] theorem complete_pending (s : State) (c : MbCommand) (st : Nat) (d : List Byte) : (s.complete c st d).pending = s.pending := by simp [State.complete]
@[simp] theorem complete_freeCtr (s : State) (c : MbCommand) (st : Nat) (d : List Byte) : (s.complete c st d).freeCtr = s.freeCtr := by simp [State.complete]

@[simp] theorem setCmd_variant (s : State) (c : MbCommand) : (s.setCmd c).variant = s.variant := rfl
@[simp] theorem setCmd_start (s : State) (c : MbCommand) : (s.setCmd c).start = s.start := rfl
@[simp] theorem setCmd_power (s : State) (c : MbCommand) : (s.setCmd c).power = s.power := rfl
@[simp] theorem setCmd_tick (s : State) (c : MbCommand) : (s.setCmd c).tick = s.tick := rfl
@[simp] theorem setCmd_req (s : State) (c : MbCommand) : (s.setCmd c).req = s.req := rfl
@[simp] theorem setCmd_cfg (s : State) (c : MbCommand) : (s.setCmd c).cfg = s.cfg := rfl
@[simp] theorem setCmd_cfgNext (s : State) (c : MbCommand) : (s.setCmd c).cfgNext = s.cfgNext := rfl
@[simp] theorem setCmd_plan (s : State) (c : MbCommand) : (s.setCmd c).plan = s.plan := rfl
@[simp] theorem setCmd_banks (s : State) (c : MbCommand) : (s.setCmd c).banks = s.banks := rfl
@[simp] theorem setCmd_matrix (s : State) (c : MbCommand) : (s.setCmd c).matrix = s.matrix := rfl
@[simp] theorem setCmd_store (s : State) (c : MbCommand) : (s.setCmd c).store = s.store := rfl
@[simp] theorem setCmd_tier (s : State) (c : MbCommand) : (s.setCmd c).tier = s.tier := rfl
@[simp] theorem setCmd_models (s : State) (c : MbCommand) : (s.setCmd c).models = s.models := rfl
@[simp] theorem setCmd_gelcon (s : State) (c : MbCommand) : (s.setCmd c).gelcon = s.gelcon := rfl
@[simp] theorem setCmd_host (s : State) (c : MbCommand) : (s.setCmd c).host = s.host := rfl
@[simp] theorem setCmd_faults (s : State) (c : MbCommand) : (s.setCmd c).faults = s.faults := rfl
@[simp] theorem setCmd_tel (s : State) (c : MbCommand) : (s.setCmd c).tel = s.tel := rfl
@[simp] theorem setCmd_mem (s : State) (c : MbCommand) : (s.setCmd c).mem = s.mem := rfl
@[simp] theorem setCmd_reply (s : State) (c : MbCommand) : (s.setCmd c).reply = s.reply := rfl
@[simp] theorem setCmd_pending (s : State) (c : MbCommand) : (s.setCmd c).pending = s.pending := rfl
@[simp] theorem setCmd_freeCtr (s : State) (c : MbCommand) : (s.setCmd c).freeCtr = s.freeCtr := rfl

@[simp] theorem atTime_variant (s : State) (t : Nat) : (s.atTime t).variant = s.variant := rfl
@[simp] theorem atTime_start (s : State) (t : Nat) : (s.atTime t).start = s.start := rfl
@[simp] theorem atTime_power (s : State) (t : Nat) : (s.atTime t).power = s.power := rfl
@[simp] theorem atTime_req (s : State) (t : Nat) : (s.atTime t).req = s.req := rfl
@[simp] theorem atTime_cfg (s : State) (t : Nat) : (s.atTime t).cfg = s.cfg := rfl
@[simp] theorem atTime_cfgNext (s : State) (t : Nat) : (s.atTime t).cfgNext = s.cfgNext := rfl
@[simp] theorem atTime_mb (s : State) (t : Nat) : (s.atTime t).mb = s.mb := rfl
@[simp] theorem atTime_plan (s : State) (t : Nat) : (s.atTime t).plan = s.plan := rfl
@[simp] theorem atTime_banks (s : State) (t : Nat) : (s.atTime t).banks = s.banks := rfl
@[simp] theorem atTime_matrix (s : State) (t : Nat) : (s.atTime t).matrix = s.matrix := rfl
@[simp] theorem atTime_store (s : State) (t : Nat) : (s.atTime t).store = s.store := rfl
@[simp] theorem atTime_tier (s : State) (t : Nat) : (s.atTime t).tier = s.tier := rfl
@[simp] theorem atTime_models (s : State) (t : Nat) : (s.atTime t).models = s.models := rfl
@[simp] theorem atTime_gelcon (s : State) (t : Nat) : (s.atTime t).gelcon = s.gelcon := rfl
@[simp] theorem atTime_host (s : State) (t : Nat) : (s.atTime t).host = s.host := rfl
@[simp] theorem atTime_faults (s : State) (t : Nat) : (s.atTime t).faults = s.faults := rfl
@[simp] theorem atTime_tel (s : State) (t : Nat) : (s.atTime t).tel = s.tel := rfl
@[simp] theorem atTime_mem (s : State) (t : Nat) : (s.atTime t).mem = s.mem := rfl
@[simp] theorem atTime_reply (s : State) (t : Nat) : (s.atTime t).reply = s.reply := rfl
@[simp] theorem atTime_pending (s : State) (t : Nat) : (s.atTime t).pending = s.pending := rfl
@[simp] theorem atTime_freeCtr (s : State) (t : Nat) : (s.atTime t).freeCtr = s.freeCtr := rfl

@[simp] theorem modReq_variant (s : State) (n : Nat) (f : Request → Request) : (s.modReq n f).variant = s.variant := rfl
@[simp] theorem modReq_start (s : State) (n : Nat) (f : Request → Request) : (s.modReq n f).start = s.start := rfl
@[simp] theorem modReq_power (s : State) (n : Nat) (f : Request → Request) : (s.modReq n f).power = s.power := rfl
@[simp] theorem modReq_tick (s : State) (n : Nat) (f : Request → Request) : (s.modReq n f).tick = s.tick := rfl
@[simp] theorem modReq_cfg (s : State) (n : Nat) (f : Request → Request) : (s.modReq n f).cfg = s.cfg := rfl
@[simp] theorem modReq_cfgNext (s : State) (n : Nat) (f : Request → Request) : (s.modReq n f).cfgNext = s.cfgNext := rfl
@[simp] theorem modReq_mb (s : State) (n : Nat) (f : Request → Request) : (s.modReq n f).mb = s.mb := rfl
@[simp] theorem modReq_plan (s : State) (n : Nat) (f : Request → Request) : (s.modReq n f).plan = s.plan := rfl
@[simp] theorem modReq_banks (s : State) (n : Nat) (f : Request → Request) : (s.modReq n f).banks = s.banks := rfl
@[simp] theorem modReq_matrix (s : State) (n : Nat) (f : Request → Request) : (s.modReq n f).matrix = s.matrix := rfl
@[simp] theorem modReq_store (s : State) (n : Nat) (f : Request → Request) : (s.modReq n f).store = s.store := rfl
@[simp] theorem modReq_tier (s : State) (n : Nat) (f : Request → Request) : (s.modReq n f).tier = s.tier := rfl
@[simp] theorem modReq_models (s : State) (n : Nat) (f : Request → Request) : (s.modReq n f).models = s.models := rfl
@[simp] theorem modReq_gelcon (s : State) (n : Nat) (f : Request → Request) : (s.modReq n f).gelcon = s.gelcon := rfl
@[simp] theorem modReq_host (s : State) (n : Nat) (f : Request → Request) : (s.modReq n f).host = s.host := rfl
@[simp] theorem modReq_faults (s : State) (n : Nat) (f : Request → Request) : (s.modReq n f).faults = s.faults := rfl
@[simp] theorem modReq_tel (s : State) (n : Nat) (f : Request → Request) : (s.modReq n f).tel = s.tel := rfl
@[simp] theorem modReq_mem (s : State) (n : Nat) (f : Request → Request) : (s.modReq n f).mem = s.mem := rfl
@[simp] theorem modReq_reply (s : State) (n : Nat) (f : Request → Request) : (s.modReq n f).reply = s.reply := rfl
@[simp] theorem modReq_pending (s : State) (n : Nat) (f : Request → Request) : (s.modReq n f).pending = s.pending := rfl
@[simp] theorem modReq_freeCtr (s : State) (n : Nat) (f : Request → Request) : (s.modReq n f).freeCtr = s.freeCtr := rfl

@[simp] theorem setReq_variant (s : State) (n : Nat) (r : Request) : (s.setReq n r).variant = s.variant := rfl
@[simp] theorem setReq_start (s : State) (n : Nat) (r : Request) : (s.setReq n r).start = s.start := rfl
@[simp] theorem setReq_power (s : State) (n : Nat) (r : Request) : (s.setReq n r).power = s.power := rfl
@[simp] theorem setReq_tick (s : State) (n : Nat) (r : Request) : (s.setReq n r).tick = s.tick := rfl
@[simp] theorem setReq_cfg (s : State) (n : Nat) (r : Request) : (s.setReq n r).cfg = s.cfg := rfl
@[simp] theorem setReq_cfgNext (s : State) (n : Nat) (r : Request) : (s.setReq n r).cfgNext = s.cfgNext := rfl
@[simp] theorem setReq_mb (s : State) (n : Nat) (r : Request) : (s.setReq n r).mb = s.mb := rfl
@[simp] theorem setReq_plan (s : State) (n : Nat) (r : Request) : (s.setReq n r).plan = s.plan := rfl
@[simp] theorem setReq_banks (s : State) (n : Nat) (r : Request) : (s.setReq n r).banks = s.banks := rfl
@[simp] theorem setReq_matrix (s : State) (n : Nat) (r : Request) : (s.setReq n r).matrix = s.matrix := rfl
@[simp] theorem setReq_store (s : State) (n : Nat) (r : Request) : (s.setReq n r).store = s.store := rfl
@[simp] theorem setReq_tier (s : State) (n : Nat) (r : Request) : (s.setReq n r).tier = s.tier := rfl
@[simp] theorem setReq_models (s : State) (n : Nat) (r : Request) : (s.setReq n r).models = s.models := rfl
@[simp] theorem setReq_gelcon (s : State) (n : Nat) (r : Request) : (s.setReq n r).gelcon = s.gelcon := rfl
@[simp] theorem setReq_host (s : State) (n : Nat) (r : Request) : (s.setReq n r).host = s.host := rfl
@[simp] theorem setReq_faults (s : State) (n : Nat) (r : Request) : (s.setReq n r).faults = s.faults := rfl
@[simp] theorem setReq_tel (s : State) (n : Nat) (r : Request) : (s.setReq n r).tel = s.tel := rfl
@[simp] theorem setReq_mem (s : State) (n : Nat) (r : Request) : (s.setReq n r).mem = s.mem := rfl
@[simp] theorem setReq_reply (s : State) (n : Nat) (r : Request) : (s.setReq n r).reply = s.reply := rfl
@[simp] theorem setReq_pending (s : State) (n : Nat) (r : Request) : (s.setReq n r).pending = s.pending := rfl
@[simp] theorem setReq_freeCtr (s : State) (n : Nat) (r : Request) : (s.setReq n r).freeCtr = s.freeCtr := rfl

@[simp] theorem modMslot_variant (s : State) (n : Nat) (f : ModelSlot → ModelSlot) : (s.modMslot n f).variant = s.variant := rfl
@[simp] theorem modMslot_start (s : State) (n : Nat) (f : ModelSlot → ModelSlot) : (s.modMslot n f).start = s.start := rfl
@[simp] theorem modMslot_power (s : State) (n : Nat) (f : ModelSlot → ModelSlot) : (s.modMslot n f).power = s.power := rfl
@[simp] theorem modMslot_tick (s : State) (n : Nat) (f : ModelSlot → ModelSlot) : (s.modMslot n f).tick = s.tick := rfl
@[simp] theorem modMslot_req (s : State) (n : Nat) (f : ModelSlot → ModelSlot) : (s.modMslot n f).req = s.req := rfl
@[simp] theorem modMslot_cfg (s : State) (n : Nat) (f : ModelSlot → ModelSlot) : (s.modMslot n f).cfg = s.cfg := rfl
@[simp] theorem modMslot_cfgNext (s : State) (n : Nat) (f : ModelSlot → ModelSlot) : (s.modMslot n f).cfgNext = s.cfgNext := rfl
@[simp] theorem modMslot_mb (s : State) (n : Nat) (f : ModelSlot → ModelSlot) : (s.modMslot n f).mb = s.mb := rfl
@[simp] theorem modMslot_plan (s : State) (n : Nat) (f : ModelSlot → ModelSlot) : (s.modMslot n f).plan = s.plan := rfl
@[simp] theorem modMslot_banks (s : State) (n : Nat) (f : ModelSlot → ModelSlot) : (s.modMslot n f).banks = s.banks := rfl
@[simp] theorem modMslot_matrix (s : State) (n : Nat) (f : ModelSlot → ModelSlot) : (s.modMslot n f).matrix = s.matrix := rfl
@[simp] theorem modMslot_store (s : State) (n : Nat) (f : ModelSlot → ModelSlot) : (s.modMslot n f).store = s.store := rfl
@[simp] theorem modMslot_tier (s : State) (n : Nat) (f : ModelSlot → ModelSlot) : (s.modMslot n f).tier = s.tier := rfl
@[simp] theorem modMslot_gelcon (s : State) (n : Nat) (f : ModelSlot → ModelSlot) : (s.modMslot n f).gelcon = s.gelcon := rfl
@[simp] theorem modMslot_host (s : State) (n : Nat) (f : ModelSlot → ModelSlot) : (s.modMslot n f).host = s.host := rfl
@[simp] theorem modMslot_faults (s : State) (n : Nat) (f : ModelSlot → ModelSlot) : (s.modMslot n f).faults = s.faults := rfl
@[simp] theorem modMslot_tel (s : State) (n : Nat) (f : ModelSlot → ModelSlot) : (s.modMslot n f).tel = s.tel := rfl
@[simp] theorem modMslot_mem (s : State) (n : Nat) (f : ModelSlot → ModelSlot) : (s.modMslot n f).mem = s.mem := rfl
@[simp] theorem modMslot_reply (s : State) (n : Nat) (f : ModelSlot → ModelSlot) : (s.modMslot n f).reply = s.reply := rfl
@[simp] theorem modMslot_pending (s : State) (n : Nat) (f : ModelSlot → ModelSlot) : (s.modMslot n f).pending = s.pending := rfl
@[simp] theorem modMslot_freeCtr (s : State) (n : Nat) (f : ModelSlot → ModelSlot) : (s.modMslot n f).freeCtr = s.freeCtr := rfl

@[simp] theorem modHport_variant (s : State) (p : Nat) (f : HostPort → HostPort) : (s.modHport p f).variant = s.variant := rfl
@[simp] theorem modHport_start (s : State) (p : Nat) (f : HostPort → HostPort) : (s.modHport p f).start = s.start := rfl
@[simp] theorem modHport_power (s : State) (p : Nat) (f : HostPort → HostPort) : (s.modHport p f).power = s.power := rfl
@[simp] theorem modHport_tick (s : State) (p : Nat) (f : HostPort → HostPort) : (s.modHport p f).tick = s.tick := rfl
@[simp] theorem modHport_req (s : State) (p : Nat) (f : HostPort → HostPort) : (s.modHport p f).req = s.req := rfl
@[simp] theorem modHport_cfg (s : State) (p : Nat) (f : HostPort → HostPort) : (s.modHport p f).cfg = s.cfg := rfl
@[simp] theorem modHport_cfgNext (s : State) (p : Nat) (f : HostPort → HostPort) : (s.modHport p f).cfgNext = s.cfgNext := rfl
@[simp] theorem modHport_mb (s : State) (p : Nat) (f : HostPort → HostPort) : (s.modHport p f).mb = s.mb := rfl
@[simp] theorem modHport_plan (s : State) (p : Nat) (f : HostPort → HostPort) : (s.modHport p f).plan = s.plan := rfl
@[simp] theorem modHport_banks (s : State) (p : Nat) (f : HostPort → HostPort) : (s.modHport p f).banks = s.banks := rfl
@[simp] theorem modHport_matrix (s : State) (p : Nat) (f : HostPort → HostPort) : (s.modHport p f).matrix = s.matrix := rfl
@[simp] theorem modHport_store (s : State) (p : Nat) (f : HostPort → HostPort) : (s.modHport p f).store = s.store := rfl
@[simp] theorem modHport_tier (s : State) (p : Nat) (f : HostPort → HostPort) : (s.modHport p f).tier = s.tier := rfl
@[simp] theorem modHport_models (s : State) (p : Nat) (f : HostPort → HostPort) : (s.modHport p f).models = s.models := rfl
@[simp] theorem modHport_gelcon (s : State) (p : Nat) (f : HostPort → HostPort) : (s.modHport p f).gelcon = s.gelcon := rfl
@[simp] theorem modHport_faults (s : State) (p : Nat) (f : HostPort → HostPort) : (s.modHport p f).faults = s.faults := rfl
@[simp] theorem modHport_tel (s : State) (p : Nat) (f : HostPort → HostPort) : (s.modHport p f).tel = s.tel := rfl
@[simp] theorem modHport_mem (s : State) (p : Nat) (f : HostPort → HostPort) : (s.modHport p f).mem = s.mem := rfl
@[simp] theorem modHport_reply (s : State) (p : Nat) (f : HostPort → HostPort) : (s.modHport p f).reply = s.reply := rfl
@[simp] theorem modHport_pending (s : State) (p : Nat) (f : HostPort → HostPort) : (s.modHport p f).pending = s.pending := rfl
@[simp] theorem modHport_freeCtr (s : State) (p : Nat) (f : HostPort → HostPort) : (s.modHport p f).freeCtr = s.freeCtr := rfl

@[simp] theorem count_variant (s : State) (f : Counters → Counters) : (s.count f).variant = s.variant := rfl
@[simp] theorem count_start (s : State) (f : Counters → Counters) : (s.count f).start = s.start := rfl
@[simp] theorem count_power (s : State) (f : Counters → Counters) : (s.count f).power = s.power := rfl
@[simp] theorem count_tick (s : State) (f : Counters → Counters) : (s.count f).tick = s.tick := rfl
@[simp] theorem count_req (s : State) (f : Counters → Counters) : (s.count f).req = s.req := rfl
@[simp] theorem count_cfg (s : State) (f : Counters → Counters) : (s.count f).cfg = s.cfg := rfl
@[simp] theorem count_cfgNext (s : State) (f : Counters → Counters) : (s.count f).cfgNext = s.cfgNext := rfl
@[simp] theorem count_mb (s : State) (f : Counters → Counters) : (s.count f).mb = s.mb := rfl
@[simp] theorem count_plan (s : State) (f : Counters → Counters) : (s.count f).plan = s.plan := rfl
@[simp] theorem count_banks (s : State) (f : Counters → Counters) : (s.count f).banks = s.banks := rfl
@[simp] theorem count_matrix (s : State) (f : Counters → Counters) : (s.count f).matrix = s.matrix := rfl
@[simp] theorem count_store (s : State) (f : Counters → Counters) : (s.count f).store = s.store := rfl
@[simp] theorem count_tier (s : State) (f : Counters → Counters) : (s.count f).tier = s.tier := rfl
@[simp] theorem count_models (s : State) (f : Counters → Counters) : (s.count f).models = s.models := rfl
@[simp] theorem count_gelcon (s : State) (f : Counters → Counters) : (s.count f).gelcon = s.gelcon := rfl
@[simp] theorem count_host (s : State) (f : Counters → Counters) : (s.count f).host = s.host := rfl
@[simp] theorem count_faults (s : State) (f : Counters → Counters) : (s.count f).faults = s.faults := rfl
@[simp] theorem count_mem (s : State) (f : Counters → Counters) : (s.count f).mem = s.mem := rfl
@[simp] theorem count_reply (s : State) (f : Counters → Counters) : (s.count f).reply = s.reply := rfl
@[simp] theorem count_pending (s : State) (f : Counters → Counters) : (s.count f).pending = s.pending := rfl
@[simp] theorem count_freeCtr (s : State) (f : Counters → Counters) : (s.count f).freeCtr = s.freeCtr := rfl

@[simp] theorem countStep_variant (s : State) (f : StepCounters → StepCounters) : (s.countStep f).variant = s.variant := rfl
@[simp] theorem countStep_start (s : State) (f : StepCounters → StepCounters) : (s.countStep f).start = s.start := rfl
@[simp] theorem countStep_power (s : State) (f : StepCounters → StepCounters) : (s.countStep f).power = s.power := rfl
@[simp] theorem countStep_tick (s : State) (f : StepCounters → StepCounters) : (s.countStep f).tick = s.tick := rfl
@[simp] theorem countStep_req (s : State) (f : StepCounters → StepCounters) : (s.countStep f).req = s.req := rfl
@[simp] theorem countStep_cfg (s : State) (f : StepCounters → StepCounters) : (s.countStep f).cfg = s.cfg := rfl
@[simp] theorem countStep_cfgNext (s : State) (f : StepCounters → StepCounters) : (s.countStep f).cfgNext = s.cfgNext := rfl
@[simp] theorem countStep_mb (s : State) (f : StepCounters → StepCounters) : (s.countStep f).mb = s.mb := rfl
@[simp] theorem countStep_plan (s : State) (f : StepCounters → StepCounters) : (s.countStep f).plan = s.plan := rfl
@[simp] theorem countStep_banks (s : State) (f : StepCounters → StepCounters) : (s.countStep f).banks = s.banks := rfl
@[simp] theorem countStep_matrix (s : State) (f : StepCounters → StepCounters) : (s.countStep f).matrix = s.matrix := rfl
@[simp] theorem countStep_store (s : State) (f : StepCounters → StepCounters) : (s.countStep f).store = s.store := rfl
@[simp] theorem countStep_tier (s : State) (f : StepCounters → StepCounters) : (s.countStep f).tier = s.tier := rfl
@[simp] theorem countStep_models (s : State) (f : StepCounters → StepCounters) : (s.countStep f).models = s.models := rfl
@[simp] theorem countStep_gelcon (s : State) (f : StepCounters → StepCounters) : (s.countStep f).gelcon = s.gelcon := rfl
@[simp] theorem countStep_host (s : State) (f : StepCounters → StepCounters) : (s.countStep f).host = s.host := rfl
@[simp] theorem countStep_faults (s : State) (f : StepCounters → StepCounters) : (s.countStep f).faults = s.faults := rfl
@[simp] theorem countStep_mem (s : State) (f : StepCounters → StepCounters) : (s.countStep f).mem = s.mem := rfl
@[simp] theorem countStep_reply (s : State) (f : StepCounters → StepCounters) : (s.countStep f).reply = s.reply := rfl
@[simp] theorem countStep_pending (s : State) (f : StepCounters → StepCounters) : (s.countStep f).pending = s.pending := rfl
@[simp] theorem countStep_freeCtr (s : State) (f : StepCounters → StepCounters) : (s.countStep f).freeCtr = s.freeCtr := rfl

@[simp] theorem modBcl_variant (s : State) (k : Nat) (f : BankCluster → BankCluster) : (s.modBcl k f).variant = s.variant := rfl
@[simp] theorem modBcl_start (s : State) (k : Nat) (f : BankCluster → BankCluster) : (s.modBcl k f).start = s.start := rfl
@[simp] theorem modBcl_power (s : State) (k : Nat) (f : BankCluster → BankCluster) : (s.modBcl k f).power = s.power := rfl
@[simp] theorem modBcl_tick (s : State) (k : Nat) (f : BankCluster → BankCluster) : (s.modBcl k f).tick = s.tick := rfl
@[simp] theorem modBcl_req (s : State) (k : Nat) (f : BankCluster → BankCluster) : (s.modBcl k f).req = s.req := rfl
@[simp] theorem modBcl_cfg (s : State) (k : Nat) (f : BankCluster → BankCluster) : (s.modBcl k f).cfg = s.cfg := rfl
@[simp] theorem modBcl_cfgNext (s : State) (k : Nat) (f : BankCluster → BankCluster) : (s.modBcl k f).cfgNext = s.cfgNext := rfl
@[simp] theorem modBcl_mb (s : State) (k : Nat) (f : BankCluster → BankCluster) : (s.modBcl k f).mb = s.mb := rfl
@[simp] theorem modBcl_plan (s : State) (k : Nat) (f : BankCluster → BankCluster) : (s.modBcl k f).plan = s.plan := rfl
@[simp] theorem modBcl_matrix (s : State) (k : Nat) (f : BankCluster → BankCluster) : (s.modBcl k f).matrix = s.matrix := rfl
@[simp] theorem modBcl_store (s : State) (k : Nat) (f : BankCluster → BankCluster) : (s.modBcl k f).store = s.store := rfl
@[simp] theorem modBcl_tier (s : State) (k : Nat) (f : BankCluster → BankCluster) : (s.modBcl k f).tier = s.tier := rfl
@[simp] theorem modBcl_models (s : State) (k : Nat) (f : BankCluster → BankCluster) : (s.modBcl k f).models = s.models := rfl
@[simp] theorem modBcl_gelcon (s : State) (k : Nat) (f : BankCluster → BankCluster) : (s.modBcl k f).gelcon = s.gelcon := rfl
@[simp] theorem modBcl_host (s : State) (k : Nat) (f : BankCluster → BankCluster) : (s.modBcl k f).host = s.host := rfl
@[simp] theorem modBcl_faults (s : State) (k : Nat) (f : BankCluster → BankCluster) : (s.modBcl k f).faults = s.faults := rfl
@[simp] theorem modBcl_tel (s : State) (k : Nat) (f : BankCluster → BankCluster) : (s.modBcl k f).tel = s.tel := rfl
@[simp] theorem modBcl_mem (s : State) (k : Nat) (f : BankCluster → BankCluster) : (s.modBcl k f).mem = s.mem := rfl
@[simp] theorem modBcl_reply (s : State) (k : Nat) (f : BankCluster → BankCluster) : (s.modBcl k f).reply = s.reply := rfl
@[simp] theorem modBcl_pending (s : State) (k : Nat) (f : BankCluster → BankCluster) : (s.modBcl k f).pending = s.pending := rfl
@[simp] theorem modBcl_freeCtr (s : State) (k : Nat) (f : BankCluster → BankCluster) : (s.modBcl k f).freeCtr = s.freeCtr := rfl

@[simp] theorem modMcl_variant (s : State) (k : Nat) (f : MatrixCluster → MatrixCluster) : (s.modMcl k f).variant = s.variant := rfl
@[simp] theorem modMcl_start (s : State) (k : Nat) (f : MatrixCluster → MatrixCluster) : (s.modMcl k f).start = s.start := rfl
@[simp] theorem modMcl_power (s : State) (k : Nat) (f : MatrixCluster → MatrixCluster) : (s.modMcl k f).power = s.power := rfl
@[simp] theorem modMcl_tick (s : State) (k : Nat) (f : MatrixCluster → MatrixCluster) : (s.modMcl k f).tick = s.tick := rfl
@[simp] theorem modMcl_req (s : State) (k : Nat) (f : MatrixCluster → MatrixCluster) : (s.modMcl k f).req = s.req := rfl
@[simp] theorem modMcl_cfg (s : State) (k : Nat) (f : MatrixCluster → MatrixCluster) : (s.modMcl k f).cfg = s.cfg := rfl
@[simp] theorem modMcl_cfgNext (s : State) (k : Nat) (f : MatrixCluster → MatrixCluster) : (s.modMcl k f).cfgNext = s.cfgNext := rfl
@[simp] theorem modMcl_mb (s : State) (k : Nat) (f : MatrixCluster → MatrixCluster) : (s.modMcl k f).mb = s.mb := rfl
@[simp] theorem modMcl_plan (s : State) (k : Nat) (f : MatrixCluster → MatrixCluster) : (s.modMcl k f).plan = s.plan := rfl
@[simp] theorem modMcl_banks (s : State) (k : Nat) (f : MatrixCluster → MatrixCluster) : (s.modMcl k f).banks = s.banks := rfl
@[simp] theorem modMcl_store (s : State) (k : Nat) (f : MatrixCluster → MatrixCluster) : (s.modMcl k f).store = s.store := rfl
@[simp] theorem modMcl_tier (s : State) (k : Nat) (f : MatrixCluster → MatrixCluster) : (s.modMcl k f).tier = s.tier := rfl
@[simp] theorem modMcl_models (s : State) (k : Nat) (f : MatrixCluster → MatrixCluster) : (s.modMcl k f).models = s.models := rfl
@[simp] theorem modMcl_gelcon (s : State) (k : Nat) (f : MatrixCluster → MatrixCluster) : (s.modMcl k f).gelcon = s.gelcon := rfl
@[simp] theorem modMcl_host (s : State) (k : Nat) (f : MatrixCluster → MatrixCluster) : (s.modMcl k f).host = s.host := rfl
@[simp] theorem modMcl_faults (s : State) (k : Nat) (f : MatrixCluster → MatrixCluster) : (s.modMcl k f).faults = s.faults := rfl
@[simp] theorem modMcl_tel (s : State) (k : Nat) (f : MatrixCluster → MatrixCluster) : (s.modMcl k f).tel = s.tel := rfl
@[simp] theorem modMcl_mem (s : State) (k : Nat) (f : MatrixCluster → MatrixCluster) : (s.modMcl k f).mem = s.mem := rfl
@[simp] theorem modMcl_reply (s : State) (k : Nat) (f : MatrixCluster → MatrixCluster) : (s.modMcl k f).reply = s.reply := rfl
@[simp] theorem modMcl_pending (s : State) (k : Nat) (f : MatrixCluster → MatrixCluster) : (s.modMcl k f).pending = s.pending := rfl
@[simp] theorem modMcl_freeCtr (s : State) (k : Nat) (f : MatrixCluster → MatrixCluster) : (s.modMcl k f).freeCtr = s.freeCtr := rfl

@[simp] theorem putBytes_variant (s : State) (a : Nat) (bs : List Byte) : (s.putBytes a bs).variant = s.variant := rfl
@[simp] theorem putBytes_start (s : State) (a : Nat) (bs : List Byte) : (s.putBytes a bs).start = s.start := rfl
@[simp] theorem putBytes_power (s : State) (a : Nat) (bs : List Byte) : (s.putBytes a bs).power = s.power := rfl
@[simp] theorem putBytes_tick (s : State) (a : Nat) (bs : List Byte) : (s.putBytes a bs).tick = s.tick := rfl
@[simp] theorem putBytes_req (s : State) (a : Nat) (bs : List Byte) : (s.putBytes a bs).req = s.req := rfl
@[simp] theorem putBytes_cfg (s : State) (a : Nat) (bs : List Byte) : (s.putBytes a bs).cfg = s.cfg := rfl
@[simp] theorem putBytes_cfgNext (s : State) (a : Nat) (bs : List Byte) : (s.putBytes a bs).cfgNext = s.cfgNext := rfl
@[simp] theorem putBytes_mb (s : State) (a : Nat) (bs : List Byte) : (s.putBytes a bs).mb = s.mb := rfl
@[simp] theorem putBytes_plan (s : State) (a : Nat) (bs : List Byte) : (s.putBytes a bs).plan = s.plan := rfl
@[simp] theorem putBytes_banks (s : State) (a : Nat) (bs : List Byte) : (s.putBytes a bs).banks = s.banks := rfl
@[simp] theorem putBytes_matrix (s : State) (a : Nat) (bs : List Byte) : (s.putBytes a bs).matrix = s.matrix := rfl
@[simp] theorem putBytes_store (s : State) (a : Nat) (bs : List Byte) : (s.putBytes a bs).store = s.store := rfl
@[simp] theorem putBytes_tier (s : State) (a : Nat) (bs : List Byte) : (s.putBytes a bs).tier = s.tier := rfl
@[simp] theorem putBytes_models (s : State) (a : Nat) (bs : List Byte) : (s.putBytes a bs).models = s.models := rfl
@[simp] theorem putBytes_gelcon (s : State) (a : Nat) (bs : List Byte) : (s.putBytes a bs).gelcon = s.gelcon := rfl
@[simp] theorem putBytes_host (s : State) (a : Nat) (bs : List Byte) : (s.putBytes a bs).host = s.host := rfl
@[simp] theorem putBytes_faults (s : State) (a : Nat) (bs : List Byte) : (s.putBytes a bs).faults = s.faults := rfl
@[simp] theorem putBytes_tel (s : State) (a : Nat) (bs : List Byte) : (s.putBytes a bs).tel = s.tel := rfl
@[simp] theorem putBytes_reply (s : State) (a : Nat) (bs : List Byte) : (s.putBytes a bs).reply = s.reply := rfl
@[simp] theorem putBytes_pending (s : State) (a : Nat) (bs : List Byte) : (s.putBytes a bs).pending = s.pending := rfl
@[simp] theorem putBytes_freeCtr (s : State) (a : Nat) (bs : List Byte) : (s.putBytes a bs).freeCtr = s.freeCtr := rfl

@[simp] theorem begin_variant (s : State) : (s.begin).variant = s.variant := rfl
@[simp] theorem begin_start (s : State) : (s.begin).start = s.start := rfl
@[simp] theorem begin_power (s : State) : (s.begin).power = s.power := rfl
@[simp] theorem begin_tick (s : State) : (s.begin).tick = s.tick := rfl
@[simp] theorem begin_cfg (s : State) : (s.begin).cfg = s.cfg := rfl
@[simp] theorem begin_cfgNext (s : State) : (s.begin).cfgNext = s.cfgNext := rfl
@[simp] theorem begin_mb (s : State) : (s.begin).mb = s.mb := rfl
@[simp] theorem begin_plan (s : State) : (s.begin).plan = s.plan := rfl
@[simp] theorem begin_banks (s : State) : (s.begin).banks = s.banks := rfl
@[simp] theorem begin_matrix (s : State) : (s.begin).matrix = s.matrix := rfl
@[simp] theorem begin_store (s : State) : (s.begin).store = s.store := rfl
@[simp] theorem begin_tier (s : State) : (s.begin).tier = s.tier := rfl
@[simp] theorem begin_models (s : State) : (s.begin).models = s.models := rfl
@[simp] theorem begin_gelcon (s : State) : (s.begin).gelcon = s.gelcon := rfl
@[simp] theorem begin_host (s : State) : (s.begin).host = s.host := rfl
@[simp] theorem begin_faults (s : State) : (s.begin).faults = s.faults := rfl
@[simp] theorem begin_tel (s : State) : (s.begin).tel = s.tel := rfl
@[simp] theorem begin_mem (s : State) : (s.begin).mem = s.mem := rfl
@[simp] theorem begin_reply (s : State) : (s.begin).reply = s.reply := rfl
@[simp] theorem begin_pending (s : State) : (s.begin).pending = s.pending := rfl
@[simp] theorem begin_freeCtr (s : State) : (s.begin).freeCtr = s.freeCtr := rfl

/-! ## What is observed through an operation -/

@[simp] theorem portUp_atTime (s : State) (t p : Nat) : (s.atTime t).portUp p = s.portUp p := rfl
@[simp] theorem lowPort_atTime (s : State) (t : Nat) : (s.atTime t).lowPort = s.lowPort := rfl
@[simp] theorem sceolUp_atTime (s : State) (t : Nat) : (s.atTime t).sceolUp = s.sceolUp := rfl
@[simp] theorem cmdAt_atTime (s : State) (t mb : Nat) (l : List Nat) : (s.atTime t).cmdAt mb l = s.cmdAt mb l := rfl
@[simp] theorem mbBytes_atTime (s : State) (t n : Nat) : (s.atTime t).mbBytes n = s.mbBytes n := rfl
@[simp] theorem req_atTime (s : State) (t n : Nat) : (s.atTime t).req? n = s.req? n := rfl
@[simp] theorem mslot_atTime (s : State) (t n : Nat) : (s.atTime t).mslot n = s.mslot n := rfl
@[simp] theorem bcl_atTime (s : State) (t n : Nat) : (s.atTime t).bcl n = s.bcl n := rfl
@[simp] theorem mcl_atTime (s : State) (t n : Nat) : (s.atTime t).mcl n = s.mcl n := rfl
@[simp] theorem job_atTime (s : State) (t n : Nat) : (s.atTime t).job? n = s.job? n := rfl
@[simp] theorem tick_atTime (s : State) (t : Nat) :
    (s.atTime t).tick = { s.tick with iv := if s.tick.iv < t ∧ t < two64 then t else s.tick.iv } := rfl
@[simp] theorem jobRuns_atTime (s : State) (t m : Nat) : (s.atTime t).jobRuns m = s.jobRuns m := rfl
@[simp] theorem mayQueue_atTime (s : State) (t m : Nat) : (s.atTime t).mayQueue m = s.mayQueue m := rfl
@[simp] theorem holdsSem_atTime (s : State) (t m : Nat) : holdsSem (s.atTime t) m = holdsSem s m := rfl

@[simp] theorem begin_req (s : State) : s.begin.req = { s.req with begun := true } := rfl
@[simp] theorem req_begin (s : State) (n : Nat) : s.begin.req? n = s.req? n := rfl
@[simp] theorem mslot_begin (s : State) (n : Nat) : s.begin.mslot n = s.mslot n := rfl
@[simp] theorem mbBytes_begin (s : State) (n : Nat) : s.begin.mbBytes n = s.mbBytes n := rfl
@[simp] theorem portUp_begin (s : State) (p : Nat) : s.begin.portUp p = s.portUp p := rfl

@[simp] theorem mcl_modMcl (s : State) (c n : Nat) (f : MatrixCluster → MatrixCluster) :
    (s.modMcl c f).mcl n = if c = n then f (s.mcl n) else s.mcl n := by
  by_cases h : c = n <;> simp [State.mcl, State.modMcl, tabGetD, tabUpd, tabGet_tabPut, State.onMatrix, h]

@[simp] theorem bcl_modBcl (s : State) (c n : Nat) (f : BankCluster → BankCluster) :
    (s.modBcl c f).bcl n = if c = n then f (s.bcl n) else s.bcl n := by
  by_cases h : c = n <;> simp [State.bcl, State.modBcl, tabGetD, tabUpd, tabGet_tabPut, State.onBanks, h]

end Sys2Proof.Laws
end

