-- ==== Sys2Proof/Laws/Places.lean ====
section
/-! SUPPORT. When the search for places of objects in tier 1 finds one, whatever its open start: objects that name no bank have places
while fewer runs are in use than the pool has banks. -/

namespace Sys2Proof.Laws

open Sys2Proof Sys2Proof.Machine

theorem foldMin_isSome (key : Nat → Nat) (l : List Nat) (a : Nat) :
    (l.foldl (fun (m : Option Nat) r => match m with | none => some r | some k => some (if key r < key k then r else k)) (some a)).isSome
      = true := by
  induction l generalizing a with
  | nil => rfl
  | cons x r ih => exact ih _

theorem foldMin_mem_isSome (key : Nat → Nat) {l : List Nat} {r : Nat} (h : r ∈ l) :
    (l.foldl (fun (m : Option Nat) r => match m with | none => some r | some k => some (if key r < key k then r else k)) none).isSome
      = true := by
  cases l with
  | nil => cases h
  | cons x r => exact foldMin_isSome key r x

/-- A bank of the pool without runs has a free row for every object shorter than the bank. -/
theorem freeRow_empty {v : Variant} {used : List (Nat × Nat)} {w : Want} {b : Nat} (hb : b < poolBanks v)
    (hu : ∀ u ∈ used, u.1 / 32768 ≠ b) (hn : w.rows < 32768) (hp : ∀ p, w.parity = some p → p < 2) : (freeRow v used w b).isSome = true := by
  have hm : used.filter (fun u => u.1 / 32768 = b) = [] := by
    rw [List.filter_eq_nil_iff]; intro u h; simpa using hu u h
  have hex : ∃ r, r < 2 ∧ rowFits v [] w.parity w.rows b r = true := by
    cases hq : w.parity with
    | none => exact ⟨0, by omega, by simp [rowFits, poolRows, hb]; omega⟩
    | some p => have := hp p hq; exact ⟨p, this, by simp [rowFits, poolRows, hb]; omega⟩
  obtain ⟨r, hr, hf⟩ := hex
  unfold freeRow
  rw [hm]
  refine foldMin_mem_isSome _ (List.mem_filter.2 ⟨List.mem_append_left _ ?_, hf⟩)
  simp only [List.map_nil, List.flatMap_cons, List.flatMap_nil, List.append_nil, List.mem_cons, List.not_mem_nil, or_false]
  omega

theorem placeIn_isSome {v : Variant} {used : List (Nat × Nat)} {w : Want} {b : Nat} {l : List Nat} (hl : b ∈ l)
    (h : (freeRow v used w b).isSome = true) : (placeIn v used w l).isSome = true := by
  induction l with
  | nil => cases hl
  | cons x r ih =>
    unfold placeIn
    split
    · rfl
    · next hx =>
      rcases List.mem_cons.1 hl with rfl | hr
      · rw [hx] at h; cases h
      · exact ih hr

/-- Every bank is in the list that is searched, whatever the start. -/
theorem mem_bankList (v : Variant) (start : Nat) (avoid : List Nat) {b : Nat} (h : b < poolBanks v + 2) : b ∈ bankList v start avoid := by
  have hb : b ∈ (List.range (poolBanks v + 2)).map (fun k => (start + k) % (poolBanks v + 2)) := by
    have hpos : 0 < poolBanks v + 2 := by omega
    rw [List.mem_map]
    refine ⟨(b + (poolBanks v + 2 - start % (poolBanks v + 2))) % (poolBanks v + 2), List.mem_range.2 (Nat.mod_lt _ hpos), ?_⟩
    have hs := Nat.mod_lt start hpos
    rw [Nat.add_mod, Nat.mod_mod, ← Nat.add_mod, Nat.add_mod start]
    generalize start % (poolBanks v + 2) = t at *
    generalize poolBanks v + 2 = n at *
    by_cases ht : t = 0
    · subst ht; simp [Nat.mod_eq_of_lt h]
    · rw [Nat.add_mod_mod]
      have : t + (b + (n - t)) = b + n := by omega
      rw [this, Nat.add_mod_right, Nat.mod_eq_of_lt h]
  unfold bankList
  dsimp only
  rw [List.mem_append, List.mem_filter, List.mem_filter]
  by_cases hc : avoid.contains b = true
  · right; exact ⟨hb, hc⟩
  · left; exact ⟨hb, by rw [Bool.not_eq_true] at hc; rw [hc]; rfl⟩

/-- Of the pool's banks one holds no run in use, while there are fewer runs. -/
theorem exists_emptyBank {v : Variant} {used : List (Nat × Nat)} (h : used.length < poolBanks v) :
    ∃ b, b < poolBanks v ∧ ∀ u ∈ used, u.1 / 32768 ≠ b := by
  by_contra hn
  have hc : ∀ b, b < poolBanks v → ∃ u ∈ used, u.1 / 32768 = b := fun b hb => by
    by_contra hx
    exact hn ⟨b, hb, fun u hu he => hx ⟨u, hu, he⟩⟩
  have hsub : Finset.range (poolBanks v) ⊆ (used.map (fun u => u.1 / 32768)).toFinset := by
    intro b hb
    obtain ⟨u, hu, he⟩ := hc b (Finset.mem_range.1 hb)
    exact List.mem_toFinset.2 (List.mem_map.2 ⟨u, hu, he⟩)
  have := Finset.card_le_card hsub
  have h2 := List.toFinset_card_le (used.map (fun u => u.1 / 32768))
  simp at this h2
  omega

/-- Objects that name no bank are placed, whatever the start of the search, while the runs in use with them are fewer than the banks. -/
theorem placeEach_isSome (v : Variant) (start : Nat) (ws : List Want) (used : List (Nat × Nat)) (avoid : List Nat)
    (hw : ∀ w ∈ ws, w.bank = none ∧ w.parity = none ∧ w.rows < 32768) (h : used.length + ws.length ≤ poolBanks v) :
    (placeEach v start ws used avoid).isSome = true := by
  induction ws generalizing used avoid with
  | nil => rfl
  | cons w rest ih =>
    obtain ⟨h1, h2, h3⟩ := hw w (List.mem_cons_self ..)
    simp only [List.length_cons] at h
    obtain ⟨b, hb, hu⟩ := exists_emptyBank (v := v) (used := used) (by omega)
    have hp : (placeIn v used w (match w.bank with | some b => [b] | none => bankList v start (w.avoid ++ avoid))).isSome = true := by
      rw [h1]
      exact placeIn_isSome (mem_bankList v start _ (by omega)) (freeRow_empty hb hu h3 (by rw [h2]; intro p hp; cases hp))
    unfold placeEach
    cases hq : placeIn v used w (match w.bank with | some b => [b] | none => bankList v start (w.avoid ++ avoid)) with
    | none => rw [hq] at hp; cases hp
    | some g =>
      have hr := ih ((g, w.rows) :: used) (g / 32768 :: avoid) (fun x hx => hw x (List.mem_cons_of_mem _ hx)) (by simp only [List.length_cons]; omega)
      simp only [Option.isSome_map, hr]

end Sys2Proof.Laws
end

