-- ==== Sys2Proof/Laws/Time.lean ====
section
/-! SUPPORT. What is observed of a state does not change when Invar alone advances. -/

namespace Sys2Proof.Laws

open Sys2Proof Sys2Proof.Machine

@[simp] theorem gport_atTime (s : State) (t : Nat) (p : Nat) : (s.atTime t).gport p = s.gport p := rfl
@[simp] theorem identityOf_atTime (s : State) (t : Nat) : identityOf (s.atTime t) = identityOf s := rfl
@[simp] theorem memberNo_atTime (s : State) (t : Nat) : memberNo (s.atTime t) = memberNo s := rfl
@[simp] theorem shipAt_atTime (s : State) (t : Nat) (h : Nat) : (s.atTime t).ship? h = s.ship? h := rfl
@[simp] theorem hport_atTime (s : State) (t : Nat) (p : Nat) : (s.atTime t).hport p = s.hport p := rfl
@[simp] theorem mayTrain_atTime (s : State) (t : Nat) (p : Nat) : mayTrain (s.atTime t) p = mayTrain s p := rfl
@[simp] theorem noPort_atTime (s : State) (t : Nat) : (s.atTime t).noPort = s.noPort := rfl
@[simp] theorem leaseLive_atTime (s : State) (t : Nat) (n : Nat) : leaseLive (s.atTime t) n = leaseLive s n := rfl
@[simp] theorem standbyDie_atTime (s : State) (t : Nat) : standbyDie (s.atTime t) = standbyDie s := rfl
@[simp] theorem edgeSince_atTime (s : State) (t : Nat) (d : Nat) : edgeSince (s.atTime t) d = edgeSince s d := rfl
@[simp] theorem sensorOn_atTime (s : State) (t : Nat) (c : Nat) : sensorOn (s.atTime t) c = sensorOn s c := rfl
@[simp] theorem alertAt_atTime (s : State) (t : Nat) (c : Nat) : alertAt (s.atTime t) c = alertAt s c := rfl
@[simp] theorem throttleAt_atTime (s : State) (t : Nat) (c : Nat) : throttleAt (s.atTime t) c = throttleAt s c := rfl
@[simp] theorem tripAt_atTime (s : State) (t : Nat) (c : Nat) : tripAt (s.atTime t) c = tripAt s c := rfl
@[simp] theorem clustersAbove_atTime (s : State) (t : Nat) : clustersAbove (s.atTime t) = clustersAbove s := rfl
@[simp] theorem refSel_atTime (s : State) (t : Nat) : refSel (s.atTime t) = refSel s := rfl
@[simp] theorem reqState_atTime (s : State) (t : Nat) (n : Nat) : (s.atTime t).reqState n = s.reqState n := rfl
@[simp] theorem fwVerified_atTime (s : State) (t : Nat) (r : FwRead) : fwVerified (s.atTime t) r = fwVerified s r := rfl
@[simp] theorem warmOpen_atTime (s : State) (t : Nat) : warmOpen (s.atTime t) = warmOpen s := rfl
@[simp] theorem bankInUse_atTime (s : State) (t : Nat) (b n : Nat) : bankInUse (s.atTime t) b n = bankInUse s b n := rfl
@[simp] theorem linkDieBad_atTime (s : State) (t : Nat) (p : Nat) : linkDieBad (s.atTime t) p = linkDieBad s p := rfl
@[simp] theorem shipModel_atTime (s : State) (t : Nat) (x : Shipment) : shipModel (s.atTime t) x = shipModel s x := rfl
@[simp] theorem healthyMembers_atTime (s : State) (t : Nat) : healthyMembers (s.atTime t) = healthyMembers s := rfl
@[simp] theorem groupAt_atTime (s : State) (t : Nat) (h : Nat) : (s.atTime t).group? h = s.group? h := rfl
@[simp] theorem degraded_atTime (s : State) (t : Nat) : degraded (s.atTime t) = degraded s := rfl
@[simp] theorem regs_atTime (s : State) (t : Nat) : (s.atTime t).regs = s.regs := rfl
@[simp] theorem rowAt_atTime (s : State) (t : Nat) (n : Nat) : (s.atTime t).row? n = s.row? n := rfl
@[simp] theorem attemptAt_atTime (s : State) (t : Nat) (n : Nat) : (s.atTime t).attempt? n = s.attempt? n := rfl
@[simp] theorem settlesLong_atTime (s : State) (t : Nat) : settlesLong (s.atTime t) = settlesLong s := rfl
@[simp] theorem firstDue_atTime (s : State) (t : Nat) (c : MbCommand) : firstDue (s.atTime t) c = firstDue s c := rfl
@[simp] theorem askedCommands_atTime (s : State) (t : Nat) : askedCommands (s.atTime t) = askedCommands s := rfl
@[simp] theorem turnOf_atTime (s : State) (t : Nat) (l : List MbCommand) (c : MbCommand) : turnOf (s.atTime t) l c = turnOf s l c := rfl
@[simp] theorem barUp_atTime (s : State) (t p : Nat) : (s.atTime t).barUp p = s.barUp p := rfl
@[simp] theorem livePort_atTime (s : State) (t p : Nat) : (s.atTime t).livePort p = s.livePort p := rfl
@[simp] theorem ownIdent_atTime (s : State) (t : Nat) (p : Nat) : ownIdent (s.atTime t) p = ownIdent s p := rfl

end Sys2Proof.Laws
end

