-- ==== Sys2Proof/Machine/Layout.lean ====
section
/-! DEFINITION. The bytes in tier 1 of what the model holds as records: the Tier Manager region (Tables 11-3, 11-4, 11-6, 11-12), map granules
and rebuild records (Tables 11-5, 17-4), page lists and carried-estimate records (Table 11-8, R130, R185).
Readings of the spec: log 23. -/

namespace Sys2Proof.Machine

open Sys2Proof

/-! ## Page groups (Tables 11-4 to 11-6) -/

/-- Code of a page group's state. -/
def groupCode : GroupState → Nat
  | .unused => 0
  | .resident => 1
  | .demoting => 2
  | .parked => 3
  | .promoting => 4
  | .freeing => 5

/-- The state word (Table 11-6). -/
def stateWord (g : PageGroup) : Nat :=
  g.incarnation * 2 ^ 32 + g.refs % 2 ^ 21 * 2 ^ 11 + b2n g.pinned * 128 + b2n g.indexed * 64 + b2n g.rebuild * 32 + groupCode g.state

/-- Granule index of a group's map on a logical cluster, 0xFFFF_FFFF where it holds no page of the group. -/
def mapOn (s : State) (g : PageGroup) (c : Nat) : Nat :=
  (((g.map.zip (pageClusters (groupModel s g.modelSlot g.draft))).find? (fun x => x.2 = c)).map (·.1.2)).getD 0xFFFFFFFF

/-- The alloy field of a record: id and alloy_en. -/
def alloyField (en : Bool) (id : Nat) : Nat := id % 4096 + b2n en * 32768

/-- The 128 bytes of a page group's record (Table 11-4). -/
def groupEntry (s : State) (g : PageGroup) : List Byte :=
  leBytes 8 (stateWord g) ++ leBytes 16 g.digest.toNat ++ leBytes 4 g.start ++ leBytes 2 g.domain ++ leBytes 2 g.charge ++ leBytes 4 (g.owner.getD 0)
    ++ leBytes 1 g.modelSlot ++ leBytes 1 g.cfmt ++ leBytes 2 (alloyField g.alloyEn g.alloyId) ++ leBytes 1 (if g.alloyEn then g.alloyGen else 0)
    ++ [0, 0, 0] ++ leBytes 4 g.lastUse ++ leBytes 8 g.t2Addr ++ List.replicate 8 0 ++ (List.range 16).flatMap (fun c => leBytes 4 (mapOn s g c))

/-- The record of a handle; an unused one keeps its incarnation (Table 11-6). -/
def State.groupRecord (s : State) (h : Nat) : List Byte :=
  match s.group? h with
  | some g => groupEntry s g
  | none => leBytes 8 (tabGetD h 0 s.tier.incarnations * 2 ^ 32) ++ List.replicate 120 0

/-- The frames of a group on a logical cluster, in page order. -/
def framesOn (i : ModelInfo) (g : PageGroup) (c : Nat) : List Nat :=
  (((g.frames.map (·.2)).drop (sumN ((i.pageOrder.take c).map List.length)))).take (nth i.pageOrder c []).length

/-- The bytes of a map granule (Table 11-5). -/
def mapBytes (i : ModelInfo) (h c : Nat) (g : PageGroup) : List Byte :=
  leBytes 4 h ++ leBytes 4 g.incarnation ++ leBytes 2 (nth i.pageOrder c []).length ++ List.replicate 54 0
    ++ (if c = 0 then slice (g.tokens.flatMap (leBytes 4)) 0 512 else List.replicate 512 0) ++ (framesOn i g c).flatMap (leBytes 4)

/-- Carried scales of a cluster in slot order, 4 B each: mantissa, exponent, zero (R185). -/
def scaleBytes (c : Nat) (l : List CarriedScale) : List Byte :=
  (((l.filter (fun x => x.cluster = c)).foldl (fun acc x => insertKey x.tslot x acc) ([] : List (Nat × CarriedScale))).map (·.2)).flatMap (fun x =>
    leBytes 2 x.mant.toNat ++ [x.exp, 0])

/-- A cluster holds the maxima of the query heads of its pages (R130). -/
def maxOn (i : ModelInfo) (c : Nat) (x : CarriedMax) : Bool :=
  (nth i.pageOrder c []).any (fun p => p.1 = x.layer && p.2 = x.head / max 1 i.groupQ)

/-- Carried maxima of a cluster, in layer and then query-head order (R130). -/
def maxBytes (i : ModelInfo) (c : Nat) (l : List CarriedMax) : List Byte :=
  (((l.filter (maxOn i c)).foldl (fun acc x => insertKey (x.layer * 65536 + x.head) x acc) ([] : List (Nat × CarriedMax))).map (·.2)).flatMap (fun x =>
    leBytes 2 x.value.toNat)

/-- The bytes of a rebuild record (Table 17-4). -/
def rebuildBytes (i : ModelInfo) (h c : Nat) (g : PageGroup) : List Byte :=
  leBytes 4 h ++ leBytes 4 g.incarnation ++ leBytes 16 (maskOf g.cbound) ++ leBytes 1 (b2n g.snapValid) ++ List.replicate 39 0
    ++ scaleBytes c g.snapScales ++ maxBytes i c g.snapMaxima

/-! ## The prefix index (Table 11-12) -/

/-- The 32 bytes of an index entry. -/
def indexBytes (e : IndexEntry) : List Byte :=
  leBytes 16 e.digest.toNat ++ leBytes 4 e.handle ++ leBytes 4 e.incarnation ++ leBytes 2 e.domain ++ leBytes 1 e.modelSlot ++ [0] ++ leBytes 4 e.lastMatch

/-- The 2,048 bytes of a bucket: 64 entries by place, an empty one all zero. -/
def bucketBytes (s : State) (b : Nat) : List Byte :=
  let l := s.tier.index.filter (fun e => bucketOf e.digest.toNat = b)
  (List.range 64).flatMap (fun p =>
    match l.find? (fun e => e.place = p) with
    | some e => indexBytes e
    | none => List.replicate 32 0)

/-! ## The Tier Manager region (Table 11-3) -/

/-- The granule of a stack is allocated or awaits its fill, or lies in a region of Table 11-2 outside the pool (R287). -/
def granuleUsed (s : State) (stack g : Nat) : Bool :=
  (decide (g / 32768 < banksOf s.variant) && decide (poolRows s.variant (g / 32768) ≤ g % 32768)) || (allSpans s).any (fun x => x.1 = stack && x.2.1 ≤ g && g < x.2.1 + x.2.2)

/-- What the Tier Manager region of a stack holds at an offset, where Table 11-3 gives its layout: index buckets, Page Group Table entries and
the granule bitmap. -/
def regionByte (s : State) (n off : Nat) : Option Byte :=
  if off < 0x2000000 then some (nth (bucketBytes s (16 * (off / 2048) + n)) (off % 2048) 0)
  else if off < 0x3000000 then some (nth (s.groupRecord (16 * ((off - 0x2000000) / 128) + n)) (off % 128) 0)
  else if off < 0x3400000 then
    some (BitVec.ofNat 8 (maskOf ((List.range 8).filter (fun k => granuleUsed s n (8 * (off - 0x3000000) + k)))))
  else none

/-! ## Request objects (Tables 11-8 and 11-9) -/

/-- The 8 bytes of a page-list entry (Table 11-8). -/
def pageRefBytes (p : PageRef) : List Byte := leBytes 4 (p.handle % 2097152 + b2n p.weak * 2 ^ 31) ++ leBytes 4 p.incarnation

/-- The bytes of a page list: one entry for each block of its positions, then the draft model's array for source 0x02 (R270). -/
def pageListBytes (r : Request) : List Byte :=
  let n := ceilDiv (r.promptLen + r.maxNew) 128
  (List.range n).flatMap (fun b => pageRefBytes (pageAt r.pages b))
    ++ if r.spec.source = 2 then (List.range n).flatMap (fun b => pageRefBytes (pageAt r.draftPages b)) else []

/-- The bytes of a request's carried-estimate record on a logical cluster: its scales, then its maxima (R130, R185). -/
def estimateBytes (i : ModelInfo) (c : Nat) (r : Request) : List Byte := scaleBytes c r.scales ++ maxBytes i c r.maxima

end Sys2Proof.Machine
end

