-- ==== Sys2Proof/WellFormed.lean ====
section
/-! DEFINITION. The ranges of a command's operands: a command whose operands lie in them names things the block has. Contents
that a command carries (a descriptor, an image, a flit's CRC) are judged by the command's meaning, not here. -/

namespace Sys2Proof

/-- An Invar instant: 64 bits (R26). -/
def okTime (t : Nat) : Bool := t < 18446744073709551616
/-- HX0 or HX1 (R338). -/
def okHostPort (p : Nat) : Bool := p < 2
/-- A Gelcon port: 15 local and 6 global (R307). -/
def okLinkPort (p : Nat) : Bool := p < 21
/-- A mailbox slot (R356). -/
def okMailbox (n : Nat) : Bool := n < 256
/-- A submission ring (R56). -/
def okRing (n : Nat) : Bool := n < 64
/-- A request slot (R54). -/
def okSlot (n : Nat) : Bool := n < 1048576
/-- A model slot, and the job of one (R305). -/
def okModelSlot (n : Nat) : Bool := n < 16
/-- A cluster, its stack, or the pair of both (R12). -/
def okCluster (n : Nat) : Bool := n < 16
/-- An active bank of a stack (R13). -/
def okBank (n : Nat) : Bool := n < 1024
/-- A row of a bank (R13). -/
def okRow (n : Nat) : Bool := n < 32768
/-- A tenant number: 16 bits (R91). -/
def okTenant (n : Nat) : Bool := n < 65536
/-- A width of a host write in bytes. -/
def okWidth (n : Nat) : Bool := 1 ≤ n && n ≤ 8
/-- A flit of 256 bytes (R309). -/
def okFlit (b : List (BitVec 8)) : Bool := b.length = 256
/-- A semaphore number (R216). -/
def okSem (n : Nat) : Bool := n < 4096
/-- A vector engine: one per cluster, and that of the hub (R210). -/
def okEngine (n : Nat) : Bool := n < 17
/-- A hub die: HB0 to HB9 (R12). -/
def okHubDie (n : Nat) : Bool := n < 10
/-- A die code: 40 logic dies and 16 stacks (R12). -/
def okDie (n : Nat) : Bool := n < 56
/-- A MEMBER_ID strap (R365). -/
def okMember (n : Nat) : Bool := n < 16
/-- A payload of n 128-bit words (R122). -/
def okPayload (n : Nat) (l : List (BitVec 128)) : Bool := l.length = n
/-- A packet whose payload is at most 4,096 bytes in a whole number of 8-byte units (R316). -/
def okPacket (p : Packet) : Bool := p.payload.length ≤ 4096 && p.payload.length % 8 = 0

/-- The operands of a command lie in their ranges. -/
def Instr.wf : Instr → Bool
  | .tickEdge => true
  | .commitOpen => true
  | .commitGathersDone slot => okSlot slot
  | .budgetWindowStart tenant => okTenant tenant
  | .deadlineExpiry slot => okSlot slot
  | .holdExpiry slot => okSlot slot
  | .ttlExpiry slot => okSlot slot
  | .importTimeout t slot => okTime t && okSlot slot
  | .resumeComplete slot => okSlot slot
  | .submissionRingDoorbell t port _ _ width _ => okTime t && okHostPort port && okWidth width
  | .streamCreditDoorbell t port _ width _ => okTime t && okHostPort port && okWidth width
  | .mbDoorbell t port _ width _ => okTime t && okHostPort port && okWidth width
  | .submit ring _ => okRing ring
  | .identify mb => okMailbox mb
  | .deviceState mb => okMailbox mb
  | .warmReset mb => okMailbox mb
  | .eventRead mb => okMailbox mb
  | .powerConfig mb => okMailbox mb
  | .abort mb => okMailbox mb
  | .tickConfig mb => okMailbox mb
  | .groupConfigJoin mb groupTime => okMailbox mb && okTime groupTime
  | .groupConfigLeave mb => okMailbox mb
  | .tenantConfig mb => okMailbox mb
  | .domainConfig mb => okMailbox mb
  | .ringRegister mb => okMailbox mb
  | .ringRelease mb => okMailbox mb
  | .reqCancel mb => okMailbox mb
  | .reqPause mb => okMailbox mb
  | .reqResume mb => okMailbox mb
  | .reqDraft mb _ => okMailbox mb
  | .reqQuery mb => okMailbox mb
  | .reqMigrate mb => okMailbox mb
  | .recover mb => okMailbox mb
  | .recoverEntry mb _ => okMailbox mb
  | .planConfig mb => okMailbox mb
  | .bankConfig mb => okMailbox mb
  | .matrixConfig mb => okMailbox mb
  | .quantConfig mb => okMailbox mb
  | .storeConfig mb => okMailbox mb
  | .tierConfig mb => okMailbox mb
  | .gelconConfig mb => okMailbox mb
  | .gelconQuarantineRelease mb => okMailbox mb
  | .gelconSpareAssign mb => okMailbox mb
  | .hostConfig mb => okMailbox mb
  | .modelConfig mb => okMailbox mb
  | .sceolConfig mb => okMailbox mb
  | .tierRegister mb => okMailbox mb
  | .tierRelease mb => okMailbox mb
  | .pin mb => okMailbox mb
  | .unpin mb => okMailbox mb
  | .promote mb => okMailbox mb
  | .demote mb => okMailbox mb
  | .drop mb => okMailbox mb
  | .parkNow mb => okMailbox mb
  | .prefixProbe mb _ => okMailbox mb
  | .modelLoad mb => okMailbox mb
  | .modelHeaderReadDone mb _ => okMailbox mb
  | .modelLoadComplete slot _ => okModelSlot slot
  | .modelEvict mb => okMailbox mb
  | .modelSlotEmpty slot => okModelSlot slot
  | .modelPin mb => okMailbox mb
  | .modelUnpin mb => okMailbox mb
  | .modelRelease mb => okMailbox mb
  | .alloyLoad mb _ => okMailbox mb
  | .alloyGenResident _ _ _ => true
  | .alloyRetire mb => okMailbox mb
  | .statsRead mb _ => okMailbox mb
  | .calRead mb _ => okMailbox mb
  | .calWrite mb _ => okMailbox mb
  | .fwStage mb _ => okMailbox mb
  | .fwActivateNextReset mb => okMailbox mb
  | .fwActivateLive mb => okMailbox mb
  | .standbyCaughtUp t _ => okTime t
  | .activationHandover => true
  | .probationEnd => true
  | .formerActiveStandby t => okTime t
  | .samplerRowMerge t slot => okTime t && okSlot slot
  | .treeBuild slot => okSlot slot
  | .kernelStart model _ _ _ => okModelSlot model
  | .kernelEnd t model _ _ => okTime t && okModelSlot model
  | .preempt model _ => okModelSlot model
  | .jobResume model => okModelSlot model
  | .buNop cl job _ => okCluster cl && okModelSlot job
  | .qload cl job _ q => okCluster cl && okModelSlot job && okPayload 18 q.words
  | .gload cl job _ payload => okCluster cl && okModelSlot job && okPayload 2 payload
  | .tload cl job _ payload => okCluster cl && okModelSlot job && okPayload 32 payload
  | .aclr cl job _ => okCluster cl && okModelSlot job
  | .pass cl job _ _ => okCluster cl && okModelSlot job
  | .drain cl job _ _ => okCluster cl && okModelSlot job
  | .copy cl job _ _ _ => okCluster cl && okModelSlot job
  | .gather cl job _ _ _ => okCluster cl && okModelSlot job
  | .fill cl job _ => okCluster cl && okModelSlot job
  | .scrub cl _ _ _ => okCluster cl
  | .tlogrd cl job _ _ => okCluster cl && okModelSlot job
  | .kvflush cl job _ _ => okCluster cl && okModelSlot job
  | .appendBufferWriteback cl _ => okCluster cl
  | .layerCombine cl job _ _ => okCluster cl && okModelSlot job
  | .bankRefresh cl bank => okCluster cl && okBank bank
  | .stackHotChange cl _ => okCluster cl
  | .patrolScrub cl bank _ => okCluster cl && okBank bank
  | .mxNop cl job _ => okCluster cl && okModelSlot job
  | .iload cl job _ => okCluster cl && okModelSlot job
  | .gopen cl job _ => okCluster cl && okModelSlot job
  | .mpass cl job _ _ => okCluster cl && okModelSlot job
  | .gclose cl job _ => okCluster cl && okModelSlot job
  | .gfree cl job _ => okCluster cl && okModelSlot job
  | .apass cl job _ _ _ _ a => okCluster cl && okModelSlot job && okCluster a.logical
  | .spload cl job _ => okCluster cl && okModelSlot job
  | .spinv cl job _ => okCluster cl && okModelSlot job
  | .gsave cl _ _ => okCluster cl
  | .grstr cl _ _ => okCluster cl
  | .ingotFetchIssue cl job _ => okCluster cl && okModelSlot job
  | .ingotFetchDone cl f _ => okCluster cl && okModelSlot f.job
  | .vectorChain _ => true
  | .functionTableLoad engine job _ _ => okEngine engine && okModelSlot job
  | .rowReduction job sem _ _ _ _ => okModelSlot job && okSem sem
  | .storeReserve _ _ _ => true
  | .storeReserveRetry => true
  | .storeRelease _ _ => true
  | .storePoisonedRead _ _ _ => true
  | .storePatrol _ => true
  | .semSignal job n _ => okModelSlot job && okSem n
  | .semWait job n _ _ => okModelSlot job && okSem n
  | .semWaitSatisfied n => okSem n
  | .semRead n => okSem n
  | .hubDieFailed t die => okTime t && okHubDie die
  | .storeRestripe => true
  | .sync t _ => okTime t
  | .alignmentRestored t => okTime t
  | .tickMasterRecompute _ => true
  | .vote t port _ => okTime t && okLinkPort port
  | .voteCutoff => true
  | .commitSet t port _ => okTime t && okLinkPort port
  | .csetReq t _ _ => okTime t
  | .shardPlan t port _ => okTime t && okLinkPort port
  | .actData t a => okTime t && okLinkPort a.port && okPacket a.pkt
  | .shipOpen t a => okTime t && okLinkPort a.port && okPacket a.pkt
  | .shipGrant t a => okTime t && okLinkPort a.port && okPacket a.pkt
  | .shipData t port p => okTime t && okLinkPort port && okPacket p
  | .shipWindowAdvance _ _ => true
  | .shipDone t port p => okTime t && okLinkPort port && okPacket p
  | .shipEnd t port p => okTime t && okLinkPort port && okPacket p
  | .shipUnclaimedTimeout t _ => okTime t
  | .shipmentApply _ => true
  | .mgmt t a _ => okTime t && okLinkPort a.port && okPacket a.pkt
  | .err t a => okTime t && okLinkPort a.port && okPacket a.pkt
  | .packetForward t port p _ => okTime t && okLinkPort port && okPacket p
  | .flitData t port f => okTime t && okLinkPort port && okFlit f.bytes
  | .flitIdle t port f => okTime t && okLinkPort port && okFlit f.bytes
  | .flitCredit t port f => okTime t && okLinkPort port && okFlit f.bytes
  | .flitNak t port f => okTime t && okLinkPort port && okFlit f.bytes
  | .flitVcReset t port f => okTime t && okLinkPort port && okFlit f.bytes
  | .flitIdent t port f _ => okTime t && okLinkPort port && okFlit f.bytes
  | .flitLane t port f => okTime t && okLinkPort port && okFlit f.bytes
  | .nakRepeat t port => okTime t && okLinkPort port
  | .resendTimeout t port => okTime t && okLinkPort port
  | .ackTimer t port => okTime t && okLinkPort port
  | .creditReturnTimer t port => okTime t && okLinkPort port
  | .partnerViolation t port _ _ p => okTime t && okLinkPort port && okPacket p
  | .portTrained t port _ => okTime t && okLinkPort port
  | .laneRetire t port _ _ => okTime t && okLinkPort port
  | .laneRetrain t port _ _ _ => okTime t && okLinkPort port
  | .gelconPortDown t port => okTime t && okLinkPort port
  | .hostPortDown t port _ => okTime t && okHostPort port
  | .hostPortUp t port _ _ => okTime t && okHostPort port
  | .hostDmaFail t _ _ _ => okTime t
  | .atsInvalidation t port _ => okTime t && okHostPort port
  | .flushReadComplete t port => okTime t && okHostPort port
  | .msixTableWrite _ _ => true
  | .debugWindowAccess _ _ _ => true
  | .registerWrite t _ _ _ => okTime t
  | .ppsEdge t => okTime t
  | .referenceLost t => okTime t
  | .referenceRestored t => okTime t
  | .governorStepDown t _ => okTime t
  | .overcurrentStep t => okTime t
  | .overcurrentHalt t => okTime t
  | .thermalAlert t code _ => okTime t && okDie code
  | .thermalThrottleStep t code _ => okTime t && okDie code
  | .thermalTrip t code _ => okTime t && okDie code
  | .dramOvertempPowerOff t code _ => okTime t && okDie code
  | .powerOn memberId => okMember memberId
  | .firmwareVerified t _ _ => okTime t
  | .pwrGood t => okTime t
  | .pwrGoodTimeout t => okTime t
  | .bootStageDone t _ => okTime t
  | .resetN t _ memberId => okTime t && okMember memberId
  | .warmResetN t => okTime t
  | .warmResetComplete t _ => okTime t
  | .main48Loss t => okTime t
  | .aux12Loss t => okTime t
  | .controlHeartbeatTimeout t => okTime t
  | .servingHeartbeatTimeout t => okTime t
  | .controlTakeover => true
  | .orphanEnter => true
  | .leaseRenew t => okTime t
  | .leaseExpiry t => okTime t
  | .leaseReclaim t => okTime t
  | .i3cWrite _ => true
  | .i3cRead _ => true
  | .uncorrectableData t _ _ _ _ _ => okTime t
  | .ingotRepairDone slot cl _ _ _ => okModelSlot slot && okCluster cl
  | .brokenSlotTimeout slot => okModelSlot slot
  | .rebuildCommit _ => true
  | .spareRowSwap stack bank row => okCluster stack && okBank bank && okRow row
  | .spareColumnSwap stack bank _ => okCluster stack && okBank bank
  | .spareBankCopyDone stack bank _ => okCluster stack && okBank bank
  | .tsvSpareSwitch stack _ => okCluster stack
  | .bankRetire t stack bank => okTime t && okCluster stack && okBank bank
  | .clusterPairFailed t pair => okTime t && okCluster pair
  | .clmapSwitch => true
  | .demotionComplete _ _ => true
  | .demotionFail _ => true
  | .promotionComplete _ _ => true
  | .tier2ReadFail _ => true
  | .publishRewriteDone _ => true
  | .granuleFillDone _ => true
  | .dieRebootedHealthy t code => okTime t && okDie code
  | .thermalThresholdLeft t code _ => okTime t && okDie code
  | .snapshotReadable t => okTime t
  | .fwStageVerified _ _ => true
  | .calRecordSwitched => true
  | .measurementUpdate t _ _ _ _ _ _ => okTime t

end Sys2Proof
end

