-- ==== Sys2Proof/Tests/Slice0.lean ====
section
/-! SUPPORT. Our own tests: ill-formed commands that the well-formedness checks refuse, values that the spec works out, and for every
statement with hypotheses, states and operands that meet them, clause by clause. -/

namespace Sys2Proof.Tests

open Sys2Proof Sys2Proof.Machine Sys2Proof.Laws

set_option maxRecDepth 100000
set_option linter.unusedVariables false

/-! ## Ill-formed commands: one for each check of WellFormed -/

theorem test_wf_time : Instr.wf (.ppsEdge 18446744073709551616) = false := by decide
theorem test_wf_hostPort : Instr.wf (.flushReadComplete 0 2) = false := by decide
theorem test_wf_linkPort : Instr.wf (.nakRepeat 0 21) = false := by decide
theorem test_wf_mailbox : Instr.wf (.identify 256) = false := by decide
theorem test_wf_ring : Instr.wf (.submit 64 {}) = false := by decide
theorem test_wf_slot : Instr.wf (.treeBuild 1048576) = false := by decide
theorem test_wf_modelSlot : Instr.wf (.modelSlotEmpty 16) = false := by decide
theorem test_wf_cluster : Instr.wf (.gsave 16 0 none) = false := by decide
theorem test_wf_bank : Instr.wf (.bankRefresh 0 1024) = false := by decide
theorem test_wf_row : Instr.wf (.spareRowSwap 0 0 32768) = false := by decide
theorem test_wf_tenant : Instr.wf (.budgetWindowStart 65536) = false := by decide
theorem test_wf_width : Instr.wf (.mbDoorbell 0 0 0 9 0) = false := by decide
theorem test_wf_flit : Instr.wf (.flitIdle 0 0 { bytes := [0] }) = false := by decide
theorem test_wf_sem : Instr.wf (.semRead 4096) = false := by decide
theorem test_wf_engine : Instr.wf (.functionTableLoad 17 0 0 []) = false := by decide
theorem test_wf_hubDie : Instr.wf (.hubDieFailed 0 10) = false := by decide
theorem test_wf_die : Instr.wf (.thermalAlert 0 56 0) = false := by decide
theorem test_wf_member : Instr.wf (.powerOn 16) = false := by decide
theorem test_wf_payload : Instr.wf (.gload 0 0 0 [0]) = false := by decide
theorem test_wf_packet : Instr.wf (.shipGrant 0 ⟨0, { payload := [0] }⟩) = false := by decide
theorem test_wf_accepts : Instr.wf (.gload 15 15 0 [0, 0]) = true := by decide

/-! ## Values that the spec works out -/

/-- What a command leaves, or the state before it where it leaves none. -/
def after (i : Instr) (s : State) : State := match exec i s with | .next t => t | _ => s

/-- The worked tick of the chapter on the tick: it began at 5,000,000,000, with T of 10 ms and C of 400 us. -/
def workedTick : State :=
  ((State.reset.onStart (fun x => { x with state := .serving })).onTick
    (fun k => { k with running := true, index := 5, edge := 5000000000, commitOpenAt := 5009600000, tickUs := 10000, commitUs := 400, inCommit := true }))

/-- The next tick begins at 5,010,000,000, and its commit window 400 us before its own end. -/
theorem test_tick_edge_worked : (after .tickEdge workedTick).tick.edge = 5010000000 ∧ (after .tickEdge workedTick).tick.commitOpenAt = 5019600000 := by decide
/-- A command stamped one nanosecond before o_k is taken in this window; one stamped o_k is not (same example). -/
theorem test_cancel_stamp : workedTick.taken 5009599999 = true ∧ workedTick.taken 5009600000 = false := by decide
/-- Deadlines of requests E and F of that example. -/
theorem test_deadline_worked :
    deadlineDue workedTick { state := .decoding, deadline := 5010000000 } = false ∧
    deadlineDue workedTick { state := .decoding, deadline := 5009999999 } = true := by decide

/-- Table 7-8: per-token pairs of 9.0 and 3.5, and the fallback test. -/
theorem test_token_pairs : tokenPair 0 0 0x41100000 = (37154, -3) ∧ tokenPair 0 0 0x40600000 = (57795, -5) := by decide
theorem test_fallback : fallsBack 0 0 0x40600000 (32768, -4) = false ∧ fallsBack 0 0 0x41100000 (32768, -4) = true := by decide
/-- Table 7-8: the codes of -0.7 and of the row's maximum, carried and per token. -/
theorem test_codes :
    (convert 0 0 [] [0xBF333333, 0x40600000] 0x40600000 (some (32768, -4))).codes = [-22, 112] ∧
    (convert 0 0 [] [0xBF333333, 0x41100000] 0x41100000 (some (32768, -4))).codes = [-9, 127] := by decide
/-- The table after it: the new carried scales, a per-token pair times 1.25. -/
theorem test_carried_scales :
    encScale (fpMul (decScale 57795 (-5)) 0x3FA00000) = (36121, -4) ∧ encScale (fpMul (decScale 37154 (-3)) 0x3FA00000) = (46442, -3) := by decide

/-- Table 9-5: the withheld count over the three ticks, and the cut of the last path. -/
def stopRequest : Request := { state := .decoding, stops := [[4410, 88, 1031]], endIds := [2], maxNew := 1000 }
theorem test_withheld :
    withheldCount stopRequest [500, 4410] = 1 ∧ withheldCount stopRequest [500, 4410, 88] = 2 ∧ withheldCount stopRequest [500, 4410, 88, 77] = 0 := by decide
theorem test_stop_cut :
    settlePath stopRequest [(4410, 0, 0), (88, 0, 1), (1031, 0, 2), (9, 0, 3)] [500, 4410, 88, 77] 43 =
      { taken := [(4410, 0, 0), (88, 0, 1)], close := some (St.stopSequence, 2) } ∧
    settlePath { stopRequest with maxNew := 42 } [(88, 0, 0), (77, 0, 1)] [500, 4410] 41 =
      { taken := [(88, 0, 0)], close := some (St.maxTokens, 0) } := by decide

/-- Table 10-6: the walk of the worked tree. -/
theorem test_walk :
    (walkTree [(255, 7301), (0, 615), (0, 3092), (1, 41), (3, 9118), (2, 41), (4, 260)]
      (fun v => (if v = 0 then 615 else if v = 1 then 41 else if v = 3 then 9118 else 333, 0)) 8 0).map (fun p => (p.2.2, p.1)) =
      [(0, 615), (1, 41), (3, 9118), (4, 333)] := by decide

/-- A device in SERVING with both host ports up and a tick running. -/
def ticking : State :=
  ((State.reset.onStart (fun x => { x with state := .serving })).onHost (fun h => { h with ports := [{ up := true, bar := true }, { up := true, bar := true }] })).onTick
    (fun k => { k with running := true, index := 5, edge := 1000, commitOpenAt := 9601000 })

/-- The same in a commit window. -/
def win : State := ticking.onTick (fun k => { k with inCommit := true })

/-- A device in SERVING with no tick running and a first edge set. -/
def serving : State := ticking.onTick (fun k => { k with running := false, firstEdge := 5000, firstIndex := 1 })

/-- An outstanding command with an opcode and payload. -/
def com (op : Nat) (p : List Byte) : MbCommand := { opcode := op, payload := p }

/-- A state with one outstanding command, in mailbox slot 0. -/
def ask (s : State) (op : Nat) (p : List Byte) : State := s.onMb (fun m => { m with outstanding := [com op p] })

/-- A state with every request-independent vector unmasked, between two windows. -/
def unmasked : State := ticking.onHost (fun h => { h with msix := [(0, { masked := false }), (1, { masked := false })] })

/-- A full event queue. -/
def fullEvents : State := win.onMb (fun m => { m with events := List.replicate 1024 {} })

/-- A state whose mailbox slot 0 holds an IDENTIFY. -/
def rung : State := win.onMb (fun m => { m with bytes := [(0, 1)] })

/-- No control die is active. -/
def orphaned : State := win.onFaults (fun f => { f with orphan := true })

/-- A request that decodes. -/
def decodingReq : Request := { state := .decoding, tenant := 1 }

/-- The state with that request in slot 0. -/
def withReq (s : State) : State := s.onReq (fun u => { u with table := [(0, decodingReq)] })

/-- A register command of one entry, and the state in which it is outstanding. -/
def regOff (op : Nat) : Nat :=
  if op = 0x51 then 0x100010 else if op = 0x52 then 0x200010 else if op = 0x54 then 0x70004 else if op = 0x58 then 0xA0000
  else if op = 0x53 then 0x60000 else if op = 0x55 then 0x90000 else if op = 0x56 then 0xB0000 else if op = 0x57 then 0xC0000 else if op = 0x59 then 0xD0000 else 0x50000
def regCom (op : Nat) : MbCommand := { opcode := op, length := 16, payload := [0, 0, 0, 0] ++ leBytes 4 (regOff op) ++ List.replicate 8 0 }
def regAsk (op : Nat) : State := win.onMb (fun m => { m with outstanding := [regCom op] })

/-- A register command that names no register. -/
def badRegCom (op : Nat) : MbCommand := { opcode := op, length := 16, payload := [0, 0, 0, 0, 255, 255] }
def badRegAsk (op : Nat) : State := win.onMb (fun m => { m with outstanding := [badRegCom op] })

/-- A STORE_CONFIG that reserves 2,000 MiB for class 1. -/
def overCom : MbCommand := { opcode := 0x54, length := 16, payload := [0, 0, 0, 0] ++ leBytes 4 0x70018 ++ leBytes 4 0x7D07D0 ++ leBytes 4 0xFFFFFF }
def overAsk : State := win.onMb (fun m => { m with outstanding := [overCom] })

/-- A quarantined port 3 and the command that releases it. -/
def quarAsk : State := (ask win 0x56 [1, 3]).onGelcon (fun g => { g with ports := [(3, { quarantined := true })] })

/-- A device in READY and the command that joins a group. -/
def joinAsk : State := (ask win 0x11 [3, 1]).onStart (fun x => { x with state := .ready })

/-- A registered ring of 64 descriptors with one visible, and a state that has it as ring 0. -/
def aRing : Ring := { registered := true, sizeLog2 := 6, marks := [(1, 0)] }
def withRing (s : State) : State := s.onReq (fun u => { u with rings := [(0, aRing)] })

/-- A descriptor that passes every check, and a state that admits it. -/
def submitRead : DescRead :=
  { bytes := [1, 1] ++ List.replicate 30 0 ++ [1, 0, 0, 0, 1] ++ List.replicate 11 0 ++ [6] ++ List.replicate 29 0 ++ [128, 63]
      ++ List.replicate 6 0 ++ [128, 63] }
def submitState : State :=
  (((withRing win).onCfg (fun g => { g with tenants := [(0, { enabled := true })] })).onModels
    (fun m => { m with slots := [(0, { state := .resident, info := { vocab := 100 } })] })).onTier (fun t => { t with t1Free := 100000000 })

def noSpaceState : State := submitState.onTier (fun t => { t with t1Free := 0 })

/-- The request of that descriptor. -/
def submitReq : Request := requestOf (slice submitRead.bytes 0 256) submitRead 100

/-- A recovery of n entries that has started, and one whose next entry is that descriptor again. -/
def recCom (n : Nat) : MbCommand := { opcode := 0x46, phase := 1, payload := leBytes 4 n }
def recAsk (n : Nat) : State := win.onMb (fun m => { m with outstanding := [recCom n] })
def recRead : RecoverRead := { desc := submitRead }
def recFull (n : Nat) : State := submitState.onMb (fun m => { m with outstanding := [recCom n] })

/-- An admission is granted once its objects have places on every cluster. -/
theorem admitReq_ok {s : State} {slot port : Nat} {r p : Request} {ctx : List Nat}
    (hg : (s.grant1 r.tenant (objectGranules (s.mslot r.modelSlot).info r.promptLen r.maxNew r.spec.source r.spec.maxNodes) true).2 = St.ok)
    (hp : placeObjects s (s.mslot r.modelSlot).info slot r = some p) : (s.admitReq slot port r ctx).2 = St.ok := by
  unfold State.admitReq State.allocObjects
  rw [if_neg (by simpa using hg)]
  rw [hp]

/-- The state in which that descriptor is admitted. -/
def subTaken : State := (descTaken submitState 0).readBuffers 0 (slice submitRead.bytes 0 256) submitRead

theorem submit_placed : ∃ p, placeObjects subTaken (subTaken.mslot submitReq.modelSlot).info 0 submitReq = some p := by
  have h := placeEach_isSome .xf (Config.place subTaken.freeCtr 0 0) (homeWants submitReq) (onStack 0 (allSpans subTaken ++ [])) [] (by decide)
    (by decide)
  obtain ⟨l, hl⟩ := Option.isSome_iff_exists.1 h
  have hl' : placeOn subTaken [] 0 0 (homeWants submitReq) = some l := hl
  unfold placeObjects placeHome
  rw [show homeWants { submitReq with objects := [], prov := [], draftProv := [] } = homeWants submitReq from rfl]
  rw [show homeStack subTaken 0 = 0 by decide, hl']
  exact ⟨_, rfl⟩

theorem submit_fits : (subTaken.admitReq (dSlot (slice submitRead.bytes 0 256)) (submitState.ring 0).port submitReq submitReq.prompt).2 = St.ok := by
  obtain ⟨p, hp⟩ := submit_placed
  rw [show dSlot (slice submitRead.bytes 0 256) = 0 by decide]
  exact admitReq_ok (by decide) hp

/-- The state in which that recovery takes its entry, and what it recovers. -/
def recEntered (n : Nat) : State := entryTaken (recFull n) (recCom n) 0
def recTaking (n : Nat) : State := ((recEntered n).readBuffers 0 (slice submitRead.bytes 0 256) submitRead).hostRead 0 0 0
def recReq : Request := recoveredOf submitReq (slice [] 0 64) []

theorem rec_placed1 : ∃ p, placeObjects (recTaking 1) ((recTaking 1).mslot recReq.modelSlot).info 0 recReq = some p := by
  have h := placeEach_isSome .xf (Config.place (recTaking 1).freeCtr 0 0) (homeWants recReq) (onStack 0 (allSpans (recTaking 1) ++ [])) [] (by decide)
    (by decide)
  obtain ⟨l, hl⟩ := Option.isSome_iff_exists.1 h
  have hl' : placeOn (recTaking 1) [] 0 0 (homeWants recReq) = some l := hl
  unfold placeObjects placeHome
  rw [show homeWants { recReq with objects := [], prov := [], draftProv := [] } = homeWants recReq from rfl]
  rw [show homeStack (recTaking 1) 0 = 0 by decide, hl']
  exact ⟨_, rfl⟩

theorem rec_fits1 : (recoverOne (recEntered 1) (recCom 1) recRead).2 = St.ok := by
  obtain ⟨p, hp⟩ := rec_placed1
  have ha : ∀ port ctx, ((recTaking 1).admitReq (dSlot (slice recRead.desc.bytes 0 256)) port recReq ctx).2 = St.ok := fun port ctx => by
    rw [show dSlot (slice recRead.desc.bytes 0 256) = 0 by decide]
    exact admitReq_ok (by decide) hp
  have hs : ((recEntered 1).readBuffers ((recEntered 1).livePort (recCom 1).port) (slice recRead.desc.bytes 0 256) recRead.desc).hostRead
      ((recEntered 1).livePort (recCom 1).port) (field (slice recRead.entry 0 64) 16 8) (4 * field (slice recRead.entry 0 64) 8 4) = recTaking 1 := by
    decide +kernel
  unfold recoverOne
  extract_lets e d q st v port a
  rw [if_neg (show ¬ st ≠ St.ok by rw [Decidable.not_not]; decide +kernel)]
  have hx : a.2 = St.ok := by
    show (State.admitReq (State.hostRead (State.readBuffers _ _ _ _) _ _ _) _ _ _ _).2 = _
    rw [hs]
    exact ha _ _
  rw [if_neg (by rw [Decidable.not_not]; exact hx)]

theorem rec_placed2 : ∃ p, placeObjects (recTaking 2) ((recTaking 2).mslot recReq.modelSlot).info 0 recReq = some p := by
  have h := placeEach_isSome .xf (Config.place (recTaking 2).freeCtr 0 0) (homeWants recReq) (onStack 0 (allSpans (recTaking 2) ++ [])) [] (by decide)
    (by decide)
  obtain ⟨l, hl⟩ := Option.isSome_iff_exists.1 h
  have hl' : placeOn (recTaking 2) [] 0 0 (homeWants recReq) = some l := hl
  unfold placeObjects placeHome
  rw [show homeWants { recReq with objects := [], prov := [], draftProv := [] } = homeWants recReq from rfl]
  rw [show homeStack (recTaking 2) 0 = 0 by decide, hl']
  exact ⟨_, rfl⟩

theorem rec_fits2 : (recoverOne (recEntered 2) (recCom 2) recRead).2 = St.ok := by
  obtain ⟨p, hp⟩ := rec_placed2
  have ha : ∀ port ctx, ((recTaking 2).admitReq (dSlot (slice recRead.desc.bytes 0 256)) port recReq ctx).2 = St.ok := fun port ctx => by
    rw [show dSlot (slice recRead.desc.bytes 0 256) = 0 by decide]
    exact admitReq_ok (by decide) hp
  have hs : ((recEntered 2).readBuffers ((recEntered 2).livePort (recCom 2).port) (slice recRead.desc.bytes 0 256) recRead.desc).hostRead
      ((recEntered 2).livePort (recCom 2).port) (field (slice recRead.entry 0 64) 16 8) (4 * field (slice recRead.entry 0 64) 8 4) = recTaking 2 := by
    decide +kernel
  unfold recoverOne
  extract_lets e d q st v port a
  rw [if_neg (show ¬ st ≠ St.ok by rw [Decidable.not_not]; decide +kernel)]
  have hx : a.2 = St.ok := by
    show (State.admitReq (State.hostRead (State.readBuffers _ _ _ _) _ _ _) _ _ _ _).2 = _
    rw [hs]
    exact ha _ _
  rw [if_neg (by rw [Decidable.not_not]; exact hx)]

/-- A request with draft source k, and the command that replaces its draft. -/
def draftReq (k : Nat) : Request := { decodingReq with spec := { source := k } }
def draftCom : MbCommand := com 0x43 (List.replicate 16 0 ++ [1])
def draftAsk (k : Nat) : State := (win.onMb (fun m => { m with outstanding := [draftCom] })).onReq (fun u => { u with table := [(0, draftReq k)] })

/-- A migration to member 2 of group 31, and the state in which it is outstanding. -/
def migCom : MbCommand := com 0x45 ([0, 0, 0, 0, 0, 0, 0, 0] ++ leBytes 2 (31 * 16 + 2))
def migAsk : State := (withReq (win.onMb (fun m => { m with outstanding := [migCom] }))).onTick (fun k => { k with inGroup := true })

/-- A window that is still to settle a request in slot 0. -/
def timerState (r : Request) : State := win.onReq (fun u => { u with table := [(0, r)], unsettled := [0] })

/-- A tick at whose edge the window of tenant 1 begins. -/
def budgetState : State :=
  (ticking.onCfg (fun g => { g with tenants := [(1, { budgetTokens := 10, windowTicks := 5 })] })).onPlan (fun p => { p with accounts := [(1, -7)] })

/-- A payload that registers region 0 as paging space of 2 MiB, and that region. -/
def regPay : List Byte := List.replicate 16 0 ++ leBytes 8 2097152
def aRegion : Region := { length := 2097152 }
def withRegion (s : State) : State := s.onTier (fun t => { t with regions := [aRegion] })

/-- A page group of digest 1 in handle 7, and the payload of a directive that names it. -/
def aGroup : PageGroup := { state := .resident, digest := 1 }
def withGroup (s : State) : State := s.onTier (fun t => { t with groups := [(7, aGroup)] })
def dirPay (d : Nat) : List Byte := leBytes 16 d ++ [1]

/-- A window with that group in a state and a paging region. -/
def t2State (g : GroupState) : State := withRegion (win.onTier (fun t => { t with groups := [(7, { aGroup with state := g })] }))

/-- A fixed region over the first 2 MiB of the tier-2 window, and a payload that names its first byte. -/
def fixedRegion (s : State) : State := s.onTier (fun t => { t with regions := [{ isFixed := true, length := 2097152 }] })
def loadPay : List Byte := List.replicate 8 0 ++ leBytes 8 t2Base

/-- MODEL_LOAD commands into slot 0 and into any slot, waiting for the header. -/
def loadCom : MbCommand := { com 0x70 loadPay with phase := 1 }
def loadAsk : State := win.onMb (fun m => { m with outstanding := [loadCom] })
def anyCom : MbCommand := { com 0x70 ([255] ++ List.replicate 7 0 ++ leBytes 8 t2Base) with phase := 1 }

/-- The header and directory of an image of one layer and one head, with empty sections. -/
def imgBytes : List Byte :=
  leBytes 4 0x4C444D31 ++ [1, 0, 1, 0, 1, 0, 0, 0, 1, 1, 7, 0] ++ List.replicate 48 0
    ++ (List.range 7).flatMap (fun k => leBytes 8 (k + 1) ++ leBytes 8 2048 ++ leBytes 8 0)

/-- A whole image: the same header with a fingerprint, and after byte 64 its directory, one INT8 cache record, 16 tensor-slot records,
one page on cluster 0 and three kernels. -/
def imgRest : List Byte :=
  (leBytes 8 1 ++ leBytes 8 2048 ++ leBytes 8 64 ++ leBytes 8 2 ++ leBytes 8 4096 ++ leBytes 8 256 ++ leBytes 8 3 ++ leBytes 8 10240 ++ leBytes 8 0
    ++ leBytes 8 4 ++ leBytes 8 6144 ++ leBytes 8 34 ++ leBytes 8 5 ++ leBytes 8 8192 ++ leBytes 8 96 ++ leBytes 8 6 ++ leBytes 8 10240 ++ leBytes 8 0
    ++ leBytes 8 7 ++ leBytes 8 10240 ++ leBytes 8 0 ++ List.replicate 1816 0)
    ++ ([2] ++ List.replicate 2047 0) ++ List.replicate 2048 0 ++ ([1] ++ List.replicate 2047 0)
    ++ ([0, 0, 255, 255] ++ List.replicate 28 0 ++ [1] ++ List.replicate 31 0 ++ [2, 0, 255, 255] ++ List.replicate 28 0) ++ List.replicate 1952 0
def imgWith (fp : Nat) : List Byte :=
  leBytes 4 0x4C444D31 ++ [1, 0, 1, 0, 1, 0, 0, 0, 1, 1, 7, 0] ++ leBytes 32 fp ++ List.replicate 16 0 ++ imgRest
def fullImage : List Byte := imgWith (imgDigest (imgWith 0))

/-- What a read of that image gives, and a state whose slot 0 waits for it. -/
def loadedRead : ModelRead := { image := fullImage }
def loadedSlot : ModelSlot := { state := .loading, info := imgInfo t2Base fullImage }
def loadedState : State := fixedRegion (win.onModels (fun m => { m with slots := [(0, loadedSlot)] }))

def loadedAsked : State := (fixedRegion (win.onModels (fun m => { m with slots := [(0, { loadedSlot with loadMb := some 0 })] }))).onMb (fun m => { m with outstanding := [loadCom] })

/-- A load into any slot that has room, one into a slot that is not free, and one where every slot is pinned. -/
def roomAsk : State := fixedRegion ((win.onMb (fun m => { m with outstanding := [anyCom] })).onTier (fun t => { t with t1Free := 100000000 }))
def takenSlot : State := fixedRegion (loadAsk.onModels (fun m => { m with slots := [(0, { state := .resident })] }))
def pinnedSlots : State := fixedRegion ((win.onMb (fun m => { m with outstanding := [anyCom] })).onModels
  (fun m => { m with slots := (List.range 16).map (fun k => (k, { state := .resident, pinned := true })) }))

/-- Every slot RESIDENT while a load into any slot waits for its header, and the command that evicts slot 0 as it starts. -/
def fullSlots : State := fixedRegion ((win.onMb (fun m => { m with outstanding := [anyCom] })).onModels
  (fun m => { m with slots := (List.range 16).map (fun k => (k, { state := .resident })) }))
def evicted : State :=
  (((ask win 0x71 []).onModels (fun m => { m with slots := [(0, { state := .resident })] })).begin.modMslot 0 (fun m => { m with evictMbs := m.evictMbs ++ [0] })).setCmd
    { com 0x71 [] with phase := 1, aux := 0 }

theorem leNat_lt (l : List Byte) : leNat l < 256 ^ l.length := by
  induction l with
  | nil => decide
  | cons b r ih => have := b.isLt; simp only [leNat, List.length_cons, Nat.pow_succ]; omega

theorem leNat_leBytes (n v : Nat) : leNat (leBytes n v) = v % 256 ^ n := by
  induction n generalizing v with
  | zero => simp [leNat, leBytes, Nat.mod_one]
  | succ n ih =>
    simp only [leNat, leBytes, ih, Nat.pow_succ]
    rw [Nat.mul_comm (256 ^ n) 256, Nat.mod_mul]
    simp

theorem imgDigest_lt (b : List Byte) : imgDigest b < 256 ^ 32 := by
  have h : (sha256 (slice b 64 (imgLength b - 64))).length ≤ 32 := List.length_take_le ..
  exact Nat.lt_of_lt_of_le (leNat_lt _) (Nat.pow_le_pow_right (by decide) h)

/-- The fingerprint that an image states. -/
theorem imgWith_fp (a : Nat) (fp : Nat) (h : fp < 256 ^ 32) : (imgInfo a (imgWith fp)).fp.toNat = fp := by
  have hs : field (imgWith fp) 16 32 = leNat (leBytes 32 fp) := rfl
  show (BitVec.ofNat 256 (field (imgWith fp) 16 32)).toNat = fp
  rw [hs, leNat_leBytes, BitVec.toNat_ofNat, Nat.mod_eq_of_lt h, Nat.mod_eq_of_lt (by rw [show (2 : Nat) ^ 256 = 256 ^ 32 by decide]; exact h)]

/-- The digest does not depend on the fingerprint. -/
theorem imgWith_digest (fp : Nat) : imgDigest (imgWith fp) = imgDigest (imgWith 0) := rfl

theorem loaded_ok (s : State) (h1 : imgStatus s loadedSlot.info.addr loadedRead.image = St.ok) : loadStatus s loadedSlot.info loadedRead = St.ok := by
  have hd : imgDigest loadedRead.image = loadedSlot.info.fp.toNat := by
    show imgDigest fullImage = (imgInfo t2Base fullImage).fp.toNat
    rw [show (imgInfo t2Base fullImage).fp.toNat = imgDigest (imgWith 0) from imgWith_fp _ _ (imgDigest_lt _)]
    exact imgWith_digest _
  have h2 : imgInfo loadedSlot.info.addr loadedRead.image = { loadedSlot.info with spans := [] } := rfl
  have h3 : (sectionsOk loadedSlot.info loadedRead.image && draftOk loadedSlot.info loadedRead.image) = true := by decide +kernel
  have h4 : digestsOk loadedSlot.info loadedRead.image = true := by
    unfold digestsOk
    rw [show loadedSlot.info.draft = false by decide +kernel]
    simpa using hd
  have hf : loadedRead.fail = false := rfl
  unfold loadStatus
  simp only [hf, h1, h2, h3, h4, Bool.not_false, Bool.true_or, Bool.true_and, Bool.not_true, ne_eq, not_true_eq_false, decide_false,
    Bool.false_eq_true, if_false]

/-- A state that takes an ALLOY_LOAD of id 0, one that loads generation 1 of id 1, and the header of an Alloy. -/
def alloyState : State :=
  ((fixedRegion (ask win 0x75 loadPay)).onModels (fun m => { m with slots := [(0, { state := .resident, info := { alloyShapes := true } })] })).onTier
    (fun t => { t with t1Free := 1 })
def alloyLoading : State := fixedRegion (win.onModels (fun m => { m with gens := [{ id := 1, gen := 1, addr := t2Base }] }))
def alloyCom : MbCommand := { com 0x75 loadPay with phase := 1, aux := 4097 }
def alloyOkRead : AlloyRead := { image := leBytes 4 0x4C414C31 ++ [1, 1, 1] }
def retireAsk : State := (ask win 0x76 [1, 0, 1]).onModels (fun m => { m with gens := [{ id := 1, gen := 1, state := .resident }] })

def twoGens (g : GenState) : State := alloyState.onModels (fun m => { m with gens := [{ gen := 1, state := g }, { gen := 2, state := .resident, order := 1 }] })

def fullCeiling : State := alloyState.onModels (fun m => { m with gens := [{ id := 5, gen := 1, perStack := [1000000000] }] })

/-- A MODEL_LOAD with tag 9 in slot 1, and an ABORT of it. -/
def abortTarget : MbCommand := { slot := 1, opcode := 0x70, tag := 9 }
def abortAsk : State := win.onMb (fun m => { m with outstanding := [com 6 [9], abortTarget] })

/-- A read of block 1 into a buffer of 512 bytes. -/
def statPay : List Byte := [1, 0, 0, 0, 0, 2]

/-- A Calibration Record with one empty section, and a device in MAINTENANCE that is asked to take it. -/
def calHead : List Byte := leBytes 4 0x43414C31 ++ [1, 1, 0, 0] ++ leBytes 8 State.reset.mb.serial ++ [0, 0, 0, 0] ++ leBytes 4 48
def calTail : List Byte := [1, 0, 0, 0] ++ leBytes 4 48 ++ leBytes 8 0
def calBytes : List Byte := calHead ++ leBytes 4 (crc32 (calHead ++ calTail)).toNat ++ [0, 0, 0, 0] ++ calTail
def calState : State := (ask win 0x91 [0, 0, 0, 0, 64]).onStart (fun x => { x with state := .maintenance })

/-- A tick in progress whose plan has one job, and one with a row for slot 0 besides. -/
def jobAt (j : Job) : State := ticking.onPlan (fun p => { p with jobs := [j] })
def mergeRowRec : PlanRow := { tokens := 1, depth := 1 }
def withRow (s : State) (r : Request) : State := (s.onReq (fun u => { u with table := [(0, r)] })).onPlan (fun p => { p with rows := [mergeRowRec] })
def treeState (k : Nat) : State := withRow (jobAt { kernels := 3 }) (draftReq k)

/-- The same with the job finished, the attempt waiting and sixteen records there, and what the merge gives. -/
def mergeJob : Job := { kernels := 3, next := 3, finished := true }
def mergeState : State :=
  (withRow ((jobAt mergeJob).onPlan (fun p => { p with attempts := [{ slot := 0 }] })) decodingReq).onStore
    (fun u => { u with records := (List.range 16).map (fun c => { cluster := c }) })
def mergeOut : List (Nat × BitVec 16 × Nat) × Bool := (mergeRow (mergeState.atTime 5) decodingReq mergeRowRec).getD ([], false)

/-- Two jobs, the second of class 7, with pre-emption enabled. -/
def preemptState : State :=
  (ticking.onPlan (fun p => { p with jobs := [{ next := 1, kernels := 3 }, { modelSlot := 1, kernels := 3, urgent := true }] })).onCfg
    (fun g => { g with regs := { g.regs with planCtl := 0x80000 } })

/-- A bank-unit command word for bank 0 of core die 0, and a matrix command word for group 0 of unit 0. -/
def buW (op sets count var : Nat) : BitVec 128 := BitVec.ofNat 128 (op * 2 ^ 120 + 2 ^ 104 + 2 ^ 40 + sets * 2 ^ 11 + count * 16 + var)
def mxW (op new count : Nat) : BitVec 128 := BitVec.ofNat 128 (op * 2 ^ 120 + new * 2 ^ 112 + count * 2 ^ 34)

/-- A device in MAINTENANCE whose bank 0 of cluster 0 has an exponent table, and its variants for each check. -/
def maintState : State := ticking.onStart (fun x => { x with state := .maintenance })
def passState : State := maintState.modBu 0 0 (fun u => { u with exptabValid := true })
def gatherState : State := maintState.modBu 0 0 (fun u => { u with gather := [0x8000] })
def gatherDue0 : GatherDue := { dst := 1, lanes := [(0, 0)], planes := 1 }
def gatherWord0 : BitVec 128 × BitVec 128 := gatherWords .xf gatherDue0
def gatherWin : State := win.onReq (fun q => { q with gathersDue := [gatherDue0] })
def fullBuffer : State := win.modBcl 0 (fun c => { c with append := List.replicate 3072 {} })
def owingState : State := maintState.onTick (fun k => { k with iv := 7812 })
def rchkState : State :=
  (passState.modBcl 0 (fun c => { c with append := [{ dim := 64 }] })).onCfg (fun g => { g with regs := { g.regs with buCfg := [0x00610300] } })
def rchkHold : State :=
  (maintState.modMcl 0 (fun c => { c with holds := [{ count := 1 }] })).onCfg (fun g => { g with regs := { g.regs with buCfg := [0x00610300] } })
def combineState : State :=
  ((jobAt { active := true, kernels := 3 }).modBcl 0 (fun c => { c with drains := [{}] })).onModels (fun m => { m with slots := [(0, { info := { layers := 1 } })] })

/-- A staged ingot, an OPEN group with an ingot in front or behind, and a segment list with its Alloy. -/
def stagedFetch : Staged := { arrived := true }
def stagedState : State := maintState.modMcl 0 (fun c => { c with staging := [stagedFetch] })
def mpassState : State := maintState.modMcl 0 (fun c => { c with groups := [(0, { state := .opened })], units := [(0, { front := some { fmt := 3 } })] })
def mpassBack : State :=
  maintState.modMcl 0 (fun c => { c with groups := [(0, { state := .opened })], units := [(0, { back := some { fmt := 3, poisoned := true } })] })
def apassState : State :=
  { maintState.onModels (fun m => { m with gens := [{ id := 1, gen := 1 }] }) with
    variant := .xl, mem := [(spBase 0, 1), (spBase 0 + 18, 1), (spBase 0 + 20, 1)] }

/-- A running job with one ingot in its directory, the state its fetch leaves, and an outstanding fetch whose frame is consistent. -/
def fetchState : State :=
  (jobAt { active := true, kernels := 3 }).onModels (fun m => { m with slots := [(0, { info := { dirs := [[[{ fmt := 3 }]]] } })] })
def fetchNext : State := (issueFetch fetchState 0 0 0).getD fetchState
def goodFetch : Staged := { ingot := { fmt := 3 } }
def fetchGood : State := { maintState.modMcl 0 (fun c => { c with staging := [goodFetch] }) with mem := [(granAddr 0 0 1, 1)] }

def fetchWin : State := fetchGood.onTick (fun k => { k with inCommit := true })

/-- A running job with semaphore 7, and the first and last words of a chain of one stage. -/
def semState (q : Semaphore) : State := (jobAt { active := true, kernels := 3 }).onStore (fun u => { u with sems := [(7, q)] })
def okChain : List Byte := [1, 0, 0, 0, 1] ++ List.replicate 59 0

/-- A running job that holds a block of the store, and the same with a semaphore. -/
def chainState : State := (jobAt { active := true, kernels := 3 }).onStore (fun u => { u with held := [{ cls := .act, holder := 0, blocks := 1 }] })
def reduceState : State := chainState.onStore (fun u => { u with sems := [(7, { value := 2 })] })

/-- A shipment class with every block held, a row of the store with three erasures and what its read counts, and patrol on and off. -/
def fullShip : State := ticking.onStore (fun u => { u with held := [{ cls := .ship, blocks := 12288 }], queue := [{ cls := .ship, blocks := 1 }] })
def badRow : State := ticking.onStore (fun u => { u with bad := [(0, 0), (0, 1), (0, 2)] })
def badRowRead : State := (badRow.answerWith (List.replicate 64 0)).readStore 0 64
def patrolOn : State := ticking.onCfg (fun g => { g with regs := { g.regs with storeCtl := 0x10000 } })
def patrolOff : State := ticking.onCfg (fun g => { g with regs := { g.regs with storeCtl := 0 } })

/-- A member that runs as tick master, the same in its voting time, and with its vote closed. -/
def grouped : State := (ticking.onTick (fun k => { k with inGroup := true, isMaster := true, group := 3 })).modPort 0 (fun g => { g with trained := true, up := true })
def masterLost : State := grouped.onTick (fun k => { k with master := 1, isMaster := false, masterMisses := 2, syncRuns := [(1, 200), (2, 100)], syncFit := [2] })
def masterSelf : State := (masterLost.onTick (fun k => { k with syncRuns := [(0, 100)], aligned := true }))
def voting : State := grouped.onTick (fun k => { k with inCommit := true, votingOpen := true })
def voteClosed : State := (voting.atTime (voting.tick.commitOpenAt + voting.tick.commitUs * 500)).onTick (fun k => { k with votingOpen := false })

/-- A device whose group number is set, a packet for it, and a state with a receive reservation. -/
def linked : State := (ticking.onTick (fun k => { k with group := 1 })).modPort 0 (fun g => { g with trained := true, up := true })
def actPacket : Packet := { ptype := 0x10, tc := 1, dst := identityOf linked, src := 18, payload := [1, 2, 3, 4, 5, 6, 7, 8] }
def heldShip : State := linked.onStore (fun u => { u with held := [{ cls := .ship, holder := 2 ^ 65, blocks := 1 }] })

/-- A device with two local ports up that its group knows of, and where a packet for member 2 goes. -/
def twoPorts : State :=
  (linked.modPort 1 (fun g => { g with trained := true, up := true, cabled := 4 })).onGelcon
    (fun g => { g with view := [(0, 0, true), (0, 1, true)] })
def globalPort : State := twoPorts.modPort 15 (fun g => { g with trained := true, up := true })
def outHop : Nat × Packet :=
  match route globalPort { actPacket with dst := 16 + 2 } [] false with
  | .out n h => (n, h)
  | _ => (0, {})
def outPort : Nat := outHop.1
def outHead : Packet := outHop.2

/-- Packets of shipment 7, and states that hold it. -/
def openPacket : Packet :=
  { actPacket with ptype := 0x20, tc := 2, payload := leBytes 8 7 ++ List.replicate 32 0 ++ [1, 0, 0, 0] ++ leBytes 4 2 ++ List.replicate 16 0 }
def grantPacket : Packet := { openPacket with ptype := 0x21, payload := leBytes 8 7 ++ leBytes 8 0 ++ leBytes 8 1024 }
def donePacket : Packet := { openPacket with ptype := 0x23, payload := leBytes 8 7 ++ leBytes 4 0 ++ leBytes 4 1 ++ leBytes 8 0 }
def inShip : Shipment := { handle := 7, slot := some 0, windowEnd := 4096, got := [(0, 64)] }
def shipState (x : Shipment) : State := withReq (linked.onGelcon (fun g => { g with ships := [x] }))
def grantState : State := shipState { handle := 7, slot := some 0, outgoing := true, blocks := 2 }
def grantSent : State :=
  ((grantState.atTime 5).setShip { handle := 7, slot := some 0, outgoing := true, blocks := 2, landed := 1024, windowEnd := 1024 }).sendMsg 18 0x22 2 0 7 false (outBytes (grantState.atTime 5) {} decodingReq 0 1024)
def applyState : State :=
  (win.onGelcon (fun g => { g with ships := [{ inShip with verified := true }] })).onReq (fun u => { u with table := [(0, { state := .importing })] })

/-- A trained port 3, a port with a lane retired, Gelcon enabled, and a flit of a type and data with its CRC. -/
def linkOn : State := linked.onCfg (fun g => { g with regs := { g.regs with glCtl := 1 } })
def onePort : State := linked.modPort 3 (fun g => { g with trained := true, up := true, laneMask := 15, vcs := freshVcs })
def portSilent : State := onePort.modPort 3 (fun g => { g with up := false })
def portAhead : State := onePort.modPort 3 (fun g => { g with expect := 1 })
def retiredLane : State := linked.modPort 3 (fun g => { g with trained := true, laneMask := 11, retired := [2] })
def flitHead (ft : Nat) (d : List (BitVec 8)) : List (BitVec 8) := leBytes 8 (ft * 2 ^ 32) ++ slice d 0 240 ++ leBytes 4 0
def flitOf (ft : Nat) (d : List (BitVec 8)) : List (BitVec 8) := flitHead ft d ++ leBytes 4 (crc32 (flitHead ft d)).toNat
theorem leBytes_length : ∀ n v, (leBytes n v).length = n
  | 0, _ => rfl
  | n + 1, v => by simp [leBytes, leBytes_length n]
theorem slice_length (b : List Byte) (o n : Nat) : (slice b o n).length = n := by simp [slice]
theorem flitHead_length (ft : Nat) (d : List (BitVec 8)) : (flitHead ft d).length = 252 := by simp [flitHead, leBytes_length, slice_length]
theorem leNat_four (n : Nat) (h : n < 4294967296) : leNat (leBytes 4 n) = n := by simp [leBytes, leNat]; omega
theorem flit_crc (ft : Nat) (d : List (BitVec 8)) : flCrcOk (flitOf ft d) = true := by
  have hs : slice (flitOf ft d) 0 252 = flitHead ft d := by simp [slice, flitOf, flitHead_length]
  have hf : field (flitOf ft d) 252 4 = (crc32 (flitHead ft d)).toNat := by
    have h4 : slice (flitOf ft d) 252 4 = leBytes 4 (crc32 (flitHead ft d)).toNat := by
      simp [slice, flitOf, List.drop_append, flitHead_length, leBytes_length]
    rw [field, h4, leNat_four _ (crc32 (flitHead ft d)).isLt]
  simp [flCrcOk, hs, hf]
def retiredGone : State := (retiredLane.atTime 5).modPort 3 (fun g => { g with retired := setDel 2 g.retired })

/-- A device whose port 1 is down and may come up, and one with a flush read outstanding. -/
def portBack : State :=
  ((ticking.onHost (fun h => { h with ports := [{ up := true }, {}] })).onStart (fun x => { x with stage := 8 })).onCfg
    (fun g => { g with regs := { g.regs with hxCtl := 3 } })
def flushing : State := ticking.onHost (fun h => { h with ports := [{ up := true, flushes := [(4, 0)] }, { up := true }] })

/-- A firmware image with nothing but a header, signed with the key of slot 0, and what its measure leaves of two images. -/
def goodImage : List Byte :=
  leBytes 4 0x46574931 ++ [1, 0, 0, 0] ++ leBytes 4 512 ++ List.replicate 244 0 ++ (leBytes 48 (baseX % curveN))
    ++ (leBytes 48 0xeeb58b9b1f97c91f3e5c43dedf2cf7ef07d082539139ffa65c7aad55b54dce97aff026fd1e9c9bba0ecf44888ac8066c) ++ (leBytes 48 baseX) ++ (leBytes 48 baseY) ++ List.replicate 64 0
def goodFw : FwRead := { image := goodImage }
theorem goodFw_ok : fwVerified State.reset goodFw = true := by decide +kernel
def fwSeen (a b : Bool) : State :=
  (State.reset.atTime 5).onMb (fun m => { m with
    imageA := { fwImageOf (if a then goodFw else {}) with valid := a }, imageB := { fwImageOf (if b then goodFw else {}) with valid := b } })
theorem badFw : fwVerified State.reset {} = false := by decide
theorem fwSeen_a : fwSeen true false = (State.reset.atTime 5).onMb (fun m => { m with
    imageA := { fwImageOf goodFw with valid := fwVerified State.reset goodFw }, imageB := { fwImageOf {} with valid := fwVerified State.reset {} } }) := by
  rw [goodFw_ok, badFw]; rfl
theorem fwSeen_b : fwSeen false true = (State.reset.atTime 5).onMb (fun m => { m with
    imageA := { fwImageOf {} with valid := fwVerified State.reset {} }, imageB := { fwImageOf goodFw with valid := fwVerified State.reset goodFw } }) := by
  rw [goodFw_ok, badFw]; rfl

/-- A device in TRAIN at a stage, and what an empty report leaves of it. -/
def stageState (n : Nat) : State := (State.reset.onStart (fun x => { x with firmwareOk := true, pwrReq := true })).onStart (fun x => { x with state := .train, stage := n })
def stageSeen (n : Nat) : State :=
  (((stageState n).atTime 5).takeReport {}).onStart (fun x => { x with derived := x.derived ++ derivedIn (((stageState n).atTime 5).takeReport {}) {} })

/-- A device that snaps Invar at a PPS edge, and one whose power has been measured. -/
def ppsState : State := (ticking.onCfg (fun g => { g with ivCtl := 12 })).onTick (fun k => { k with everServing := false })
def measured : State :=
  ((ticking.atTime 5).onPower (fun p => { p with
    msW := 3000 % 65536, volts10mv := 4800 % 65536, amps10ma := 6250 % 65536, logicMax := 60 % 256, dramMax := 50 % 256, hotCode := 3 % 64
    energyMj := add64 p.energyMj (3000 % 65536), tickPowerSum := p.tickPowerSum + 3000 % 65536, tickPowerN := p.tickPowerN + 1 })).onPlan
      (fun p => { p with readyPowerSum := p.readyPowerSum + 3000 % 65536, readyPowerN := p.readyPowerN + 1, running := [], meters := p.meters ++ [] })

/-- A device with power good, one in OFF, one that has verified its firmware, and one in a warm reset with what its end leaves. -/
def powered : State := ticking.onStart (fun x => { x with pwrGood := true })
def offState : State := State.reset.onStart (fun x => { x with state := .off })
def verifiedBoot : State := State.reset.onStart (fun x => { x with firmwareOk := true, pwrReq := true, stage := 1 })
def warmed : State := ticking.onStart (fun x => { x with warmRunning := true, prior := .ready })
def warmedThen : State :=
  ((((((warmed.atTime 5).onStart (fun x => { x with warmRunning := false, state := x.prior })).onTick
    (fun k => { k with
      firstEdge := k.firstEdge + 1 * max 1 (warmed.tick.tickUs * 1000), firstIndex := k.firstIndex + 1, frozenCfg := if k.pendIndex ≠ 0 && k.pendIndex ≤ k.firstIndex + 1 then none else k.frozenCfg
      pendIndex := if k.pendIndex = 0 then 0 else max (k.firstIndex + 1) k.pendIndex })).refreshAll 5).controlBack true).resumeTier (warmed.tick.firstIndex + 1)).reissueAll

/-- A promotion declared before the last edge, with a standby and without one. -/
def promotedState : State := ticking.onFaults (fun f => { f with takeover := some 7, ctStandby := true, ctFailed := [0] })
def noStandby : State := ticking.onFaults (fun f => { f with takeover := some 7, ctStandby := false, ctFailed := [0, 1] })

/-- An uncorrectable word of tier 1 as it is first noted, a slot with a poisoned ingot, and the same with bytes written back. -/
def uncorrNoted : State :=
  (((ticking.atTime 5).onFaults (fun f => { f with lastUncorr := stackBase 0 % two64 })).countStack (granuleOf (stackBase 0)).1
    (fun c => { c with uncorrectable := inc64 c.uncorrectable })).onPlan
      (fun u => { u with attempts := markAttempts [] (fun a => { a with poisoned := true }) u.attempts })
def uncorrIn : State :=
  (((win.atTime 5).onFaults (fun f => { f with lastUncorr := stackBase 0 % two64 })).countStack (granuleOf (stackBase 0)).1
    (fun c => { c with uncorrectable := inc64 c.uncorrectable })).onPlan
      (fun u => { u with attempts := markAttempts [] (fun a => { a with poisoned := true }) u.attempts })
def repairing : State := ticking.onModels (fun m => { m with slots := [(0, { state := .resident, poisoned := [(0, 3)] })] })
def repairWritten : State := repairing.putBytes (granAddr 0 3 0) [1]
def sparingOn : State := ticking

/-! ## States and operands that meet the hypotheses of the statements, clause by clause -/

theorem test_hypotheses_StepRunsFrontCommand :
    (∃ (c : Instr) (rest : List Instr) (s : State), s.pending = c :: rest) ∧ (∃ s : State, s.pending = []) :=
  ⟨⟨.tickEdge, [], { State.reset with pending := [.tickEdge] }, rfl⟩, ⟨State.reset, rfl⟩⟩

theorem test_hypotheses_InvariantKeptByEveryStep : ∃ s t : State, Inv s ∧ step s = .next t :=
  ⟨State.reset, idle State.reset, by unfold Inv MemOk LogsOk; decide, rfl⟩

theorem test_hypotheses_QueueAndVariantKept : ∃ (c : Instr) (s t : State), exec c s = .next t :=
  ⟨.commitOpen, State.reset, State.reset, rfl⟩

theorem test_hypotheses_StepConsumesOneCommand : ∃ (s : State) (c : Instr) (rest : List Instr), s.pending = c :: rest :=
  ⟨{ State.reset with pending := [.tickEdge, .commitOpen] }, .tickEdge, [.commitOpen], rfl⟩

theorem test_hypotheses_ReadAfterWrite :
    (∃ m : Memory, m.wf = true) ∧ (∃ (m : Memory) (a x : Nat) (bs : List Byte), m.wf = true ∧ (x < a ∨ a + bs.length ≤ x)) :=
  ⟨⟨[(3, 1), (4, 2)], by decide⟩, ⟨[(3, 1)], 4, 5, [7], by decide⟩⟩

theorem test_hypotheses_CompletionFrame : 
    (∃ (s t : State) (c : MbCommand) (st : Nat) (d : List Byte) (code a b v cause port target : Nat),
      t = s.complete c st d ∨ t = s.postEvent code a b ∨ t = s.misuse v v cause port target) ∧
    (∃ (s t : State) (code a b v cause port target : Nat), t = s.postEvent code a b ∨ t = s.misuse v v cause port target) :=
  ⟨⟨win, _, com 1 [], 0, [], 0, 0, 0, 0, 0, 0, 0, .inl rfl⟩, ⟨win, _, 1, 0, 0, 0, 0, 0, 0, .inl rfl⟩⟩

theorem test_hypotheses_SaturatingLanes :
    (∃ (x : BitVec 32) (v : Int), x ≠ 0x7FFFFFFF ∧ x ≠ 0x80000000 ∧ -2147483648 < x.toInt + v ∧ x.toInt + v < 2147483647) ∧
    (∃ (x : BitVec 32) (v : Int), x ≠ 0x80000000 ∧ 2147483647 ≤ x.toInt + v) ∧
    (∃ (x : BitVec 32) (v : Int), x ≠ 0x7FFFFFFF ∧ x.toInt + v ≤ -2147483648) ∧
    (∃ (x : BitVec 32) (l : List Int), (x = 0x7FFFFFFF ∨ x = 0x80000000) ∧ l = [1]) :=
  ⟨⟨0x7FFFFFFE, 0, by decide⟩, ⟨0x7FFFFFFE, 1, by decide⟩, ⟨0x80000001, -1, by decide⟩, ⟨0x80000000, [1], by decide⟩⟩

/-- A lane one short of its end takes the next unit and then holds it. -/
theorem test_lane_holds : laneAdd (laneAdd 0x7FFFFFFE 1) (-5) = 0x7FFFFFFF := by decide

theorem test_hypotheses_TickEdgeStartsNextTick :
    (∃ (s : State), s.tick.running = true ∧ s.tick.inCommit = true ∧ s.start.warmPending = false) ∧
    (∃ (s : State), s.tick.running = false ∧ ticksOpen s = true) ∧
    (∃ (s : State), s.tick.running = true ∧ s.tick.inCommit = false) :=
  ⟨⟨win, by decide⟩,
   ⟨serving, by decide⟩,
   ⟨ticking, by decide⟩⟩

theorem test_hypotheses_CommitOpenOpensWindow :
    (∃ (s : State), s.tick.running = true ∧ s.tick.inCommit = false) ∧
    (∃ (s : State), (s.tick.running && !s.tick.inCommit) = false) :=
  ⟨⟨ticking, by decide⟩,
   ⟨win, by decide⟩⟩

theorem test_hypotheses_CompletionWritesSlot :
    (∃ (s : State) (c : MbCommand) (status : Nat) (data : List Byte), Memory.wf s.mb.bytes = true ∧ c.slot < 256 ∧ data.length ≤ 224) ∧
    (∃ (s : State) (c : MbCommand) (status p : Nat) (data : List Byte), s.lowPort = some p ∧ s.tick.inCommit = false ∧ (tabGetD 1 ({} : MsixEntry) s.host.msix).masked = false) :=
  ⟨⟨win, com 1 [], 0, [1], by decide⟩,
   ⟨unmasked, com 1 [], 0, 0, [], by decide⟩⟩

theorem test_hypotheses_EventsArePosted :
    (∃ (s : State) (code a b : Nat), s.mb.events.length < 1024) ∧
    (∃ (s : State) (code a b : Nat), s.mb.events.length = 1024) ∧
    (∃ (s : State) (code a b p : Nat), s.lowPort = some p ∧ s.tick.inCommit = false ∧ (tabGetD 0 ({} : MsixEntry) s.host.msix).masked = false) ∧
    (∃ (s : State) (code a b p : Nat), s.lowPort = some p ∧ s.tick.inCommit = true ∧ s.host.windowVectors.any (fun q => q.1 = 0) = false) ∧
    (∃ (s : State) (code a b p : Nat), s.lowPort = some p ∧ s.tick.inCommit = false ∧ (tabGetD 0 ({} : MsixEntry) s.host.msix).masked = true) ∧
    (∃ (s : State) (mb : Nat) (c : MbCommand), Asked s mb 0x04 c ∧ (1 ≤ cf c 0 1 ∧ cf c 0 1 ≤ 13)) ∧
    (∃ (s : State) (mb : Nat) (c : MbCommand), Asked s mb 0x04 c ∧ (¬(1 ≤ cf c 0 1 ∧ cf c 0 1 ≤ 13))) :=
  ⟨⟨win, 1, 2, 3, by decide⟩,
   ⟨fullEvents, 1, 2, 3, by decide⟩,
   ⟨unmasked, 1, 2, 3, 0, by decide⟩,
   ⟨win, 1, 2, 3, 0, by decide⟩,
   ⟨ticking, 1, 2, 3, 0, by decide⟩,
   ⟨ask win 4 [1], 0, com 4 [1], by decide⟩,
   ⟨ask win 4 [0], 0, com 4 [0], by decide⟩⟩

theorem test_hypotheses_DoorbellIsTaken :
    (∃ (s : State) (t port : Nat) (v : BitVec 32) (c : MbCommand), s.barUp port = true ∧ s.sceolUp = true ∧ v.toNat < 256 ∧ s.mb.outstanding.any (fun x => x.slot = v.toNat) = false ∧ c = { commandOf (s.mbBytes v.toNat) v.toNat t port with arrival := s.host.arrivals } ∧ commandCheck s (s.mbBytes v.toNat) = St.ok) ∧
    (∃ (s : State) (t port : Nat) (v : BitVec 32) (c : MbCommand), s.barUp port = true ∧ s.sceolUp = true ∧ v.toNat < 256 ∧ s.mb.outstanding.any (fun x => x.slot = v.toNat) = false ∧ c = { commandOf (s.mbBytes v.toNat) v.toNat t port with arrival := s.host.arrivals } ∧ commandCheck s (s.mbBytes v.toNat) ≠ St.ok) ∧
    (∃ (s : State) (t port : Nat) (v : BitVec 32), s.barUp port = true ∧ s.sceolUp = true ∧ v.toNat < 256 ∧ s.mb.outstanding.any (fun x => x.slot = v.toNat) = true) ∧
    (∃ (s : State) (t port : Nat) (v : BitVec 32), s.barUp port = true ∧ s.sceolUp = false ∧ s.start.warmRunning = false ∧ s.start.state ≠ .off ∧ v.toNat < 256) ∧
    (∃ (s : State) (t port offset width : Nat) (v : BitVec 32), s.barUp port = true ∧ s.start.warmRunning = false ∧ s.start.state ≠ .off ∧ (width ≠ 4 ∨ offset ≠ 0x20000)) ∧
    (∃ (s : State) (t port : Nat) (v : BitVec 32), s.barUp port = true ∧ s.start.warmRunning = false ∧ s.start.state ≠ .off ∧ 256 ≤ v.toNat) ∧
    (∃ (s : State) (t port offset width : Nat) (v : BitVec 32), (s.barUp port = false ∨ s.start.warmRunning = true ∨ s.start.state = .off)) :=
  ⟨⟨rung, 5, 0, 0, commandOf (rung.mbBytes 0) 0 5 0, by decide⟩,
   ⟨win, 5, 0, 1, commandOf (win.mbBytes 1) 1 5 0, by decide⟩,
   ⟨ask win 1 [], 5, 0, 0, by decide⟩,
   ⟨orphaned, 5, 0, 0, by decide⟩,
   ⟨win, 5, 0, 0x20000, 8, 0, by decide⟩,
   ⟨win, 5, 0, 256, by decide⟩,
   ⟨State.reset, 5, 0, 0, 4, 0, by decide⟩⟩

theorem test_hypotheses_MisuseIsLogged :
    (∃ (s : State) (stamp value cause port target i : Nat), s.host.misuseLog.length = 16 ∧ i < 16) :=
  ⟨win, 5, 6, 1, 0, 3, 2, by decide⟩

theorem test_hypotheses_PowerEnvelope :
    (∃ (s : State) (mb : Nat) (c : MbCommand), Asked s mb 0x05 c ∧ (cf c 0 2 % 25 = 0 ∧ 2000 ≤ cf c 0 2 ∧ cf c 0 2 ≤ 4200)) ∧
    (∃ (s : State) (mb : Nat) (c : MbCommand), Asked s mb 0x05 c ∧ (¬(cf c 0 2 % 25 = 0 ∧ 2000 ≤ cf c 0 2 ∧ cf c 0 2 ≤ 4200))) ∧
    (∃ (s : State), s.tick.running = true ∧ s.tick.inCommit = false) :=
  ⟨⟨ask win 5 [0x68, 0x10], 0, com 5 [0x68, 0x10], by decide⟩,
   ⟨ask win 5 [0x81, 0x10], 0, com 5 [0x81, 0x10], by decide⟩,
   ⟨ticking, by decide⟩⟩

theorem test_hypotheses_ReportCommands :
    (∃ (s : State) (mb : Nat) (c : MbCommand), Asked s mb 0x01 c) ∧
    (∃ (s : State) (mb : Nat) (c : MbCommand) (r : Request), Asked s mb 0x44 c ∧ tabGet (cf c 0 4) s.req.edgeTable = some r ∧ namesReq c r = true) ∧
    (∃ (s : State) (mb : Nat) (c : MbCommand), Asked s mb 0x44 c ∧ (tabGet (cf c 0 4) s.req.edgeTable).any (namesReq c) = false) ∧
    (∃ (s : State) (mb n : Nat) (c : MbCommand), Asked s mb 0x04 c ∧ (cf c 0 1 = n ∧ 1 ≤ n ∧ n ≤ 13)) :=
  ⟨⟨ask win 1 [], 0, com 1 [], by decide⟩,
   ⟨(ask win 0x44 []).onReq (fun u => { u with edgeTable := [(0, decodingReq)] }), 0, com 0x44 [], decodingReq, by decide⟩,
   ⟨ask win 0x44 [], 0, com 0x44 [], by decide⟩,
   ⟨ask win 4 [2], 0, 2, com 4 [2], by decide⟩⟩

theorem test_hypotheses_TickLengthRange :
    (∃ (s : State) (mb : Nat) (c : MbCommand), Asked s mb 0x10 c ∧ (s.tick.inGroup && !s.tick.isMaster) = false ∧ bit (cf c 5 1) 0 = true ∧ (¬(1000 ≤ cf c 0 2 ∧ cf c 0 2 ≤ 50000 ∧ 100 ≤ cf c 2 2 ∧ cf c 2 2 ≤ cf c 0 2 / 4))) ∧
    (∃ (s : State) (mb : Nat) (c : MbCommand), Asked s mb 0x10 c ∧ s.tick.inGroup = false ∧ cf c 5 1 = 1 ∧ (1000 ≤ cf c 0 2 ∧ cf c 0 2 ≤ 50000 ∧ 100 ≤ cf c 2 2 ∧ cf c 2 2 ≤ cf c 0 2 / 4) ∧ cf c 8 8 = 0) :=
  ⟨⟨ask win 0x10 [1, 0, 1, 0, 0, 1], 0, com 0x10 [1, 0, 1, 0, 0, 1], by decide⟩,
   ⟨ask win 0x10 [0xe8, 3, 100, 0, 0, 1], 0, com 0x10 [0xe8, 3, 100, 0, 0, 1], by decide⟩⟩

theorem test_hypotheses_TickConfigSetsLengths :
    (∃ (s : State) (mb : Nat) (c : MbCommand), Asked s mb 0x10 c ∧ s.tick.inGroup = true ∧ s.tick.isMaster = false) ∧
    (∃ (s : State) (mb : Nat) (c : MbCommand), Asked s mb 0x10 c ∧ s.tick.inGroup = false ∧ cf c 5 1 = 1 ∧ (1000 ≤ cf c 0 2 ∧ cf c 0 2 ≤ 50000 ∧ 100 ≤ cf c 2 2 ∧ cf c 2 2 ≤ cf c 0 2 / 4) ∧ cf c 8 8 = 0) ∧
    (∃ (s : State) (mb : Nat) (c : MbCommand), Asked s mb 0x10 c ∧ s.tick.inGroup = true ∧ s.tick.isMaster = true ∧ cf c 5 1 = 1 ∧ (1000 ≤ cf c 0 2 ∧ cf c 0 2 ≤ 50000 ∧ 100 ≤ cf c 2 2 ∧ cf c 2 2 ≤ cf c 0 2 / 4) ∧ s.tick.index + 3 ≤ cf c 8 8) ∧
    (∃ (s : State) (mb : Nat) (c : MbCommand), Asked s mb 0x10 c ∧ (s.tick.inGroup && !s.tick.isMaster) = false ∧ cf c 5 1 = 2 ∧ cf c 4 1 % 4 ≠ 3 ∧ cf c 8 8 = 0) ∧
    (∃ (s : State) (mb : Nat) (c : MbCommand), Asked s mb 0x10 c ∧ s.tick.inGroup = false ∧ cf c 5 1 = 3 ∧ (1000 ≤ cf c 0 2 ∧ cf c 0 2 ≤ 50000 ∧ 100 ≤ cf c 2 2 ∧ cf c 2 2 ≤ cf c 0 2 / 4) ∧ cf c 4 1 % 4 ≠ 3 ∧ cf c 8 8 = 0) ∧
    (∃ (s : State), s.tick.running = false) ∧
    (∃ (s : State), s.tick.running = true) :=
  ⟨⟨(ask win 0x10 []).onTick (fun k => { k with inGroup := true }), 0, com 0x10 [], by decide⟩,
   ⟨ask win 0x10 [0xe8, 3, 100, 0, 0, 1], 0, com 0x10 [0xe8, 3, 100, 0, 0, 1], by decide⟩,
   ⟨(ask win 0x10 [0xe8, 3, 100, 0, 0, 1, 0, 0, 9]).onTick (fun k => { k with inGroup := true, isMaster := true }), 0, com 0x10 [0xe8, 3, 100, 0, 0, 1, 0, 0, 9], by decide⟩,
   ⟨ask win 0x10 [0, 0, 0, 0, 2, 2], 0, com 0x10 [0, 0, 0, 0, 2, 2], by decide⟩,
   ⟨ask win 0x10 [0xe8, 3, 100, 0, 2, 3], 0, com 0x10 [0xe8, 3, 100, 0, 2, 3], by decide⟩,
   ⟨serving, by decide⟩,
   ⟨win, by decide⟩⟩

theorem test_hypotheses_TenantAndDomainConfig_1 :
    (∃ (s : State) (mb : Nat) (c : MbCommand) (o : Tenant), Asked s mb 0x20 c ∧ o = tabGetD (cf c 0 2) ({} : Tenant) s.cfgNext.tenants ∧ cf c 2 2 = 4 ∧ 1 ≤ cf c 6 2 ∧ (o.maxClass ≤ 7 ∧ 1 ≤ o.windowTicks ∧ o.t1QuotaMib ≤ 1048576 ∧ o.t2QuotaMib ≤ 16777216)) ∧
    (∃ (s : State) (mb : Nat) (c : MbCommand), Asked s mb 0x20 c ∧ cf c 2 2 = 255 ∧ cf c 4 1 = 1 ∧ (cf c 5 1 ≤ 7 ∧ 1 ≤ cf c 6 2 ∧ 1 ≤ cf c 12 2 ∧ cf c 16 4 ≤ 1048576 ∧ cf c 20 4 ≤ 16777216)) ∧
    (∃ (s : State) (mb : Nat) (c : MbCommand), Asked s mb 0x20 c ∧ cf c 2 2 = 255 ∧ (1 < cf c 4 1 ∨ 7 < cf c 5 1 ∨ cf c 6 2 = 0 ∨ cf c 12 2 = 0 ∨ 1048576 < cf c 16 4 ∨ 16777216 < cf c 20 4)) ∧
    (∃ (s : State) (mb : Nat) (c : MbCommand) (o : Tenant), Asked s mb 0x20 c ∧ o = tabGetD (cf c 0 2) ({} : Tenant) s.cfgNext.tenants ∧ cf c 2 2 = 1 ∧ cf c 4 1 = 0 ∧ (o.maxClass ≤ 7 ∧ 1 ≤ o.weight ∧ 1 ≤ o.windowTicks ∧ o.t1QuotaMib ≤ 1048576 ∧ o.t2QuotaMib ≤ 16777216) ∧ anyRequest s (fun r => r.tenant = cf c 0 2) = true) ∧
    (∃ (s : State) (mb m : Nat) (c : MbCommand) (o : Tenant), Asked s mb 0x20 c ∧ (o = tabGetD (cf c 0 2) ({} : Tenant) s.cfgNext.tenants ∧ m = cf c 2 2) ∧ (bit m 0 = true → (cf c 4 1 = 1 ∨ (cf c 4 1 = 0 ∧ anyRequest s (fun r => r.tenant = cf c 0 2) = false))) ∧ ((if bit m 1 then cf c 5 1 else o.maxClass) ≤ 7 ∧ 1 ≤ (if bit m 2 then cf c 6 2 else o.weight) ∧ 1 ≤ (if bit m 4 then cf c 12 2 else o.windowTicks)) ∧ ((if bit m 6 then cf c 16 4 else o.t1QuotaMib) ≤ 1048576 ∧ (if bit m 7 then cf c 20 4 else o.t2QuotaMib) ≤ 16777216)) :=
  ⟨⟨ask win 0x20 [1, 0, 4, 0, 0, 0, 9, 0], 0, com 0x20 [1, 0, 4, 0, 0, 0, 9, 0], {}, by decide⟩,
   ⟨ask win 0x20 [1, 0, 255, 0, 1, 7, 9, 0, 0, 0, 0, 0, 1], 0, com 0x20 [1, 0, 255, 0, 1, 7, 9, 0, 0, 0, 0, 0, 1], by decide⟩,
   ⟨ask win 0x20 [1, 0, 255, 0, 0, 0, 0, 0], 0, com 0x20 [1, 0, 255, 0, 0, 0, 0, 0], by decide⟩,
   ⟨withReq (ask win 0x20 [1, 0, 1, 0, 0]), 0, com 0x20 [1, 0, 1, 0, 0], {}, by decide⟩,
   ⟨ask win 0x20 [1, 0, 5, 0, 1, 0, 9, 0], 0, 5, com 0x20 [1, 0, 5, 0, 1, 0, 9, 0], {}, by decide⟩⟩

theorem test_hypotheses_TenantAndDomainConfig_2 :
    (∃ (s : State) (mb : Nat) (c : MbCommand) (o : Domain), Asked s mb 0x21 c ∧ o = tabGetD (cf c 0 2) ({} : Domain) s.cfgNext.domains ∧ cf c 0 2 ≠ 0 ∧ cf c 2 2 = 31 ∧ cf c 4 1 = 1 ∧ cf c 5 1 ≤ 1) ∧
    (∃ (s : State) (mb m : Nat) (c : MbCommand) (o : Domain), Asked s mb 0x21 c ∧ (o = tabGetD (cf c 0 2) ({} : Domain) s.cfgNext.domains ∧ m = cf c 2 2) ∧ cf c 0 2 ≠ 0 ∧ (bit m 0 = true → (cf c 4 1 = 1 ∨ (cf c 4 1 = 0 ∧ anyRequest s (fun r => r.domain = cf c 0 2) = false))) ∧ (bit m 1 = true → cf c 5 1 ≤ 1)) ∧
    (∃ (s : State) (mb : Nat) (c : MbCommand), Asked s mb 0x21 c ∧ ((bit (cf c 2 2) 0 = true ∧ 1 < cf c 4 1) ∨ (bit (cf c 2 2) 1 = true ∧ 1 < cf c 5 1))) ∧
    (∃ (s : State) (mb : Nat) (c : MbCommand), Asked s mb 0x21 c ∧ cf c 0 2 = 0) ∧
    (∃ (s : State) (mb : Nat) (c : MbCommand), Asked s mb 0x21 c ∧ cf c 0 2 ≠ 0 ∧ cf c 2 2 = 3 ∧ cf c 4 1 = 0 ∧ cf c 5 1 ≤ 1 ∧ anyRequest s (fun r => r.domain = cf c 0 2) = true) :=
  ⟨⟨ask win 0x21 [1, 0, 31, 0, 1, 1], 0, com 0x21 [1, 0, 31, 0, 1, 1], {}, by decide⟩,
   ⟨ask win 0x21 [1, 0, 17, 0, 1], 0, 17, com 0x21 [1, 0, 17, 0, 1], {}, by decide⟩,
   ⟨ask win 0x21 [1, 0, 1, 0, 2], 0, com 0x21 [1, 0, 1, 0, 2], by decide⟩,
   ⟨ask win 0x21 [], 0, com 0x21 [], by decide⟩,
   ⟨(ask win 0x21 [1, 0, 3, 0, 0]).onReq (fun u => { u with table := [(0, { decodingReq with domain := 1 })] }), 0, com 0x21 [1, 0, 3, 0, 0], by decide⟩⟩

theorem test_hypotheses_RegisterCommands_1 :
    (∃ (s : State) (mb : Nat) (c : MbCommand), Asked s mb 0x50 c ∧ (cf c 0 1 = 0 ∧ 1 ≤ entryCount c) ∧ entriesFit 0x50 c s.cfgNext.regs = true) ∧
    (∃ (s : State) (mb : Nat) (c : MbCommand), Asked s mb 0x50 c ∧ (cf c 0 1 = 0 ∧ 1 ≤ entryCount c) ∧ entriesFit 0x50 c s.cfgNext.regs = false) ∧
    (∃ (s : State) (mb : Nat) (c : MbCommand), Asked s mb 0x50 c ∧ cf c 0 1 = 0 ∧ entryCount c = 0) ∧
    (∃ (s : State) (mb : Nat) (c : MbCommand), Asked s mb 0x51 c ∧ (cf c 0 1 = 0 ∧ 1 ≤ entryCount c) ∧ entriesFit 0x51 c s.cfgNext.regs = true) ∧
    (∃ (s : State) (mb : Nat) (c : MbCommand), Asked s mb 0x51 c ∧ (cf c 0 1 = 0 ∧ 1 ≤ entryCount c) ∧ entriesFit 0x51 c s.cfgNext.regs = false) ∧
    (∃ (s : State) (mb : Nat) (c : MbCommand), Asked s mb 0x51 c ∧ cf c 0 1 = 0 ∧ entryCount c = 0) ∧
    (∃ (s : State) (mb : Nat) (c : MbCommand), Asked s mb 0x52 c ∧ (cf c 0 1 = 0 ∧ 1 ≤ entryCount c) ∧ entriesFit 0x52 c s.cfgNext.regs = true) ∧
    (∃ (s : State) (mb : Nat) (c : MbCommand), Asked s mb 0x52 c ∧ (cf c 0 1 = 0 ∧ 1 ≤ entryCount c) ∧ entriesFit 0x52 c s.cfgNext.regs = false) :=
  ⟨⟨regAsk 0x50, 0, regCom 0x50, by decide⟩,
   ⟨badRegAsk 0x50, 0, badRegCom 0x50, by decide⟩,
   ⟨ask win 0x50 [], 0, com 0x50 [], by decide⟩,
   ⟨regAsk 0x51, 0, regCom 0x51, by decide⟩,
   ⟨badRegAsk 0x51, 0, badRegCom 0x51, by decide⟩,
   ⟨ask win 0x51 [], 0, com 0x51 [], by decide⟩,
   ⟨regAsk 0x52, 0, regCom 0x52, by decide⟩,
   ⟨badRegAsk 0x52, 0, badRegCom 0x52, by decide⟩⟩

theorem test_hypotheses_RegisterCommands_2 :
    (∃ (s : State) (mb : Nat) (c : MbCommand), Asked s mb 0x52 c ∧ cf c 0 1 = 0 ∧ entryCount c = 0) ∧
    (∃ (s : State) (mb : Nat) (c : MbCommand), Asked s mb 0x53 c ∧ (cf c 0 1 = 0 ∧ 1 ≤ entryCount c) ∧ entriesFit 0x53 c s.cfgNext.regs = true) ∧
    (∃ (s : State) (mb : Nat) (c : MbCommand), Asked s mb 0x53 c ∧ (cf c 0 1 = 0 ∧ 1 ≤ entryCount c) ∧ entriesFit 0x53 c s.cfgNext.regs = false) ∧
    (∃ (s : State) (mb : Nat) (c : MbCommand), Asked s mb 0x53 c ∧ cf c 0 1 = 0 ∧ entryCount c = 0) ∧
    (∃ (s : State) (mb : Nat) (c : MbCommand), Asked s mb 0x54 c ∧ (cf c 0 1 = 0 ∧ 1 ≤ entryCount c) ∧ entriesFit 0x54 c s.cfgNext.regs = true ∧ classesOk (writtenRegs 0x54 c.payload s.cfgNext.regs (entryCount c)).classCfg = true) ∧
    (∃ (s : State) (mb : Nat) (c : MbCommand), Asked s mb 0x54 c ∧ (cf c 0 1 = 0 ∧ 1 ≤ entryCount c) ∧ entriesFit 0x54 c s.cfgNext.regs = false) ∧
    (∃ (s : State) (mb : Nat) (c : MbCommand), Asked s mb 0x54 c ∧ cf c 0 1 = 0 ∧ entryCount c = 0) ∧
    (∃ (s : State) (mb : Nat) (c : MbCommand), Asked s mb 0x55 c ∧ (cf c 0 1 = 0 ∧ 1 ≤ entryCount c) ∧ entriesFit 0x55 c s.cfgNext.regs = true) :=
  ⟨⟨ask win 0x52 [], 0, com 0x52 [], by decide⟩,
   ⟨regAsk 0x53, 0, regCom 0x53, by decide⟩,
   ⟨badRegAsk 0x53, 0, badRegCom 0x53, by decide⟩,
   ⟨ask win 0x53 [], 0, com 0x53 [], by decide⟩,
   ⟨regAsk 0x54, 0, regCom 0x54, by decide⟩,
   ⟨badRegAsk 0x54, 0, badRegCom 0x54, by decide⟩,
   ⟨ask win 0x54 [], 0, com 0x54 [], by decide⟩,
   ⟨regAsk 0x55, 0, regCom 0x55, by decide⟩⟩

theorem test_hypotheses_RegisterCommands_3 :
    (∃ (s : State) (mb : Nat) (c : MbCommand), Asked s mb 0x55 c ∧ (cf c 0 1 = 0 ∧ 1 ≤ entryCount c) ∧ entriesFit 0x55 c s.cfgNext.regs = false) ∧
    (∃ (s : State) (mb : Nat) (c : MbCommand), Asked s mb 0x55 c ∧ cf c 0 1 = 0 ∧ entryCount c = 0) ∧
    (∃ (s : State) (mb : Nat) (c : MbCommand), Asked s mb 0x56 c ∧ (cf c 0 1 = 0 ∧ 1 ≤ entryCount c) ∧ entriesFit 0x56 c s.cfgNext.regs = true) ∧
    (∃ (s : State) (mb : Nat) (c : MbCommand), Asked s mb 0x56 c ∧ (cf c 0 1 = 0 ∧ 1 ≤ entryCount c) ∧ entriesFit 0x56 c s.cfgNext.regs = false) ∧
    (∃ (s : State) (mb : Nat) (c : MbCommand), Asked s mb 0x56 c ∧ cf c 0 1 = 0 ∧ entryCount c = 0) ∧
    (∃ (s : State) (mb : Nat) (c : MbCommand), Asked s mb 0x57 c ∧ (cf c 0 1 = 0 ∧ 1 ≤ entryCount c) ∧ entriesFit 0x57 c s.cfgNext.regs = true) ∧
    (∃ (s : State) (mb : Nat) (c : MbCommand), Asked s mb 0x57 c ∧ (cf c 0 1 = 0 ∧ 1 ≤ entryCount c) ∧ entriesFit 0x57 c s.cfgNext.regs = false) ∧
    (∃ (s : State) (mb : Nat) (c : MbCommand), Asked s mb 0x57 c ∧ cf c 0 1 = 0 ∧ entryCount c = 0) :=
  ⟨⟨badRegAsk 0x55, 0, badRegCom 0x55, by decide⟩,
   ⟨ask win 0x55 [], 0, com 0x55 [], by decide⟩,
   ⟨regAsk 0x56, 0, regCom 0x56, by decide⟩,
   ⟨badRegAsk 0x56, 0, badRegCom 0x56, by decide⟩,
   ⟨ask win 0x56 [], 0, com 0x56 [], by decide⟩,
   ⟨regAsk 0x57, 0, regCom 0x57, by decide⟩,
   ⟨badRegAsk 0x57, 0, badRegCom 0x57, by decide⟩,
   ⟨ask win 0x57 [], 0, com 0x57 [], by decide⟩⟩

theorem test_hypotheses_RegisterCommands_4 :
    (∃ (s : State) (mb : Nat) (c : MbCommand), Asked s mb 0x58 c ∧ (cf c 0 1 = 0 ∧ 1 ≤ entryCount c) ∧ s.variant ≠ .cb ∧ entriesFit 0x58 c s.cfgNext.regs = true) ∧
    (∃ (s : State) (mb : Nat) (c : MbCommand), Asked s mb 0x58 c ∧ (cf c 0 1 = 0 ∧ 1 ≤ entryCount c) ∧ s.variant ≠ .cb ∧ entriesFit 0x58 c s.cfgNext.regs = false) ∧
    (∃ (s : State) (mb : Nat) (c : MbCommand), Asked s mb 0x58 c ∧ cf c 0 1 = 0 ∧ entryCount c = 0 ∧ s.variant ≠ .cb) ∧
    (∃ (s : State) (mb : Nat) (c : MbCommand), Asked s mb 0x59 c ∧ (cf c 0 1 = 0 ∧ 1 ≤ entryCount c) ∧ entriesFit 0x59 c s.cfgNext.regs = true) ∧
    (∃ (s : State) (mb : Nat) (c : MbCommand), Asked s mb 0x59 c ∧ (cf c 0 1 = 0 ∧ 1 ≤ entryCount c) ∧ entriesFit 0x59 c s.cfgNext.regs = false) ∧
    (∃ (s : State) (mb : Nat) (c : MbCommand), Asked s mb 0x59 c ∧ cf c 0 1 = 0 ∧ entryCount c = 0) ∧
    (∃ (s : State) (mb : Nat) (c : MbCommand), Asked s mb 0x54 c ∧ (cf c 0 1 = 0 ∧ 1 ≤ entryCount c) ∧ entriesFit 0x54 c s.cfgNext.regs = true ∧ classesOk (writtenRegs 0x54 c.payload s.cfgNext.regs (entryCount c)).classCfg = false) ∧
    (∃ (s : State) (mb : Nat) (c : MbCommand), Asked s mb 0x58 c ∧ s.variant = .cb) :=
  ⟨⟨regAsk 0x58, 0, regCom 0x58, by decide⟩,
   ⟨badRegAsk 0x58, 0, badRegCom 0x58, by decide⟩,
   ⟨ask win 0x58 [], 0, com 0x58 [], by decide⟩,
   ⟨regAsk 0x59, 0, regCom 0x59, by decide⟩,
   ⟨badRegAsk 0x59, 0, badRegCom 0x59, by decide⟩,
   ⟨ask win 0x59 [], 0, com 0x59 [], by decide⟩,
   ⟨overAsk, 0, overCom, by decide⟩,
   ⟨{ regAsk 0x58 with variant := .cb }, 0, regCom 0x58, by decide⟩⟩

theorem test_hypotheses_GelconActionsAndGroup_1 :
    (∃ (s : State) (mb : Nat) (c : MbCommand), Asked s mb 0x56 c ∧ cf c 0 1 = 1 ∧ entryCount c = 0 ∧ cf c 1 1 < portCount s.variant ∧ (s.gport (cf c 1 1)).quarantined = true) ∧
    (∃ (s : State) (mb : Nat) (c : MbCommand), Asked s mb 0x56 c ∧ cf c 0 1 = 1 ∧ entryCount c = 0 ∧ cf c 1 1 < portCount s.variant ∧ (s.gport (cf c 1 1)).quarantined = false) ∧
    (∃ (s : State) (mb : Nat) (c : MbCommand), Asked s mb 0x56 c ∧ cf c 0 1 = 1 ∧ entryCount c = 0 ∧ 21 ≤ cf c 1 1) ∧
    (∃ (s : State) (mb : Nat) (c : MbCommand), Asked s mb 0x56 c ∧ cf c 0 1 = 2 ∧ entryCount c = 0 ∧ s.variant = .xf ∧ (93 ≤ cf c 1 1 ∧ cf c 1 1 ≤ 95 ∧ cf c 2 1 ≤ 95)) ∧
    (∃ (s : State) (mb : Nat) (c : MbCommand), Asked s mb 0x56 c ∧ cf c 0 1 = 2 ∧ entryCount c = 0 ∧ s.variant ≠ .xf) :=
  ⟨⟨quarAsk, 0, com 0x56 [1, 3], by decide⟩,
   ⟨ask win 0x56 [1, 3], 0, com 0x56 [1, 3], by decide⟩,
   ⟨ask win 0x56 [1, 21], 0, com 0x56 [1, 21], by decide⟩,
   ⟨ask win 0x56 [2, 93, 5], 0, com 0x56 [2, 93, 5], by decide⟩,
   ⟨{ ask win 0x56 [2, 93, 5] with variant := .xl }, 0, com 0x56 [2, 93, 5], by decide⟩⟩

theorem test_hypotheses_GelconActionsAndGroup_2 :
    (∃ (s : State) (mb gt : Nat) (c : MbCommand), Asked s mb 0x11 c ∧ cf c 0 1 < 32 ∧ bit (cf c 1 1) 0 = false ∧ s.tick.inGroup = false) ∧
    (∃ (s : State) (mb gt : Nat) (c : MbCommand), Asked s mb 0x11 c ∧ cf c 0 1 < 32 ∧ bit (cf c 1 1) 0 = true ∧ s.tick.inGroup = false ∧ mayJoin s = true ∧ gt < 2 ^ 64) ∧
    (∃ (s : State) (mb gt : Nat) (c : MbCommand), Asked s mb 0x11 c ∧ cf c 0 1 < 32 ∧ s.tick.inGroup = true) ∧
    (∃ (s : State) (mb : Nat) (c : MbCommand), Asked s mb 0x11 c ∧ cf c 0 1 = 255 ∧ bit (cf c 1 1) 0 = false ∧ s.tick.inGroup = true) ∧
    (∃ (s : State) (mb : Nat) (c : MbCommand), Asked s mb 0x11 c ∧ cf c 0 1 = 255 ∧ bit (cf c 1 1) 0 = false ∧ s.tick.inGroup = false) :=
  ⟨⟨ask win 0x11 [3, 0], 0, 0, com 0x11 [3, 0], by decide⟩,
   ⟨joinAsk, 0, 7, com 0x11 [3, 1], by decide⟩,
   ⟨(ask win 0x11 [3, 1]).onTick (fun k => { k with inGroup := true }), 0, 0, com 0x11 [3, 1], by decide⟩,
   ⟨(ask win 0x11 [255, 0]).onTick (fun k => { k with inGroup := true }), 0, com 0x11 [255, 0], by decide⟩,
   ⟨ask win 0x11 [255, 0], 0, com 0x11 [255, 0], by decide⟩⟩

theorem test_hypotheses_RingsAndDoorbells_1 :
    (∃ (s : State) (mb : Nat) (c : MbCommand), Asked s mb 0x30 c ∧ (cf c 0 1 < 64 ∧ 6 ≤ cf c 1 1 ∧ cf c 1 1 ≤ 16) ∧ tabGet (cf c 0 1) s.req.rings = none ∧ (cf c 8 8 % 4096 = 0 ∧ cf c 16 8 % 8 = 0)) ∧
    (∃ (s : State) (mb : Nat) (c : MbCommand) (g : Ring), Asked s mb 0x30 c ∧ (cf c 0 1 < 64 ∧ 6 ≤ cf c 1 1 ∧ cf c 1 1 ≤ 16) ∧ tabGet (cf c 0 1) s.req.rings = some g) ∧
    (∃ (s : State) (mb : Nat) (c : MbCommand), Asked s mb 0x30 c ∧ (cf c 0 1 < 64 ∧ 6 ≤ cf c 1 1 ∧ cf c 1 1 ≤ 16) ∧ tabGet (cf c 0 1) s.req.rings = none ∧ (¬(cf c 8 8 % 4096 = 0 ∧ cf c 16 8 % 8 = 0))) ∧
    (∃ (s : State) (mb : Nat) (c : MbCommand), Asked s mb 0x30 c ∧ (¬(cf c 0 1 < 64 ∧ 6 ≤ cf c 1 1 ∧ cf c 1 1 ≤ 16))) ∧
    (∃ (s : State) (mb : Nat) (c : MbCommand) (g : Ring), Due s mb 0x31 c ∧ cf c 0 1 < 64 ∧ tabGet (cf c 0 1) s.req.rings = some g ∧ (g.stopped = true ∨ g.tail = g.consumed)) ∧
    (∃ (s : State) (mb : Nat) (c : MbCommand) (g : Ring), Due s mb 0x31 c ∧ cf c 0 1 < 64 ∧ tabGet (cf c 0 1) s.req.rings = some g ∧ (g.stopped = false ∧ g.tail ≠ g.consumed)) :=
  ⟨⟨ask win 0x30 [0, 6], 0, com 0x30 [0, 6], by decide⟩,
   ⟨withRing (ask win 0x30 [0, 6]), 0, com 0x30 [0, 6], aRing, by decide⟩,
   ⟨ask win 0x30 [0, 6, 0, 0, 0, 0, 0, 0, 1], 0, com 0x30 [0, 6, 0, 0, 0, 0, 0, 0, 1], by decide⟩,
   ⟨ask win 0x30 [64, 6], 0, com 0x30 [64, 6], by decide⟩,
   ⟨withRing (ask win 0x31 [0]), 0, com 0x31 [0], aRing, by decide⟩,
   ⟨(ask win 0x31 [0]).onReq (fun u => { u with rings := [(0, { aRing with tail := 1 })] }), 0, com 0x31 [0], { aRing with tail := 1 }, by decide⟩⟩

theorem test_hypotheses_RingsAndDoorbells_2 :
    (∃ (s : State) (mb : Nat) (c : MbCommand), Due s mb 0x31 c ∧ cf c 0 1 < 64 ∧ tabGet (cf c 0 1) s.req.rings = none) ∧
    (∃ (s : State) (t port ring : Nat) (v : BitVec 32) (g : Ring), (s.barUp port = true ∧ s.start.warmRunning = false ∧ s.start.state ≠ .off) ∧ ring < 64 ∧ tabGet ring s.req.rings = some g ∧ (v.toNat + 2 ^ 32 - g.consumed) % 2 ^ 32 ≤ 2 ^ g.sizeLog2 ∧ (g.tail + 2 ^ 32 - g.consumed) % 2 ^ 32 ≤ (v.toNat + 2 ^ 32 - g.consumed) % 2 ^ 32) ∧
    (∃ (s : State) (t port ring : Nat) (v : BitVec 32) (g : Ring), (s.barUp port = true ∧ s.start.warmRunning = false ∧ s.start.state ≠ .off) ∧ ring < 64 ∧ tabGet ring s.req.rings = some g ∧ 2 ^ g.sizeLog2 < (v.toNat + 2 ^ 32 - g.consumed) % 2 ^ 32) ∧
    (∃ (s : State) (t port ring : Nat) (v : BitVec 32) (g : Ring), (s.barUp port = true ∧ s.start.warmRunning = false ∧ s.start.state ≠ .off) ∧ ring < 64 ∧ tabGet ring s.req.rings = some g ∧ (v.toNat + 2 ^ 32 - g.consumed) % 2 ^ 32 ≤ 2 ^ g.sizeLog2 ∧ (v.toNat + 2 ^ 32 - g.consumed) % 2 ^ 32 < (g.tail + 2 ^ 32 - g.consumed) % 2 ^ 32) ∧
    (∃ (s : State) (t port ring : Nat) (v : BitVec 32), (s.barUp port = true ∧ s.start.warmRunning = false ∧ s.start.state ≠ .off) ∧ ring < 64 ∧ tabGet ring s.req.rings = none) ∧
    (∃ (s : State) (t port ring offset width : Nat) (v : BitVec 32), (s.barUp port = true ∧ s.start.warmRunning = false ∧ s.start.state ≠ .off) ∧ ring < 64 ∧ (width ≠ 4 ∨ offset ≠ 0)) :=
  ⟨⟨ask win 0x31 [0], 0, com 0x31 [0], by decide⟩,
   ⟨withRing win, 5, 0, 0, 3, aRing, by decide⟩,
   ⟨withRing win, 5, 0, 0, 65, aRing, by decide⟩,
   ⟨win.onReq (fun u => { u with rings := [(0, { aRing with tail := 2 })] }), 5, 0, 0, 1, { aRing with tail := 2 }, by decide⟩,
   ⟨win, 5, 0, 0, 1, by decide⟩,
   ⟨win, 5, 0, 0, 4, 4, 1, by decide⟩⟩

theorem test_hypotheses_RingsAndDoorbells_3 :
    (∃ (s : State) (t port : Nat) (v : BitVec 64), (s.barUp port = true ∧ s.start.warmRunning = false ∧ s.start.state ≠ .off) ∧ bits v.toNat 31 20 = 0) ∧
    (∃ (s : State) (t port : Nat) (v : BitVec 64), (s.barUp port = true ∧ s.start.warmRunning = false ∧ s.start.state ≠ .off) ∧ bits v.toNat 31 20 ≠ 0) ∧
    (∃ (s : State) (t port offset width : Nat) (v : BitVec 64), (s.barUp port = true ∧ s.start.warmRunning = false ∧ s.start.state ≠ .off) ∧ (width ≠ 8 ∨ offset ≠ 0x200000)) ∧
    (∃ (s : State) (t port ring offset width : Nat) (v : BitVec 32), (s.barUp port = false ∨ s.start.warmRunning = true ∨ s.start.state = .off)) ∧
    (∃ (s : State) (t port offset width : Nat) (v : BitVec 64), (s.barUp port = false ∨ s.start.warmRunning = true ∨ s.start.state = .off)) :=
  ⟨⟨win, 5, 0, 3, by decide⟩,
   ⟨win, 5, 0, 0x100000, by decide⟩,
   ⟨win, 5, 0, 0x200000, 4, 3, by decide⟩,
   ⟨State.reset, 5, 0, 0, 0, 4, 1, by decide⟩,
   ⟨State.reset, 5, 0, 0x200000, 8, 1, by decide⟩⟩

theorem test_hypotheses_SubmitAdmitsOrRefuses_1 :
    (∃ (s : State) (ring : Nat) (d : DescRead), admissionOpen s = true ∧ nextRing s = some ring ∧ d.complFail = false ∧ d.descFail = true) ∧
    (∃ (s : State) (ring : Nat) (d : DescRead) (b : List Byte) (r : Request) (u : State) (st : Nat), admissionOpen s = true ∧ nextRing s = some ring ∧ d.complFail = false ∧ d.descFail = false ∧ b = slice d.bytes 0 256 ∧ r = requestOf b d ((descTaken s ring).mslot (field b 13 1 % 16)).info.vocab ∧ u = (descTaken s ring).readBuffers (s.ring ring).port b d ∧ st = admitCheck (descTaken s ring) b d r false ∧ st ≠ St.ok) ∧
    (∃ (s : State) (ring : Nat) (d : DescRead) (b : List Byte) (r : Request) (u : State), admissionOpen s = true ∧ nextRing s = some ring ∧ d.complFail = false ∧ d.descFail = false ∧ b = slice d.bytes 0 256 ∧ r = requestOf b d ((descTaken s ring).mslot (field b 13 1 % 16)).info.vocab ∧ u = (descTaken s ring).readBuffers (s.ring ring).port b d ∧ admitCheck (descTaken s ring) b d r false = St.ok ∧ (u.admitReq (dSlot b) (s.ring ring).port r r.prompt).2 = St.ok) ∧
    (∃ (s : State) (ring : Nat) (d : DescRead) (b : List Byte) (r : Request) (u : State) (st : Nat), admissionOpen s = true ∧ nextRing s = some ring ∧ d.complFail = false ∧ d.descFail = false ∧ b = slice d.bytes 0 256 ∧ r = requestOf b d ((descTaken s ring).mslot (field b 13 1 % 16)).info.vocab ∧ u = (descTaken s ring).readBuffers (s.ring ring).port b d ∧ admitCheck (descTaken s ring) b d r false = St.ok ∧ ((u.admitReq (dSlot b) (s.ring ring).port r r.prompt).2 = st ∧ st ≠ St.ok)) ∧
    (∃ (s : State) (ring : Nat) (d : DescRead), admissionOpen s = true ∧ nextRing s = some ring ∧ d.complFail = true ∧ d.descFail = true) ∧
    (∃ (s : State) (ring : Nat) (d : DescRead) (b : List Byte) (r : Request) (u : State), admissionOpen s = true ∧ nextRing s = some ring ∧ d.complFail = true ∧ d.descFail = false ∧ b = slice d.bytes 0 256 ∧ r = requestOf b d ((descTaken s ring).mslot (field b 13 1 % 16)).info.vocab ∧ u = (descTaken s ring).readBuffers (s.ring ring).port b d ∧ admitCheck (descTaken s ring) b d r false ≠ St.ok) ∧
    (∃ (s : State) (ring : Nat) (d : DescRead) (b : List Byte) (r : Request) (u : State), admissionOpen s = true ∧ nextRing s = some ring ∧ d.complFail = true ∧ d.descFail = false ∧ b = slice d.bytes 0 256 ∧ r = requestOf b d ((descTaken s ring).mslot (field b 13 1 % 16)).info.vocab ∧ u = (descTaken s ring).readBuffers (s.ring ring).port b d ∧ admitCheck (descTaken s ring) b d r false = St.ok ∧ (u.admitReq (dSlot b) (s.ring ring).port r r.prompt).2 = St.ok) ∧
    (∃ (s : State) (ring : Nat) (d : DescRead) (b : List Byte) (r : Request) (u : State), admissionOpen s = true ∧ nextRing s = some ring ∧ d.complFail = true ∧ d.descFail = false ∧ b = slice d.bytes 0 256 ∧ r = requestOf b d ((descTaken s ring).mslot (field b 13 1 % 16)).info.vocab ∧ u = (descTaken s ring).readBuffers (s.ring ring).port b d ∧ admitCheck (descTaken s ring) b d r false = St.ok ∧ (u.admitReq (dSlot b) (s.ring ring).port r r.prompt).2 ≠ St.ok) :=
  ⟨⟨withRing win, 0, { descFail := true }, by decide⟩,
   ⟨withRing win, 0, {}, slice [] 0 256, requestOf (slice [] 0 256) {} 0, (descTaken (withRing win) 0).readBuffers 0 (slice [] 0 256) {}, St.badOpcode, by decide⟩,
   ⟨submitState, 0, submitRead, slice submitRead.bytes 0 256, submitReq, subTaken, by decide, by decide, by decide, by decide, by decide, by decide, by decide, by decide, submit_fits⟩,
   ⟨noSpaceState, 0, submitRead, slice submitRead.bytes 0 256, submitReq, (descTaken noSpaceState 0).readBuffers 0 (slice submitRead.bytes 0 256) submitRead, St.noSpace, by decide⟩,
   ⟨withRing win, 0, { descFail := true, complFail := true }, by decide⟩,
   ⟨withRing win, 0, { complFail := true }, slice [] 0 256, requestOf (slice [] 0 256) {} 0, (descTaken (withRing win) 0).readBuffers 0 (slice [] 0 256) {}, by decide⟩,
   ⟨submitState, 0, { submitRead with complFail := true }, slice submitRead.bytes 0 256, submitReq, subTaken, by decide, by decide, by decide, by decide, by decide, by decide, by decide, by decide, submit_fits⟩,
   ⟨noSpaceState, 0, { submitRead with complFail := true }, slice submitRead.bytes 0 256, submitReq, (descTaken noSpaceState 0).readBuffers 0 (slice submitRead.bytes 0 256) submitRead, by decide⟩⟩

theorem test_hypotheses_SubmitAdmitsOrRefuses_2 :
    (∃ (s : State) (ring : Nat) (d : DescRead), (admissionOpen s = false ∨ nextRing s ≠ some ring)) ∧
    (∃ (s : State) (mb : Nat) (c : MbCommand), Due s mb 0x46 c ∧ (1 ≤ cf c 0 4 ∧ cf c 0 4 ≤ 65536)) ∧
    (∃ (s : State) (mb : Nat) (c : MbCommand), Due s mb 0x46 c ∧ (¬(1 ≤ cf c 0 4 ∧ cf c 0 4 ≤ 65536))) ∧
    (∃ (s : State) (mb : Nat) (c : MbCommand) (r : RecoverRead), s.cmdAt mb [0x46] = some c ∧ c.phase = 1 ∧ takingOpen s = true ∧ s.sceolUp = true ∧ r.index = recTaken c.aux ∧ (recoverOne (entryTaken s c r.index) c r).2 = St.ok ∧ recTaken c.aux + 1 < cf c 0 4 ∧ c.aux % 131072 + 1 < 131072) ∧
    (∃ (s : State) (mb : Nat) (c : MbCommand) (r : RecoverRead), s.cmdAt mb [0x46] = some c ∧ c.phase = 1 ∧ takingOpen s = true ∧ s.sceolUp = true ∧ r.index = recTaken c.aux ∧ (recoverOne (entryTaken s c r.index) c r).2 = St.ok ∧ recTaken (c.aux + 131073) = cf c 0 4) ∧
    (∃ (s : State) (mb st : Nat) (c : MbCommand) (r : RecoverRead), s.cmdAt mb [0x46] = some c ∧ c.phase = 1 ∧ takingOpen s = true ∧ s.sceolUp = true ∧ r.index = recTaken c.aux ∧ st = (recoverOne (entryTaken s c r.index) c r).2 ∧ st ≠ St.ok ∧ recTaken c.aux + 1 < cf c 0 4 ∧ c.aux % 131072 + 1 < 131072) ∧
    (∃ (s : State) (mb st : Nat) (c : MbCommand) (r : RecoverRead), s.cmdAt mb [0x46] = some c ∧ c.phase = 1 ∧ takingOpen s = true ∧ s.sceolUp = true ∧ r.index = recTaken c.aux ∧ st = (recoverOne (entryTaken s c r.index) c r).2 ∧ st ≠ St.ok ∧ recTaken (c.aux + 1) = cf c 0 4) :=
  ⟨⟨win, 0, {}, by decide⟩,
   ⟨ask win 0x46 [1], 0, com 0x46 [1], by decide⟩,
   ⟨ask win 0x46 [], 0, com 0x46 [], by decide⟩,
   ⟨recFull 2, 0, recCom 2, recRead, by decide, by decide, by decide, by decide, by decide, rec_fits2, by decide, by decide⟩,
   ⟨recFull 1, 0, recCom 1, recRead, by decide, by decide, by decide, by decide, by decide, rec_fits1, by decide⟩,
   ⟨recAsk 2, 0, St.badOpcode, recCom 2, {}, by decide⟩,
   ⟨recAsk 1, 0, St.badOpcode, recCom 1, {}, by decide⟩⟩

theorem test_hypotheses_ClosingARequest :
    (∃ (s : State) (n st drop : Nat) (r : Request), tabSorted s.req.table = true ∧ s.req? n = some r ∧ reqLive r.state = true ∧ arriving r = false ∧ logRoom s (r.outs.length + 1) = true ∧ (if r.closeStatus = 0 then st else r.closeStatus) ≠ St.migrated ∧ drop ≤ r.outs.length) ∧
    (∃ (s : State) (n k st drop : Nat), n ≠ k ∧ tabSorted s.req.table = true) ∧
    (∃ (s : State) (n st drop : Nat) (r : Request), s.req? n = some r ∧ reqLive r.state = false) :=
  ⟨⟨withReq win, 0, St.cancelled, 0, decodingReq, by decide⟩,
   ⟨withReq win, 0, 1, St.cancelled, 0, by decide⟩,
   ⟨win.onReq (fun u => { u with table := [(0, { state := .closing })] }), 0, St.cancelled, 0, { state := .closing }, by decide⟩⟩

theorem test_hypotheses_CommandsOnARequest_1 :
    (∃ (s : State) (mb : Nat) (c : MbCommand) (r : Request), OnRequest s mb 0x40 c r) ∧
    (∃ (s : State) (mb : Nat) (c : MbCommand) (r : Request), OnRequest s mb 0x41 c r ∧ (r.state = .prefilling ∨ r.state = .decoding) ∧ pausePending (credited s c) (cf c 0 4) = false) ∧
    (∃ (s : State) (mb : Nat) (c : MbCommand) (r : Request), OnRequest s mb 0x41 c r ∧ (r.state = .prefilling ∨ r.state = .decoding) ∧ pausePending (credited s c) (cf c 0 4) = true) ∧
    (∃ (s : State) (mb : Nat) (c : MbCommand) (r : Request), OnRequest s mb 0x42 c r ∧ (r.state = .prefilling ∨ r.state = .decoding) ∧ pausePending (credited s c) (cf c 0 4) = true) ∧
    (∃ (s : State) (mb : Nat) (c : MbCommand) (r : Request), OnRequest s mb 0x41 c r ∧ (¬(r.state = .prefilling ∨ r.state = .decoding))) ∧
    (∃ (s : State) (mb : Nat) (c : MbCommand) (r : Request), OnRequest s mb 0x42 c r ∧ r.state = .paused) ∧
    (∃ (s : State) (mb : Nat) (c : MbCommand) (r : Request), OnRequest s mb 0x42 c r ∧ r.state = .parked) :=
  ⟨⟨withReq (ask win 0x40 []), 0, com 0x40 [], decodingReq, by decide⟩,
   ⟨withReq (ask win 0x41 []), 0, com 0x41 [], decodingReq, by decide⟩,
   ⟨(withReq (ask win 0x41 [])).onReq (fun u => { u with pauseMarks := [(0, 1)] }), 0, com 0x41 [], decodingReq, by decide⟩,
   ⟨(withReq (ask win 0x42 [])).onReq (fun u => { u with pauseMarks := [(0, 1)] }), 0, com 0x42 [], decodingReq, by decide⟩,
   ⟨(ask win 0x41 []).onReq (fun u => { u with table := [(0, { decodingReq with state := .paused })] }), 0, com 0x41 [], { decodingReq with state := .paused }, by decide⟩,
   ⟨(ask win 0x42 []).onReq (fun u => { u with table := [(0, { decodingReq with state := .paused })] }), 0, com 0x42 [], { decodingReq with state := .paused }, by decide⟩,
   ⟨(ask win 0x42 []).onReq (fun u => { u with table := [(0, { decodingReq with state := .parked })] }), 0, com 0x42 [], { decodingReq with state := .parked }, by decide⟩⟩

theorem test_hypotheses_CommandsOnARequest_2 :
    (∃ (s : State) (mb : Nat) (c : MbCommand) (r : Request), OnRequest s mb 0x42 c r ∧ (r.state = .importing ∨ r.state = .resuming ∨ ((r.state = .prefilling ∨ r.state = .decoding) ∧ pausePending (credited s c) (cf c 0 4) = false))) ∧
    (∃ (s : State) (mb : Nat) (c : MbCommand) (r : Request) (l : List Nat), OnRequest s mb 0x43 c r ∧ (1 ≤ cf c 16 2 ∧ cf c 16 2 ≤ 4096 ∧ cf c 8 8 % 4 = 0) ∧ r.spec.source = 3) ∧
    (∃ (s : State) (mb : Nat) (c : MbCommand) (r : Request) (l : Option (List Nat)), OnRequest s mb 0x43 c r ∧ (1 ≤ cf c 16 2 ∧ cf c 16 2 ≤ 4096 ∧ cf c 8 8 % 4 = 0) ∧ r.spec.source ≠ 3) ∧
    (∃ (s : State) (mb : Nat) (c : MbCommand) (r : Request) (l : Option (List Nat)), OnRequest s mb 0x43 c r ∧ (¬(1 ≤ cf c 16 2 ∧ cf c 16 2 ≤ 4096 ∧ cf c 8 8 % 4 = 0))) ∧
    (∃ (s : State) (mb : Nat) (c : MbCommand) (r : Request), OnRequest s mb 0x45 c r ∧ (s.tick.inGroup = true ∧ groupOf (cf c 8 2) = s.tick.group ∧ cf c 8 2 ≠ identityOf s ∧ cf c 8 2 < 512) ∧ (r.state = .prefilling ∨ r.state = .decoding ∨ r.state = .paused) ∧ r.migrating = false) ∧
    (∃ (s : State) (mb : Nat) (c : MbCommand) (r : Request), OnRequest s mb 0x45 c r ∧ (s.tick.inGroup = false ∨ groupOf (cf c 8 2) ≠ s.tick.group ∨ cf c 8 2 = identityOf s ∨ 512 ≤ cf c 8 2)) ∧
    (∃ (s : State) (mb : Nat) (c : MbCommand) (r : Request), OnRequest s mb 0x45 c r ∧ (s.tick.inGroup = true ∧ groupOf (cf c 8 2) = s.tick.group ∧ cf c 8 2 ≠ identityOf s ∧ cf c 8 2 < 512) ∧ (¬(r.state = .prefilling ∨ r.state = .decoding ∨ r.state = .paused) ∨ r.migrating = true)) :=
  ⟨⟨(ask win 0x42 []).onReq (fun u => { u with table := [(0, { decodingReq with state := .resuming })] }), 0, com 0x42 [], { decodingReq with state := .resuming }, by decide⟩,
   ⟨draftAsk 3, 0, draftCom, draftReq 3, [7], by decide⟩,
   ⟨draftAsk 1, 0, draftCom, draftReq 1, none, by decide⟩,
   ⟨withReq (ask win 0x43 []), 0, com 0x43 [], decodingReq, none, by decide⟩,
   ⟨migAsk, 0, migCom, decodingReq, by decide⟩,
   ⟨withReq (ask win 0x45 []), 0, com 0x45 [], decodingReq, by decide⟩,
   ⟨migAsk.onReq (fun u => { u with table := [(0, { decodingReq with migrating := true })] }), 0, migCom, { decodingReq with migrating := true }, by decide⟩⟩

theorem test_hypotheses_CommandsOnARequest_3 :
    (∃ (s : State) (mb : Nat) (c : MbCommand) (r : Request), OnRequest s mb 0x43 c r ∧ (1 ≤ cf c 16 2 ∧ cf c 16 2 ≤ 4096 ∧ cf c 8 8 % 4 = 0) ∧ r.spec.source = 3) ∧
    (∃ (s : State) (mb : Nat) (c : MbCommand), Due s mb 0x40 c ∧ ((credited s c).req? (cf c 0 4)).all (fun r => !(reqLive r.state && namesReq c r)) = true) ∧
    (∃ (s : State) (mb : Nat) (c : MbCommand), Due s mb 0x41 c ∧ ((credited s c).req? (cf c 0 4)).all (fun r => !(reqLive r.state && namesReq c r)) = true) ∧
    (∃ (s : State) (mb : Nat) (c : MbCommand), Due s mb 0x42 c ∧ ((credited s c).req? (cf c 0 4)).all (fun r => !(reqLive r.state && namesReq c r)) = true) ∧
    (∃ (s : State) (mb : Nat) (c : MbCommand) (l : Option (List Nat)), Due s mb 0x43 c ∧ ((credited s c).req? (cf c 0 4)).all (fun r => !(reqLive r.state && namesReq c r)) = true) ∧
    (∃ (s : State) (mb : Nat) (c : MbCommand), Due s mb 0x45 c ∧ ((credited s c).req? (cf c 0 4)).all (fun r => !(reqLive r.state && namesReq c r)) = true) :=
  ⟨⟨draftAsk 3, 0, draftCom, draftReq 3, by decide⟩,
   ⟨ask win 0x40 [], 0, com 0x40 [], by decide⟩,
   ⟨ask win 0x41 [], 0, com 0x41 [], by decide⟩,
   ⟨ask win 0x42 [], 0, com 0x42 [], by decide⟩,
   ⟨ask win 0x43 [], 0, com 0x43 [], none, by decide⟩,
   ⟨ask win 0x45 [], 0, com 0x45 [], by decide⟩⟩

theorem test_hypotheses_TimersOfARequest_1 :
    (∃ (s : State) (n : Nat) (r : Request), s.req? n = some r ∧ (s.tick.inCommit = true ∧ s.req.unsettled.contains n = true ∧ dueCommands s n = []) ∧ homedHere s r = true ∧ deadlineDue s r = true ∧ r.closeStatus = 0) ∧
    (∃ (s : State) (n : Nat) (r : Request), s.req? n = some r ∧ (s.tick.inCommit = true ∧ s.req.unsettled.contains n = true ∧ dueCommands s n = []) ∧ homedHere s r = true ∧ deadlineDue s r = false ∧ (r.state = .paused ∧ r.timer < s.nextEdge ∧ r.closeStatus = 0)) ∧
    (∃ (s : State) (n : Nat) (r : Request), s.req? n = some r ∧ (s.tick.inCommit = true ∧ s.req.unsettled.contains n = true ∧ dueCommands s n = []) ∧ homedHere s r = true ∧ deadlineDue s r = false ∧ (r.state = .parked ∧ r.timer < s.nextEdge ∧ r.closeStatus = 0)) ∧
    (∃ (s : State) (n : Nat) (r : Request), s.tick.inCommit = true ∧ s.req? n = some r ∧ r.state = .resuming ∧ allResident s r = true ∧ s.req.unsettled.contains n = false) ∧
    (∃ (s : State) (t n : Nat) (r : Request), s.req? n = some r ∧ r.state = .importing ∧ r.migrating = false ∧ r.importFrom + rf s.regs.scCtl 15 0 * 1000000 ≤ t ∧ s.gelcon.ships.find? (fun x => x.slot = some n && !x.outgoing) = none) :=
  ⟨⟨timerState { decodingReq with deadline := 5 }, 0, { decodingReq with deadline := 5 }, by decide⟩,
   ⟨timerState { decodingReq with state := .paused, timer := 5 }, 0, { decodingReq with state := .paused, timer := 5 }, by decide⟩,
   ⟨timerState { decodingReq with state := .parked, timer := 5 }, 0, { decodingReq with state := .parked, timer := 5 }, by decide⟩,
   ⟨win.onReq (fun u => { u with table := [(0, { decodingReq with state := .resuming })] }), 0, { decodingReq with state := .resuming }, by decide⟩,
   ⟨win.onReq (fun u => { u with table := [(0, { decodingReq with state := .importing })] }), 1000000000000, 0, { decodingReq with state := .importing }, by decide⟩⟩

theorem test_hypotheses_TimersOfARequest_2 :
    (∃ (s : State) (t n : Nat) (r : Request) (x : Shipment), s.req? n = some r ∧ r.state = .importing ∧ r.migrating = false ∧ r.importFrom + rf s.regs.scCtl 15 0 * 1000000 ≤ t ∧ s.gelcon.ships.find? (fun x => x.slot = some n && !x.outgoing) = some x) ∧
    (∃ (s : State) (n : Nat) (v : Int), s.tick.running = true ∧ s.tick.inCommit = false ∧ (s.tenant n).budgetTokens ≠ 0 ∧ s.tick.index % (s.tenant n).windowTicks = 0 ∧ s.plan.windowsBegun.contains (n, s.tick.index) = false ∧ (s.plan.accounts.find? (fun a => a.1 = n)).map (·.2) = some v) ∧
    (∃ (s : State) (n : Nat), s.tick.running = true ∧ s.tick.inCommit = false ∧ ((s.tenant n).budgetTokens = 0 ∨ s.tick.index % (s.tenant n).windowTicks ≠ 0)) ∧
    (∃ (s : State) (n : Nat) (l : List (OutToken × Bool)), s.tick.inCommit = true ∧ s.req.outsDue.find? (fun o => o.1 = n) = some (n, l, 0)) ∧
    (∃ (s : State) (n st : Nat) (l : List (OutToken × Bool)), s.tick.inCommit = true ∧ s.req.outsDue.find? (fun o => o.1 = n) = some (n, l, st + 1)) :=
  ⟨⟨(win.onReq (fun u => { u with table := [(0, { decodingReq with state := .importing })] })).onGelcon (fun g => { g with ships := [{ slot := some 0 }] }), 1000000000000, 0, { decodingReq with state := .importing }, { slot := some 0 }, by decide⟩,
   ⟨budgetState, 1, -7, by decide⟩,
   ⟨ticking, 1, by decide⟩,
   ⟨win.onReq (fun u => { u with outsDue := [(0, [], 0)] }), 0, [], by decide⟩,
   ⟨win.onReq (fun u => { u with outsDue := [(0, [], 1)] }), 0, 0, [], by decide⟩⟩

theorem test_hypotheses_TierRegions_1 :
    (∃ (s : State) (mb : Nat) (c : MbCommand) (g : Region), Asked s mb 0x60 c ∧ g = { number := cf c 0 1, isFixed := cf c 1 1 = 1, draining := bit (cf c 2 1) 0, offset := cf c 8 8, length := cf c 16 8, hostAddr := cf c 24 8 } ∧ cf c 0 1 < 64 ∧ s.tier.regions.find? (fun r => r.number = cf c 0 1) = none ∧ (cf c 1 1 ≤ 1 ∧ g.offset % 2097152 = 0 ∧ g.length % 2097152 = 0 ∧ g.hostAddr % 2097152 = 0 ∧ 0 < g.length ∧ g.offset + g.length ≤ 2 ^ 44) ∧ s.tier.regions.any (fun r => g.offset < r.offset + r.length && r.offset < g.offset + g.length) = false) ∧
    (∃ (s : State) (mb : Nat) (c : MbCommand), Asked s mb 0x60 c ∧ cf c 0 1 < 64 ∧ s.tier.regions.find? (fun r => r.number = cf c 0 1) = none ∧ (¬(cf c 1 1 ≤ 1 ∧ cf c 8 8 % 2097152 = 0 ∧ cf c 16 8 % 2097152 = 0 ∧ cf c 24 8 % 2097152 = 0 ∧ 0 < cf c 16 8 ∧ cf c 8 8 + cf c 16 8 ≤ 2 ^ 44))) ∧
    (∃ (s : State) (mb : Nat) (c : MbCommand), Asked s mb 0x60 c ∧ cf c 0 1 < 64 ∧ s.tier.regions.find? (fun r => r.number = cf c 0 1) = none ∧ s.tier.regions.any (fun r => cf c 8 8 < r.offset + r.length && r.offset < cf c 8 8 + cf c 16 8) = true) ∧
    (∃ (s : State) (mb : Nat) (c : MbCommand), Asked s mb 0x60 c ∧ 64 ≤ cf c 0 1) ∧
    (∃ (s : State) (mb : Nat) (c : MbCommand) (r : Region), Asked s mb 0x60 c ∧ cf c 0 1 < 64 ∧ s.tier.regions.find? (fun r => r.number = cf c 0 1) = some r ∧ (r.offset = cf c 8 8 ∧ r.length = cf c 16 8 ∧ r.hostAddr = cf c 24 8)) :=
  ⟨⟨ask win 0x60 regPay, 0, com 0x60 regPay, aRegion, by decide⟩,
   ⟨ask win 0x60 [], 0, com 0x60 [], by decide⟩,
   ⟨withRegion (ask win 0x60 ([1] ++ regPay.drop 1)), 0, com 0x60 ([1] ++ regPay.drop 1), by decide⟩,
   ⟨ask win 0x60 [64], 0, com 0x60 [64], by decide⟩,
   ⟨withRegion (ask win 0x60 ([0, 0, 1] ++ regPay.drop 3)), 0, com 0x60 ([0, 0, 1] ++ regPay.drop 3), aRegion, by decide⟩⟩

theorem test_hypotheses_TierRegions_2 :
    (∃ (s : State) (mb : Nat) (c : MbCommand) (r : Region), Asked s mb 0x60 c ∧ cf c 0 1 < 64 ∧ s.tier.regions.find? (fun r => r.number = cf c 0 1) = some r ∧ (r.offset ≠ cf c 8 8 ∨ r.length ≠ cf c 16 8 ∨ r.hostAddr ≠ cf c 24 8)) ∧
    (∃ (s : State) (mb : Nat) (c : MbCommand) (r : Region), Due s mb 0x61 c ∧ s.tier.regions.find? (fun r => r.number = cf c 0 1) = some r ∧ regionUsed s r = 0 ∧ holdsImage s r = false) ∧
    (∃ (s : State) (mb : Nat) (c : MbCommand) (r : Region), Due s mb 0x61 c ∧ s.tier.regions.find? (fun r => r.number = cf c 0 1) = some r ∧ (regionUsed s r ≠ 0 ∨ holdsImage s r = true)) ∧
    (∃ (s : State) (mb : Nat) (c : MbCommand), Due s mb 0x61 c ∧ s.tier.regions.find? (fun r => r.number = cf c 0 1) = none) :=
  ⟨⟨withRegion (ask win 0x60 []), 0, com 0x60 [], aRegion, by decide⟩,
   ⟨withRegion (ask win 0x61 []), 0, com 0x61 [], aRegion, by decide⟩,
   ⟨(withRegion (ask win 0x61 [])).onModels (fun m => { m with slots := [(0, { state := .resident, info := { addr := t2Base } })] }), 0, com 0x61 [], aRegion, by decide⟩,
   ⟨ask win 0x61 [], 0, com 0x61 [], by decide⟩⟩

theorem test_hypotheses_TierDirectives_1 :
    (∃ (s : State) (mb h : Nat) (c : MbCommand), Due s mb 0x62 c ∧ (cf c 0 1 = 1 ∧ cf c 1 1 = 0) ∧ namedGroup s c = some h) ∧
    (∃ (s : State) (mb h : Nat) (c : MbCommand), Due s mb 0x62 c ∧ (cf c 0 1 = 2 ∧ cf c 1 1 = 0) ∧ namedGroup s c = some h) ∧
    (∃ (s : State) (mb h : Nat) (c : MbCommand), Due s mb 0x62 c ∧ (cf c 0 1 = 3 ∧ cf c 1 1 = 0) ∧ namedGroup s c = some h) ∧
    (∃ (s : State) (mb h : Nat) (c : MbCommand) (g : PageGroup), Due s mb 0x62 c ∧ (cf c 0 1 = 4 ∧ cf c 1 1 = 0) ∧ namedGroup s c = some h ∧ s.group? h = some g ∧ ((g.state = .resident ∨ g.state = .parked) ∧ g.refs = 0 ∧ g.pinned = false)) ∧
    (∃ (s : State) (mb h : Nat) (c : MbCommand) (g : PageGroup), Due s mb 0x62 c ∧ (cf c 0 1 = 4 ∧ cf c 1 1 = 0) ∧ namedGroup s c = some h ∧ s.group? h = some g ∧ (¬((g.state = .resident ∨ g.state = .parked) ∧ g.refs = 0 ∧ g.pinned = false))) ∧
    (∃ (s : State) (mb h : Nat) (c : MbCommand) (g : PageGroup), Due s mb 0x62 c ∧ (cf c 0 1 = 5 ∧ cf c 1 1 = 0) ∧ namedGroup s c = some h ∧ s.group? h = some g ∧ g.pinned = false) ∧
    (∃ (s : State) (mb h : Nat) (c : MbCommand) (g : PageGroup), Due s mb 0x62 c ∧ (cf c 0 1 = 5 ∧ cf c 1 1 = 0) ∧ namedGroup s c = some h ∧ s.group? h = some g ∧ g.pinned = true) :=
  ⟨⟨withGroup (ask win 0x62 (dirPay 1)), 0, 7, com 0x62 (dirPay 1), by decide⟩,
   ⟨withGroup (ask win 0x62 (dirPay 2)), 0, 7, com 0x62 (dirPay 2), by decide⟩,
   ⟨withGroup (ask win 0x62 (dirPay 3)), 0, 7, com 0x62 (dirPay 3), by decide⟩,
   ⟨withGroup (ask win 0x62 (dirPay 4)), 0, 7, com 0x62 (dirPay 4), aGroup, by decide⟩,
   ⟨(ask win 0x62 (dirPay 4)).onTier (fun t => { t with groups := [(7, { aGroup with pinned := true })] }), 0, 7, com 0x62 (dirPay 4), { aGroup with pinned := true }, by decide⟩,
   ⟨withGroup (ask win 0x62 (dirPay 5)), 0, 7, com 0x62 (dirPay 5), aGroup, by decide⟩,
   ⟨(ask win 0x62 (dirPay 5)).onTier (fun t => { t with groups := [(7, { aGroup with pinned := true })] }), 0, 7, com 0x62 (dirPay 5), { aGroup with pinned := true }, by decide⟩⟩

theorem test_hypotheses_TierDirectives_2 :
    (∃ (s : State) (mb : Nat) (c : MbCommand), Due s mb 0x62 c ∧ (cf c 0 1 = 1 ∧ cf c 1 1 = 0) ∧ namedGroup s c = none) ∧
    (∃ (s : State) (mb : Nat) (c : MbCommand), Due s mb 0x62 c ∧ (cf c 0 1 = 2 ∧ cf c 1 1 = 0) ∧ namedGroup s c = none) ∧
    (∃ (s : State) (mb : Nat) (c : MbCommand), Due s mb 0x62 c ∧ (cf c 0 1 = 3 ∧ cf c 1 1 = 0) ∧ namedGroup s c = none) ∧
    (∃ (s : State) (mb : Nat) (c : MbCommand), Due s mb 0x62 c ∧ (cf c 0 1 = 4 ∧ cf c 1 1 = 0) ∧ namedGroup s c = none) ∧
    (∃ (s : State) (mb : Nat) (c : MbCommand), Due s mb 0x62 c ∧ (cf c 0 1 = 5 ∧ cf c 1 1 = 0) ∧ namedGroup s c = none) ∧
    (∃ (s : State) (mb : Nat) (c : MbCommand) (r : Request), Due s mb 0x62 c ∧ (cf c 0 1 = 6 ∧ cf c 1 1 = 1) ∧ s.req? (cf c 4 4) = some r ∧ (reqLive r.state = true ∧ r.admitTick % two32 = cf c 8 4) ∧ r.state = .paused) ∧
    (∃ (s : State) (mb : Nat) (c : MbCommand) (r : Request), Due s mb 0x62 c ∧ (cf c 0 1 = 6 ∧ cf c 1 1 = 1) ∧ s.req? (cf c 4 4) = some r ∧ (reqLive r.state = true ∧ r.admitTick % two32 = cf c 8 4) ∧ r.state ≠ .paused) :=
  ⟨⟨ask win 0x62 (dirPay 1), 0, com 0x62 (dirPay 1), by decide⟩,
   ⟨ask win 0x62 (dirPay 2), 0, com 0x62 (dirPay 2), by decide⟩,
   ⟨ask win 0x62 (dirPay 3), 0, com 0x62 (dirPay 3), by decide⟩,
   ⟨ask win 0x62 (dirPay 4), 0, com 0x62 (dirPay 4), by decide⟩,
   ⟨ask win 0x62 (dirPay 5), 0, com 0x62 (dirPay 5), by decide⟩,
   ⟨(ask win 0x62 [6, 1]).onReq (fun u => { u with table := [(0, { decodingReq with state := .paused })] }), 0, com 0x62 [6, 1], { decodingReq with state := .paused }, by decide⟩,
   ⟨withReq (ask win 0x62 [6, 1]), 0, com 0x62 [6, 1], decodingReq, by decide⟩⟩

theorem test_hypotheses_TierDirectives_3 :
    (∃ (s : State) (mb : Nat) (c : MbCommand), Due s mb 0x62 c ∧ (cf c 0 1 = 6 ∧ cf c 1 1 = 1) ∧ (s.req? (cf c 4 4)).all (fun r => !(reqLive r.state && decide (r.admitTick % two32 = cf c 8 4))) = true) ∧
    (∃ (s u : State) (mb : Nat) (c : MbCommand) (l : List Nat) (r : Request), Due s mb 0x63 c ∧ (1 ≤ cf c 8 4 ∧ cf c 8 4 ≤ 2097151 ∧ cf c 2 1 < 16) ∧ (bit (cf c 4 2) 15 = true → s.variant ≠ .cb ∧ (currentGen s (cf c 4 2 % 4096) (cf c 2 1)).isSome = true) ∧ u = s.begin.hostRead c.port (cf c 16 8) (4 * cf c 8 4) ∧ r = { domain := cf c 0 2, modelSlot := cf c 2 1, alloyEn := bit (cf c 4 2) 15, alloyId := cf c 4 2 % 4096, alloyGen := ((currentGen s (cf c 4 2 % 4096) (cf c 2 1)).map (·.gen)).getD 0 }) ∧
    (∃ (s : State) (mb : Nat) (c : MbCommand) (l : List Nat), Due s mb 0x63 c ∧ (1 ≤ cf c 8 4 ∧ cf c 8 4 ≤ 2097151 ∧ cf c 2 1 < 16) ∧ bit (cf c 4 2) 15 = true ∧ s.variant ≠ .cb ∧ currentGen s (cf c 4 2 % 4096) (cf c 2 1) = none) ∧
    (∃ (s : State) (mb : Nat) (c : MbCommand), Due s mb 0x63 c ∧ (1 ≤ cf c 8 4 ∧ cf c 8 4 ≤ 2097151 ∧ cf c 2 1 < 16) ∧ (bit (cf c 4 2) 15 = true → s.variant ≠ .cb)) ∧
    (∃ (s : State) (mb : Nat) (c : MbCommand) (l : Option (List Nat)), Due s mb 0x63 c ∧ (1 ≤ cf c 8 4 ∧ cf c 8 4 ≤ 2097151 ∧ cf c 2 1 < 16) ∧ bit (cf c 4 2) 15 = true ∧ s.variant = .cb) ∧
    (∃ (s : State) (mb : Nat) (c : MbCommand) (l : Option (List Nat)), Due s mb 0x63 c ∧ (¬(1 ≤ cf c 8 4 ∧ cf c 8 4 ≤ 2097151 ∧ cf c 2 1 < 16))) :=
  ⟨⟨ask win 0x62 [6, 1], 0, com 0x62 [6, 1], by decide⟩,
   ⟨ask win 0x63 [0, 0, 0, 0, 0, 0, 0, 0, 1], (ask win 0x63 [0, 0, 0, 0, 0, 0, 0, 0, 1]).begin.hostRead 0 0 4, 0, com 0x63 [0, 0, 0, 0, 0, 0, 0, 0, 1], [5], { alloyEn := false }, by decide⟩,
   ⟨ask win 0x63 [0, 0, 0, 0, 0, 128, 0, 0, 1], 0, com 0x63 [0, 0, 0, 0, 0, 128, 0, 0, 1], [5], by decide⟩,
   ⟨ask win 0x63 [0, 0, 0, 0, 0, 0, 0, 0, 1], 0, com 0x63 [0, 0, 0, 0, 0, 0, 0, 0, 1], by decide⟩,
   ⟨{ ask win 0x63 [0, 0, 0, 0, 0, 128, 0, 0, 1] with variant := .cb }, 0, com 0x63 [0, 0, 0, 0, 0, 128, 0, 0, 1], none, by decide⟩,
   ⟨ask win 0x63 [], 0, com 0x63 [], none, by decide⟩⟩

theorem test_hypotheses_PageGroupsMove_1 :
    (∃ (s : State) (h a : Nat) (g : PageGroup), s.tick.inCommit = true ∧ s.group? h = some g ∧ g.state = .demoting ∧ t2PlaceOk s h g a g.t2Granules = true ∧ moveDone s 3 h = true ∧ transitHeld s h = true) ∧
    (∃ (s : State) (h a : Nat) (g : PageGroup), s.group? h = some g ∧ (s.tick.inCommit = false ∨ g.state ≠ .demoting ∨ moveDone s 3 h = false ∨ transitHeld s h = false)) ∧
    (∃ (s : State) (h : Nat) (g : PageGroup), s.tick.inCommit = true ∧ s.group? h = some g ∧ g.state = .demoting) ∧
    (∃ (s : State) (h : Nat) (g : PageGroup), s.group? h = some g ∧ (s.tick.inCommit = false ∨ g.state ≠ .demoting)) ∧
    (∃ (s : State) (h : Nat) (g : PageGroup) (d : List (BitVec 8)), s.tick.inCommit = true ∧ s.group? h = some g ∧ g.state = .promoting ∧ (g.rebuild = false ∧ g.readLost = false) ∧ (moveDone s 0 h = true ∧ transitHeld s h = true) ∧ copyOk (groupModel s g.modelSlot g.draft) g.frameGranules d = true) ∧
    (∃ (s : State) (h : Nat) (g : PageGroup) (d : List (BitVec 8)), s.tick.inCommit = true ∧ s.group? h = some g ∧ g.state = .promoting ∧ (g.rebuild = false ∧ g.readLost = false) ∧ (moveDone s 0 h = true ∧ transitHeld s h = true) ∧ copyOk (groupModel s g.modelSlot g.draft) g.frameGranules d = false) :=
  ⟨⟨t2State .demoting, 7, t2Base, { aGroup with state := .demoting }, by decide⟩,
   ⟨t2State .parked, 7, t2Base, { aGroup with state := .parked }, by decide⟩,
   ⟨t2State .demoting, 7, { aGroup with state := .demoting }, by decide⟩,
   ⟨t2State .parked, 7, { aGroup with state := .parked }, by decide⟩,
   ⟨t2State .promoting, 7, { aGroup with state := .promoting }, [], by decide⟩,
   ⟨(withReq win).onTier (fun t => { t with groups := [(7, { aGroup with state := .promoting, owner := some 0, frameGranules := 1 })] }), 7, { aGroup with state := .promoting, owner := some 0, frameGranules := 1 }, [1], by decide, by decide, by decide, by decide, by decide, by decide +kernel⟩⟩

theorem test_hypotheses_PageGroupsMove_2 :
    (∃ (s : State) (h : Nat) (g : PageGroup), s.tick.inCommit = true ∧ s.group? h = some g ∧ g.state = .promoting ∧ (g.rebuild = false ∧ g.readLost = false) ∧ g.owner = none) ∧
    (∃ (s : State) (h n : Nat) (g : PageGroup) (r : Request), s.tick.inCommit = true ∧ s.group? h = some g ∧ g.state = .promoting ∧ (g.rebuild = false ∧ g.readLost = false) ∧ g.owner = some n ∧ s.req? n = some r) ∧
    (∃ (s : State) (h : Nat) (g : PageGroup) (d : List (BitVec 8)), s.group? h = some g ∧ (s.tick.inCommit = false ∨ g.state ≠ .promoting ∨ g.rebuild = true ∨ g.readLost = true)) ∧
    (∃ (s : State) (h k : Nat) (g : PageGroup), s.tick.running = true ∧ s.tick.inCommit = false ∧ s.group? h = some g ∧ g.markTick = some k ∧ k < s.tick.index ∧ s.tier.publish.contains h = true) ∧
    (∃ (s : State) (n : Nat) (f : PendingFill), s.tick.running = true ∧ s.tick.inCommit = false ∧ s.tier.fills[n]? = some f ∧ f.endsAt ≤ s.tick.index ∧ f.group = none) ∧
    (∃ (s : State) (n h : Nat) (f : PendingFill) (g : PageGroup), s.tick.running = true ∧ s.tick.inCommit = false ∧ s.tier.fills[n]? = some f ∧ f.endsAt ≤ s.tick.index ∧ f.group = some h ∧ s.group? h = some g ∧ (g.state = .freeing ∧ g.refs = 0)) :=
  ⟨⟨t2State .promoting, 7, { aGroup with state := .promoting }, by decide⟩,
   ⟨(withReq win).onTier (fun t => { t with groups := [(7, { aGroup with state := .promoting, owner := some 0, frameGranules := 1 })] }), 7, 0, { aGroup with state := .promoting, owner := some 0, frameGranules := 1 }, decodingReq, by decide⟩,
   ⟨t2State .parked, 7, { aGroup with state := .parked }, [], by decide⟩,
   ⟨ticking.onTier (fun t => { t with groups := [(7, { aGroup with markTick := some 4 })], publish := [7] }), 7, 4, { aGroup with markTick := some 4 }, by decide⟩,
   ⟨ticking.onTier (fun t => { t with fills := [{ granules := 3 }] }), 0, { granules := 3 }, by decide⟩,
   ⟨ticking.onTier (fun t => { t with groups := [(7, { aGroup with state := .freeing })], fills := [{ granules := 3, group := some 7 }] }), 0, 7, { granules := 3, group := some 7 }, { aGroup with state := .freeing }, by decide⟩⟩

theorem test_hypotheses_ModelSlots_1 :
    (∃ (s : State) (mb : Nat) (c : MbCommand), Due s mb 0x70 c ∧ (cf c 0 1 < 16 ∨ cf c 0 1 = 255) ∧ imgPlaced s (cf c 8 8) 64 = true ∧ (cf c 0 1 = 255 ∨ (s.mslot (cf c 0 1)).state = .empty)) ∧
    (∃ (s : State) (mb : Nat) (c : MbCommand), Due s mb 0x70 c ∧ (cf c 0 1 < 16 ∨ cf c 0 1 = 255) ∧ imgPlaced s (cf c 8 8) 64 = false) ∧
    (∃ (s : State) (mb : Nat) (c : MbCommand), Due s mb 0x70 c ∧ cf c 0 1 < 16 ∧ imgPlaced s (cf c 8 8) 64 = true ∧ (s.mslot (cf c 0 1)).state ≠ .empty) ∧
    (∃ (s : State) (mb : Nat) (c : MbCommand), Due s mb 0x70 c ∧ (16 ≤ cf c 0 1 ∧ cf c 0 1 ≠ 255)) ∧
    (∃ (s : State) (mb : Nat) (c : MbCommand) (r : HeaderRead), s.cmdAt mb [0x70] = some c ∧ (settlesLong s = true ∧ s.sceolUp = true) ∧ c.phase = 1 ∧ r.fail = true) ∧
    (∃ (s u : State) (mb : Nat) (c : MbCommand) (r : HeaderRead), s.cmdAt mb [0x70] = some c ∧ (settlesLong s = true ∧ s.sceolUp = true) ∧ c.phase = 1 ∧ r.fail = false ∧ u = s.translateTier (cf c 8 8) r.bytes.length ∧ imgStatus u (cf c 8 8) r.bytes ≠ St.ok) ∧
    (∃ (s u : State) (mb n : Nat) (c : MbCommand) (r : HeaderRead) (i : ModelInfo), s.cmdAt mb [0x70] = some c ∧ (settlesLong s = true ∧ s.sceolUp = true) ∧ c.phase = 1 ∧ r.fail = false ∧ u = s.translateTier (cf c 8 8) r.bytes.length ∧ imgStatus u (cf c 8 8) r.bytes = St.ok ∧ ((cf c 0 1 = n ∧ n ≠ 255 ∧ (u.mslot n).state = .empty) ∨ (cf c 0 1 = 255 ∧ (List.range 16).find? (fun k => (u.mslot k).state = .empty && (u.mslot k).loadNext.isNone) = some n)) ∧ i = imgInfo (cf c 8 8) r.bytes ∧ i.granules + rf u.regs.tmCtl 15 0 * 512 ≤ u.tier.t1Free) :=
  ⟨⟨fixedRegion (ask win 0x70 loadPay), 0, com 0x70 loadPay, by decide⟩,
   ⟨ask win 0x70 [], 0, com 0x70 [], by decide⟩,
   ⟨(fixedRegion (ask win 0x70 loadPay)).onModels (fun m => { m with slots := [(0, { state := .resident })] }), 0, com 0x70 loadPay, by decide⟩,
   ⟨ask win 0x70 [16], 0, com 0x70 [16], by decide⟩,
   ⟨loadAsk, 0, loadCom, { fail := true }, by decide⟩,
   ⟨loadAsk, loadAsk.translateTier t2Base 0, 0, loadCom, {}, by decide⟩,
   ⟨roomAsk, roomAsk.translateTier t2Base imgBytes.length, 0, 0, anyCom, { bytes := imgBytes }, imgInfo t2Base imgBytes, by decide +kernel, by decide +kernel, by decide +kernel, by decide +kernel, by decide +kernel, by decide +kernel, Or.inr (by decide +kernel), by decide +kernel, by decide +kernel⟩⟩

theorem test_hypotheses_ModelSlots_2 :
    (∃ (s u : State) (mb n : Nat) (c : MbCommand) (r : HeaderRead) (i : ModelInfo), s.cmdAt mb [0x70] = some c ∧ (settlesLong s = true ∧ s.sceolUp = true) ∧ c.phase = 1 ∧ r.fail = false ∧ u = s.translateTier (cf c 8 8) r.bytes.length ∧ imgStatus u (cf c 8 8) r.bytes = St.ok ∧ ((cf c 0 1 = n ∧ n ≠ 255 ∧ (u.mslot n).state = .empty) ∨ (cf c 0 1 = 255 ∧ (List.range 16).find? (fun k => (u.mslot k).state = .empty && (u.mslot k).loadNext.isNone) = some n)) ∧ i = imgInfo (cf c 8 8) r.bytes ∧ u.tier.t1Free < i.granules + rf u.regs.tmCtl 15 0 * 512) ∧
    (∃ (s u : State) (mb : Nat) (c : MbCommand) (r : HeaderRead), s.cmdAt mb [0x70] = some c ∧ (settlesLong s = true ∧ s.sceolUp = true) ∧ c.phase = 1 ∧ r.fail = false ∧ u = s.translateTier (cf c 8 8) r.bytes.length ∧ imgStatus u (cf c 8 8) r.bytes = St.ok ∧ cf c 0 1 ≠ 255 ∧ (u.mslot (cf c 0 1)).state ≠ .empty) ∧
    (∃ (s u : State) (mb k : Nat) (c : MbCommand) (r : HeaderRead), s.cmdAt mb [0x70] = some c ∧ (settlesLong s = true ∧ s.sceolUp = true) ∧ c.phase = 1 ∧ r.fail = false ∧ u = s.translateTier (cf c 8 8) r.bytes.length ∧ imgStatus u (cf c 8 8) r.bytes = St.ok ∧ cf c 0 1 = 255 ∧ (List.range 16).find? (fun k => (u.mslot k).state = .empty && (u.mslot k).loadNext.isNone) = none ∧ loadVictim u = some k) ∧
    (∃ (s u : State) (mb : Nat) (c : MbCommand) (r : HeaderRead), s.cmdAt mb [0x70] = some c ∧ (settlesLong s = true ∧ s.sceolUp = true) ∧ c.phase = 1 ∧ r.fail = false ∧ u = s.translateTier (cf c 8 8) r.bytes.length ∧ imgStatus u (cf c 8 8) r.bytes = St.ok ∧ cf c 0 1 = 255 ∧ (List.range 16).find? (fun k => (u.mslot k).state = .empty && (u.mslot k).loadNext.isNone) = none ∧ loadVictim u = none) ∧
    (∃ (s : State) (n : Nat) (r : ModelRead) (m : ModelSlot) (q : ImgPlaced), m = s.mslot n ∧ (settlesLong s = true ∧ s.sceolUp = true) ∧ m.state = .loading ∧ moveDone s 1 n = true ∧ loadStatus s m.info r = St.ok ∧ placeImage s m.info r.image = some q ∧ m.loadMb = none) ∧
    (∃ (s : State) (n mb : Nat) (c : MbCommand) (r : ModelRead) (m : ModelSlot) (q : ImgPlaced), m = s.mslot n ∧ (settlesLong s = true ∧ s.sceolUp = true) ∧ m.state = .loading ∧ moveDone s 1 n = true ∧ loadStatus s m.info r = St.ok ∧ placeImage s m.info r.image = some q ∧ m.loadMb = some mb ∧ s.cmdAt mb [0x70] = some c) ∧
    (∃ (s : State) (n : Nat) (r : ModelRead) (m : ModelSlot), m = s.mslot n ∧ (settlesLong s = true ∧ s.sceolUp = true) ∧ m.state = .loading ∧ (r.fail = true ∨ moveDone s 1 n = true) ∧ loadStatus s m.info r ≠ St.ok) :=
  ⟨⟨fixedRegion loadAsk, (fixedRegion loadAsk).translateTier t2Base imgBytes.length, 0, 0, loadCom, { bytes := imgBytes }, imgInfo t2Base imgBytes, by decide +kernel, by decide +kernel, by decide +kernel, by decide +kernel, by decide +kernel, by decide +kernel, Or.inl (by decide +kernel), by decide +kernel, by decide +kernel⟩,
   ⟨takenSlot, takenSlot.translateTier t2Base imgBytes.length, 0, loadCom, { bytes := imgBytes }, by decide⟩,
   ⟨fullSlots, fullSlots.translateTier t2Base imgBytes.length, 0, 0, anyCom, { bytes := imgBytes }, by decide⟩,
   ⟨pinnedSlots, pinnedSlots.translateTier t2Base imgBytes.length, 0, anyCom, { bytes := imgBytes }, by decide⟩,
   ⟨loadedState, 0, loadedRead, loadedSlot, {}, rfl, by decide +kernel, by decide +kernel, by decide +kernel, loaded_ok _ (by decide +kernel), by decide +kernel, by decide +kernel⟩,
   ⟨loadedAsked, 0, 0, loadCom, loadedRead, { loadedSlot with loadMb := some 0 }, {}, rfl, by decide +kernel, by decide +kernel, by decide +kernel, loaded_ok _ (by decide +kernel), by decide +kernel, by decide +kernel, by decide +kernel⟩,
   ⟨win.onModels (fun m => { m with slots := [(0, { state := .loading })] }), 0, { fail := true }, { state := .loading }, by decide⟩⟩

theorem test_hypotheses_ModelSlots_3 :
    (∃ (s u : State) (mb : Nat) (c : MbCommand) (m : ModelSlot), Due s mb 0x71 c ∧ cf c 0 1 < 16 ∧ m = s.mslot (cf c 0 1) ∧ m.state = .resident ∧ m.pinned = false ∧ (bit (cf c 1 1) 0 = true ∨ boundTo s (cf c 0 1) = false) ∧ u = (s.begin.modMslot (cf c 0 1) (fun m => { m with evictMbs := m.evictMbs ++ [mb] })).setCmd { c with phase := 1, aux := cf c 0 1 }) ∧
    (∃ (s : State) (mb : Nat) (c : MbCommand) (m : ModelSlot), Due s mb 0x71 c ∧ cf c 0 1 < 16 ∧ m = s.mslot (cf c 0 1) ∧ m.state = .resident ∧ m.pinned = false ∧ bit (cf c 1 1) 0 = false ∧ boundTo s (cf c 0 1) = true) ∧
    (∃ (s : State) (mb : Nat) (c : MbCommand) (m : ModelSlot), Due s mb 0x71 c ∧ cf c 0 1 < 16 ∧ m = s.mslot (cf c 0 1) ∧ m.state = .evicting) ∧
    (∃ (s : State) (mb : Nat) (c : MbCommand) (m : ModelSlot), Due s mb 0x71 c ∧ cf c 0 1 < 16 ∧ m = s.mslot (cf c 0 1) ∧ (m.state = .loading ∧ m.pinned = false)) ∧
    (∃ (s : State) (mb : Nat) (c : MbCommand) (m : ModelSlot), Due s mb 0x71 c ∧ cf c 0 1 < 16 ∧ m = s.mslot (cf c 0 1) ∧ (m.state = .empty ∨ (m.state = .resident ∧ m.pinned = true))) ∧
    (∃ (s : State) (n : Nat) (m : ModelSlot), m = s.mslot n ∧ (settlesLong s = true ∧ s.sceolUp = true) ∧ (m.state = .evicting ∨ m.state = .broken) ∧ m.info.granules = 0 ∧ s.tier.fills.any (fun f => f.slotOf = some n) = false ∧ m.loadNext = none) ∧
    (∃ (s : State) (n x : Nat) (m : ModelSlot) (i : ModelInfo), m = s.mslot n ∧ (settlesLong s = true ∧ s.sceolUp = true) ∧ (m.state = .evicting ∨ m.state = .broken) ∧ m.info.granules = 0 ∧ s.tier.fills.any (fun f => f.slotOf = some n) = false ∧ m.loadNext = some (x, i)) :=
  ⟨⟨(ask win 0x71 []).onModels (fun m => { m with slots := [(0, { state := .resident })] }), evicted, 0, com 0x71 [], { state := .resident }, by decide, by decide, by decide, by decide, by decide, by decide, rfl⟩,
   ⟨withReq ((ask win 0x71 []).onModels (fun m => { m with slots := [(0, { state := .resident })] })), 0, com 0x71 [], { state := .resident }, by decide⟩,
   ⟨(ask win 0x71 []).onModels (fun m => { m with slots := [(0, { state := .evicting })] }), 0, com 0x71 [], { state := .evicting }, by decide⟩,
   ⟨(ask win 0x71 []).onModels (fun m => { m with slots := [(0, { state := .loading })] }), 0, com 0x71 [], { state := .loading }, by decide⟩,
   ⟨ask win 0x71 [], 0, com 0x71 [], {}, by decide⟩,
   ⟨win.onModels (fun m => { m with slots := [(0, { state := .evicting })] }), 0, { state := .evicting }, by decide⟩,
   ⟨win.onModels (fun m => { m with slots := [(0, { state := .evicting, loadNext := some (0, {}) })] }), 0, 0, { state := .evicting, loadNext := some (0, {}) }, {}, by decide⟩⟩

theorem test_hypotheses_ModelSlots_4 :
    (∃ (s : State) (mb : Nat) (c : MbCommand), Asked s mb 0x72 c ∧ cf c 0 1 < 16 ∧ (s.mslot (cf c 0 1)).state ≠ .empty) ∧
    (∃ (s : State) (mb : Nat) (c : MbCommand), Asked s mb 0x73 c ∧ cf c 0 1 < 16 ∧ (s.mslot (cf c 0 1)).state ≠ .empty) ∧
    (∃ (s : State) (mb : Nat) (c : MbCommand), Asked s mb 0x74 c ∧ cf c 0 1 < 16 ∧ s.plan.quar.contains (cf c 0 1) = true) ∧
    (∃ (s : State) (mb : Nat) (c : MbCommand), Asked s mb 0x72 c ∧ cf c 0 1 < 16 ∧ (s.mslot (cf c 0 1)).state = .empty) ∧
    (∃ (s : State) (mb : Nat) (c : MbCommand), Asked s mb 0x73 c ∧ cf c 0 1 < 16 ∧ (s.mslot (cf c 0 1)).state = .empty) ∧
    (∃ (s : State) (mb : Nat) (c : MbCommand), Asked s mb 0x74 c ∧ cf c 0 1 < 16 ∧ s.plan.quar.contains (cf c 0 1) = false) :=
  ⟨⟨(ask win 0x72 []).onModels (fun m => { m with slots := [(0, { state := .resident })] }), 0, com 0x72 [], by decide⟩,
   ⟨(ask win 0x73 []).onModels (fun m => { m with slots := [(0, { state := .resident })] }), 0, com 0x73 [], by decide⟩,
   ⟨(ask win 0x74 []).onPlan (fun p => { p with quar := [0] }), 0, com 0x74 [], by decide⟩,
   ⟨ask win 0x72 [], 0, com 0x72 [], by decide⟩,
   ⟨ask win 0x73 [], 0, com 0x73 [], by decide⟩,
   ⟨ask win 0x74 [], 0, com 0x74 [], by decide⟩⟩

theorem test_hypotheses_AlloyGenerations_1 :
    (∃ (s : State) (mb : Nat) (c : MbCommand) (r : AlloyRead), Due s mb 0x75 c ∧ s.variant = .cb) ∧
    (∃ (s : State) (mb : Nat) (c : MbCommand) (r : AlloyRead), Due s mb 0x75 c ∧ s.variant ≠ .cb ∧ (4096 ≤ cf c 0 2 ∨ 16 ≤ cf c 2 1)) ∧
    (∃ (s : State) (mb : Nat) (c : MbCommand) (r : AlloyRead), Due s mb 0x75 c ∧ s.variant ≠ .cb ∧ (cf c 0 2 < 4096 ∧ cf c 2 1 < 16) ∧ (s.mslot (cf c 2 1)).state ≠ .resident) ∧
    (∃ (s : State) (mb : Nat) (c : MbCommand) (r : AlloyRead), Due s mb 0x75 c ∧ s.variant ≠ .cb ∧ (cf c 0 2 < 4096 ∧ cf c 2 1 < 16) ∧ (s.mslot (cf c 2 1)).state = .resident ∧ ((s.mslot (cf c 2 1)).info.alloyShapes = false ∨ (liveGens s (cf c 0 2)).all (fun g => g.modelSlot = cf c 2 1) = false)) ∧
    (∃ (s : State) (mb : Nat) (c : MbCommand) (r : AlloyRead) (i : ModelInfo) (g : AlloyGen), Due s mb 0x75 c ∧ s.variant ≠ .cb ∧ (cf c 0 2 < 4096 ∧ cf c 2 1 < 16) ∧ (s.mslot (cf c 2 1)).state = .resident ∧ (i = (s.mslot (cf c 2 1)).info ∧ i.alloyShapes = true ∧ (liveGens s (cf c 0 2)).all (fun g => g.modelSlot = cf c 2 1) = true) ∧ (2 ≤ (liveGens s (cf c 0 2)).length ∧ (liveGens s (cf c 0 2)).head? = some g) ∧ (g.state = .loading ∨ genRefs s (cf c 0 2) g.gen ≠ 0)) ∧
    (∃ (s u : State) (mb : Nat) (c : MbCommand) (r : AlloyRead) (i : ModelInfo), Due s mb 0x75 c ∧ s.variant ≠ .cb ∧ (cf c 0 2 < 4096 ∧ cf c 2 1 < 16) ∧ (s.mslot (cf c 2 1)).state = .resident ∧ (i = (s.mslot (cf c 2 1)).info ∧ i.alloyShapes = true ∧ (liveGens s (cf c 0 2)).all (fun g => g.modelSlot = cf c 2 1) = true) ∧ ((liveGens s (cf c 0 2)).length < 2 ∨ (liveGens s (cf c 0 2)).head?.any (fun g => g.state ≠ .loading && genRefs s (cf c 0 2) g.gen = 0) = true) ∧ imgPlaced s (cf c 8 8) 256 = false) ∧
    (∃ (s u : State) (mb : Nat) (c : MbCommand) (r : AlloyRead) (i : ModelInfo) (q : List (Nat × Nat × Nat × Nat × Nat)) (g : AlloyGen), Due s mb 0x75 c ∧ s.variant ≠ .cb ∧ (cf c 0 2 < 4096 ∧ cf c 2 1 < 16) ∧ (s.mslot (cf c 2 1)).state = .resident ∧ (i = (s.mslot (cf c 2 1)).info ∧ i.alloyShapes = true ∧ (liveGens s (cf c 0 2)).all (fun g => g.modelSlot = cf c 2 1) = true) ∧ (liveGens s (cf c 0 2)).length < 2 ∧ u = s.begin ∧ imgPlaced s (cf c 8 8) 256 = true ∧ alloyFits u (factorsPer u i r.image) = true ∧ sumN (factorsPer u i r.image) ≤ u.tier.t1Free ∧ placeFactors u i r.image = some q ∧ g = newGen u (cf c 0 2) (cf c 2 1) (cf c 8 8) r.image q) ∧
    (∃ (s u : State) (mb : Nat) (c : MbCommand) (r : AlloyRead) (i : ModelInfo) (q : List (Nat × Nat × Nat × Nat × Nat)) (g o : AlloyGen), Due s mb 0x75 c ∧ s.variant ≠ .cb ∧ (cf c 0 2 < 4096 ∧ cf c 2 1 < 16) ∧ (s.mslot (cf c 2 1)).state = .resident ∧ (i = (s.mslot (cf c 2 1)).info ∧ i.alloyShapes = true ∧ (liveGens s (cf c 0 2)).all (fun g => g.modelSlot = cf c 2 1) = true) ∧ (2 ≤ (liveGens s (cf c 0 2)).length ∧ (liveGens s (cf c 0 2)).head? = some o) ∧ (o.state ≠ .loading ∧ genRefs s (cf c 0 2) o.gen = 0) ∧ u = s.begin.freeGen (cf c 0 2) o.gen none St.cancelled ∧ imgPlaced s (cf c 8 8) 256 = true ∧ alloyFits u (factorsPer u i r.image) = true ∧ sumN (factorsPer u i r.image) ≤ u.tier.t1Free ∧ placeFactors u i r.image = some q ∧ g = newGen u (cf c 0 2) (cf c 2 1) (cf c 8 8) r.image q) :=
  ⟨⟨{ ask win 0x75 [] with variant := .cb }, 0, com 0x75 [], {}, by decide⟩,
   ⟨ask win 0x75 [0, 16], 0, com 0x75 [0, 16], {}, by decide⟩,
   ⟨ask win 0x75 [], 0, com 0x75 [], {}, by decide⟩,
   ⟨(ask win 0x75 []).onModels (fun m => { m with slots := [(0, { state := .resident })] }), 0, com 0x75 [], {}, by decide⟩,
   ⟨twoGens .loading, 0, com 0x75 loadPay, {}, { alloyShapes := true }, { gen := 1, state := .loading }, by decide⟩,
   ⟨(ask win 0x75 []).onModels (fun m => { m with slots := [(0, { state := .resident, info := { alloyShapes := true } })] }), win, 0, com 0x75 [], {}, { alloyShapes := true }, by decide⟩,
   ⟨alloyState, alloyState.begin, 0, com 0x75 loadPay, {}, { alloyShapes := true }, [], newGen alloyState.begin 0 0 t2Base [] [], by decide⟩,
   ⟨twoGens .resident, (twoGens .resident).begin.freeGen 0 1 none St.cancelled, 0, com 0x75 loadPay, {}, { alloyShapes := true }, [], newGen ((twoGens .resident).begin.freeGen 0 1 none St.cancelled) 0 0 t2Base [] [], { gen := 1, state := .resident }, by decide⟩⟩

theorem test_hypotheses_AlloyGenerations_2 :
    (∃ (s u : State) (mb : Nat) (c : MbCommand) (r : AlloyRead) (i : ModelInfo), Due s mb 0x75 c ∧ s.variant ≠ .cb ∧ (cf c 0 2 < 4096 ∧ cf c 2 1 < 16) ∧ (s.mslot (cf c 2 1)).state = .resident ∧ (i = (s.mslot (cf c 2 1)).info ∧ i.alloyShapes = true ∧ (liveGens s (cf c 0 2)).all (fun g => g.modelSlot = cf c 2 1) = true) ∧ (liveGens s (cf c 0 2)).length < 2 ∧ u = s.begin ∧ imgPlaced s (cf c 8 8) 256 = true ∧ ((alloyFits u (factorsPer u i r.image) = false ∨ u.tier.t1Free < sumN (factorsPer u i r.image)) ∨ placeFactors u i r.image = none)) ∧
    (∃ (s : State) (id gen : Nat) (r : AlloyRead) (g : AlloyGen), s.models.gens.find? (fun g => g.id = id && g.gen = gen) = some g ∧ (settlesLong s = true ∧ s.sceolUp = true) ∧ moveDone s 2 (gen * 4096 + id) = true ∧ g.state = .loading ∧ alloyStatus s (s.mslot g.modelSlot).info g.addr r = St.ok ∧ alloyCmd s id gen = none) ∧
    (∃ (s : State) (id gen : Nat) (r : AlloyRead) (g : AlloyGen) (c : MbCommand), s.models.gens.find? (fun g => g.id = id && g.gen = gen) = some g ∧ (settlesLong s = true ∧ s.sceolUp = true) ∧ moveDone s 2 (gen * 4096 + id) = true ∧ g.state = .loading ∧ alloyStatus s (s.mslot g.modelSlot).info g.addr r = St.ok ∧ alloyCmd s id gen = some c) ∧
    (∃ (s : State) (id gen : Nat) (r : AlloyRead) (g : AlloyGen), s.models.gens.find? (fun g => g.id = id && g.gen = gen) = some g ∧ (settlesLong s = true ∧ s.sceolUp = true) ∧ (r.fail = true ∨ moveDone s 2 (gen * 4096 + id) = true) ∧ g.state = .loading ∧ alloyStatus s (s.mslot g.modelSlot).info g.addr r ≠ St.ok) ∧
    (∃ (s : State) (mb : Nat) (c : MbCommand), Due s mb 0x76 c ∧ s.variant = .cb) ∧
    (∃ (s : State) (mb : Nat) (c : MbCommand), Due s mb 0x76 c ∧ s.variant ≠ .cb ∧ genLive s (cf c 0 2) (cf c 2 1) = true ∧ genRefs s (cf c 0 2) (cf c 2 1) = 0) ∧
    (∃ (s : State) (mb : Nat) (c : MbCommand), Due s mb 0x76 c ∧ s.variant ≠ .cb ∧ genLive s (cf c 0 2) (cf c 2 1) = true ∧ genRefs s (cf c 0 2) (cf c 2 1) ≠ 0) ∧
    (∃ (s : State) (mb : Nat) (c : MbCommand), Due s mb 0x76 c ∧ s.variant ≠ .cb ∧ genLive s (cf c 0 2) (cf c 2 1) = false) :=
  ⟨⟨fullCeiling, fullCeiling.begin, 0, com 0x75 loadPay, {}, { alloyShapes := true }, by decide, by decide, by decide, by decide, by decide, by decide, by decide, by decide, Or.inl (Or.inl (by decide +kernel))⟩,
   ⟨alloyLoading, 1, 1, alloyOkRead, { id := 1, gen := 1, addr := t2Base }, by decide⟩,
   ⟨alloyLoading.onMb (fun m => { m with outstanding := [alloyCom] }), 1, 1, alloyOkRead, { id := 1, gen := 1, addr := t2Base }, alloyCom, by decide⟩,
   ⟨alloyLoading, 1, 1, { fail := true }, { id := 1, gen := 1, addr := t2Base }, by decide⟩,
   ⟨{ ask win 0x76 [] with variant := .cb }, 0, com 0x76 [], by decide⟩,
   ⟨retireAsk, 0, com 0x76 [1, 0, 1], by decide⟩,
   ⟨retireAsk.onReq (fun u => { u with table := [(0, { decodingReq with alloyEn := true, alloyId := 1, alloyGen := 1 })] }), 0, com 0x76 [1, 0, 1], by decide⟩,
   ⟨ask win 0x76 [1, 0, 1], 0, com 0x76 [1, 0, 1], by decide⟩⟩

theorem test_hypotheses_DeviceStateAndReset_1 :
    (∃ (s : State) (mb : Nat) (c : MbCommand), Due s mb 0x02 c ∧ cf c 0 1 = devCode s.start.state) ∧
    (∃ (s : State) (mb : Nat) (c : MbCommand), Due s mb 0x02 c ∧ (s.start.state = .ready ∨ s.start.state = .maintenance) ∧ cf c 0 1 = 4 ∧ degraded s = false) ∧
    (∃ (s : State) (mb : Nat) (c : MbCommand), Due s mb 0x02 c ∧ (s.start.state = .ready ∨ s.start.state = .maintenance) ∧ cf c 0 1 = 4 ∧ degraded s = true) ∧
    (∃ (s : State) (mb : Nat) (c : MbCommand), Due s mb 0x02 c ∧ s.start.state = .ready ∧ cf c 0 1 = 6) ∧
    (∃ (s : State) (mb : Nat) (c : MbCommand), Due s mb 0x02 c ∧ s.start.state = .maintenance ∧ cf c 0 1 = 3) :=
  ⟨⟨ask win 2 [4], 0, com 2 [4], by decide⟩,
   ⟨(ask win 2 [4]).onStart (fun x => { x with state := .ready }), 0, com 2 [4], by decide⟩,
   ⟨((ask win 2 [4]).onStart (fun x => { x with state := .ready })).onStore (fun u => { u with failed := [1] }), 0, com 2 [4], by decide⟩,
   ⟨(ask win 2 [6]).onStart (fun x => { x with state := .ready }), 0, com 2 [6], by decide⟩,
   ⟨(ask win 2 [3]).onStart (fun x => { x with state := .maintenance }), 0, com 2 [3], by decide⟩⟩

theorem test_hypotheses_DeviceStateAndReset_2 :
    (∃ (s : State) (mb : Nat) (c : MbCommand), Due s mb 0x02 c ∧ (s.start.state = .serving ∨ s.start.state = .degraded) ∧ cf c 0 1 = 3 ∧ anyRequest s (fun _ => true) = false) ∧
    (∃ (s : State) (mb : Nat) (c : MbCommand), Due s mb 0x02 c ∧ (s.start.state = .serving ∨ s.start.state = .degraded) ∧ cf c 0 1 = 6 ∧ anyRequest s (fun _ => true) = false) ∧
    (∃ (s : State) (mb : Nat) (c : MbCommand), Due s mb 0x02 c ∧ (s.start.state = .serving ∨ s.start.state = .degraded) ∧ (cf c 0 1 = 3 ∨ cf c 0 1 = 6) ∧ anyRequest s (fun _ => true) = true) ∧
    (∃ (s : State) (mb : Nat) (c : MbCommand), Due s mb 0x02 c ∧ cf c 0 1 ≠ devCode s.start.state ∧ (s.start.state, cf c 0 1) ∉ [(DevState.ready, 4), (.ready, 6), (.maintenance, 4), (.maintenance, 3), (.serving, 3), (.serving, 6), (.degraded, 3), (.degraded, 6)]) :=
  ⟨⟨ask win 2 [3], 0, com 2 [3], by decide⟩,
   ⟨ask win 2 [6], 0, com 2 [6], by decide⟩,
   ⟨withReq (ask win 2 [3]), 0, com 2 [3], by decide⟩,
   ⟨ask win 2 [7], 0, com 2 [7], by decide⟩⟩

theorem test_hypotheses_ResetAndAbort :
    (∃ (s : State) (mb : Nat) (c : MbCommand), Due s mb 0x03 c) ∧
    (∃ (s : State) (mb : Nat) (c x : MbCommand), Due s mb 0x06 c ∧ s.mb.outstanding.find? (fun x => x.tag = cf c 0 1 && [0x70, 0x75, 0xA0, 0x91].contains x.opcode) = some x) ∧
    (∃ (s : State) (mb : Nat) (c : MbCommand), Due s mb 0x06 c ∧ s.mb.outstanding.find? (fun x => x.tag = cf c 0 1 && [0x70, 0x75, 0xA0, 0x91].contains x.opcode) = none) ∧
    (∃ (s : State) (x : MbCommand), x.phase = 0) ∧
    (∃ (s : State) (x : MbCommand), x.phase = 1 ∧ x.opcode = 0xA0) ∧
    (∃ (s : State) (x : MbCommand), x.phase = 1 ∧ x.opcode = 0x91) ∧
    (∃ (s : State) (x : MbCommand), x.phase = 1 ∧ x.opcode = 0x75) ∧
    (∃ (s : State) (x : MbCommand) (p : Nat × ModelSlot), x.phase = 2 ∧ x.opcode = 0x70 ∧ s.models.slots.find? (fun p => p.2.state = .loading && p.2.loadMb = some x.slot) = some p) :=
  ⟨⟨ask win 3 [], 0, com 3 [], by decide⟩,
   ⟨abortAsk, 0, com 6 [9], abortTarget, by decide⟩,
   ⟨ask win 6 [9], 0, com 6 [9], by decide⟩,
   ⟨win, com 0x70 [], by decide⟩,
   ⟨win, { com 0xA0 [] with phase := 1 }, by decide⟩,
   ⟨win, { com 0x91 [] with phase := 1 }, by decide⟩,
   ⟨win, { com 0x75 [] with phase := 1 }, by decide⟩,
   ⟨win.onModels (fun m => { m with slots := [(3, { state := .loading, loadMb := some 0 })] }), { com 0x70 [] with phase := 2 }, (3, { state := .loading, loadMb := some 0 }), by decide⟩⟩

theorem test_hypotheses_FirmwareAndCalibration_1 :
    (∃ (s : State) (mb : Nat) (c : MbCommand) (r : Nat × List (List Byte)), Asked s mb 0x80 c ∧ s.noPort = false ∧ blockRecords (s.tel.readable.getD {}) (cf c 0 2) = some r ∧ 32 + r.1 * r.2.length ≤ cf c 4 4) ∧
    (∃ (s : State) (mb : Nat) (c : MbCommand) (r : Nat × List (List Byte)), Asked s mb 0x80 c ∧ s.noPort = false ∧ blockRecords (s.tel.readable.getD {}) (cf c 0 2) = some r ∧ cf c 4 4 < 32 + r.1 * r.2.length) ∧
    (∃ (s : State) (mb : Nat) (c : MbCommand) (r : Nat × List (List Byte)), Asked s mb 0x80 c ∧ s.noPort = false ∧ blockRecords (s.tel.readable.getD {}) (cf c 0 2) = some r ∧ 32 + r.1 * r.2.length ≤ cf c 4 4) ∧
    (∃ (s : State) (mb : Nat) (c : MbCommand) (ok : Bool), Asked s mb 0x80 c ∧ s.noPort = false ∧ blockRecords (s.tel.readable.getD {}) (cf c 0 2) = none) ∧
    (∃ (s : State) (mb : Nat) (ok : Bool), s.noPort = true) ∧
    (∃ (s : State) (mb : Nat) (c : MbCommand), Asked s mb 0x90 c ∧ s.noPort = false ∧ s.start.record.length ≤ cf c 4 4) ∧
    (∃ (s : State) (mb : Nat) (c : MbCommand), Asked s mb 0x90 c ∧ s.noPort = false ∧ s.start.record.length ≤ cf c 4 4) :=
  ⟨⟨ask win 0x80 statPay, 0, com 0x80 statPay, (blockRecords {} 1).getD (0, []), by decide, by decide, rfl, by decide⟩,
   ⟨ask win 0x80 [1], 0, com 0x80 [1], (blockRecords {} 1).getD (0, []), by decide, by decide, rfl, by decide⟩,
   ⟨ask win 0x80 statPay, 0, com 0x80 statPay, (blockRecords {} 1).getD (0, []), by decide, by decide, rfl, by decide⟩,
   ⟨ask win 0x80 [255, 255], 0, com 0x80 [255, 255], true, by decide⟩,
   ⟨State.reset, 0, true, by decide⟩,
   ⟨ask win 0x90 [], 0, com 0x90 [], by decide⟩,
   ⟨ask win 0x90 [], 0, com 0x90 [], by decide⟩⟩

theorem test_hypotheses_FirmwareAndCalibration_2 :
    (∃ (s : State) (mb : Nat) (c : MbCommand) (ok : Bool), Asked s mb 0x90 c ∧ s.noPort = false ∧ cf c 4 4 < s.start.record.length) ∧
    (∃ (s : State) (mb : Nat) (c : MbCommand) (b : List Byte), Due s mb 0x91 c ∧ s.start.state = .maintenance ∧ s.mb.calWrite = none ∧ calOk s.mb.serial (b.take (cf c 4 4)) = true) ∧
    (∃ (s : State) (mb : Nat) (c : MbCommand) (b : List Byte), Due s mb 0x91 c ∧ s.start.state = .maintenance ∧ s.mb.calWrite = none ∧ calOk s.mb.serial (b.take (cf c 4 4)) = false) ∧
    (∃ (s : State) (mb : Nat) (c : MbCommand) (b : Option (List Byte)), Due s mb 0x91 c ∧ s.start.state ≠ .maintenance) ∧
    (∃ (s : State) (mb : Nat) (c : MbCommand) (b : Option (List Byte)), Due s mb 0x91 c ∧ s.start.state = .maintenance ∧ s.mb.calWrite.isSome = true) ∧
    (∃ (s : State) (mb : Nat) (c : MbCommand), Due s mb 0x91 c ∧ s.start.state = .maintenance ∧ s.mb.calWrite = none) ∧
    (∃ (s : State) (mb : Nat) (c : MbCommand) (r : FwRead), Due s mb 0xA0 c ∧ cf c 4 4 ≤ 268435456 ∧ fwBusy s = false ∧ r.readFail = false) :=
  ⟨⟨(ask win 0x90 []).onStart (fun x => { x with record := [0] }), 0, com 0x90 [], true, by decide⟩,
   ⟨calState, 0, com 0x91 [0, 0, 0, 0, 64], calBytes, by decide⟩,
   ⟨(ask win 0x91 []).onStart (fun x => { x with state := .maintenance }), 0, com 0x91 [], [], by decide⟩,
   ⟨ask win 0x91 [], 0, com 0x91 [], none, by decide⟩,
   ⟨calState.onMb (fun m => { m with calWrite := some (1, []) }), 0, com 0x91 [0, 0, 0, 0, 64], none, by decide⟩,
   ⟨calState, 0, com 0x91 [0, 0, 0, 0, 64], by decide⟩,
   ⟨ask win 0xA0 [], 0, com 0xA0 [], {}, by decide⟩⟩

theorem test_hypotheses_FirmwareAndCalibration_3 :
    (∃ (s : State) (mb : Nat) (c : MbCommand) (r : FwRead), Due s mb 0xA0 c ∧ 268435456 < cf c 4 4) ∧
    (∃ (s : State) (mb : Nat) (c : MbCommand) (r : FwRead), Due s mb 0xA0 c ∧ cf c 4 4 ≤ 268435456 ∧ fwBusy s = true) ∧
    (∃ (s : State) (mb : Nat) (c : MbCommand) (r : FwRead), Due s mb 0xA0 c ∧ cf c 4 4 ≤ 268435456 ∧ fwBusy s = false ∧ r.readFail = true) ∧
    (∃ (s : State) (mb : Nat) (c : MbCommand), Due s mb 0xA1 c ∧ cf c 0 1 = 1 ∧ (otherImage s).valid = true ∧ fwBusy s = false) ∧
    (∃ (s : State) (mb : Nat) (c : MbCommand), Due s mb 0xA1 c ∧ cf c 0 1 = 1 ∧ (otherImage s).valid = false) ∧
    (∃ (s : State) (mb : Nat) (c : MbCommand), Due s mb 0xA1 c ∧ cf c 0 1 = 1 ∧ (otherImage s).valid = true ∧ fwBusy s = true) ∧
    (∃ (s : State) (mb : Nat) (c : MbCommand), Due s mb 0xA1 c ∧ 2 ≤ cf c 0 1) :=
  ⟨⟨ask win 0xA0 [0, 0, 0, 0, 0, 0, 0, 32], 0, com 0xA0 [0, 0, 0, 0, 0, 0, 0, 32], {}, by decide⟩,
   ⟨(ask win 0xA0 []).onMb (fun m => { m with staging := some (1, {}) }), 0, com 0xA0 [], {}, by decide⟩,
   ⟨ask win 0xA0 [], 0, com 0xA0 [], { readFail := true }, by decide⟩,
   ⟨(ask win 0xA1 [1]).onMb (fun m => { m with imageA := { valid := true }, imageB := { valid := true } }), 0, com 0xA1 [1], by decide⟩,
   ⟨(ask win 0xA1 [1]).onMb (fun m => { m with imageA := {}, imageB := {} }), 0, com 0xA1 [1], by decide⟩,
   ⟨(ask win 0xA1 [1]).onMb (fun m => { m with imageA := { valid := true }, imageB := { valid := true }, act := .booting }), 0, com 0xA1 [1], by decide⟩,
   ⟨ask win 0xA1 [2], 0, com 0xA1 [2], by decide⟩⟩

theorem test_hypotheses_FirmwareAndCalibration_4 :
    (∃ (s : State) (mb : Nat) (c : MbCommand), Due s mb 0xA1 c ∧ cf c 0 1 = 0 ∧ s.faults.ctFailed = [] ∧ s.faults.ctStandby = true ∧ (otherImage s).valid = false) ∧
    (∃ (s : State) (mb : Nat) (c : MbCommand), Due s mb 0xA1 c ∧ cf c 0 1 = 0 ∧ s.faults.ctFailed = [] ∧ s.faults.ctStandby = true ∧ (otherImage s).valid = true ∧ fwBusy s = true) ∧
    (∃ (s : State) (mb : Nat) (c : MbCommand), Due s mb 0xA1 c ∧ cf c 0 1 = 0 ∧ s.faults.ctFailed = [] ∧ s.faults.ctStandby = true ∧ (otherImage s).valid = true ∧ fwBusy s = false) ∧
    (∃ (s : State) (mb : Nat) (c : MbCommand), Due s mb 0xA1 c ∧ cf c 0 1 = 0 ∧ (s.faults.ctStandby = false ∨ s.faults.ctFailed ≠ [])) ∧
    (∃ (s : State) (t : Nat), s.mb.act = .booting ∧ t ≤ s.mb.actSince + 30000000000) ∧
    (∃ (s : State) (t : Nat) (ok : Bool), s.mb.act = .booting ∧ (ok = false ∨ s.mb.actSince + 30000000000 < t) ∧ s.sceolUp = true) ∧
    (∃ (s : State), s.mb.act = .caughtUp ∧ s.faults.takeover = none ∧ s.faults.ctStandby = true ∧ edgeSince s s.mb.actSince = true) :=
  ⟨⟨((ask win 0xA1 []).onMb (fun m => { m with imageA := {}, imageB := {} })).onFaults (fun f => { f with ctStandby := true }), 0, com 0xA1 [], by decide⟩,
   ⟨((ask win 0xA1 []).onMb (fun m => { m with imageA := { valid := true }, imageB := { valid := true }, act := .booting })).onFaults (fun f => { f with ctStandby := true }), 0, com 0xA1 [], by decide⟩,
   ⟨((ask win 0xA1 []).onMb (fun m => { m with imageA := { valid := true }, imageB := { valid := true } })).onFaults (fun f => { f with ctStandby := true }), 0, com 0xA1 [], by decide⟩,
   ⟨(ask win 0xA1 []).onFaults (fun f => { f with ctStandby := false }), 0, com 0xA1 [], by decide⟩,
   ⟨win.onMb (fun m => { m with act := .booting }), 5, by decide⟩,
   ⟨win.onMb (fun m => { m with act := .booting }), 5, false, by decide⟩,
   ⟨(win.onMb (fun m => { m with act := .caughtUp })).onFaults (fun f => { f with ctStandby := true }), by decide⟩⟩

theorem test_hypotheses_FirmwareAndCalibration_5 :
    (∃ (s : State), s.mb.act = .probation ∧ 1000 ≤ s.mb.actTicks ∧ s.faults.takeover = none) ∧
    (∃ (s : State) (t : Nat), s.mb.act = .formerBooting ∧ s.faults.ctFailed.contains (1 - s.faults.ctActive) = false ∧ s.sceolUp = true) ∧
    (∃ (s : State) (mb : Nat) (c : MbCommand) (i : FwImage), settlesLong s = true ∧ s.sceolUp = true ∧ s.mb.staging = some (mb, i) ∧ i.valid = true ∧ s.cmdAt mb [0xA0] = some c) ∧
    (∃ (s : State) (mb : Nat) (c : MbCommand) (i : FwImage), settlesLong s = true ∧ s.sceolUp = true ∧ s.mb.staging = some (mb, i) ∧ i.valid = false ∧ s.cmdAt mb [0xA0] = some c) ∧
    (∃ (s : State) (mb : Nat) (c : MbCommand) (i : FwImage), settlesLong s = true ∧ s.sceolUp = true ∧ s.mb.staging = some (mb, i) ∧ s.cmdAt mb [0xA0] = some c) ∧
    (∃ (s : State) (mb : Nat) (c : MbCommand) (b : List Byte), settlesLong s = true ∧ s.sceolUp = true ∧ s.mb.calWrite = some (mb, b) ∧ s.cmdAt mb [0x91] = some c) :=
  ⟨⟨win.onMb (fun m => { m with act := .probation, actTicks := 1000 }), by decide⟩,
   ⟨win.onMb (fun m => { m with act := .formerBooting }), 5, by decide⟩,
   ⟨(ask win 0xA0 []).onMb (fun m => { m with staging := some (0, { valid := true }) }), 0, com 0xA0 [], { valid := true }, by decide⟩,
   ⟨(ask win 0xA0 []).onMb (fun m => { m with staging := some (0, {}) }), 0, com 0xA0 [], {}, by decide⟩,
   ⟨(ask win 0xA0 []).onMb (fun m => { m with staging := some (0, {}) }), 0, com 0xA0 [], {}, by decide⟩,
   ⟨(ask win 0x91 []).onMb (fun m => { m with calWrite := some (0, [1]) }), 0, com 0x91 [], [1], by decide⟩⟩

theorem test_hypotheses_RowsOfTheSampler :
    (∃ (s : State) (t slot : Nat) (row : PlanRow) (r : Request) (a : Attempt) (j : Job) (p : List (Nat × BitVec 16 × Nat) × Bool), s.row? slot = some row ∧ s.req? slot = some r ∧ s.attempt? slot = some a ∧ s.job? row.modelSlot = some j ∧ (j.finished = true ∧ j.faulted = false) ∧ (s.tick.running = true ∧ s.tick.inCommit = false) ∧ (row.kind = .decode ∨ (row.kind = .prefill ∧ chunkSamples r row.tokens = true)) ∧ a.done = false ∧ mergeRow (s.atTime t) r row = some p) ∧
    (∃ (s : State) (t slot : Nat) (row : PlanRow) (r : Request) (a : Attempt), s.row? slot = some row ∧ s.req? slot = some r ∧ s.attempt? slot = some a ∧ (mergeRow (s.atTime t) r row = none ∨ a.done = true)) ∧
    (∃ (s : State) (slot : Nat) (row : PlanRow) (r : Request) (j : Job), s.row? slot = some row ∧ s.req? slot = some r ∧ row.kind = .decode ∧ (s.tick.running = true ∧ s.tick.inCommit = false) ∧ s.job? row.modelSlot = some j ∧ (j.active = false ∧ j.next = 0) ∧ (r.spec.source = 1 ∨ r.spec.source = 3)) ∧
    (∃ (s : State) (slot : Nat) (r : Request), s.req? slot = some r ∧ (r.spec.source = 0 ∨ r.spec.source = 2)) :=
  ⟨⟨mergeState, 5, 0, mergeRowRec, decodingReq, { slot := 0 }, mergeJob, mergeOut, by decide, by decide, by decide, by decide, by decide, by decide, by decide, by decide, rfl⟩,
   ⟨mergeState.onStore (fun u => { u with records := [] }), 5, 0, mergeRowRec, decodingReq, { slot := 0 }, by decide⟩,
   ⟨treeState 1, 0, mergeRowRec, draftReq 1, { kernels := 3 }, by decide⟩,
   ⟨treeState 2, 0, draftReq 2, by decide⟩⟩

theorem test_hypotheses_KernelsRunInOrder :
    (∃ (s : State) (m k : Nat) (g : Grant) (ds : List DraftLogits) (j : Job), s.job? m = some j ∧ (s.tick.running = true ∧ s.tick.inCommit = false) ∧ (jobOpen j = true ∧ j.waits = 0 ∧ j.active = false ∧ j.next = k ∧ 0 < k) ∧ (s.plan.saved ≠ some m ∧ s.plan.emptyRunning = false) ∧ jobClear s m = true ∧ (kernelHeader s m k).nsem ≤ (semGrant s j (kernelHeader s m k).nsem).length) ∧
    (∃ (s : State) (m : Nat) (g : Grant) (ds : List DraftLogits) (j : Job), s.job? m = some j ∧ (s.tick.running = true ∧ s.tick.inCommit = false) ∧ (jobOpen j = true ∧ j.waits = 0 ∧ j.active = false ∧ j.next = 0) ∧ (s.plan.saved ≠ some m ∧ s.plan.emptyRunning = false) ∧ jobClear s m = true ∧ (kernelHeader s m 0).nsem ≤ (semGrant s j (kernelHeader s m 0).nsem).length) ∧
    (∃ (s : State) (m k : Nat) (g : Grant) (ds : List DraftLogits) (j : Job), s.job? m = some j ∧ (j.next ≠ k ∨ j.active = true ∨ jobOpen j = false ∨ j.waits ≠ 0 ∨ s.tick.inCommit = true)) ∧
    (∃ (s : State) (t m : Nat) (x : KernelMeasure) (j : Job), s.job? m = some j ∧ s.jobRuns m = true ∧ waitsFor s m = false ∧ holdsSem s m = false ∧ j.next + 1 < j.kernels) ∧
    (∃ (s : State) (t m : Nat) (x : KernelMeasure) (j : Job), s.job? m = some j ∧ s.jobRuns m = true ∧ waitsFor s m = false ∧ holdsSem s m = false ∧ j.kernels ≤ j.next + 1) ∧
    (∃ (s : State) (t m : Nat) (x : KernelMeasure) (j : Job), s.job? m = some j ∧ s.jobRuns m = true ∧ waitsFor s m = false ∧ holdsSem s m = true) ∧
    (∃ (s u : State) (m : Nat) (d : List (Nat × Nat × Nat)) (j : Job), s.job? m = some j ∧ (s.tick.running = true ∧ s.tick.inCommit = false) ∧ bit s.regs.planCtl.toNat 19 = true ∧ (jobOpen j = true ∧ j.active = false ∧ 0 < j.next ∧ j.urgent = false) ∧ s.plan.saved = none ∧ s.plan.jobs.any (fun u => u.urgent && jobOpen u && u.waits = 0) = true ∧ u = s.saveDirty d) ∧
    (∃ (s u : State) (m : Nat), s.plan.saved = some m ∧ (s.tick.running = true ∧ s.tick.inCommit = false) ∧ s.plan.jobs.all (fun j => !j.active && !(j.urgent && jobOpen j && j.waits = 0)) = true ∧ u = s.matrix.foldl restoreScratch s) :=
  ⟨⟨jobAt { next := 1, kernels := 3 }, 0, 1, {}, [], { next := 1, kernels := 3 }, by decide⟩,
   ⟨jobAt { kernels := 3 }, 0, {}, [], { kernels := 3 }, by decide⟩,
   ⟨jobAt { next := 2, kernels := 3 }, 0, 1, {}, [], { next := 2, kernels := 3 }, by decide⟩,
   ⟨jobAt { active := true, kernels := 3 }, 5, 0, {}, { active := true, kernels := 3 }, by decide⟩,
   ⟨jobAt { active := true, next := 2, kernels := 3 }, 5, 0, {}, { active := true, next := 2, kernels := 3 }, by decide⟩,
   ⟨(jobAt { active := true, kernels := 3 }).onStore (fun u => { u with sems := [(3, { job := 0, value := 1 })] }), 5, 0, {}, { active := true, kernels := 3 }, by decide⟩,
   ⟨preemptState, preemptState, 0, [], { next := 1, kernels := 3 }, by decide⟩,
   ⟨(jobAt { next := 1, kernels := 3 }).onPlan (fun p => { p with saved := some 0 }), (jobAt { next := 1, kernels := 3 }).onPlan (fun p => { p with saved := some 0 }), 0, by decide⟩⟩

theorem test_hypotheses_BankCommandsRun_1 :
    (∃ (s : State) (cl job : Nat) (w : BitVec 128), BankRuns s cl { op := 0, job := job, word := w }) ∧
    (∃ (s : State) (cl job : Nat) (w : BitVec 128) (d : QueryData) (q : QuerySet), BankRuns s cl { op := 1, job := job, word := w, payload := d.words, node := d.node, rebuild := d.rebuild, draft := d.draft } ∧ q = { querySetOf (payloadBytes d.words) with rebuild := d.rebuild, draft := d.draft }) ∧
    (∃ (s : State) (cl job : Nat) (w : BitVec 128) (p : List (BitVec 128)), BankRuns s cl { op := 2, job := job, word := w, payload := p }) ∧
    (∃ (s u : State) (cl job : Nat) (w : BitVec 128) (p : List (BitVec 128)), BankRuns s cl { op := 3, job := job, word := w, payload := p } ∧ u = s.modScope cl (buScope s.variant w) (fun u => { u with exptab := u16s 256 (payloadBytes p), exptabValid := true })) ∧
    (∃ (s : State) (cl job : Nat) (w : BitVec 128), BankRuns s cl { op := 4, job := job, word := w }) ∧
    (∃ (s : State) (cl job : Nat) (w : BitVec 128) (bad : List BadColumn), BankRuns s cl { op := 5, job := job, word := w, bad := bad }) ∧
    (∃ (s : State) (cl job : Nat) (w x : BitVec 128), BankRuns s cl { op := 6, job := job, word := w, ext := x }) :=
  ⟨⟨passState, 0, 0, (buW 0 0 0 0), by decide⟩,
   ⟨passState, 0, 0, (buW 1 1 0 0), {}, querySetOf (payloadBytes []), by decide⟩,
   ⟨passState, 0, 0, (buW 2 0 0 0), [], by decide⟩,
   ⟨passState, passState.modScope 0 [0] (fun u => { u with exptab := u16s 256 [], exptabValid := true }), 0, 0, (buW 3 0 0 0), [], by decide⟩,
   ⟨passState, 0, 0, (buW 4 1 0 0), by decide⟩,
   ⟨passState, 0, 0, (buW 5 1 0 1), [], by decide⟩,
   ⟨passState, 0, 0, (buW 6 0 0 0), 0, by decide⟩⟩

theorem test_hypotheses_BankCommandsRun_2 :
    (∃ (s : State) (cl job : Nat) (w x : BitVec 128) (bad : List BadColumn), BankRuns s cl { op := 7, job := job, word := w, ext := x, bad := bad }) ∧
    (∃ (s : State) (cl job : Nat) (w : BitVec 128), BankRuns s cl { op := 9, job := job, word := w }) ∧
    (∃ (s : State) (cl job : Nat) (w x : BitVec 128), BankRuns s cl { op := 11, job := job, word := w, ext := x }) ∧
    (∃ (s : State) (cl job : Nat) (w x : BitVec 128) (bad : List BadColumn), s.tick.inCommit = false ∧ BankRuns s cl { op := 8, job := job, word := w, ext := x, bad := bad }) ∧
    (∃ (s u : State) (cl job : Nat) (w x : BitVec 128) (bad : List BadColumn) (c : BuCmd), c = { op := 8, job := 17, word := w, ext := x, bad := bad } ∧ (s.tick.inCommit = true ∧ s.clusterUp cl = true ∧ gatherOwed s cl w x = true) ∧ (buFormOk (s.loadLanes cl w x) c = true ∧ buFits (s.loadLanes cl w x) cl c = true) ∧ (((s.loadLanes cl w x).bcl cl).queue.any (fun q => buShare s.variant q c) = false ∧ buStarts (s.loadLanes cl w x) cl w = true) ∧ u = (s.loadLanes cl w x).loadLanes cl w x ∧ (gatherOwed u cl w x = true ∧ buUnitsOk u cl c = true ∧ commitRowsOk u cl c = true) ∧ rchkFinds u cl c = none) ∧
    (∃ (s : State) (cl job : Nat) (w x : BitVec 128) (bad : List BadColumn), s.tick.inCommit = true ∧ (s.clusterUp cl = false ∨ gatherOwed s cl w x = false)) :=
  ⟨⟨passState, 0, 0, (buW 7 0 1 0), 0x00020000000000000000000000000000, [], by decide⟩,
   ⟨passState, 0, 0, (buW 9 0 1 0), by decide⟩,
   ⟨passState, 0, 0, (buW 11 0 0 0), 0, by decide⟩,
   ⟨gatherState, 0, 0, (buW 8 0 1 5), 0x00020000000000000000000000000000, [], by decide⟩,
   ⟨gatherWin, (gatherWin.loadLanes 0 gatherWord0.1 gatherWord0.2).loadLanes 0 gatherWord0.1 gatherWord0.2, 0, 0, gatherWord0.1, gatherWord0.2, [], { op := 8, job := 17, word := gatherWord0.1, ext := gatherWord0.2 }, by decide⟩,
   ⟨win, 0, 0, 0, 0, [], by decide⟩⟩

theorem test_hypotheses_BankCommandsAreChecked :
    (∃ (s : State) (cl job : Nat) (w x : BitVec 128) (bad : List BadColumn), s.tick.inCommit = false) ∧
    (∃ (s : State) (cl : Nat) (c : BuCmd), ((s.clusterUp cl = true ∧ s.mayQueue c.job = true) ∧ c.op ≠ 16 ∧ c.job ≠ 17) ∧ (buFormOk s c = false ∨ buFits s cl c = false)) ∧
    (∃ (s : State) (cl : Nat) (c : BuCmd), ((s.clusterUp cl = true ∧ s.mayQueue c.job = true) ∧ c.op ≠ 16 ∧ c.job ≠ 17) ∧ (buFormOk s c = true ∧ buFits s cl c = true) ∧ ((s.bcl cl).queue.any (fun q => buShare s.variant q c) = true ∨ buStarts s cl c.word = false)) ∧
    (∃ (s : State) (cl : Nat) (c : BuCmd), ((s.clusterUp cl = true ∧ s.mayQueue c.job = true) ∧ c.op ≠ 16 ∧ c.job ≠ 17) ∧ (buFormOk s c = true ∧ buFits s cl c = true) ∧ ((s.bcl cl).queue.any (fun q => buShare s.variant q c) = false ∧ buStarts s cl c.word = true) ∧ (buUnitsOk s cl c = false ∨ buGrantsOk s cl c = false)) ∧
    (∃ (s : State) (cl : Nat) (c : BuCmd) (p : Nat × Nat), ((s.clusterUp cl = true ∧ s.mayQueue c.job = true) ∧ c.op ≠ 16 ∧ c.job ≠ 17) ∧ (buFormOk s c = true ∧ buFits s cl c = true) ∧ ((s.bcl cl).queue.any (fun q => buShare s.variant q c) = false ∧ buStarts s cl c.word = true) ∧ (buUnitsOk s cl c = true ∧ buGrantsOk s cl c = true) ∧ rchkFinds s cl c = some p) ∧
    (∃ (s : State) (cl : Nat) (c : BuCmd) (g : Nat), rchkOn s cl = true ∧ (c.op = 5 ∨ c.op = 7 ∨ c.op = 8) ∧ rchkRead s cl c.word = some g) ∧
    (∃ (s : State) (cl : Nat) (c : BuCmd) (g : Nat), rchkOn s cl = true ∧ c.op = 9 ∧ rchkWrite s cl c.job c.word (buRow c.word) = some g) ∧
    (∃ (s : State) (cl : Nat) (c : BuCmd), s.mayQueue c.job = false) :=
  ⟨⟨ticking, 0, 0, 0, 0, [], by decide⟩,
   ⟨passState, 0, { op := 1 }, by decide⟩,
   ⟨owingState, 0, { op := 9, word := buW 9 0 1 0 }, by decide⟩,
   ⟨maintState, 0, { op := 5, word := buW 5 1 0 1 }, by decide⟩,
   ⟨rchkHold, 0, { op := 9, word := buW 9 0 1 0 }, (0, 1), by decide⟩,
   ⟨rchkState, 0, { op := 5, word := buW 5 1 0 1 }, 0, by decide⟩,
   ⟨rchkHold, 0, { op := 9, word := buW 9 0 1 0 }, 0, by decide⟩,
   ⟨ticking, 0, {}, by decide⟩⟩

theorem test_hypotheses_BankMemory_1 :
    (∃ (s : State) (cl job b : Nat) (w : BitVec 128), s.mem.wf = true ∧ BankRuns s cl { op := 9, job := job, word := w } ∧ buScope s.variant w = [b]) ∧
    (∃ (s : State) (cl : Nat) (c : BuCmd), c.op ≠ 16 ∧ ((buFormOk s c = false ∨ buFits s cl c = false) ∨ (s.bcl cl).queue.any (fun q => buShare s.variant q c) = true ∨ buStarts s cl c.word = false)) ∧
    (∃ (s : State) (cl job first count : Nat), s.clusterUp cl = true ∧ s.tick.inCommit = true) ∧
    (∃ (s : State) (cl job first count : Nat), s.clusterUp cl = true ∧ s.tick.inCommit = false ∧ (s.mayQueue job = true ∧ job ≠ 17) ∧ (s.bcl cl).queue.any (fun q => buShare s.variant q { op := 16, job := job, first := first, count := count }) = false ∧ granulesGranted s cl job first count = true) ∧
    (∃ (s : State) (cl n : Nat), s.clusterUp cl = true ∧ 3072 ≤ (s.bcl cl).append.length) :=
  ⟨⟨passState, 0, 0, 0, (buW 9 0 1 0), by decide⟩,
   ⟨passState, 0, { op := 1 }, by decide⟩,
   ⟨win, 0, 0, 0, 1, by decide⟩,
   ⟨passState, 0, 0, 0, 1, by decide⟩,
   ⟨fullBuffer, 0, 1, by decide⟩⟩

theorem test_hypotheses_BankMemory_2 :
    (∃ (s : State) (cl n : Nat), (s.bcl cl).append.length < 3072) ∧
    (∃ (s : State) (cl m : Nat) (w : BitVec 128) (bad : List BadColumn), s.clusterUp cl = true ∧ s.mayQueue m = true) ∧
    (∃ (s : State) (cl : Nat) (w : BitVec 128) (bad : List BadColumn), s.clusterUp cl = true ∧ buFormOk s { op := 10, word := w } = true ∧ buFits s cl { op := 10, word := w } = true ∧ buStarts s cl w = true ∧ buRow w + buCount w ≤ 32768 ∧ rchkOn s cl = false) ∧
    (∃ (s : State) (cl g : Nat) (w : BitVec 128) (bad : List BadColumn), s.clusterUp cl = true ∧ buFormOk s { op := 10, word := w } = true ∧ buFits s cl { op := 10, word := w } = true ∧ buStarts s cl w = true ∧ buRow w + buCount w ≤ 32768 ∧ rchkOn s cl = true ∧ rchkRead s cl w = some g) :=
  ⟨⟨ticking, 0, 1, by decide⟩,
   ⟨passState, 0, 0, 0, [], by decide⟩,
   ⟨passState, 0, (buW 10 0 1 0), [], by decide⟩,
   ⟨rchkState, 0, 0, (buW 10 0 1 0), [], by decide⟩⟩

theorem test_hypotheses_BankController :
    (∃ (s : State) (cl b : Nat), (s.clusterUp cl = true ∧ b < banksOf s.variant)) ∧
    (∃ (c : BankCluster) (now b : Nat) (u : BankUnit), u = tabGetD b {} c.units ∧ (c.refreshFrom ≤ now ∧ u.refreshed ≤ now)) ∧
    (∃ (s : State) (cl b : Nat), (s.clusterUp cl = false ∨ banksOf s.variant ≤ b)) ∧
    (∃ (s : State) (cl temp : Nat), s.clusterUp cl = true) ∧
    (∃ (s : State) (cl b : Nat) (bad : List BadColumn), (s.clusterUp cl = true ∧ b < banksOf s.variant) ∧ bit (nth s.regs.buScrub cl 0).toNat 12 = true ∧ buStarts s cl (patrolWord s.variant b (s.bu cl b).patrolRow) = true) ∧
    (∃ (s : State) (cl b : Nat) (bad : List BadColumn), (bit (nth s.regs.buScrub cl 0).toNat 12 = false ∨ buStarts s cl (patrolWord s.variant b (s.bu cl b).patrolRow) = false)) ∧
    (∃ (s : State) (cl job layer : Nat) (bad : List BadColumn), (s.clusterUp cl = true ∧ layer < max (s.mslot job).info.layers (s.mslot job).info.draftModel.layers) ∧ s.jobRuns job = true ∧ (s.bcl cl).drains.any (fun r => r.job = job) = true ∧ (s.bcl cl).queue.any (fun q => q.job = job) = false) :=
  ⟨⟨owingState, 0, 1023, by decide⟩,
   ⟨{}, 7812, 3, {}, by decide⟩,
   ⟨ticking, 0, 1024, by decide⟩,
   ⟨ticking, 0, 85, by decide⟩,
   ⟨ticking, 0, 0, [], by decide⟩,
   ⟨owingState, 0, 0, [], by decide⟩,
   ⟨combineState, 0, 0, 0, [], by decide⟩⟩

theorem test_hypotheses_MatrixCommandsRun_1 :
    (∃ (s : State) (cl job : Nat) (w : BitVec 128), MxRuns s cl job 0 w 0 0 0) ∧
    (∃ (s : State) (cl job : Nat) (w : BitVec 128) (f : Staged), MxStarts s cl { job := job, op := 1, word := w } ∧ (s.mcl cl).staging.find? (fun f => f.model = job && f.kernel = s.kernelOf job && f.ordinal = mxGranule w && f.arrived) = some f) ∧
    (∃ (s : State) (cl job : Nat) (w : BitVec 128), mxTakes s cl job = true ∧ mxWordBad s cl 1 w = none ∧ (s.mcl cl).staging.find? (fun f => f.model = job && f.kernel = s.kernelOf job && f.ordinal = mxGranule w && f.arrived) = none) ∧
    (∃ (s : State) (cl job : Nat) (w : BitVec 128), MxStarts s cl { job := job, op := 2, word := w }) ∧
    (∃ (s : State) (cl job : Nat) (w : BitVec 128) (rows : List Nat) (i : Ingot), MxStarts s cl { job := job, op := 3, word := w, rows := rows } ∧ mxNew w = false ∧ (s.mu cl (mxMu w)).front = some i ∧ i.poisoned = false) ∧
    (∃ (s : State) (cl job : Nat) (w : BitVec 128) (rows : List Nat) (i : Ingot), MxStarts s cl { job := job, op := 3, word := w, rows := rows } ∧ mxNew w = false ∧ (s.mu cl (mxMu w)).front = some i ∧ i.poisoned = true) ∧
    (∃ (s : State) (cl job : Nat) (w : BitVec 128) (rows : List Nat) (i : Ingot), MxStarts s cl { job := job, op := 3, word := w, rows := rows } ∧ mxNew w = true ∧ (s.mu cl (mxMu w)).back = some i ∧ i.poisoned = false) :=
  ⟨⟨passState, 0, 0, 0, by decide⟩,
   ⟨stagedState, 0, 0, (mxW 1 0 0), stagedFetch, by decide⟩,
   ⟨passState, 0, 0, (mxW 1 0 0), by decide⟩,
   ⟨passState, 0, 0, (mxW 2 0 0), by decide⟩,
   ⟨mpassState, 0, 0, (mxW 3 0 0), [], { fmt := 3 }, by decide⟩,
   ⟨mpassState.modMcl 0 (fun c => { c with units := [(0, { front := some { fmt := 3, poisoned := true } })] }), 0, 0, (mxW 3 0 0), [], { fmt := 3, poisoned := true }, by decide⟩,
   ⟨mpassBack.modMcl 0 (fun c => { c with units := [(0, { back := some { fmt := 3 } })] }), 0, 0, (mxW 3 1 0), [], { fmt := 3 }, by decide⟩⟩

theorem test_hypotheses_MatrixCommandsRun_2 :
    (∃ (s : State) (cl job : Nat) (w : BitVec 128) (rows : List Nat) (i : Ingot), MxStarts s cl { job := job, op := 3, word := w, rows := rows } ∧ mxNew w = true ∧ (s.mu cl (mxMu w)).back = some i ∧ i.poisoned = true) ∧
    (∃ (s : State) (cl job : Nat) (w : BitVec 128), MxStarts s cl { job := job, op := 4, word := w }) ∧
    (∃ (s : State) (cl job : Nat) (w : BitVec 128), MxStarts s cl { job := job, op := 5, word := w }) ∧
    (∃ (s : State) (cl logical job tensor layer : Nat) (w : BitVec 128) (zx : BitVec 8) (rows : List ApassRow) (l : List Segment), MxRuns s cl job 6 w (apassFmt rows) (projShape s job logical tensor).1 (projShape s job logical tensor).2 ∧ segList s cl job (mxSp2 w) = some l ∧ nth s.faults.clmap logical 16 = cl) ∧
    (∃ (s : State) (cl job : Nat) (w : BitVec 128), MxRuns s cl job 7 w 0 0 0) ∧
    (∃ (s : State) (cl job : Nat) (w : BitVec 128), MxRuns s cl job 8 w 0 0 0) :=
  ⟨⟨mpassBack, 0, 0, (mxW 3 1 0), [], { fmt := 3, poisoned := true }, by decide⟩,
   ⟨mpassState, 0, 0, (mxW 4 0 0), by decide⟩,
   ⟨mpassState, 0, 0, (mxW 5 0 0), by decide⟩,
   ⟨apassState, 0, 0, 0, 0, 0, (mxW 6 0 0), 0, [], [{ first := 0, rows := 1, id := 1, gen := 1, tile := 0 }], by decide⟩,
   ⟨passState, 0, 0, (mxW 7 0 1), by decide⟩,
   ⟨passState, 0, 0, (mxW 8 0 1), by decide⟩⟩

theorem test_hypotheses_MatrixCommandsAreChecked_1 :
    (∃ (s : State) (cl : Nat) (q : MxCmd) (c : Nat × Nat), mxTakes s cl q.job = true ∧ mxWordBad s cl q.op q.word = some c) ∧
    (∃ (s : State) (cl : Nat) (q : MxCmd) (c : Nat × Nat), mxTakes s cl q.job = true ∧ (mxWordBad s cl q.op q.word = none ∧ q.op ≠ 1) ∧ mxBehind (s.mcl cl).queue q = false ∧ mxReject s cl q.job q.op q.word 0 0 0 = some c) ∧
    (∃ (s : State) (cl : Nat) (q : MxCmd), mxTakes s cl q.job = true ∧ (mxWordBad s cl q.op q.word = none ∧ q.op ≠ 1) ∧ mxBehind (s.mcl cl).queue q = true) ∧
    (∃ (s : State) (cl job op fmt inW outW : Nat) (w : BitVec 128) (f : State → State) (c : Nat × Nat), mxTakes s cl job = true ∧ (mxWordBad s cl op w = some c ∨ (mxWordBad s cl op w = none ∧ mxReject s cl job op w fmt inW outW = some c))) ∧
    (∃ (s : State) (cl job op fmt inW outW : Nat) (w : BitVec 128) (f : State → State), s.mayQueue job = false) :=
  ⟨⟨passState, 0, { op := 1 }, (1, 0), by decide⟩,
   ⟨passState, 0, { op := 4, word := mxW 4 0 0 }, (8, 0), by decide⟩,
   ⟨passState.modMcl 0 (fun c => { c with queue := [{ op := 1 }] }), 0, { op := 4, word := mxW 4 0 0 }, by decide⟩,
   ⟨passState, 0, 0, 0, 0, 0, 0, 1, id, (1, 0), by decide⟩,
   ⟨ticking, 0, 0, 0, 0, 0, 0, 0, id, by decide⟩⟩

theorem test_hypotheses_MatrixCommandsAreChecked_2 :
    (∃ (s : State) (cl job op cause a : Nat), bit (s.mcl cl).faultInfo.toNat 31 = true) ∧
    (∃ (s : State) (cl job op cause a : Nat), bit (s.mcl cl).faultInfo.toNat 31 = false) ∧
    (∃ (s : State) (cl g m : Nat), (cl < 16 ∧ s.mayQueue m = true)) ∧
    (∃ (s : State) (cl g : Nat) (x : AccGroup), (cl < 16 ∧ g < 96 ∧ s.grp cl g = x ∧ x.state = .opened)) ∧
    (∃ (s : State) (cl g : Nat) (x : AccGroup), (cl < 16 ∧ g < 96 ∧ (s.grp cl g).state = .free) ∧ tabGet g (s.mcl cl).save = some x) :=
  ⟨⟨passState.modMcl 0 (fun c => { c with faultInfo := 0x80000000 }), 0, 0, 0, 1, 0, by decide⟩,
   ⟨passState, 0, 0, 0, 1, 0, by decide⟩,
   ⟨passState, 0, 0, 0, by decide⟩,
   ⟨mpassState, 0, 0, { state := .opened }, by decide⟩,
   ⟨passState.modMcl 0 (fun c => { c with save := [(0, { owner := 3 })] }), 0, 0, { owner := 3 }, by decide⟩⟩

theorem test_hypotheses_IngotLoader :
    (∃ (s t : State) (cl job k : Nat), s.clusterUp cl = true ∧ ((s.jobRuns job = true ∧ s.kernelOf job ≤ k ∧ fetchedTo s cl job k = true) ∨ mayPrefetch s cl job k = true) ∧ issueFetch s cl job k = some t) ∧
    (∃ (s : State) (cl job k : Nat), issueFetch s cl job k = none) ∧
    (∃ (s u : State) (cl job k o : Nat) (f : Staged) (i : Ingot) (bad : Bool), (s.mcl cl).staging.find? (fun f => f.model = job && f.kernel = k && f.ordinal = o && !f.arrived) = some f ∧ headerBad s cl f.granule (nth (dirOf s cl f.model f.kernel) o {}) (kernelLayer s f.model f.kernel) = false ∧ i = { readIngot s cl f.granule with poisoned := false, fmt := f.ingot.fmt } ∧ bad = false ∧ (u = s.modMcl cl (fun c => { c with staging := c.staging.map (fun x => if x = f then { f with arrived := true, ingot := i } else x) })) ∧ s.tick.inCommit = false) ∧
    (∃ (s u : State) (cl job k o : Nat) (f : Staged) (i : Ingot) (b : Bool), (s.mcl cl).staging.find? (fun f => f.model = job && f.kernel = k && f.ordinal = o && !f.arrived) = some f ∧ (b = true ∨ headerBad s cl f.granule (nth (dirOf s cl f.model f.kernel) o {}) (kernelLayer s f.model f.kernel) = true) ∧ i = { readIngot s cl f.granule with poisoned := true, fmt := f.ingot.fmt } ∧ (u = (s.modMcl cl (fun c => { c with staging := c.staging.map (fun x => if x = f then { f with arrived := true, ingot := i } else x) })).notePoison f.model cl f.granule) ∧ s.tick.inCommit = false) ∧
    (∃ (s u : State) (cl job k o : Nat) (f : Staged) (i : Ingot), (s.mcl cl).staging.find? (fun f => f.model = job && f.kernel = k && f.ordinal = o && !f.arrived) = some f ∧ headerBad s cl f.granule (nth (dirOf s cl f.model f.kernel) o {}) (kernelLayer s f.model f.kernel) = false ∧ i = { readIngot s cl f.granule with poisoned := false, fmt := f.ingot.fmt } ∧ (u = s.modMcl cl (fun c => { c with staging := c.staging.map (fun x => if x = f then { f with arrived := true, ingot := i } else x) })) ∧ s.tick.inCommit = true) ∧
    (∃ (s u : State) (cl job k o : Nat) (f : Staged) (i : Ingot) (b : Bool), (s.mcl cl).staging.find? (fun f => f.model = job && f.kernel = k && f.ordinal = o && !f.arrived) = some f ∧ (b = true ∨ headerBad s cl f.granule (nth (dirOf s cl f.model f.kernel) o {}) (kernelLayer s f.model f.kernel) = true) ∧ i = { readIngot s cl f.granule with poisoned := true, fmt := f.ingot.fmt } ∧ (u = (s.modMcl cl (fun c => { c with staging := c.staging.map (fun x => if x = f then { f with arrived := true, ingot := i } else x) })).notePoison f.model cl f.granule) ∧ s.tick.inCommit = true) ∧
    (∃ (s : State) (cl job k o : Nat) (u : Bool), (s.mcl cl).staging.find? (fun f => f.model = job && f.kernel = k && f.ordinal = o && !f.arrived) = none) :=
  ⟨⟨fetchState, fetchNext, 0, 0, 0, by decide⟩,
   ⟨passState, 0, 0, 0, by decide⟩,
   ⟨fetchGood, fetchGood.modMcl 0 (fun c => { c with staging := [{ goodFetch with arrived := true, ingot := { readIngot fetchGood 0 0 with poisoned := false, fmt := 3 } }] }), 0, 0, 0, 0, goodFetch, { readIngot fetchGood 0 0 with poisoned := false, fmt := 3 }, false, by decide, by decide, rfl, rfl, rfl, by decide⟩,
   ⟨fetchGood, (fetchGood.modMcl 0 (fun c => { c with staging := [{ goodFetch with arrived := true, ingot := { readIngot fetchGood 0 0 with poisoned := true, fmt := 3 } }] })).notePoison 0 0 0, 0, 0, 0, 0, goodFetch, { readIngot fetchGood 0 0 with poisoned := true, fmt := 3 }, true, by decide, Or.inl rfl, rfl, rfl, by decide⟩,
   ⟨fetchWin, fetchWin.modMcl 0 (fun c => { c with staging := [{ goodFetch with arrived := true, ingot := { readIngot fetchWin 0 0 with poisoned := false, fmt := 3 } }] }), 0, 0, 0, 0, goodFetch, { readIngot fetchWin 0 0 with poisoned := false, fmt := 3 }, by decide, by decide, rfl, rfl, by decide⟩,
   ⟨fetchWin, (fetchWin.modMcl 0 (fun c => { c with staging := [{ goodFetch with arrived := true, ingot := { readIngot fetchGood 0 0 with poisoned := true, fmt := 3 } }] })).notePoison 0 0 0, 0, 0, 0, 0, goodFetch, { readIngot fetchGood 0 0 with poisoned := true, fmt := 3 }, true, by decide, Or.inl rfl, rfl, rfl, by decide⟩,
   ⟨passState, 0, 0, 0, 0, false, by decide⟩⟩

theorem test_hypotheses_VectorAndReduction_1 :
    (∃ (s : State) (job e : Nat) (rd wr : List (Place × Nat)) (f : State → State), s.jobRuns job = true ∧ (rd.any (readBreaks s job e) = false ∧ wr.any (writeBreaks e) = false) ∧ (rd ++ wr).all (placeOk s job e) = true) ∧
    (∃ (s : State) (r : ChainRun), engineOk s r.engine = true ∧ chainOk r.config = true ∧ s.jobRuns r.job = true ∧ ((chainReads r).any (readBreaks s r.job r.engine) = false ∧ (chainWrites s r).any (writeBreaks r.engine) = false) ∧ (chainReads r ++ chainWrites s r).all (placeOk s r.job r.engine) = true) ∧
    (∃ (s : State) (r : ChainRun), engineOk s r.engine = true ∧ chainOk r.config = false ∧ s.jobRuns r.job = true) ∧
    (∃ (s : State) (x : TileConv), (s.clusterUp x.cluster = true ∧ s.jobRuns x.job = true) ∧ tileOk x = true) ∧
    (∃ (s : State) (x : TileConv), (s.clusterUp x.cluster = true ∧ s.jobRuns x.job = true) ∧ tileOk x = false) ∧
    (∃ (s : State) (r : EntryConv) (q : QueryConv), (r.cluster < 16 ∧ s.clusterUp (nth s.faults.clmap r.cluster 0) = true) ∧ (q.cluster < 16 ∧ s.clusterUp (nth s.faults.clmap q.cluster 0) = true)) ∧
    (∃ (s : State) (r : LogitRun) (row : PlanRow), s.row? r.slot = some row ∧ (s.jobRuns row.modelSlot = true ∧ r.cluster < 16)) :=
  ⟨⟨jobAt { active := true, kernels := 3 }, 0, 0, [], [], id, by decide⟩,
   ⟨chainState, { config := okChain, engine := 16 }, by decide⟩,
   ⟨jobAt { active := true, kernels := 3 }, {}, by decide⟩,
   ⟨jobAt { active := true, kernels := 3 }, {}, by decide⟩,
   ⟨jobAt { active := true, kernels := 3 }, { row := 128 }, by decide⟩,
   ⟨jobAt { active := true, kernels := 3 }, {}, {}, by decide⟩,
   ⟨withRow (jobAt { active := true, kernels := 3 }) decodingReq, {}, mergeRowRec, by decide⟩⟩

theorem test_hypotheses_VectorAndReduction_2 :
    (∃ (s : State) (job e : Nat) (rd wr : List (Place × Nat)) (f : State → State), s.jobRuns job = true ∧ (rd.any (readBreaks s job e) = true ∨ wr.any (writeBreaks e) = true)) ∧
    (∃ (s : State) (job e : Nat) (rd wr : List (Place × Nat)) (f : State → State), s.jobRuns job = true ∧ (rd.any (readBreaks s job e) = false ∧ wr.any (writeBreaks e) = false) ∧ (rd ++ wr).all (placeOk s job e) = false) ∧
    (∃ (s : State) (e job n : Nat) (b : List Byte), engineOk s e = true ∧ s.jobRuns job = true ∧ n < 4) ∧
    (∃ (s : State) (e job n : Nat) (b : List Byte), (s.jobRuns job = false ∨ 4 ≤ n)) ∧
    (∃ (s : State) (job sem : Nat) (src adr : List Nat) (a : List (Nat × Nat)) (residual k : Nat) (q : Semaphore), a = src.zip adr ∧ tabGet sem s.store.sems = some q ∧ s.jobRuns job = true ∧ (q.job = job ∧ q.waiters = []) ∧ a.length ≤ q.value ∧ (a.all (partHeld s job k) = true ∧ holdsIn s (jobHolding job) residual (4 * k) = true)) ∧
    (∃ (s : State) (job sem : Nat) (src adr : List Nat) (a : List (Nat × Nat)) (residual k : Nat) (q : Semaphore), a = src.zip adr ∧ tabGet sem s.store.sems = some q ∧ s.jobRuns job = true ∧ (q.job = job ∧ q.waiters = []) ∧ a.length ≤ q.value ∧ (a.all (partHeld s job k) = false ∨ holdsIn s (jobHolding job) residual (4 * k) = false)) ∧
    (∃ (s : State) (job sem : Nat) (src adr : List Nat) (a : List (Nat × Nat)) (residual k : Nat) (q : Semaphore), a = src.zip adr ∧ tabGet sem s.store.sems = some q ∧ (q.value < a.length ∨ q.waiters ≠ [])) :=
  ⟨⟨jobAt { active := true, kernels := 3 }, 0, 0, [], [(.tile 0x8000 0, 4)], id, by decide⟩,
   ⟨jobAt { active := true, kernels := 3 }, 0, 0, [(.store 0, 4)], [], id, by decide⟩,
   ⟨jobAt { active := true, kernels := 3 }, 0, 0, 3, [], by decide⟩,
   ⟨ticking, 0, 0, 4, [], by decide⟩,
   ⟨reduceState, 0, 7, [1, 0], [4, 0], [(1, 4), (0, 0)], 8, 1, { value := 2 }, by decide⟩,
   ⟨semState { value := 2 }, 0, 7, [1, 0], [4, 0], [(1, 4), (0, 0)], 8, 1, { value := 2 }, by decide⟩,
   ⟨semState { value := 1 }, 0, 7, [0, 1], [0, 4], [(0, 0), (1, 4)], 8, 1, { value := 1 }, by decide⟩⟩

theorem test_hypotheses_StoreReservations :
    (∃ (s : State) (c : StoreClass) (h n : Nat), isTick c = false ∧ classCeiling s c < n) ∧
    (∃ (s : State) (c : StoreClass) (h n : Nat), isTick c = false ∧ n ≤ classCeiling s c ∧ mayGrant s c n = true) ∧
    (∃ (s : State) (c : StoreClass) (h n : Nat), isTick c = false ∧ n ≤ classCeiling s c ∧ mayGrant s c n = false) ∧
    (∃ (s : State) (c : StoreClass) (h n : Nat), isTick c = true) ∧
    (∃ (s : State) (c : StoreClass) (w : Waiter), s.store.queue.find? (fun x => x.cls = c) = some w ∧ mayGrant s c w.blocks = true) ∧
    (∃ (s : State) (c : StoreClass), (∀ w, s.store.queue.find? (fun x => x.cls = c) = some w → mayGrant s c w.blocks = false)) ∧
    (∃ (s : State) (c : StoreClass) (h : Nat), c ≠ .journal) :=
  ⟨⟨ticking, .ship, 0, 100000, by decide⟩,
   ⟨ticking, .ship, 0, 1, by decide⟩,
   ⟨fullShip, .ship, 0, 1, by decide⟩,
   ⟨ticking, .act, 0, 1, by decide⟩,
   ⟨ticking.onStore (fun u => { u with queue := [{ cls := .ship, blocks := 1 }] }), .ship, { cls := .ship, blocks := 1 }, by decide⟩,
   ⟨ticking, .ship, by intro w h; cases h⟩,
   ⟨fullShip, .ship, 0, by decide⟩⟩

theorem test_hypotheses_StoreStripes_1 :
    (∃ (s : State) (c : StoreClass) (a h : Nat), rowLost s (stripeRow s a) = false) ∧
    (∃ (s u : State) (c : StoreClass) (a h : Nat), rowLost s (stripeRow s a) = true ∧ u = (s.answerWith (List.replicate 64 0)).readStore a 64 ∧ (c = .act ∨ c = .logit)) ∧
    (∃ (s u : State) (a h : Nat), rowLost s (stripeRow s a) = true ∧ u = (s.answerWith (List.replicate 64 0)).readStore a 64) ∧
    (∃ (s : State) (bad : List (Nat × Nat)), bit s.regs.storeCtl.toNat 16 = true) ∧
    (∃ (s : State) (bad : List (Nat × Nat)), bit s.regs.storeCtl.toNat 16 = false) :=
  ⟨⟨ticking, .act, 0, 0, by decide⟩,
   ⟨badRow, badRowRead, .act, 0, 0, by decide, rfl, by decide⟩,
   ⟨badRow, badRowRead, 0, 0, by decide, rfl⟩,
   ⟨patrolOn, [(0, 1)], by decide⟩,
   ⟨patrolOff, [(0, 1)], by decide⟩⟩

theorem test_hypotheses_StoreStripes_2 :
    (∃ (s : State), (s.store.reconfPending = true ∧ s.store.sevenTwo = false ∧ s.store.restriped = false) ∧ s.plan.emptyRunning = true ∧ (s.tick.running = true ∧ s.tick.inCommit = false)) ∧
    (∃ (s : State), (s.plan.emptyRunning = false ∨ s.tick.inCommit = true ∨ s.store.restriped = true)) ∧
    (∃ (s : State) (t die : Nat), (die < 10 ∧ s.store.failed = [] ∧ s.store.sevenTwo = false) ∧ s.start.state ≠ .off ∧ s.faults.orphan = false) ∧
    (∃ (s : State) (t die : Nat), (10 ≤ die ∨ die ∈ s.store.failed)) :=
  ⟨⟨(ticking.onStore (fun u => { u with reconfPending := true })).onPlan (fun p => { p with emptyRunning := true }), by decide⟩,
   ⟨win, by decide⟩,
   ⟨ticking, 5, 3, by decide⟩,
   ⟨ticking, 5, 10, by decide⟩⟩

theorem test_hypotheses_Semaphores :
    (∃ (s : State) (job n v : Nat) (q : Semaphore), tabGet n s.store.sems = some q ∧ (s.jobRuns job = true ∧ q.job = job) ∧ semServed s n = true ∧ q.value + v ≤ 65535) ∧
    (∃ (s : State) (job n v : Nat) (q : Semaphore), tabGet n s.store.sems = some q ∧ (s.jobRuns job = true ∧ q.job = job) ∧ semServed s n = true ∧ 65535 < q.value + v) ∧
    (∃ (s : State) (job n v w : Nat) (q : Semaphore), tabGet n s.store.sems = some q ∧ (s.jobRuns job = true ∧ q.job = job) ∧ semServed s n = true ∧ (q.waiters = [] ∧ v ≤ q.value)) ∧
    (∃ (s : State) (job n v w : Nat) (q : Semaphore), tabGet n s.store.sems = some q ∧ (s.jobRuns job = true ∧ q.job = job) ∧ semServed s n = true ∧ (q.waiters ≠ [] ∨ q.value < v)) ∧
    (∃ (s : State) (job n v w : Nat) (q : Semaphore), tabGet n s.store.sems = some q ∧ q.job ≠ job) ∧
    (∃ (s : State) (n : Nat) (q : Semaphore) (w : Nat × Nat) (r : List (Nat × Nat)), tabGet n s.store.sems = some q ∧ q.waiters = w :: r ∧ w.2 ≤ q.value ∧ semServed s n = true) ∧
    (∃ (s : State) (n : Nat) (q : Semaphore) (w : Nat × Nat) (r : List (Nat × Nat)), tabGet n s.store.sems = some q ∧ q.waiters = w :: r ∧ q.value < w.2) ∧
    (∃ (s : State) (n : Nat) (q : Semaphore), n < 4096 ∧ semServed s n = true ∧ tabGet n s.store.sems = some q) :=
  ⟨⟨semState { value := 65534 }, 0, 7, 1, { value := 65534 }, by decide⟩,
   ⟨semState { value := 65534 }, 0, 7, 2, { value := 65534 }, by decide⟩,
   ⟨semState { value := 2 }, 0, 7, 2, 1, { value := 2 }, by decide⟩,
   ⟨semState { value := 2 }, 0, 7, 3, 1, { value := 2 }, by decide⟩,
   ⟨semState { value := 2 }, 1, 7, 1, 1, { value := 2 }, by decide⟩,
   ⟨semState { value := 2, waiters := [(1, 2)] }, 7, { value := 2, waiters := [(1, 2)] }, (1, 2), [], by decide⟩,
   ⟨semState { value := 1, waiters := [(1, 2)] }, 7, { value := 1, waiters := [(1, 2)] }, (1, 2), [], by decide⟩,
   ⟨semState { value := 2 }, 7, { value := 2 }, by decide⟩⟩

theorem test_hypotheses_GroupTick_1 :
    (∃ (s : State) (t : Nat) (m : SyncMsg), (s.tick.inGroup = false ∨ 16 ≤ m.member ∨ s.start.warmRunning = true ∨ (m.group = s.tick.group ∧ m.member = memberNo s))) ∧
    (∃ (s : State) (t : Nat) (m : SyncMsg), (s.tick.inGroup = true ∧ m.group ≠ s.tick.group ∧ m.member < 16 ∧ s.start.warmRunning = false)) ∧
    (∃ (s : State) (t : Nat) (m : SyncMsg), (s.tick.inGroup = true ∧ m.group = s.tick.group ∧ m.member ≠ memberNo s ∧ m.member < 16 ∧ s.start.warmRunning = false) ∧ s.tick.gridSynced = true ∧ (m.member ≠ s.tick.master ∨ s.tick.isMaster = true)) ∧
    (∃ (s : State) (t : Nat) (m : SyncMsg), (s.tick.inGroup = true ∧ m.group = s.tick.group ∧ m.member ≠ memberNo s ∧ m.member < 16 ∧ s.start.warmRunning = false) ∧ s.tick.gridSynced = true ∧ (m.member = s.tick.master ∧ s.tick.isMaster = false)) ∧
    (∃ (s : State) (t : Nat) (m : SyncMsg), (s.tick.inGroup = true ∧ m.group = s.tick.group ∧ m.member ≠ memberNo s ∧ m.member < 16 ∧ s.start.warmRunning = false) ∧ s.tick.gridSynced = false ∧ s.tick.inCommit = false) ∧
    (∃ (s : State) (t : Nat) (m : SyncMsg), (s.tick.inGroup = true ∧ m.group = s.tick.group ∧ m.member ≠ memberNo s ∧ m.member < 16 ∧ s.start.warmRunning = false) ∧ s.tick.gridSynced = false ∧ s.tick.inCommit = true) ∧
    (∃ (s : State) (t : Nat), (s.tick.inGroup = true ∧ s.tick.aligned = false) ∧ 16 ≤ s.tick.alignedRun) :=
  ⟨⟨ticking, 5, {}, by decide⟩,
   ⟨grouped, 5, { group := 2, member := 2 }, by decide⟩,
   ⟨grouped, 5, { group := 3, member := 2 }, by decide⟩,
   ⟨grouped.onTick (fun k => { k with master := 2, isMaster := false }), 5, { group := 3, member := 2 }, by decide⟩,
   ⟨grouped.onTick (fun k => { k with gridSynced := false }), 5, { group := 3, member := 2 }, by decide⟩,
   ⟨voting.onTick (fun k => { k with gridSynced := false }), 5, { group := 3, member := 2 }, by decide⟩,
   ⟨grouped.onTick (fun k => { k with aligned := false, alignedRun := 16 }), 5, by decide⟩⟩

theorem test_hypotheses_GroupTick_2 :
    (∃ (s : State) (t : Nat), s.tick.alignedRun < 16) ∧
    (∃ (s : State) (f : List (Nat × List (Nat × Nat × Nat × Nat))) (m : Nat), (s.tick.inGroup = true ∧ 2 ≤ s.tick.masterMisses) ∧ lowestOf ((healthyMembers s).filter (fun m => m ≠ s.tick.master)) = some m ∧ m ≠ memberNo s) ∧
    (∃ (s u : State) (f : List (Nat × List (Nat × Nat × Nat × Nat))) (m : Nat), (s.tick.inGroup = true ∧ 2 ≤ s.tick.masterMisses) ∧ lowestOf ((healthyMembers s).filter (fun m => m ≠ s.tick.master)) = some m ∧ m = memberNo s ∧ u = (((openTicks (s.setMaster m)).foldl (fun t k => t.broadcast 4 (leBytes 8 k)) (s.setMaster m)).onTick (fun k => { k with settling := openTicks (s.setMaster m) }))) ∧
    (∃ (s : State) (f : List (Nat × List (Nat × Nat × Nat × Nat))), (s.tick.inGroup = false ∨ s.tick.masterMisses < 2)) ∧
    (∃ (s u : State) (t port : Nat) (b : List Byte) (c : List (Nat × Nat × Nat × Nat)) (n : List (Nat × Nat × List Nat)), (s.tick.inGroup = true ∧ s.tick.isMaster = true ∧ s.tick.running = true) ∧ Tc0Lands s port b ∧ (s.tick.inCommit = true ∧ u = c.foldl State.takeCost (tc0Taken t b s)) ∧ (voteOk b = true ∧ field b 0 8 = s.tick.index) ∧ s.tick.votingOpen = true ∧ t < s.tick.commitOpenAt + s.tick.commitUs * 500) ∧
    (∃ (s : State) (t port : Nat) (b : List Byte) (c : List (Nat × Nat × Nat × Nat)) (n : List (Nat × Nat × List Nat)), (s.tick.inGroup = true ∧ s.tick.isMaster = true ∧ s.tick.running = true) ∧ Tc0Lands s port b ∧ s.tick.inCommit = false ∧ (voteOk b = true ∧ field b 0 8 = s.tick.index) ∧ t < s.tick.commitOpenAt + s.tick.commitUs * 500) ∧
    (∃ (s u : State) (t port : Nat) (b : List Byte) (c : List (Nat × Nat × Nat × Nat)) (n : List (Nat × Nat × List Nat)), (s.tick.inGroup = true ∧ s.tick.isMaster = true ∧ s.tick.running = true) ∧ Tc0Lands s port b ∧ (s.tick.inCommit = true ∧ u = c.foldl State.takeCost (tc0Taken t b s)) ∧ (voteOk b = true ∧ field b 0 8 = s.tick.index) ∧ (s.tick.votingOpen = false ∨ s.tick.commitOpenAt + s.tick.commitUs * 500 ≤ t)) :=
  ⟨⟨grouped, 5, by decide⟩,
   ⟨masterLost, [], 2, by decide⟩,
   ⟨masterSelf, ((openTicks (masterSelf.setMaster 0)).foldl (fun t k => t.broadcast 4 (leBytes 8 k)) (masterSelf.setMaster 0)).onTick (fun k => { k with settling := openTicks (masterSelf.setMaster 0) }), [], 0, by decide, by decide, by decide, rfl⟩,
   ⟨grouped, [], by decide⟩,
   ⟨voting, tc0Taken 5 (voteBytes 5 0 []) voting, 5, 0, voteBytes 5 0 [], [], [], by decide⟩,
   ⟨grouped, 5, 0, voteBytes 5 0 [], [], [], by decide⟩,
   ⟨voting, tc0Taken 10000000 (voteBytes 5 0 []) voting, 10000000, 0, voteBytes 5 0 [], [], [], by decide⟩⟩

theorem test_hypotheses_GroupTick_3 :
    (∃ (s u : State) (t port : Nat) (b : List Byte) (c : List (Nat × Nat × Nat × Nat)) (n : List (Nat × Nat × List Nat)), (s.tick.inGroup = true ∧ s.tick.isMaster = true ∧ s.tick.running = true) ∧ Tc0Lands s port b ∧ (s.tick.inCommit = true ∧ u = c.foldl State.takeCost (tc0Taken t b s)) ∧ (voteOk b = false ∨ field b 0 8 ≠ s.tick.index)) ∧
    (∃ (s : State) (t port : Nat) (b : List Byte) (c : List (Nat × Nat × Nat × Nat)) (n : List (Nat × Nat × List Nat)), (s.tick.inGroup = true ∧ s.tick.isMaster = false ∧ s.tick.running = true) ∧ Tc0Lands s port b ∧ s.tick.inCommit = true) ∧
    (∃ (s : State) (t port : Nat) (b : List Byte) (c : List (Nat × Nat × Nat × Nat)) (n : List (Nat × Nat × List Nat)), (s.tick.inGroup = true ∧ s.tick.running = true) ∧ ((s.gport port).up = false ∨ 4194304 < s.gelcon.tc0Used + tc0Size b)) ∧
    (∃ (s u : State), (s.tick.inGroup = true ∧ s.tick.isMaster = true) ∧ (s.tick.inCommit = true ∧ s.tick.votingOpen = true) ∧ u = (s.atTime (s.tick.commitOpenAt + s.tick.commitUs * 500)).onTick (fun k => { k with votingOpen := false })) ∧
    (∃ (s : State), (s.tick.isMaster = false ∨ s.tick.votingOpen = false)) ∧
    (∃ (s : State) (t port : Nat) (b : List Byte) (set : List (Nat × Nat × Nat × Nat)), (s.tick.inGroup = true ∧ s.tick.isMaster = false) ∧ Tc0Lands s port b ∧ (voteOk b = true ∧ field b 0 8 = s.tick.index) ∧ s.tick.inCommit = true ∧ set = ((voteEntries b).filter (fun e => e.2.2.1)).map (fun e => (e.1, e.2.1, e.2.2.2.1, e.2.2.2.2))) ∧
    (∃ (s : State) (t port k : Nat) (b : List Byte) (set : List (Nat × Nat × Nat × Nat)), (s.tick.inGroup = true ∧ s.tick.isMaster = false) ∧ Tc0Lands s port b ∧ (voteOk b = true ∧ field b 0 8 = k) ∧ (k ≠ s.tick.index ∧ s.plan.heldRows.any (fun h => h.1 = k) = true) ∧ s.tick.inCommit = true ∧ set = ((voteEntries b).filter (fun e => e.2.2.1)).map (fun e => (e.1, e.2.1, e.2.2.2.1, e.2.2.2.2))) :=
  ⟨⟨voting, tc0Taken 5 (voteBytes 6 0 []) voting, 5, 0, voteBytes 6 0 [], [], [], by decide⟩,
   ⟨voting.onTick (fun k => { k with isMaster := false }), 5, 0, [], [], [], by decide⟩,
   ⟨grouped, 5, 3, [], [], [], by decide⟩,
   ⟨voting, voteClosed, by decide, by decide, rfl⟩,
   ⟨win, by decide⟩,
   ⟨voting.onTick (fun k => { k with isMaster := false }), 5, 0, voteBytes 5 0 [], [], by decide⟩,
   ⟨(voting.onTick (fun k => { k with isMaster := false })).onPlan (fun p => { p with heldRows := [(4, {})] }), 5, 0, 4, voteBytes 4 0 [], [], by decide⟩⟩

theorem test_hypotheses_GroupTick_4 :
    (∃ (s : State) (t port : Nat) (b : List Byte) (set : List (Nat × Nat × Nat × Nat)), (s.tick.inGroup = true ∧ s.tick.isMaster = false) ∧ Tc0Lands s port b ∧ (voteOk b = true ∧ field b 0 8 ≠ s.tick.index) ∧ s.plan.heldRows.any (fun h => h.1 = field b 0 8) = true ∧ s.tick.inCommit = false ∧ set = ((voteEntries b).filter (fun e => e.2.2.1)).map (fun e => (e.1, e.2.1, e.2.2.2.1, e.2.2.2.2))) ∧
    (∃ (s : State) (t port : Nat) (b : List Byte), s.tick.inGroup = true ∧ Tc0Lands s port b ∧ (voteOk b = false ∨ setExpected s (field b 0 8) = false)) ∧
    (∃ (s : State) (t port : Nat) (b : List Byte), s.tick.inGroup = true ∧ Tc0Lands s port b ∧ (voteOk b = true ∧ field b 0 8 = s.tick.index) ∧ (s.tick.isMaster = true ∨ s.tick.inCommit = false)) ∧
    (∃ (s : State) (t src k : Nat) (c : Nat × List (Nat × Nat × Nat × Nat)), s.tick.inGroup = true ∧ s.tick.commitSets.find? (fun c => c.1 = k) = some c) ∧
    (∃ (s : State) (t port : Nat) (b : List Byte), (s.tick.inGroup = true ∧ s.tick.running = true) ∧ Tc0Lands s port b ∧ (shardPlanOk b = true ∧ field b 0 8 = s.tick.index + 1) ∧ t < s.tick.commitOpenAt + s.tick.commitUs * 250) ∧
    (∃ (s : State) (t port : Nat) (b : List Byte), (s.tick.inGroup = true ∧ s.tick.running = true) ∧ Tc0Lands s port b ∧ (shardPlanOk b = true ∧ field b 0 8 = s.tick.index + 1) ∧ s.tick.commitOpenAt + s.tick.commitUs * 250 ≤ t) ∧
    (∃ (s : State) (t port : Nat) (b : List Byte), (s.tick.inGroup = true ∧ s.tick.running = true) ∧ Tc0Lands s port b ∧ (shardPlanOk b = false ∨ field b 0 8 ≠ s.tick.index + 1)) :=
  ⟨⟨(grouped.onTick (fun k => { k with isMaster := false })).onPlan (fun p => { p with heldRows := [(4, {})] }), 5, 0, voteBytes 4 0 [], [], by decide⟩,
   ⟨voting, 5, 0, [], by decide⟩,
   ⟨voting, 5, 0, voteBytes 5 0 [], by decide⟩,
   ⟨grouped.onTick (fun k => { k with commitSets := [(4, [])] }), 5, 2, 4, (4, []), by decide⟩,
   ⟨voting, 5, 0, voteBytes 6 0 [], by decide⟩,
   ⟨voting, 10000000, 0, voteBytes 6 0 [], by decide⟩,
   ⟨voting, 5, 0, voteBytes 5 0 [], by decide⟩⟩

theorem test_hypotheses_Packets_1 :
    (∃ (s : State) (t port : Nat) (p : Packet), ForUs s port p 0x10 ∧ holdsIn s rowHolding p.addr p.payload.length = true) ∧
    (∃ (s : State) (t port : Nat) (p : Packet), ForUs s port p 0x10 ∧ holdsIn s rowHolding p.addr p.payload.length = false) ∧
    (∃ (s : State) (t port : Nat) (p : Packet), (p.src = identityOf s ∧ p.dst ≠ identityOf s ∧ p.ptype = 0x10) ∧ headerCause s p = 0 ∧ s.plan.jobs.any (fun j => j.active) = true) ∧
    (∃ (s : State) (t port : Nat) (p : Packet), (p.src = identityOf s ∧ p.dst ≠ identityOf s ∧ p.ptype = 0x10) ∧ (headerCause s p ≠ 0 ∨ s.plan.jobs.any (fun j => j.active) = false)) ∧
    (∃ (s : State) (t port : Nat) (p : Packet) (m : MgmtMsg), ((p.ptype = 0x30 ∧ headerCause s p = 0) ∧ p.dst = identityOf s) ∧ Located s port p ∧ (∀ a l, m ≠ .portStates a l)) ∧
    (∃ (s : State) (t port : Nat) (p : Packet) (a : Nat) (l : List (Nat × Bool)), ((p.ptype = 0x30 ∧ headerCause s p = 0) ∧ p.dst = identityOf s) ∧ Located s port p) ∧
    (∃ (s : State) (t port : Nat) (p : Packet), ForUs s port p 0x3E) ∧
    (∃ (s : State) (t port : Nat) (p : Packet) (q : List (Nat × Nat)) (m : MgmtMsg), p.src ≠ identityOf s ∧ ((s.gport port).up = false ∨ ((portVc (s.gport port) (2 * (p.tc % 4) + p.hop % 2)).resync = true ∧ p.located = false))) :=
  ⟨⟨heldShip, 5, 0, { actPacket with addr := 0 }, by decide⟩,
   ⟨linked, 5, 0, actPacket, by decide⟩,
   ⟨twoPorts.onPlan (fun p => { p with jobs := [{ active := true }] }), 5, 0, { actPacket with src := 16, dst := 18 }, by decide⟩,
   ⟨twoPorts, 5, 0, { actPacket with src := 16, dst := 18 }, by decide⟩,
   ⟨linked, 5, 0, { actPacket with ptype := 0x30, tc := 3 }, .other [], by decide, by decide, by simp⟩,
   ⟨linked, 5, 0, { actPacket with ptype := 0x30, tc := 3 }, 0, [], by decide⟩,
   ⟨linked, 5, 0, { actPacket with ptype := 0x3E, tc := 3 }, by decide⟩,
   ⟨ticking, 5, 0, actPacket, [], .other [], by decide⟩⟩

theorem test_hypotheses_Packets_2 :
    (∃ (s u : State) (t port : Nat) (p : Packet) (m : MgmtMsg), ((s.gport port).up = true ∧ (portVc (s.gport port) (2 * (p.tc % 4) + p.hop % 2)).resync = true) ∧ (p.located = true ∧ p.src ≠ identityOf s ∧ onlyMgmt s port = false) ∧ u = s.modPort port (modVc (2 * (p.tc % 4) + p.hop % 2) (fun v => { v with resync := false }))) ∧
    (∃ (s : State) (t port : Nat) (p : Packet) (m : MgmtMsg), Located s port p ∧ (headerCause s p = 0 ∧ p.dst ≠ identityOf s ∧ p.src ≠ identityOf s)) ∧
    (∃ (s : State) (t port : Nat) (p : Packet) (q : List (Nat × Nat)), onlyMgmt s port = true ∧ p.src ≠ identityOf s) ∧
    (∃ (s u : State) (t port : Nat) (p : Packet) (m : MgmtMsg), Located s port p ∧ (onlyMgmt s port = false ∧ p.src ≠ identityOf s) ∧ headerCause s p ≠ 0 ∧ u = (s.atTime t).badPacket port (headerCause s p) p) ∧
    (∃ (s : State) (t port : Nat) (p : Packet) (q : List (Nat × Nat)) (n : Nat) (h : Packet), (Located s port p ∧ onlyMgmt s port = false) ∧ headerCause s p = 0 ∧ route (s.atTime t) p q (decide (port < 15)) = .out n h) ∧
    (∃ (s : State) (t port : Nat) (p : Packet) (q : List (Nat × Nat)), (Located s port p ∧ onlyMgmt s port = false) ∧ headerCause s p = 0 ∧ route (s.atTime t) p q (decide (port < 15)) = .keep) ∧
    (∃ (s : State) (t port : Nat) (p : Packet) (q : List (Nat × Nat)) (c : Nat), (Located s port p ∧ onlyMgmt s port = false) ∧ ((headerCause s p ≠ 0 ∧ c = headerCause s p) ∨ (headerCause s p = 0 ∧ route (s.atTime t) p q (decide (port < 15)) = .drop c))) :=
  ⟨⟨linked.modPort 0 (modVc 2 (fun v => { v with resync := true })), linked.modPort 0 (modVc 2 (fun v => { v with resync := false })), 5, 0, actPacket, .other [], by decide, by decide, by decide⟩,
   ⟨linked, 5, 0, { actPacket with dst := 36 }, .other [], by decide⟩,
   ⟨ticking, 5, 0, actPacket, [], by decide⟩,
   ⟨linked, (linked.atTime 5).badPacket 0 4 { actPacket with dst := 512 }, 5, 0, { actPacket with dst := 512 }, .other [], by decide, by decide, by decide, rfl⟩,
   ⟨globalPort, 5, 15, { actPacket with dst := 16 + 2 }, [], outPort, outHead, by decide, by decide, rfl⟩,
   ⟨twoPorts, 5, 0, actPacket, [], by decide⟩,
   ⟨twoPorts, 5, 0, { actPacket with dst := 512 }, [], 4, by decide⟩⟩

theorem test_hypotheses_ShipmentsArrive_1 :
    (∃ (s : State) (t port : Nat) (p : Packet), ForUs s port p 0x20 ∧ shipOpenOk p = true ∧ (s.gelcon.ships.filter (fun x => !x.outgoing)).length < 4096 ∧ s.ship? (field p.payload 0 8) = none) ∧
    (∃ (s : State) (t port : Nat) (p : Packet), ForUs s port p 0x20 ∧ shipOpenOk p = true ∧ (4096 ≤ (s.gelcon.ships.filter (fun x => !x.outgoing)).length ∨ (s.ship? (field p.payload 0 8)).isSome = true)) ∧
    (∃ (s : State) (t port : Nat) (p : Packet), ForUs s port p 0x20 ∧ shipOpenOk p = false) ∧
    (∃ (s : State) (t port : Nat) (p : Packet) (x : Shipment), s.ship? (field p.payload 0 8) = none) ∧
    (∃ (s : State) (t port : Nat) (p : Packet) (x : Shipment), ForUs s port p 0x21 ∧ s.ship? (field p.payload 0 8) = some x ∧ (x.outgoing = false ∨ x.slot = none)) ∧
    (∃ (s u : State) (t port : Nat) (p : Packet) (x y : Shipment) (n lo stop : Nat) (r : Request) (i : ModelInfo), ForUs s port p 0x21 ∧ s.ship? (field p.payload 0 8) = some x ∧ (x.outgoing = true ∧ x.slot = some n) ∧ s.req? n = some r ∧ (i = (s.mslot r.modelSlot).info ∧ stop = min (field p.payload 16 8) (x.blocks * blockBytes i)) ∧ lo = (if stop ≤ x.landed then field p.payload 8 4 * blockBytes i else max x.landed (field p.payload 8 4 * blockBytes i)) ∧ (y = { x with landed := max x.landed stop, windowEnd := stop, firstBlock := if x.landed = 0 then field p.payload 8 4 else x.firstBlock }) ∧ u = ((s.atTime t).setShip y).sendMsg p.src 0x22 x.tc lo (field p.payload 0 8) false (outBytes (s.atTime t) i r lo (stop - lo))) ∧
    (∃ (s : State) (t port : Nat) (p : Packet) (x : Shipment), ForUs s port p 0x22 ∧ s.ship? p.handle = some x ∧ (x.outgoing = false ∧ x.slot.isSome = true) ∧ (x.firstBlock * blockBytes (shipModel s x) ≤ p.addr ∧ p.addr + p.payload.length ≤ x.windowEnd)) :=
  ⟨⟨linked, 5, 0, openPacket, by decide⟩,
   ⟨shipState { handle := 7 }, 5, 0, openPacket, by decide⟩,
   ⟨linked, 5, 0, { openPacket with payload := [] }, by decide⟩,
   ⟨linked, 5, 0, { openPacket with ptype := 0x21 }, {}, by decide⟩,
   ⟨shipState { handle := 7 }, 5, 0, grantPacket, { handle := 7 }, by decide⟩,
   ⟨grantState, grantSent, 5, 0, grantPacket, { handle := 7, slot := some 0, outgoing := true, blocks := 2 }, { handle := 7, slot := some 0, outgoing := true, blocks := 2, landed := 1024, windowEnd := 1024 }, 0, 0, 1024, decodingReq, {}, by decide, by decide, by decide, by decide, by decide, by decide, by decide, rfl⟩,
   ⟨shipState inShip, 5, 0, { openPacket with ptype := 0x22, handle := 7 }, inShip, by decide⟩⟩

theorem test_hypotheses_ShipmentsArrive_2 :
    (∃ (s : State) (t port : Nat) (p : Packet) (x : Shipment), ForUs s port p 0x22 ∧ s.ship? p.handle = some x ∧ (x.outgoing = true ∨ p.addr < x.firstBlock * blockBytes (shipModel s x) ∨ x.windowEnd < p.addr + p.payload.length ∨ x.slot = none)) ∧
    (∃ (s : State) (t port : Nat) (p : Packet), ForUs s port p 0x22 ∧ s.ship? p.handle = none) ∧
    (∃ (s : State) (h upto n : Nat) (x : Shipment) (r : Request), s.ship? h = some x ∧ (x.slot = some n ∧ x.outgoing = false) ∧ s.req? n = some r ∧ (s.tick.running = true ∧ s.tick.inCommit = false) ∧ (x.landed ≤ upto ∧ upto ≤ coveredTo x.got x.got.length x.landed)) ∧
    (∃ (s : State) (t port : Nat) (p : Packet) (x y : Shipment) (n : Nat), ForUs s port p 0x23 ∧ s.ship? (field p.payload 0 8) = some x ∧ (x.outgoing = false ∧ x.slot.isSome = true) ∧ (n = field p.payload 12 4 ∧ inRange n 1 1020 = true) ∧ y = { x with crcs := (List.range n).foldl (fun l k => tabPut (field p.payload 8 4 + k) (field p.payload (16 + 4 * k) 4) l) x.crcs } ∧ min x.grantEnd ((field p.payload 8 4 + n) * blockBytes (shipModel s x)) ≤ coveredTo x.got x.got.length (max (field p.payload 8 4 * blockBytes (shipModel s x)) (x.firstBlock * blockBytes (shipModel s x)))) ∧
    (∃ (s : State) (t port : Nat) (p : Packet) (x y : Shipment) (n c : Nat), ForUs s port p 0x23 ∧ s.ship? (field p.payload 0 8) = some x ∧ (x.outgoing = false ∧ x.slot.isSome = true) ∧ (n = field p.payload 12 4 ∧ inRange n 1 1020 = true) ∧ (c = coveredTo x.got x.got.length (max (field p.payload 8 4 * blockBytes (shipModel s x)) (x.firstBlock * blockBytes (shipModel s x))) ∧ c < min x.grantEnd ((field p.payload 8 4 + n) * blockBytes (shipModel s x))) ∧ x.regrants < 3 ∧ y = { x with crcs := (List.range n).foldl (fun l k => tabPut (field p.payload 8 4 + k) (field p.payload (16 + 4 * k) 4) l) x.crcs, regrants := x.regrants + 1 }) ∧
    (∃ (s : State) (t port : Nat) (p : Packet) (x y : Shipment) (n : Nat), ForUs s port p 0x23 ∧ s.ship? (field p.payload 0 8) = some x ∧ (x.outgoing = false ∧ x.slot.isSome = true) ∧ (n = field p.payload 12 4 ∧ inRange n 1 1020 = true) ∧ coveredTo x.got x.got.length (max (field p.payload 8 4 * blockBytes (shipModel s x)) (x.firstBlock * blockBytes (shipModel s x))) < min x.grantEnd ((field p.payload 8 4 + n) * blockBytes (shipModel s x)) ∧ 3 ≤ x.regrants ∧ y = { x with crcs := (List.range n).foldl (fun l k => tabPut (field p.payload 8 4 + k) (field p.payload (16 + 4 * k) 4) l) x.crcs }) ∧
    (∃ (s : State) (t port : Nat) (p : Packet) (x : Shipment), ForUs s port p 0x24 ∧ s.ship? (field p.payload 0 8) = some x ∧ x.slot = none) :=
  ⟨⟨shipState inShip, 5, 0, { openPacket with ptype := 0x22, handle := 7, addr := 4096 }, inShip, by decide⟩,
   ⟨linked, 5, 0, { openPacket with ptype := 0x22, handle := 7 }, by decide⟩,
   ⟨shipState inShip, 7, 8, 0, inShip, decodingReq, by decide⟩,
   ⟨shipState inShip, 5, 0, donePacket, inShip, { inShip with crcs := [(0, 0)] }, 1, by decide⟩,
   ⟨shipState { inShip with grantEnd := 4096, got := [] }, 5, 0, donePacket, { inShip with grantEnd := 4096, got := [] }, { inShip with grantEnd := 4096, got := [], crcs := [(0, 0)], regrants := 1 }, 1, 0, by decide⟩,
   ⟨shipState { inShip with grantEnd := 4096, got := [], regrants := 3 }, 5, 0, donePacket, { inShip with grantEnd := 4096, got := [], regrants := 3 }, { inShip with grantEnd := 4096, got := [], crcs := [(0, 0)], regrants := 3 }, 1, by decide⟩,
   ⟨shipState { handle := 7 }, 5, 0, { openPacket with ptype := 0x24 }, { handle := 7 }, by decide⟩⟩

theorem test_hypotheses_ShipmentsArrive_3 :
    (∃ (s : State) (t port n : Nat) (p : Packet) (x : Shipment), ForUs s port p 0x24 ∧ s.ship? (field p.payload 0 8) = some x ∧ x.slot = some n) ∧
    (∃ (s : State) (t h : Nat) (x : Shipment), s.ship? h = some x ∧ (x.slot = none ∧ x.outgoing = false) ∧ x.openedAt + rf s.regs.glShip 31 16 * 1000000 ≤ t) ∧
    (∃ (s : State) (t h : Nat) (x : Shipment), s.ship? h = some x ∧ (x.slot.isSome = true ∨ t < x.openedAt + rf s.regs.glShip 31 16 * 1000000)) ∧
    (∃ (s : State) (t h upto : Nat), s.ship? h = none) ∧
    (∃ (s : State) (h n : Nat) (x : Shipment) (r : Request) (len : Nat), s.ship? h = some x ∧ x.slot = some n ∧ s.req? n = some r ∧ s.tick.inCommit = true ∧ (x.verified = true ∧ x.verifiedAt < s.tick.commitOpenAt) ∧ (r.state = .importing ∧ r.migrating = false ∧ n ∉ s.req.unsettled) ∧ len = 128 * (x.grantEnd / blockBytes (shipModel s x))) :=
  ⟨⟨shipState inShip, 5, 0, 0, { openPacket with ptype := 0x24 }, inShip, by decide⟩,
   ⟨shipState { handle := 7 }, 100000000000, 7, { handle := 7 }, by decide⟩,
   ⟨shipState inShip, 5, 7, inShip, by decide⟩,
   ⟨linked, 5, 7, 0, by decide⟩,
   ⟨applyState, 7, 0, { inShip with verified := true }, { state := .importing }, 0, by decide⟩⟩

theorem test_hypotheses_Flits_1 :
    (∃ (s u : State) (t p : Nat) (f : FlitIn), FlitComes (s.atTime t) p 1 f ∧ u = flitFields (s.atTime t) p f) ∧
    (∃ (s u : State) (t p : Nat) (f : FlitIn), FlitGood (s.atTime t) p 0 f ∧ u = flitFields (s.atTime t) p f) ∧
    (∃ (s u : State) (t p : Nat) (f : FlitIn), FlitComes (s.atTime t) p 2 f ∧ allZero ((flData f.bytes).drop 16) = true ∧ u = flitFields (s.atTime t) p f) ∧
    (∃ (s u : State) (t p : Nat) (f : FlitIn), FlitComes (s.atTime t) p 4 f ∧ (allZero ((flData f.bytes).drop 1) = true ∧ field (flData f.bytes) 0 1 < 8) ∧ u = flitFields (s.atTime t) p f) ∧
    (∃ (s u : State) (t p : Nat) (f : FlitIn), FlitComes (s.atTime t) p 2 f ∧ allZero ((flData f.bytes).drop 16) = false ∧ u = flitFields (s.atTime t) p f) ∧
    (∃ (s u : State) (t p : Nat) (f : FlitIn), FlitComes (s.atTime t) p 4 f ∧ (allZero ((flData f.bytes).drop 1) = false ∨ 8 ≤ field (flData f.bytes) 0 1) ∧ u = flitFields (s.atTime t) p f) ∧
    (∃ (s u : State) (t p : Nat) (f : FlitIn), FlitGood (s.atTime t) p 3 f ∧ allZero ((flData f.bytes).drop 4) = false ∧ u = flitFields (s.atTime t) p f) :=
  ⟨⟨onePort, flitFields (onePort.atTime 5) 3 { bytes := flitOf 1 [] }, 5, 3, { bytes := flitOf 1 [] }, ⟨⟨by decide, by decide, flit_crc _ _, by decide⟩, by decide⟩, rfl⟩,
   ⟨onePort, flitFields (onePort.atTime 5) 3 { bytes := flitOf 0 [] }, 5, 3, { bytes := flitOf 0 [] }, ⟨by decide, by decide, flit_crc _ _, by decide⟩, rfl⟩,
   ⟨onePort, flitFields (onePort.atTime 5) 3 { bytes := flitOf 2 [] }, 5, 3, { bytes := flitOf 2 [] }, ⟨⟨by decide, by decide, flit_crc _ _, by decide⟩, by decide⟩, by decide, rfl⟩,
   ⟨onePort, flitFields (onePort.atTime 5) 3 { bytes := flitOf 4 [] }, 5, 3, { bytes := flitOf 4 [] }, ⟨⟨by decide, by decide, flit_crc _ _, by decide⟩, by decide⟩, by decide, rfl⟩,
   ⟨onePort, flitFields (onePort.atTime 5) 3 { bytes := flitOf 2 (List.replicate 16 0 ++ [1]) }, 5, 3, { bytes := flitOf 2 (List.replicate 16 0 ++ [1]) }, ⟨⟨by decide, by decide, flit_crc _ _, by decide⟩, by decide⟩, by decide, rfl⟩,
   ⟨onePort, flitFields (onePort.atTime 5) 3 { bytes := flitOf 4 [8] }, 5, 3, { bytes := flitOf 4 [8] }, ⟨⟨by decide, by decide, flit_crc _ _, by decide⟩, by decide⟩, by decide, rfl⟩,
   ⟨onePort, flitFields (onePort.atTime 5) 3 { bytes := flitOf 3 [0, 0, 0, 0, 1] }, 5, 3, { bytes := flitOf 3 [0, 0, 0, 0, 1] }, ⟨by decide, by decide, flit_crc _ _, by decide⟩, by decide, rfl⟩⟩

theorem test_hypotheses_Flits_2 :
    (∃ (s u : State) (t p : Nat) (f : FlitIn), FlitGood (s.atTime t) p 6 f ∧ allZero ((flData f.bytes).drop 5) = false ∧ u = flitFields (s.atTime t) p f) ∧
    (∃ (s u : State) (t p : Nat) (f : FlitIn), FlitGood (s.atTime t) p 3 f ∧ allZero ((flData f.bytes).drop 4) = true ∧ field (flData f.bytes) 0 1 = 0 ∧ u = flitFields (s.atTime t) p f) ∧
    (∃ (s u : State) (t p n : Nat) (f : FlitIn), FlitGood (s.atTime t) p 3 f ∧ allZero ((flData f.bytes).drop 4) = true ∧ (field (flData f.bytes) 0 1 = 1 ∧ field (flData f.bytes) 1 1 = n ∧ n < 8) ∧ u = flitFields (s.atTime t) p f) ∧
    (∃ (s u : State) (t p : Nat) (f : FlitIn) (tags : List (BitVec 8)), FlitGood (s.atTime t) p 5 f ∧ u = flitFields (s.atTime t) p f ∧ (tagsOk u p (flData f.bytes) tags = false ∨ identOk u p (flData f.bytes) = false)) ∧
    (∃ (s u : State) (t p : Nat) (f : FlitIn) (tags : List (BitVec 8)), FlitGood (s.atTime t) p 5 f ∧ u = flitFields (s.atTime t) p f ∧ (tagsOk u p (flData f.bytes) tags = true ∧ identOk u p (flData f.bytes) = true) ∧ (u.gport p).up = true) ∧
    (∃ (s u : State) (t p : Nat) (f : FlitIn) (tags : List (BitVec 8)), FlitGood (s.atTime t) p 5 f ∧ u = flitFields (s.atTime t) p f ∧ (tagsOk u p (flData f.bytes) tags = true ∧ identOk u p (flData f.bytes) = true) ∧ (u.gport p).up = false) ∧
    (∃ (s u : State) (t p : Nat) (f : FlitIn), FlitGood (s.atTime t) p 6 f ∧ allZero ((flData f.bytes).drop 5) = true ∧ u = flitFields (s.atTime t) p f ∧ field (flData f.bytes) 0 1 % 2 ^ portLanes p = maskNext (u.gport p)) :=
  ⟨⟨onePort, flitFields (onePort.atTime 5) 3 { bytes := flitOf 6 [15, 0, 0, 0, 0, 1] }, 5, 3, { bytes := flitOf 6 [15, 0, 0, 0, 0, 1] }, ⟨by decide, by decide, flit_crc _ _, by decide⟩, by decide, rfl⟩,
   ⟨onePort, flitFields (onePort.atTime 5) 3 { bytes := flitOf 3 [] }, 5, 3, { bytes := flitOf 3 [] }, ⟨by decide, by decide, flit_crc _ _, by decide⟩, by decide, by decide, rfl⟩,
   ⟨onePort, flitFields (onePort.atTime 5) 3 { bytes := flitOf 3 [1, 2] }, 5, 3, 2, { bytes := flitOf 3 [1, 2] }, ⟨by decide, by decide, flit_crc _ _, by decide⟩, by decide, by decide, rfl⟩,
   ⟨onePort, flitFields (onePort.atTime 5) 3 { bytes := flitOf 5 [] }, 5, 3, { bytes := flitOf 5 [] }, [], ⟨by decide, by decide, flit_crc _ _, by decide⟩, rfl, by decide⟩,
   ⟨onePort, flitFields (onePort.atTime 5) 3 { bytes := flitOf 5 [0x14, 0, 0, 11] }, 5, 3, { bytes := flitOf 5 [0x14, 0, 0, 11] }, [88, 89, 90, 91], ⟨by decide, by decide, flit_crc _ _, by decide⟩, rfl, by decide, by decide⟩,
   ⟨portSilent, flitFields (portSilent.atTime 5) 3 { bytes := flitOf 5 [0x14, 0, 0, 11] }, 5, 3, { bytes := flitOf 5 [0x14, 0, 0, 11] }, [88, 89, 90, 91], ⟨by decide, by decide, flit_crc _ _, by decide⟩, rfl, by decide, by decide⟩,
   ⟨onePort, flitFields (onePort.atTime 5) 3 { bytes := flitOf 6 [15] }, 5, 3, { bytes := flitOf 6 [15] }, ⟨by decide, by decide, flit_crc _ _, by decide⟩, by decide, rfl, by decide⟩⟩

theorem test_hypotheses_Flits_3 :
    (∃ (s u : State) (t p m : Nat) (f : FlitIn), FlitGood (s.atTime t) p 6 f ∧ allZero ((flData f.bytes).drop 5) = true ∧ u = flitFields (s.atTime t) p f ∧ (field (flData f.bytes) 0 1 % 2 ^ portLanes p = m ∧ m ≠ maskNext (u.gport p))) ∧
    (∃ (s : State) (t p : Nat) (f : FlitIn) (tags : List (BitVec 8)), ((s.gport p).trained = false ∨ (s.gport p).quarantined = true)) ∧
    (∃ (s : State) (t p : Nat) (f : FlitIn) (tags : List (BitVec 8)), ((s.gport p).trained = true ∧ (s.gport p).quarantined = false) ∧ 0 < f.fec.2) ∧
    (∃ (s u : State) (t p : Nat) (f : FlitIn) (tags : List (BitVec 8)), ((s.gport p).trained = true ∧ (s.gport p).quarantined = false) ∧ (f.fec.2 = 0 ∧ flCrcOk f.bytes = false) ∧ u = (((flitSeen (s.atTime t) p f).countPort p (fun c => { c with crcErrors := inc64 c.crcErrors })).gap p)) ∧
    (∃ (s : State) (t p : Nat) (f : FlitIn) (tags : List (BitVec 8)), ((s.gport p).trained = true ∧ (s.gport p).quarantined = false) ∧ (f.fec.2 = 0 ∧ flCrcOk f.bytes = true ∧ 7 ≤ flType f.bytes)) ∧
    (∃ (s u : State) (t p : Nat) (f : FlitIn) (tags : List (BitVec 8)), ((s.gport p).trained = true ∧ (s.gport p).quarantined = false) ∧ (f.fec.2 = 0 ∧ flCrcOk f.bytes = true ∧ flType f.bytes < 7) ∧ u = flitSeen (s.atTime t) p f) ∧
    (∃ (s u : State) (t p ft : Nat) (f : FlitIn), FlitGood (s.atTime t) p ft f ∧ u = flitSeen (s.atTime t) p f ∧ flSeq f.bytes ≠ (u.gport p).expect ∧ laneBehind (u.gport p) f.frame = true) :=
  ⟨⟨onePort, flitFields (onePort.atTime 5) 3 { bytes := flitOf 6 [7] }, 5, 3, 7, { bytes := flitOf 6 [7] }, ⟨by decide, by decide, flit_crc _ _, by decide⟩, by decide, rfl, by decide⟩,
   ⟨ticking, 5, 3, {}, [], by decide⟩,
   ⟨onePort, 5, 3, { fec := (0, 1) }, [], by decide⟩,
   ⟨onePort, (((flitSeen (onePort.atTime 5) 3 {}).countPort 3 (fun c => { c with crcErrors := inc64 c.crcErrors })).gap 3), 5, 3, {}, [], by decide, by decide, rfl⟩,
   ⟨onePort, 5, 3, { bytes := flitOf 7 [] }, [], by decide, ⟨by decide, flit_crc _ _, by decide⟩⟩,
   ⟨onePort, flitSeen (onePort.atTime 5) 3 { bytes := flitOf 1 [] }, 5, 3, { bytes := flitOf 1 [] }, [], by decide, ⟨by decide, flit_crc _ _, by decide⟩, rfl⟩,
   ⟨portAhead, flitSeen (portAhead.atTime 5) 3 { bytes := flitOf 1 [], frame := 5 }, 5, 3, 1, { bytes := flitOf 1 [], frame := 5 }, ⟨by decide, by decide, flit_crc _ _, by decide⟩, rfl, by decide, by decide⟩⟩

theorem test_hypotheses_Flits_4 :
    (∃ (s u : State) (t p ft : Nat) (f : FlitIn), FlitGood (s.atTime t) p ft f ∧ u = flitSeen (s.atTime t) p f ∧ flSeq f.bytes ≠ (u.gport p).expect ∧ laneBehind (u.gport p) f.frame = false) ∧
    (∃ (s : State) (p n : Nat) (h : Nat × List (BitVec 8)), (s.gport p).held.find? (fun h => flSeq h.2 = (s.gport p).expect) = some h) ∧
    (∃ (s : State) (p n : Nat) (h : Nat × List (BitVec 8)), (s.gport p).held.find? (fun h => flSeq h.2 = (s.gport p).expect) = none ∧ (s.gport p).held.find? (fun h => !laneBehind (s.gport p) h.1) = some h) ∧
    (∃ (s : State) (p : Nat), (s.gport p).nakWait = true) ∧
    (∃ (s : State) (p : Nat), (s.gport p).nakWait = false) :=
  ⟨⟨portAhead, flitSeen (portAhead.atTime 5) 3 { bytes := flitOf 1 [] }, 5, 3, 1, { bytes := flitOf 1 [] }, ⟨by decide, by decide, flit_crc _ _, by decide⟩, rfl, by decide, by decide⟩,
   ⟨onePort.modPort 3 (fun g => { g with held := [(0, flitOf 1 [])] }), 3, 0, (0, flitOf 1 []), by decide⟩,
   ⟨portAhead.modPort 3 (fun g => { g with held := [(0, flitOf 1 [])] }), 3, 0, (0, flitOf 1 []), by decide⟩,
   ⟨onePort.modPort 3 (fun g => { g with nakWait := true }), 3, by decide⟩,
   ⟨onePort, 3, by decide⟩⟩

theorem test_hypotheses_LinkTimersAndViolations_1 :
    (∃ (s : State) (t p : Nat), ((s.gport p).nakWait = true ∧ (s.gport p).trained = true) ∧ (s.gport p).nakAt + 1000 ≤ (s.atTime t).now) ∧
    (∃ (s : State) (t p : Nat), ((s.gport p).nakWait = false ∨ (s.atTime t).now < (s.gport p).nakAt + 1000)) ∧
    (∃ (s : State) (t p : Nat) (f : Flit) (l : List Flit), (s.gport p).resend = f :: l ∧ (s.gport p).ackAt + 4000 ≤ (s.atTime t).now) ∧
    (∃ (s : State) (t p : Nat), ((s.gport p).resend = [] ∨ (s.atTime t).now < (s.gport p).ackAt + 4000)) ∧
    (∃ (s : State) (t p : Nat), (s.gport p).trained = true) :=
  ⟨⟨onePort.modPort 3 (fun g => { g with nakWait := true }), 2000, 3, by decide⟩,
   ⟨onePort, 5, 3, by decide⟩,
   ⟨onePort.modPort 3 (fun g => { g with resend := [{ seq := 4 }] }), 9000, 3, { seq := 4 }, [], by decide⟩,
   ⟨onePort, 5, 3, by decide⟩,
   ⟨onePort, 5, 3, by decide⟩⟩

theorem test_hypotheses_LinkTimersAndViolations_2 :
    (∃ (s : State) (t p : Nat), (s.gport p).trained = false) ∧
    (∃ (s : State) (t p c v : Nat) (k : Packet), ((s.gport p).trained = true ∧ (s.gport p).quarantined = false)) ∧
    (∃ (s : State) (t p c v : Nat) (k : Packet), ((s.gport p).trained = false ∨ (s.gport p).quarantined = true)) ∧
    (∃ (s u : State) (p : Nat), (u = (s.countPort p (fun c => { c with violations := inc64 c.violations })).modPort p (fun g => if g.violStart + rf s.regs.glViol 31 16 * 1000000 ≤ s.now then { g with viol := 1, violStart := s.now } else { g with viol := g.viol + 1 }))) :=
  ⟨⟨ticking, 5, 3, by decide⟩,
   ⟨onePort, 5, 3, 2, 0, {}, by decide⟩,
   ⟨ticking, 5, 3, 2, 0, {}, by decide⟩,
   ⟨ticking, (ticking.countPort 3 (fun c => { c with violations := inc64 c.violations })).modPort 3 (fun g => if g.violStart + rf ticking.regs.glViol 31 16 * 1000000 ≤ ticking.now then { g with viol := 1, violStart := ticking.now } else { g with viol := g.viol + 1 }), 3, by decide⟩⟩

theorem test_hypotheses_PortsAndLanes_1 :
    (∃ (s : State) (t p lanes m : Nat) (g : Port), p < portCount s.variant ∧ (m = lanes % 2 ^ portLanes p ∧ m ≠ 0) ∧ bit s.regs.glCtl.toNat 0 = true ∧ ((s.gport p).quarantined = false ∧ linkDieBad s p = false ∧ s.start.state ≠ .off) ∧ g = { trained := true, laneMask := m, cabled := popCount m 4, viol := (s.gport p).viol, violStart := (s.gport p).violStart, retired := (List.range (portLanes p)).filter (fun l => !bit m l), vcs := freshVcs }) ∧
    (∃ (s : State) (t p lanes : Nat), (portCount s.variant ≤ p ∨ lanes % 2 ^ portLanes p = 0 ∨ (s.gport p).quarantined = true)) ∧
    (∃ (s : State) (t p l f c : Nat), (bit (maskNext (s.gport p)) l = true ∧ l < portLanes p) ∧ (c = 0 ∨ 16 < c)) ∧
    (∃ (s : State) (t p l f c : Nat), (bit (maskNext (s.gport p)) l = false ∨ (0 < c ∧ c ≤ 16))) ∧
    (∃ (s u : State) (t p l f : Nat), (s.gport p).retired.contains l = true ∧ ((s.gport p).trained = true ∧ (s.gport p).quarantined = false) ∧ bit (maskNext (s.gport p)) l = false ∧ u = (s.atTime t).modPort p (fun g => { g with retired := setDel l g.retired })) :=
  ⟨⟨linkOn, 5, 3, 15, 15, { trained := true, laneMask := 15, cabled := 4, vcs := freshVcs }, by decide⟩,
   ⟨linkOn, 5, 30, 15, by decide⟩,
   ⟨onePort, 5, 3, 2, 0, 17, by decide⟩,
   ⟨onePort, 5, 3, 2, 0, 16, by decide⟩,
   ⟨retiredLane, retiredGone, 5, 3, 2, 0, by decide, by decide, by decide, rfl⟩⟩

theorem test_hypotheses_PortsAndLanes_2 :
    (∃ (s : State) (t p l f : Nat) (ok : Bool), (ok = false ∨ (s.gport p).retired.contains l = false)) ∧
    (∃ (s : State) (t p : Nat), (s.gport p).trained = true) ∧
    (∃ (s : State) (t p : Nat), (s.gport p).trained = false) ∧
    (∃ (s u : State) (t p l f : Nat), (s.gport p).retired.contains l = true ∧ ((s.gport p).trained = true ∧ (s.gport p).quarantined = false) ∧ bit (maskNext (s.gport p)) l = true ∧ u = (s.atTime t).modPort p (fun g => { g with retired := setDel l g.retired })) ∧
    (∃ (s u : State) (p m f : Nat), u = s.modPort p (fun g => { g with laneAt := some (m, f) })) :=
  ⟨⟨onePort, 5, 3, 2, 0, true, by decide⟩,
   ⟨onePort, 5, 3, by decide⟩,
   ⟨ticking, 5, 3, by decide⟩,
   ⟨onePort.modPort 3 (fun g => { g with retired := [2] }), (((onePort.modPort 3 (fun g => { g with retired := [2] })).atTime 5).modPort 3 (fun g => { g with retired := setDel 2 g.retired })), 5, 3, 2, 0, by decide, by decide, by decide, rfl⟩,
   ⟨onePort, onePort.modPort 3 (fun g => { g with laneAt := some (7, 9) }), 3, 7, 9, by decide⟩⟩

theorem test_hypotheses_HostPorts_1 :
    (∃ (s u : State) (t p : Nat) (c : PortCause), s.portUp p = true ∧ u = (s.atTime t).modHport p (fun h => { h with memEnable := h.memEnable && !(c = .reset || c = .busMaster), bar := h.bar && !(c = .reset || c = .link) })) ∧
    (∃ (s : State) (t p : Nat) (c : PortCause), s.portUp p = false) ∧
    (∃ (s u : State) (t p g l : Nat), (mayTrain s p = true ∧ linkOk g l = true) ∧ bit s.regs.hxCtl.toNat p = true ∧ u = ((((s.atTime t).serveTier.modHport p (fun h => { h with bar := true, memEnable := true, gts := g, lanes := l })).noteSingle).modHport p (fun h => { h with up := true }))) ∧
    (∃ (s : State) (t p g l : Nat), (mayTrain s p = true ∧ linkOk g l = true) ∧ bit s.regs.hxCtl.toNat p = false) ∧
    (∃ (s : State) (t p g l : Nat), (mayTrain s p = false ∨ linkOk g l = false)) :=
  ⟨⟨ticking, (ticking.atTime 5).modHport 0 (fun h => { h with memEnable := false, bar := false }), 5, 0, .reset, by decide, by decide⟩,
   ⟨ticking, 5, 2, .reset, by decide⟩,
   ⟨portBack, ((((portBack.atTime 5).serveTier.modHport 1 (fun h => { h with bar := true, memEnable := true, gts := 64, lanes := 16 })).noteSingle).modHport 1 (fun h => { h with up := true })), 5, 1, 64, 16, by decide, by decide, by decide⟩,
   ⟨portBack.onCfg (fun g => { g with regs := { g.regs with hxCtl := 1 } }), 5, 1, 32, 8, by decide⟩,
   ⟨ticking, 5, 0, 64, 16, by decide⟩⟩

theorem test_hypotheses_HostPorts_2 :
    (∃ (s : State) (t p k z : Nat) (l : List (Nat × Nat)), s.portUp p = true ∧ (s.hport p).flushes = (k, z) :: l) ∧
    (∃ (s : State) (t p : Nat), (s.portUp p = false ∨ (s.hport p).flushes = [])) ∧
    (∃ (s : State) (a : Nat) (v : BitVec 32), (s.barAny = true ∧ s.start.warmRunning = false)) ∧
    (∃ (s : State) (a : Nat) (v : BitVec 32), (s.barAny = false ∨ s.start.warmRunning = true)) :=
  ⟨⟨flushing, 5, 0, 4, 0, [], by decide⟩,
   ⟨ticking, 5, 0, by decide⟩,
   ⟨ticking, 0, 1, by decide⟩,
   ⟨ticking.onHost (fun h => { h with ports := [{}, {}] }), 0, 1, by decide⟩⟩

theorem test_hypotheses_RegistersByAccess :
    (∃ (s : State) (a : Nat) (b : List (BitVec 8)), s.barAny = true ∧ (0x1000000 ≤ a ∧ a < 0x4000000)) ∧
    (∃ (s : State) (a : Nat) (b : List (BitVec 8)), (s.barAny = true ∧ s.start.warmRunning = true) ∧ (0x1000000 ≤ a ∧ a + b.length ≤ 0x4000000)) ∧
    (∃ (s : State) (a : Nat) (b : List (BitVec 8)), (s.barAny = true ∧ s.start.warmRunning = false) ∧ (0x1000000 ≤ a ∧ a < 0x4000000)) ∧
    (∃ (s : State) (w : Bool) (a : Nat) (b : List (BitVec 8)), (s.barAny = false ∨ a < 0x1000000 ∨ 0x4000000 ≤ a)) ∧
    (∃ (s : State) (t a : Nat) (b : List (BitVec 8)), (s.barAny = true ∧ s.start.warmRunning = false) ∧ s.start.state = .maintenance) ∧
    (∃ (s : State) (t a : Nat) (b : List (BitVec 8)), (s.barAny = true ∧ s.start.warmRunning = false) ∧ s.start.state ≠ .maintenance) ∧
    (∃ (s : State) (t a : Nat) (b : List (BitVec 8)), (s.barAny = false ∨ s.start.warmRunning = true)) :=
  ⟨⟨ticking, 0x1000000, [0, 0, 0, 0], by decide⟩,
   ⟨warmed, 0x1000000, [0, 0], by decide⟩,
   ⟨ticking, 0x1000000, [0, 0, 0, 0], by decide⟩,
   ⟨ticking, true, 0xFFFFFF, [0], by decide⟩,
   ⟨ticking.onStart (fun x => { x with state := .maintenance }), 5, 0, [0], by decide⟩,
   ⟨ticking, 5, 0, [0], by decide⟩,
   ⟨warmed, 5, 0, [0], by decide⟩⟩

theorem test_hypotheses_TimeAndPower_1 :
    (∃ (s u : State) (t : Nat), u = (if bit s.cfg.ivCtl.toNat 2 then (s.atTime t).onTick (fun k => { k with ppsStamp := k.iv, ppsSeen := true }) else s.atTime t) ∧ (s.start.state = .off ∨ bit s.cfg.ivCtl.toNat 3 = false ∨ s.tick.everServing = true ∨ (s.atTime t).tick.iv % 1000000000 = 0)) ∧
    (∃ (s u : State) (t : Nat), u = (if bit s.cfg.ivCtl.toNat 2 then (s.atTime t).onTick (fun k => { k with ppsStamp := k.iv, ppsSeen := true }) else s.atTime t) ∧ (s.start.state ≠ .off ∧ bit s.cfg.ivCtl.toNat 3 = true ∧ s.tick.everServing = false) ∧ (s.atTime t).tick.iv % 1000000000 ≠ 0) ∧
    (∃ (s : State) (t : Nat), refSel s ≠ 0) ∧
    (∃ (s : State) (t : Nat), refSel s = 0) ∧
    (∃ (s : State) (t w : Nat), (s.start.pwrGood = true ∧ min s.cfg.envelope 4200 < w) ∧ clustersAbove s = true) ∧
    (∃ (s : State) (t w : Nat), (s.start.pwrGood = true ∧ min s.cfg.envelope 4200 < w) ∧ clustersAbove s = false) ∧
    (∃ (s : State) (t w : Nat), (s.start.pwrGood = false ∨ w ≤ min s.cfg.envelope 4200)) ∧
    (∃ (s : State) (t : Nat), s.start.pwrGood = true) :=
  ⟨⟨ticking, ticking.atTime 5, 5, by decide⟩,
   ⟨ppsState, (ppsState.atTime 5).onTick (fun k => { k with ppsStamp := k.iv, ppsSeen := true }), 5, by decide⟩,
   ⟨ticking.onCfg (fun g => { g with ivCtl := 1 }), 5, by decide⟩,
   ⟨ticking, 5, by decide⟩,
   ⟨powered, 5, 3601, by decide⟩,
   ⟨powered.onPower (fun p => { p with clusterGov := List.replicate 16 800 }), 5, 3601, by decide⟩,
   ⟨powered, 5, 3600, by decide⟩,
   ⟨powered, 5, by decide⟩⟩

theorem test_hypotheses_TimeAndPower_2 :
    (∃ (s : State) (t c h : Nat), sensorOn s c = true ∧ alertAt s c ≤ h ∧ c ∉ s.power.alerts) ∧
    (∃ (s : State) (t c h : Nat), (h < alertAt s c ∨ c ∈ s.power.alerts)) ∧
    (∃ (s : State) (t c h : Nat), (sensorOn s c = true ∧ throttleAt s c ≤ h) ∧ isDram c = true) ∧
    (∃ (s : State) (t c h : Nat), (sensorOn s c = true ∧ throttleAt s c ≤ h) ∧ (isDram c = false ∧ c < 16)) ∧
    (∃ (s : State) (t c h : Nat), (sensorOn s c = true ∧ throttleAt s c ≤ h) ∧ (isDram c = false ∧ 16 ≤ c) ∧ hubDie c = true) ∧
    (∃ (s : State) (t c h : Nat), (sensorOn s c = true ∧ throttleAt s c ≤ h) ∧ (isDram c = false ∧ 16 ≤ c) ∧ hubDie c = false) ∧
    (∃ (s : State) (t c h : Nat), h < throttleAt s c) ∧
    (∃ (s : State) (t c h : Nat), (sensorOn s c = true ∧ tripAt s c ≤ h) ∧ s.start.state ≠ .safeHalt) :=
  ⟨⟨powered, 5, 0, 120, by decide⟩,
   ⟨powered, 5, 0, 20, by decide⟩,
   ⟨powered, 5, 40, 120, by decide⟩,
   ⟨powered, 5, 0, 120, by decide⟩,
   ⟨powered, 5, 16, 120, by decide⟩,
   ⟨powered, 5, 34, 120, by decide⟩,
   ⟨powered, 5, 0, 20, by decide⟩,
   ⟨powered, 5, 0, 130, by decide⟩⟩

theorem test_hypotheses_TimeAndPower_3 :
    (∃ (s : State) (t c h : Nat), (s.start.state = .safeHalt ∧ isDram c = true ∧ 105 ≤ h)) ∧
    (∃ (s : State) (t c h : Nat), h + 3 ≤ alertAt s c ∧ isDram c = true) ∧
    (∃ (s : State) (t c h : Nat), h + 3 ≤ alertAt s c ∧ isDram c = false) ∧
    (∃ (s : State) (t c h : Nat), alertAt s c < h + 3 ∧ h + 3 ≤ throttleAt s c ∧ isDram c = false) ∧
    (∃ (s : State) (t c h : Nat), alertAt s c < h + 3 ∧ h + 3 ≤ throttleAt s c ∧ isDram c = true) ∧
    (∃ (s : State) (t c h : Nat), throttleAt s c < h + 3) ∧
    (∃ (s u : State) (t w v a l d : Nat) (r : Readings), s.start.state ≠ .off ∧ u = ((s.atTime t).onPower (fun p => { p with msW := w % 65536, volts10mv := v % 65536, amps10ma := a % 65536, logicMax := l % 256, dramMax := d % 256, hotCode := r.hot % 64, energyMj := add64 p.energyMj (w % 65536), tickPowerSum := p.tickPowerSum + w % 65536, tickPowerN := p.tickPowerN + 1 })).onPlan (fun p => { p with readyPowerSum := p.readyPowerSum + w % 65536, readyPowerN := p.readyPowerN + 1, running := r.running, meters := p.meters ++ r.meters })) ∧
    (∃ (s : State) (t w v a l d : Nat) (r : Readings), s.start.state = .off) :=
  ⟨⟨powered.onStart (fun x => { x with state := .safeHalt }), 5, 40, 105, by decide⟩,
   ⟨powered, 5, 40, 85, by decide⟩,
   ⟨powered, 5, 3, 92, by decide⟩,
   ⟨powered, 5, 3, 97, by decide⟩,
   ⟨powered, 5, 40, 88, by decide⟩,
   ⟨powered, 5, 0, 98, by decide⟩,
   ⟨ticking, measured, 5, 3000, 4800, 6250, 60, 50, { hot := 3 }, by decide, rfl⟩,
   ⟨offState, 5, 3000, 4800, 6250, 60, 50, { hot := 3 }, by decide⟩⟩

theorem test_hypotheses_StartupAndResets_1 :
    (∃ (s : State) (m : Nat), (s.start.state = .off ∧ s.start.resetN = true)) ∧
    (∃ (s : State) (m : Nat), s.start.state ≠ .off) ∧
    (∃ (s : State) (t : Nat) (a b : FwRead), (s.start.state = .boot ∧ s.start.resetN = true ∧ s.start.firmwareOk = false ∧ s.faults.ctFailed.length ≠ 2) ∧ (fwVerified s a = false ∧ fwVerified s b = false)) ∧
    (∃ (s u : State) (t n : Nat) (a b f : FwRead) (x : Bool), (s.start.state = .boot ∧ s.start.resetN = true ∧ s.start.firmwareOk = false ∧ s.faults.ctFailed.length ≠ 2) ∧ (x = s.mb.bootB ∧ f = (if x then b else a)) ∧ fwVerified s f = true ∧ n = (if (fwImageOf f).raiseSvn then max s.start.fusedSvn (fwImageOf f).svn else s.start.fusedSvn) ∧ u = (s.atTime t).onMb (fun m => { m with imageA := { fwImageOf a with valid := fwVerified s a }, imageB := { fwImageOf b with valid := fwVerified s b } })) ∧
    (∃ (s u : State) (t n : Nat) (a b f : FwRead) (x : Bool), (s.start.state = .boot ∧ s.start.resetN = true ∧ s.start.firmwareOk = false ∧ s.faults.ctFailed.length ≠ 2) ∧ (x = !s.mb.bootB ∧ f = (if x then b else a)) ∧ (fwVerified s (if x then a else b) = false ∧ fwVerified s f = true) ∧ n = s.start.fusedSvn ∧ u = (s.atTime t).onMb (fun m => { m with imageA := { fwImageOf a with valid := fwVerified s a }, imageB := { fwImageOf b with valid := fwVerified s b } })) ∧
    (∃ (s : State) (t : Nat), (s.start.state = .boot ∧ s.start.pwrReq = true ∧ s.start.firmwareOk = true)) ∧
    (∃ (s : State) (t : Nat), (s.start.state = .boot ∧ s.start.firmwareOk = true ∧ s.start.pwrReq = true) ∧ s.start.pwrReqAt + 1000000000 ≤ t) ∧
    (∃ (s : State) (t : Nat), (s.start.state = .boot ∧ s.start.firmwareOk = true ∧ s.start.pwrReq = false) ∧ (s.start.pwrRetryAt ≠ 0 ∧ s.start.pwrRetryAt ≤ t)) :=
  ⟨⟨offState, 3, by decide⟩,
   ⟨ticking, 3, by decide⟩,
   ⟨State.reset, 5, {}, {}, by decide⟩,
   ⟨State.reset, fwSeen true false, 5, 0, goodFw, {}, goodFw, false, by decide, by decide, goodFw_ok, by decide, fwSeen_a⟩,
   ⟨State.reset, fwSeen false true, 5, 0, {}, goodFw, goodFw, true, by decide, by decide, ⟨by decide, goodFw_ok⟩, by decide, fwSeen_b⟩,
   ⟨verifiedBoot, 5, by decide⟩,
   ⟨verifiedBoot, 1000000000, by decide⟩,
   ⟨verifiedBoot.onStart (fun x => { x with pwrReq := false, pwrRetryAt := 3 }), 5, by decide⟩⟩

theorem test_hypotheses_StartupAndResets_2 :
    (∃ (s u : State) (t : Nat) (r : StageReport), (s.start.state = .train ∧ s.start.stage < 8 ∧ s.start.stage ≠ 4) ∧ u = ((s.atTime t).takeReport r).onStart (fun x => { x with derived := x.derived ++ derivedIn ((s.atTime t).takeReport r) r }) ∧ u.start.stage = s.start.stage) ∧
    (∃ (s u : State) (t : Nat) (r : StageReport), (s.start.state = .train ∧ s.start.stage = 4) ∧ u = ((s.atTime t).takeReport r).onStart (fun x => { x with derived := x.derived ++ derivedIn ((s.atTime t).takeReport r) r }) ∧ (u.start.stage = 4 ∧ ((u.trainPorts r).portsChanged).start.stage = 4)) ∧
    (∃ (s u : State) (t : Nat) (r : StageReport), (s.start.state = .train ∧ s.start.stage = 8) ∧ u = ((s.atTime t).takeReport r).onStart (fun x => { x with derived := x.derived ++ derivedIn ((s.atTime t).takeReport r) r }) ∧ u.start.stage = 8) ∧
    (∃ (s u : State) (t : Nat) (r : StageReport), (s.start.state = .boot ∧ s.start.resetN = true ∧ s.start.firmwareOk = false) ∧ u = (r.badDies.filter (fun c => c = 34 || c = 35)).foldl State.failsTest (s.atTime t)) ∧
    (∃ (s : State) (t : Nat) (r : StageReport), (s.start.state ≠ .train ∧ s.start.state ≠ .boot)) ∧
    (∃ (s : State) (t m : Nat), s.start.state ≠ .off) ∧
    (∃ (s : State) (t : Nat), (warmOpen s = true ∧ s.start.warmRunning = false) ∧ (s.tick.running = true ∧ s.tick.inCommit = true)) ∧
    (∃ (s : State) (t : Nat), (warmOpen s = true ∧ s.start.warmRunning = false) ∧ s.tick.inCommit = false) :=
  ⟨⟨stageState 2, stageSeen 2, 5, {}, by decide, rfl, by decide⟩,
   ⟨stageState 4, stageSeen 4, 5, {}, by decide, rfl, by decide⟩,
   ⟨stageState 8, stageSeen 8, 5, {}, by decide, rfl, by decide⟩,
   ⟨State.reset, State.reset.atTime 5, 5, {}, by decide, rfl⟩,
   ⟨ticking, 5, {}, by decide⟩,
   ⟨ticking, 5, 3, by decide⟩,
   ⟨win, 5, by decide⟩,
   ⟨ticking, 5, by decide⟩⟩

theorem test_hypotheses_StartupAndResets_3 :
    (∃ (s : State) (t : Nat) (ok : Bool), s.start.warmRunning = false) ∧
    (∃ (s u : State) (t n : Nat) (ok : Bool), s.start.warmRunning = true ∧ n = (t + 1000000 - s.tick.firstEdge + max 1 (s.tick.tickUs * 1000) - 1) / max 1 (s.tick.tickUs * 1000) ∧ (u = (((((((s.atTime t).onStart (fun x => { x with warmRunning := false, state := x.prior })).onTick (fun k => { k with firstEdge := k.firstEdge + n * max 1 (s.tick.tickUs * 1000), firstIndex := k.firstIndex + n, frozenCfg := if k.pendIndex ≠ 0 && k.pendIndex ≤ k.firstIndex + n then none else k.frozenCfg, pendIndex := if k.pendIndex = 0 then 0 else max (k.firstIndex + n) k.pendIndex })).refreshAll t).controlBack ok).resumeTier (s.tick.firstIndex + n)).reissueAll))) ∧
    (∃ (s : State) (t : Nat), s.start.pwrGood = true) ∧
    (∃ (s : State) (t : Nat), s.start.state ≠ .off) ∧
    (∃ (s : State) (t m : Nat) (h : Bool), s.start.state = .off) ∧
    (∃ (s : State) (t : Nat), (warmOpen s = false ∨ s.start.warmRunning = true)) ∧
    (∃ (s : State) (t : Nat), s.start.pwrGood = false) :=
  ⟨⟨ticking, 5, true, by decide⟩,
   ⟨warmed, warmedThen, 5, 1, true, by decide, by decide, rfl⟩,
   ⟨powered, 5, by decide⟩,
   ⟨ticking, 5, by decide⟩,
   ⟨offState, 5, 3, true, by decide⟩,
   ⟨warmed, 5, by decide⟩,
   ⟨State.reset, 5, by decide⟩⟩

theorem test_hypotheses_ControlAndSentinels_1 :
    (∃ (s : State) (t : Nat), (leaseLive s t = true ∧ s.faults.takeover = none ∧ s.start.state ≠ .off)) ∧
    (∃ (s : State) (t : Nat), (leaseLive s t = false ∨ s.faults.takeover.isSome = true)) ∧
    (∃ (s : State) (t : Nat), (leaseLive s t = true ∧ s.tick.running = true)) ∧
    (∃ (s : State) (t : Nat), (leaseLive s t = false ∨ s.tick.running = false)) ∧
    (∃ (s : State) (d n : Nat), s.faults.takeover = some d ∧ standbyDie s = some n ∧ (edgeSince s d = true ∧ (holderUp s = true ∨ s.faults.orphan = true))) ∧
    (∃ (s : State) (d : Nat), s.faults.takeover = some d ∧ edgeSince s d = false) ∧
    (∃ (s : State), (s.faults.takeover = none ∨ standbyDie s = none ∨ (holderUp s = false ∧ s.faults.orphan = false))) ∧
    (∃ (s : State) (d : Nat), s.faults.takeover = some d ∧ standbyDie s = none ∧ (edgeSince s d = true ∧ s.faults.orphan = false)) :=
  ⟨⟨ticking, 5, by decide⟩,
   ⟨ticking, 60000000, by decide⟩,
   ⟨ticking, 5, by decide⟩,
   ⟨serving, 5, by decide⟩,
   ⟨promotedState, 7, 1, by decide⟩,
   ⟨promotedState.onFaults (fun f => { f with takeover := some 1000000000 }), 1000000000, by decide⟩,
   ⟨ticking, by decide⟩,
   ⟨noStandby, 7, by decide⟩⟩

theorem test_hypotheses_ControlAndSentinels_2 :
    (∃ (s : State), (s.faults.takeover = none ∨ s.faults.orphan = true)) ∧
    (∃ (s : State) (t : Nat), leaseLive s t = true) ∧
    (∃ (s : State) (t : Nat), leaseLive s t = false) ∧
    (∃ (s : State) (t : Nat), (s.faults.leaseUntil ≤ t ∧ sentinelUp s (b2n (!s.faults.lease1)) = true)) ∧
    (∃ (s : State) (t : Nat), (s.faults.lease1 = true ∧ sentinelUp s 0 = true)) ∧
    (∃ (s : State) (i n : Nat), holderUp s = true) ∧
    (∃ (s : State) (i n : Nat), holderUp s = false) ∧
    (∃ (s : State) (t d : Nat), (d < 2 ∧ d ∈ s.faults.ctFailed ∧ 34 + d ∉ s.faults.rebooted) ∧ 34 + d ∉ isolatedDies s.store.failed) :=
  ⟨⟨ticking, by decide⟩,
   ⟨ticking, 5, by decide⟩,
   ⟨ticking, 60000000, by decide⟩,
   ⟨ticking, 60000000, by decide⟩,
   ⟨ticking.onFaults (fun f => { f with lease1 := true }), 5, by decide⟩,
   ⟨ticking, 1, 4, by decide⟩,
   ⟨offState, 1, 4, by decide⟩,
   ⟨ticking.onFaults (fun f => { f with ctFailed := [1] }), 5, 1, by decide⟩⟩

theorem test_hypotheses_ControlAndSentinels_3 :
    (∃ (s : State) (t d : Nat), (d < 2 ∧ d ∈ s.faults.svFailed ∧ 36 + d ∉ s.faults.rebooted) ∧ 36 + d ∉ isolatedDies s.store.failed) ∧
    (∃ (s : State) (t c : Nat), (c ∈ s.faults.rebooted ∨ c ∈ isolatedDies s.store.failed)) ∧
    (∃ (s : State) (t : Nat) (x : Snapshot), s.tel.frozen = some x) ∧
    (∃ (s : State) (t : Nat), s.tel.frozen = none) ∧
    (∃ (s : State) (t : Nat), (t < s.faults.leaseUntil ∨ sentinelUp s (b2n (!s.faults.lease1)) = false)) ∧
    (∃ (s : State) (t : Nat), (s.faults.lease1 = false ∨ sentinelUp s 0 = false)) :=
  ⟨⟨ticking.onFaults (fun f => { f with svFailed := [1] }), 5, 1, by decide⟩,
   ⟨ticking.onFaults (fun f => { f with rebooted := [34] }), 5, 34, by decide⟩,
   ⟨ticking.onTel (fun k => { k with frozen := some {} }), 5, {}, by decide⟩,
   ⟨ticking, 5, by decide⟩,
   ⟨ticking, 5, by decide⟩,
   ⟨ticking, 5, by decide⟩⟩

theorem test_hypotheses_DataFaultsAndSpares_1 :
    (∃ (s u : State) (t a n : Nat) (lost : Bool) (rs : List Nat), (stackBase 0 ≤ a ∧ (granuleOf a).1 < 16 ∧ (granuleOf a).2 < banksOf s.variant * 32768 ∧ (granuleOf a).1 ∉ s.faults.clFailed) ∧ u = ((((s.atTime t).onFaults (fun f => { f with lastUncorr := a % two64 })).countStack (granuleOf a).1 (fun c => { c with uncorrectable := inc64 c.uncorrectable })).onPlan (fun u => { u with attempts := markAttempts rs (fun a => { a with poisoned := true }) u.attempts }))) ∧
    (∃ (s u : State) (t a n : Nat) (k : UncorrKind) (lost : Bool) (rs : List Nat), (stackBase 0 ≤ a ∧ (granuleOf a).1 < 16 ∧ (granuleOf a).2 < banksOf s.variant * 32768 ∧ (granuleOf a).1 ∉ s.faults.clFailed) ∧ u = ((((s.atTime t).onFaults (fun f => { f with lastUncorr := a % two64 })).countStack (granuleOf a).1 (fun c => { c with uncorrectable := inc64 c.uncorrectable })).onPlan (fun u => { u with attempts := markAttempts rs (fun a => { a with poisoned := true }) u.attempts })) ∧ (k ≠ .ingot ∧ k ≠ .manager ∧ k ≠ .commitLog) ∧ s.tick.inCommit = false) ∧
    (∃ (s u : State) (t a n : Nat) (k : UncorrKind) (lost : Bool) (rs : List Nat), (stackBase 0 ≤ a ∧ (granuleOf a).1 < 16 ∧ (granuleOf a).2 < banksOf s.variant * 32768 ∧ (granuleOf a).1 ∉ s.faults.clFailed) ∧ u = ((((s.atTime t).onFaults (fun f => { f with lastUncorr := a % two64 })).countStack (granuleOf a).1 (fun c => { c with uncorrectable := inc64 c.uncorrectable })).onPlan (fun u => { u with attempts := markAttempts rs (fun a => { a with poisoned := true }) u.attempts })) ∧ (k ≠ .ingot ∧ k ≠ .manager ∧ k ≠ .commitLog) ∧ s.tick.inCommit = true) ∧
    (∃ (s : State) (t a n : Nat) (k : UncorrKind) (lost : Bool) (rs : List Nat), (a < stackBase 0 ∨ 16 ≤ (granuleOf a).1 ∨ banksOf s.variant * 32768 ≤ (granuleOf a).2 ∨ (granuleOf a).1 ∈ s.faults.clFailed)) ∧
    (∃ (s : State) (m cl g : Nat) (b : List (BitVec 8)), ((cl, g) ∈ (s.mslot m).poisoned ∧ (s.mslot m).state = .resident) ∧ (s.clusterUp cl = true ∧ s.tick.inCommit = true ∧ s.req.begun = false ∧ s.faults.orphan = false)) ∧
    (∃ (s u : State) (m cl g : Nat) (b : List (BitVec 8)), ((cl, g) ∈ (s.mslot m).poisoned ∧ (s.mslot m).state = .resident) ∧ (s.clusterUp cl = true ∧ s.tick.running = true ∧ s.tick.inCommit = false) ∧ u = (if 2 ≤ poisonings s cl g then s.useSpareRow cl (g / 32768) (g % 32768) else s).putBytes (granAddr cl g 0) b) ∧
    (∃ (s : State) (m cl g : Nat) (ok : Bool) (b : List (BitVec 8)), ((cl, g) ∉ (s.mslot m).poisoned ∨ s.clusterUp cl = false)) ∧
    (∃ (s : State) (m : Nat), s.tick.inCommit = true ∧ ((s.mslot m).state = .broken ∧ (s.mslot m).brokenAt + 200 ≤ s.tick.index)) :=
  ⟨⟨ticking, uncorrNoted, 5, stackBase 0, 0, true, [], by decide, rfl⟩,
   ⟨ticking, uncorrNoted, 5, stackBase 0, 0, .draft, true, [], by decide, rfl, by decide, by decide⟩,
   ⟨win, uncorrIn, 5, stackBase 0, 0, .draft, true, [], by decide, rfl, by decide, by decide⟩,
   ⟨ticking, 5, 0, 0, .page, true, [], by decide⟩,
   ⟨win.onModels (fun m => { m with slots := [(0, { state := .resident, poisoned := [(0, 3)] })] }), 0, 0, 3, [], by decide⟩,
   ⟨repairing, repairWritten, 0, 0, 3, [1], by decide, by decide, rfl⟩,
   ⟨win, 0, 0, 3, true, [], by decide⟩,
   ⟨(win.onTick (fun k => { k with index := 200 })).onModels (fun m => { m with slots := [(0, { state := .broken })] }), 0, by decide⟩⟩

theorem test_hypotheses_DataFaultsAndSpares_2 :
    (∃ (s : State) (m : Nat), ((s.mslot m).state ≠ .broken ∨ s.tick.index < (s.mslot m).brokenAt + 200)) ∧
    (∃ (s : State) (st b r : Nat), s.faults.orphan = false ∧ bankInUse s st b = true) ∧
    (∃ (s : State) (st b n : Nat), s.faults.orphan = false ∧ (bankInUse s st b = true ∧ n < 2) ∧ (s.faults.spareBanks = [] ∧ s.faults.bankSwaps = [])) ∧
    (∃ (s : State) (st l : Nat), s.faults.orphan = false ∧ (bankInUse s st 0 = true ∧ l < 4608 ∧ s.tick.inCommit = true)) ∧
    (∃ (s : State) (t st b : Nat), s.faults.orphan = false ∧ (bankInUse s st b = true ∧ (st, b) ∉ s.faults.retiredBanks)) ∧
    (∃ (s : State), s.faults.remapDue = none) ∧
    (∃ (s : State) (map : List Nat), s.faults.remapDue = some map) ∧
    (∃ (s : State) (map : List Nat), s.faults.remapDue = some map ∧ s.faults.clsToPlace = []) :=
  ⟨⟨win, 0, by decide⟩,
   ⟨sparingOn, 0, 0, 5, by decide⟩,
   ⟨sparingOn, 0, 0, 1, by decide⟩,
   ⟨win, 0, 70, by decide⟩,
   ⟨sparingOn, 5, 0, 7, by decide⟩,
   ⟨ticking, by decide⟩,
   ⟨ticking.onFaults (fun f => { f with remapDue := some [], clsToPlace := [3] }), [], by decide⟩,
   ⟨ticking.onFaults (fun f => { f with remapDue := some [] }), [], by decide⟩⟩

end Sys2Proof.Tests
end

section
/-! PROOFS. What ALLOY_LOAD, ALLOY_GEN_RESIDENT and ALLOY_RETIRE do to the generations of an Alloy (R6, R297 to R300): an equation for each
command, and the forms of each derived from it. -/

namespace Sys2Proof.Laws

open Sys2Proof Sys2Proof.Machine

theorem hasAlloy_iff (v : Variant) : hasAlloy v = true ↔ v ≠ .cb := by cases v <;> decide

@[simp] theorem genRefs_begin (s : State) (id gen : Nat) : genRefs s.begin id gen = genRefs s id gen := rfl
@[simp] theorem genLive_begin (s : State) (id gen : Nat) : genLive s.begin id gen = genLive s id gen := rfl

/-! ## ALLOY_LOAD -/

/-- A further generation may be loaded: fewer than two live, or the older neither LOADING nor referenced (R298). -/
def olderYields (s : State) (id : Nat) : Bool :=
  decide ((liveGens s id).length < 2) || match (liveGens s id).head? with
    | none => true
    | some g => g.state ≠ .loading && genRefs s id g.gen = 0

/-- The state in which a new generation of an id is placed: with two live ones, the older has been freed (R298). -/
def olderFreed (s : State) (id : Nat) : State :=
  if (liveGens s id).length < 2 then s
  else match (liveGens s id).head? with
    | none => s
    | some g => s.freeGen id g.gen none St.cancelled

/-- The image of the slot that an ALLOY_LOAD names takes Alloys, and no generation of its id is on another slot (R298). -/
def slotTakes (s : State) (c : MbCommand) : Bool :=
  (s.mslot (cf c 2 1)).info.alloyShapes && (liveGens s (cf c 0 2)).all (fun g => g.modelSlot = cf c 2 1)

theorem slotTakes_eq_false {s : State} {c : MbCommand} (h : (s.mslot (cf c 2 1)).info.alloyShapes = false ∨
    (liveGens s (cf c 0 2)).all (fun g => g.modelSlot = cf c 2 1) = false) : slotTakes s c = false :=
  Bool.and_eq_false_iff.2 h

theorem slotTakes_eq_true {s : State} {c : MbCommand} (ha : (s.mslot (cf c 2 1)).info.alloyShapes = true)
    (hl : (liveGens s (cf c 0 2)).all (fun g => g.modelSlot = cf c 2 1) = true) : slotTakes s c = true :=
  Bool.and_eq_true_iff.2 ⟨ha, hl⟩

/-- The checks of ALLOY_LOAD that come before its factors are placed, in the model's order. -/
def alloyChecks (s : State) (c : MbCommand) : Except Nat Unit := do
  need (hasAlloy s.variant) St.unsupportedUnit
  need (cf c 0 2 < 4096 && cf c 2 1 < 16) St.badArgument
  need ((s.mslot (cf c 2 1)).state = .resident) St.modelNotResident
  need (slotTakes s c) St.badArgument
  need (olderYields s (cf c 0 2)) St.busyGeneration
  need (imgPlaced s (cf c 8 8) 256) St.badAddress

/-- The factors of an image fit under the ceiling of each stack and in the free granules of tier 1 (R299). -/
def factorsFit (u : State) (i : ModelInfo) (b : List Byte) : Bool :=
  alloyFits u (factorsPer u i b) && sumN (factorsPer u i b) ≤ u.tier.t1Free

theorem factorsFit_iff {u : State} {i : ModelInfo} {b : List Byte} :
    factorsFit u i b = true ↔ alloyFits u (factorsPer u i b) = true ∧ sumN (factorsPer u i b) ≤ u.tier.t1Free := by
  simp [factorsFit]

theorem factorsFit_eq_false {u : State} {i : ModelInfo} {b : List Byte} :
    factorsFit u i b = false ↔ alloyFits u (factorsPer u i b) = false ∨ u.tier.t1Free < sumN (factorsPer u i b) := by
  rw [← Bool.not_eq_true, factorsFit_iff, not_and_or, Bool.not_eq_true, Nat.not_le]

/-- A load that is accepted: its generation joins the live ones, LOADING, its granules are taken and its transfer begins (R298, R299). -/
def startAlloy (u : State) (c : MbCommand) (i : ModelInfo) (b : List Byte) (g : AlloyGen) : State :=
  ((((u.draw).onModels (fun m => { m with gens := m.gens ++ [g], accepted := m.accepted + 1 })).onTier (fun t =>
    { t with t1Free := t.t1Free - g.granules })).beginMove 2 (g.gen * 4096 + cf c 0 2) 0 0 (alloyLength i b)).setCmd
      { c with phase := 1, aux := g.gen * 4096 + cf c 0 2 }

/-- The part of ALLOY_LOAD that follows its checks: the factors are placed in the state u, or the load is refused for want of room. -/
def placeAlloy (s u : State) (c : MbCommand) (i : ModelInfo) (b : List Byte) : Except Nat State :=
  if !factorsFit u i b then .ok (s.refuse.complete c St.noSpace [])
  else
    match placeFactors u i b with
    | none => .ok (s.refuse.complete c St.noSpace [])
    | some q => .ok (startAlloy u c i b (newGen u (cf c 0 2) (cf c 2 1) (cf c 8 8) b q))

theorem placeAlloy_placed {u : State} {i : ModelInfo} {b : List Byte} {q : List (Nat × Nat × Nat × Nat × Nat)} (s : State) (c : MbCommand)
    (hf : factorsFit u i b = true) (hq : placeFactors u i b = some q) :
    placeAlloy s u c i b = .ok (startAlloy u c i b (newGen u (cf c 0 2) (cf c 2 1) (cf c 8 8) b q)) := by
  simp [placeAlloy, hf, hq]

theorem placeAlloy_noSpace {u : State} {i : ModelInfo} {b : List Byte} (s : State) (c : MbCommand)
    (h : factorsFit u i b = false ∨ placeFactors u i b = none) :
    placeAlloy s u c i b = .ok (s.refuse.complete c St.noSpace []) := by
  unfold placeAlloy
  split
  · rfl
  · next hf =>
    have hq := h.resolve_left (by simpa using hf)
    simp [hq]

/-- That the window's events have begun concerns no check. -/
theorem alloyChecks_begin (s : State) (c : MbCommand) : alloyChecks s.begin c = alloyChecks s c := rfl

theorem exec_alloyLoad_eq (mb : Nat) (r : AlloyRead) (s : State) : exec (.alloyLoad mb r) s = execAlloyLoad mb r s := rfl

/-- ALLOY_LOAD is its checks, then its placement with an older generation freed. -/
theorem execAlloyLoad_eq (mb : Nat) (r : AlloyRead) (s : State) :
    execAlloyLoad mb r s = .next (runL s mb 0x75 (fun c s =>
      alloyChecks s c >>= fun _ => placeAlloy s (olderFreed s (cf c 0 2)) c (s.mslot (cf c 2 1)).info r.image)) := by
  simp only [alloyChecks, bind_assoc]
  rfl

section
variable {s : State} {mb : Nat} {c : MbCommand} (r : AlloyRead)

/-- A load that fails a check completes with its status: nothing is freed or placed (R357). -/
theorem exec_alloyLoad_refused (h : Due s mb 0x75 c) {e : Nat} (he : alloyChecks s c = .error e) :
    exec (.alloyLoad mb r) s = .next (s.begin.complete c e []) := by
  obtain ⟨hc, hu, ht⟩ := h
  rw [exec_alloyLoad_eq, execAlloyLoad_eq, runL_fresh _ hc hu ht, alloyChecks_begin, he]
  rfl

/-- A load that passes the checks is placed, or completes for want of room. -/
theorem exec_alloyLoad_passed (h : Due s mb 0x75 c) (hok : alloyChecks s c = .ok ()) {t : State}
    (ht : placeAlloy s.begin (olderFreed s.begin (cf c 0 2)) c (s.mslot (cf c 2 1)).info r.image = .ok t) :
    exec (.alloyLoad mb r) s = .next t := by
  obtain ⟨hc, hu, hd⟩ := h
  rw [exec_alloyLoad_eq, execAlloyLoad_eq, runL_fresh _ hc hu hd, alloyChecks_begin, hok, mslot_begin, ok_bind, ht]

end

/-! ### What the older generation allows -/

theorem olderYields_of_few {s : State} {id : Nat} (h : (liveGens s id).length < 2) : olderYields s id = true := by
  simp [olderYields, h]

theorem olderYields_of_two {s : State} {id : Nat} {g : AlloyGen} (h : 2 ≤ (liveGens s id).length) (hg : (liveGens s id).head? = some g) :
    olderYields s id = (g.state ≠ .loading && genRefs s id g.gen = 0) := by
  simp [olderYields, hg, Nat.not_lt.2 h]

/-- The test as the statement puts it: an older generation there, neither LOADING nor referenced. -/
theorem olderYields_of_any {s : State} {id : Nat}
    (h : (liveGens s id).length < 2 ∨ (liveGens s id).head?.any (fun g => g.state ≠ .loading && genRefs s id g.gen = 0) = true) :
    olderYields s id = true := by
  rcases h with h | h
  · exact olderYields_of_few h
  · obtain ⟨g, hg, hy⟩ := (Option.any_eq_true _ _).1 h
    simpa [olderYields, hg] using Or.inr hy

theorem olderFreed_of_few {s : State} {id : Nat} (h : (liveGens s id).length < 2) : olderFreed s id = s := if_pos h

theorem olderFreed_of_two {s : State} {id : Nat} {g : AlloyGen} (h : 2 ≤ (liveGens s id).length) (hg : (liveGens s id).head? = some g) :
    olderFreed s id = s.freeGen id g.gen none St.cancelled := by
  simp [olderFreed, hg, Nat.not_lt.2 h]

/-! ### The outcome of the checks -/

section
variable {s : State} {c : MbCommand}

theorem alloyChecks_noUnits (hv : s.variant = .cb) : alloyChecks s c = .error St.unsupportedUnit := by
  simp [alloyChecks, hv, hasAlloy]

variable (hv : s.variant ≠ .cb)
include hv

theorem alloyChecks_outOfRange (h : 4096 ≤ cf c 0 2 ∨ 16 ≤ cf c 2 1) : alloyChecks s c = .error St.badArgument := by
  have hr : (decide (cf c 0 2 < 4096) && decide (cf c 2 1 < 16)) = false := by
    rw [Bool.and_eq_false_iff, decide_eq_false_iff_not, decide_eq_false_iff_not]; omega
  simp only [alloyChecks, (hasAlloy_iff _).2 hv, hr, need_true, need_false, ok_bind, error_bind]

variable (hr : cf c 0 2 < 4096 ∧ cf c 2 1 < 16)
include hr

theorem alloyChecks_notResident (hm : (s.mslot (cf c 2 1)).state ≠ .resident) : alloyChecks s c = .error St.modelNotResident := by
  simp [alloyChecks, (hasAlloy_iff _).2 hv, hr, hm]

variable (hm : (s.mslot (cf c 2 1)).state = .resident)
include hm

theorem alloyChecks_notTaken (ht : slotTakes s c = false) : alloyChecks s c = .error St.badArgument := by
  simp [alloyChecks, (hasAlloy_iff _).2 hv, hr, hm, ht]

variable (ht : slotTakes s c = true)
include ht

theorem alloyChecks_olderHeld (ho : olderYields s (cf c 0 2) = false) : alloyChecks s c = .error St.busyGeneration := by
  simp [alloyChecks, (hasAlloy_iff _).2 hv, hr, hm, ht, ho]

variable (ho : olderYields s (cf c 0 2) = true)
include ho

theorem alloyChecks_outOfPlace (hp : imgPlaced s (cf c 8 8) 256 = false) : alloyChecks s c = .error St.badAddress := by
  simp [alloyChecks, (hasAlloy_iff _).2 hv, hr, hm, ht, ho, hp]

theorem alloyChecks_pass (hp : imgPlaced s (cf c 8 8) 256 = true) : alloyChecks s c = .ok () := by
  simp [alloyChecks, (hasAlloy_iff _).2 hv, hr, hm, ht, ho, hp]

end

/-! ## ALLOY_GEN_RESIDENT -/

theorem exec_alloyGenResident_eq (id gen : Nat) (r : AlloyRead) (s : State) :
    exec (.alloyGenResident id gen r) s = execAlloyGenResident id gen r s := rfl

/-- A generation whose image has passed: its transfer has ended, its factors are written, and it is RESIDENT with its header's fields (R298). -/
def madeResident (s : State) (id gen : Nat) (r : AlloyRead) (g : AlloyGen) : State :=
  let i := (s.mslot g.modelSlot).info
  (((s.endMove 2 (gen * 4096 + id)).translateTier g.addr (alloyLength i r.image)).onMem (placePieces (factorPieces i g r.image))).onModels
    (fun m => { m with
      gens := m.gens.map (fun (x : AlloyGen) => if x.id = id && x.gen = gen then residentGen g i r.image else x), lastGen := noteGen g m.lastGen })

/-- ALLOY_GEN_RESIDENT of a generation that is there: nothing before its instant, then freed with the status of a check that fails, or RESIDENT. -/
theorem exec_alloyGenResident_found {s : State} {id gen : Nat} {g : AlloyGen} (r : AlloyRead)
    (hg : s.models.gens.find? (fun g => g.id = id && g.gen = gen) = some g) :
    exec (.alloyGenResident id gen r) s = .next (
      if !(settlesLong s && s.sceolUp && g.state = .loading && (r.fail || moveDone s 2 (gen * 4096 + id))) then s
      else if alloyStatus s (s.mslot g.modelSlot).info g.addr r ≠ St.ok then
        s.freeGen id gen none (alloyStatus s (s.mslot g.modelSlot).info g.addr r)
      else match alloyCmd s id gen with
        | none => madeResident s id gen r g
        | some c => (madeResident s id gen r g).complete c St.ok (leBytes 1 gen)) := by
  rw [exec_alloyGenResident_eq, execAlloyGenResident, hg]
  rfl

section
variable {s : State} {id gen : Nat} {r : AlloyRead} {g : AlloyGen} (hg : s.models.gens.find? (fun g => g.id = id && g.gen = gen) = some g)
  (hw : settlesLong s = true ∧ s.sceolUp = true) (hl : g.state = .loading)
include hg hw hl

/-- A load whose transfer has ended, or failed, and whose image does not pass is undone with the status (R298). -/
theorem exec_alloyGenResident_fails (hd : r.fail = true ∨ moveDone s 2 (gen * 4096 + id) = true)
    (hst : alloyStatus s (s.mslot g.modelSlot).info g.addr r ≠ St.ok) :
    exec (.alloyGenResident id gen r) s = .next (s.freeGen id gen none (alloyStatus s (s.mslot g.modelSlot).info g.addr r)) := by
  rw [exec_alloyGenResident_found r hg, if_neg (by rcases hd with hd | hd <;> simp [hw, hl, hd]), if_pos hst]

/-- A load that has been served and whose image passes is RESIDENT, and its ALLOY_LOAD, where it is still outstanding, completes (R298). -/
theorem exec_alloyGenResident_passes (hd : moveDone s 2 (gen * 4096 + id) = true)
    (hst : alloyStatus s (s.mslot g.modelSlot).info g.addr r = St.ok) :
    exec (.alloyGenResident id gen r) s = .next (match alloyCmd s id gen with
      | none => madeResident s id gen r g
      | some c => (madeResident s id gen r g).complete c St.ok (leBytes 1 gen)) := by
  rw [exec_alloyGenResident_found r hg, if_neg (by simp [hw, hl, hd]), if_neg (not_not.2 hst)]

end

/-! ## ALLOY_RETIRE -/

theorem exec_alloyRetire_eq (mb : Nat) (s : State) : exec (.alloyRetire mb) s = execAlloyRetire mb s := rfl

/-- ALLOY_RETIRE in its turn: refused, or the generation freed, or left RETIRING for the requests bound to it (R6, R300). -/
theorem exec_alloyRetire_due {s : State} {mb : Nat} {c : MbCommand} (h : Due s mb 0x76 c) :
    exec (.alloyRetire mb) s = .next (
      if s.variant = .cb then s.begin.complete c St.unsupportedUnit []
      else if genLive s (cf c 0 2) (cf c 2 1) = false then s.begin.complete c St.notFound []
      else if genRefs s (cf c 0 2) (cf c 2 1) = 0 then (s.begin.freeGen (cf c 0 2) (cf c 2 1) none St.cancelled).complete c St.ok []
      else (s.begin.onModels (fun m => { m with gens := m.gens.map (fun (g : AlloyGen) =>
        if g.id = cf c 0 2 && g.gen = cf c 2 1 then { g with state := .retiring } else g) })).complete c St.ok []) := by
  obtain ⟨hc, hu, ht⟩ := h
  rw [exec_alloyRetire_eq, execAlloyRetire, runT_due _ hc hu ht]
  by_cases hv : s.variant = .cb
  · simp [hv, hasAlloy]
  by_cases hl : genLive s (cf c 0 2) (cf c 2 1) = true
  · by_cases hr : genRefs s (cf c 0 2) (cf c 2 1) = 0 <;> simp [hv, (hasAlloy_iff _).2 hv, hl, hr]
  · simp [hv, (hasAlloy_iff _).2 hv, hl]

/-! ## The obligation -/

/-- Settles O31: each form of the three commands is one outcome of its equation. -/
theorem alloyGenerations : Obligations.AlloyGenerations := by
  unfold Obligations.AlloyGenerations
  refine ⟨?_, ?_, ?_, ?_, ?_, ?_, ?_, ?_, ?_, ?_, ?_, ?_, ?_, ?_, ?_, ?_⟩
  · intro s mb c r h hv
    exact exec_alloyLoad_refused r h (alloyChecks_noUnits hv)
  · intro s mb c r h hv hr
    exact exec_alloyLoad_refused r h (alloyChecks_outOfRange hv hr)
  · intro s mb c r h hv hr hm
    exact exec_alloyLoad_refused r h (alloyChecks_notResident hv hr hm)
  · intro s mb c r h hv hr hm ht
    exact exec_alloyLoad_refused r h (alloyChecks_notTaken hv hr hm (slotTakes_eq_false ht))
  · rintro s mb c r i g h hv hr hm ⟨rfl, ha, hl⟩ ⟨h2, hg⟩ hb
    have ho : olderYields s (cf c 0 2) = false := by
      rw [olderYields_of_two h2 hg]
      rcases hb with hb | hb <;> simp [hb]
    exact exec_alloyLoad_refused r h (alloyChecks_olderHeld hv hr hm (slotTakes_eq_true ha hl) ho)
  · rintro s u mb c r i h hv hr hm ⟨rfl, ha, hl⟩ ho hp
    exact exec_alloyLoad_refused r h (alloyChecks_outOfPlace hv hr hm (slotTakes_eq_true ha hl) (olderYields_of_any ho) hp)
  · rintro s u mb c r i q g h hv hr hm ⟨rfl, ha, hl⟩ hn rfl hp hf hle hq rfl
    refine exec_alloyLoad_passed r h (alloyChecks_pass hv hr hm (slotTakes_eq_true ha hl) (olderYields_of_few hn) hp) ?_
    rw [olderFreed_of_few (s := s.begin) hn]
    exact placeAlloy_placed _ c (factorsFit_iff.2 ⟨hf, hle⟩) hq
  · rintro s u mb c r i q g o h hv hr hm ⟨rfl, ha, hl⟩ ⟨h2, ho⟩ ⟨hs, hb⟩ rfl hp hf hle hq rfl
    have hy : olderYields s (cf c 0 2) = true := by simp [olderYields_of_two h2 ho, hs, hb]
    refine exec_alloyLoad_passed r h (alloyChecks_pass hv hr hm (slotTakes_eq_true ha hl) hy hp) ?_
    rw [olderFreed_of_two (s := s.begin) h2 ho]
    exact placeAlloy_placed _ c (factorsFit_iff.2 ⟨hf, hle⟩) hq
  · rintro s u mb c r i h hv hr hm ⟨rfl, ha, hl⟩ hn rfl hp hx
    refine exec_alloyLoad_passed r h (alloyChecks_pass hv hr hm (slotTakes_eq_true ha hl) (olderYields_of_few hn) hp) ?_
    rw [olderFreed_of_few (s := s.begin) hn]
    exact placeAlloy_noSpace _ c (hx.imp_left factorsFit_eq_false.2)
  · intro s id gen r g hg hw hd hl hst hc
    rw [exec_alloyGenResident_passes hg hw hl hd hst, hc]
    rfl
  · intro s id gen r g c hg hw hd hl hst hc
    rw [exec_alloyGenResident_passes hg hw hl hd hst, hc]
    rfl
  · intro s id gen r g hg hw hd hl hst
    exact exec_alloyGenResident_fails hg hw hl hd hst
  · intro s mb c h hv
    rw [exec_alloyRetire_due h, if_pos hv]
  · intro s mb c h hv hl hr
    rw [exec_alloyRetire_due h, if_neg hv, if_neg (by simp [hl]), if_pos hr]
  · intro s mb c h hv hl hr
    rw [exec_alloyRetire_due h, if_neg hv, if_neg (by simp [hl]), if_neg hr]
  · intro s mb c h hv hl
    rw [exec_alloyRetire_due h, if_neg hv, if_pos hl]

end Sys2Proof.Laws
end

section
/-! PROOFS. POWER_CONFIG and when the envelope it sets comes in force (R24, R44). -/

namespace Sys2Proof.Laws

open Sys2Proof Sys2Proof.Machine

/-! ## POWER_CONFIG -/

/-- A value that the envelope may take: a multiple of 25 W from 2,000 W to 4,200 W (R24). -/
def envelopeOk (w : Nat) : Bool := w % 25 = 0 && inRange w 2000 4200

theorem envelopeOk_iff {w : Nat} : envelopeOk w = true ↔ w % 25 = 0 ∧ 2000 ≤ w ∧ w ≤ 4200 := by
  simp [envelopeOk, inRange]

/-- POWER_CONFIG in its turn: the envelope of the next configuration is set, or the command is refused. -/
theorem exec_powerConfig_asked {s : State} {mb : Nat} {c : MbCommand} (h : Asked s mb 0x05 c) :
    exec (.powerConfig mb) s = .next (
      if envelopeOk (cf c 0 2) then (s.onCfgNext (fun g => { g with envelope := cf c 0 2 })).complete c St.ok []
      else s.complete c St.badArgument []) := by
  obtain ⟨hc, hu, ht⟩ := h
  have hrun : exec (.powerConfig mb) s = .next (answer s c (do
      need (envelopeOk (cf c 0 2)) St.badArgument
      .ok (s.onCfgNext (fun g => { g with envelope := cf c 0 2 }), []))) :=
    congrArg Host.Outcome.next (runI_asked _ hc hu ht)
  rw [hrun]
  split
  · next hok => rw [need_of hok, ok_bind, answer_ok]
  · next hok => rw [need_not (Bool.not_eq_true _ ▸ hok), error_bind, answer_error]

/-! ## The configuration in force from commit-open -/

/-- The configuration that the commands have set comes in force; what follows in applyConfig leaves it alone (R44). -/
theorem applyConfig_cfg (s : State) : s.applyConfig.cfg = s.cfgNext := by
  have hgrid : Grid (s.serveTier.onCfg (fun _ => s.cfgNext)) s.applyConfig := by
    unfold State.applyConfig
    refine onModels_g _ ?_
    have hhost (u : State) (hu : Grid (s.serveTier.onCfg (fun _ => s.cfgNext)) u) :
        Grid (s.serveTier.onCfg (fun _ => s.cfgNext)) ((List.range 2).foldl (fun t p => if bit t.regs.hxCtl.toNat p then t else t.declareDown p) u) :=
      grid_foldl (fun t p ht => by split; exacts [ht, declareDown_g t p ht]) hu
    split
    · exact hhost _ (onPlan_g _ (rekey_g _ _ (Grid.refl _)))
    · exact grid_foldl (fun t p ht => portFalls_g t p.1 _ ht) (hhost _ (onPlan_g _ (rekey_g _ _ (Grid.refl _))))
  exact hgrid.cfg

@[simp] theorem freezeTick_cfg (s : State) : s.freezeTick.cfg = s.cfg := by
  unfold State.freezeTick
  split <;> rfl

/-- What leaves the configuration alone once it is in force keeps the one that the commands had set. -/
theorem cfg_of_grid_applyConfig {t u : State} (h : Grid t.applyConfig.freezeTick u) : u.cfg = t.cfgNext := by
  rw [h.cfg, freezeTick_cfg, applyConfig_cfg]

/-- From commit-open the configuration in force is the one that completed commands have set: nothing before applyConfig changes the
latter, and nothing after it the former (R44). -/
theorem openCommit_cfg (s : State) : s.openCommit.cfg = s.cfgNext := by
  unfold State.openCommit
  dsimp only
  refine (cfg_of_grid_applyConfig
    (endClosedShips_g _ (sendShardPlans_g _ (prefetch_g _ (planFirst_g _ (checkIncoming_g _ (takeMgmts_g _ _
      (retryGroups_g _ (publishAll_g _ (noteIdle_g _ _ (updateCorr_g _ _ (countFaults_g _
        (settleOpen_g _ (takeEarlyCosts_g _ (chargeRows_g _ (countTrees_g _ (castVotes_g _ (closeLost_g _
          (takeFreeCredits_g _ (rebindPorts_g _ (trimLog_g _ (takeFreeMgmts_g _ (endFailed_g _
            (settleTicks_g _ (applyFetched_g _ (applyLosses_g _ (failLateLoads_g _
              (Grid.refl _)))))))))))))))))))))))))))).trans ?_
  refine (onTier_g _ (measureStopped_g _ _ (dropStaging_g _ (stopKernels_g _ (Grid.refl _))))).cfgNext.trans ?_
  exact (beginWindows_g _ (Grid.refl _)).cfgNext

/-- COMMIT_OPEN between an edge and its commit window opens the window. -/
theorem exec_commitOpen_running {s : State} (hr : s.tick.running = true) (hc : s.tick.inCommit = false) :
    exec .commitOpen s = .next s.openCommit := by
  change Host.Outcome.next (if s.tick.running && !s.tick.inCommit then s.openCommit else s) = _
  rw [if_pos (by simp [hr, hc])]

/-- Settles O15: the two outcomes of POWER_CONFIG, the envelope at reset, and the configuration at commit-open. -/
theorem powerEnvelope : Obligations.PowerEnvelope := by
  unfold Obligations.PowerEnvelope
  refine ⟨?_, ?_, ⟨rfl, rfl⟩, ?_⟩
  · intro s mb c h hok
    rw [exec_powerConfig_asked h, if_pos (envelopeOk_iff.2 hok)]
  · intro s mb c h hbad
    rw [exec_powerConfig_asked h, if_neg (mt envelopeOk_iff.1 hbad)]
  · intro s hr hc
    exact ⟨s.openCommit, exec_commitOpen_running hr hc, congrArg Settings.envelope (openCommit_cfg s)⟩

end Sys2Proof.Laws
end

section
/-! PROOFS. What the references, the governor, the current and thermal protection and the measurements do (R25, R28, R29, R414, R422, R426,
R427, R432): an equation for each command, its conditions read in the state before it (that Invar advances first concerns only where a PPS
edge falls), and each form derived from it. -/

namespace Sys2Proof.Laws

open Sys2Proof Sys2Proof.Machine

/-! ## References (R28, R29) -/

/-- A rising PPS edge is stamped while pps_en is set. -/
def stampPps (s : State) : State :=
  if bit s.cfg.ivCtl.toNat 2 then s.onTick (fun k => { k with ppsStamp := k.iv, ppsSeen := true }) else s

@[simp] theorem stampPps_cfg (s : State) : (stampPps s).cfg = s.cfg := by unfold stampPps; split <;> rfl
@[simp] theorem stampPps_start (s : State) : (stampPps s).start = s.start := by unfold stampPps; split <;> rfl
@[simp] theorem stampPps_iv (s : State) : (stampPps s).tick.iv = s.tick.iv := by unfold stampPps; split <;> rfl
@[simp] theorem stampPps_everServing (s : State) : (stampPps s).tick.everServing = s.tick.everServing := by unfold stampPps; split <;> rfl

/-- Invar steps to a whole number of seconds that the spec leaves free. -/
def snapInvar (s : State) : State :=
  (s.onTick (fun k => { k with iv := Config.ppsSecond s.freeCtr % 18446744073 * 1000000000 })).draw

/-- PPS_EDGE stamps the edge; with pps_snap, before SERVING is first entered, an edge off a whole second snaps Invar. -/
theorem exec_ppsEdge (s : State) (t : Nat) :
    exec (.ppsEdge t) s = .next (
      if s.start.state ≠ .off && bit s.cfg.ivCtl.toNat 3 && !s.tick.everServing && (s.atTime t).tick.iv % 1000000000 ≠ 0 then
        snapInvar (stampPps (s.atTime t))
      else stampPps (s.atTime t)) := by
  have h : exec (.ppsEdge t) s = .next (
      if (stampPps (s.atTime t)).start.state ≠ .off && bit (stampPps (s.atTime t)).cfg.ivCtl.toNat 3 &&
          !(stampPps (s.atTime t)).tick.everServing && (stampPps (s.atTime t)).tick.iv % 1000000000 ≠ 0 then
        snapInvar (stampPps (s.atTime t))
      else stampPps (s.atTime t)) := rfl
  rw [h, stampPps_start, stampPps_cfg, stampPps_everServing, stampPps_iv]
  rfl

theorem exec_referenceLost (s : State) (t : Nat) :
    exec (.referenceLost t) s = .next (
      if refSel s = 0 then s.atTime t
      else (s.atTime t).onTick (fun k => { k with refLost := true, holdover := true, locked := false })) := rfl

theorem exec_referenceRestored (s : State) (t : Nat) :
    exec (.referenceRestored t) s = .next (
      if refSel s = 0 then s.atTime t else (s.atTime t).onTick (fun k => { k with holdover := false, locked := true })) := rfl

/-! ## Governor and current (R25, R422) -/

/-- The domains that the governor steps down: the clusters', and once they all stand at half the nominal, the hub's. -/
def governed (s : State) : State :=
  if clustersAbove s then s.onPower (fun p => { p with clusterGov := p.clusterGov.map (stepDown 1600) })
  else s.onPower (fun p => { p with hubGov := stepDown 2000 p.hubGov })

theorem exec_governorStepDown (s : State) (t w : Nat) :
    exec (.governorStepDown t w) s = .next (
      if s.start.pwrGood && min s.cfg.envelope 4200 < w then
        (governed (s.atTime t)).countStep (fun c => { c with governorSteps := inc64 c.governorSteps })
      else s.atTime t) := rfl

theorem exec_overcurrentStep (s : State) (t : Nat) :
    exec (.overcurrentStep t) s = .next (
      if s.start.pwrGood then (s.atTime t).onPower (fun p => { p with clusterGov := List.replicate 16 800, hubGov := 1000 })
      else s.atTime t) := rfl

theorem exec_overcurrentHalt (s : State) (t : Nat) :
    exec (.overcurrentHalt t) s = .next (if s.start.pwrGood then (s.atTime t).trip else s.atTime t) := rfl

/-! ## Thresholds (Table 19-6, R414, R426 to R428) -/

/-- A sensor alerts no later than it throttles. -/
theorem alertAt_le_throttleAt (s : State) (c : Nat) : alertAt s c ≤ throttleAt s c := by
  unfold alertAt throttleAt threshold
  split <;> split <;> decide

theorem exec_thermalAlert (s : State) (t c h : Nat) :
    exec (.thermalAlert t c h) s = .next (
      if sensorOn s c && alertAt s c ≤ h && !s.power.alerts.contains c then
        ((((s.atTime t).onPower (fun p => { p with alerts := p.alerts ++ [c] })).noteAlert).count (fun c => { c with alerts := inc64 c.alerts })).postEvent
          St.thermalAlert c h
      else s.atTime t) := rfl

/-- A logic die above its throttle threshold is held there. -/
def heldHot (s : State) (c : Nat) : State := s.onPower (fun p => { p with thermHold := setAdd c p.thermHold })

/-- The domain of a logic die that is held steps down: a cluster's own, the hub's, or none (R427). -/
def stepDomain (s : State) (c : Nat) : State :=
  if c < 16 then
    s.onPower (fun p => { p with
      clusterTherm := p.clusterTherm.set c (stepDown 1600 (min (nth s.power.clusterGov c 1600) (nth s.power.clusterTherm c 1600))) })
  else if hubDie c then s.onPower (fun p => { p with hubTherm := stepDown 2000 (min p.hubGov p.hubTherm) })
  else s

theorem exec_thermalThrottleStep (s : State) (t c h : Nat) :
    exec (.thermalThrottleStep t c h) s = .next (
      if !(sensorOn s c && throttleAt s c ≤ h) then s.atTime t
      else if isDram c then (s.atTime t).onPower (fun p => { p with dramThrottle := setAdd (c - 40) p.dramThrottle })
      else stepDomain (heldHot (s.atTime t) c) c) := rfl

/-- At its throttle threshold a logic die is held and its domain steps down. -/
theorem exec_thermalThrottleStep_die {s : State} {c h : Nat} (t : Nat) (hh : sensorOn s c = true ∧ throttleAt s c ≤ h) (hd : isDram c = false) :
    exec (.thermalThrottleStep t c h) s = .next (stepDomain (heldHot (s.atTime t) c) c) := by
  rw [exec_thermalThrottleStep, if_neg (by simp [hh]), if_neg (by simp [hd])]

theorem exec_thermalTrip (s : State) (t c h : Nat) :
    exec (.thermalTrip t c h) s = .next (
      if sensorOn s c && s.start.state ≠ .safeHalt && tripAt s c ≤ h then
        ((s.atTime t).onPower (fun p => { p with tripCode := c, tripTemp := h % 256 })).trip
      else s.atTime t) := rfl

theorem exec_dramOvertempPowerOff (s : State) (t c h : Nat) :
    exec (.dramOvertempPowerOff t c h) s = .next (
      if s.start.state = .safeHalt && isDram c && 105 ≤ h then
        ((s.atTime t).onStart (fun x => { x with pwrReq := false })).onMem (fun m => m.clear (stackBase 0) 0x10000000000)
      else s.atTime t) := rfl

/-- A sensor that leaves its throttle threshold: its stack streams freely again, or its die is held no more. -/
def throttleLeft (s : State) (c : Nat) : State :=
  s.onPower (fun p =>
    if isDram c then { p with dramThrottle := setDel (c - 40) p.dramThrottle } else { p with thermHold := setDel c p.thermHold })

theorem throttleLeft_dram {s : State} {c : Nat} (hd : isDram c = true) :
    throttleLeft s c = s.onPower (fun p => { p with dramThrottle := setDel (c - 40) p.dramThrottle }) := by
  simp only [throttleLeft, hd, if_true]

theorem throttleLeft_die {s : State} {c : Nat} (hd : isDram c = false) :
    throttleLeft s c = s.onPower (fun p => { p with thermHold := setDel c p.thermHold }) := by
  simp only [throttleLeft, hd, Bool.false_eq_true, if_false]

/-- A sensor that leaves its alert threshold: the pin follows the alerts that remain. -/
def alertLeft (s : State) (c : Nat) : State := (s.onPower (fun p => { p with alerts := setDel c p.alerts })).noteAlert

/-- Three degrees below its alert threshold a sensor leaves both thresholds, three below its throttle threshold that one alone. -/
theorem exec_thermalThresholdLeft (s : State) (t c h : Nat) :
    exec (.thermalThresholdLeft t c h) s = .next (
      if h + 3 ≤ alertAt s c then alertLeft (throttleLeft (s.atTime t) c) c
      else if h + 3 ≤ throttleAt s c then throttleLeft (s.atTime t) c
      else s.atTime t) := by
  have hexec : exec (.thermalThresholdLeft t c h) s =
      let u := if h + 3 ≤ throttleAt s c then throttleLeft (s.atTime t) c else s.atTime t
      .next (if h + 3 ≤ alertAt u c then alertLeft u c else u) := rfl
  rw [hexec]
  by_cases ht : h + 3 ≤ throttleAt s c
  · rw [if_pos ht]
    rfl
  · have ha : ¬ h + 3 ≤ alertAt s c := fun ha => ht (ha.trans (alertAt_le_throttleAt s c))
    rw [if_neg ht, if_neg ha]
    exact congrArg Host.Outcome.next (if_neg ha)

/-! ## The obligation -/

/-- Settles O57: each clause is one outcome of its command's equation. -/
theorem timeAndPower : Obligations.TimeAndPower := by
  unfold Obligations.TimeAndPower
  refine ⟨?ppsStamps, ?ppsSnaps, ?refSelected, ?oscillator, ?governClusters, ?governHub, ?governNone, ?overcurrent, ?alert, ?alertNone,
    ?throttleDram, ?throttleCluster, ?throttleHub, ?throttleOther, ?throttleNone, ?trip, ?powerOff, ?leftBothDram, ?leftBothDie, ?leftDie,
    ?leftDram, ?leftNone, ?measured, ?measuredOff⟩
  case ppsStamps =>
    rintro s u t rfl h
    rw [exec_ppsEdge, if_neg (by rcases h with h | h | h | h <;> simp [h, -tick_atTime])]
    rfl
  case ppsSnaps =>
    rintro s u t rfl ⟨ho, hb, he⟩ hn
    rw [exec_ppsEdge, if_pos (by simp [ho, hb, he, hn, -tick_atTime])]
    rfl
  case refSelected =>
    intro s t h
    rw [exec_referenceLost, if_neg h, exec_referenceRestored, if_neg h]
    exact ⟨rfl, rfl⟩
  case oscillator =>
    intro s t h
    rw [exec_referenceLost, if_pos h, exec_referenceRestored, if_pos h]
    exact ⟨rfl, rfl⟩
  case governClusters =>
    intro s t w h hc
    rw [exec_governorStepDown, if_pos (by simp [h]), governed, clustersAbove_atTime, if_pos hc]
  case governHub =>
    intro s t w h hc
    rw [exec_governorStepDown, if_pos (by simp [h]), governed, clustersAbove_atTime, if_neg (by simp [hc])]
  case governNone =>
    intro s t w h
    rw [exec_governorStepDown, if_neg (by simpa [or_iff_not_imp_left] using h)]
  case overcurrent =>
    intro s t h
    rw [exec_overcurrentStep, if_pos h, exec_overcurrentHalt, if_pos h]
    exact ⟨rfl, rfl⟩
  case alert =>
    intro s t c h hs ha hc
    rw [exec_thermalAlert, if_pos (by simp [hs, ha, hc])]
  case alertNone =>
    intro s t c h hn
    rw [exec_thermalAlert, if_neg (by rcases hn with hn | hn <;> simp [hn])]
  case throttleDram =>
    intro s t c h hh hd
    rw [exec_thermalThrottleStep, if_neg (by simp [hh]), if_pos hd]
  case throttleCluster =>
    rintro s t c h hh ⟨hd, hc⟩
    rw [exec_thermalThrottleStep_die t hh hd, stepDomain, if_pos hc]
    rfl
  case throttleHub =>
    intro s t c h hh ⟨hd, hc⟩ hb
    rw [exec_thermalThrottleStep_die t hh hd, stepDomain, if_neg hc.not_gt, if_pos hb]
    rfl
  case throttleOther =>
    intro s t c h hh ⟨hd, hc⟩ hb
    rw [exec_thermalThrottleStep_die t hh hd, stepDomain, if_neg hc.not_gt, if_neg (by simp [hb])]
    rfl
  case throttleNone =>
    intro s t c h hn
    rw [exec_thermalThrottleStep, if_pos (by simp [hn])]
  case trip =>
    rintro s t c h ⟨hs, ha⟩ ho
    rw [exec_thermalTrip, if_pos (by simp [hs, ha, ho])]
  case powerOff =>
    intro s t c h hh
    rw [exec_dramOvertempPowerOff, if_pos (by simp [hh])]
  case leftBothDram =>
    intro s t c h ha hd
    rw [exec_thermalThresholdLeft, if_pos ha, throttleLeft_dram hd]
    rfl
  case leftBothDie =>
    intro s t c h ha hd
    rw [exec_thermalThresholdLeft, if_pos ha, throttleLeft_die hd]
    rfl
  case leftDie =>
    intro s t c h ha ht hd
    rw [exec_thermalThresholdLeft, if_neg ha.not_ge, if_pos ht, throttleLeft_die hd]
  case leftDram =>
    intro s t c h ha ht hd
    rw [exec_thermalThresholdLeft, if_neg ha.not_ge, if_pos ht, throttleLeft_dram hd]
  case leftNone =>
    intro s t c h ht
    have ha : alertAt s c < h + 3 := (alertAt_le_throttleAt s c).trans_lt ht
    rw [exec_thermalThresholdLeft, if_neg ha.not_ge, if_neg ht.not_ge]
  case measured =>
    rintro s u t w v a l d r ho rfl
    exact congrArg Host.Outcome.next (if_neg ho)
  case measuredOff =>
    intro s t w v a l d r ho
    exact congrArg Host.Outcome.next (if_pos ho)

end Sys2Proof.Laws
end

section
/-! PROOFS. What COMMIT_OPEN and TICK_EDGE do to the tick grid and to the configuration in force (R31, R33, R44): an equation for each
command, and the state in which the grid last changes, from which the rest of the command's work leaves it alone (Laws/Grid). -/

namespace Sys2Proof.Laws

open Sys2Proof Sys2Proof.Machine

/-! ## COMMIT_OPEN -/

theorem exec_commitOpen (s : State) : exec .commitOpen s = .next (if s.tick.running && !s.tick.inCommit then s.openCommit else s) := rfl

/-- Putting the configuration in force changes that alone of the grid (R44). -/
theorem applyConfig_grid (s : State) : Grid (s.onCfg (fun _ => s.cfgNext)) s.applyConfig := by
  have hserved : Grid (s.onCfg (fun _ => s.cfgNext)) (s.serveTier.onCfg (fun _ => s.cfgNext)) :=
    { serveTier_g s (Grid.refl s) with cfg := rfl }
  have hhost (u : State) (hu : Grid (s.onCfg (fun _ => s.cfgNext)) u) :
      Grid (s.onCfg (fun _ => s.cfgNext)) ((List.range 2).foldl (fun t p => if bit t.regs.hxCtl.toNat p then t else t.declareDown p) u) :=
    grid_foldl (fun t p ht => by split; exacts [ht, declareDown_g t p ht]) hu
  unfold State.applyConfig
  refine onModels_g _ ?_
  split
  · exact hhost _ (onPlan_g _ (rekey_g _ _ hserved))
  · exact grid_foldl (fun t p ht => portFalls_g t p.1 _ ht) (hhost _ (onPlan_g _ (rekey_g _ _ hserved)))

/-- Freezing T and C sets those that the next tick takes, and nothing else (R53). -/
theorem freezeTick_eq (s : State) :
    s.freezeTick = s.onTick (fun k => { k with
      frozenCfg := if s.tick.pendIndex ≠ 0 && s.tick.pendIndex ≤ s.tick.index + 1 then k.pendCfg else k.frozenCfg }) := by
  unfold State.freezeTick
  split <;> rfl

/-- COMMIT_OPEN opens the window, and later puts the configuration in force and freezes T and C; the rest of its work leaves the grid and
the configuration alone. -/
theorem openCommit_grid (s : State) :
    ∃ u, Grid (s.onTick (fun k => { k with iv := max k.iv k.commitOpenAt, inCommit := true })) u ∧ Grid u.applyConfig.freezeTick s.openCommit := by
  unfold State.openCommit
  dsimp only
  refine ⟨_, ?_, endClosedShips_g _ (sendShardPlans_g _ (prefetch_g _ (planFirst_g _ (checkIncoming_g _ (takeMgmts_g _ _
      (retryGroups_g _ (publishAll_g _ (noteIdle_g _ _ (updateCorr_g _ _ (countFaults_g _
        (settleOpen_g _ (takeEarlyCosts_g _ (chargeRows_g _ (countTrees_g _ (castVotes_g _ (closeLost_g _
          (takeFreeCredits_g _ (rebindPorts_g _ (trimLog_g _ (takeFreeMgmts_g _ (endFailed_g _
            (settleTicks_g _ (applyFetched_g _ (applyLosses_g _ (failLateLoads_g _
              (Grid.refl _))))))))))))))))))))))))))⟩
  refine onTier_g _ (measureStopped_g _ _ (dropStaging_g _ (stopKernels_g _ (onReq_g _ (onPlan_g _ ?_)))))
  exact { beginWindows_g _ (onPlan_g _ (Grid.refl s)) with inCommit := rfl }

/-- Settles O8: the grid of the window is that of the execute window but for the window itself, and the configuration is the one set. -/
theorem commitOpenOpensWindow : Obligations.CommitOpenOpensWindow := by
  unfold Obligations.CommitOpenOpensWindow
  refine ⟨?_, ?_⟩
  · intro s hr hc
    obtain ⟨u, hu, ht⟩ := openCommit_grid s
    have ha := applyConfig_grid u
    rw [freezeTick_eq] at ht
    refine ⟨s.openCommit, exec_commitOpen_running hr hc, ?_, ?_, ?_, ?_, ?_, openCommit_cfg s, ?_⟩
    · exact ht.inCommit.trans (ha.inCommit.trans hu.inCommit)
    · exact (ht.running.trans (ha.running.trans hu.running)).trans hr
    · exact ht.index.trans (ha.index.trans hu.index)
    · exact ht.edge.trans (ha.edge.trans hu.edge)
    · exact ht.tickUs.trans (ha.tickUs.trans hu.tickUs)
    · exact ht.cfgNext.trans (ha.cfgNext.trans hu.cfgNext)
  · intro s h
    rw [exec_commitOpen, if_neg (by simp [h])]

/-! ## TICK_EDGE -/

theorem exec_tickEdge_running {s : State} (hr : s.tick.running = true) :
    exec .tickEdge s = .next (if s.tick.inCommit then s.edge else s) := by
  change Host.Outcome.next (if s.tick.running then _ else _) = _
  rw [if_pos hr]

/-- With no tick in progress, the state from which TICK_EDGE starts the first one (R33). -/
def resumed (s : State) : State := ((s.onTick (fun k => { k with gapTo := k.firstEdge })).switchMap.switchBanks).raiseClocks

theorem exec_tickEdge_first {s : State} (hr : s.tick.running = false) (ho : ticksOpen s = true) :
    exec .tickEdge s = .next ((resumed s).startTick s.tick.firstIndex s.tick.firstEdge (nextLengths s s.tick.firstIndex).1
      (nextLengths s s.tick.firstIndex).2) := by
  change Host.Outcome.next (if s.tick.running then _ else if ticksOpen s then _ else s) = _
  rw [if_neg (by simp [hr]), if_pos ho]
  rfl

/-- The grid that tick n starts with: its edge, T and C, and the o_k that these give (R31, R33). -/
def Starts (n edge T C : Nat) (t : State) : Prop :=
  t.tick.running = true ∧ t.tick.index = n ∧ t.tick.edge = edge ∧ t.tick.inCommit = false ∧ (t.tick.tickUs, t.tick.commitUs) = (T, C) ∧
    t.tick.commitOpenAt = edge + T * 1000 - C * 1000

/-- A tick that starts has that grid. -/
theorem startTick_starts (s : State) (n edge T C : Nat) : Starts n edge T C (s.startTick n edge T C) := by
  have h : Grid (s.onTick (fun k => { k with
      iv := max k.iv edge, index := n, edge := edge, tickUs := T, commitUs := C, commitOpenAt := edge + T * 1000 - C * 1000
      running := true, inCommit := false, votingOpen := false, votes := [], named := [], frozenCfg := none, firstEdge := 0
      pendCfg := if k.pendIndex ≤ n then none else k.pendCfg, pendIndex := if k.pendIndex ≤ n then 0 else k.pendIndex }))
      (s.startTick n edge T C) := by
    unfold State.startTick
    dsimp only
    exact sendSync_g _ (noteSyncs_g _ (touchModels_g _ (touchGroups_g _ (grid_foldl (fun t row ht => modReq_g _ _ _ ht) (onMb_g _ (allMcl_g _ _
      (onTier_g _ (onStore_g _ (dropReserved_g _ _ (onPlan_g _ (Grid.refl _)))))))))))
  exact ⟨h.running, h.index, h.edge, h.inCommit, congrArg₂ Prod.mk h.tickUs h.commitUs, h.openAt⟩

/-- That Invar has come to an instant concerns no part of the grid. -/
theorem maxIv_g {s0 s : State} (m : Nat) (h : Grid s0 s) : Grid s0 (s.onTick (fun k => { k with iv := max k.iv m })) :=
  onTick_g _ rfl rfl rfl rfl rfl rfl rfl rfl h

/-- The state at an edge once the commit window has ended and the next plan stands (R38). -/
def planned (s : State) : State := ((s.closeWindow.switchStore).onTick (fun k => { k with iv := max k.iv s.nextEdge })).planFinal

/-- The state at an edge once the tick that ends there has been counted and its snapshot taken (R79, R435). -/
def tickEnded (s : State) : State :=
  ((((((planned s).freeClosing.noteTierEvents.noteTick).freeze (planned s).tick.index (planned s).nextEdge).onReq (fun u =>
    { u with edgeTable := u.table })).clearPerTick).switchMap.switchBanks).raiseClocks

/-- The next tick starts at the end of the one in progress, unless a warm reset takes effect there (R33, R376). -/
theorem edge_eq (s : State) :
    s.edge = if (tickEnded s).start.warmPending then (tickEnded s).warmAtEdge
      else (tickEnded s).startTick ((planned s).tick.index + 1) (tickEnded s).nextEdge (nextLengths (tickEnded s) ((planned s).tick.index + 1)).1
        (nextLengths (tickEnded s) ((planned s).tick.index + 1)).2 := by
  unfold State.edge tickEnded planned
  dsimp only

theorem planned_grid (s : State) : Grid s (planned s) := by
  unfold planned
  exact planFinal_g _ (maxIv_g _ (switchStore_g _ (closeWindow_g _ (Grid.refl s))))

theorem tickEnded_grid (s : State) : Grid s (tickEnded s) :=
  raiseClocks_g _ (switchBanks_g _ (switchMap_g _ (clearPerTick_g _ (onReq_g _ (freeze_g _ _ _ (noteTick_g _ (noteTierEvents_g _ (freeClosing_g _
    (planned_grid s)))))))))

/-- While a tick runs, the next one has the lengths frozen with its inputs (R53). -/
theorem nextLengths_running {s : State} (hr : s.tick.running = true) (n : Nat) :
    nextLengths s n = s.tick.frozenCfg.getD (s.tick.tickUs, s.tick.commitUs) := by
  simp [nextLengths, hr]

/-- The edge that ends tick k, with no warm reset pending, starts tick k+1 at t_k + T with the lengths frozen (R31, R33, R53). -/
theorem edge_starts {s : State} (hr : s.tick.running = true) (hw : s.start.warmPending = false) :
    Starts (s.tick.index + 1) (s.tick.edge + s.tick.tickUs * 1000) (s.tick.frozenCfg.getD (s.tick.tickUs, s.tick.commitUs)).1
      (s.tick.frozenCfg.getD (s.tick.tickUs, s.tick.commitUs)).2 s.edge := by
  have h := tickEnded_grid s
  have hlen (n : Nat) : nextLengths (tickEnded s) n = s.tick.frozenCfg.getD (s.tick.tickUs, s.tick.commitUs) := by
    rw [nextLengths_running (h.running.trans hr), h.frozen, h.tickUs, h.commitUs]
  have hedge : (tickEnded s).nextEdge = s.tick.edge + s.tick.tickUs * 1000 := by rw [State.nextEdge, h.edge, h.tickUs]
  rw [edge_eq, if_neg (by simp [h.warm, hw]), hlen, hedge, (planned_grid s).index]
  exact startTick_starts ..

/-- Settles O7: the next tick, and the first one after a reset, start with the grid of the statement. -/
theorem tickEdgeStartsNextTick : Obligations.TickEdgeStartsNextTick := by
  unfold Obligations.TickEdgeStartsNextTick
  refine ⟨?_, ?_, ?_⟩
  · intro s hr hc hw
    obtain ⟨hrun, hidx, hedge, hin, hlen, hopen⟩ := edge_starts hr hw
    refine ⟨s.edge, by rw [exec_tickEdge_running hr, if_pos hc], hrun, hidx, hedge, hin, hlen, ?_⟩
    obtain ⟨hT, hC⟩ := Prod.mk.inj hlen
    rw [hopen, hedge, hT, hC]
  · intro s hr ho
    obtain ⟨hrun, hidx, hedge, hin, hlen, hopen⟩ := startTick_starts (resumed s) s.tick.firstIndex s.tick.firstEdge
      (nextLengths s s.tick.firstIndex).1 (nextLengths s s.tick.firstIndex).2
    refine ⟨_, exec_tickEdge_first hr ho, hrun, hidx, hedge, hin, hlen, ?_⟩
    obtain ⟨hT, hC⟩ := Prod.mk.inj hlen
    rw [hopen, hedge, hT, hC]
  · intro s hr hc
    rw [exec_tickEdge_running hr, if_neg (by simp [hc])]

end Sys2Proof.Laws
end

section
/-! PROOFS. TICK_CONFIG: its checks in their order, what it sets, and each form derived from them (R44, R52, R53). -/

namespace Sys2Proof.Laws

open Sys2Proof Sys2Proof.Machine

/-- T and C lie in their ranges (R52). -/
theorem tickOk_iff {t c : Nat} : tickOk t c = true ↔ 1000 ≤ t ∧ t ≤ 50000 ∧ 100 ≤ c ∧ c ≤ t / 4 := by
  simp [tickOk, inRange, and_assoc]

/-- The checks of TICK_CONFIG, in the model's order. -/
def tickChecks (s : State) (c : MbCommand) : Except Nat Unit := do
  need (!s.tick.inGroup || s.tick.isMaster) St.groupManaged
  need (!bit (cf c 5 1) 0 || tickOk (cf c 0 2) (cf c 2 2)) St.badArgument
  need (!bit (cf c 5 1) 1 || cf c 4 1 % 4 ≠ 3) St.badArgument
  need (if s.tick.inGroup && bit (cf c 5 1) 0 then s.tick.index + 3 ≤ cf c 8 8 else cf c 8 8 = 0) St.badArgument

/-- The tick that new values of T and C first apply to: the one named in a group, else the next whose inputs are frozen; 0 where none are set. -/
def tickFrom (s : State) (c : MbCommand) : Nat :=
  if !bit (cf c 5 1) 0 then 0 else if s.tick.inGroup then cf c 8 8 else firstTick s

/-- New values of T and C, where the command selects them. -/
def lengthsSet (s : State) (c : MbCommand) : State :=
  if bit (cf c 5 1) 0 then s.pendLengths (cf c 0 2) (cf c 2 2) (tickFrom s c) else s

/-- A new value of IV_CTL, where the command selects it. -/
def ivCtlSet (s : State) (c : MbCommand) : State :=
  if bit (cf c 5 1) 1 then s.onCfgNext (fun g => { g with ivCtl := BitVec.ofNat 32 (cf c 4 1 % 16) }) else s

/-- TICK_CONFIG in its turn is its checks, then what it selects. -/
theorem exec_tickConfig_asked {s : State} {mb : Nat} {c : MbCommand} (h : Asked s mb 0x10 c) :
    exec (.tickConfig mb) s = .next (answer s c (tickChecks s c >>= fun _ => .ok (ivCtlSet (lengthsSet s c) c, leBytes 8 (tickFrom s c)))) := by
  obtain ⟨hc, hu, ht⟩ := h
  simp only [tickChecks, bind_assoc]
  exact congrArg Host.Outcome.next (runI_asked _ hc hu ht)

section
variable {s : State} {mb : Nat} {c : MbCommand}

theorem exec_tickConfig_refused (h : Asked s mb 0x10 c) {e : Nat} (he : tickChecks s c = .error e) :
    exec (.tickConfig mb) s = .next (s.complete c e []) := by
  rw [exec_tickConfig_asked h, he, error_bind, answer_error]

theorem exec_tickConfig_passed (h : Asked s mb 0x10 c) (hok : tickChecks s c = .ok ()) :
    exec (.tickConfig mb) s = .next ((ivCtlSet (lengthsSet s c) c).complete c St.ok (leBytes 8 (tickFrom s c))) := by
  rw [exec_tickConfig_asked h, hok, ok_bind, answer_ok]

/-! ### The checks -/

theorem tickChecks_managed (hg : s.tick.inGroup = true) (hm : s.tick.isMaster = false) : tickChecks s c = .error St.groupManaged := by
  simp [tickChecks, hg, hm]

theorem tickChecks_outOfRange (hg : (s.tick.inGroup && !s.tick.isMaster) = false) (hb : bit (cf c 5 1) 0 = true)
    (hr : ¬(1000 ≤ cf c 0 2 ∧ cf c 0 2 ≤ 50000 ∧ 100 ≤ cf c 2 2 ∧ cf c 2 2 ≤ cf c 0 2 / 4)) : tickChecks s c = .error St.badArgument := by
  have hg' : (!s.tick.inGroup || s.tick.isMaster) = true := by simpa [or_iff_not_imp_left] using hg
  have hr' : tickOk (cf c 0 2) (cf c 2 2) = false := by rw [← Bool.not_eq_true, tickOk_iff]; exact hr
  simp only [tickChecks, hg', need_true, ok_bind, hb, hr', Bool.not_true, Bool.or_self, need_false, error_bind]

/-- The checks pass where each of the four does. -/
theorem tickChecks_pass (hg : (s.tick.inGroup && !s.tick.isMaster) = false)
    (hr : bit (cf c 5 1) 0 = true → 1000 ≤ cf c 0 2 ∧ cf c 0 2 ≤ 50000 ∧ 100 ≤ cf c 2 2 ∧ cf c 2 2 ≤ cf c 0 2 / 4)
    (hi : bit (cf c 5 1) 1 = true → cf c 4 1 % 4 ≠ 3)
    (hx : (if s.tick.inGroup && bit (cf c 5 1) 0 then decide (s.tick.index + 3 ≤ cf c 8 8) else decide (cf c 8 8 = 0)) = true) :
    tickChecks s c = .ok () := by
  have h1 : (!s.tick.inGroup || s.tick.isMaster) = true := by simpa [or_iff_not_imp_left] using hg
  have h2 : (!bit (cf c 5 1) 0 || tickOk (cf c 0 2) (cf c 2 2)) = true := by
    cases hb : bit (cf c 5 1) 0
    · rfl
    · exact tickOk_iff.2 (hr hb)
  have h3 : (!bit (cf c 5 1) 1 || decide (cf c 4 1 % 4 ≠ 3)) = true := by
    cases hb : bit (cf c 5 1) 1
    · rfl
    · exact decide_eq_true (hi hb)
  simp only [tickChecks, need_of h1, need_of h2, need_of h3, need_of hx, ok_bind]

end

/-! ### What is set -/

theorem onTick_congr {s : State} {f g : TickUnit → TickUnit} (h : f s.tick = g s.tick) : s.onTick f = s.onTick g :=
  congrArg (fun k => { s with tick := k }) h

/-- T and C are pending from a tick on; what a reset carried over to the tick at which ticks resume is frozen for it (R33, R53). -/
theorem pendLengths_eq (s : State) (t c first : Nat) :
    s.pendLengths t c first = s.onTick (fun k => { k with
      frozenCfg := if s.tick.running = false ∧ s.tick.pendIndex ≠ 0 ∧ s.tick.pendIndex ≤ s.tick.firstIndex then s.tick.pendCfg else s.tick.frozenCfg,
      pendCfg := some (t, c), pendIndex := first }) := by
  unfold State.pendLengths
  refine onTick_congr ?_
  simp [and_assoc]

theorem firstTick_idle {s : State} (h : s.tick.running = false) : firstTick s = s.tick.firstIndex + 1 := by
  simp [firstTick, h]

theorem firstTick_running {s : State} (h : s.tick.running = true) :
    firstTick s = if s.tick.inCommit = true ∨ s.tick.commitOpenAt ≤ s.tick.iv then s.tick.index + 2 else s.tick.index + 1 := by
  simp only [firstTick, h, Bool.not_true, Bool.false_eq_true, if_false, Bool.or_eq_true, decide_eq_true_eq]
  rfl

section
variable {s : State} {mb : Nat} {c : MbCommand} (h : Asked s mb 0x10 c)
include h

/-- Where T and C are selected, alone or with IV_CTL, and every check passes, they are pending from a tick on. -/
theorem exec_tickConfig_lengths {n : Nat} (hf : bit (cf c 5 1) 0 = true) (hok : tickChecks s c = .ok ())
    (hn : (if s.tick.inGroup then cf c 8 8 else firstTick s) = n) :
    exec (.tickConfig mb) s = .next ((ivCtlSet (s.pendLengths (cf c 0 2) (cf c 2 2) n) c).complete c St.ok (leBytes 8 n)) := by
  have hfrom : tickFrom s c = n := by rw [tickFrom, if_neg (by simp [hf]), hn]
  rw [exec_tickConfig_passed h hok, lengthsSet, hfrom, if_pos hf]

/-- The same for a command that selects T and C alone. -/
theorem exec_tickConfig_lengthsAlone {n : Nat} (hf : cf c 5 1 = 1) (hok : tickChecks s c = .ok ())
    (hn : (if s.tick.inGroup then cf c 8 8 else firstTick s) = n) :
    exec (.tickConfig mb) s = .next ((s.pendLengths (cf c 0 2) (cf c 2 2) n).complete c St.ok (leBytes 8 n)) := by
  rw [exec_tickConfig_lengths h (by rw [hf]; decide) hok hn, ivCtlSet, hf, if_neg (by decide)]

end

/-- T and C alone pass the checks outside a group with no index, and at a master with one at least 3 after the tick in progress. -/
theorem tickChecks_lengthsAlone {s : State} {c : MbCommand} (hg : (s.tick.inGroup && !s.tick.isMaster) = false) (hf : cf c 5 1 = 1)
    (hr : 1000 ≤ cf c 0 2 ∧ cf c 0 2 ≤ 50000 ∧ 100 ≤ cf c 2 2 ∧ cf c 2 2 ≤ cf c 0 2 / 4)
    (hx : if s.tick.inGroup then s.tick.index + 3 ≤ cf c 8 8 else cf c 8 8 = 0) : tickChecks s c = .ok () := by
  refine tickChecks_pass hg (fun _ => hr) (by rw [hf]; intro h; exact absurd h (by decide)) ?_
  rw [hf]
  cases hi : s.tick.inGroup <;> simpa [hi, show bit 1 0 = true by decide] using hx

/-! ## The obligations -/

/-- Settles O17: the checks refuse values out of range, the pending values leave those in force, and the lengths at reset. -/
theorem tickLengthRange : Obligations.TickLengthRange := by
  unfold Obligations.TickLengthRange
  refine ⟨?_, ?_, rfl, rfl⟩
  · intro s mb c h hg hb hr
    exact exec_tickConfig_refused h (tickChecks_outOfRange hg hb hr)
  · intro s mb c h hg hf hr hx
    have hok : tickChecks s c = .ok () := tickChecks_lengthsAlone (by simp [hg]) hf hr (by simpa [hg] using hx)
    exact ⟨_, _, exec_tickConfig_lengthsAlone h hf hok rfl, rfl, rfl, rfl⟩

/-- Settles O18: each form of TICK_CONFIG is what its selection sets, and the next tick whose inputs are frozen. -/
theorem tickConfigSetsLengths : Obligations.TickConfigSetsLengths := by
  unfold Obligations.TickConfigSetsLengths
  refine ⟨?managed, ?alone, ?master, ?ivCtl, ?both, fun _ => firstTick_idle, fun _ => firstTick_running⟩
  case managed =>
    intro s mb c h hg hm
    exact exec_tickConfig_refused h (tickChecks_managed hg hm)
  case alone =>
    intro s mb c h hg hf hr hx
    have hok : tickChecks s c = .ok () := tickChecks_lengthsAlone (by simp [hg]) hf hr (by simpa [hg] using hx)
    rw [exec_tickConfig_lengthsAlone h hf hok (if_neg (by simp [hg])), pendLengths_eq]
  case master =>
    intro s mb c h hg hm hf hr hx
    have hok : tickChecks s c = .ok () := tickChecks_lengthsAlone (by simp [hm]) hf hr (by simpa [hg] using hx)
    rw [exec_tickConfig_lengthsAlone h hf hok (if_pos hg), pendLengths_eq]
  case ivCtl =>
    intro s mb c h hg hf hi hx
    have hb : bit (cf c 5 1) 0 = false := by rw [hf]; decide
    have hok : tickChecks s c = .ok () := tickChecks_pass hg (by simp [hb]) (fun _ => hi) (by simp [hb, hx])
    rw [exec_tickConfig_passed h hok, lengthsSet, tickFrom, hb, ivCtlSet, hf, if_pos (by decide)]
    rfl
  case both =>
    intro s mb c h hg hf hr hi hx
    have hok : tickChecks s c = .ok () := tickChecks_pass (by simp [hg]) (fun _ => hr) (fun _ => hi) (by simp [hg, hx])
    rw [exec_tickConfig_lengths h (by rw [hf]; decide) hok (if_neg (by simp [hg])), ivCtlSet, hf, if_pos (by decide), pendLengths_eq]

end Sys2Proof.Laws
end

section
/-! PROOFS. The timers of a request, its resume and its import time-out, the budget windows, and the entries that wait for GATHERs (R45, R76
to R80, R92, R306): an equation for each command, and each form derived from it. -/

namespace Sys2Proof.Laws

open Sys2Proof Sys2Proof.Machine

/-! ## Deadlines, holds and lives (R77, R78, R80) -/

/-- The window is to settle the request, and no command that it is still to apply names it. -/
theorem timersReady_iff {s : State} {n : Nat} :
    timersReady s n = true ↔ s.tick.inCommit = true ∧ s.req.unsettled.contains n = true ∧ dueCommands s n = [] := by
  simp [timersReady, and_assoc]

section
variable {s : State} {n : Nat} {r : Request} (hq : s.req? n = some r)
include hq

theorem exec_deadlineExpiry_of : exec (.deadlineExpiry n) s = .next (
    if timersReady s n && deadlineDue s r then (s.settleTimers n).settlePump else s) := by
  change Host.Outcome.next (match s.req? n with | none => _ | some r => _) = _
  rw [hq]

theorem exec_holdExpiry_of : exec (.holdExpiry n) s = .next (
    if timersReady s n && holdDue s r && !deadlineDue s r then (s.settleTimers n).settlePump else s) := by
  change Host.Outcome.next (match s.req? n with | none => _ | some r => _) = _
  rw [hq]

theorem exec_ttlExpiry_of : exec (.ttlExpiry n) s = .next (
    if timersReady s n && ttlDue s r && !deadlineDue s r then (s.settleTimers n).settlePump else s) := by
  change Host.Outcome.next (match s.req? n with | none => _ | some r => _) = _
  rw [hq]

/-- At its home a request that no event has closed is settled by the first of its timers that has ended: deadline, life, hold (R80). -/
theorem settleTimers_home (hh : homedHere s r = true) (hc : r.closeStatus = 0) :
    s.settleTimers n =
      if deadlineDue s r then s.closeReq n St.deadline 0
      else if ttlDue s r then s.closeReq n St.ttlExpired 0
      else if holdDue s r then s.parkReq n
      else s := by
  unfold State.settleTimers
  simp only [hq, hh, hc, Bool.not_true, Bool.false_eq_true, if_false, ne_eq, not_true_eq_false, decide_false, Bool.false_and]

end

/-- Only a PAUSED request's hold ends, and only a PARKED one's life (R77). -/
theorem holdDue_paused {s : State} {r : Request} (h : r.state = .paused) : holdDue s r = decide (r.timer < s.nextEdge) ∧ ttlDue s r = false := by
  simp [holdDue, ttlDue, h]

theorem ttlDue_parked {s : State} {r : Request} (h : r.state = .parked) : ttlDue s r = decide (r.timer < s.nextEdge) := by
  simp [ttlDue, h]

/-! ## Resumes and imports (R73, R76) -/

theorem exec_resumeComplete (s : State) (n : Nat) :
    exec (.resumeComplete n) s = .next (if s.tick.inCommit then s.resumeDone n else s) := rfl

theorem resumeDone_of {s : State} {n : Nat} {r : Request} (hq : s.req? n = some r) (hs : r.state = .resuming) (ha : allResident s r = true)
    (hn : s.req.unsettled.contains n = false) : s.resumeDone n = s.modReq n (fun q => { q with state := q.priorState, priorState := .free }) := by
  unfold State.resumeDone
  rw [hq]
  exact if_pos (by simp only [hs, ha, hn, decide_true, Bool.not_false, Bool.and_self])

/-- An import that is not done within the time of SC_CTL since the admission fails with its shipment, or alone where it has none. -/
theorem exec_importTimeout_over {s : State} {t n : Nat} {r : Request} (hq : s.req? n = some r) (hs : r.state = .importing)
    (hm : r.migrating = false) (ht : r.importFrom + rf s.regs.scCtl 15 0 * 1000000 ≤ t) :
    exec (.importTimeout t n) s = .next (match s.gelcon.ships.find? (fun x => x.slot = some n && !x.outgoing) with
      | some x => (s.atTime t).failShip x 2
      | none => (s.atTime t).failImport n) := by
  change Host.Outcome.next (match s.req? n with | none => _ | some r => _) = _
  rw [hq]
  exact congrArg Host.Outcome.next (if_pos (by
    simp only [hs, hm, decide_true, Bool.not_false, Bool.and_self, Bool.true_and, decide_eq_true_eq]
    exact ht))

/-! ## Budget windows (R92) -/

theorem exec_budgetWindowStart {s : State} (n : Nat) (hr : s.tick.running = true) (hc : s.tick.inCommit = false) :
    exec (.budgetWindowStart n) s = .next (s.beginWindow n) := by
  change Host.Outcome.next (if s.tick.running && !s.tick.inCommit then s.beginWindow n else s) = _
  rw [if_pos (by simp [hr, hc])]

/-- In an association list in which the entry of n has been put anew, n has the new value and every other key its old one. -/
theorem find?_putLast {β : Type} (l : List (Nat × β)) (n k : Nat) (v : β) :
    (l.filter (fun a => a.1 ≠ n) ++ [(n, v)]).find? (fun a => a.1 = k) = if k = n then some (n, v) else l.find? (fun a => a.1 = k) := by
  rw [List.find?_append, List.find?_filter]
  by_cases h : k = n
  · subst h
    rw [List.find?_eq_none.2 (by simp), if_pos rfl]
    simp
  · have hp : (fun a : Nat × β => decide (decide (a.1 ≠ n) = true ∧ decide (a.1 = k) = true)) = fun a => decide (a.1 = k) := by
      funext a
      by_cases ha : a.1 = k <;> simp [ha, h]
    rw [hp, if_neg h]
    simp [Ne.symm h]

/-- At the edge of a tick whose index is a multiple of its window, a tenant's account is refilled less its debt, once. -/
theorem beginWindow_refill {s : State} {n : Nat} (hb : (s.tenant n).budgetTokens ≠ 0) (hi : s.tick.index % (s.tenant n).windowTicks = 0)
    (hw : s.plan.windowsBegun.contains (n, s.tick.index) = false) :
    s.beginWindow n = s.onPlan (fun p => { p with
      accounts := p.accounts.filter (fun a => a.1 ≠ n) ++
        [(n, 64 * Int.ofNat (s.tenant n).budgetTokens + min (((s.plan.accounts.find? (fun a => a.1 = n)).map (·.2)).getD 0) 0)]
      windowsBegun := p.windowsBegun.filter (fun w => w.1 ≠ n) ++ [(n, s.tick.index)] }) := by
  unfold State.beginWindow
  exact if_pos (by simp only [hb, hi, hw, ne_eq, not_false_eq_true, decide_true, Bool.not_false, Bool.and_self])

theorem beginWindow_over {s : State} {n : Nat} (h : (s.tenant n).budgetTokens = 0 ∨ s.tick.index % (s.tenant n).windowTicks ≠ 0) :
    s.beginWindow n = s := by
  unfold State.beginWindow
  exact if_neg (by rcases h with h | h <;> simp [h])

/-! ## Entries that wait for GATHERs (R253, R306) -/

theorem exec_commitGathersDone (s : State) (n : Nat) :
    exec (.commitGathersDone n) s = .next (if s.tick.inCommit then s.writeDue n else s) := rfl

/-- The entries of a slot that waited are written, and its FINAL entry where the commit closed it. -/
theorem writeDue_of {s : State} {n st : Nat} {l : List (OutToken × Bool)} (h : s.req.outsDue.find? (fun o => o.1 = n) = some (n, l, st)) :
    s.writeDue n =
      let t := ((s.endGathers n).onReq (fun u => { u with outsDue := u.outsDue.filter (fun x => x.1 ≠ n) })).writeTokens n l
      if st = 0 then t else t.writeFinal n (st - 1) := by
  unfold State.writeDue
  rw [h]

/-! ## The obligation -/

/-- Settles O26: each clause is one outcome of its command's equation. -/
theorem timersOfARequest : Obligations.TimersOfARequest := by
  unfold Obligations.TimersOfARequest
  refine ⟨?deadline, ?hold, ?ttl, ?resume, ?importAlone, ?importShip, ?refill, ?noRefill, ?tokens, ?final⟩
  case deadline =>
    intro s n r hq hw hh hd hc
    rw [exec_deadlineExpiry_of hq, if_pos (by rw [timersReady_iff.2 hw, hd]; rfl), settleTimers_home hq hh hc, if_pos hd]
  case hold =>
    rintro s n r hq hw hh hd ⟨hs, ht, hc⟩
    obtain ⟨hhold, httl⟩ := holdDue_paused (s := s) hs
    rw [decide_eq_true ht] at hhold
    rw [exec_holdExpiry_of hq, if_pos (by rw [timersReady_iff.2 hw, hhold, hd]; rfl), settleTimers_home hq hh hc, if_neg (by simp [hd]),
      if_neg (by simp [httl]), if_pos hhold]
  case ttl =>
    rintro s n r hq hw hh hd ⟨hs, ht, hc⟩
    have httl : ttlDue s r = true := (ttlDue_parked hs).trans (decide_eq_true ht)
    rw [exec_ttlExpiry_of hq, if_pos (by rw [timersReady_iff.2 hw, httl, hd]; rfl), settleTimers_home hq hh hc, if_neg (by simp [hd]), if_pos httl]
  case resume =>
    intro s n r hc hq hs ha hn
    rw [exec_resumeComplete, if_pos hc, resumeDone_of hq hs ha hn]
  case importAlone =>
    intro s t n r hq hs hm ht hx
    rw [exec_importTimeout_over hq hs hm ht, hx]
  case importShip =>
    intro s t n r x hq hs hm ht hx
    rw [exec_importTimeout_over hq hs hm ht, hx]
  case refill =>
    intro s n v hr hc hb hi hw ha
    refine ⟨_, exec_budgetWindowStart n hr hc, ?_⟩
    rw [beginWindow_refill hb hi hw, ha]
    refine ⟨?_, ?_, rfl, rfl⟩
    · exact congrArg (Option.map Prod.snd) ((find?_putLast ..).trans (if_pos rfl))
    · intro k hk
      exact (find?_putLast ..).trans (if_neg hk)
  case noRefill =>
    intro s n hr hc h
    rw [exec_budgetWindowStart n hr hc, beginWindow_over h]
  case tokens =>
    intro s n l hc h
    rw [exec_commitGathersDone, if_pos hc, writeDue_of h]
    rfl
  case final =>
    intro s n st l hc h
    rw [exec_commitGathersDone, if_pos hc, writeDue_of h]
    rfl

end Sys2Proof.Laws
end

section
/-! PROOFS. SUBMIT, RECOVER and RECOVER_ENTRY (R43, R60 to R62, R344, R377, R378): an equation for each command, and each form derived from it. -/

namespace Sys2Proof.Laws

open Sys2Proof Sys2Proof.Machine

/-! ## SUBMIT -/

/-- SUBMIT at any other time, or for another ring than the one whose turn it is. -/
theorem exec_submit_closed {s : State} {ring : Nat} (d : DescRead) (h : admissionOpen s = false ∨ nextRing s ≠ some ring) :
    exec (.submit ring d) s = .next s := by
  have hc : (!admissionOpen s || decide (nextRing s ≠ some ring)) = true := by rcases h with h | h <;> simp [h]
  exact congrArg Host.Outcome.next (if_pos hc)

/-- How the descriptor at the front of a ring ends: with its completion field, or, where that cannot be written, with the ring stopped (R60, R344). -/
def descEnds (s : State) (ring : Nat) (d : DescRead) (t : State) (st : Nat) : State :=
  if d.complFail then t.stopRing ring
  else t.hostWrite (s.ring ring).port (frontDesc s ring + 248) 0 (leBytes 2 st ++ [0, 0] ++ leBytes 4 (s.tick.index % 2 ^ 32))

/-- The request that a descriptor gives, in the state that has read it. -/
def descRequest (s : State) (ring : Nat) (d : DescRead) : Request :=
  requestOf (slice d.bytes 0 256) d ((descTaken s ring).mslot (field (slice d.bytes 0 256) 13 1 % 16)).info.vocab

/-- The state in which the buffers that a descriptor names have been read too (R344). -/
def descRead (s : State) (ring : Nat) (d : DescRead) : State := (descTaken s ring).readBuffers (s.ring ring).port (slice d.bytes 0 256) d

/-- The admission of a descriptor's request: the state and the status. -/
def descAdmitted (s : State) (ring : Nat) (d : DescRead) : State × Nat :=
  (descRead s ring d).admitReq (dSlot (slice d.bytes 0 256)) (s.ring ring).port (descRequest s ring d) (descRequest s ring d).prompt

/-- What stands in the completion field is the tick's index, which no part of an admission changes. -/
theorem descEnds_eq {s t : State} (ring : Nat) (d : DescRead) (st : Nat) (h : Grid s t) :
    (if d.complFail then t.stopRing ring else t.hostWrite (s.ring ring).port (frontDesc s ring + 248) 0 (completionField t st)) =
      descEnds s ring d t st := by
  rw [descEnds, completionField, h.index]
  rfl

theorem descTaken_grid (s : State) (ring : Nat) : Grid s (descTaken s ring) :=
  hostRead_g _ _ _ _ (closeTransit_g _ _ _ (consume_g _ _ (Grid.refl s)))

theorem descRead_grid (s : State) (ring : Nat) (d : DescRead) : Grid s (descRead s ring d) := readBuffers_g _ _ _ _ (descTaken_grid s ring)

theorem descAdmitted_grid (s : State) (ring : Nat) (d : DescRead) : Grid s (descAdmitted s ring d).1 := admitReq_g _ _ _ _ _ (descRead_grid s ring d)

/-- SUBMIT for the ring whose turn it is: what its descriptor comes to. -/
theorem exec_submit_open {s : State} {ring : Nat} (d : DescRead) (ho : admissionOpen s = true) (hn : nextRing s = some ring) :
    exec (.submit ring d) s = .next (
      if d.descFail then descEnds s ring d (descTaken s ring) St.badAddress
      else if admitCheck (descTaken s ring) (slice d.bytes 0 256) d (descRequest s ring d) false ≠ St.ok then
        descEnds s ring d (descRead s ring d) (admitCheck (descTaken s ring) (slice d.bytes 0 256) d (descRequest s ring d) false)
      else if (descAdmitted s ring d).2 ≠ St.ok then descEnds s ring d (descAdmitted s ring d).1 (descAdmitted s ring d).2
      else descEnds s ring d ((descAdmitted s ring d).1.startRequest (dSlot (slice d.bytes 0 256))) St.ok) := by
  rw [← descEnds_eq _ _ _ (descTaken_grid s ring), ← descEnds_eq _ _ _ (descRead_grid s ring d), ← descEnds_eq _ _ _ (descAdmitted_grid s ring d),
    ← descEnds_eq _ _ _ (startRequest_g _ _ (descAdmitted_grid s ring d))]
  have hc : ¬(!admissionOpen s || decide (nextRing s ≠ some ring)) = true := by simp [ho, hn]
  refine congrArg Host.Outcome.next ((if_neg hc).trans ?_)
  dsimp only
  rw [Nat.add_sub_cancel]
  rfl

section
variable {s : State} {ring : Nat} {d : DescRead} (ho : admissionOpen s = true) (hn : nextRing s = some ring)
include ho hn

/-- A descriptor that cannot be read has BAD_ADDRESS. -/
theorem exec_submit_unread (hd : d.descFail = true) :
    exec (.submit ring d) s = .next (descEnds s ring d (descTaken s ring) St.badAddress) := by
  rw [exec_submit_open d ho hn, if_pos hd]

variable (hd : d.descFail = false)
include hd

/-- One that fails a check of Table 3-4 has that check's status. -/
theorem exec_submit_failed (hc : admitCheck (descTaken s ring) (slice d.bytes 0 256) d (descRequest s ring d) false ≠ St.ok) :
    exec (.submit ring d) s = .next (descEnds s ring d (descRead s ring d)
      (admitCheck (descTaken s ring) (slice d.bytes 0 256) d (descRequest s ring d) false)) := by
  rw [exec_submit_open d ho hn, if_neg (by simp [hd]), if_pos hc]

variable (hc : admitCheck (descTaken s ring) (slice d.bytes 0 256) d (descRequest s ring d) false = St.ok)
include hc

/-- One whose objects have no room has the status of that refusal. -/
theorem exec_submit_noRoom (ha : (descAdmitted s ring d).2 ≠ St.ok) :
    exec (.submit ring d) s = .next (descEnds s ring d (descAdmitted s ring d).1 (descAdmitted s ring d).2) := by
  rw [exec_submit_open d ho hn, if_neg (by simp [hd]), if_neg (not_not.2 hc), if_pos ha]

/-- One that is admitted starts its request, and then completes. -/
theorem exec_submit_admitted (ha : (descAdmitted s ring d).2 = St.ok) :
    exec (.submit ring d) s = .next (descEnds s ring d ((descAdmitted s ring d).1.startRequest (dSlot (slice d.bytes 0 256))) St.ok) := by
  rw [exec_submit_open d ho hn, if_neg (by simp [hd]), if_neg (not_not.2 hc), if_neg (not_not.2 ha)]

end

/-- Where the completion field can be written, it is. -/
theorem descEnds_written {s : State} {d : DescRead} (ring : Nat) (t : State) (st : Nat) (h : d.complFail = false) :
    descEnds s ring d t st =
      t.hostWrite (s.ring ring).port (frontDesc s ring + 248) 0 (leBytes 2 st ++ [0, 0] ++ leBytes 4 (s.tick.index % 2 ^ 32)) :=
  if_neg (by simp [h])

theorem descEnds_stopped {s : State} {d : DescRead} (ring : Nat) (t : State) (st : Nat) (h : d.complFail = true) :
    descEnds s ring d t st = t.stopRing ring := if_pos h

/-! ## RECOVER -/

/-- RECOVER in its turn starts with 1 to 65,536 entries, and is refused with any other count. -/
theorem exec_recover_due {s : State} {mb : Nat} {c : MbCommand} (h : Due s mb 0x46 c) :
    exec (.recover mb) s = .next (
      if 1 ≤ cf c 0 4 ∧ cf c 0 4 ≤ 65536 then s.begin.setCmd { c with phase := 1, aux := 0 } else s.begin.complete c St.badArgument []) := by
  obtain ⟨hc, hu, ht⟩ := h
  have hr : inRange (cf c 0 4) 1 65536 = decide (1 ≤ cf c 0 4 ∧ cf c 0 4 ≤ 65536) := by simp [inRange]
  refine congrArg Host.Outcome.next ((runL_fresh _ hc hu ht).trans ?_)
  rw [hr]
  by_cases hin : 1 ≤ cf c 0 4 ∧ cf c 0 4 ≤ 65536
  · rw [decide_eq_true hin, need_true, ok_bind, if_pos hin]
  · rw [decide_eq_false hin, need_false, error_bind, if_neg hin]

/-! ## RECOVER_ENTRY -/

/-- The state once an entry's result has been written at its bytes 24 to 33 (R377). -/
def entryWritten (s : State) (c : MbCommand) (r : RecoverRead) : State :=
  (recoverOne (entryTaken s c r.index) c r).1.hostWrite (s.livePort c.port) (cf c 8 8 + 64 * r.index + 24) 0
    (leBytes 8 (if (recoverOne (entryTaken s c r.index) c r).2 = St.ok then s.tick.index else 0) ++
      leBytes 2 (recoverOne (entryTaken s c r.index) c r).2)

/-- The progress of the list once an entry has been taken: one more, and one more rebuilt where its status is OK. -/
def entryCounted (s : State) (c : MbCommand) (r : RecoverRead) : Nat :=
  c.aux + 1 + if (recoverOne (entryTaken s c r.index) c r).2 = St.ok then 131072 else 0

/-- RECOVER_ENTRY with the next entry of a list that is under way. -/
theorem exec_recoverEntry_next {s : State} {mb : Nat} {c : MbCommand} {r : RecoverRead} (hc : s.cmdAt mb [0x46] = some c) (hp : c.phase = 1)
    (ho : takingOpen s = true) (hu : s.sceolUp = true) (hi : r.index = recTaken c.aux) :
    exec (.recoverEntry mb r) s = .next (
      if recTaken (entryCounted s c r) = cf c 0 4 then (entryWritten s c r).complete c St.ok (leBytes 4 (recBuilt (entryCounted s c r)))
      else (entryWritten s c r).setCmd { c with aux := entryCounted s c r }) := by
  change Host.Outcome.next (match s.cmdAt mb [0x46] with | none => _ | some c => _) = _
  rw [hc]
  exact congrArg Host.Outcome.next (if_neg (by simp [hp, ho, hu, hi]))

/-- The entries taken count on, below the place of those rebuilt. -/
theorem recTaken_rebuilt {n : Nat} (h : n % 131072 + 1 < 131072) : recTaken (n + 131073) = recTaken n + 1 := by
  unfold recTaken; omega

theorem recTaken_skipped {n : Nat} (h : n % 131072 + 1 < 131072) : recTaken (n + 1) = recTaken n + 1 := by
  unfold recTaken; omega

theorem entryCounted_rebuilt {s : State} {c : MbCommand} {r : RecoverRead} (h : (recoverOne (entryTaken s c r.index) c r).2 = St.ok) :
    entryCounted s c r = c.aux + 131073 := by
  have hsum : c.aux + 1 + 131072 = c.aux + 131073 := by omega
  rw [← hsum]
  exact congrArg (c.aux + 1 + ·) (if_pos h)

theorem entryCounted_skipped {s : State} {c : MbCommand} {r : RecoverRead} (h : (recoverOne (entryTaken s c r.index) c r).2 ≠ St.ok) :
    entryCounted s c r = c.aux + 1 := by
  rw [entryCounted, if_neg h]

theorem entryWritten_rebuilt {s : State} {c : MbCommand} {r : RecoverRead} (h : (recoverOne (entryTaken s c r.index) c r).2 = St.ok) :
    entryWritten s c r = (recoverOne (entryTaken s c r.index) c r).1.hostWrite (s.livePort c.port) (cf c 8 8 + 64 * r.index + 24) 0
      (leBytes 8 s.tick.index ++ leBytes 2 0) := by
  rw [entryWritten, if_pos h, h]
  rfl

theorem entryWritten_skipped {s : State} {c : MbCommand} {r : RecoverRead} (h : (recoverOne (entryTaken s c r.index) c r).2 ≠ St.ok) :
    entryWritten s c r = (recoverOne (entryTaken s c r.index) c r).1.hostWrite (s.livePort c.port) (cf c 8 8 + 64 * r.index + 24) 0
      (leBytes 8 0 ++ leBytes 2 (recoverOne (entryTaken s c r.index) c r).2) := by
  rw [entryWritten, if_neg h]

/-! ## The obligation -/

/-- Settles O23: each clause is one outcome of its command's equation. -/
theorem submitAdmitsOrRefuses : Obligations.SubmitAdmitsOrRefuses := by
  unfold Obligations.SubmitAdmitsOrRefuses
  refine ⟨?unread, ?failed, ?admitted, ?noRoom, ?unreadStops, ?failedStops, ?admittedStops, ?noRoomStops, ?closed, ?recover, ?recoverBad,
    ?rebuilt, ?rebuiltLast, ?skipped, ?skippedLast⟩
  case unread =>
    intro s ring d ho hn hw hd
    rw [exec_submit_unread ho hn hd, descEnds_written _ _ _ hw]
  case failed =>
    rintro s ring d b r u st ho hn hw hd rfl rfl rfl rfl hc
    rw [exec_submit_failed ho hn hd hc, descEnds_written _ _ _ hw]
    rfl
  case admitted =>
    rintro s ring d b r u ho hn hw hd rfl rfl rfl hc ha
    rw [exec_submit_admitted ho hn hd hc ha, descEnds_written _ _ _ hw]
    rfl
  case noRoom =>
    rintro s ring d b r u st ho hn hw hd rfl rfl rfl hc ⟨rfl, ha⟩
    rw [exec_submit_noRoom ho hn hd hc ha, descEnds_written _ _ _ hw]
    rfl
  case unreadStops =>
    intro s ring d ho hn hw hd
    rw [exec_submit_unread ho hn hd, descEnds_stopped _ _ _ hw]
  case failedStops =>
    rintro s ring d b r u ho hn hw hd rfl rfl rfl hc
    rw [exec_submit_failed ho hn hd hc, descEnds_stopped _ _ _ hw]
    rfl
  case admittedStops =>
    rintro s ring d b r u ho hn hw hd rfl rfl rfl hc ha
    rw [exec_submit_admitted ho hn hd hc ha, descEnds_stopped _ _ _ hw]
    rfl
  case noRoomStops =>
    rintro s ring d b r u ho hn hw hd rfl rfl rfl hc ha
    rw [exec_submit_noRoom ho hn hd hc ha, descEnds_stopped _ _ _ hw]
    rfl
  case closed =>
    intro s ring d h
    exact exec_submit_closed d h
  case recover =>
    intro s mb c h hr
    rw [exec_recover_due h, if_pos hr]
  case recoverBad =>
    intro s mb c h hr
    rw [exec_recover_due h, if_neg hr]
  case rebuilt =>
    intro s mb c r hc hp ho hu hi hok hmore hlt
    rw [exec_recoverEntry_next hc hp ho hu hi, entryCounted_rebuilt hok, entryWritten_rebuilt hok, recTaken_rebuilt hlt, if_neg hmore.ne]
  case rebuiltLast =>
    intro s mb c r hc hp ho hu hi hok hlast
    rw [exec_recoverEntry_next hc hp ho hu hi, entryCounted_rebuilt hok, entryWritten_rebuilt hok, if_pos hlast]
  case skipped =>
    rintro s mb st c r hc hp ho hu hi rfl hbad hmore hlt
    rw [exec_recoverEntry_next hc hp ho hu hi, entryCounted_skipped hbad, entryWritten_skipped hbad, recTaken_skipped hlt, if_neg hmore.ne]
  case skippedLast =>
    rintro s mb st c r hc hp ho hu hi rfl hbad hlast
    rw [exec_recoverEntry_next hc hp ho hu hi, entryCounted_skipped hbad, entryWritten_skipped hbad, if_pos hlast]

end Sys2Proof.Laws
end

section
/-! PROOFS. What bank commands leave in device memory (R37, R124, R125, R137 to R143): the operations that store nothing, the read after a
range has been cleared, and an equation for each command that stores. -/

namespace Sys2Proof.Laws

open Sys2Proof Sys2Proof.Machine

/-! ## A range cleared -/

/-- Where entries are kept by their key alone, a key that is kept has its value and any other none. -/
theorem tabGet_filterKey {α : Type} (p : Nat → Bool) (k : Nat) (t : List (Nat × α)) :
    tabGet k (t.filter (fun q => p q.1)) = if p k then tabGet k t else none := by
  induction t with
  | nil => simp [tabGet]
  | cons q r ih =>
    obtain ⟨a, v⟩ := q
    rw [List.filter_cons]
    by_cases hak : a = k
    · subst hak
      cases hp : p a
      · simpa [hp] using ih
      · simp [tabGet]
    · cases hp : p a <;> simp [tabGet, hak, ih]

/-- A range cleared reads zero, and every other byte reads as before. -/
theorem read_clear (m : Memory) (a n x : Nat) : (m.clear a n).read x = if a ≤ x ∧ x < a + n then 0 else m.read x := by
  have h : tabGet x (m.clear a n) = if decide (x < a) || decide (a + n ≤ x) then tabGet x m else none :=
    tabGet_filterKey (fun k => decide (k < a) || decide (a + n ≤ k)) x m
  unfold Memory.read tabGetD
  rw [h]
  by_cases hx : a ≤ x ∧ x < a + n
  · rw [if_pos hx, if_neg (by simp; omega)]
    rfl
  · rw [if_neg hx, if_pos (by simp; omega)]

/-! ## What stores nothing -/

/-- A fold of operations that leave the memory alone leaves it alone. -/
theorem mem_foldl {α : Type} {f : State → α → State} (hf : ∀ t x, (f t x).mem = t.mem) (l : List α) (s : State) : (l.foldl f s).mem = s.mem := by
  induction l generalizing s with
  | nil => rfl
  | cons x r ih => exact (ih _).trans (hf s x)

@[simp] theorem modBu_mem (s : State) (cl b : Nat) (f : BankUnit → BankUnit) : (s.modBu cl b f).mem = s.mem := rfl

@[simp] theorem modScope_mem (s : State) (cl : Nat) (l : List Nat) (f : BankUnit → BankUnit) : (s.modScope cl l f).mem = s.mem :=
  mem_foldl (fun _ _ => by rfl) l s

@[simp] theorem countTaints_mem (cl : Nat) (old new : State) (l : List Nat) : (countTaints cl old new l).mem = new.mem := rfl

@[simp] theorem rchkNote_mem (s : State) (cl job g kind op : Nat) : (rchkNote s cl job g kind op).mem = s.mem := by
  unfold rchkNote; split <;> rfl

@[simp] theorem loadLanes_mem (s : State) (cl : Nat) (w x : BitVec 128) : (s.loadLanes cl w x).mem = s.mem :=
  mem_foldl (fun _ _ => by split <;> rfl) _ s

/-- A command's time in the bursts of its banks stores nothing. -/
@[simp] theorem buStream_mem (cl : Nat) (w : BitVec 128) (before s : State) : (buStream cl w before s).mem = s.mem := by
  unfold buStream
  split
  · exact mem_foldl (fun _ _ => by rfl) _ s
  · rfl

@[simp] theorem allBcl_mem (s : State) (f : BankCluster → BankCluster) : (s.allBcl f).mem = s.mem := rfl
@[simp] theorem allMcl_mem (s : State) (f : MatrixCluster → MatrixCluster) : (s.allMcl f).mem = s.mem := rfl
@[simp] theorem modJob_mem (s : State) (m : Nat) (f : Job → Job) : (s.modJob m f).mem = s.mem := rfl
@[simp] theorem returnStore_mem (s : State) (m : Nat) : (s.returnStore m).mem = s.mem := rfl
@[simp] theorem kernelClear_mem (s : State) (m : Nat) : (s.kernelClear m).mem = s.mem := rfl

/-- A job that faults stores nothing (R109). -/
@[simp] theorem jobFault_mem (s : State) (m : Nat) : (s.jobFault m).mem = s.mem := by
  unfold State.jobFault
  split
  · rfl
  · split
    · rfl
    · simp only [countStep_mem, onPlan_mem, returnStore_mem, allMcl_mem, modJob_mem, allBcl_mem]
      split
      · exact kernelClear_mem s m
      · rfl

/-- NOP, QLOAD, GLOAD, TLOAD, ACLR and PASS change bank units and counters alone. -/
theorem buEffect_mem {c : BuCmd} (hop : c.op ≤ 5) (cl : Nat) (t : State) : (buEffect cl c t).mem = t.mem := by
  have hops : c.op = 0 ∨ c.op = 1 ∨ c.op = 2 ∨ c.op = 3 ∨ c.op = 4 ∨ c.op = 5 := by omega
  unfold buEffect
  rcases hops with h | h | h | h | h | h
  · rw [h]
    rfl
  · rw [h]
    exact modScope_mem ..
  · rw [h]
    exact modScope_mem ..
  · rw [h]
    exact modScope_mem ..
  · rw [h]
    exact modScope_mem ..
  · rw [h]
    exact mem_foldl (fun _ _ => by rfl) _ t

/-! ## The sequencer -/

/-- What a command that stores nothing where it runs leaves in memory, whether its turn comes or it is rejected. -/
theorem buBegin_mem {c : BuCmd} (hop : c.op ≤ 5) (cl : Nat) (s : State) : (buBegin cl s c).mem = s.mem := by
  have hrun : (buRun cl s c).mem = s.mem := by
    unfold buRun
    split
    · exact jobFault_mem ..
    · split
      · exact (jobFault_mem ..).trans (rchkNote_mem ..)
      · exact (buStream_mem ..).trans (buEffect_mem hop cl s)
  have hcommit : (commitGather cl s c).mem = s.mem := by
    unfold commitGather
    dsimp only
    split
    · split
      · exact (rchkNote_mem ..).trans (loadLanes_mem ..)
      · exact ((buStream_mem ..).trans (buEffect_mem hop cl _)).trans (loadLanes_mem ..)
    · exact loadLanes_mem ..
  unfold buBegin
  split
  · exact hcommit
  · exact hrun

/-- So it does as it is issued, run or not. -/
theorem buIssue_mem {c : BuCmd} (hop : c.op ≤ 5) (cl : Nat) (s : State) : (buIssue cl c s).mem = s.mem := by
  unfold buIssue
  split
  · rfl
  · split
    · unfold buOffer
      split
      · rfl
      · exact buBegin_mem hop cl s
    · exact jobFault_mem ..

/-- A command that breaks the rules of its words faults its job, and one that enters the queue waits: neither stores anything. -/
theorem buIssue_mem_notRun {s : State} {cl : Nat} {c : BuCmd} (hop : c.op ≠ 16)
    (h : (buFormOk s c = false ∨ buFits s cl c = false) ∨ (s.bcl cl).queue.any (fun q => buShare s.variant q c) = true ∨ buStarts s cl c.word = false) :
    (buIssue cl c s).mem = s.mem := by
  unfold buIssue
  split
  · rfl
  · split
    · next hform =>
      have hform : buFormOk s c = true ∧ buFits s cl c = true := by simpa [hop] using hform
      have hwait : (s.bcl cl).queue.any (fun q => buShare s.variant q c) = true ∨ buStarts s cl c.word = false :=
        h.resolve_left (by simp [hform])
      unfold buOffer
      rw [if_pos (by rcases hwait with hw | hw <;> simp [hw, hop])]
      rfl
    · exact jobFault_mem ..

/-! ## FILL -/

/-- A FILL of one bank that runs clears its rows (R142). -/
theorem exec_fill_runs {s : State} {cl job b : Nat} {w : BitVec 128} (h : BankRuns s cl { op := 9, job := job, word := w })
    (hb : buScope s.variant w = [b]) :
    ∃ t, exec (.fill cl job w) s = .next t ∧ t.mem = s.mem.clear (t1Addr cl b (buRow w) 0) (buCount w * 2048) := by
  refine ⟨_, congrArg Host.Outcome.next (buIssue_runs h), (buStream_mem ..).trans ?_⟩
  change (doFill cl { op := 9, job := job, word := w } s).mem = _
  unfold doFill
  rw [hb]
  rfl

/-! ## The append buffer (R138) -/

/-- Every entry in a range is written, and the buffer keeps the others. -/
theorem doKvflush_eq (cl first count : Nat) (s : State) :
    doKvflush cl first count s = (((s.bcl cl).append.filter (entryIn first count)).foldl (writeEntry cl) s).modBcl cl (fun c =>
      { c with append := (s.bcl cl).append.filter (fun e => !entryIn first count e) }) := by
  unfold doKvflush
  rw [List.partition_eq_filter_filter]
  rfl

theorem exec_kvflush_window {s : State} (cl job first count : Nat) (hu : s.clusterUp cl = true) (hc : s.tick.inCommit = true) :
    exec (.kvflush cl job first count) s = .next (doKvflush cl first count s) := by
  change Host.Outcome.next (if s.tick.inCommit then if s.clusterUp cl then _ else _ else _) = _
  rw [if_pos hc, if_pos hu]

/-- The range checker has nothing to find in a KVFLUSH (R140). -/
theorem rchkFinds_kvflush (s : State) (cl : Nat) {c : BuCmd} (h : c.op = 16) : rchkFinds s cl c = none := by
  simp [rchkFinds, h]

/-- In an execute window a KVFLUSH of a job that nothing waits before flushes the granules that the job's ranges hold (R125, R138). -/
theorem exec_kvflush_job {s : State} {cl job first count : Nat} (hu : s.clusterUp cl = true) (hc : s.tick.inCommit = false)
    (hq : s.mayQueue job = true ∧ job ≠ 17)
    (hb : (s.bcl cl).queue.any (fun q => buShare s.variant q { op := 16, job := job, first := first, count := count }) = false)
    (hg : granulesGranted s cl job first count = true) :
    exec (.kvflush cl job first count) s = .next (doKvflush cl first count s) := by
  change Host.Outcome.next (if s.tick.inCommit then _ else buIssue cl { op := 16, job := job, first := first, count := count } s) = _
  rw [if_neg (by simp [hc]), buIssue, if_neg (by simp [hu, hq.1]), if_pos (by simp), buOffer, if_neg (by rw [hb]; simp), buBegin, if_neg hq.2, buRun,
    if_neg (by simp [buAccept, hg]), rchkFinds_kvflush s cl rfl]
  exact congrArg Host.Outcome.next (if_neg (show ¬buStreams (buOp 0) = true by decide))

theorem exec_appendBufferWriteback (s : State) (cl n : Nat) :
    exec (.appendBufferWriteback cl n) s = .next (
      if s.clusterUp cl && 3072 ≤ (s.bcl cl).append.length then
        (((s.bcl cl).append.take n).foldl (writeEntry cl) s).modBcl cl (fun c => { c with append := c.append.drop n })
      else s) := rfl

/-! ## SCRUB (R143) -/

/-- A SCRUB that the controller may start. -/
theorem exec_scrub_controller {s : State} {cl : Nat} {w : BitVec 128} (bad : List BadColumn) (hu : s.clusterUp cl = true)
    (hf : buFormOk s { op := 10, word := w } = true) (hs : buFits s cl { op := 10, word := w } = true) (ht : buStarts s cl w = true)
    (hr : buRow w + buCount w ≤ 32768) : exec (.scrub cl none w bad) s = .next (scrubRun cl w bad s) := by
  change Host.Outcome.next (if !s.clusterUp cl then s else if _ then _ else s) = _
  rw [if_neg (by simp [hu]), if_pos (by rw [hf, hs, ht]; simpa using hr)]

/-! ## The obligation -/

/-- Settles O39: the memory after each command, from what each stores. -/
theorem bankMemory : Obligations.BankMemory := by
  unfold Obligations.BankMemory
  refine ⟨?fill, ?quiet, ?notRun, ?flushWindow, ?flushJob, ?writeback, ?few, ?scrubKernel, ?scrub, ?scrubNoted⟩
  case fill =>
    intro s cl job b w _ h hb
    obtain ⟨t, ht, hm⟩ := exec_fill_runs h hb
    exact ⟨t, ht, fun a => by rw [hm, read_clear]⟩
  case quiet =>
    intro s cl job w d p bad
    have hmem (c : BuCmd) (hop : c.op ≤ 5) : ∃ t, Host.Outcome.next (φ := Fault) (ρ := Refusal) (buIssue cl c s) = .next t ∧ t.mem = s.mem :=
      ⟨_, rfl, buIssue_mem hop cl s⟩
    exact ⟨hmem _ (by simp), hmem _ (by simp), hmem _ (by simp), hmem _ (by simp), hmem _ (by simp), hmem _ (by simp)⟩
  case notRun =>
    intro s cl c hop h
    exact buIssue_mem_notRun hop h
  case flushWindow =>
    intro s cl job first count hu hc
    rw [exec_kvflush_window cl job first count hu hc, doKvflush_eq]
  case flushJob =>
    intro s cl job first count hu hc hq hb hg
    rw [exec_kvflush_job hu hc hq hb hg, doKvflush_eq]
  case writeback =>
    intro s cl n hu hn
    rw [exec_appendBufferWriteback, if_pos (by simp [hu, hn])]
  case few =>
    intro s cl n hn
    rw [exec_appendBufferWriteback, if_neg (by simp [hn])]
  case scrubKernel =>
    intro s cl m w bad hu hq
    change Host.Outcome.next (if !s.clusterUp cl then s else if s.mayQueue m then s.jobFault m else s) = _
    rw [if_neg (by simp [hu]), if_pos hq]
  case scrub =>
    intro s cl w bad hu hf hs ht hr hoff
    rw [exec_scrub_controller bad hu hf hs ht hr, scrubRun, if_neg (by simp [hoff])]
  case scrubNoted =>
    intro s cl g w bad hu hf hs ht hr hon hg
    rw [exec_scrub_controller bad hu hf hs ht hr, scrubRun, if_pos hon, hg]

end Sys2Proof.Laws
end

section
/-! PROOFS. A member that becomes tick master while this device still holds ticks to settle (R48, R51): the model keeps the sets that are
fetched for those ticks, where the statement of O49 says that nothing but the tick master changes. -/

namespace Sys2Proof.Laws

open Sys2Proof Sys2Proof.Machine

/-- A device of a group, neither master nor alone healthy: member 1 is to become master, and tick 5 is still to be settled here. -/
def memberSettling : State :=
  State.reset.onTick (fun k => { k with inGroup := true, masterMisses := 2, settling := [5], syncRuns := [(1, 100)], syncFit := [1] })

/-- A device that another member succeeds keeps the sets fetched for the ticks it still has to settle. -/
theorem exec_tickMasterRecompute_other {s : State} (f : List (Nat × List (Nat × Nat × Nat × Nat))) {m : Nat}
    (hg : s.tick.inGroup = true ∧ 2 ≤ s.tick.masterMisses)
    (hlow : lowestOf ((healthyMembers s).filter (fun m => m ≠ s.tick.master)) = some m) (hm : m ≠ memberNo s) :
    exec (.tickMasterRecompute f) s = .next ((f.filter (fun c => s.tick.settling.contains c.1)).foldl
      (fun t c => t.keepFetched c.1 c.2) (s.setMaster m)) := by
  have hself : (s.setMaster m).tick.isMaster = false := decide_eq_false hm
  have hsucceed : s.succeed m = s.setMaster m := if_neg (by simp [hself])
  change execTickMasterRecompute f s = _
  unfold execTickMasterRecompute
  rw [if_neg (by simp [hg.1]; omega), hlow]
  simp only [hsucceed]
  rfl

/-- Refutes O49: where tick 5 is still to be settled here and member 1 becomes master, a set found for tick 5 is kept, and the statement
says that only the master changes. -/
theorem not_groupTick : ¬ Obligations.GroupTick := by
  unfold Obligations.GroupTick
  intro h
  obtain ⟨-, -, -, -, -, -, -, -, hother, -⟩ := h
  have hg : memberSettling.tick.inGroup = true ∧ 2 ≤ memberSettling.tick.masterMisses := by decide
  have hlow : lowestOf ((healthyMembers memberSettling).filter (fun m => m ≠ memberSettling.tick.master)) = some 1 := by decide
  have hm : 1 ≠ memberNo memberSettling := by decide
  have hsame := (exec_tickMasterRecompute_other [(5, [])] hg hlow hm).symm.trans (hother memberSettling [(5, [])] 1 hg hlow hm)
  injection hsame with hsame
  have hfetched : [(5, [])] = ([] : List (Nat × List (Nat × Nat × Nat × Nat))) := congrArg (fun u => u.tick.fetched) hsame
  exact List.cons_ne_nil _ _ hfetched

end Sys2Proof.Laws
end

section
/-! PROOFS. What reset and a cold reset leave, the stages of power-up and boot, and the resets (R26, R376, R402 to R411, R418): an equation for
each command, its conditions read in the state before it, and each form derived from it. -/

namespace Sys2Proof.Laws

open Sys2Proof Sys2Proof.Machine

/-! ## Cold reset (R404) -/

/-- The pins of the Sentinels change their own two fields alone. -/
theorem noteSentinel_eq (s : State) : ∃ b i, s.noteSentinel = s.onStart (fun x => { x with i3cByte1 := b, ibi := i }) := by
  unfold State.noteSentinel
  split
  · exact ⟨s.start.i3cByte1, s.start.ibi, rfl⟩
  · exact ⟨_, _, rfl⟩

theorem exec_powerOn (s : State) (m : Nat) :
    exec (.powerOn m) s = .next (if s.start.state = .off && s.start.resetN then s.cold m 0 else s) := rfl

theorem exec_main48Loss (s : State) (t : Nat) :
    exec (.main48Loss t) s = .next (if s.start.pwrGood then s.cold s.start.memberId 3 else s.atTime t) := rfl

theorem exec_aux12Loss (s : State) (t : Nat) :
    exec (.aux12Loss t) s = .next (
      if s.start.state = .off then s.atTime t
      else ((s.onPower (fun p => { p with tripCode := 0, tripTemp := 0 })).cold s.start.memberId 0).onStart (fun x =>
        { x with state := .off, ibi := 0, i3cByte1 := 0 })) := rfl

theorem exec_resetN_low (s : State) (t m : Nat) :
    exec (.resetN t false m) s = .next (
      if s.start.state = .off then s.onStart (fun x => { x with resetN := false })
      else (s.onStart (fun x => { x with resetN := false })).cold s.start.memberId 0) := rfl

theorem exec_resetN_high (s : State) (t m : Nat) :
    exec (.resetN t true m) s = .next (
      if s.start.state = .off then s.onStart (fun x => { x with resetN := true })
      else if s.start.resetN then s.atTime t else (s.onStart (fun x => { x with resetN := true })).cold m 0) := rfl

/-! ## Firmware and supplies (R405 to R409) -/

/-- The two images as the boot ROMs find them. -/
def imagesRead (s : State) (t : Nat) (a b : FwRead) : State :=
  (s.atTime t).onMb (fun m => { m with
    imageA := { fwImageOf a with valid := fwVerified s a }, imageB := { fwImageOf b with valid := fwVerified s b } })

/-- An image that has been verified runs: PWR_REQ is asserted, and what was booted is measured (R405, R408, R409). -/
def bootsImage (u : State) (x : Bool) (f : FwRead) (svn : Nat) : State :=
  (((u.onStart (fun v => { v with firmwareOk := true, imageB := x, pwrReq := true, pwrReqAt := u.now, stage := 1, fusedSvn := svn })).onMb (fun m =>
    { m with runsB := [x, x] })).onFaults (fun f => { f with ctActive := if f.ctFailed.contains 0 then 1 else 0 })).measureBoot
      ((0, digest384 (Config.pointerBytes u.mb.bootB u.mb.bootWrites)) :: (fwImageOf f).digests ++ [(7, digest384 u.start.record),
        (8, digest384 (Config.fuseBytes svn u.start.keySlots u.start.revoked))])

/-- The security version that the fuses hold once an image runs: only the image that the boot pointer names raises it (R408). -/
def svnOf (s : State) (x : Bool) (f : FwRead) : Nat :=
  if x = s.mb.bootB && (fwImageOf f).raiseSvn then max s.start.fusedSvn (fwImageOf f).svn else s.start.fusedSvn

/-- FIRMWARE_VERIFIED in BOOT before an image runs. -/
theorem exec_firmwareVerified_boot {s : State} (t : Nat) (a b : FwRead)
    (h : s.start.state = .boot ∧ s.start.resetN = true ∧ s.start.firmwareOk = false ∧ s.faults.ctFailed.length ≠ 2) :
    exec (.firmwareVerified t a b) s = .next (
      if fwVerified s (if s.mb.bootB then b else a) || fwVerified s (if !s.mb.bootB then b else a) then
        let x := if fwVerified s (if s.mb.bootB then b else a) then s.mb.bootB else !s.mb.bootB
        bootsImage (imagesRead s t a b) x (if x then b else a) (svnOf s x (if x then b else a))
      else ((imagesRead s t a b).onStart (fun u => { u with faultN := true, cause := 1 })).noteSentinel) := by
  obtain ⟨hs, hn, hf, hc⟩ := h
  refine congrArg Host.Outcome.next ((if_neg (by simp [hs, hn, hf, hc])).trans ?_)
  rfl

/-- An image runs where the named one verifies, or the other does. -/
theorem exec_firmwareVerified_runs {s : State} (t : Nat) (a b : FwRead) {x : Bool}
    (h : s.start.state = .boot ∧ s.start.resetN = true ∧ s.start.firmwareOk = false ∧ s.faults.ctFailed.length ≠ 2)
    (hv : fwVerified s (if x then b else a) = true) (hx : x = s.mb.bootB ∨ fwVerified s (if x then a else b) = false ∧ x = !s.mb.bootB) :
    exec (.firmwareVerified t a b) s = .next (bootsImage (imagesRead s t a b) x (if x then b else a) (svnOf s x (if x then b else a))) := by
  rw [exec_firmwareVerified_boot t a b h]
  rcases hx with rfl | ⟨hn, rfl⟩
  · rw [hv]
    rfl
  · have hnamed : fwVerified s (if s.mb.bootB then b else a) = false := by cases hb : s.mb.bootB <;> simpa [hb] using hn
    rw [hnamed, hv]
    rfl

theorem exec_pwrGood (s : State) (t : Nat) :
    exec (.pwrGood t) s = .next (
      if s.start.state = .boot && s.start.pwrReq && s.start.firmwareOk then
        (s.atTime t).onStart (fun x => { x with pwrGood := true, state := .train, stage := 2, pwrRetryAt := 0 })
      else s.atTime t) := rfl

theorem exec_pwrGoodTimeout (s : State) (t : Nat) :
    exec (.pwrGoodTimeout t) s = .next (
      if s.start.state ≠ .boot || !s.start.firmwareOk then s.atTime t
      else if s.start.pwrReq && s.start.pwrReqAt + 1000000000 ≤ t then
        ((s.atTime t).onStart (fun x => { x with pwrReq := false, faultN := true, cause := 2, pwrRetryAt := t + 10000000000 })).noteSentinel
      else if s.start.pwrRetryAt ≠ 0 && s.start.pwrRetryAt ≤ t then
        (s.atTime t).onStart (fun x => { x with pwrReq := true, pwrReqAt := t, pwrRetryAt := 0 })
      else s.atTime t) := rfl

/-! ## Stages (R410, R411) -/

/-- What a stage's report finds, with the sections that the stage derives from scratch. -/
def stageReported (s : State) (t : Nat) (r : StageReport) : State :=
  ((s.atTime t).takeReport r).onStart (fun x => { x with derived := x.derived ++ derivedIn ((s.atTime t).takeReport r) r })

/-- A stage that ends leads to the next, and stage 8 to the end of the boot. -/
def stageEnds (u : State) (t : Nat) (r : StageReport) : State :=
  if u.start.stage < 8 then u.onStart (fun x => { x with stage := x.stage + 1 }) else u.finishBoot t r

theorem exec_bootStageDone_train {s : State} (t : Nat) (r : StageReport) (h : s.start.state = .train) :
    exec (.bootStageDone t r) s = .next (stageEnds (
      if (stageReported s t r).start.stage = 4 then ((stageReported s t r).trainPorts r).portsChanged else stageReported s t r) t r) := by
  refine congrArg Host.Outcome.next ((if_neg (by simp [h])).trans ((if_neg (by simp [h])).trans ?_))
  rfl

theorem exec_bootStageDone_rom {s : State} (t : Nat) (r : StageReport)
    (h : s.start.state = .boot ∧ s.start.resetN = true ∧ s.start.firmwareOk = false) :
    exec (.bootStageDone t r) s = .next (
      if ((r.badDies.filter (fun c => c = 34 || c = 35)).foldl State.failsTest (s.atTime t)).faults.ctFailed.length = 2 then
        (((r.badDies.filter (fun c => c = 34 || c = 35)).foldl State.failsTest (s.atTime t)).onStart (fun x =>
          { x with faultN := true, cause := 4 })).noteSentinel
      else (r.badDies.filter (fun c => c = 34 || c = 35)).foldl State.failsTest (s.atTime t)) :=
  congrArg Host.Outcome.next (if_pos (by simp [h]))

theorem exec_bootStageDone_other {s : State} (t : Nat) (r : StageReport) (ht : s.start.state ≠ .train) (hb : s.start.state ≠ .boot) :
    exec (.bootStageDone t r) s = .next (s.atTime t) :=
  congrArg Host.Outcome.next ((if_neg (by simp [hb])).trans (if_pos (by simpa using ht)))

/-! ## Warm reset (R33, R376, R418) -/

theorem exec_warmResetN (s : State) (t : Nat) :
    exec (.warmResetN t) s = .next (
      if !warmOpen s || s.start.warmRunning then s.atTime t
      else if s.tick.running && s.tick.inCommit then (s.atTime t).onStart (fun x => { x with warmPending := true })
      else (s.atTime t).warmNow) := rfl

/-- The edges that a warm reset ending at an instant lets pass before ticks resume (R33). -/
def edgesPassed (u : State) (t : Nat) : Nat :=
  (t + 1000000 - u.tick.firstEdge + max 1 (u.tick.tickUs * 1000) - 1) / max 1 (u.tick.tickUs * 1000)

/-- The device leaves its warm reset, ticks to resume n edges on (R33). -/
def ticksResume (u : State) (n : Nat) : State :=
  (u.onStart (fun x => { x with warmRunning := false, state := x.prior })).onTick (fun k => { k with
    firstEdge := k.firstEdge + n * max 1 (u.tick.tickUs * 1000), firstIndex := u.tick.firstIndex + n
    frozenCfg := if k.pendIndex ≠ 0 && k.pendIndex ≤ u.tick.firstIndex + n then none else k.frozenCfg
    pendIndex := if k.pendIndex = 0 then 0 else max (u.tick.firstIndex + n) k.pendIndex })

/-- The state to which a warm reset that ends at an instant returns, ticks resuming n edges on (R33, R287). -/
def warmEnds (u : State) (t n : Nat) (ok : Bool) : State :=
  ((((ticksResume u n).refreshAll t).controlBack ok).resumeTier (u.tick.firstIndex + n)).reissueAll

/-- Commands outstanding complete then, those whose doorbells were latched among them (R360, R375). -/
def warmAnswered (u : State) : State :=
  if u.sceolUp then (u.takeLatched.mb.outstanding.foldl State.afterReset u.takeLatched).onStart (fun x => { x with warmMb := [] }) else u

theorem exec_warmResetComplete_running {s : State} {t n : Nat} (ok : Bool) (h : s.start.warmRunning = true)
    (hn : edgesPassed (s.atTime t) t = n) :
    exec (.warmResetComplete t ok) s = .next (warmAnswered (warmEnds (s.atTime t) t n ok)) := by
  subst hn
  exact congrArg Host.Outcome.next (if_neg (by simp [h]))

/-- Setting the clock first moves neither the tick's length nor the index that resumes. -/
theorem ticksResume_atTime (s : State) (t n : Nat) :
    ((s.atTime t).onStart (fun x => { x with warmRunning := false, state := x.prior })).onTick (fun k => { k with
      firstEdge := k.firstEdge + n * max 1 (s.tick.tickUs * 1000), firstIndex := k.firstIndex + n
      frozenCfg := if k.pendIndex ≠ 0 && k.pendIndex ≤ k.firstIndex + n then none else k.frozenCfg
      pendIndex := if k.pendIndex = 0 then 0 else max (k.firstIndex + n) k.pendIndex }) = ticksResume (s.atTime t) n := rfl

theorem exec_warmResetComplete_idle {s : State} (t : Nat) (ok : Bool) (h : s.start.warmRunning = false) :
    exec (.warmResetComplete t ok) s = .next (s.atTime t) :=
  congrArg Host.Outcome.next (if_pos (by simp [h]))

/-! ## The obligation -/

/-- Settles O58: the values at reset, and each clause as one outcome of its command's equation. -/
theorem startupAndResets : Obligations.StartupAndResets := by
  unfold Obligations.StartupAndResets
  refine ⟨?reset, ?cold, ?powerOn, ?powerOnNone, ?noImage, ?named, ?other, ?pwrGood, ?dropped, ?retried, ?stage, ?stage4, ?stage8, ?rom,
    ?noStage, ?resetPin, ?warmWaits, ?warmNow, ?notWarm, ?warmEnds, ?main48, ?aux12, ?off, ?warmIgnored, ?main48Off⟩
  case reset => decide
  case cold =>
    intro s m c
    unfold State.cold
    obtain ⟨b, i, h⟩ := noteSentinel_eq _
    rw [h]
    exact ⟨rfl, rfl, rfl, rfl, rfl, rfl, rfl, rfl, rfl, rfl, rfl, rfl, rfl, rfl⟩
  case powerOn =>
    intro s m h
    rw [exec_powerOn, if_pos (by simp [h])]
  case powerOnNone =>
    intro s m h
    rw [exec_powerOn, if_neg (by simp [h])]
  case noImage =>
    intro s t a b h ⟨ha, hb⟩
    rw [exec_firmwareVerified_boot t a b h, if_neg (by cases s.mb.bootB <;> simp [ha, hb]), imagesRead, ha, hb]
  case named =>
    rintro s u t n a b f x h ⟨rfl, rfl⟩ hv rfl rfl
    have hsvn (f : FwRead) : svnOf s s.mb.bootB f = if (fwImageOf f).raiseSvn then max s.start.fusedSvn (fwImageOf f).svn else s.start.fusedSvn := by
      simp [svnOf]
    rw [exec_firmwareVerified_runs t a b h hv (Or.inl rfl), hsvn]
    rfl
  case other =>
    rintro s u t n a b f x h ⟨rfl, rfl⟩ ⟨hn, hv⟩ rfl rfl
    have hsvn (f : FwRead) : svnOf s (!s.mb.bootB) f = s.start.fusedSvn := by simp [svnOf]
    rw [exec_firmwareVerified_runs t a b h hv (Or.inr ⟨hn, rfl⟩), hsvn]
    rfl
  case pwrGood =>
    intro s t h
    rw [exec_pwrGood, if_pos (by simp [h])]
  case dropped =>
    intro s t h ht
    rw [exec_pwrGoodTimeout, if_neg (by simp [h]), if_pos (by simp [h, ht])]
  case retried =>
    intro s t h ht
    rw [exec_pwrGoodTimeout, if_neg (by simp [h]), if_neg (by simp [h]), if_pos (by simp [ht])]
  case stage =>
    rintro s u t r ⟨hs, hlt, hne⟩ rfl hu
    change (stageReported s t r).start.stage = s.start.stage at hu
    rw [exec_bootStageDone_train t r hs, if_neg (by rw [hu]; exact hne), stageEnds, if_pos (by rw [hu]; exact hlt)]
    rfl
  case stage4 =>
    rintro s u t r ⟨hs, _⟩ rfl ⟨hu, hp⟩
    change (stageReported s t r).start.stage = 4 at hu
    rw [exec_bootStageDone_train t r hs, if_pos hu, stageEnds, if_pos (by exact hp.trans_lt (by decide))]
    rfl
  case stage8 =>
    rintro s u t r ⟨hs, _⟩ rfl hu
    change (stageReported s t r).start.stage = 8 at hu
    rw [exec_bootStageDone_train t r hs, if_neg (by rw [hu]; decide), stageEnds, if_neg (by rw [hu]; decide)]
    rfl
  case rom =>
    rintro s u t r h rfl
    exact exec_bootStageDone_rom t r h
  case noStage =>
    intro s t r ⟨ht, hb⟩
    exact exec_bootStageDone_other t r ht hb
  case resetPin =>
    intro s t m ho
    refine ⟨by rw [exec_resetN_low, if_neg ho], fun hl => ?_, fun hh => ?_⟩
    · rw [exec_resetN_high, if_neg ho, if_neg (by simp [hl])]
    · rw [exec_resetN_high, if_neg ho, if_pos hh]
  case warmWaits =>
    intro s t ⟨ho, hr⟩ ⟨ht, hc⟩
    rw [exec_warmResetN, if_neg (by simp [ho, hr]), if_pos (by simp [ht, hc])]
  case warmNow =>
    intro s t ⟨ho, hr⟩ hc
    rw [exec_warmResetN, if_neg (by simp [ho, hr]), if_neg (by simp [hc])]
  case notWarm =>
    intro s t ok h
    exact exec_warmResetComplete_idle t ok h
  case warmEnds =>
    rintro s u t n ok h hn rfl
    rw [exec_warmResetComplete_running ok h hn.symm, ticksResume_atTime]
    rfl
  case main48 =>
    intro s t h
    rw [exec_main48Loss, if_pos h]
  case aux12 =>
    intro s t h
    rw [exec_aux12Loss, if_neg h]
  case off =>
    intro s t m h ho
    refine ⟨?_, by rw [exec_aux12Loss, if_pos ho]⟩
    cases h
    · rw [exec_resetN_low, if_pos ho]
    · rw [exec_resetN_high, if_pos ho]
  case warmIgnored =>
    intro s t h
    rw [exec_warmResetN, if_pos (by rcases h with h | h <;> simp [h])]
  case main48Off =>
    intro s t h
    rw [exec_main48Loss, if_neg (by simp [h])]

end Sys2Proof.Laws
end

section
/-! PROOFS. What closing a request does (R67, R75, R79, R374): what stream entries and the end of an attempt leave alone, and the equation of
closing from which each clause follows. -/

namespace Sys2Proof.Laws

open Sys2Proof Sys2Proof.Machine

/-! ## One entry of a table changed -/

theorem tabGet_tabMod {α : Type} (k j : Nat) (f : α → α) (t : List (Nat × α)) :
    tabGet j (tabMod k f t) = if k = j then (tabGet k t).map f else tabGet j t := by
  unfold tabMod
  cases h : tabGet k t with
  | none =>
    by_cases hkj : k = j
    · subst hkj
      rw [if_pos rfl, h]
      rfl
    · rw [if_neg hkj]
  | some v => simp

/-- The entries depend on the request unit alone. -/
theorem req_of_eq {s t : State} (h : t.req = s.req) (n : Nat) : t.req? n = s.req? n := by rw [State.req?, h]; rfl

theorem req_modReq (s : State) (n k : Nat) (f : Request → Request) :
    (s.modReq n f).req? k = if n = k then (s.req? n).map f else s.req? k := tabGet_tabMod ..

/-! ## Work on one request -/

/-- The entries of the other requests, the device memory and the tick are as they were. -/
def Alone (n : Nat) (s0 s : State) : Prop := (∀ k, n ≠ k → s.req? k = s0.req? k) ∧ s.mem = s0.mem ∧ s.tick = s0.tick

theorem Alone.refl (n : Nat) (s : State) : Alone n s s := ⟨fun _ _ => rfl, rfl, rfl⟩

theorem Alone.trans {n : Nat} {a b c : State} (h : Alone n a b) (k : Alone n b c) : Alone n a c := by
  obtain ⟨hothers, hmem, htick⟩ := h
  obtain ⟨kothers, kmem, ktick⟩ := k
  exact ⟨fun j hj => (kothers j hj).trans (hothers j hj), kmem.trans hmem, ktick.trans htick⟩

theorem modReq_alone (s : State) (n : Nat) (f : Request → Request) : Alone n s (s.modReq n f) :=
  ⟨fun k hk => (req_modReq s n k f).trans (if_neg hk), rfl, rfl⟩

/-- An attempt that ends is counted, and no attempt of its slot is left (R437). -/
theorem endAttempt_eq (s : State) (n : Nat) (e : AttemptEnd) :
    s.endAttempt n e =
      if (s.attempt? n).isSome then (s.countEnd e).onPlan (fun p => { p with attempts := p.attempts.filter (fun a => a.slot ≠ n) }) else s := rfl

@[simp] theorem endAttempt_req (s : State) (n : Nat) (e : AttemptEnd) : (s.endAttempt n e).req = s.req := by
  rw [endAttempt_eq]
  split <;> rfl

theorem endAttempt_alone (s : State) (n : Nat) (e : AttemptEnd) : Alone n s (s.endAttempt n e) := by
  refine ⟨fun k _ => req_of_eq (endAttempt_req s n e) k, ?_, ?_⟩ <;>
  · rw [endAttempt_eq]
    split <;> rfl

theorem endAttempt_attempt (s : State) (n : Nat) (e : AttemptEnd) : (s.endAttempt n e).attempt? n = none := by
  rw [endAttempt_eq]
  split
  · exact List.find?_eq_none.2 fun a ha => by simpa using (List.mem_filter.1 ha).2
  · next h => simpa using h

/-! ## Stream entries (R65 to R68) -/

/-- So many stream entries of a request have been written: its own entry of the table has only moved on to another sequence number, and the
commit-write log holds that many records more. -/
def Streamed (n k : Nat) (s0 s : State) : Prop :=
  Alone n s0 s ∧ (∃ q, s.req? n = (s0.req? n).map (fun r => { r with nextSeq := q })) ∧ s.req.log.length = s0.req.log.length + k

theorem Streamed.trans {n i j : Nat} {a b c : State} (h : Streamed n i a b) (k : Streamed n j b c) : Streamed n (i + j) a c := by
  obtain ⟨halone, ⟨p, hp⟩, hlog⟩ := h
  obtain ⟨kalone, ⟨q, hq⟩, klog⟩ := k
  refine ⟨halone.trans kalone, ⟨q, ?_⟩, by rw [klog, hlog, Nat.add_assoc]⟩
  rw [hq, hp, Option.map_map]
  rfl

/-- What leaves the requests, the memory and the tick alone writes no entry. -/
theorem Streamed.of_eq {s t : State} (n : Nat) (hq : t.req = s.req) (hm : t.mem = s.mem) (ht : t.tick = s.tick) : Streamed n 0 s t := by
  refine ⟨⟨fun k _ => req_of_eq hq k, hm, ht⟩, ⟨((s.req? n).map (·.nextSeq)).getD 0, ?_⟩, by rw [hq]; rfl⟩
  rw [req_of_eq hq]
  cases s.req? n <;> rfl

theorem raiseVector_streamed (s : State) (n v p : Nat) : Streamed n 0 s (s.raiseVector v p) := Streamed.of_eq n (by simp) (by simp) (by simp)

/-- A request that has an entry keeps one. -/
theorem Streamed.some {n k : Nat} {s t : State} (h : Streamed n k s t) {r : Request} (hr : s.req? n = some r) : ∃ q, t.req? n = some q := by
  obtain ⟨-, ⟨q, hq⟩, -⟩ := h
  exact ⟨_, hq.trans (congrArg _ hr)⟩

/-- A host write of request data is one record of the log (R374). -/
theorem hostWrite_req (s : State) (p a n : Nat) (bs : List Byte) :
    (s.hostWrite p a n bs).req = { s.req with log := s.req.log ++
      [{ port := p, addr := a, bytes := bs, tick := s.tick.index, slot := n, issued := s.tick.index }] } := by
  simp [State.hostWrite]

section
variable {s : State} {n : Nat} {r : Request} (hr : s.req? n = some r)
include hr

theorem writeStream_streamed (token flags : Nat) (lp : BitVec 16) : Streamed n 1 s (s.writeStream n token flags lp) := by
  have hput (p a m : Nat) (bs : List Byte) :
      Streamed n 1 s ((s.hostWrite p a m bs).modReq n (fun q => { q with nextSeq := (q.nextSeq + 1) % two32 })) := by
    have hreq (k : Nat) : (s.hostWrite p a m bs).req? k = s.req? k := by rw [State.req?, hostWrite_req]; rfl
    refine ⟨⟨fun k hk => ?_, by simp, by simp⟩, ⟨(r.nextSeq + 1) % two32, ?_⟩, ?_⟩
    · rw [req_modReq, if_neg hk, hreq]
    · rw [req_modReq, if_pos rfl, hreq, hr]
      rfl
    · exact (congrArg (fun u : ReqUnit => u.log.length) (hostWrite_req ..)).trans List.length_append
  unfold State.writeStream
  rw [hr]
  dsimp only
  split
  · exact (hput _ _ _ _).trans (raiseVector_streamed ..)
  · exact hput _ _ _ _

theorem writeFinal_streamed (st : Nat) : Streamed n 1 s (s.writeFinal n st) := by
  unfold State.writeFinal
  rw [hr]
  exact writeStream_streamed hr ..

theorem writeTokens_streamed (l : List (OutToken × Bool)) : Streamed n l.length s (s.writeTokens n l) := by
  induction l generalizing s r with
  | nil => exact Streamed.of_eq n rfl rfl rfl
  | cons o l ih =>
    have hone := writeStream_streamed hr o.1.token (tokenFlags o.1 o.2) o.1.logprob
    obtain ⟨q, hq⟩ := hone.some hr
    rw [List.length_cons, Nat.add_comm]
    exact hone.trans (ih hq)

/-- The tokens of a list, then FINAL. -/
theorem writeAll_streamed (l : List (OutToken × Bool)) (st : Nat) : Streamed n (l.length + 1) s ((s.writeTokens n l).writeFinal n st) := by
  obtain ⟨q, hq⟩ := (writeTokens_streamed hr l).some hr
  exact (writeTokens_streamed hr l).trans (writeFinal_streamed hq st)

/-! ## Closing -/

/-- The status that a request closes with: one that was fixed for it before stands (R80). -/
def closingStatus (r : Request) (st : Nat) : Nat := if r.closeStatus = 0 then st else r.closeStatus

/-- The entries that closing writes: the tokens not written yet but the last so many, all released. -/
def closingOuts (r : Request) (drop : Nat) : List (OutToken × Bool) := (r.outs.take (r.outs.length - drop)).map (fun o => (o, true))

/-- The entry of a request that closes at a tick. -/
def closedEntry (tick st : Nat) (q : Request) : Request :=
  { q with state := .closing, closeStatus := st, faultDue := 0, timer := 0, outs := [], withheld := 0, commitTick := tick }

/-- Closing, by the request's state and the room in the log. -/
theorem closeReq_of (st drop : Nat) :
    s.closeReq n st drop =
      if !reqLive r.state then s
      else if arriving r then s.modReq n (fun q => { q with importFailed := true })
      else if logRoom s (r.outs.length + 1) then
        ((if closingStatus r st = St.migrated then s else (s.writeTokens n (closingOuts r drop)).writeFinal n (closingStatus r st)).modReq n
          (closedEntry s.tick.index (closingStatus r st))).endAttempt n .byEvent
      else (s.modReq n (fun q => { q with closeStatus := closingStatus r st })).endAttempt n .late := by
  unfold State.closeReq
  rw [hr]
  rfl

end

/-- Closing a request works on that request alone. -/
theorem closeReq_alone (s : State) (n st drop : Nat) : Alone n s (s.closeReq n st drop) := by
  cases hr : s.req? n with
  | none =>
    have hsame : s.closeReq n st drop = s := by
      unfold State.closeReq
      rw [hr]
    rw [hsame]
    exact Alone.refl n s
  | some r =>
    rw [closeReq_of hr]
    split
    · exact Alone.refl n s
    split
    · exact modReq_alone ..
    split
    · refine Alone.trans ?_ ((modReq_alone ..).trans (endAttempt_alone ..))
      split
      · exact Alone.refl n s
      · exact (writeAll_streamed hr ..).left
    · exact (modReq_alone ..).trans (endAttempt_alone ..)

/-- Settles O24: closing is the stream entries written, the entry closed and the attempt dropped. -/
theorem closingARequest : Obligations.ClosingARequest := by
  unfold Obligations.ClosingARequest
  refine ⟨?closes, ?others, ?closed⟩
  case closes =>
    intro s n st drop r _ hr hl ha hroom hst _
    obtain ⟨-, ⟨q, hq⟩, hlog⟩ := writeAll_streamed hr (closingOuts r drop) (closingStatus r st)
    have hfinal : closingStatus r st ≠ St.migrated := hst
    rw [closeReq_of hr, if_neg (by simp [hl]), if_neg (by simp [ha]), if_pos hroom, if_neg hfinal]
    refine ⟨closedEntry s.tick.index (closingStatus r st) { r with nextSeq := q }, ?_, rfl, rfl, endAttempt_attempt ..,
      rfl, rfl, rfl, rfl, rfl, rfl, rfl, ?_⟩
    · refine (req_of_eq (endAttempt_req ..) n).trans ((req_modReq ..).trans ?_)
      rw [if_pos rfl, hq, hr]
      rfl
    · rw [endAttempt_req]
      refine hlog.trans ?_
      rw [closingOuts, List.length_map, List.length_take, Nat.min_eq_left (Nat.sub_le ..), Nat.add_assoc]
  case others =>
    intro s n k st drop hk _
    obtain ⟨hothers, hmem, htick⟩ := closeReq_alone s n st drop
    exact ⟨hothers k hk, hmem, htick⟩
  case closed =>
    intro s n st drop r hr hl
    rw [closeReq_of hr, if_pos (by simp [hl])]

end Sys2Proof.Laws
end

section
/-! PROOFS. Submission rings and the two doorbells that ring them and return credits (R56, R57, R69, R341, R349 to R352): an equation for each
command, and each form derived from it. -/

namespace Sys2Proof.Laws

open Sys2Proof Sys2Proof.Machine

/-! ## RING_REGISTER and RING_RELEASE -/

/-- The ring number and the size that RING_REGISTER takes (Table 16-3). -/
def ringFieldsOk (c : MbCommand) : Bool := cf c 0 1 < 64 && inRange (cf c 1 1) 6 16

theorem ringFieldsOk_iff {c : MbCommand} : ringFieldsOk c = true ↔ cf c 0 1 < 64 ∧ 6 ≤ cf c 1 1 ∧ cf c 1 1 ≤ 16 := by
  simp [ringFieldsOk, inRange]

/-- The ring and its head word are aligned (R56). -/
def ringAligned (c : MbCommand) : Bool := cf c 8 8 % 4096 = 0 && cf c 16 8 % 8 = 0

theorem ringAligned_iff {c : MbCommand} : ringAligned c = true ↔ cf c 8 8 % 4096 = 0 ∧ cf c 16 8 % 8 = 0 := by
  simp [ringAligned]

/-- The ring that a command registers, bound to its port or the one that is up (R349). -/
def newRing (s : State) (c : MbCommand) : Ring :=
  { registered := true, addr := cf c 8 8, sizeLog2 := cf c 1 1, headAddr := cf c 16 8, consumed := cf c 4 4, tail := cf c 4 4, port := s.livePort c.port }

/-- RING_REGISTER in its turn: its checks in their order, then the ring. -/
theorem exec_ringRegister_asked {s : State} {mb : Nat} {c : MbCommand} (h : Asked s mb 0x30 c) :
    exec (.ringRegister mb) s = .next (
      if ringFieldsOk c = false then s.complete c St.badArgument []
      else if (tabGet (cf c 0 1) s.req.rings).isSome then s.complete c St.busy []
      else if ringAligned c = false then s.complete c St.badRing []
      else (s.onReq (fun u => { u with rings := tabPut (cf c 0 1) (newRing s c) u.rings })).complete c St.ok []) := by
  obtain ⟨hc, hu, ht⟩ := h
  have hrun : exec (.ringRegister mb) s = .next (answer s c (do
      need (ringFieldsOk c) St.badArgument
      need (tabGet (cf c 0 1) s.req.rings).isNone St.busy
      need (ringAligned c) St.badRing
      .ok (s.onReq (fun u => { u with rings := tabPut (cf c 0 1) (newRing s c) u.rings }), []))) :=
    congrArg Host.Outcome.next (runI_asked _ hc hu ht)
  rw [hrun]
  cases ringFieldsOk c with
  | false => rfl
  | true =>
    cases tabGet (cf c 0 1) s.req.rings with
    | some g => rfl
    | none => cases ringAligned c <;> rfl

/-- RING_RELEASE of a ring below 64, in its turn. -/
theorem exec_ringRelease_due {s : State} {mb : Nat} {c : MbCommand} (h : Due s mb 0x31 c) (hn : cf c 0 1 < 64) :
    exec (.ringRelease mb) s = .next (
      match tabGet (cf c 0 1) s.req.rings with
      | none => s.begin.complete c St.notFound []
      | some g =>
        if g.stopped = true ∨ g.tail = g.consumed then (s.begin.onReq (fun u => { u with rings := tabDel (cf c 0 1) u.rings })).complete c St.ok []
        else s.begin.complete c St.busy []) := by
  obtain ⟨hc, hu, ht⟩ := h
  refine congrArg Host.Outcome.next ((runT_due _ hc hu ht).trans ?_)
  rw [decide_eq_true hn, need_true, ok_bind, begin_req]
  dsimp only
  cases tabGet (cf c 0 1) s.req.rings with
  | none => rfl
  | some g =>
    dsimp only
    by_cases hg : g.stopped = true ∨ g.tail = g.consumed
    · rw [if_pos hg, need_of (by simpa using hg)]
      rfl
    · rw [if_neg hg, need_not (by simpa using hg)]
      rfl

/-! ## Doorbells -/

/-- The host reaches the port's BAR0, outside OFF and a warm reset (R340, R348, R353). -/
theorem doorbellOpen_iff {s : State} {port : Nat} :
    doorbellOpen s port = true ↔ s.barUp port = true ∧ s.start.warmRunning = false ∧ s.start.state ≠ .off := by
  simp [doorbellOpen, and_assoc]

/-- How far a count stands ahead of a ring's consumed count, modulo 2^32 (R57). -/
def aheadOf (g : Ring) (x : Nat) : Nat := (x + 2 ^ 32 - g.consumed) % 2 ^ 32

/-- A write of four bytes at a ring's doorbell, judged against the ring (R57, R341). -/
def ringRung (s : State) (t port ring v : Nat) : State :=
  match tabGet ring s.req.rings with
  | none => s.misuse t v 3 port ring
  | some g =>
    if 2 ^ g.sizeLog2 < aheadOf g v then s.misuse t v 1 port ring
    else if aheadOf g v < aheadOf g g.tail then s.misuse t v 2 port ring
    else s.modRing ring (fun g => { g with tail := v, marks := if g.stopped || v = g.tail then g.marks else g.marks ++ [(v, t)] })

theorem exec_submissionRingDoorbell (s : State) (t port ring offset width : Nat) (v : BitVec 32) :
    exec (.submissionRingDoorbell t port ring offset width v) s = .next (
      if !doorbellOpen s port || 64 ≤ ring then s.atTime t
      else if width ≠ 4 || offset ≠ 0 then (s.atTime t).misuse t v.toNat 5 port ring
      else ringRung (s.atTime t) t port ring v.toNat) := rfl

theorem exec_streamCreditDoorbell (s : State) (t port offset width : Nat) (v : BitVec 64) :
    exec (.streamCreditDoorbell t port offset width v) s = .next (
      if !doorbellOpen s port then s.atTime t
      else if width ≠ 8 || offset ≠ 0x200000 then (s.atTime t).misuse t v.toNat 5 port (v.toNat % 2 ^ 20)
      else if bits v.toNat 31 20 ≠ 0 then (s.atTime t).misuse t v.toNat 6 port (v.toNat % 2 ^ 20)
      else (s.atTime t).arrive.onReq (fun u => { u with credits := u.credits ++ [(v.toNat % 2 ^ 20, v.toNat, t, port, s.host.arrivals)] })) := rfl

section
variable {s : State} {t port : Nat} (ho : doorbellOpen s port = true)
include ho

/-- A ring's doorbell rung where the host reaches it. -/
theorem exec_submissionRingDoorbell_rung {ring : Nat} (hn : ring < 64) (v : BitVec 32) :
    exec (.submissionRingDoorbell t port ring 0 4 v) s = .next (ringRung (s.atTime t) t port ring v.toNat) := by
  rw [exec_submissionRingDoorbell, if_neg (by simp [ho, hn]), if_neg (by simp)]

/-- A credit doorbell of eight bytes where the host reaches it. -/
theorem exec_streamCreditDoorbell_rung (v : BitVec 64) :
    exec (.streamCreditDoorbell t port 0x200000 8 v) s = .next (
      if bits v.toNat 31 20 ≠ 0 then (s.atTime t).misuse t v.toNat 6 port (v.toNat % 2 ^ 20)
      else (s.atTime t).arrive.onReq (fun u => { u with credits := u.credits ++ [(v.toNat % 2 ^ 20, v.toNat, t, port, s.host.arrivals)] })) := by
  rw [exec_streamCreditDoorbell, if_neg (by simp [ho]), if_neg (by simp)]

end

/-- Where the host does not reach the port, in OFF and during a warm reset, no doorbell is open. -/
theorem doorbellOpen_eq_false {s : State} {port : Nat} (h : s.barUp port = false ∨ s.start.warmRunning = true ∨ s.start.state = .off) :
    doorbellOpen s port = false := by
  rcases h with h | h | h <;> simp [doorbellOpen, h]

/-! ## The obligation -/

/-- Settles O22: each clause is one outcome of its command's equation. -/
theorem ringsAndDoorbells : Obligations.RingsAndDoorbells := by
  unfold Obligations.RingsAndDoorbells
  refine ⟨?registers, ?registered, ?misaligned, ?outOfRange, ?releases, ?unfinished, ?unregistered, ?tailMoves, ?tooFar, ?goesBack, ?noRing,
    ?badWrite, ?credits, ?creditBits, ?badCredit, ?ringShut, ?creditShut⟩
  case registers =>
    intro s mb c h hf hg ha
    rw [exec_ringRegister_asked h, if_neg (by simp [ringFieldsOk_iff.2 hf]), if_neg (by simp [hg]), if_neg (by simp [ringAligned_iff.2 ha])]
    rfl
  case registered =>
    intro s mb c g h hf hg
    rw [exec_ringRegister_asked h, if_neg (by simp [ringFieldsOk_iff.2 hf]), if_pos (by simp [hg])]
  case misaligned =>
    intro s mb c h hf hg ha
    rw [exec_ringRegister_asked h, if_neg (by simp [ringFieldsOk_iff.2 hf]), if_neg (by simp [hg]),
      if_pos (Bool.eq_false_iff.2 (mt ringAligned_iff.1 ha))]
  case outOfRange =>
    intro s mb c h hf
    rw [exec_ringRegister_asked h, if_pos (Bool.eq_false_iff.2 (mt ringFieldsOk_iff.1 hf))]
  case releases =>
    intro s mb c g h hn hg hd
    rw [exec_ringRelease_due h hn, hg]
    exact congrArg Host.Outcome.next (if_pos hd)
  case unfinished =>
    intro s mb c g h hn hg hd
    rw [exec_ringRelease_due h hn, hg]
    exact congrArg Host.Outcome.next (if_neg (by simpa using hd))
  case unregistered =>
    intro s mb c h hn hg
    rw [exec_ringRelease_due h hn, hg]
  case tailMoves =>
    intro s t port ring v g ho hn hg hin hfwd
    rw [exec_submissionRingDoorbell_rung (doorbellOpen_iff.2 ho) hn, ringRung, atTime_req, hg]
    exact congrArg Host.Outcome.next ((if_neg hin.not_gt).trans (if_neg hfwd.not_gt))
  case tooFar =>
    intro s t port ring v g ho hn hg hfar
    rw [exec_submissionRingDoorbell_rung (doorbellOpen_iff.2 ho) hn, ringRung, atTime_req, hg]
    exact congrArg Host.Outcome.next (if_pos hfar)
  case goesBack =>
    intro s t port ring v g ho hn hg hin hback
    rw [exec_submissionRingDoorbell_rung (doorbellOpen_iff.2 ho) hn, ringRung, atTime_req, hg]
    exact congrArg Host.Outcome.next ((if_neg hin.not_gt).trans (if_pos hback))
  case noRing =>
    intro s t port ring v ho hn hg
    rw [exec_submissionRingDoorbell_rung (doorbellOpen_iff.2 ho) hn, ringRung, atTime_req, hg]
  case badWrite =>
    intro s t port ring offset width v ho hn hw
    rw [exec_submissionRingDoorbell, if_neg (by simp [doorbellOpen_iff.2 ho, hn]), if_pos (by simpa using hw)]
  case credits =>
    intro s t port v ho hb
    rw [exec_streamCreditDoorbell_rung (doorbellOpen_iff.2 ho), if_neg (not_not.2 hb)]
  case creditBits =>
    intro s t port v ho hb
    rw [exec_streamCreditDoorbell_rung (doorbellOpen_iff.2 ho), if_pos hb]
  case badCredit =>
    intro s t port offset width v ho hw
    rw [exec_streamCreditDoorbell, if_neg (by simp [doorbellOpen_iff.2 ho]), if_pos (by simpa using hw)]
  case ringShut =>
    intro s t port ring offset width v h
    rw [exec_submissionRingDoorbell, if_pos (by simp [doorbellOpen_eq_false h])]
  case creditShut =>
    intro s t port offset width v h
    rw [exec_streamCreditDoorbell, if_pos (by simp [doorbellOpen_eq_false h])]

end Sys2Proof.Laws
end

section
/-! PROOFS. Commands that name a request (R74 to R76, R244, R381): that the credits and messages taken before a command move neither the tick nor
the device's identity, what each command does to the request, and each clause derived from it. -/

namespace Sys2Proof.Laws

open Sys2Proof Sys2Proof.Machine

/-! ## What stays while events are taken -/

/-- The tick and the start-up unit, which hold the device's identity and its group, are as they were. -/
def Seated (s0 s : State) : Prop := s.tick = s0.tick ∧ s.start = s0.start

section
variable {s0 s : State}

theorem Seated.refl (s : State) : Seated s s := ⟨rfl, rfl⟩

/-- A step that leaves both alone. -/
theorem Seated.step {t : State} (h : Seated s0 s) (ht : t.tick = s.tick) (hs : t.start = s.start) : Seated s0 t := h.imp ht.trans hs.trans

theorem Seated.ite {a b : State} {p : Prop} [Decidable p] (ha : Seated s0 a) (hb : Seated s0 b) : Seated s0 (if p then a else b) := by
  split <;> assumption

theorem Seated.foldl {α : Type} {f : State → α → State} {l : List α} (h : Seated s0 s) (hf : ∀ t, ∀ x ∈ l, Seated s0 t → Seated s0 (f t x)) :
    Seated s0 (l.foldl f s) :=
  List.foldlRecOn l f h fun t ht x hx => hf t x hx ht

/-! ### Packets and shipments -/

theorem queueFlits_seated (p : Nat) (l : List Flit) (h : Seated s0 s) : Seated s0 (s.queueFlits p l) := h.step rfl rfl

theorem sendPacket_seated (p : Packet) (h : Seated s0 s) : Seated s0 (s.sendPacket p) := by
  unfold State.sendPacket
  dsimp only
  split
  · exact queueFlits_seated _ _ (h.step rfl rfl)
  · exact h.step rfl rfl
  · exact h

theorem sendEnd_seated (dst n tc cause : Nat) (h : Seated s0 s) : Seated s0 (s.sendEnd dst n tc cause) := by
  unfold State.sendEnd State.sendMsg
  exact Seated.foldl (h.step rfl rfl : Seated s0 (s.onGelcon _)) fun _ _ _ => sendPacket_seated _

theorem dropShip_seated (n : Nat) (h : Seated s0 s) : Seated s0 (s.dropShip n) := by
  unfold State.dropShip State.releaseBlocks
  split <;> exact h.step rfl rfl

/-! ### References -/

theorem releaseT2_seated (n : Nat) (h : Seated s0 s) : Seated s0 (s.releaseT2 n) := by
  unfold State.releaseT2
  split <;> exact h.step rfl rfl

theorem recheck_seated (n : Nat) (h : Seated s0 s) : Seated s0 (s.recheck n) := by
  have hfree : Seated s0 (s.freeGroup n none) := by
    unfold State.freeGroup
    split
    · exact h
    · exact (releaseT2_seated n (h.step (t := s.unindex n) rfl rfl)).step rfl rfl
  unfold State.recheck
  split
  · exact h
  · exact hfree.ite h

theorem dropRequestRefs_seated (n : Nat) (r : Request) (h : Seated s0 s) : Seated s0 (s.dropRequestRefs n r) := by
  have hdrop (t : State) (g : Nat) (ht : Seated s0 t) : Seated s0 ((t.modGroup g (disown n)).dropRef g) := by
    unfold State.dropRef
    exact recheck_seated g (ht.step rfl rfl)
  have hall := h.foldl (l := ((r.pages ++ r.draftPages).filter (fun p => p.handle ≠ 0 && !p.weak)).map (·.handle)) fun t g _ => hdrop t g
  unfold State.dropRequestRefs
  exact Seated.ite hall (hall.step rfl rfl)

/-! ### Messages on a migration (Table 17-2) -/

theorem dropIncoming_seated (n : Nat) (h : Seated s0 s) : Seated s0 (s.dropIncoming n) := by
  unfold State.dropIncoming
  refine Seated.ite ?_ h
  have hends := h.foldl (l := s.gelcon.ships.filter (fun x => !x.outgoing && x.slot = some n))
    fun _ x _ ht => sendEnd_seated (shipSender x.handle) x.handle x.tc 5 (dropShip_seated x.handle ht)
  dsimp only
  split
  · exact hends.step rfl rfl
  · exact (dropRequestRefs_seated n _ (hends.step rfl rfl : Seated s0 (State.onGelcon _ _))).step rfl rfl

theorem endMigration_seated (n st : Nat) (h : Seated s0 s) : Seated s0 (s.endMigration n st) := by
  unfold State.endMigration
  split
  · exact h
  · split
    · exact Seated.ite (h.step rfl rfl) (h.step rfl rfl)
    · next c _ =>
      have hdone (d : List Byte) := h.step (complete_tick s c st d) (complete_start s c st d)
      exact Seated.ite ((hdone _).step rfl rfl) ((hdone _).step rfl rfl)

theorem shipResult_seated (n result : Nat) (h : Seated s0 s) : Seated s0 (s.shipResult n result) := by
  unfold State.shipResult
  split
  · exact h
  · exact Seated.ite (h.step rfl rfl) h

/-- A message on a migration under way. -/
theorem takeMgmt_seated (src : Nat) {m : MgmtMsg} {n : Nat} (hm : mgmtSlot m = some n) (h : Seated s0 s) : Seated s0 (s.takeMgmt src m) := by
  unfold State.takeMgmt
  cases m with
  | reply n st => exact h.ite ((endMigration_seated n st h).ite (h.ite (shipResult_seated n 0 h)))
  | verified n ok => exact Seated.ite (h.ite (dropIncoming_seated n h)) ((shipResult_seated n _ h).ite h)
  | prepare | portStates | other => cases hm

/-! ### The events of a request (R42) -/

theorem mem_inOrderPut {α : Type} (key : α → EventKey) {x y : α} {l : List α} (h : y ∈ inOrder.put key x l) : y = x ∨ y ∈ l := by
  induction l with
  | nil => exact Or.inl (List.mem_singleton.1 h)
  | cons z l ih =>
    unfold inOrder.put at h
    split at h
    · exact List.mem_cons.1 h
    · rcases List.mem_cons.1 h with rfl | h
      · exact Or.inr List.mem_cons_self
      · exact (ih h).imp_right (List.mem_cons_of_mem z)

/-- What is put in order is in the list. -/
theorem mem_of_mem_inOrder {α : Type} {key : α → EventKey} {y : α} {l : List α} (h : y ∈ inOrder key l) : y ∈ l := by
  have hfold : ∀ z ∈ inOrder key l, z ∈ l :=
    List.foldlRecOn (motive := fun acc => ∀ z ∈ acc, z ∈ l) l _ (fun _ hz => absurd hz List.not_mem_nil)
      fun acc hacc x hx z hz => (mem_inOrderPut key hz).elim (fun he => he ▸ hx) (hacc z)
  exact hfold y h

theorem takeCreditBell_seated (b : Nat × Nat × Nat × Nat × Nat) (h : Seated s0 s) : Seated s0 (s.takeCreditBell b) := by
  unfold State.takeCreditBell
  split
  · exact h
  · exact h.ite (Seated.ite (h.step rfl rfl) (h.step (misuse_tick ..) (misuse_start ..)))

theorem takeCreditsFor_seated (n : Nat) (k : Option EventKey) (h : Seated s0 s) : Seated s0 (s.takeCreditsFor n k) := by
  unfold State.takeCreditsFor State.takeCreditsOf
  exact Seated.foldl (h.step rfl rfl : Seated s0 (s.onReq _)) fun _ b _ => takeCreditBell_seated b

/-- Messages that all concern a migration under way. -/
theorem takeMgmts_seated {p : Nat × Nat × Nat × MgmtMsg → Bool} (hp : ∀ x, p x = true → ∃ n, mgmtSlot x.2.2.2 = some n) (h : Seated s0 s) :
    Seated s0 (s.takeMgmts p) := by
  unfold State.takeMgmts
  refine Seated.foldl (h.step rfl rfl : Seated s0 (s.onGelcon _)) fun t x hx => ?_
  obtain ⟨-, hdue⟩ := List.mem_filter.1 (mem_of_mem_inOrder hx)
  obtain ⟨n, hn⟩ := hp x (Bool.and_eq_true_iff.1 hdue).2
  exact takeMgmt_seated _ hn

end

/-- The state in which a command acts on its request has the tick and the identity of the one before. -/
theorem credited_seated (s : State) (c : MbCommand) : Seated s (credited s c) := by
  unfold credited State.takeEventsFor
  refine takeMgmts_seated (fun x hx => ?_) (takeCreditsFor_seated _ _ ((Seated.refl s).step rfl rfl))
  exact ⟨cf c 0 4, of_decide_eq_true (Bool.and_eq_true_iff.1 hx).1⟩

/-! ## The commands -/

/-- A command that names a live request and its admission comes to what its body does (R74). -/
theorem next_reqCommand_on {s t : State} {mb op : Nat} {c : MbCommand} {r : Request} {f : MbCommand → Nat → Request → State → State}
    (h : OnRequest s mb op c r) (ht : f c (cf c 0 4) r (credited s c) = t) :
    (.next (s.reqCommand mb op f) : Host.Outcome State Fault Refusal) = .next (afterCommand t (cf c 0 4)) := by
  rw [reqCommand_on f h, ht]

/-- One that names no such request completes REQ_CLOSED (R74). -/
theorem next_reqCommand_closed {s : State} {mb op : Nat} {c : MbCommand} {f : MbCommand → Nat → Request → State → State} (h : Due s mb op c)
    (hr : ((credited s c).req? (cf c 0 4)).all (fun r => !(reqLive r.state && namesReq c r)) = true) :
    (.next (s.reqCommand mb op f) : Host.Outcome State Fault Refusal) = .next (afterCommand ((credited s c).complete c St.reqClosed []) (cf c 0 4)) :=
  congrArg _ (reqCommand_closed f h hr)

/-- A request that runs: its attempts are planned, and a pause waits on their settlement (R76). -/
def reqRuns (r : Request) : Bool := r.state = .prefilling || r.state = .decoding

theorem reqRuns_iff {r : Request} : reqRuns r = true ↔ r.state = .prefilling ∨ r.state = .decoding := by simp [reqRuns]

/-- The length and the alignment of a draft text (Table 10-1). -/
def draftFieldsBad (c : MbCommand) : Bool := !inRange (cf c 16 2) 1 4096 || cf c 8 8 % 4 ≠ 0

theorem draftFieldsBad_eq_false {c : MbCommand} : draftFieldsBad c = false ↔ 1 ≤ cf c 16 2 ∧ cf c 16 2 ≤ 4096 ∧ cf c 8 8 % 4 = 0 := by
  simp [draftFieldsBad, inRange, and_assoc]

/-- A destination that is no other member of this device's group (R381). -/
def notPeer (s : State) (dst : Nat) : Bool := !s.tick.inGroup || groupOf dst ≠ s.tick.group || dst = identityOf s || 512 ≤ dst

theorem notPeer_iff {s : State} {dst : Nat} :
    notPeer s dst = true ↔ s.tick.inGroup = false ∨ groupOf dst ≠ s.tick.group ∨ dst = identityOf s ∨ 512 ≤ dst := by
  simp [notPeer, or_assoc]

theorem notPeer_eq_false {s : State} {dst : Nat} :
    notPeer s dst = false ↔ s.tick.inGroup = true ∧ groupOf dst = s.tick.group ∧ dst ≠ identityOf s ∧ dst < 512 := by
  simp [notPeer, and_assoc]

theorem notPeer_credited (s : State) (c : MbCommand) (dst : Nat) : notPeer (credited s c) dst = notPeer s dst := by
  obtain ⟨htick, hstart⟩ := credited_seated s c
  rw [notPeer, identityOf, htick, hstart]
  rfl

/-- A state in which a request cannot be migrated, or a migration of it under way (R381). -/
def notMovable (r : Request) : Bool := !(r.state = .prefilling || r.state = .decoding || r.state = .paused) || r.migrating

theorem notMovable_iff {r : Request} :
    notMovable r = true ↔ ¬(r.state = .prefilling ∨ r.state = .decoding ∨ r.state = .paused) ∨ r.migrating = true := by
  simp [notMovable, and_assoc]

/-! ## The obligation -/

/-- Settles O25: each clause is one branch of its command's body, in the state that has taken what comes before it. -/
theorem commandsOnARequest : Obligations.CommandsOnARequest := by
  unfold Obligations.CommandsOnARequest
  refine ⟨?cancel, ?pause, ?pauseAgain, ?unpause, ?pauseState, ?resume, ?resumeParked, ?resumeState, ?draft, ?draftState, ?draftFields, ?migrate,
    ?migrateTo, ?migrateState, ?draftAddress, ?cancelClosed, ?pauseClosed, ?resumeClosed, ?draftClosed, ?migrateClosed⟩
  case cancel =>
    intro s mb c r h
    exact next_reqCommand_on h rfl
  case pause =>
    intro s mb c r h hr hp
    exact next_reqCommand_on h ((if_pos (reqRuns_iff.2 hr)).trans (if_neg (by simp [hp])))
  case pauseAgain =>
    intro s mb c r h hr hp
    exact next_reqCommand_on h ((if_pos (reqRuns_iff.2 hr)).trans (if_pos hp))
  case unpause =>
    intro s mb c r h hr hp
    obtain ⟨hpaused, hparked⟩ : r.state ≠ .paused ∧ r.state ≠ .parked := by rcases hr with hr | hr <;> simp [hr]
    exact next_reqCommand_on h ((if_neg hpaused).trans ((if_neg hparked).trans (if_pos (Bool.and_eq_true_iff.2 ⟨reqRuns_iff.2 hr, hp⟩))))
  case pauseState =>
    intro s mb c r h hr
    exact next_reqCommand_on h (if_neg (mt reqRuns_iff.1 hr))
  case resume =>
    intro s mb c r h hr
    exact next_reqCommand_on h (if_pos hr)
  case resumeParked =>
    intro s mb c r h hr
    exact next_reqCommand_on h ((if_neg (by simp [hr])).trans (if_pos hr))
  case resumeState =>
    intro s mb c r h hr
    obtain ⟨hpaused, hparked⟩ : r.state ≠ .paused ∧ r.state ≠ .parked := by rcases hr with hr | hr | ⟨hr | hr, -⟩ <;> simp [hr]
    have hnone : ¬(reqRuns r && pausePending (credited s c) (cf c 0 4)) = true := by
      rcases hr with hr | hr | ⟨-, hp⟩
      · simp [reqRuns, hr]
      · simp [reqRuns, hr]
      · simp [hp]
    exact next_reqCommand_on h ((if_neg hpaused).trans ((if_neg hparked).trans (if_neg hnone)))
  case draft =>
    intro s mb c r l h hf hs
    exact next_reqCommand_on h ((if_neg (Bool.eq_false_iff.1 (draftFieldsBad_eq_false.2 hf))).trans (if_neg (not_not.2 hs)))
  case draftState =>
    intro s mb c r l h hf hs
    exact next_reqCommand_on h ((if_neg (Bool.eq_false_iff.1 (draftFieldsBad_eq_false.2 hf))).trans (if_pos hs))
  case draftFields =>
    intro s mb c r l h hf
    exact next_reqCommand_on h (if_pos (Bool.not_eq_false _ ▸ mt draftFieldsBad_eq_false.1 hf))
  case migrate =>
    intro s mb c r h hd hr hm
    have hmove : ¬notMovable r = true := by
      rw [notMovable_iff]
      simp [hr, hm]
    have hpeer : ¬notPeer (credited s c) (cf c 8 2) = true := by
      rw [notPeer_credited, notPeer_eq_false.2 hd]
      decide
    exact next_reqCommand_on h ((if_neg hpeer).trans (if_neg hmove))
  case migrateTo =>
    intro s mb c r h hd
    have hpeer : notPeer (credited s c) (cf c 8 2) = true := by rw [notPeer_credited, notPeer_iff.2 hd]
    exact next_reqCommand_on h (if_pos hpeer)
  case migrateState =>
    intro s mb c r h hd hr
    have hpeer : ¬notPeer (credited s c) (cf c 8 2) = true := by
      rw [notPeer_credited, notPeer_eq_false.2 hd]
      decide
    exact next_reqCommand_on h ((if_neg hpeer).trans (if_pos (notMovable_iff.2 hr)))
  case draftAddress =>
    intro s mb c r h hf hs
    exact next_reqCommand_on h ((if_neg (Bool.eq_false_iff.1 (draftFieldsBad_eq_false.2 hf))).trans (if_neg (not_not.2 hs)))
  case cancelClosed =>
    intro s mb c h hr
    exact next_reqCommand_closed h hr
  case pauseClosed =>
    intro s mb c h hr
    exact next_reqCommand_closed h hr
  case resumeClosed =>
    intro s mb c h hr
    exact next_reqCommand_closed h hr
  case draftClosed =>
    intro s mb c l h hr
    exact next_reqCommand_closed h hr
  case migrateClosed =>
    intro s mb c h hr
    exact next_reqCommand_closed h hr

end Sys2Proof.Laws
end

section
/-! PROOFS. The placement directives and PREFIX_PROBE (R276, R281, R282): what a directive comes to in its turn, an equation for each form, and
each clause derived from it. -/

namespace Sys2Proof.Laws

open Sys2Proof Sys2Proof.Machine

@[simp] theorem namedGroup_begin (s : State) (c : MbCommand) : namedGroup s.begin c = namedGroup s c := rfl
@[simp] theorem group_begin (s : State) (h : Nat) : s.begin.group? h = s.group? h := rfl

/-! ## Directives on a page group (Table 11-14) -/

/-- A directive in its turn runs its body: its number is its own, and its kind is that of what it names. -/
theorem runDirective_due {s : State} {mb d : Nat} {c : MbCommand} (f : MbCommand → State → Except Nat (State × List Byte)) (h : Due s mb 0x62 c)
    (hd : cf c 0 1 = d) (hk : cf c 1 1 = if d = 6 then 1 else 0) : runDirective s mb d f = answer s.begin c (f c s.begin) := by
  obtain ⟨hc, hu, ht⟩ := h
  have hother : ¬(inRange (cf c 0 1) 1 6 && decide (cf c 0 1 ≠ d)) = true := by simp [hd]
  have hmine : (decide (cf c 0 1 = d) && decide (cf c 1 1 = if d = 6 then 1 else 0)) = true := by rw [decide_eq_true hd, decide_eq_true hk]; rfl
  unfold runDirective
  rw [hc]
  refine (if_neg hother).trans ((runT_due _ hc hu ht).trans ?_)
  rw [need_of hmine, ok_bind]

section
variable {s : State} {mb d : Nat} {c : MbCommand} (f : Nat → State → Except Nat State) (h : Due s mb 0x62 c) (hd : cf c 0 1 = d ∧ cf c 1 1 = 0)
  (hne : d ≠ 6)
include h hd hne

/-- A directive on the group that its domain and digest name. -/
theorem groupDirective_named {g : Nat} (hg : namedGroup s c = some g) :
    groupDirective s mb d f = answer s.begin c ((f g s.begin).map (fun t => (t, []))) := by
  unfold groupDirective
  rw [runDirective_due _ h hd.1 (hd.2.trans (if_neg hne).symm), namedGroup_begin, hg]

/-- One whose group does the directive without a check. -/
theorem groupDirective_ok {g : Nat} (hg : namedGroup s c = some g) {t : State} (ht : f g s.begin = .ok t) :
    groupDirective s mb d f = t.complete c St.ok [] := by
  rw [groupDirective_named f h hd hne hg, ht]
  rfl

/-- One whose group fails the directive's check. -/
theorem groupDirective_refused {g : Nat} (hg : namedGroup s c = some g) {e : Nat} (he : f g s.begin = .error e) :
    groupDirective s mb d f = s.begin.complete c e [] := by
  rw [groupDirective_named f h hd hne hg, he]
  rfl

/-- A group that is not there. -/
theorem groupDirective_notFound (hg : namedGroup s c = none) : groupDirective s mb d f = s.begin.complete c St.notFound [] := by
  unfold groupDirective
  rw [runDirective_due _ h hd.1 (hd.2.trans (if_neg hne).symm), namedGroup_begin, hg]
  rfl

end

/-- A group that DEMOTE takes (R268). -/
def mayDemote (g : PageGroup) : Bool := (g.state = .resident || g.state = .parked) && g.refs = 0 && !g.pinned

theorem mayDemote_iff {g : PageGroup} : mayDemote g = true ↔ (g.state = .resident ∨ g.state = .parked) ∧ g.refs = 0 ∧ g.pinned = false := by
  simp [mayDemote, and_assoc]

/-! ## PARK_NOW -/

/-- The admission that PARK_NOW names is that of a live request. -/
def parkNames (c : MbCommand) (r : Request) : Bool := reqLive r.state && r.admitTick % two32 = cf c 8 4

/-- PARK_NOW of a request: its checks, and the hold that ends at the next edge. -/
def parkRequest (s : State) (c : MbCommand) (r : Request) : Except Nat (State × List Byte) := do
  need (parkNames c r) St.reqClosed
  need (r.state = .paused) St.badState
  .ok (s.modReq (cf c 4 4) (fun q => { q with timer := s.nextEdge }), [])

theorem answer_parkRequest (s : State) (c : MbCommand) (r : Request) :
    answer s c (parkRequest s c r) =
      if parkNames c r = false then s.complete c St.reqClosed []
      else if r.state = .paused then (s.modReq (cf c 4 4) (fun q => { q with timer := s.nextEdge })).complete c St.ok []
      else s.complete c St.badState [] := by
  unfold parkRequest
  cases parkNames c r
  · rfl
  · by_cases hp : r.state = .paused
    · rw [decide_eq_true hp, if_pos hp]
      rfl
    · rw [decide_eq_false hp, if_neg hp]
      rfl

/-- PARK_NOW in its turn; what stands behind it in the window's order is then settled (R76, R306). -/
theorem exec_parkNow_due {s : State} {mb : Nat} {c : MbCommand} (h : Due s mb 0x62 c) (hd : cf c 0 1 = 6 ∧ cf c 1 1 = 1) :
    exec (.parkNow mb) s = .next (State.settlePump (
      match s.req? (cf c 4 4) with
      | none => s.begin.complete c St.reqClosed []
      | some r => answer s.begin c (parkRequest s.begin c r))) := by
  refine congrArg (fun t => Host.Outcome.next (State.settlePump t)) ((runDirective_due _ h hd.1 hd.2).trans ?_)
  rw [req_begin]
  cases s.req? (cf c 4 4) <;> rfl

/-! ## PREFIX_PROBE (R276) -/

/-- The count of tokens and the model slot that PREFIX_PROBE takes. -/
def probeFieldsOk (c : MbCommand) : Bool := inRange (cf c 8 4) 1 2097151 && cf c 2 1 < 16

theorem probeFieldsOk_iff {c : MbCommand} : probeFieldsOk c = true ↔ 1 ≤ cf c 8 4 ∧ cf c 8 4 ≤ 2097151 ∧ cf c 2 1 < 16 := by
  simp [probeFieldsOk, inRange, and_assoc]

/-- The probe names an Alloy that the device has units for, or none. -/
def probeUnitsOk (s : State) (c : MbCommand) : Bool := !bit (cf c 4 2) 15 || hasAlloy s.variant

theorem probeUnitsOk_iff {s : State} {c : MbCommand} : probeUnitsOk s c = true ↔ (bit (cf c 4 2) 15 = true → s.variant ≠ .cb) := by
  rw [← hasAlloy_iff]
  cases h : bit (cf c 4 2) 15 <;> simp [probeUnitsOk, h]

/-- The generation that the Alloy of a probe has on its model slot. -/
def probeGen (s : State) (c : MbCommand) : Option AlloyGen := currentGen s (cf c 4 2 % 4096) (cf c 2 1)

/-- The context of a probe: the domain, the model, and the Alloy's current generation where it names one. -/
def probeRequest (s : State) (c : MbCommand) : Request :=
  { domain := cf c 0 2, modelSlot := cf c 2 1, alloyEn := bit (cf c 4 2) 15, alloyId := cf c 4 2 % 4096, alloyGen := ((probeGen s c).map (·.gen)).getD 0 }

/-- The probe names an Alloy that has no generation: it matches nothing. -/
def probeLost (s : State) (c : MbCommand) : Bool := bit (cf c 4 2) 15 && (probeGen s c).isNone

/-- The answer of a probe whose tokens have been read. -/
def probeAnswer (s : State) (c : MbCommand) (l : List Nat) : State × List Byte :=
  let hit := if probeLost s c then [] else admissionMatch s (probeRequest s c) l
  (s.usePipe (if probeLost s c then 0 else digestsFormed s (probeRequest s c) l.length hit.length), leBytes 4 (128 * hit.length))

theorem probeGen_read (s : State) (c : MbCommand) (p a n : Nat) : probeGen (s.begin.hostRead p a n) c = probeGen s c :=
  congrArg (fun m => currentGen { s with models := m } (cf c 4 2 % 4096) (cf c 2 1)) (hostRead_models ..)

/-- PREFIX_PROBE in its turn: its checks in their order, then the answer. -/
theorem exec_prefixProbe_due {s : State} {mb : Nat} {c : MbCommand} (l : Option (List Nat)) (h : Due s mb 0x63 c) :
    exec (.prefixProbe mb l) s = .next (
      if probeFieldsOk c = false then s.begin.complete c St.badArgument []
      else if probeUnitsOk s c = false then s.begin.complete c St.unsupportedUnit []
      else match l with
        | none => s.begin.complete c St.badAddress []
        | some l =>
          let a := probeAnswer (s.begin.hostRead c.port (cf c 16 8) (4 * cf c 8 4)) c (l.take (cf c 8 4))
          a.1.complete c St.ok a.2) := by
  obtain ⟨hc, hu, ht⟩ := h
  have hrun : exec (.prefixProbe mb l) s = .next (answer s.begin c (do
      need (probeFieldsOk c) St.badArgument
      need (probeUnitsOk s c) St.unsupportedUnit
      match l with
      | none => .error St.badAddress
      | some l => .ok (probeAnswer (s.begin.hostRead c.port (cf c 16 8) (4 * cf c 8 4)) c (l.take (cf c 8 4))))) :=
    congrArg Host.Outcome.next ((runT_due _ hc hu ht).trans (by cases l <;> rfl))
  rw [hrun]
  cases probeFieldsOk c with
  | false => rfl
  | true =>
    cases probeUnitsOk s c with
    | false => rfl
    | true => cases l <;> rfl

/-! ## The obligation -/

/-- Settles O28: each clause is one outcome of its directive's equation. -/
theorem tierDirectives : Obligations.TierDirectives := by
  unfold Obligations.TierDirectives
  refine ⟨?pin, ?unpin, ?promote, ?demote, ?demoteBusy, ?drop, ?dropPinned, ?pinNone, ?unpinNone, ?promoteNone, ?demoteNone, ?dropNone, ?park,
    ?parkState, ?parkClosed, ?probe, ?probeNoGen, ?probeAddress, ?probeUnits, ?probeFields⟩
  case pin =>
    intro s mb h c hdue hd hg
    exact congrArg Host.Outcome.next (groupDirective_ok _ hdue hd (by decide) hg rfl)
  case unpin =>
    intro s mb h c hdue hd hg
    exact congrArg Host.Outcome.next (groupDirective_ok _ hdue hd (by decide) hg rfl)
  case promote =>
    intro s mb h c hdue hd hg
    exact congrArg Host.Outcome.next (groupDirective_ok _ hdue hd (by decide) hg rfl)
  case demote =>
    intro s mb h c g hdue hd hg hs hm
    refine congrArg Host.Outcome.next (groupDirective_ok _ hdue hd (by decide) hg ?_)
    rw [group_begin, hs]
    exact if_pos (mayDemote_iff.2 hm)
  case demoteBusy =>
    intro s mb h c g hdue hd hg hs hm
    refine congrArg Host.Outcome.next (groupDirective_refused _ hdue hd (by decide) hg ?_)
    rw [group_begin, hs]
    exact if_neg (mt mayDemote_iff.1 hm)
  case drop =>
    intro s mb h c g hdue hd hg hs hp
    refine congrArg Host.Outcome.next (groupDirective_ok _ hdue hd (by decide) hg ?_)
    rw [group_begin, hs]
    exact congrArg Except.ok (if_neg (by simp [hp]))
  case dropPinned =>
    intro s mb h c g hdue hd hg hs hp
    refine congrArg Host.Outcome.next (groupDirective_ok _ hdue hd (by decide) hg ?_)
    rw [group_begin, hs]
    exact congrArg Except.ok (if_pos hp)
  case pinNone =>
    intro s mb c hdue hd hg
    exact congrArg Host.Outcome.next (groupDirective_notFound _ hdue hd (by decide) hg)
  case unpinNone =>
    intro s mb c hdue hd hg
    exact congrArg Host.Outcome.next (groupDirective_notFound _ hdue hd (by decide) hg)
  case promoteNone =>
    intro s mb c hdue hd hg
    exact congrArg Host.Outcome.next (groupDirective_notFound _ hdue hd (by decide) hg)
  case demoteNone =>
    intro s mb c hdue hd hg
    exact congrArg Host.Outcome.next (groupDirective_notFound _ hdue hd (by decide) hg)
  case dropNone =>
    intro s mb c hdue hd hg
    exact congrArg Host.Outcome.next (groupDirective_notFound _ hdue hd (by decide) hg)
  case park =>
    intro s mb c r hdue hd hr hn hp
    rw [exec_parkNow_due hdue hd, hr]
    dsimp only
    rw [answer_parkRequest, if_neg (by simp [parkNames, hn]), if_pos hp]
  case parkState =>
    intro s mb c r hdue hd hr hn hp
    rw [exec_parkNow_due hdue hd, hr]
    dsimp only
    rw [answer_parkRequest, if_neg (by simp [parkNames, hn]), if_neg hp]
  case parkClosed =>
    intro s mb c hdue hd hall
    rw [exec_parkNow_due hdue hd]
    cases hr : s.req? (cf c 4 4) with
    | none => rfl
    | some r =>
      rw [hr, Option.all_some, Bool.not_eq_true'] at hall
      have hn : parkNames c r = false := hall
      dsimp only
      rw [answer_parkRequest, if_pos hn]
  case probe =>
    rintro s u mb c l r hdue hf ha rfl rfl
    have hu : probeUnitsOk s c = true := probeUnitsOk_iff.2 fun hb => (ha hb).1
    have hlost : probeLost (s.begin.hostRead c.port (cf c 16 8) (4 * cf c 8 4)) c = false := by
      rw [probeLost, probeGen_read]
      cases hb : bit (cf c 4 2) 15
      · rfl
      · simpa [probeGen] using (ha hb).2
    rw [exec_prefixProbe_due _ hdue, if_neg (by simp [probeFieldsOk_iff.2 hf]), if_neg (by simp [hu])]
    dsimp only
    rw [probeAnswer, hlost, probeRequest, probeGen_read]
    rfl
  case probeNoGen =>
    intro s mb c l hdue hf hb hv hg
    have hlost : probeLost (s.begin.hostRead c.port (cf c 16 8) (4 * cf c 8 4)) c = true := by
      rw [probeLost, probeGen_read, hb, probeGen, hg]
      rfl
    rw [exec_prefixProbe_due _ hdue, if_neg (by simp [probeFieldsOk_iff.2 hf]), if_neg (by simp [probeUnitsOk_iff.2 fun _ => hv])]
    dsimp only
    rw [probeAnswer, hlost]
    rfl
  case probeAddress =>
    intro s mb c hdue hf ha
    rw [exec_prefixProbe_due _ hdue, if_neg (by simp [probeFieldsOk_iff.2 hf]), if_neg (by simp [probeUnitsOk_iff.2 ha])]
  case probeUnits =>
    intro s mb c l hdue hf hb hv
    have hu : probeUnitsOk s c = false := Bool.eq_false_iff.2 (mt probeUnitsOk_iff.1 fun ha => ha hb hv)
    rw [exec_prefixProbe_due _ hdue, if_neg (by simp [probeFieldsOk_iff.2 hf]), if_pos hu]
  case probeFields =>
    intro s mb c l hdue hf
    rw [exec_prefixProbe_due _ hdue, if_pos (Bool.eq_false_iff.2 (mt probeFieldsOk_iff.1 hf))]

end Sys2Proof.Laws
end

section
/-! PROOFS. The checks of the bank-unit sequencer (R122 to R125, R133, R140, R141): what a command comes to at each of them, and what a job
fault touches (R109). -/

namespace Sys2Proof.Laws

open Sys2Proof Sys2Proof.Machine

/-! ## The queue -/

section
variable {s : State} {cl : Nat} {c : BuCmd} (hq : s.clusterUp cl = true ∧ s.mayQueue c.job = true)
include hq

/-- A command that breaks the rules of its words is rejected as it is issued (R122 to R124). -/
theorem buIssue_broken (hop : c.op ≠ 16) (h : buFormOk s c = false ∨ buFits s cl c = false) : buIssue cl c s = s.jobFault c.job := by
  have hrule : ¬(decide (c.op = 16) || (buFormOk s c && buFits s cl c)) = true := by
    rcases h with h | h <;> simp [hop, h]
  rw [buIssue, if_neg (by simp [hq]), if_neg hrule]

variable (hrule : buFormOk s c = true ∧ buFits s cl c = true)
include hrule

/-- One that keeps them is offered to the banks. -/
theorem buIssue_offered : buIssue cl c s = buOffer cl s c := by
  rw [buIssue, if_neg (by simp [hq]), if_pos (by simp [hrule])]

/-- One with something to wait for enters the queue (R125, R133). -/
theorem buIssue_waits (hop : c.op ≠ 16) (h : (s.bcl cl).queue.any (fun q => buShare s.variant q c) = true ∨ buStarts s cl c.word = false) :
    buIssue cl c s = s.modBcl cl (fun x => { x with queue := x.queue ++ [c] }) := by
  have hwait : ((s.bcl cl).queue.any (fun q => buShare s.variant q c) || !(decide (c.op = 16) || buStarts s cl c.word)) = true := by
    rcases h with h | h
    · rw [h, Bool.true_or]
    · simp [hop, h]
  rw [buIssue_offered hq hrule, buOffer, if_pos hwait]

/-- A job's command with nothing to wait for comes to run. -/
theorem buIssue_turn (hj : c.job ≠ 17)
    (h : (s.bcl cl).queue.any (fun q => buShare s.variant q c) = false ∧ buStarts s cl c.word = true) :
    buIssue cl c s = buRun cl s c := by
  rw [buIssue_offered hq hrule, buOffer, if_neg (by rw [h.1, h.2]; simp), buBegin, if_neg hj]

end

theorem buIssue_notQueued {s : State} {c : BuCmd} (cl : Nat) (h : s.mayQueue c.job = false) : buIssue cl c s = s := by
  rw [buIssue, if_pos (by simp [h])]

/-! ## What a command that comes to run must keep -/

theorem buAccept_eq {s : State} {cl : Nat} {c : BuCmd} (hop : c.op ≠ 16) : buAccept s cl c = (buUnitsOk s cl c && buGrantsOk s cl c) := if_neg hop

/-- Its units and ranges must allow it (R124, R141). -/
theorem buRun_refused {s : State} {cl : Nat} {c : BuCmd} (hop : c.op ≠ 16) (h : buUnitsOk s cl c = false ∨ buGrantsOk s cl c = false) :
    buRun cl s c = s.jobFault c.job := by
  have hno : buAccept s cl c = false := by
    rw [buAccept_eq hop]
    rcases h with h | h <;> simp [h]
  rw [buRun, if_pos (by simp [hno])]

/-- The range checker must find nothing in it (R140). -/
theorem buRun_violates {s : State} {cl : Nat} {c : BuCmd} {p : Nat × Nat} (hop : c.op ≠ 16)
    (h : buUnitsOk s cl c = true ∧ buGrantsOk s cl c = true) (hp : rchkFinds s cl c = some p) :
    buRun cl s c = (rchkNote s cl c.job p.1 p.2 c.op).jobFault c.job := by
  rw [buRun, if_neg (by simp [buAccept_eq hop, h]), hp]

/-- The checker finds the first granule read that a pending append entry covers, before any written. -/
theorem rchkFinds_read {s : State} {cl g : Nat} {c : BuCmd} (hon : rchkOn s cl = true) (hop : c.op = 5 ∨ c.op = 7 ∨ c.op = 8)
    (hg : rchkRead s cl c.word = some g) : rchkFinds s cl c = some (g, 0) := by
  have hrd : (decide (c.op = 5) || decide (c.op = 7) || decide (c.op = 8)) = true := by simpa [or_assoc] using hop
  simp [rchkFinds, hon, hrd, hg]

/-- A FILL reads nothing, and the checker finds the first granule written that its job holds in scratchpad. -/
theorem rchkFinds_fill {s : State} {cl g : Nat} {c : BuCmd} (hon : rchkOn s cl = true) (hop : c.op = 9)
    (hg : rchkWrite s cl c.job c.word (buRow c.word) = some g) : rchkFinds s cl c = some (g, 1) := by
  simp [rchkFinds, hon, hop, hg]

/-! ## What a job fault touches (R109) -/

/-- A job fault updates the plan but for its rows, the engines, the store and the counters; of the bank units it drops what the job waits for at
their sequencers, or nothing where the job has faulted before. -/
theorem jobFault_units (s : State) (m : Nat) :
    ((s.jobFault m).banks = s.banks ∨ (s.jobFault m).banks = (s.allBcl (dropQueue m)).banks) ∧
    (s.jobFault m).req = s.req ∧ (s.jobFault m).tier = s.tier ∧ (s.jobFault m).cfg = s.cfg ∧ (s.jobFault m).cfgNext = s.cfgNext ∧
    (s.jobFault m).tick = s.tick ∧ (s.jobFault m).host = s.host ∧ (s.jobFault m).mb = s.mb ∧ (s.jobFault m).plan.rows = s.plan.rows := by
  unfold State.jobFault
  cases s.job? m with
  | none => simp
  | some j =>
    cases hf : j.faulted with
    | true => simp [hf]
    | false =>
      cases ha : j.active <;>
        simp [hf, ha, State.kernelClear, State.allBcl, State.onBanks, State.modJob, State.allMcl, State.onMatrix, State.returnStore]

/-- Where the same is done to every entry of a table, and leaves the default as it is, it is done to the one at a key. -/
theorem tabGetD_map {α : Type} {d : α} {f : α → α} (hd : f d = d) (k : Nat) (l : List (Nat × α)) :
    tabGetD k d (l.map (fun p => (p.1, f p.2))) = f (tabGetD k d l) := by
  induction l with
  | nil => exact hd.symm
  | cons p r ih =>
    by_cases hp : p.1 = k
    · simp [tabGetD, tabGet, hp]
    · simpa [tabGetD, tabGet, hp] using ih

/-- So no bank unit and no append buffer changes. -/
theorem jobFault_bcl (s : State) (m cl : Nat) : ((s.jobFault m).bcl cl).units = (s.bcl cl).units ∧ ((s.jobFault m).bcl cl).append = (s.bcl cl).append := by
  unfold State.bcl
  rcases (jobFault_units s m).1 with h | h
  · rw [h]
    exact ⟨rfl, rfl⟩
  · have hdrop : tabGetD cl {} (s.jobFault m).banks = dropQueue m (tabGetD cl {} s.banks) := by
      rw [h]
      exact tabGetD_map rfl cl s.banks
    rw [hdrop]
    exact ⟨rfl, rfl⟩

/-! ## The obligation -/

/-- Settles O38: each check in the sequencer's order, then the frame of a job fault. -/
theorem bankCommandsAreChecked : Obligations.BankCommandsAreChecked := by
  unfold Obligations.BankCommandsAreChecked
  refine ⟨?issued, ?gather, ?broken, ?waits, ?refused, ?violates, ?read, ?fill, ?notQueued, ?fault⟩
  case issued => exact fun s cl job w x d p bad => ⟨rfl, rfl, rfl, rfl, rfl, rfl, rfl, rfl, rfl, rfl⟩
  case gather => exact fun s cl job w x bad hc => congrArg Host.Outcome.next (if_neg (by simp [hc]))
  case broken => exact fun s cl c ⟨hq, hop, _⟩ h => buIssue_broken hq hop h
  case waits => exact fun s cl c ⟨hq, hop, _⟩ hrule h => buIssue_waits hq hrule hop h
  case refused =>
    intro s cl c ⟨hq, hop, hj⟩ hrule hturn h
    rw [buIssue_turn hq hrule hj hturn, buRun_refused hop h]
  case violates =>
    intro s cl c p ⟨hq, hop, hj⟩ hrule hturn hok hp
    rw [buIssue_turn hq hrule hj hturn, buRun_violates hop hok hp]
  case read => exact fun s cl c g => rchkFinds_read
  case fill => exact fun s cl c g => rchkFinds_fill
  case notQueued => exact fun s cl c => buIssue_notQueued cl
  case fault => exact fun s m => ⟨jobFault_mem s m, jobFault_bcl s m, (jobFault_units s m).2⟩

end Sys2Proof.Laws
end

section
/-! PROOFS. The checks of the matrix sequencer (R156, R160, R161) and the groups that it saves and restores (R105, R172): what a command comes to
at each of them. -/

namespace Sys2Proof.Laws

open Sys2Proof Sys2Proof.Machine

/-! ## Rejections (R161) -/

/-- MX_FAULT_INFO keeps the rejection that it records. -/
theorem mxFault_recorded {s : State} {cl : Nat} (job op cause a : Nat) (h : bit (s.mcl cl).faultInfo.toNat 31 = true) :
    mxFault s cl job op cause a = s.jobFault job := by
  rw [mxFault, if_pos h]

/-- Where it records none it takes this one, with the address that the rejection has, if any (log 31). -/
theorem mxFault_first {s : State} {cl : Nat} (job op cause a : Nat) (h : bit (s.mcl cl).faultInfo.toNat 31 = false) :
    mxFault s cl job op cause a = (s.modMcl cl (fun c => { c with
      faultAddr := if a = 0 then c.faultAddr else a
      faultInfo := BitVec.ofNat 32 (2 ^ 31 + cause * 2 ^ 26 + op * 256 + job % 16) })).jobFault job := by
  rw [mxFault, if_neg (by simp [h])]

section
variable {s : State} {cl : Nat} {q : MxCmd} (ht : mxTakes s cl q.job = true)
include ht

/-- A command that names a unit, its word broken. -/
theorem mxIssue_badWord {c : Nat × Nat} (hw : mxWordBad s cl q.op q.word = some c) :
    mxIssue s cl q = mxFault s cl q.job (mxOp q.word) c.1 c.2 := by
  rw [mxIssue, if_pos ht, hw]

variable (hw : mxWordBad s cl q.op q.word = none) (ho : q.op ≠ 1)
include hw ho

/-- One other than ILOAD waits for nothing but the commands of its unit (R160). -/
theorem mxIssue_inTurn : mxIssue s cl q =
    if mxBehind (s.mcl cl).queue q = true then s.modMcl cl (fun c => { c with queue := c.queue ++ [q] }) else mxUnitDo cl s q := by
  have hwait : mxWaits s cl q = false := by simp [mxWaits, ho]
  rw [mxIssue, if_pos ht, hw]
  simp only [if_neg ho, hwait, Bool.false_or]

theorem mxIssue_behind (hb : mxBehind (s.mcl cl).queue q = true) :
    mxIssue s cl q = s.modMcl cl (fun c => { c with queue := c.queue ++ [q] }) := by
  rw [mxIssue_inTurn ht hw ho, if_pos hb]

theorem mxIssue_rejected {c : Nat × Nat} (hb : mxBehind (s.mcl cl).queue q = false) (hr : mxReject s cl q.job q.op q.word 0 0 0 = some c) :
    mxIssue s cl q = mxFault s cl q.job (mxOp q.word) c.1 c.2 := by
  rw [mxIssue_inTurn ht hw ho, if_neg (by simp [hb]), mxUnitDo, mxDo, hr]

end

/-- A command that names no unit is rejected by its word, or as it comes to run. -/
theorem mxRun_rejected {s : State} {cl job op fmt inW outW : Nat} {w : BitVec 128} {c : Nat × Nat} (f : State → State)
    (ht : mxTakes s cl job = true)
    (h : mxWordBad s cl op w = some c ∨ (mxWordBad s cl op w = none ∧ mxReject s cl job op w fmt inW outW = some c)) :
    mxRun s cl job op w fmt inW outW f = mxFault s cl job (mxOp w) c.1 c.2 := by
  rw [mxRun, if_pos ht]
  rcases h with hw | ⟨hw, hr⟩
  · rw [hw]
  · rw [hw, mxDo, hr]

/-! ## Jobs that do not run -/

theorem mxTakes_notQueued {s : State} {job : Nat} (cl : Nat) (h : s.mayQueue job = false) : mxTakes s cl job = false := by
  simp [mxTakes, h]

theorem mxRun_notTaken {s : State} {cl job : Nat} (op fmt inW outW : Nat) (w : BitVec 128) (f : State → State) (h : mxTakes s cl job = false) :
    mxRun s cl job op w fmt inW outW f = s := by
  rw [mxRun, if_neg (by simp [h])]

theorem mxIssue_notTaken {s : State} {cl : Nat} {q : MxCmd} (h : mxTakes s cl q.job = false) : mxIssue s cl q = s := by
  rw [mxIssue, if_neg (by simp [h])]

/-! ## GSAVE and GRSTR (Table 6-10; log 37) -/

/-- A sequencer's command that a kernel issues is rejected with cause 2 (R172). -/
theorem kernelIssued_rejected {s : State} {cl m : Nat} (op : Nat) (h : cl < 16 ∧ s.mayQueue m = true) :
    kernelIssued s cl m op = mxFault s cl m op 2 0 := by
  rw [kernelIssued, if_pos (by simp [h])]

theorem exec_gsave_open {s : State} {cl g : Nat} (h : cl < 16 ∧ g < 96 ∧ (s.grp cl g).state = .opened) :
    exec (.gsave cl g none) s = .next (s.saveGroup cl g) :=
  congrArg Host.Outcome.next (if_pos (by simp [h]))

theorem exec_grstr_free {s : State} {cl g : Nat} (h : cl < 16 ∧ g < 96 ∧ (s.grp cl g).state = .free) :
    exec (.grstr cl g none) s = .next (s.restoreGroup cl g) :=
  congrArg Host.Outcome.next (if_pos (by simp [h]))

/-! ## The obligation -/

/-- Settles O42: each check in the sequencer's order, then the save area's two commands. -/
theorem matrixCommandsAreChecked : Obligations.MatrixCommandsAreChecked := by
  unfold Obligations.MatrixCommandsAreChecked
  refine ⟨?issued, ?badWord, ?rejected, ?behind, ?run, ?notQueued, ?recorded, ?first, ?kernel, ?save, ?restore⟩
  case issued => exact fun s cl job w rows => ⟨rfl, rfl, rfl, rfl, rfl⟩
  case badWord => exact fun s cl q c ht hw => mxIssue_badWord ht hw
  case rejected => exact fun s cl q c ht ⟨hw, ho⟩ hb hr => mxIssue_rejected ht hw ho hb hr
  case behind => exact fun s cl q ht ⟨hw, ho⟩ hb => mxIssue_behind ht hw ho hb
  case run => exact fun s cl job op fmt inW outW w f c ht h => mxRun_rejected f ht h
  case notQueued =>
    intro s cl job op fmt inW outW w f h
    have ht : mxTakes s cl job = false := mxTakes_notQueued cl h
    exact ⟨mxRun_notTaken op fmt inW outW w f ht, fun q hq => mxIssue_notTaken (hq.symm ▸ ht)⟩
  case recorded => exact fun s cl job op cause a => mxFault_recorded job op cause a
  case first => exact fun s cl job op cause a => mxFault_first job op cause a
  case kernel =>
    exact fun s cl g m h => ⟨congrArg Host.Outcome.next (kernelIssued_rejected 9 h), congrArg Host.Outcome.next (kernelIssued_rejected 10 h)⟩
  case save =>
    rintro s cl g _ ⟨hcl, hg, rfl, ho⟩
    exact exec_gsave_open ⟨hcl, hg, ho⟩
  case restore =>
    intro s cl g x h hx
    rw [exec_grstr_free h, State.restoreGroup, hx]

end Sys2Proof.Laws
end

section
/-! PROOFS. TENANT_CONFIG and DOMAIN_CONFIG (R91, R273, R363): what each writes, its two checks, and each form derived from them. -/

namespace Sys2Proof.Laws

open Sys2Proof Sys2Proof.Machine

/-! ## A flag that a command may select -/

/-- The value of a flag: the command's where its bit selects the flag, else the one it has. -/
theorem flag_eq_one (b : Bool) (x : Nat) (was : Bool) : decide ((if b then x else b2n was) = 1) = if b then decide (x = 1) else was := by
  cases b <;> cases was <;> simp [b2n]

/-- Only a selected value can be out of a flag's range. -/
theorem flag_le_one {b : Bool} {x : Nat} {was : Bool} : (if b then x else b2n was) ≤ 1 ↔ (b = true → x ≤ 1) := by
  cases b <;> cases was <;> simp [b2n]

/-- A selected enable is set, or is 0 and names nothing that a request uses. -/
theorem enable_passes {b used : Bool} {x : Nat} {was : Bool} (h : b = true → x = 1 ∨ (x = 0 ∧ used = false)) :
    (if b then x else b2n was) ≤ 1 ∧ (decide ((if b then x else b2n was) = 1) || !b || !used) = true := by
  cases b with
  | false => cases was <;> simp [b2n]
  | true => rcases h rfl with rfl | ⟨rfl, hu⟩ <;> simp [*]

/-! ## TENANT_CONFIG -/

/-- The settings of a tenant with the fields that fmask selects. -/
def tenantSet (c : MbCommand) (o : Tenant) : Tenant where
  enabled := if bit (cf c 2 2) 0 then cf c 4 1 = 1 else o.enabled
  maxClass := if bit (cf c 2 2) 1 then cf c 5 1 else o.maxClass
  weight := if bit (cf c 2 2) 2 then cf c 6 2 else o.weight
  budgetTokens := if bit (cf c 2 2) 3 then cf c 8 4 else o.budgetTokens
  windowTicks := if bit (cf c 2 2) 4 then cf c 12 2 else o.windowTicks
  org := if bit (cf c 2 2) 5 then cf c 14 2 else o.org
  t1QuotaMib := if bit (cf c 2 2) 6 then cf c 16 4 else o.t1QuotaMib
  t2QuotaMib := if bit (cf c 2 2) 7 then cf c 20 4 else o.t2QuotaMib

/-- Settings of a tenant that lie in their ranges (R91, R280). -/
abbrev TenantInRange (o : Tenant) : Prop :=
  o.maxClass ≤ 7 ∧ 1 ≤ o.weight ∧ 1 ≤ o.windowTicks ∧ o.t1QuotaMib ≤ 1048576 ∧ o.t2QuotaMib ≤ 16777216

/-- The checks of TENANT_CONFIG, in the model's order. -/
def tenantChecks (s : State) (c : MbCommand) (o : Tenant) : Except Nat Unit := do
  need ((if bit (cf c 2 2) 0 then cf c 4 1 else b2n o.enabled) ≤ 1 && TenantInRange (tenantSet c o)) St.badArgument
  need ((if bit (cf c 2 2) 0 then cf c 4 1 else b2n o.enabled) = 1 || !bit (cf c 2 2) 0 || !anyRequest s (fun r => r.tenant = cf c 0 2)) St.busy

/-- TENANT_CONFIG in its turn is its checks, then what it selects. -/
theorem exec_tenantConfig_asked {s : State} {mb : Nat} {c : MbCommand} {o : Tenant} (h : Asked s mb 0x20 c)
    (ho : o = tabGetD (cf c 0 2) ({} : Tenant) s.cfgNext.tenants) :
    exec (.tenantConfig mb) s = .next (answer s c (tenantChecks s c o >>= fun _ =>
      .ok (s.onCfgNext (fun g => { g with tenants := tabPut (cf c 0 2) (tenantSet c o) g.tenants }), []))) := by
  obtain ⟨hc, hu, ht⟩ := h
  subst ho
  refine congrArg Host.Outcome.next ((runI_asked _ hc hu ht).trans ?_)
  simp only [tenantChecks, tenantSet, TenantInRange, ← flag_eq_one, bind_assoc, Bool.decide_and, Bool.and_assoc]

section
variable {s : State} {mb : Nat} {c : MbCommand} {o : Tenant} (h : Asked s mb 0x20 c) (ho : o = tabGetD (cf c 0 2) ({} : Tenant) s.cfgNext.tenants)
include h ho

/-- One whose enable and ranges pass writes what it selects. -/
theorem exec_tenantConfig_sets (he : bit (cf c 2 2) 0 = true → cf c 4 1 = 1 ∨ (cf c 4 1 = 0 ∧ anyRequest s (fun r => r.tenant = cf c 0 2) = false))
    (hr : TenantInRange (tenantSet c o)) :
    exec (.tenantConfig mb) s = .next ((s.onCfgNext (fun g => { g with tenants := tabPut (cf c 0 2) (tenantSet c o) g.tenants })).complete c St.ok []) := by
  obtain ⟨hone, hfree⟩ := enable_passes (was := o.enabled) he
  rw [exec_tenantConfig_asked h ho, tenantChecks, need_of (by simp [hone, hr]), ok_bind, need_of hfree]
  rfl

theorem exec_tenantConfig_outOfRange (hr : ¬((bit (cf c 2 2) 0 = true → cf c 4 1 ≤ 1) ∧ TenantInRange (tenantSet c o))) :
    exec (.tenantConfig mb) s = .next (s.complete c St.badArgument []) := by
  rw [← flag_le_one (was := o.enabled)] at hr
  rw [exec_tenantConfig_asked h ho, tenantChecks, need_not (by rwa [← Bool.not_eq_true, Bool.and_eq_true, decide_eq_true_eq, decide_eq_true_eq])]
  rfl

theorem exec_tenantConfig_inUse (he : bit (cf c 2 2) 0 = true ∧ cf c 4 1 = 0) (hu : anyRequest s (fun r => r.tenant = cf c 0 2) = true)
    (hr : TenantInRange (tenantSet c o)) : exec (.tenantConfig mb) s = .next (s.complete c St.busy []) := by
  rw [exec_tenantConfig_asked h ho, tenantChecks, need_of (by simp [he, hr]), ok_bind, need_not (by simp [he, hu])]
  rfl

end

/-! ## DOMAIN_CONFIG -/

/-- The settings of a sharing domain with the fields that fmask selects; a key selected is a change of key (R273). -/
def domainSet (c : MbCommand) (o : Domain) : Domain where
  enabled := if bit (cf c 2 2) 0 then cf c 4 1 = 1 else o.enabled
  dropPolicy := if bit (cf c 2 2) 1 then cf c 5 1 = 1 else o.dropPolicy
  owner := if bit (cf c 2 2) 2 then cf c 6 2 else o.owner
  org := if bit (cf c 2 2) 3 then cf c 8 2 else o.org
  key := if bit (cf c 2 2) 4 then BitVec.ofNat 256 (cf c 16 32) else o.key
  keyGen := o.keyGen + if bit (cf c 2 2) 4 then 1 else 0

/-- The checks of DOMAIN_CONFIG, in the model's order. -/
def domainChecks (s : State) (c : MbCommand) (o : Domain) : Except Nat Unit := do
  need (cf c 0 2 ≠ 0 && (if bit (cf c 2 2) 0 then cf c 4 1 else b2n o.enabled) ≤ 1
    && (if bit (cf c 2 2) 1 then cf c 5 1 else b2n o.dropPolicy) ≤ 1) St.badArgument
  need ((if bit (cf c 2 2) 0 then cf c 4 1 else b2n o.enabled) = 1 || !bit (cf c 2 2) 0 || !anyRequest s (fun r => r.domain = cf c 0 2)) St.busy

/-- A key that is not selected stays as it is. -/
theorem key_selected (b : Bool) (x : Nat) (k : BitVec 256) :
    BitVec.ofNat 256 (if b then x else k.toNat) = if b then BitVec.ofNat 256 x else k := by
  cases b
  · exact BitVec.ofNat_toNat 256 k |>.trans (BitVec.setWidth_eq k)
  · rfl

theorem keyGen_selected (b : Bool) (n : Nat) : n + (if b then 1 else 0) = if b then n + 1 else n := by cases b <;> rfl

/-- DOMAIN_CONFIG in its turn is its checks, then what it selects. -/
theorem exec_domainConfig_asked {s : State} {mb : Nat} {c : MbCommand} {o : Domain} (h : Asked s mb 0x21 c)
    (ho : o = tabGetD (cf c 0 2) ({} : Domain) s.cfgNext.domains) :
    exec (.domainConfig mb) s = .next (answer s c (domainChecks s c o >>= fun _ =>
      .ok (s.onCfgNext (fun g => { g with domains := tabPut (cf c 0 2) (domainSet c o) g.domains }), []))) := by
  obtain ⟨hc, hu, ht⟩ := h
  subst ho
  refine congrArg Host.Outcome.next ((runI_asked _ hc hu ht).trans ?_)
  simp only [domainChecks, domainSet, ← flag_eq_one, ← key_selected, bind_assoc]

section
variable {s : State} {mb : Nat} {c : MbCommand} {o : Domain} (h : Asked s mb 0x21 c) (ho : o = tabGetD (cf c 0 2) ({} : Domain) s.cfgNext.domains)
include h ho

/-- One that names a domain other than 0 and whose flags pass writes what it selects. -/
theorem exec_domainConfig_sets (hn : cf c 0 2 ≠ 0)
    (he : bit (cf c 2 2) 0 = true → cf c 4 1 = 1 ∨ (cf c 4 1 = 0 ∧ anyRequest s (fun r => r.domain = cf c 0 2) = false))
    (hv : bit (cf c 2 2) 1 = true → cf c 5 1 ≤ 1) :
    exec (.domainConfig mb) s = .next ((s.onCfgNext (fun g => { g with domains := tabPut (cf c 0 2) (domainSet c o) g.domains })).complete c St.ok []) := by
  obtain ⟨hone, hfree⟩ := enable_passes (was := o.enabled) he
  have hv' := flag_le_one (was := o.dropPolicy).2 hv
  rw [exec_domainConfig_asked h ho, domainChecks, need_of (by simp [hn, hone, hv']), ok_bind, need_of hfree]
  rfl

theorem exec_domainConfig_outOfRange
    (hr : ¬(cf c 0 2 ≠ 0 ∧ (bit (cf c 2 2) 0 = true → cf c 4 1 ≤ 1) ∧ (bit (cf c 2 2) 1 = true → cf c 5 1 ≤ 1))) :
    exec (.domainConfig mb) s = .next (s.complete c St.badArgument []) := by
  rw [← flag_le_one (was := o.enabled), ← flag_le_one (was := o.dropPolicy), ← and_assoc] at hr
  rw [exec_domainConfig_asked h ho, domainChecks,
    need_not (by rwa [← Bool.not_eq_true, Bool.and_eq_true, Bool.and_eq_true, decide_eq_true_eq, decide_eq_true_eq, decide_eq_true_eq])]
  rfl

theorem exec_domainConfig_inUse (hn : cf c 0 2 ≠ 0) (he : bit (cf c 2 2) 0 = true ∧ cf c 4 1 = 0) (hv : bit (cf c 2 2) 1 = true → cf c 5 1 ≤ 1)
    (hu : anyRequest s (fun r => r.domain = cf c 0 2) = true) : exec (.domainConfig mb) s = .next (s.complete c St.busy []) := by
  have hv' := flag_le_one (was := o.dropPolicy).2 hv
  rw [exec_domainConfig_asked h ho, domainChecks, need_of (by simp [hn, he, hv']), ok_bind, need_not (by simp [he, hu])]
  rfl

end

/-! ## The obligation -/

/-- Settles O19: each form is its mask's settings, or the check that it fails. -/
theorem tenantAndDomainConfig : Obligations.TenantAndDomainConfig := by
  unfold Obligations.TenantAndDomainConfig
  refine ⟨?weight, ?tenant, ?tenantRange, ?tenantBusy, ?tenantMask, ?domain, ?domainMask, ?domainFlags, ?domainZero, ?domainBusy⟩
  case weight =>
    intro s mb c o h ho hm hw hr
    have hset : tenantSet c o = { o with weight := cf c 6 2 } := by simp [tenantSet, hm, bit]
    rw [exec_tenantConfig_sets h ho (by simp [hm, bit]) (by rw [hset]; tauto), hset]
  case tenant =>
    intro s mb c h hm he hr
    rw [exec_tenantConfig_sets h rfl (fun _ => .inl he) (by simp [TenantInRange, tenantSet, hm, bit, hr])]
    simp [tenantSet, hm, bit, he]
  case tenantRange =>
    intro s mb c h hm hr
    refine exec_tenantConfig_outOfRange h rfl ?_
    simp [TenantInRange, tenantSet, hm, bit]
    omega
  case tenantBusy =>
    intro s mb c o h ho hm he hr hu
    exact exec_tenantConfig_inUse h ho ⟨by rw [hm]; decide, he⟩ hu (by simpa [TenantInRange, tenantSet, hm, bit] using hr)
  case tenantMask =>
    rintro s mb _ c o h ⟨ho, rfl⟩ he ⟨hc, hw, hd⟩ ⟨h1, h2⟩
    exact exec_tenantConfig_sets h ho he ⟨hc, hw, hd, h1, h2⟩
  case domain =>
    intro s mb c o h ho hn hm he hv
    rw [exec_domainConfig_sets h ho hn (fun _ => .inl he) (fun _ => hv)]
    simp [domainSet, hm, bit, he]
  case domainMask =>
    rintro s mb _ c o h ⟨ho, rfl⟩ hn he hv
    rw [exec_domainConfig_sets h ho hn he hv, domainSet, keyGen_selected]
  case domainFlags =>
    intro s mb c h hr
    refine exec_domainConfig_outOfRange h rfl fun ⟨_, he, hv⟩ => ?_
    rcases hr with ⟨hb, hx⟩ | ⟨hb, hx⟩
    · exact absurd (he hb) (by omega)
    · exact absurd (hv hb) (by omega)
  case domainZero => exact fun s mb c h hz => exec_domainConfig_outOfRange h rfl fun ⟨hn, _⟩ => hn hz
  case domainBusy =>
    intro s mb c h hn hm he hv hu
    exact exec_domainConfig_inUse h rfl hn ⟨by rw [hm]; decide, he⟩ (fun _ => hv) hu

end Sys2Proof.Laws
end

section
/-! PROOFS. The kernels of a job (R83, R85, R104, R105, R107, R216): an equation for each row, and why it does not matter in what order, or how
often, the saved groups of a job are restored. -/

namespace Sys2Proof.Laws

open Sys2Proof Sys2Proof.Machine

/-! ## KERNEL_START -/

/-- A job's next kernel may start: the window and the job allow it, no other job stands in the way, and it has its semaphores (R83, R85, R216). -/
def mayStart (s : State) (m k : Nat) (j : Job) : Bool :=
  s.tick.running && !s.tick.inCommit && jobReady j && !j.active && j.next = k && s.plan.saved ≠ some m
    && jobClear s m && !s.plan.emptyRunning && (kernelHeader s m k).nsem ≤ (semGrant s j (kernelHeader s m k).nsem).length

/-- The state in which a kernel has started: its ranges granted, its semaphores initial, its clusters at their first ordinal. -/
def kernelStarted (s : State) (m k : Nat) (g : Grant) (j : Job) : State :=
  ((s.modJob m (fun j => { j with active := true, t1 := g.t1, sp := g.sp })).onStore (fun u => { u with
    sems := (semGrant s j (kernelHeader s m k).nsem).foldl (fun t n => tabPut n
      { value := (kernelHeader s m k).semInit, initial := (kernelHeader s m k).semInit, job := m, waiters := [] } t) u.sems })).allMcl
    (fun c => { c with nextOrdinal := 0 })

theorem exec_kernelStart_found {s : State} {m : Nat} {j : Job} (k : Nat) (g : Grant) (ds : List DraftLogits) (hj : s.job? m = some j) :
    exec (.kernelStart m k g ds) s = .next (
      if mayStart s m k j then if k = 0 then (kernelStarted s m k g j).buildDrafts m ds else kernelStarted s m k g j else s) := by
  change execKernelStart m k g ds s = _
  unfold execKernelStart
  rw [hj]
  rfl

theorem mayStart_of {s : State} {m k : Nat} {j : Job} (ht : s.tick.running = true ∧ s.tick.inCommit = false)
    (hjob : jobOpen j = true ∧ j.waits = 0 ∧ j.active = false ∧ j.next = k) (hp : s.plan.saved ≠ some m ∧ s.plan.emptyRunning = false)
    (hc : jobClear s m = true) (hs : (kernelHeader s m k).nsem ≤ (semGrant s j (kernelHeader s m k).nsem).length) : mayStart s m k j = true := by
  simp [mayStart, jobReady, ht, hjob, hp, hc, hs]

/-- Any other kernel of the job may not start. -/
theorem mayStart_not {s : State} {m k : Nat} {j : Job}
    (h : j.next ≠ k ∨ j.active = true ∨ jobOpen j = false ∨ j.waits ≠ 0 ∨ s.tick.inCommit = true) : mayStart s m k j = false := by
  rcases h with h | h | h | h | h <;> simp [mayStart, jobReady, h]

/-! ## KERNEL_END -/

/-- The state in which a kernel has ended: measured, its CLOSED groups and registers free, its tables and semaphores given back (R107). -/
def kernelEnded (s : State) (t m k : Nat) (x : KernelMeasure) : State := ((s.atTime t).measure m k x).kernelClear m

/-- The job's next kernel is due, with the inputs that it waits for. -/
def nextDue (s : State) (m : Nat) (x : KernelMeasure) : State :=
  s.modJob m (fun j => { j with active := false, next := j.next + 1, waits := x.waits, t1 := [], sp := [] })

/-- KERNEL_END of the running kernel, no command of it waiting. -/
theorem exec_kernelEnd_running {s : State} {m : Nat} {j : Job} (t : Nat) (x : KernelMeasure) (hj : s.job? m = some j) (hr : s.jobRuns m = true)
    (hw : waitsFor s m = false) :
    exec (.kernelEnd t m j.next x) s = .next (
      if holdsSem s m then (kernelEnded s t m j.next x).jobFault m
      else if j.kernels ≤ j.next + 1 then (nextDue (kernelEnded s t m j.next x) m x).jobEnd m
      else nextDue (kernelEnded s t m j.next x) m x) := by
  have hruns : ((s.atTime t).jobRuns m && decide (j.next = j.next) && !waitsFor (s.atTime t) m) = true := by
    change (s.jobRuns m && decide (j.next = j.next) && !waitsFor s m) = true
    simp [hr, hw]
  change execKernelEnd t m j.next x s = _
  unfold execKernelEnd
  dsimp only
  rw [job_atTime, hj]
  exact congrArg Host.Outcome.next (if_pos hruns)

/-! ## Folds whose operations commute and are idempotent -/

section
variable {α β : Type} {f : β → α → β} (hcomm : ∀ b x y, f (f b x) y = f (f b y) x) (hidem : ∀ b x, f (f b x) x = f b x)
include hcomm hidem

/-- Doing first what a list does anyway adds nothing. -/
theorem foldl_absorb {x : α} {l : List α} (hx : x ∈ l) (b : β) : l.foldl f (f b x) = l.foldl f b := by
  induction l generalizing b with
  | nil => cases hx
  | cons y r ih =>
    rw [List.foldl_cons, List.foldl_cons]
    rcases List.mem_cons.1 hx with rfl | hr
    · rw [hidem]
    · rw [hcomm, ih hr]

theorem foldl_absorbs {l k : List α} (h : ∀ x ∈ k, x ∈ l) (b : β) : (k ++ l).foldl f b = l.foldl f b := by
  induction k generalizing b with
  | nil => rfl
  | cons x r ih =>
    rw [List.cons_append, List.foldl_cons, ih (fun y hy => h y (List.mem_cons_of_mem x hy)), foldl_absorb hcomm hidem (h x List.mem_cons_self)]

/-- So two lists with the same members do the same. -/
theorem foldl_of_sameMembers {l k : List α} (h : ∀ x, x ∈ l ↔ x ∈ k) (b : β) : l.foldl f b = k.foldl f b := by
  have rc : RightCommutative f := ⟨hcomm⟩
  calc l.foldl f b = (k ++ l).foldl f b := (foldl_absorbs hcomm hidem (fun x => (h x).2) b).symm
    _ = (l ++ k).foldl f b := List.perm_append_comm.foldl_eq b
    _ = k.foldl f b := foldl_absorbs hcomm hidem (fun x => (h x).1) b

end

/-! ## Entries of a table changed in turn -/

/-- Changes at different keys commute, in any table. -/
theorem tabPut_comm {α : Type} {k j : Nat} (h : k ≠ j) (v w : α) (t : List (Nat × α)) : tabPut j w (tabPut k v t) = tabPut k v (tabPut j w t) := by
  induction t with
  | nil => grind [tabPut]
  | cons p r ih => grind [tabPut]

theorem tabPut_tabPut {α : Type} (k : Nat) (v w : α) (t : List (Nat × α)) : tabPut k v (tabPut k w t) = tabPut k v t := by
  induction t with
  | nil => simp [tabPut]
  | cons p r ih => grind [tabPut]

theorem tabUpd_comm {α : Type} {k j : Nat} (h : k ≠ j) (d : α) (f g : α → α) (t : List (Nat × α)) :
    tabUpd j d g (tabUpd k d f t) = tabUpd k d f (tabUpd j d g t) := by
  simp only [tabUpd, tabGetD, tabGet_tabPut, if_neg h, if_neg h.symm]
  exact tabPut_comm h ..

theorem tabUpd_tabUpd {α : Type} (k : Nat) (d : α) (f g : α → α) (t : List (Nat × α)) :
    tabUpd k d g (tabUpd k d f t) = tabUpd k d (fun c => g (f c)) t := by
  simp only [tabUpd, tabGetD, tabGet_tabPut, if_true, Option.getD_some]
  exact tabPut_tabPut ..

theorem modMcl_comm {c d : Nat} (h : c ≠ d) (f g : MatrixCluster → MatrixCluster) (s : State) :
    (s.modMcl c f).modMcl d g = (s.modMcl d g).modMcl c f :=
  congrArg (fun l => { s with matrix := l }) (tabUpd_comm h {} f g s.matrix)

theorem modMcl_modMcl (c : Nat) (f g : MatrixCluster → MatrixCluster) (s : State) :
    (s.modMcl c f).modMcl c g = s.modMcl c (fun x => g (f x)) :=
  congrArg (fun l => { s with matrix := l }) (tabUpd_tabUpd c {} f g s.matrix)

/-! ## Groups restored -/

/-- What restoring a group as it was kept does to its cluster. -/
def regrouped (s : State) (cl g : Nat) (x : AccGroup) (c : MatrixCluster) : MatrixCluster :=
  { c with groups := tabPut g { x with lanes := savedLanes s cl g } c.groups, save := tabDel g c.save }

theorem restoreGroup_saved {s : State} {cl g : Nat} {x : AccGroup} (h : tabGet g (s.mcl cl).save = some x) :
    s.restoreGroup cl g = s.modMcl cl (regrouped s cl g x) := by
  rw [State.restoreGroup, h]
  exact modMcl_modMcl ..

theorem restoreGroup_unsaved {s : State} {cl g : Nat} (h : tabGet g (s.mcl cl).save = none) : s.restoreGroup cl g = s := by
  rw [State.restoreGroup, h]

/-- What is kept of another group is still kept. -/
theorem save_restoreGroup {cl g d h : Nat} (hne : (cl, g) ≠ (d, h)) (s : State) :
    tabGet h ((s.restoreGroup cl g).mcl d).save = tabGet h (s.mcl d).save := by
  cases hx : tabGet g (s.mcl cl).save with
  | none => rw [restoreGroup_unsaved hx]
  | some x =>
    rw [restoreGroup_saved hx, mcl_modMcl]
    split
    · next hcl =>
      subst hcl
      exact (tabGet_tabDel ..).trans (if_neg fun hg => hne (by rw [hg]))
    · rfl

/-- Nothing is kept of the group itself. -/
theorem save_restoreGroup_self (cl g : Nat) (s : State) : tabGet g ((s.restoreGroup cl g).mcl cl).save = none := by
  cases hx : tabGet g (s.mcl cl).save with
  | none => rw [restoreGroup_unsaved hx, hx]
  | some x =>
    rw [restoreGroup_saved hx, mcl_modMcl, if_pos rfl]
    exact (tabGet_tabDel ..).trans (if_pos rfl)

theorem restoreGroup_idem (cl g : Nat) (s : State) : (s.restoreGroup cl g).restoreGroup cl g = s.restoreGroup cl g :=
  restoreGroup_unsaved (save_restoreGroup_self cl g s)

theorem regrouped_comm {g h : Nat} (hne : g ≠ h) (s : State) (cl : Nat) (x y : AccGroup) (c : MatrixCluster) :
    regrouped s cl h y (regrouped s cl g x c) = regrouped s cl g x (regrouped s cl h y c) := by
  unfold regrouped
  rw [tabPut_comm hne]
  simp only [tabDel, List.filter_filter, Bool.and_comm]

theorem restoreGroup_comm (cl g d h : Nat) (s : State) :
    (s.restoreGroup cl g).restoreGroup d h = (s.restoreGroup d h).restoreGroup cl g := by
  by_cases hne : (cl, g) = (d, h)
  · cases hne
    rfl
  have hkeep := save_restoreGroup hne s
  have hkeep' := save_restoreGroup (Ne.symm hne) s
  cases hx : tabGet g (s.mcl cl).save with
  | none => rw [restoreGroup_unsaved hx, restoreGroup_unsaved (hkeep'.trans hx)]
  | some x =>
    cases hy : tabGet h (s.mcl d).save with
    | none => rw [restoreGroup_unsaved hy, restoreGroup_unsaved (hkeep.trans hy)]
    | some y =>
      rw [restoreGroup_saved (hkeep.trans hy), restoreGroup_saved (hkeep'.trans hx), restoreGroup_saved hx, restoreGroup_saved hy]
      by_cases hcl : cl = d
      · subst hcl
        rw [modMcl_modMcl, modMcl_modMcl]
        exact congrArg (s.modMcl cl) (funext (regrouped_comm (fun hg => hne (by rw [hg])) s cl x y))
      · exact modMcl_comm hcl ..

/-! ## A job's groups restored on every cluster (R105) -/

/-- What each cluster keeps of saved groups. -/
def savesOf (l : List (Nat × MatrixCluster)) : List (Nat × List (Nat × AccGroup)) := l.map (fun p => (p.1, p.2.save))

/-- The groups of a job among what a cluster keeps. -/
def keptGroups (m : Nat) (q : Nat × List (Nat × AccGroup)) : List (Nat × Nat) := (q.2.filter (fun g => g.2.owner = m)).map (fun g => (q.1, g.1))

theorem foldl_restoreGroups (m : Nat) (l : List (Nat × MatrixCluster)) (s : State) :
    l.foldl (restoreGroups m) s = ((savesOf l).flatMap (keptGroups m)).foldl (fun t q => t.restoreGroup q.1 q.2) s := by
  rw [List.foldl_flatMap, savesOf, List.foldl_map]
  congr
  funext t p
  rw [keptGroups, List.foldl_map]
  rfl

/-- Restoring goes by what the clusters keep alone: neither their order nor an entry listed twice matters. JOB_RESUME rests on this, since the
scratchpad that it writes back first may list a cluster anew. -/
theorem foldl_restoreGroups_congr {m : Nat} {l k : List (Nat × MatrixCluster)} (h : ∀ x, x ∈ savesOf l ↔ x ∈ savesOf k) (s : State) :
    l.foldl (restoreGroups m) s = k.foldl (restoreGroups m) s := by
  rw [foldl_restoreGroups, foldl_restoreGroups]
  refine foldl_of_sameMembers (fun b x y => restoreGroup_comm ..) (fun b x => restoreGroup_idem ..) (fun x => ?_) s
  simp only [List.mem_flatMap, h]

/-! ## Scratchpad restored -/

theorem mem_of_tabGet {α : Type} {k : Nat} {v : α} {t : List (Nat × α)} (h : tabGet k t = some v) : (k, v) ∈ t := by
  induction t with
  | nil => cases h
  | cons p r ih =>
    obtain ⟨a, u⟩ := p
    rw [tabGet] at h
    split at h
    · next ha => simp [ha, Option.some.inj h]
    · exact List.mem_cons_of_mem _ (ih h)

theorem tabGet_isSome_of_mem {α : Type} {p : Nat × α} {t : List (Nat × α)} (h : p ∈ t) : (tabGet p.1 t).isSome = true := by
  induction t with
  | nil => cases h
  | cons q r ih =>
    rw [tabGet]
    split
    · rfl
    · next hq => exact ih ((List.mem_cons.1 h).resolve_left fun he => hq (by rw [he]))

/-- An entry put in the place of one that looks the same leaves the same look. -/
theorem mem_map_tabPut {α β : Type} {F : Nat × α → β} {k : Nat} {v w : α} {t : List (Nat × α)} (hv : tabGet k t = some v)
    (hF : F (k, w) = F (k, v)) (x : β) : x ∈ (tabPut k w t).map F ↔ x ∈ t.map F := by
  have hlisted : F (k, v) ∈ t.map F := List.mem_map_of_mem (mem_of_tabGet hv)
  induction t with
  | nil => cases hv
  | cons p r ih =>
    obtain ⟨a, u⟩ := p
    rw [tabPut]
    split
    · rw [List.map_cons, List.mem_cons, hF]
      exact or_iff_right_of_imp fun hx => hx ▸ hlisted
    · split
      · next ha =>
        obtain rfl : u = v := by simpa [tabGet, ha] using hv
        rw [List.map_cons, List.map_cons, hF, ha]
      · next ha =>
        rw [tabGet, if_neg ha] at hv
        rw [List.map_cons, List.map_cons, List.mem_cons, List.mem_cons]
        exact or_congr_right (ih hv (List.mem_map_of_mem (mem_of_tabGet hv)))

/-- Writing scratchpad back leaves the matrix side of the clusters alone, but that its regions are no longer kept. -/
theorem restoreScratch_matrix (s : State) (p : Nat × MatrixCluster) :
    (restoreScratch s p).matrix = tabUpd p.1 {} (fun c => { c with savedScratch := [] }) s.matrix := by
  have hfold (l : List (Nat × Nat)) : ∀ t : State, (l.foldl (fun t u => restoreUnits t p.1 u.1 u.2) t).matrix = t.matrix := by
    induction l with
    | nil => exact fun _ => rfl
    | cons u r ih => exact fun t => (ih _).trans rfl
  exact congrArg (tabUpd p.1 {} (fun c => { c with savedScratch := [] })) (hfold p.2.savedScratch s)

/-- Scratchpad written back on clusters that are listed changes nothing of what the clusters keep of groups. -/
theorem mem_saves_restoreScratch (l : List (Nat × MatrixCluster)) (s : State) (hl : ∀ p ∈ l, (tabGet p.1 s.matrix).isSome = true)
    (x : Nat × List (Nat × AccGroup)) :
    x ∈ savesOf (l.foldl restoreScratch s).matrix ↔ x ∈ savesOf s.matrix := by
  induction l generalizing s with
  | nil => rfl
  | cons p r ih =>
    have hstep (q : Nat × MatrixCluster) (hq : q ∈ r) : (tabGet q.1 (restoreScratch s p).matrix).isSome = true := by
      rw [restoreScratch_matrix, tabUpd, tabGet_tabPut]
      split
      · rfl
      · exact hl q (List.mem_cons_of_mem p hq)
    obtain ⟨c, hc⟩ := Option.isSome_iff_exists.1 (hl p List.mem_cons_self)
    rw [List.foldl_cons, ih _ hstep, restoreScratch_matrix, tabUpd]
    exact mem_map_tabPut hc (by simp [tabGetD, hc]) x

/-! ## PREEMPT and JOB_RESUME (R104, R105) -/

theorem exec_preempt_allowed {s : State} {m : Nat} {j : Job} (d : List (Nat × Nat × Nat)) (hj : s.job? m = some j)
    (ht : s.tick.running = true ∧ s.tick.inCommit = false) (hu : bit s.regs.planCtl.toNat 19 = true)
    (hjob : jobOpen j = true ∧ j.active = false ∧ 0 < j.next ∧ j.urgent = false) (hs : s.plan.saved = none)
    (hready : s.plan.jobs.any (fun u => u.urgent && jobReady u) = true) :
    exec (.preempt m d) s = .next (((((s.saveDirty d).matrix.foldl (saveGroups m) (s.saveDirty d)).allMcl (dropIngots m)).onPlan
      (fun p => { p with saved := some m })).countStep (fun c => { c with preemptions := inc64 c.preemptions })) := by
  change execPreempt m d s = _
  unfold execPreempt
  rw [hj]
  exact congrArg Host.Outcome.next (if_pos (by simp [ht, hu, hjob, hs, hready]))

theorem exec_jobResume_allowed {s : State} {m : Nat} (hs : s.plan.saved = some m) (ht : s.tick.running = true ∧ s.tick.inCommit = false)
    (hidle : s.plan.jobs.all (fun j => !j.active && !(j.urgent && jobReady j)) = true) :
    exec (.jobResume m) s = .next (((s.matrix.foldl restoreScratch s).matrix.foldl (restoreGroups m) (s.matrix.foldl restoreScratch s)).onPlan
      (fun p => { p with saved := none })) :=
  congrArg Host.Outcome.next (if_pos (by rw [hidle]; simp [hs, ht]))

/-! ## The obligation -/

/-- Settles O36: each clause is one outcome of its row's equation. -/
theorem kernelsRunInOrder : Obligations.KernelsRunInOrder := by
  unfold Obligations.KernelsRunInOrder
  refine ⟨?start, ?startFirst, ?startOther, ?nextKernel, ?lastKernel, ?endHeld, ?preempt, ?resume⟩
  case start =>
    intro s m k g ds j hj ht ⟨ho, hw, ha, hn, hk⟩ hp hc hs
    rw [exec_kernelStart_found k g ds hj, if_pos (mayStart_of ht ⟨ho, hw, ha, hn⟩ hp hc hs), if_neg (Nat.ne_of_gt hk)]
    rfl
  case startFirst =>
    intro s m g ds j hj ht hjob hp hc hs
    rw [exec_kernelStart_found 0 g ds hj, if_pos (mayStart_of ht hjob hp hc hs), if_pos rfl]
    rfl
  case startOther =>
    intro s m k g ds j hj h
    rw [exec_kernelStart_found k g ds hj, mayStart_not h]
    rfl
  case nextKernel =>
    intro s t m x j hj hr hw hh hk
    rw [exec_kernelEnd_running t x hj hr hw, if_neg (by simp [hh]), if_neg (Nat.not_le.2 hk)]
    rfl
  case lastKernel =>
    intro s t m x j hj hr hw hh hk
    rw [exec_kernelEnd_running t x hj hr hw, if_neg (by simp [hh]), if_pos hk]
    rfl
  case endHeld =>
    intro s t m x j hj hr hw hh
    rw [exec_kernelEnd_running t x hj hr hw, if_pos hh]
    rfl
  case preempt =>
    rintro s _ m d j hj ht hu hjob hs hready rfl
    exact exec_preempt_allowed d hj ht hu hjob hs (by simpa only [jobReady, Bool.and_assoc] using hready)
  case resume =>
    rintro s _ m hs ht hidle rfl
    rw [exec_jobResume_allowed hs ht (by simpa only [jobReady, Bool.and_assoc] using hidle)]
    refine congrArg (fun u => Host.Outcome.next (State.onPlan u _)) (foldl_restoreGroups_congr (fun x => ?_) _)
    exact mem_saves_restoreScratch s.matrix s (fun p hp => tabGet_isSome_of_mem hp) x

end Sys2Proof.Laws
end

section
/-! PROOFS. Vector engines and row reductions (R161, R166, R208 to R214): what a row of an engine comes to, and each command by what it reads and
writes. -/

namespace Sys2Proof.Laws

open Sys2Proof Sys2Proof.Machine

/-! ## A row of an engine -/

section
variable {s : State} {job e : Nat} {rd wr : List (Place × Nat)} (f : State → State) (hj : s.jobRuns job = true)
include hj

/-- A tile that breaks R166 is rejection cause 11. -/
theorem engineRun_breaks (h : rd.any (readBreaks s job e) = true ∨ wr.any (writeBreaks e) = true) :
    s.engineRun job e rd wr f = mxFault s e job 0 11 0 := by
  rw [State.engineRun, if_neg (by simp [hj]), if_pos (by simpa only [Bool.or_eq_true] using h)]

variable (h : rd.any (readBreaks s job e) = false ∧ wr.any (writeBreaks e) = false)
include h

/-- A row within what its job holds runs, its reads of the store counted. -/
theorem engineRun_held (hp : (rd ++ wr).all (placeOk s job e) = true) :
    s.engineRun job e rd wr f = f ((rd.filterMap storeRange).foldl (fun t r => t.jobReads job r) s) := by
  rw [State.engineRun, if_neg (by simp [hj]), if_neg (by rw [h.1, h.2]; simp), if_pos hp]

/-- One that is not faults its job. -/
theorem engineRun_outside (hp : (rd ++ wr).all (placeOk s job e) = false) : s.engineRun job e rd wr f = s.jobFault job := by
  rw [State.engineRun, if_neg (by simp [hj]), if_neg (by rw [h.1, h.2]; simp), if_neg (by rw [hp]; simp)]

end

/-! ## VECTOR_CHAIN -/

/-- A chain on an engine in service runs as its configuration word is accepted (R211). -/
theorem exec_vectorChain_chain {s : State} {r : ChainRun} (he : engineOk s r.engine = true) :
    exec (.vectorChain (.chain r)) s = .next (
      if chainOk r.config then s.engineRun r.job r.engine (chainReads r) (chainWrites s r) (runChain r)
      else if s.jobRuns r.job then s.jobFault r.job else s) :=
  congrArg Host.Outcome.next (if_pos he)

/-- A conversion of tiles on a cluster in service runs as its tiles and columns are accepted (R189). -/
theorem exec_vectorChain_tile {s : State} {x : TileConv} (h : s.clusterUp x.cluster = true ∧ s.jobRuns x.job = true) :
    exec (.vectorChain (.tile x)) s = .next (
      if tileOk x then s.engineRun x.job x.cluster (tileReads x) [(x.out, 4 * x.ncols)]
        (fun u => u.putPlace x.cluster x.out (rowBytes 0 ((List.range x.ncols).map (tileElem u x))))
      else s.jobFault x.job) :=
  congrArg Host.Outcome.next (if_pos (by simp [h]))

theorem exec_vectorChain_entry {s : State} {r : EntryConv} (h : r.cluster < 16 ∧ s.clusterUp (nth s.faults.clmap r.cluster 0) = true) :
    exec (.vectorChain (.entry r)) s = .next (s.engineRun r.job (nth s.faults.clmap r.cluster 0)
      [(r.k, 4 * fmtDim (formatOf s r.job r.draft r.layer r.head)), (r.v, 4 * fmtDim (formatOf s r.job r.draft r.layer r.head))] []
      (runEntry r)) :=
  congrArg Host.Outcome.next (if_pos (by simp [h]))

theorem exec_vectorChain_query {s : State} {q : QueryConv} (h : q.cluster < 16 ∧ s.clusterUp (nth s.faults.clmap q.cluster 0) = true) :
    exec (.vectorChain (.query q)) s = .next (s.engineRun q.job (nth s.faults.clmap q.cluster 0)
      [(q.x, 4 * fmtDim (formatOf s q.job q.draft q.layer q.head))] [(q.out, 260)] (runQuery q)) :=
  congrArg Host.Outcome.next (if_pos (by simp [h]))

/-- The candidate record of a planned row, on one of the 16 clusters of its running job (R223, R224). -/
theorem exec_vectorChain_logits {s : State} {r : LogitRun} {row : PlanRow} (hr : s.row? r.slot = some row)
    (h : s.jobRuns row.modelSlot = true ∧ r.cluster < 16) : exec (.vectorChain (.logits r)) s = .next (runLogits r row.modelSlot s) := by
  change execVectorChain (.logits r) s = _
  unfold execVectorChain
  dsimp only
  rw [hr]
  exact congrArg Host.Outcome.next (if_pos (by simp [h]))

/-! ## FUNCTION_TABLE_LOAD (R212) -/

theorem exec_functionTableLoad (s : State) (e job n : Nat) (b : List Byte) :
    exec (.functionTableLoad e job n b) s = .next (
      if engineOk s e && s.jobRuns job && n < 4 then s.modEngine e (fun x => { x with tables := tabPut n (slice b 0 3104) x.tables }) else s) := rfl

/-! ## ROW_REDUCTION (R214) -/

/-- The sources of a reduction have all written, and nobody waits on its semaphore. -/
def reductionDue (s : State) (job : Nat) (q : Semaphore) (n : Nat) : Bool := s.jobRuns job && q.job = job && q.waiters.isEmpty && n ≤ q.value

theorem exec_rowReduction_found {s : State} {sem : Nat} {q : Semaphore} (hq : tabGet sem s.store.sems = some q) (job : Nat) (src adr : List Nat)
    (residual k : Nat) : exec (.rowReduction job sem src adr residual k) s = .next (
      if reductionDue s job q (src.zip adr).length then
        if (src.zip adr).all (partHeld s job k) && holdsIn s (jobHolding job) residual (4 * k) then
          (reduceRow job (sourceOrder (src.zip adr)) residual k s).onStore (fun w => { w with
            sems := tabMod sem (fun x => { x with value := x.value - (src.zip adr).length }) w.sems })
        else s.jobFault job
      else s) := by
  change execRowReduction job sem src adr residual k s = _
  unfold execRowReduction
  dsimp only
  rw [hq]
  rfl

theorem reductionDue_of {s : State} {job n : Nat} {q : Semaphore} (hj : s.jobRuns job = true) (hq : q.job = job ∧ q.waiters = []) (hn : n ≤ q.value) :
    reductionDue s job q n = true := by
  simp [reductionDue, hj, hq, hn]

theorem reductionDue_not {s : State} {job n : Nat} {q : Semaphore} (h : q.value < n ∨ q.waiters ≠ []) : reductionDue s job q n = false := by
  rcases h with h | h <;> simp [reductionDue, h]

/-! ## The obligation -/

/-- Settles O45: a row of an engine by what it touches, then each command by its row. -/
theorem vectorAndReduction : Obligations.VectorAndReduction := by
  unfold Obligations.VectorAndReduction
  refine ⟨?held, ?chain, ?chainWord, ?tile, ?tileNone, ?convert, ?logits, ?breaks, ?outside, ?load, ?loadNot, ?reduce, ?reduceOutside, ?reduceNot⟩
  case held => exact fun s job e rd wr f hj h hp => engineRun_held f hj h hp
  case chain =>
    intro s r he hc hj h hp
    rw [exec_vectorChain_chain he, if_pos hc, engineRun_held _ hj h hp]
  case chainWord =>
    intro s r he hc hj
    rw [exec_vectorChain_chain he, if_neg (by simp [hc]), if_pos hj]
  case tile =>
    intro s x h ht
    rw [exec_vectorChain_tile h, if_pos ht]
  case tileNone =>
    intro s x h ht
    rw [exec_vectorChain_tile h, if_neg (by simp [ht])]
  case convert => exact fun s r q hr hq => ⟨exec_vectorChain_entry hr, exec_vectorChain_query hq⟩
  case logits => exact fun s r row hr h => exec_vectorChain_logits hr h
  case breaks => exact fun s job e rd wr f hj h => engineRun_breaks f hj h
  case outside => exact fun s job e rd wr f hj h hp => engineRun_outside f hj h hp
  case load =>
    intro s e job n b he hj hn
    rw [exec_functionTableLoad, if_pos (by simp [he, hj, hn])]
  case loadNot =>
    intro s e job n b h
    rw [exec_functionTableLoad, if_neg (by rcases h with h | h <;> simp [h])]
  case reduce =>
    rintro s job sem src adr _ residual k q rfl hq hj hw hn ⟨hparts, hres⟩
    rw [exec_rowReduction_found hq, if_pos (reductionDue_of hj hw hn), if_pos (by rw [hparts, hres]; rfl)]
  case reduceOutside =>
    rintro s job sem src adr _ residual k q rfl hq hj hw hn h
    rw [exec_rowReduction_found hq, if_pos (reductionDue_of hj hw hn), if_neg (by rcases h with h | h <;> rw [h] <;> simp)]
  case reduceNot =>
    rintro s job sem src adr _ residual k q rfl hq h
    rw [exec_rowReduction_found hq, reductionDue_not h]
    rfl

end Sys2Proof.Laws
end

section
/-! PROOFS. Packets that arrive (R102, R104, R107, R316 to R331): what becomes of one before its type's own effect, once for every type, and
then each type's effect and the forwarding of packets on their way. -/

namespace Sys2Proof.Laws

open Sys2Proof Sys2Proof.Machine

/-! ## By its port (R317, R331) -/

/-- A packet that its port brings nothing of: the port is down, or its stream is being discarded and its header has not been located. -/
abbrev Lost (s : State) (port : Nat) (p : Packet) : Prop :=
  (s.gport port).up = false ∨ ((portVc (s.gport port) (2 * (p.tc % 4) + p.hop % 2)).resync = true ∧ p.located = false)

/-- The state in which the stream of a packet's virtual channel is taken again. -/
def relocated (s : State) (port : Nat) (p : Packet) : State :=
  s.modPort port (modVc (2 * (p.tc % 4) + p.hop % 2) (fun v => { v with resync := false }))

theorem arrives_located {s : State} {port : Nat} {p : Packet} (h : Located s port p) : s.arrives port p = some s := by
  obtain ⟨hup, hsync⟩ := h
  simp [State.arrives, hup, hsync]

theorem arrives_lost {s : State} {port : Nat} {p : Packet} (h : Lost s port p) : s.arrives port p = none := by
  rcases h with hup | ⟨hsync, hloc⟩
  · simp [State.arrives, hup]
  · simp [State.arrives, hsync, hloc]

theorem arrives_relocated {s : State} {port : Nat} {p : Packet}
    (h : (s.gport port).up = true ∧ (portVc (s.gport port) (2 * (p.tc % 4) + p.hop % 2)).resync = true) (hl : p.located = true) :
    s.arrives port p = some (relocated s port p) := by
  simp [State.arrives, relocated, h, hl]

theorem gport_modPort_self (s : State) (port : Nat) (f : Port → Port) : (s.modPort port f).gport port = f (s.gport port) := by
  simp [State.gport, State.modPort, tabUpd, tabGetD]

theorem portVc_modVc_self (n : Nat) (f : VcState → VcState) (g : Port) : portVc (modVc n f g) n = f (portVc g n) := by
  simp [portVc, modVc, tabUpd, tabGetD]

/-- Once the stream is taken again, the packet is located on it. -/
theorem located_relocated {s : State} {port : Nat} {p : Packet} (h : (s.gport port).up = true) : Located (relocated s port p) port p := by
  refine ⟨?_, ?_⟩
  · rw [relocated, gport_modPort_self]
    exact h
  · rw [relocated, gport_modPort_self, portVc_modVc_self]

theorem onlyMgmt_relocated (s : State) (port : Nat) (p : Packet) : onlyMgmt (relocated s port p) port = onlyMgmt s port := by
  unfold onlyMgmt
  rw [relocated, gport_modPort_self]
  rfl

/-! ## By its type and header (R316, R318, R322) -/

section
variable {s : State} {port : Nat} {p : Packet} {ptype : Nat} (f : State → State)

theorem receive_otherType (h : p.ptype ≠ ptype) : s.receive port p ptype f = s := by
  rw [State.receive, if_pos (by simp [h])]

theorem receive_onlyMgmt (h : onlyMgmt s port = true) (hty : ptype ≠ 0x30) : s.receive port p ptype f = s := by
  rw [State.receive, if_pos (by simp [h, hty])]

theorem receive_lost (h : Lost s port p) : s.receive port p ptype f = s := by
  rw [State.receive, arrives_lost h]
  exact ite_self s

/-- A packet of its type that its port brings is dropped for a bad header, left where it is for another device, or taken. -/
theorem receive_arrived (hty : p.ptype = ptype) (hm : onlyMgmt s port = false ∨ ptype = 0x30) {t : State} (ha : s.arrives port p = some t) :
    s.receive port p ptype f =
      if headerCause t p ≠ 0 then t.badPacket port (headerCause t p) p else if p.dst ≠ identityOf s then t else f t := by
  rw [State.receive, ha, if_neg (by rcases hm with hm | hm <;> simp [hty, hm])]

/-- One for this device has its type's effect. -/
theorem receive_taken (hty : p.ptype = ptype) (hm : onlyMgmt s port = false ∨ ptype = 0x30) (hl : Located s port p) (hc : headerCause s p = 0)
    (hd : p.dst = identityOf s) : s.receive port p ptype f = f s := by
  rw [receive_arrived f hty hm (arrives_located hl), if_neg (not_not.2 hc), if_neg (not_not.2 hd)]

end

/-! ## What every row of a packet has in common -/

/-- A row brings a packet that is not this device's own: it acts as a packet of its type is received. -/
def Receives (i : Instr) (t port : Nat) (p : Packet) (ptype : Nat) : Prop :=
  ∃ f : State → State, ∀ s, p.src ≠ identityOf s → exec i s = .next ((s.atTime t).receive port p ptype f)

section
variable (t port : Nat) (p : Packet)

theorem receives_actData : Receives (.actData t ⟨port, p⟩) t port p 0x10 := by
  refine ⟨_, fun s hs => congrArg Host.Outcome.next (if_neg ?_)⟩
  simp [hs]

theorem receives_err : Receives (.err t ⟨port, p⟩) t port p 0x3E := ⟨_, fun _ _ => rfl⟩
theorem receives_mgmt (m : MgmtMsg) : Receives (.mgmt t ⟨port, p⟩ m) t port p 0x30 := ⟨_, fun _ _ => rfl⟩
theorem receives_shipOpen : Receives (.shipOpen t ⟨port, p⟩) t port p 0x20 := ⟨_, fun _ _ => rfl⟩
theorem receives_shipGrant : Receives (.shipGrant t ⟨port, p⟩) t port p 0x21 := ⟨_, fun _ _ => rfl⟩
theorem receives_shipData : Receives (.shipData t port p) t port p 0x22 := ⟨_, fun _ _ => rfl⟩
theorem receives_shipDone : Receives (.shipDone t port p) t port p 0x23 := ⟨_, fun _ _ => rfl⟩
theorem receives_shipEnd : Receives (.shipEnd t port p) t port p 0x24 := ⟨_, fun _ _ => rfl⟩

end

section
variable {i : Instr} {s : State} {t port : Nat} {p : Packet} {ptype : Nat} (h : Receives i t port p ptype) (hs : p.src ≠ identityOf s)
include h hs

theorem Receives.lost (hl : Lost s port p) : exec i s = .next (s.atTime t) := by
  obtain ⟨f, hf⟩ := h
  rw [hf s hs, receive_lost f (s := s.atTime t) hl]

theorem Receives.onlyMgmt (hm : onlyMgmt s port = true) (hty : ptype ≠ 0x30) : exec i s = .next (s.atTime t) := by
  obtain ⟨f, hf⟩ := h
  rw [hf s hs, receive_onlyMgmt f (s := s.atTime t) hm hty]

/-- A packet of another device, whatever its type. -/
theorem Receives.elsewhere (hl : Located s port p) (hc : headerCause s p = 0) (hd : p.dst ≠ identityOf s) : exec i s = .next (s.atTime t) := by
  obtain ⟨f, hf⟩ := h
  rw [hf s hs]
  by_cases hty : p.ptype = ptype
  · by_cases hm : Machine.onlyMgmt s port = true ∧ ptype ≠ 0x30
    · rw [receive_onlyMgmt f (s := s.atTime t) hm.1 hm.2]
    · have hm' : Machine.onlyMgmt s port = false ∨ ptype = 0x30 := by
        rwa [not_and_or, Bool.not_eq_true, not_not] at hm
      rw [receive_arrived f (s := s.atTime t) hty hm' (arrives_located (s := s.atTime t) hl)]
      exact congrArg Host.Outcome.next ((if_neg (not_not.2 hc)).trans (if_pos hd))
  · rw [receive_otherType f hty]

variable (hm : Machine.onlyMgmt s port = false)
include hm

theorem Receives.bad (hl : Located s port p) (hc : headerCause s p ≠ 0) (hty : p.ptype = ptype) :
    exec i s = .next ((s.atTime t).badPacket port (headerCause s p) p) := by
  obtain ⟨f, hf⟩ := h
  rw [hf s hs, receive_arrived f (s := s.atTime t) hty (.inl hm) (arrives_located (s := s.atTime t) hl)]
  exact congrArg Host.Outcome.next (if_pos hc)

/-- A packet whose header has been located acts as on a channel whose stream is not being discarded (R317). -/
theorem Receives.relocated (hup : (s.gport port).up = true ∧ (portVc (s.gport port) (2 * (p.tc % 4) + p.hop % 2)).resync = true)
    (hloc : p.located = true) (hty : p.ptype = ptype) : exec i s = exec i (relocated s port p) := by
  obtain ⟨f, hf⟩ := h
  have hm' : Machine.onlyMgmt (Laws.relocated s port p) port = false := (onlyMgmt_relocated s port p).trans hm
  rw [hf s hs, hf (Laws.relocated s port p) hs, receive_arrived f (s := s.atTime t) hty (.inl hm) (arrives_relocated (s := s.atTime t) hup hloc),
    receive_arrived f (s := (Laws.relocated s port p).atTime t) hty (.inl hm')
      (arrives_located (s := (Laws.relocated s port p).atTime t) (located_relocated hup.1))]
  rfl

end

/-! ## ACT_DATA (R102, R104, R107, R208) -/

/-- ACT_DATA for this device lands in its receive space, or is discarded as out of bounds and as a violation. -/
theorem exec_actData_forUs {s : State} {t port : Nat} {p : Packet} (h : ForUs s port p 0x10) :
    exec (.actData t ⟨port, p⟩) s = .next (
      if holdsIn s rowHolding p.addr p.payload.length then ((s.atTime t).putStore p.addr p.payload).actArrived p.addr
      else ((s.atTime t).outOfBounds p.addr).violate port) := by
  obtain ⟨⟨hty, hm⟩, hl, hc, hd⟩ := h
  have hnot : ¬(decide (p.src = identityOf s) && decide (p.dst ≠ identityOf s) && decide (p.ptype = 0x10)) = true := by simp [hd]
  exact congrArg Host.Outcome.next ((if_neg hnot).trans (receive_taken _ (s := s.atTime t) hty (.inl hm) hl hc hd))

/-- One of this device's own for another is sent while a job runs. -/
theorem exec_actData_own {s : State} {t port : Nat} {p : Packet} (h : p.src = identityOf s ∧ p.dst ≠ identityOf s ∧ p.ptype = 0x10) :
    exec (.actData t ⟨port, p⟩) s = .next (
      if headerCause s p = 0 && s.plan.jobs.any (fun j => j.active) then
        (s.atTime t).sendPacket { p with urgent := s.plan.jobs.any (fun j => j.active && j.urgent) }
      else s.atTime t) := by
  have hown : (decide (p.src = identityOf s) && decide (p.dst ≠ identityOf s) && decide (p.ptype = 0x10)) = true := by simp [h]
  exact congrArg Host.Outcome.next (if_pos hown)

/-! ## MGMT and ERR -/

/-- What a message of MGMT does: port states enter the view, any other is kept for its commit window (R320, R324). -/
def mgmtTaken (s : State) (port src : Nat) : MgmtMsg → State
  | .portStates a l => s.onGelcon (fun g => { g with view := g.view.filter (fun v => v.1 ≠ a) ++ l.map (fun x => (a, x.1, x.2)) })
  | m => s.onGelcon (fun g => { g with mgmtIn := g.mgmtIn ++ [(s.now, port, src, m)] })

/-- MGMT for this device passes any port that brings it (R322). -/
theorem exec_mgmt_forUs {s : State} {t port : Nat} {p : Packet} (m : MgmtMsg) (h : (p.ptype = 0x30 ∧ headerCause s p = 0) ∧ p.dst = identityOf s)
    (hl : Located s port p) : exec (.mgmt t ⟨port, p⟩ m) s = .next (mgmtTaken (s.atTime t) port p.src m) := by
  obtain ⟨⟨hty, hc⟩, hd⟩ := h
  refine congrArg Host.Outcome.next ((receive_taken _ (s := s.atTime t) hty (.inr rfl) hl hc hd).trans ?_)
  cases m <;> rfl

theorem exec_err_forUs {s : State} {t port : Nat} {p : Packet} (h : ForUs s port p 0x3E) :
    exec (.err t ⟨port, p⟩) s = .next ((s.atTime t).noteErr (field p.payload 0 1) (field p.payload 1 1) (field p.payload 4 4)) := by
  obtain ⟨⟨hty, hm⟩, hl, hc, hd⟩ := h
  exact congrArg Host.Outcome.next (receive_taken _ (s := s.atTime t) hty (.inl hm) hl hc hd)

/-! ## PACKET_FORWARD (R319, R323 to R326) -/

/-- A hop taken: the packet stays, is dropped for a cause, or is queued at the port of its next hop. -/
def hopTaken (s : State) (port : Nat) (p : Packet) : Hop → State
  | .keep => s
  | .drop c => s.badPacket port c p
  | .out n h => (s.onGelcon (fun g => { g with outbox := g.outbox ++ [h] })).queueFlits n (packetFlits p h true (decide (port < 15)))

section
variable {s : State} {t port : Nat} {p : Packet} (q : List (Nat × Nat))

theorem exec_packetForward_onlyMgmt (h : onlyMgmt s port = true) : exec (.packetForward t port p q) s = .next (s.atTime t) :=
  congrArg Host.Outcome.next (if_pos h)

theorem exec_packetForward_lost (h : Lost s port p) : exec (.packetForward t port p q) s = .next (s.atTime t) := by
  change execPacketForward t port p q s = _
  unfold execPacketForward
  dsimp only
  rw [arrives_lost (s := s.atTime t) h]
  exact congrArg Host.Outcome.next (ite_self _)

variable (h : Located s port p ∧ onlyMgmt s port = false)
include h

theorem exec_packetForward_located : exec (.packetForward t port p q) s = .next (
    if headerCause s p ≠ 0 then (s.atTime t).badPacket port (headerCause s p) p
    else hopTaken (s.atTime t) port p (route (s.atTime t) p q (decide (port < 15)))) := by
  have hm : ¬onlyMgmt (s.atTime t) port = true := Bool.eq_false_iff.1 h.2
  change execPacketForward t port p q s = _
  unfold execPacketForward
  dsimp only
  rw [if_neg hm, arrives_located (s := s.atTime t) h.1]
  dsimp only
  cases route (s.atTime t) p q (decide (port < 15)) <;> rfl

/-- One whose header is good goes as its route says. -/
theorem exec_packetForward_routed (hc : headerCause s p = 0) {r : Hop} (hr : route (s.atTime t) p q (decide (port < 15)) = r) :
    exec (.packetForward t port p q) s = .next (hopTaken (s.atTime t) port p r) := by
  rw [exec_packetForward_located q h, if_neg (not_not.2 hc), hr]

theorem exec_packetForward_bad (hc : headerCause s p ≠ 0) :
    exec (.packetForward t port p q) s = .next ((s.atTime t).badPacket port (headerCause s p) p) := by
  rw [exec_packetForward_located q h, if_pos hc]

end

/-! ## The obligation -/

/-- Settles O50: what every packet has in common, for each of the eight rows; then the effects of the types, and the next hop. -/
theorem packets : Obligations.Packets := by
  unfold Obligations.Packets
  refine ⟨?lands, ?outside, ?sent, ?notSent, ?mgmt, ?portStates, ?err, ?lost, ?relocated, ?elsewhere, ?onlyMgmt, ?bad, ?out, ?keep, ?drop⟩
  case lands =>
    intro s t port p h hh
    rw [exec_actData_forUs h, if_pos hh]
  case outside =>
    intro s t port p h hh
    rw [exec_actData_forUs h, if_neg (by simp [hh])]
  case sent =>
    intro s t port p h hc hj
    rw [exec_actData_own h, if_pos (by simp [hc, hj])]
  case notSent =>
    intro s t port p h hno
    rw [exec_actData_own h, if_neg (by rcases hno with hc | hj <;> simp [*])]
  case mgmt =>
    intro s t port p m h hl hm
    rw [exec_mgmt_forUs m h hl]
    cases m with
    | portStates a l => exact absurd rfl (hm a l)
    | _ => rfl
  case portStates => exact fun s t port p a l h hl => exec_mgmt_forUs (.portStates a l) h hl
  case err => exact fun s t port p h => exec_err_forUs h
  case lost =>
    intro s t port p q m hs hl
    exact ⟨(receives_actData t port p).lost hs hl, (receives_err t port p).lost hs hl, (receives_mgmt t port p m).lost hs hl,
      (receives_shipOpen t port p).lost hs hl, (receives_shipGrant t port p).lost hs hl, (receives_shipData t port p).lost hs hl,
      (receives_shipDone t port p).lost hs hl, (receives_shipEnd t port p).lost hs hl, exec_packetForward_lost q hl⟩
  case relocated =>
    rintro s _ t port p m hup ⟨hloc, hs, hm⟩ rfl
    exact ⟨(receives_actData t port p).relocated hs hm hup hloc, (receives_err t port p).relocated hs hm hup hloc,
      (receives_mgmt t port p m).relocated hs hm hup hloc, (receives_shipOpen t port p).relocated hs hm hup hloc,
      (receives_shipGrant t port p).relocated hs hm hup hloc, (receives_shipData t port p).relocated hs hm hup hloc,
      (receives_shipDone t port p).relocated hs hm hup hloc, (receives_shipEnd t port p).relocated hs hm hup hloc⟩
  case elsewhere =>
    intro s t port p m hl ⟨hc, hd, hs⟩
    exact ⟨(receives_actData t port p).elsewhere hs hl hc hd, (receives_err t port p).elsewhere hs hl hc hd,
      (receives_mgmt t port p m).elsewhere hs hl hc hd, (receives_shipOpen t port p).elsewhere hs hl hc hd,
      (receives_shipGrant t port p).elsewhere hs hl hc hd, (receives_shipData t port p).elsewhere hs hl hc hd,
      (receives_shipDone t port p).elsewhere hs hl hc hd, (receives_shipEnd t port p).elsewhere hs hl hc hd⟩
  case onlyMgmt =>
    intro s t port p q hm hs
    exact ⟨(receives_actData t port p).onlyMgmt hs hm (by decide), (receives_err t port p).onlyMgmt hs hm (by decide),
      (receives_shipOpen t port p).onlyMgmt hs hm (by decide), (receives_shipGrant t port p).onlyMgmt hs hm (by decide),
      (receives_shipData t port p).onlyMgmt hs hm (by decide), (receives_shipDone t port p).onlyMgmt hs hm (by decide),
      (receives_shipEnd t port p).onlyMgmt hs hm (by decide), exec_packetForward_onlyMgmt q hm⟩
  case bad =>
    rintro s _ t port p m hl ⟨hm, hs⟩ hc rfl
    exact ⟨(receives_actData t port p).bad hs hm hl hc, (receives_err t port p).bad hs hm hl hc, (receives_mgmt t port p m).bad hs hm hl hc,
      (receives_shipOpen t port p).bad hs hm hl hc, (receives_shipGrant t port p).bad hs hm hl hc, (receives_shipData t port p).bad hs hm hl hc,
      (receives_shipDone t port p).bad hs hm hl hc, (receives_shipEnd t port p).bad hs hm hl hc⟩
  case out => exact fun s t port p q n h hl hc hr => exec_packetForward_routed q hl hc hr
  case keep => exact fun s t port p q hl hc hr => exec_packetForward_routed q hl hc hr
  case drop =>
    rintro s t port p q c hl (⟨hc, rfl⟩ | ⟨hc, hr⟩)
    · exact exec_packetForward_bad q hl hc
    · exact exec_packetForward_routed q hl hc hr

end Sys2Proof.Laws
end

section
/-! PROOFS. What a bank-unit command does that its sequencer accepts (Table 5-7, R118, R126, R127, R137, R141, R142, R247): the effect of each
opcode, said once, and the GATHERs of a commit (R253; log 29). -/

namespace Sys2Proof.Laws

open Sys2Proof Sys2Proof.Machine

/-! ## The effect of an opcode -/

section
variable {c : BuCmd} (cl : Nat) (t : State)

theorem buEffect_nop (h : c.op = 0) : buEffect cl c t = t := by simp [buEffect, h]
theorem buEffect_qload (h : c.op = 1) : buEffect cl c t = doQload cl c t := by simp [buEffect, h]
theorem buEffect_gload (h : c.op = 2) : buEffect cl c t = doGload cl c t := by simp [buEffect, h]
theorem buEffect_tload (h : c.op = 3) : buEffect cl c t = doTload cl c t := by simp [buEffect, h]
theorem buEffect_aclr (h : c.op = 4) : buEffect cl c t = doAclr cl c t := by simp [buEffect, h]
theorem buEffect_pass (h : c.op = 5) : buEffect cl c t = doPass cl c t := by simp [buEffect, h]
theorem buEffect_drain (h : c.op = 6) : buEffect cl c t = doDrain cl c t := by simp [buEffect, h]
theorem buEffect_copy (h : c.op = 7) : buEffect cl c t = doCopy cl c t := by simp [buEffect, h]
theorem buEffect_gather (h : c.op = 8) : buEffect cl c t = doGather cl c t := by simp [buEffect, h]
theorem buEffect_fill (h : c.op = 9) : buEffect cl c t = doFill cl c t := by simp [buEffect, h]
theorem buEffect_tlogrd (h : c.op = 11) : buEffect cl c t = doTlogrd cl c t := by simp [buEffect, h]

end

/-! ## Commands that the sequencer runs as they are issued (R125, R133) -/

section
variable {i : Instr} {s e : State} {cl : Nat} {c : BuCmd} (hi : exec i s = .next (buIssue cl c s)) (h : BankRuns s cl c) (he : buEffect cl c s = e)
include hi h he

/-- A row that issues a command which runs has the command's effect, and its banks have streamed its time. -/
theorem exec_bankCommand : exec i s = .next (buStream cl c.word s e) := by
  rw [hi, buIssue_runs h, he]

/-- One whose command does not stream has the effect alone. -/
theorem exec_bankCommand_quiet (hs : buStreams c.op = false) : exec i s = .next e := by
  rw [hi, buIssue_quiet h hs, he]

end

/-! ## GATHER -/

theorem exec_gather_execute {s : State} (cl job : Nat) (w x : BitVec 128) (bad : List BadColumn) (hc : s.tick.inCommit = false) :
    exec (.gather cl job w x bad) s = .next (buIssue cl { op := 8, job := job, word := w, ext := x, bad := bad } s) :=
  congrArg Host.Outcome.next (if_neg (by simp [hc]))

theorem exec_gather_commit {s : State} (cl job : Nat) (w x : BitVec 128) (bad : List BadColumn) (hc : s.tick.inCommit = true) :
    exec (.gather cl job w x bad) s = .next (offerGather cl { op := 8, job := 17, word := w, ext := x, bad := bad } s) :=
  congrArg Host.Outcome.next (if_pos hc)

theorem loadLanes_variant (s : State) (cl : Nat) (w x : BitVec 128) : (s.loadLanes cl w x).variant = s.variant :=
  (loadLanes_k s cl w x (Keeps.refl s)).variant

/-- On a pair out of service, or where no commit owes it, a GATHER reported in a commit window is not offered (log 29). -/
theorem offerGather_notOwed {s : State} {cl : Nat} {c : BuCmd} (h : s.clusterUp cl = false ∨ gatherOwed s cl c.word c.ext = false) :
    offerGather cl c s = s := by
  rw [offerGather, if_neg (by rcases h with h | h <;> simp [h])]

/-! ## The obligation -/

/-- Settles O37: each command by the effect of its opcode, streamed where it streams; a GATHER by its window. -/
theorem bankCommandsRun : Obligations.BankCommandsRun := by
  unfold Obligations.BankCommandsRun
  refine ⟨?nop, ?qload, ?gload, ?tload, ?aclr, ?pass, ?drain, ?copy, ?fill, ?tlogrd, ?gather, ?gatherCommit, ?gatherNotOwed⟩
  case nop => exact fun s cl job w h => exec_bankCommand_quiet rfl h (buEffect_nop cl s rfl) rfl
  case qload =>
    rintro s cl job w d _ h rfl
    exact exec_bankCommand_quiet rfl h (buEffect_qload cl s rfl) rfl
  case gload => exact fun s cl job w p h => exec_bankCommand_quiet rfl h (buEffect_gload cl s rfl) rfl
  case tload =>
    rintro s _ cl job w p h rfl
    exact exec_bankCommand_quiet rfl h (buEffect_tload cl s rfl) rfl
  case aclr => exact fun s cl job w h => exec_bankCommand_quiet rfl h (buEffect_aclr cl s rfl) rfl
  case pass => exact fun s cl job w bad h => exec_bankCommand rfl h (buEffect_pass cl s rfl)
  case drain => exact fun s cl job w x h => exec_bankCommand_quiet rfl h (buEffect_drain cl s rfl) rfl
  case copy => exact fun s cl job w x bad h => exec_bankCommand rfl h (buEffect_copy cl s rfl)
  case fill => exact fun s cl job w h => exec_bankCommand rfl h (buEffect_fill cl s rfl)
  case tlogrd => exact fun s cl job w x h => exec_bankCommand_quiet rfl h (buEffect_tlogrd cl s rfl) rfl
  case gather =>
    intro s cl job w x bad hc h
    exact exec_bankCommand (exec_gather_execute cl job w x bad hc) h (buEffect_gather cl s rfl)
  case gatherCommit =>
    rintro s u cl job w x bad c rfl ⟨hc, hu⟩ hf hb he hg hr
    have hv : u.variant = s.variant := by simp only [he, loadLanes_variant]
    rw [← loadLanes_variant s cl w x] at hb
    rw [exec_gather_commit cl job w x bad hc,
      offerGather_runs (c := { op := 8, job := 17, word := w, ext := x, bad := bad }) ⟨rfl, rfl⟩ hu hf hb he hg hr, hv]
  case gatherNotOwed =>
    intro s cl job w x bad hc h
    rw [exec_gather_commit cl job w x bad hc, offerGather_notOwed (c := { op := 8, job := 17, word := w, ext := x, bad := bad }) h]

end Sys2Proof.Laws
end

section
/-! PROOFS. The controller of a stack's banks (R128, R133, R136, R143; log 29 for the count of intervals owed): what a refresh pays, and an
equation for each command. -/

namespace Sys2Proof.Laws

open Sys2Proof Sys2Proof.Machine

/-! ## Refresh (R133) -/

theorem trefi_pos (c : BankCluster) : 0 < trefi c := by
  unfold trefi
  split <;> omega

/-- With a bank unit replaced, its interval in progress counts from that unit's. -/
theorem refreshBase_tabPut (c : BankCluster) (b : Nat) (u : BankUnit) :
    refreshBase { c with units := tabPut b u c.units } b = max c.refreshFrom u.refreshed := by
  simp [refreshBase, tabGetD]

theorem refreshDebt_tabPut (now : Nat) (c : BankCluster) (b : Nat) (u : BankUnit) :
    refreshDebt now { c with units := tabPut b u c.units } b = min 2 ((now - max c.refreshFrom u.refreshed) / trefi c) := by
  rw [refreshDebt, refreshBase_tabPut]
  rfl

/-- Once one interval is paid, one less is owed. -/
theorem sub_interval_div (t n b : Nat) : (n - (b + t)) / t = (n - b) / t - 1 := by
  have h := Nat.sub_mul_div (n - b) t 1
  rwa [Nat.mul_one, Nat.sub_sub] at h

/-- A bank owes one refresh less after it. -/
theorem refreshDebt_refreshBank {c : BankCluster} {now : Nat} (b : Nat) (hfrom : c.refreshFrom ≤ now) (u : BankUnit) :
    refreshDebt now { c with units := tabPut b (refreshBank now c b u) c.units } b = refreshDebt now c b - 1 := by
  have ht := trefi_pos c
  have hbase : c.refreshFrom ≤ refreshBase c b := Nat.le_max_left ..
  rw [refreshDebt_tabPut, refreshDebt, refreshBank]
  dsimp only
  split
  · next h0 => rw [h0, max_eq_right hfrom, Nat.sub_self, Nat.zero_div, Nat.min_zero]
  · next h0 =>
    split
    · next h2 =>
      rw [max_eq_right (by omega), sub_interval_div]
      omega
    · next h2 =>
      have hold : 3 * trefi c ≤ now - refreshBase c b := (Nat.le_div_iff_mul_le ht).1 (by omega)
      rw [max_eq_right (by omega), Nat.sub_sub_self (by omega), Nat.div_self ht]
      omega

/-! ## The controller's commands -/

/-- A refresh reaches a bank of the device whose stack is in service; the stack's waiting commands are then offered again. -/
theorem exec_bankRefresh (s : State) (cl b : Nat) : exec (.bankRefresh cl b) s = .next (
    if s.clusterUp cl && b < banksOf s.variant then (s.modBu cl b (refreshBank s.now (s.bcl cl) b)).buPump cl else s) := rfl

/-- A stack becomes hot above 85 degrees, and no longer is below 83 (Table 5-10). -/
theorem exec_stackHotChange {s : State} {cl : Nat} (temp : Nat) (hu : s.clusterUp cl = true) : exec (.stackHotChange cl temp) s = .next (
    s.modBcl cl (fun c => { c with hot := if 85 < temp then true else if temp < 83 then false else c.hot })) :=
  congrArg Host.Outcome.next (if_pos hu)

/-- The two thresholds as one condition: hot stays from 83 upward, and is set above 85. -/
theorem hot_ite_eq_or (hot : Bool) (temp : Nat) :
    (if 85 < temp then true else if temp < 83 then false else hot) = ((hot && decide (83 ≤ temp)) || decide (85 < temp)) := by
  by_cases hhigh : 85 < temp
  · simp [hhigh]
  · by_cases hlow : temp < 83
    · simp [hhigh, hlow]
    · simp [hhigh, hlow, Nat.le_of_not_lt hlow]

theorem exec_patrolScrub (s : State) (cl b : Nat) (bad : List BadColumn) : exec (.patrolScrub cl b bad) s = .next (
    if s.clusterUp cl && b < banksOf s.variant && bit (nth s.regs.buScrub cl 0).toNat 12
        && buStarts s cl (patrolWord s.variant b (s.bu cl b).patrolRow) then
      (scrubRun cl (patrolWord s.variant b (s.bu cl b).patrolRow) bad s).modBu cl b (fun u => { u with
        patrolRow := ((s.bu cl b).patrolRow + 1) % 32768 })
    else s) := rfl

theorem exec_layerCombine (s : State) (cl job layer : Nat) (bad : List BadColumn) : exec (.layerCombine cl job layer bad) s = .next (
    if s.clusterUp cl && layer < max (s.mslot job).info.layers (s.mslot job).info.draftModel.layers && s.jobRuns job
        && (s.bcl cl).drains.any (fun r => r.job = job) && !(s.bcl cl).queue.any (fun q => q.job = job) then layerCombine cl job layer bad s
    else s) := rfl

/-! ## The obligation -/

/-- Settles O40: each command by its equation, and what a refresh pays. -/
theorem bankController : Obligations.BankController := by
  unfold Obligations.BankController
  refine ⟨?refresh, ?debt, ?absent, ?hot, ?patrol, ?noPatrol, ?combine⟩
  case refresh =>
    intro s cl b h
    rw [exec_bankRefresh, if_pos (by simpa using h)]
  case debt =>
    intro c now b u _ ⟨hfrom, _⟩
    exact ⟨refreshDebt_refreshBank b hfrom u, rfl⟩
  case absent =>
    intro s cl b h
    rw [exec_bankRefresh, if_neg (by rcases h with h | h <;> simp [h])]
  case hot =>
    intro s cl temp hu
    simp only [exec_stackHotChange temp hu, hot_ite_eq_or]
  case patrol =>
    intro s cl b bad h hon hst
    rw [exec_patrolScrub, if_pos (by rw [hon, hst]; simpa using h)]
  case noPatrol =>
    intro s cl b bad h
    rw [exec_patrolScrub, if_neg (by rcases h with h | h <;> rw [h] <;> simp)]
  case combine =>
    intro s cl job layer bad h hj hd hq
    rw [exec_layerCombine, if_pos (by rw [hj, hd, hq]; simpa using h)]

end Sys2Proof.Laws
end

section
/-! PROOFS. What a matrix command does that its sequencer accepts (Table 6-8, R145, R149, R150, R156, R160, R168, R170, R171): the effect of each,
said once. ILOAD stands apart, since its ordinal is named as it is issued. -/

namespace Sys2Proof.Laws

open Sys2Proof Sys2Proof.Machine

/-! ## ILOAD (R150, R156) -/

/-- The next ordinal of a cluster is named. -/
def ordinalNamed (s : State) (cl : Nat) : State := s.modMcl cl (fun c => { c with nextOrdinal := c.nextOrdinal + 1 })

/-- On its cluster nothing else changes. -/
theorem mcl_ordinalNamed (s : State) (cl : Nat) :
    (ordinalNamed s cl).mcl cl = { s.mcl cl with nextOrdinal := (s.mcl cl).nextOrdinal + 1 } := by
  rw [ordinalNamed, mcl_modMcl, if_pos rfl]

theorem mxWaits_ordinalNamed (s : State) (cl : Nat) (q : MxCmd) : mxWaits (ordinalNamed s cl) cl q = mxWaits s cl q := by
  rw [mxWaits, mcl_ordinalNamed]
  rfl

/-- As it comes to run, an ILOAD is rejected only for full back registers (cause 4). -/
theorem mxReject_iload (s : State) (cl job : Nat) (w : BitVec 128) :
    mxReject s cl job 1 w 0 0 0 = if (s.mu cl (mxMu w)).back.isSome then some (4, 0) else none := by
  simp [mxReject]

theorem mxReject_iload_ordinalNamed (s : State) (cl job : Nat) (w : BitVec 128) :
    mxReject (ordinalNamed s cl) cl job 1 w 0 0 0 = mxReject s cl job 1 w 0 0 0 := by
  rw [mxReject_iload, mxReject_iload, State.mu, mcl_ordinalNamed]
  rfl

/-- An ILOAD whose word is good names the next ordinal, and then waits or comes to run. -/
theorem mxIssue_iload {s : State} {cl : Nat} {q : MxCmd} (ho : q.op = 1) (ht : mxTakes s cl q.job = true)
    (hw : mxWordBad s cl q.op q.word = none) : mxIssue s cl q =
    if mxWaits s cl q || mxBehind (s.mcl cl).queue q then (ordinalNamed s cl).modMcl cl (fun c => { c with queue := c.queue ++ [q] })
    else mxUnitDo cl (ordinalNamed s cl) q := by
  rw [mxIssue, if_pos ht, hw]
  dsimp only
  rw [if_pos ho, ← ordinalNamed, mxWaits_ordinalNamed, mcl_ordinalNamed]

/-- One that has nothing to wait for loads its ingot at once. -/
theorem mxIssue_iload_starts {s : State} {cl job : Nat} {w : BitVec 128} (h : MxStarts s cl { job := job, op := 1, word := w }) :
    mxIssue s cl { job := job, op := 1, word := w } = loadIngot (ordinalNamed s cl) cl job w := by
  obtain ⟨⟨ht, hw, hr⟩, hn, hb⟩ := h
  rw [mxIssue_iload rfl ht hw, hn, hb, if_neg (by decide), mxUnitDo, mxDo, mxReject_iload_ordinalNamed, hr]
  rfl

/-- The staged ingot that an ILOAD takes: it has arrived, and it is the ordinal's in the kernel that the job runs. -/
abbrev ingotReady (s : State) (cl job : Nat) (w : BitVec 128) : Option Staged :=
  (s.mcl cl).staging.find? (fun f => f.model = job && f.kernel = s.kernelOf job && f.ordinal = mxGranule w && f.arrived)

/-- One whose ingot has not arrived waits. -/
theorem mxWaits_iload {s : State} {cl job : Nat} {w : BitVec 128} (h : ingotReady s cl job w = none) :
    mxWaits s cl { job := job, op := 1, word := w } = true := by
  rw [List.find?_eq_none, ← List.any_eq_false] at h
  simp only [mxWaits, h, decide_true, Bool.not_false, Bool.and_self]

theorem ingotReady_ordinalNamed (s : State) (cl job : Nat) (w : BitVec 128) : ingotReady (ordinalNamed s cl) cl job w = ingotReady s cl job w := by
  rw [ingotReady, mcl_ordinalNamed]
  rfl

/-- The ingot that is ready goes to the back registers, and its staging slot and hold are freed. -/
theorem loadIngot_ready {s : State} {cl job : Nat} {w : BitVec 128} {f : Staged} (h : ingotReady s cl job w = some f) :
    loadIngot s cl job w = s.modMcl cl (fun c => settleHalves { c with
      units := tabUpd (mxMu w) {} (fun u => { u with back := some f.ingot }) c.units
      staging := c.staging.erase f
      holds := c.holds.filter (fun h => !(h.ingot && h.job = job && h.ordinal = mxGranule w && h.first = f.granule)) }) := by
  unfold loadIngot
  dsimp only
  split
  · next hnone => exact nomatch h.symm.trans hnone
  · next f' hsome =>
    cases h.symm.trans hsome
    rfl

/-! ## MPASS (R145 to R149, R159) -/

/-- A group with the products of an MPASS's rows added to its lanes. -/
def passedGroup (s : State) (cl : Nat) (w : BitVec 128) (i : Ingot) : AccGroup :=
  { s.grp cl (mxGid w) with lanes := (List.range (mxRows w)).foldl (fun l r =>
      rowPass i r (s.getBytes (spBase cl + mxSp w * 256 + r * actBytes i.fmt) (actBytes i.fmt)) l) (s.grp cl (mxGid w)).lanes }

/-- Rows that meet a poisoned ingot have their attempts marked (R159). -/
def poisonMarked (rows : List Nat) (i : Ingot) (s : State) : State :=
  if i.poisoned then s.onPlan (fun p => { p with attempts := markAttempts rows (fun a => { a with poisoned := true }) p.attempts }) else s

/-- With the ingot of the front set only the group changes, and the marks. -/
theorem passRows_front {s : State} {cl : Nat} {w : BitVec 128} {i : Ingot} (rows : List Nat) (hn : mxNew w = false)
    (hi : (s.mu cl (mxMu w)).front = some i) :
    passRows s cl w rows = poisonMarked rows i (s.setGrp cl (mxGid w) (passedGroup s cl w i)) := by
  have hm : mpassIngot s cl w = some i := by rw [mpassIngot, hn]; exact hi
  rw [passRows, hm]
  dsimp only
  rw [State.setGrp, modMcl_modMcl, hn]
  rfl

/-- With that of the back set the unit's sets move too. -/
theorem passRows_back {s : State} {cl : Nat} {w : BitVec 128} {i : Ingot} (rows : List Nat) (hn : mxNew w = true)
    (hi : (s.mu cl (mxMu w)).back = some i) :
    passRows s cl w rows = poisonMarked rows i ((s.setGrp cl (mxGid w) (passedGroup s cl w i)).modMcl cl (fun c =>
      { c with units := tabUpd (mxMu w) {} (fun _ => { front := some i, back := none }) c.units })) := by
  have hm : mpassIngot s cl w = some i := by rw [mpassIngot, hn]; exact hi
  rw [passRows, hm]
  dsimp only
  rw [hn]
  rfl

section
variable {s e : State} {cl job : Nat} {w : BitVec 128} {rows : List Nat} {i : Ingot}
  (h : MxStarts s cl { job := job, op := 3, word := w, rows := rows }) (he : passRows s cl w rows = poisonMarked rows i e)
include h he

/-- An MPASS whose ingot is whole marks nothing. -/
theorem exec_mpass_whole (hp : i.poisoned = false) : exec (.mpass cl job w rows) s = .next e :=
  congrArg Host.Outcome.next ((mxIssue_runs h (by simp)).trans (he.trans (if_neg (by simp [hp]))))

theorem exec_mpass_poisoned (hp : i.poisoned = true) : exec (.mpass cl job w rows) s =
    .next (e.onPlan (fun p => { p with attempts := markAttempts rows (fun a => { a with poisoned := true }) p.attempts })) :=
  congrArg Host.Outcome.next ((mxIssue_runs h (by simp)).trans (he.trans (if_pos hp)))

end

/-! ## The obligation -/

/-- Settles O41: each command has its effect where the sequencer accepts it; an ILOAD names the next ordinal first. -/
theorem matrixCommandsRun : Obligations.MatrixCommandsRun := by
  unfold Obligations.MatrixCommandsRun
  refine ⟨?nop, ?iload, ?iloadWaits, ?gopen, ?mpassFront, ?mpassFrontPoisoned, ?mpassBack, ?mpassBackPoisoned, ?gclose, ?gfree, ?apass, ?spload,
    ?spinv⟩
  case nop => exact fun s cl job w h => congrArg Host.Outcome.next (mxRun_runs _ h)
  case iload =>
    intro s cl job w f h hf
    exact congrArg Host.Outcome.next ((mxIssue_iload_starts h).trans (loadIngot_ready ((ingotReady_ordinalNamed ..).trans hf)))
  case iloadWaits =>
    intro s cl job w ht hw hf
    exact congrArg Host.Outcome.next ((mxIssue_iload rfl ht hw).trans (if_pos (by rw [mxWaits_iload hf, Bool.true_or])))
  case gopen => exact fun s cl job w h => congrArg Host.Outcome.next (mxIssue_runs h (by simp))
  case mpassFront => exact fun s cl job w rows i h hn hi hp => exec_mpass_whole h (passRows_front rows hn hi) hp
  case mpassFrontPoisoned => exact fun s cl job w rows i h hn hi hp => exec_mpass_poisoned h (passRows_front rows hn hi) hp
  case mpassBack => exact fun s cl job w rows i h hn hi hp => exec_mpass_whole h (passRows_back rows hn hi) hp
  case mpassBackPoisoned => exact fun s cl job w rows i h hn hi hp => exec_mpass_poisoned h (passRows_back rows hn hi) hp
  case gclose => exact fun s cl job w h => congrArg Host.Outcome.next (mxIssue_runs h (by simp))
  case gfree => exact fun s cl job w h => congrArg Host.Outcome.next (mxIssue_runs h (by simp))
  case apass =>
    intro s cl logical job tensor layer w zx rows l h hl hcl
    refine congrArg Host.Outcome.next ((mxRun_runs _ h).trans ?_)
    rw [hl]
    exact if_pos hcl
  case spload => exact fun s cl job w h => congrArg Host.Outcome.next (mxRun_runs _ h)
  case spinv => exact fun s cl job w h => congrArg Host.Outcome.next (mxRun_runs _ h)

end Sys2Proof.Laws
end

section
/-! PROOFS. Integer lanes that saturate (R163), and what the vector pipe reads of one (R164). -/

namespace Sys2Proof.Laws

open Sys2Proof Sys2Proof.Machine

/-- A lane at an end value, which it keeps (R163). -/
abbrev laneEnded (x : BitVec 32) : Prop := x = 0x7FFFFFFF ∨ x = 0x80000000

theorem laneAdd_ended {x : BitVec 32} (h : laneEnded x) (v : Int) : laneAdd x v = x := if_pos (by simpa [laneEnded] using h)

/-- Any other lane takes the sum, held to the end values. -/
theorem laneAdd_inner {x : BitVec 32} (h : ¬laneEnded x) (v : Int) : laneAdd x v =
    if 2147483647 ≤ x.toInt + v then 0x7FFFFFFF else if x.toInt + v ≤ -2147483648 then 0x80000000 else BitVec.ofInt 32 (x.toInt + v) :=
  if_neg (by simpa [laneEnded] using h)

theorem laneAdd_exact {x : BitVec 32} {v : Int} (h : ¬laneEnded x) (hlow : -2147483648 < x.toInt + v) (hhigh : x.toInt + v < 2147483647) :
    (laneAdd x v).toInt = x.toInt + v := by
  rw [laneAdd_inner h, if_neg (by omega), if_neg (by omega), BitVec.toInt_ofInt_eq_self (by decide) (by omega) (by omega)]

theorem laneAdd_high {x : BitVec 32} {v : Int} (hx : x ≠ 0x80000000) (h : 2147483647 ≤ x.toInt + v) : laneAdd x v = 0x7FFFFFFF := by
  by_cases hend : laneEnded x
  · rw [laneAdd_ended hend]
    exact hend.resolve_right hx
  · rw [laneAdd_inner hend, if_pos h]

theorem laneAdd_low {x : BitVec 32} {v : Int} (hx : x ≠ 0x7FFFFFFF) (h : x.toInt + v ≤ -2147483648) : laneAdd x v = 0x80000000 := by
  by_cases hend : laneEnded x
  · rw [laneAdd_ended hend]
    exact hend.resolve_left hx
  · rw [laneAdd_inner hend, if_neg (by omega), if_pos h]

/-- No sequence of additions moves a lane from an end value. -/
theorem foldl_laneAdd_ended {x : BitVec 32} (h : laneEnded x) (l : List Int) : l.foldl laneAdd x = x := by
  induction l with
  | nil => rfl
  | cons v l ih => rw [List.foldl_cons, laneAdd_ended h, ih]

/-- Settles O43: the sum within the end values, at or past either, and the lane that has ended. -/
theorem saturatingLanes : Obligations.SaturatingLanes := by
  unfold Obligations.SaturatingLanes
  refine ⟨?exact, ?high, ?low, ?ended, ?read⟩
  case exact => exact fun x v hx hx' => laneAdd_exact (not_or.2 ⟨hx, hx'⟩)
  case high => exact fun x v => laneAdd_high
  case low => exact fun x v => laneAdd_low
  case ended => exact fun x l h => foldl_laneAdd_ended h l
  case read => exact ⟨rfl, rfl⟩

end Sys2Proof.Laws
end

section
/-! PROOFS. The ingot loader (R155 to R159, R170, R385): what issuing a fetch changes, and what its arrival sets going. -/

namespace Sys2Proof.Laws

open Sys2Proof Sys2Proof.Machine

/-! ## INGOT_FETCH_ISSUE (R155, R157) -/

/-- The loader may fetch of a kernel: it is the running job's turn there, or a prefetch of the commit window. -/
abbrev MayFetch (s : State) (cl job k : Nat) : Prop :=
  (s.jobRuns job = true ∧ s.kernelOf job ≤ k ∧ fetchedTo s cl job k = true) ∨ mayPrefetch s cl job k = true

theorem exec_ingotFetchIssue_fetches {s t : State} {cl job k : Nat} (hu : s.clusterUp cl = true) (hm : MayFetch s cl job k)
    (h : issueFetch s cl job k = some t) : exec (.ingotFetchIssue cl job k) s = .next t := by
  refine congrArg Host.Outcome.next ((if_pos ?_).trans (by rw [h, Option.getD_some]))
  simpa [hu, and_assoc] using hm

theorem exec_ingotFetchIssue_none {s : State} {cl job k : Nat} (h : issueFetch s cl job k = none) :
    exec (.ingotFetchIssue cl job k) s = .next s :=
  congrArg Host.Outcome.next (by rw [h, Option.getD_none, ite_self])

/-- A fetch that is issued changes its own cluster, where it adds one staging slot and one hold. -/
theorem issueFetch_eq_modMcl {s t : State} {cl job k : Nat} (h : issueFetch s cl job k = some t) :
    ∃ f : MatrixCluster → MatrixCluster, t = s.modMcl cl f ∧
      ∀ c, (f c).holds.length = c.holds.length + 1 ∧ (f c).staging.length = c.staging.length + 1 := by
  unfold issueFetch at h
  dsimp only at h
  split at h
  · cases h
  · split at h
    · split at h
      · cases h
      · cases h
        exact ⟨_, rfl, fun c => ⟨List.length_append, List.length_append⟩⟩
    · cases h

/-! ## What waits for an ingot (R156) -/

theorem jobFault_tick (s : State) (m : Nat) : (s.jobFault m).tick = s.tick := by
  obtain ⟨_, _, _, _, _, htick, _⟩ := jobFault_units s m
  exact htick

theorem mxFault_tick (s : State) (cl job op cause a : Nat) : (mxFault s cl job op cause a).tick = s.tick := by
  rw [mxFault, jobFault_tick]
  split <;> rfl

theorem passRows_tick (s : State) (cl : Nat) (w : BitVec 128) (rows : List Nat) : (passRows s cl w rows).tick = s.tick := by
  unfold passRows
  split
  · rfl
  · dsimp only
    split <;> rfl

theorem loadIngot_tick (s : State) (cl job : Nat) (w : BitVec 128) : (loadIngot s cl job w).tick = s.tick := by
  unfold loadIngot
  dsimp only
  split <;> rfl

theorem mxEffect_tick (cl : Nat) (q : MxCmd) (s : State) : (mxEffect cl q s).tick = s.tick := by
  unfold mxEffect
  split
  · exact loadIngot_tick ..
  · rfl
  · exact passRows_tick ..
  · rfl
  · rfl

theorem mxUnitDo_tick (cl : Nat) (s : State) (q : MxCmd) : (mxUnitDo cl s q).tick = s.tick := by
  unfold mxUnitDo mxDo
  split
  · exact mxFault_tick ..
  · exact mxEffect_tick ..

/-- The commands that waited leave the tick as it is, run or rejected. -/
theorem mxPump_tick (cl n : Nat) (s : State) : (mxPump cl n s).tick = s.tick := by
  induction n generalizing s with
  | zero => rfl
  | succ n ih =>
    unfold mxPump
    split
    · rfl
    · rw [ih, mxUnitDo_tick, modMcl_tick]

/-! ## INGOT_FETCH_DONE (R156, R157, R159, R385) -/

/-- The fetch that INGOT_FETCH_DONE names, where it is outstanding. -/
abbrev fetchDue (s : State) (cl job k o : Nat) : Option Staged :=
  (s.mcl cl).staging.find? (fun f => f.model = job && f.kernel = k && f.ordinal = o && !f.arrived)

/-- The header of a fetch's ingot is not what its directory entry and its kernel say (R159). -/
abbrev headerWrong (s : State) (cl o : Nat) (f : Staged) : Bool :=
  headerBad s cl f.granule (nth (dirOf s cl f.model f.kernel) o {}) (kernelLayer s f.model f.kernel)

/-- A fetch arrives with the ingot that memory holds, poisoned or not. -/
def fetchArrives (s : State) (cl : Nat) (f : Staged) (bad : Bool) : State :=
  s.modMcl cl (fun c => { c with staging := c.staging.map (fun x =>
    if x = f then { f with arrived := true, ingot := { readIngot s cl f.granule with poisoned := bad, fmt := f.ingot.fmt } } else x) })

/-- What follows: the commands that waited run, and in a commit window the loader prefetches on. -/
def loaderGoesOn (cl : Nat) (s : State) : State :=
  let t := mxPump cl (s.mcl cl).queue.length s
  if t.tick.inCommit then t.prefetch else t

theorem exec_ingotFetchDone_due {s : State} {cl job k o : Nat} {f : Staged} {u bad : Bool} (hf : fetchDue s cl job k o = some f)
    (hb : (u || headerWrong s cl o f) = bad) : exec (.ingotFetchDone cl ⟨job, k, o⟩ u) s = .next (loaderGoesOn cl (
      if bad then (fetchArrives s cl f bad).notePoison f.model cl f.granule else fetchArrives s cl f bad)) := by
  change execIngotFetchDone cl ⟨job, k, o⟩ u s = _
  subst hb
  unfold execIngotFetchDone
  split
  · next hnone => exact nomatch hf.symm.trans hnone
  · next f' hsome =>
    cases hf.symm.trans hsome
    rfl

theorem exec_ingotFetchDone_whole {s : State} {cl job k o : Nat} {f : Staged} (hf : fetchDue s cl job k o = some f)
    (hb : headerWrong s cl o f = false) :
    exec (.ingotFetchDone cl ⟨job, k, o⟩ false) s = .next (loaderGoesOn cl (fetchArrives s cl f false)) :=
  exec_ingotFetchDone_due (bad := false) hf ((Bool.false_or _).trans hb)

theorem exec_ingotFetchDone_poisoned {s : State} {cl job k o : Nat} {f : Staged} {u : Bool} (hf : fetchDue s cl job k o = some f)
    (hb : u = true ∨ headerWrong s cl o f = true) : exec (.ingotFetchDone cl ⟨job, k, o⟩ u) s =
      .next (loaderGoesOn cl ((fetchArrives s cl f true).notePoison f.model cl f.granule)) :=
  exec_ingotFetchDone_due (bad := true) hf (Bool.or_eq_true_iff.2 hb)

theorem exec_ingotFetchDone_notDue {s : State} {cl job k o : Nat} (u : Bool) (h : fetchDue s cl job k o = none) :
    exec (.ingotFetchDone cl ⟨job, k, o⟩ u) s = .next s := by
  change execIngotFetchDone cl ⟨job, k, o⟩ u s = _
  unfold execIngotFetchDone
  split
  · rfl
  · next f hf => exact nomatch h.symm.trans hf

theorem loaderGoesOn_execute {s : State} (cl : Nat) (h : s.tick.inCommit = false) : loaderGoesOn cl s = mxPump cl (s.mcl cl).queue.length s :=
  if_neg (by rw [mxPump_tick, h]; decide)

theorem loaderGoesOn_commit {s : State} (cl : Nat) (h : s.tick.inCommit = true) :
    loaderGoesOn cl s = (mxPump cl (s.mcl cl).queue.length s).prefetch :=
  if_pos (by rw [mxPump_tick, h])

/-! ## The obligation -/

/-- Settles O44: what a fetch that is issued changes, then the arrival of a whole or poisoned ingot in either window. -/
theorem ingotLoader : Obligations.IngotLoader := by
  unfold Obligations.IngotLoader
  refine ⟨?issued, ?notIssued, ?whole, ?poisoned, ?wholeInWindow, ?poisonedInWindow, ?notDue⟩
  case issued =>
    intro s t cl job k hu hm h
    have hexec := exec_ingotFetchIssue_fetches hu hm h
    obtain ⟨f, rfl, hf⟩ := issueFetch_eq_modMcl h
    refine ⟨hexec, rfl, rfl, rfl, ?_, ?_⟩
    · intro c hc
      rw [mcl_modMcl, if_neg hc.symm]
    · rw [mcl_modMcl, if_pos rfl]
      exact hf _
  case notIssued => exact fun s cl job k => exec_ingotFetchIssue_none
  case whole =>
    rintro s _ cl job k o f _ _ hf hb rfl rfl rfl hc
    exact (exec_ingotFetchDone_whole hf hb).trans (congrArg Host.Outcome.next (loaderGoesOn_execute cl hc))
  case poisoned =>
    rintro s _ cl job k o f _ b hf hb rfl rfl hc
    exact (exec_ingotFetchDone_poisoned hf hb).trans (congrArg Host.Outcome.next (loaderGoesOn_execute cl hc))
  case wholeInWindow =>
    rintro s _ cl job k o f _ hf hb rfl rfl hc
    exact (exec_ingotFetchDone_whole hf hb).trans (congrArg Host.Outcome.next (loaderGoesOn_commit cl hc))
  case poisonedInWindow =>
    rintro s _ cl job k o f _ b hf hb rfl rfl hc
    exact (exec_ingotFetchDone_poisoned hf hb).trans (congrArg Host.Outcome.next (loaderGoesOn_commit cl hc))
  case notDue => exact fun s cl job k o u => exec_ingotFetchDone_notDue u

end Sys2Proof.Laws
end

section
/-! PROOFS. Reservations of store blocks (R204 to R208): an equation for a standing class's request, and what a class's retry comes to. -/

namespace Sys2Proof.Laws

open Sys2Proof Sys2Proof.Machine

/-! ## STORE_RESERVE (R205 to R207) -/

section
variable {s : State} {c : StoreClass} (h n : Nat)

/-- A class that lasts a tick is reserved as its plan is made, and not here (R207). -/
theorem exec_storeReserve_tick (hc : isTick c = true) : exec (.storeReserve c h n) s = .next s :=
  congrArg Host.Outcome.next (if_pos hc)

/-- A standing class's request meets the ceiling first, then what may be granted now. -/
theorem exec_storeReserve_standing (hc : isTick c = false) : exec (.storeReserve c h n) s = .next (
    if classCeiling s c < n then s.answerWith (leBytes 2 St.badArgument)
    else if mayGrant s c n then (s.grantBlocks c h n).answerWith (leBytes 2 St.ok)
    else (s.onStore (fun u => { u with queue := u.queue ++ [{ cls := c, blocks := n, holder := h }] })).count
      (fun x => { x with store := { x.store with reservationWaits := inc64 x.store.reservationWaits } })) :=
  congrArg Host.Outcome.next (if_neg (ne_true_of_eq_false hc))

end

/-! ## STORE_RESERVE_RETRY (R206) -/

theorem retryClass_grants {s : State} {c : StoreClass} {w : Waiter} (hw : s.store.queue.find? (fun x => x.cls = c) = some w)
    (hg : mayGrant s c w.blocks = true) :
    retryClass s c = (s.grantBlocks c w.holder w.blocks).onStore (fun u => { u with queue := u.queue.erase w }) := by
  rw [retryClass, hw]
  exact if_pos hg

theorem retryClass_waits {s : State} {c : StoreClass}
    (hw : ∀ w, s.store.queue.find? (fun x => x.cls = c) = some w → mayGrant s c w.blocks = false) : retryClass s c = s := by
  unfold retryClass
  split
  · rfl
  · next w hfirst => exact if_neg (ne_true_of_eq_false (hw w hfirst))

/-! ## The obligation -/

/-- Settles O46: a request by the outcomes of its equation, a class's retry by its first waiter, and a release by its class. -/
theorem storeReservations : Obligations.StoreReservations := by
  unfold Obligations.StoreReservations
  refine ⟨?aboveCeiling, ?granted, ?queued, ?tick, ?retry, ?retryGrants, ?retryWaits, ?release, ?journal⟩
  case aboveCeiling =>
    intro s c h n hc hn
    rw [exec_storeReserve_standing h n hc, if_pos hn]
  case granted =>
    intro s c h n hc hn hg
    rw [exec_storeReserve_standing h n hc, if_neg hn.not_gt, if_pos hg]
  case queued =>
    intro s c h n hc hn hg
    rw [exec_storeReserve_standing h n hc, if_neg hn.not_gt, if_neg (ne_true_of_eq_false hg)]
  case tick => exact fun s c h n => exec_storeReserve_tick h n
  case retry => exact fun s => rfl
  case retryGrants => exact fun s c w => retryClass_grants
  case retryWaits => exact fun s c => retryClass_waits
  case release => exact fun s c h hc => congrArg Host.Outcome.next (if_neg hc)
  case journal => exact fun s h => congrArg Host.Outcome.next (if_pos rfl)

end Sys2Proof.Laws
end

section
/-! PROOFS. Semaphores (R215, R216; log 36 for one that the job does not hold): an equation for each command. -/

namespace Sys2Proof.Laws

open Sys2Proof Sys2Proof.Machine

/-- A job that runs uses a semaphore of its own whose dies have not both failed (R215, R216). -/
def usesSem (s : State) (job n : Nat) (q : Semaphore) : Bool := s.jobRuns job && q.job = job && semServed s n

section
variable {s : State} {job n : Nat} {q : Semaphore}

theorem usesSem_own (hj : s.jobRuns job = true ∧ q.job = job) (hs : semServed s n = true) : usesSem s job n q = true := by
  rw [usesSem, hj.1, hs, decide_eq_true hj.2]
  rfl

theorem usesSem_foreign (hj : q.job ≠ job) : usesSem s job n q = false := by
  rw [usesSem, decide_eq_false hj, Bool.and_false, Bool.false_and]

variable (hq : tabGet n s.store.sems = some q)
include hq

theorem exec_semSignal_held (v : Nat) : exec (.semSignal job n v) s = .next (
    if usesSem s job n q then
      if 65535 < q.value + v then s.jobFault job else s.modSem n (fun x => { x with value := x.value + v })
    else s) := by
  change execSemSignal job n v s = _
  rw [execSemSignal, hq]
  rfl

theorem exec_semWait_held (v w : Nat) : exec (.semWait job n v w) s = .next (
    if usesSem s job n q then
      if q.waiters.isEmpty && v ≤ q.value then s.modSem n (fun x => { x with value := x.value - v })
      else s.modSem n (fun x => { x with waiters := x.waiters ++ [(w, v)] })
    else s) := by
  change execSemWait job n v w s = _
  rw [execSemWait, hq]
  rfl

/-- The first waiter alone is tried. -/
theorem exec_semWaitSatisfied_first {w : Nat × Nat} {r : List (Nat × Nat)} (hw : q.waiters = w :: r) :
    exec (.semWaitSatisfied n) s = .next (
      if w.2 ≤ q.value && semServed s n then s.modSem n (fun x => { x with value := x.value - w.2, waiters := r }) else s) := by
  change execSemWaitSatisfied n s = _
  rw [execSemWaitSatisfied, hq]
  dsimp only
  rw [hw]

theorem exec_semRead_held (hn : n < 4096) (hs : semServed s n = true) :
    exec (.semRead n) s = .next (s.answerWith (leBytes 2 q.value ++ leBytes 2 q.waiters.length)) := by
  change execSemRead n s = _
  rw [execSemRead, hs, decide_eq_true hn, tabGetD, hq]
  rfl

end

/-- Settles O48: each clause is one outcome of its command's equation. -/
theorem semaphores : Obligations.Semaphores := by
  unfold Obligations.Semaphores
  refine ⟨?signal, ?overflow, ?takes, ?joins, ?foreign, ?served, ?short, ?read⟩
  case signal =>
    intro s job n v q hq hj hs hv
    rw [exec_semSignal_held hq, if_pos (usesSem_own hj hs), if_neg hv.not_gt]
  case overflow =>
    intro s job n v q hq hj hs hv
    rw [exec_semSignal_held hq, if_pos (usesSem_own hj hs), if_pos hv]
  case takes =>
    intro s job n v w q hq hj hs hv
    rw [exec_semWait_held hq, if_pos (usesSem_own hj hs), if_pos (by simpa using hv)]
  case joins =>
    intro s job n v w q hq hj hs hv
    rw [exec_semWait_held hq, if_pos (usesSem_own hj hs), if_neg (by simpa [imp_iff_not_or] using hv)]
  case foreign =>
    intro s job n v w q hq hj
    rw [exec_semWait_held hq, exec_semSignal_held hq, usesSem_foreign hj]
    exact ⟨rfl, rfl⟩
  case served =>
    intro s n q w r hq hw hv hs
    rw [exec_semWaitSatisfied_first hq hw, if_pos (by simpa [hs] using hv)]
  case short =>
    intro s n q w r hq hw hv
    rw [exec_semWaitSatisfied_first hq hw, if_neg (by simp [hv.not_ge])]
  case read => exact fun s n q hn hs hq => exec_semRead_held hq hn hs

end Sys2Proof.Laws
end

section
/-! PROOFS. Stripe rows and hub dies (R199, R201, R216, R390; log 42 for the control die that a poisoned JOURNAL read fails): a lost row's
read by its class, patrol and re-striping by their conditions, and that the first failed hub die isolates no die and loses no semaphore. -/

namespace Sys2Proof.Laws

open Sys2Proof Sys2Proof.Machine

/-! ## STORE_POISONED_READ (R199, R390) -/

theorem exec_storePoisonedRead_rebuilt {s : State} {a : Nat} (c : StoreClass) (h : Nat) (hr : rowLost s (stripeRow s a) = false) :
    exec (.storePoisonedRead c a h) s = .next s :=
  congrArg Host.Outcome.next (if_pos (by rw [hr]; rfl))

/-- The read of a lost row: zeros, counted. -/
abbrev lostRead (s : State) (a : Nat) : State := (s.answerWith (List.replicate 64 0)).readStore a 64

/-- What a class makes of a lost row, once the read is counted (R199; Table 17-5 for a standing class). -/
def lostRowOf (c : StoreClass) (a h : Nat) (u : State) : State :=
  match c with
  | .act => u.poisonJob h
  | .logit => u.poisonJob h
  | .ship => u.regrantShip h
  | .host => u.reissueAll
  | .tier => u.failTier2 h
  | .journal => u.controlDieFails u.faults.ctActive
  | .rtcache => u.onStore (mendRow (stripeRow u a))
  | .pindex => u.onTier (fun v => { v with poisonedBuckets := v.poisonedBuckets ++ [h] })

theorem exec_storePoisonedRead_lost {s : State} {a : Nat} (c : StoreClass) (h : Nat) (hr : rowLost s (stripeRow s a) = true) :
    exec (.storePoisonedRead c a h) s = .next (lostRowOf c a h (lostRead s a)) := by
  refine congrArg Host.Outcome.next ((if_neg (by rw [hr]; decide)).trans ?_)
  cases c <;> rfl

/-! ## STORE_PATROL and STORE_RESTRIPE (R199, R201) -/

theorem exec_storePatrol (s : State) (bad : List (Nat × Nat)) : exec (.storePatrol bad) s =
    .next (if bit s.regs.storeCtl.toNat 16 then bad.foldl patrolUnit (s.markBad bad) else s.markBad bad) := rfl

/-- The standing pool is to be copied now: in the execute window of the empty tick, once (R201). -/
def restripeDue (s : State) : Bool :=
  s.store.reconfPending && !s.store.sevenTwo && !s.store.restriped && s.plan.emptyRunning && s.tick.running && !s.tick.inCommit

theorem exec_storeRestripe (s : State) : exec .storeRestripe s = .next (if restripeDue s then copyPool s else s) := rfl

/-! ## HUB_DIE_FAILED (R16 to R18, R201, R216) -/

/-- Each die hangs on two hub dies (Table 1-4), so the loss of one hub die isolates none. -/
theorem isolatedDies_one {d : Nat} (hd : d < 10) : isolatedDies [d] = [] :=
  (by decide : ∀ d < 10, isolatedDies [d] = []) d hd

/-- Each semaphore is held on two dies, so the loss of one die loses none (R216). -/
theorem semServed_one {s : State} {d : Nat} (hs : s.store.failed = [d]) (n : Nat) : semServed s n = true := by
  simp only [semServed, hs, List.contains_cons, List.contains_nil, Bool.or_false, Bool.not_eq_true', Bool.and_eq_false_iff, beq_eq_false_iff_ne]
  omega

theorem loseSems_of_served {s : State} (h : ∀ n, semServed s n = true) : s.loseSems = s := by
  have hgone : s.store.sems.filter (fun q => !semServed s q.1) = [] := List.filter_eq_nil_iff.2 fun q _ => by rw [h]; decide
  rw [State.loseSems, hgone]
  exact congrArg (fun l => s.onStore (fun u => { u with sems := l })) (List.filter_eq_self.2 fun _ _ => rfl)

@[simp] theorem degrade_store (s : State) : s.degrade.store = s.store := by
  unfold State.degrade
  split <;> rfl

@[simp] theorem degrade_faults (s : State) : s.degrade.faults = s.faults := by
  unfold State.degrade
  split <;> rfl

@[simp] theorem markFailed_store (s : State) (f : FaultUnit → FaultUnit) : (s.markFailed f).store = s.store := by simp [State.markFailed]

@[simp] theorem markFailed_faults (s : State) (f : FaultUnit → FaultUnit) : (s.markFailed f).faults = f s.faults := by simp [State.markFailed]

/-- A hub die is noted as failed, and the device as degraded. -/
abbrev hubDieNoted (s : State) (d : Nat) : State :=
  (s.onStore (fun u => { u with failed := (List.range 10).filter (fun e => e = d || u.failed.contains e) })).markFailed (fun f => f)

theorem hubDieNoted_failed {s : State} {d : Nat} (hd : d < 10) (hs : s.store.failed = []) : (hubDieNoted s d).store.failed = [d] := by
  rw [markFailed_store, onStore_store, hs]
  exact (by decide : ∀ d < 10, (List.range 10).filter (fun e => decide (e = d) || [].contains e) = [d]) d hd

theorem exec_hubDieFailed_ignored {s : State} {d : Nat} (t : Nat) (h : 10 ≤ d ∨ d ∈ s.store.failed) :
    exec (.hubDieFailed t d) s = .next (s.atTime t) :=
  congrArg Host.Outcome.next (if_pos (by simp [h]))

/-- An empty tick is planned for the geometry of nine dies, all but d (R201). -/
def nineDiesPlanned (d : Nat) (s : State) : State :=
  (s.onStore (fun u => { u with reconfPending := true, survivors := setDel d (List.range 10) })).onPlan (fun p => { p with emptyTick := true })

/-- What the number of failed hub dies calls for: service at the third, a halt at the fourth, the new geometry at the first of ten, and the
end of each die that has lost both its hub dies. -/
def hubDieActs (d : Nat) (first : Bool) (s : State) : State :=
  let n := s.store.failed.length
  let s := if n = 3 then s.needService d else s
  let s := if n = 4 then s.safeHalt .byFault else s
  let s := if first then if s.faults.orphan then s.safeHalt .byFault else nineDiesPlanned d s else s
  (isolatedDies s.store.failed).foldl State.dieFails s

theorem exec_hubDieFailed_new {s : State} {d : Nat} (t : Nat) (hd : d < 10) (hnew : d ∉ s.store.failed) (hon : s.start.state ≠ .off) :
    exec (.hubDieFailed t d) s =
      .next (hubDieActs d (s.store.failed.isEmpty && !s.store.sevenTwo) (hubDieNoted (s.atTime t) d).loseSems) :=
  congrArg Host.Outcome.next (if_neg (by simp [hd, hnew, hon]))

/-- The first of ten calls for the new geometry alone. -/
theorem hubDieActs_first {s : State} {d : Nat} (hd : d < 10) (hs : s.store.failed = [d]) (hct : s.faults.orphan = false) :
    hubDieActs d true s = nineDiesPlanned d s := by
  have hiso : isolatedDies (nineDiesPlanned d s).store.failed = [] := (congrArg isolatedDies hs).trans (isolatedDies_one hd)
  simp [hubDieActs, hs, hct, hiso]

theorem exec_hubDieFailed_first {s : State} {d : Nat} (t : Nat) (hd : d < 10) (hnone : s.store.failed = []) (hten : s.store.sevenTwo = false)
    (hon : s.start.state ≠ .off) (hct : s.faults.orphan = false) :
    exec (.hubDieFailed t d) s = .next (nineDiesPlanned d (hubDieNoted (s.atTime t) d).loseSems) := by
  have hfailed : (hubDieNoted (s.atTime t) d).store.failed = [d] := hubDieNoted_failed hd hnone
  have hnoted : (hubDieNoted (s.atTime t) d).faults.orphan = false := by
    rw [markFailed_faults]
    exact hct
  rw [exec_hubDieFailed_new t hd (by simp [hnone]) hon, loseSems_of_served (semServed_one hfailed), hnone, hten]
  exact congrArg Host.Outcome.next (hubDieActs_first hd hfailed hnoted)

/-! ## The obligation -/

/-- Settles O47: a poisoned read by its class, then patrol, re-striping and a failed hub die by their conditions. -/
theorem storeStripes : Obligations.StoreStripes := by
  unfold Obligations.StoreStripes
  refine ⟨?rebuilt, ?jobs, ?others, ?patrolled, ?unpatrolled, ?restriped, ?notRestriped, ?firstDie, ?ignored⟩
  case rebuilt => exact fun s c a h => exec_storePoisonedRead_rebuilt c h
  case jobs =>
    rintro s _ c a h hr rfl (rfl | rfl) <;>
    exact exec_storePoisonedRead_lost _ h hr
  case others =>
    rintro s _ a h hr rfl
    exact ⟨exec_storePoisonedRead_lost .ship h hr, exec_storePoisonedRead_lost .host h hr, exec_storePoisonedRead_lost .journal h hr,
      exec_storePoisonedRead_lost .rtcache h hr, exec_storePoisonedRead_lost .pindex h hr, exec_storePoisonedRead_lost .tier h hr⟩
  case patrolled =>
    intro s bad hen
    rw [exec_storePatrol, if_pos hen]
  case unpatrolled =>
    intro s bad hen
    rw [exec_storePatrol, if_neg (ne_true_of_eq_false hen)]
  case restriped =>
    intro s hpend hempty hwin
    rw [exec_storeRestripe, if_pos (by simp [restripeDue, hpend, hempty, hwin])]
  case notRestriped =>
    intro s hno
    rw [exec_storeRestripe, if_neg]
    rcases hno with hno | hno | hno <;> simp [restripeDue, hno]
  case firstDie =>
    rintro s t d ⟨hd, hnone, hten⟩ hon hct
    exact exec_hubDieFailed_first t hd hnone hten hon hct
  case ignored => exact fun s t d => exec_hubDieFailed_ignored t

end Sys2Proof.Laws
end

section
/-! PROOFS. Page groups between the tiers (R202, R263, R264, R267, R273, R281, R283 to R286; log 7 for the states in which a command changes
nothing): an equation for each command, and that a transfer's end touches neither the models nor the requests. -/

namespace Sys2Proof.Laws

open Sys2Proof Sys2Proof.Machine

/-! ## What a transfer's end leaves alone -/

@[simp] theorem grantBlocks_models (s : State) (c : StoreClass) (h n : Nat) : (s.grantBlocks c h n).models = s.models := rfl
@[simp] theorem grantBlocks_req (s : State) (c : StoreClass) (h n : Nat) : (s.grantBlocks c h n).req = s.req := rfl

@[simp] theorem releaseBlocks_models (s : State) (c : StoreClass) (h : Nat) : (s.releaseBlocks c h).models = s.models := by
  unfold State.releaseBlocks
  split <;> rfl

@[simp] theorem releaseBlocks_req (s : State) (c : StoreClass) (h : Nat) : (s.releaseBlocks c h).req = s.req := by
  unfold State.releaseBlocks
  split <;> rfl

@[simp] theorem retryClass_models (s : State) (c : StoreClass) : (retryClass s c).models = s.models := by
  unfold retryClass
  split
  · rfl
  · split <;> simp

@[simp] theorem retryClass_req (s : State) (c : StoreClass) : (retryClass s c).req = s.req := by
  unfold retryClass
  split
  · rfl
  · split <;> simp

@[simp] theorem endTransfer_models (s : State) (kind h : Nat) : (s.endTransfer kind h).models = s.models := by
  simp [State.endTransfer, State.closeTransit, State.endMove, State.serveTier]

@[simp] theorem endTransfer_req (s : State) (kind h : Nat) : (s.endTransfer kind h).req = s.req := by
  simp [State.endTransfer, State.closeTransit, State.endMove, State.serveTier]

@[simp] theorem translateTier_models (s : State) (a n : Nat) : (s.translateTier a n).models = s.models := by
  unfold State.translateTier
  split
  · rfl
  · next r _ =>
    refine List.foldlRecOn [0, 1] _ (motive := fun t : State => t.models = s.models) rfl fun t ht p _ => ?_
    split
    · exact (translate_models ..).trans ht
    · exact ht

/-- The model of a group depends on the models alone. -/
theorem groupModel_of_eq {s t : State} (h : t.models = s.models) (m : Nat) (draft : Bool) : groupModel t m draft = groupModel s m draft := by
  rw [groupModel, State.mslot, h]
  rfl

/-! ## Demotions (R264, R284, R286) -/

/-- A group's demotion ends now: its transfer has been served through its blocks, and its place in tier 2 holds. -/
def demotionEnds (s : State) (h a : Nat) (g : PageGroup) : Bool :=
  s.tick.inCommit && g.state = .demoting && t2PlaceOk s h g a g.t2Granules && moveDone s 3 h && transitHeld s h

/-- The transfer of a demotion ends, with the group's frames and manifest written at its place in tier 2. -/
abbrev demotionWritten (s : State) (h a : Nat) (g : PageGroup) : State :=
  ((s.endTransfer 3 h).translateTier a (2048 * g.t2Granules)).onTier (fun t => { t with t2Writes := t.t2Writes ++ [(a, parkedCopy s g)] })

/-- A demoted group is PARKED, its granules of tier 1 go to fill, and it is judged again. -/
def demoted (s : State) (h a : Nat) (g : PageGroup) : State :=
  (((demotionWritten s h a g).addFillAt g.frameGranules (some g.charge) g.fillTenant none none (frameSpans (groupModel s g.modelSlot g.draft) g)).modGroup h
    (fun g => { g with state := .parked, t2Addr := a, frames := [], fillTenant := none })).recheck h

theorem exec_demotionComplete_group {s : State} {h : Nat} {g : PageGroup} (a : Nat) (hg : s.group? h = some g) :
    exec (.demotionComplete h a) s = .next (if demotionEnds s h a g then demoted s h a g else s) := by
  have hmodels : (demotionWritten s h a g).models = s.models := by simp
  change execDemotionComplete h a s = _
  rw [execDemotionComplete, hg, demoted, ← groupModel_of_eq hmodels]
  rfl

theorem exec_demotionFail_group {s : State} {h : Nat} {g : PageGroup} (hg : s.group? h = some g) : exec (.demotionFail h) s = .next (
    if s.tick.inCommit then
      if g.state = .demoting then
        ((((s.releaseT2 h).modGroup h (fun g => { g with state := .resident, fillTenant := none })).endTransfer 3 h).onTier
          (fun t => { t with evFailures := t.evFailures + 1 })).recheck h
      else s
    else s) := by
  change execDemotionFail h s = _
  rw [execDemotionFail, State.demotionFailed, hg]

/-! ## Promotions (R284, R285) -/

/-- A promotion whose read has not failed. -/
def readsOn (g : PageGroup) : Bool := g.state = .promoting && !g.rebuild && !g.readLost

theorem readsOn_iff {g : PageGroup} : readsOn g = true ↔ g.state = .promoting ∧ g.rebuild = false ∧ g.readLost = false := by
  simp [readsOn, and_assoc]

/-- The copy read is put in the frames where it agrees with its manifest; any other is a failed read. -/
theorem exec_promotionComplete_group {s : State} {h : Nat} {g : PageGroup} (d : List (BitVec 8)) (hg : s.group? h = some g) :
    exec (.promotionComplete h d) s = .next (
      if s.tick.inCommit && readsOn g && moveDone s 0 h && transitHeld s h then
        if copyOk (groupModel s g.modelSlot g.draft) g.frameGranules d then
          ((s.translateTier g.t2Addr (2048 * g.t2Granules)).onMem (writeSpans (frameSpans (groupModel s g.modelSlot g.draft) g) d)).promoted h
        else (s.translateTier g.t2Addr (2048 * g.t2Granules)).readFailed h
      else s) := by
  change execPromotionComplete h d s = _
  rw [execPromotionComplete, hg]
  simp only [readsOn, Bool.and_assoc]

/-- A failed read is counted as its transfer ends. -/
abbrev readCounted (s : State) (h : Nat) : State := (s.endTransfer 0 h).onTier (fun t => { t with evFailures := t.evFailures + 1 })

theorem req_readCounted (s : State) (h n : Nat) : (readCounted s h).req? n = s.req? n := req_of_eq (endTransfer_req s 0 h) n

/-- A group whose read is lost is to be rebuilt, but closes its owner where that does not allow recomputation (R285). -/
def readLostOf (h : Nat) (owner : Option Nat) (s : State) : State :=
  match owner.bind s.req?, owner with
  | some r, some n =>
    if r.flags.recomputeOk then s.setRebuild h else (s.modGroup h (fun g => { g with readLost := true })).closeSoon n St.faultTier2
  | _, _ => (s.setRebuild h).recheck h

theorem readLostOf_owned {s : State} {n : Nat} {r : Request} (h : Nat) (hr : s.req? n = some r) : readLostOf h (some n) s =
    if r.flags.recomputeOk then s.setRebuild h else (s.modGroup h (fun g => { g with readLost := true })).closeSoon n St.faultTier2 := by
  unfold readLostOf
  rw [Option.bind_some, hr]

theorem exec_tier2ReadFail_group {s : State} {h : Nat} {g : PageGroup} (hg : s.group? h = some g) : exec (.tier2ReadFail h) s =
    .next (if s.tick.inCommit then if readsOn g then readLostOf h g.owner (readCounted s h) else s else s) := by
  change execTier2ReadFail h s = _
  rw [execTier2ReadFail, State.readFailed, hg]
  rfl

/-! ## Published groups and fills (R263, R267, R273, R281) -/

theorem exec_publishRewriteDone_marked {s : State} {h k : Nat} {g : PageGroup} (hg : s.group? h = some g) (hk : g.markTick = some k) :
    exec (.publishRewriteDone h) s = .next (
      if s.tick.running && !s.tick.inCommit && k < s.tick.index && s.tier.publish.contains h then
        (s.onMem (rewriteSidecars g)).modGroup h (fun g => { g with rewritten := true })
      else s) := by
  change execPublishRewriteDone h s = _
  rw [execPublishRewriteDone, hg]
  dsimp only
  rw [hk]

/-- A fill that has ended: its rows are zero, and its granules are free and charged to nobody (R263). -/
abbrev fillEnded (s : State) (n : Nat) (f : PendingFill) : State :=
  (s.onMem (fun m => f.spans.foldl (fun m (x : Nat × Nat × Nat) => m.clear (granAddr x.1 x.2.1 0) (2048 * x.2.2)) m)).onTier
    (fun t => { t with fills := t.fills.eraseIdx n, t1Free := t.t1Free + f.granules
                       used1 := match f.tenant with | none => t.used1 | some n => chargeSub n f.granules t.used1 })

/-- The handle of a FREEING group whose fill has ended is free once nothing refers to it (R267). -/
def handleFreed (group : Option Nat) (s : State) : State :=
  match group with
  | none => s
  | some h =>
    match s.group? h with
    | none => s
    | some g =>
      if g.state = .freeing && g.refs = 0 then
        s.onTier (fun t => { t with groups := tabDel h t.groups, incarnations := tabPut h g.incarnation t.incarnations })
      else s

theorem handleFreed_freeing {s : State} {h : Nat} {g : PageGroup} (hg : s.group? h = some g) (hfree : g.state = .freeing ∧ g.refs = 0) :
    handleFreed (some h) s =
      s.onTier (fun t => { t with groups := tabDel h t.groups, incarnations := tabPut h g.incarnation t.incarnations }) := by
  unfold handleFreed
  dsimp only
  rw [hg]
  exact if_pos (by simpa using hfree)

theorem exec_granuleFillDone_ended {s : State} {n : Nat} {f : PendingFill} (hrun : s.tick.running = true) (hwin : s.tick.inCommit = false)
    (hf : s.tier.fills[n]? = some f) (hend : f.endsAt ≤ s.tick.index) :
    exec (.granuleFillDone n) s = .next (handleFreed f.group (fillEnded s n f)) := by
  change execGranuleFillDone n s = _
  rw [execGranuleFillDone, hf]
  exact congrArg Host.Outcome.next (if_pos (by simp [hrun, hwin, hend]))

/-! ## The obligation -/

/-- Settles O29: each clause is one outcome of its command's equation. -/
theorem pageGroupsMove : Obligations.PageGroupsMove := by
  unfold Obligations.PageGroupsMove
  refine ⟨?parked, ?notDemoted, ?demotionFails, ?notFailed, ?promoted, ?disagrees, ?unowned, ?owned, ?notPromoting, ?rewritten, ?filled, ?freed⟩
  case parked =>
    intro s h a g hc hg hd hp hm ht
    rw [exec_demotionComplete_group a hg, if_pos (by simp [demotionEnds, hc, hd, hp, hm, ht])]
    rfl
  case notDemoted =>
    intro s h a g hg hno
    rw [exec_demotionComplete_group a hg, if_neg]
    rcases hno with hno | hno | hno | hno <;> simp [demotionEnds, hno]
  case demotionFails =>
    intro s h g hc hg hd
    rw [exec_demotionFail_group hg, if_pos hc, if_pos hd]
  case notFailed =>
    rintro s h g hg (hc | hd)
    · rw [exec_demotionFail_group hg, if_neg (ne_true_of_eq_false hc)]
    · rw [exec_demotionFail_group hg, if_neg hd, ite_self]
  case promoted =>
    intro s h g d hc hg hp hr hm hok
    rw [exec_promotionComplete_group d hg, if_pos (by simp [hc, readsOn_iff.2 ⟨hp, hr⟩, hm]), if_pos hok]
    rfl
  case disagrees =>
    intro s h g d hc hg hp hr hm hbad
    rw [exec_promotionComplete_group d hg, if_pos (by simp [hc, readsOn_iff.2 ⟨hp, hr⟩, hm]), if_neg (ne_true_of_eq_false hbad)]
  case unowned =>
    intro s h g hc hg hp hr ho
    rw [exec_tier2ReadFail_group hg, if_pos hc, if_pos (readsOn_iff.2 ⟨hp, hr⟩), ho]
    rfl
  case owned =>
    intro s h n g r hc hg hp hr ho hreq
    rw [exec_tier2ReadFail_group hg, if_pos hc, if_pos (readsOn_iff.2 ⟨hp, hr⟩), ho, readLostOf_owned h ((req_readCounted s h n).trans hreq)]
  case notPromoting =>
    intro s h g d hg hno
    have hstays : s.tick.inCommit = false ∨ readsOn g = false := by
      refine hno.imp_right fun hno => ?_
      rcases hno with hno | hno | hno <;> simp [readsOn, hno]
    rw [exec_promotionComplete_group d hg, exec_tier2ReadFail_group hg]
    rcases hstays with hc | hr
    · rw [hc]
      exact ⟨rfl, rfl⟩
    · rw [hr, Bool.and_false]
      exact ⟨rfl, congrArg Host.Outcome.next (ite_self s)⟩
  case rewritten =>
    intro s h k g hrun hwin hg hk hlt hpub
    rw [exec_publishRewriteDone_marked hg hk, hrun, hwin, decide_eq_true hlt, hpub]
    rfl
  case filled =>
    intro s n f hrun hwin hf hend hno
    rw [exec_granuleFillDone_ended hrun hwin hf hend, hno]
    rfl
  case freed =>
    intro s n h f g hrun hwin hf hend hh hg hfree
    rw [exec_granuleFillDone_ended hrun hwin hf hend, hh, handleFreed_freeing (s := fillEnded s n f) hg hfree]
    rfl

end Sys2Proof.Laws
end

section
/-! PROOFS. The rows of the sampler and their trees (R226, R231, R232, R243, R246, R248): an equation for each command. -/

namespace Sys2Proof.Laws

open Sys2Proof Sys2Proof.Machine

/-! ## SAMPLER_ROW_MERGE -/

/-- The job of a model slot has run all its kernels without a fault. -/
def jobEnded (s : State) (m : Nat) : Bool :=
  match s.job? m with
  | none => false
  | some j => j.finished && !j.faulted

/-- A row's attempt is to be settled now: the window and its job allow it, the row samples a token, and its attempt is open (R34, R36, R231). -/
def mergeDue (s : State) (row : PlanRow) (r : Request) (a : Attempt) : Bool :=
  s.tick.running && !s.tick.inCommit && jobEnded s row.modelSlot
    && (row.kind = .decode || (row.kind = .prefill && chunkSamples r row.tokens)) && !a.done

/-- The state in which a row's records are read and its attempt is settled with what they come to (R199, R225, R231, R232). -/
def rowMerged (s : State) (m slot : Nat) (p : List (Nat × BitVec 16 × Nat) × Bool) : State :=
  ((readRecords s m slot).draw).modAttempt slot
    (fun a => { a with path := p.1, nonfinite := a.nonfinite || p.2, stamp := s.now, done := true })

theorem mergeDue_of {s : State} {row : PlanRow} {r : Request} {a : Attempt} {j : Job} (hj : s.job? row.modelSlot = some j)
    (hend : j.finished = true ∧ j.faulted = false) (ht : s.tick.running = true ∧ s.tick.inCommit = false)
    (hsamples : row.kind = .decode ∨ (row.kind = .prefill ∧ chunkSamples r row.tokens = true)) (hopen : a.done = false) :
    mergeDue s row r a = true := by
  simp [mergeDue, jobEnded, hj, hend, ht, hsamples, hopen]

theorem mergeDue_not_of_done {a : Attempt} (s : State) (row : PlanRow) (r : Request) (hdone : a.done = true) : mergeDue s row r a = false := by
  simp [mergeDue, hdone]

theorem exec_samplerRowMerge_attempted {s : State} {slot : Nat} {row : PlanRow} {r : Request} {a : Attempt} (t : Nat)
    (hrow : s.row? slot = some row) (hr : s.req? slot = some r) (ha : s.attempt? slot = some a) :
    exec (.samplerRowMerge t slot) s = .next (
      if mergeDue s row r a then (mergeRow (s.atTime t) r row).elim (s.atTime t) (rowMerged (s.atTime t) row.modelSlot slot)
      else s.atTime t) := by
  change execSamplerRowMerge t slot s = _
  rw [execSamplerRowMerge, rowAt_atTime, req_atTime, attemptAt_atTime, hrow, hr, ha]
  dsimp only
  cases mergeRow (s.atTime t) r row <;> rfl

/-! ## TREE_BUILD -/

/-- A kernel of the job of a model slot runs or has run; there is nothing to build for where there is no job. -/
def jobBegun (s : State) (m : Nat) : Bool :=
  match s.job? m with
  | none => true
  | some j => j.active || decide (0 < j.next)

/-- The serving die builds a row's tree now: the window allows it, the job has not started, and the tree comes from committed text (R243). -/
def treeDue (s : State) (row : PlanRow) (r : Request) : Bool :=
  row.kind = .decode && s.tick.running && !s.tick.inCommit && !jobBegun s row.modelSlot
    && (r.spec.source = 1 || r.spec.source = 3)

theorem treeDue_of {s : State} {row : PlanRow} {r : Request} {j : Job} (hkind : row.kind = .decode)
    (ht : s.tick.running = true ∧ s.tick.inCommit = false) (hj : s.job? row.modelSlot = some j) (hnew : j.active = false ∧ j.next = 0)
    (hsource : r.spec.source = 1 ∨ r.spec.source = 3) : treeDue s row r = true := by
  simp [treeDue, jobBegun, hkind, ht, hj, hnew, hsource]

/-- A request without a tree, or whose tree a draft model gives (R245), is none of TREE_BUILD's. -/
theorem treeDue_not_of_source {r : Request} (s : State) (row : PlanRow) (hsource : r.spec.source = 0 ∨ r.spec.source = 2) :
    treeDue s row r = false := by
  rcases hsource with h | h <;> simp [treeDue, h]

theorem exec_treeBuild_planned {s : State} {slot : Nat} {row : PlanRow} {r : Request} (hrow : s.row? slot = some row)
    (hr : s.req? slot = some r) : exec (.treeBuild slot) s = .next (
      if treeDue s row r then s.holdTree row (if bit s.regs.specCtl.toNat 8 then lookupTree r row.depth else rootTree r) [] else s) := by
  change execTreeBuild slot s = _
  rw [execTreeBuild, hrow, hr]
  rfl

theorem exec_treeBuild_unplanned {s : State} {slot : Nat} (hrow : s.row? slot = none) : exec (.treeBuild slot) s = .next s := by
  change execTreeBuild slot s = _
  rw [execTreeBuild, hrow]

/-! ## The obligation -/

/-- Settles O35: each clause is one outcome of its command's equation. -/
theorem rowsOfTheSampler : Obligations.RowsOfTheSampler := by
  unfold Obligations.RowsOfTheSampler
  refine ⟨?merged, ?kept, ?built, ?left⟩
  case merged =>
    intro s t slot row r a j p hrow hr ha hj hend ht hsamples hopen hp
    rw [exec_samplerRowMerge_attempted t hrow hr ha, if_pos (mergeDue_of hj hend ht hsamples hopen), hp]
    rfl
  case kept =>
    intro s t slot row r a hrow hr ha hno
    rw [exec_samplerRowMerge_attempted t hrow hr ha]
    rcases hno with hmissing | hdone
    · rw [hmissing, Option.elim_none, ite_self]
    · rw [mergeDue_not_of_done s row r hdone]
      rfl
  case built =>
    intro s slot row r j hrow hr hkind ht hj hnew hsource
    rw [exec_treeBuild_planned hrow hr, if_pos (treeDue_of hkind ht hj hnew hsource)]
  case left =>
    intro s slot r hr hsource
    cases hrow : s.row? slot with
    | none => exact exec_treeBuild_unplanned hrow
    | some row =>
      rw [exec_treeBuild_planned hrow hr, treeDue_not_of_source s row hsource]
      rfl

end Sys2Proof.Laws
end

section
/-! PROOFS. Model slots (R110, R289, R292, R293, R295): an equation for each of the commands that load, evict, pin and release one, and for the
three rows that end what these have begun. -/

namespace Sys2Proof.Laws

open Sys2Proof Sys2Proof.Machine

/-! ## What a translation and a transfer leave alone -/

/-- What no translation of a host address changes, the translation of a tier-2 range does not change (R349). -/
theorem translateTier_keeps {α : Type} {f : State → α} (hf : ∀ (s : State) (p a n : Nat), f (s.translate p a n) = f s) (s : State) (a n : Nat) :
    f (s.translateTier a n) = f s := by
  unfold State.translateTier
  split
  · rfl
  · next r _ =>
    refine List.foldlRecOn [0, 1] _ (motive := fun t : State => f t = f s) rfl fun t ht p _ => ?_
    split
    · exact (hf ..).trans ht
    · exact ht

@[simp] theorem translateTier_mb (s : State) (a n : Nat) : (s.translateTier a n).mb = s.mb := translateTier_keeps translate_mb s a n
@[simp] theorem translateTier_tick (s : State) (a n : Nat) : (s.translateTier a n).tick = s.tick := translateTier_keeps translate_tick s a n

@[simp] theorem endMove_mb (s : State) (kind key : Nat) : (s.endMove kind key).mb = s.mb := rfl
@[simp] theorem draw_mb (s : State) : s.draw.mb = s.mb := rfl
@[simp] theorem onMem_mb (s : State) (f : Memory → Memory) : (s.onMem f).mb = s.mb := rfl

/-- The commands outstanding depend on the mailbox alone. -/
theorem cmdAt_of_eq {s t : State} (h : t.mb = s.mb) (mb : Nat) (ops : List Nat) : t.cmdAt mb ops = s.cmdAt mb ops := by
  rw [State.cmdAt, h]
  rfl

/-- The model slots depend on the models alone. -/
theorem mslot_of_eq {s t : State} (h : t.models = s.models) (n : Nat) : t.mslot n = s.mslot n := by
  rw [State.mslot, h]
  rfl

/-! ## MODEL_LOAD (R292, steps 1 and 2) -/

/-- A number that is not out of range names a slot, or any (255). -/
theorem namesSlot_of {n : Nat} (h : ¬(16 ≤ n ∧ n ≠ 255)) : (decide (n < 16) || decide (n = 255)) = true := by
  rw [Bool.or_eq_true, decide_eq_true_iff, decide_eq_true_iff]
  omega

/-- MODEL_LOAD in its turn: the number, the address and the slot are judged in this order. -/
theorem exec_modelLoad_due {s : State} {mb : Nat} {c : MbCommand} (h : Due s mb 0x70 c) : exec (.modelLoad mb) s = .next (
    if 16 ≤ cf c 0 1 ∧ cf c 0 1 ≠ 255 then s.begin.complete c St.badArgument []
    else if imgPlaced s (cf c 8 8) 64 = false then s.begin.complete c St.badAddress []
    else if cf c 0 1 ≠ 255 ∧ (s.mslot (cf c 0 1)).state ≠ .empty then s.begin.complete c St.busy []
    else s.begin.setCmd { c with phase := 1 }) := by
  obtain ⟨hc, hu, ht⟩ := h
  have hplaced : imgPlaced s.begin (cf c 8 8) 64 = imgPlaced s (cf c 8 8) 64 := rfl
  change execModelLoad mb s = _
  rw [execModelLoad, runL_fresh _ hc hu ht]
  dsimp only
  rw [hplaced, mslot_begin]
  split_ifs with hn hp hs
  · rw [need_not (by simp [hn])]
    rfl
  · rw [need_of (namesSlot_of hn), ok_bind, need_not hp]
    rfl
  · rw [need_of (namesSlot_of hn), ok_bind, need_of (eq_true_of_ne_false hp), ok_bind, need_not (by simp [hs])]
    rfl
  · rw [need_of (namesSlot_of hn), ok_bind, need_of (eq_true_of_ne_false hp), ok_bind, need_of (by simpa [imp_iff_not_or] using hs)]
    rfl

/-! ## MODEL_HEADER_READ_DONE (R292, steps 3 to 5) -/

/-- The slot that an any-slot load takes: the lowest EMPTY one that no load waits for. -/
abbrev emptySlot (u : State) : Option Nat := (List.range 16).find? (fun k => (u.mslot k).state = .empty && (u.mslot k).loadNext.isNone)

/-- An EMPTY slot is there for a load: the one it names, or the one that an any-slot load takes. -/
abbrev HasSlot (u : State) (c : MbCommand) (n : Nat) : Prop :=
  (cf c 0 1 = n ∧ n ≠ 255 ∧ (u.mslot n).state = .empty) ∨ (cf c 0 1 = 255 ∧ emptySlot u = some n)

/-- A slot is being evicted, and a load goes on in it once it is EMPTY. -/
abbrev evictFirst (u : State) (mb k : Nat) (c : MbCommand) (i : ModelInfo) : State :=
  ((u.startEvict k).modMslot k (fun m => { m with loadNext := some (mb, i) })).setCmd { c with phase := 2, aux := k }

/-- What follows a header that has passed: its slot is taken, or one is evicted for it, or the load is BUSY. -/
def takeSlot (u : State) (mb : Nat) (c : MbCommand) (i : ModelInfo) : State :=
  if cf c 0 1 ≠ 255 then if (u.mslot (cf c 0 1)).state = .empty then u.loadInto (cf c 0 1) mb i else u.complete c St.busy []
  else
    match emptySlot u with
    | some k => u.loadInto k mb i
    | none =>
      match loadVictim u with
      | none => u.complete c St.busy []
      | some k => evictFirst u mb k c i

section
variable {u : State} {mb n : Nat} {c : MbCommand} {i : ModelInfo}

theorem takeSlot_free (h : HasSlot u c n) : takeSlot u mb c i = u.loadInto n mb i := by
  rcases h with ⟨rfl, hn, he⟩ | ⟨hany, hn⟩
  · rw [takeSlot, if_pos hn, if_pos he]
  · rw [takeSlot, if_neg (not_not.2 hany), hn]

theorem takeSlot_taken (hn : cf c 0 1 ≠ 255) (he : (u.mslot (cf c 0 1)).state ≠ .empty) : takeSlot u mb c i = u.complete c St.busy [] := by
  rw [takeSlot, if_pos hn, if_neg he]

theorem takeSlot_full (hany : cf c 0 1 = 255) (hn : emptySlot u = none) :
    takeSlot u mb c i = match loadVictim u with | none => u.complete c St.busy [] | some k => evictFirst u mb k c i := by
  rw [takeSlot, if_neg (not_not.2 hany), hn]

/-- Granules that must be free for a load: those of its image, and TM_CTL's reserve. -/
abbrev wantedGranules (u : State) (i : ModelInfo) : Nat := i.granules + rf u.regs.tmCtl 15 0 * 512

/-- Step 5 of R292 in an EMPTY slot: LOADING where there is space; else reclaim starts, and the load is refused. -/
theorem loadInto_asked (hc : u.cmdAt mb [0x70] = some c) : u.loadInto n mb i =
    if u.tier.t1Free < wantedGranules u i then ((u.reclaimAny (wantedGranules u i - u.tier.t1Free)).refuse).complete c St.noSpace []
    else
      (((u.onTier (fun t => { t with t1Free := t.t1Free - i.granules })).beginMove 1 n 0 0 i.length).modMslot n
        (fun _ => { state := .loading, info := i, loadMb := some mb })).setCmd { c with phase := 2, aux := n } := by
  rw [State.loadInto, hc]

end

section
variable {s : State} {mb : Nat} {c : MbCommand} {r : HeaderRead} (hc : s.cmdAt mb [0x70] = some c)
  (hw : settlesLong s = true ∧ s.sceolUp = true) (hph : c.phase = 1)
include hc hw hph

theorem exec_modelHeaderReadDone_failed (hr : r.fail = true) : exec (.modelHeaderReadDone mb r) s = .next (s.complete c St.faultTier2 []) := by
  change execModelHeaderReadDone mb r s = _
  rw [execModelHeaderReadDone, hc]
  exact congrArg Host.Outcome.next ((if_neg (by simp [hw, hph])).trans (if_pos hr))

/-- A header that has been read is judged, and then looks for its slot, in the state in which its address has been translated. -/
theorem exec_modelHeaderReadDone_read (hr : r.fail = false) {u : State} (hu : u = s.translateTier (cf c 8 8) r.bytes.length) :
    exec (.modelHeaderReadDone mb r) s = .next (
      if imgStatus u (cf c 8 8) r.bytes ≠ St.ok then u.complete c (imgStatus u (cf c 8 8) r.bytes) []
      else takeSlot u mb c (imgInfo (cf c 8 8) r.bytes)) := by
  subst hu
  change execModelHeaderReadDone mb r s = _
  rw [execModelHeaderReadDone, hc]
  exact congrArg Host.Outcome.next ((if_neg (by simp [hw, hph])).trans (if_neg (ne_true_of_eq_false hr)))

theorem exec_modelHeaderReadDone_passed (hr : r.fail = false) {u : State} (hu : u = s.translateTier (cf c 8 8) r.bytes.length)
    (hst : imgStatus u (cf c 8 8) r.bytes = St.ok) :
    exec (.modelHeaderReadDone mb r) s = .next (takeSlot u mb c (imgInfo (cf c 8 8) r.bytes)) := by
  rw [exec_modelHeaderReadDone_read hc hw hph hr hu, if_neg (not_not.2 hst)]

/-- A header that passes, with an EMPTY slot for it, goes on with the space its image needs. -/
theorem exec_modelHeaderReadDone_slot (hr : r.fail = false) {u : State} (hu : u = s.translateTier (cf c 8 8) r.bytes.length)
    (hst : imgStatus u (cf c 8 8) r.bytes = St.ok) {n : Nat} (hn : HasSlot u c n) :
    exec (.modelHeaderReadDone mb r) s = .next (u.loadInto n mb (imgInfo (cf c 8 8) r.bytes)) ∧ u.cmdAt mb [0x70] = some c := by
  refine ⟨by rw [exec_modelHeaderReadDone_passed hc hw hph hr hu hst, takeSlot_free hn], ?_⟩
  rw [hu, cmdAt_of_eq (translateTier_mb ..), hc]

end

/-! ## MODEL_LOAD_COMPLETE (R293) -/

/-- An image is in its place: its frames are written, its slot RESIDENT, and its conversion records gone (R293, R438). -/
abbrev imageInPlace (s : State) (n : Nat) (m : ModelSlot) (r : ModelRead) (q : ImgPlaced) : State :=
  (((((s.translateTier m.info.addr m.info.length).endMove 1 n).draw).onMem (placePieces q.pieces)).modMslot n (fun m =>
    { m with state := .resident, lastUse := s.tick.index, info := loadedInfo m.info r.image q, golden := q.pieces, loadMb := none })).count
      (fun c => { c with conv := c.conv.filter (fun x => x.slot ≠ n) })

theorem imageInPlace_mb (s : State) (n : Nat) (m : ModelSlot) (r : ModelRead) (q : ImgPlaced) : (imageInPlace s n m r q).mb = s.mb := by simp

/-- The end of a load writes its image in place and completes the MODEL_LOAD where that is still outstanding. -/
theorem finishLoad_translated (s : State) (n : Nat) (r : ModelRead) (q : ImgPlaced) :
    (s.translateTier (s.mslot n).info.addr (s.mslot n).info.length).finishLoad n r.image q =
      ((s.mslot n).loadMb.bind (fun mb => s.cmdAt mb [0x70])).elim (imageInPlace s n (s.mslot n) r q) (fun c =>
        (imageInPlace s n (s.mslot n) r q).complete c St.ok (leBytes 8 n ++ leBytes 32 (s.mslot n).info.fp.toNat)) := by
  simp only [← cmdAt_of_eq (imageInPlace_mb s n (s.mslot n) r q), imageInPlace]
  rw [State.finishLoad, mslot_of_eq (translateTier_models ..), translateTier_tick]
  generalize Option.bind (s.mslot n).loadMb _ = found
  cases found <;> rfl

section
variable {s : State} {n : Nat} {r : ModelRead} (hw : settlesLong s = true ∧ s.sceolUp = true) (hl : (s.mslot n).state = .loading)
include hw hl

theorem exec_modelLoadComplete_fails (hd : r.fail = true ∨ moveDone s 1 n = true) (hst : loadStatus s (s.mslot n).info r ≠ St.ok) :
    exec (.modelLoadComplete n r) s = .next (s.failLoad n (loadStatus s (s.mslot n).info r)) := by
  change execModelLoadComplete n r s = _
  rw [execModelLoadComplete, if_neg (by rcases hd with hd | hd <;> simp [hw, hl, hd]), if_pos hst]

theorem exec_modelLoadComplete_placed {q : ImgPlaced} (hd : moveDone s 1 n = true) (hst : loadStatus s (s.mslot n).info r = St.ok)
    (hq : placeImage s (s.mslot n).info r.image = some q) :
    exec (.modelLoadComplete n r) s = .next (
      ((s.mslot n).loadMb.bind (fun mb => s.cmdAt mb [0x70])).elim (imageInPlace s n (s.mslot n) r q) (fun c =>
        (imageInPlace s n (s.mslot n) r q).complete c St.ok (leBytes 8 n ++ leBytes 32 (s.mslot n).info.fp.toNat))) := by
  change execModelLoadComplete n r s = _
  rw [execModelLoadComplete, if_neg (by simp [hw, hl, hd]), if_neg (not_not.2 hst), hq]
  exact congrArg Host.Outcome.next (finishLoad_translated s n r q)

end

/-! ## MODEL_EVICT (R295) -/

/-- A MODEL_EVICT joins those that wait for its slot to become EMPTY. -/
abbrev evictWaits (s : State) (mb : Nat) (c : MbCommand) : State :=
  (s.modMslot (cf c 0 1) (fun m => { m with evictMbs := m.evictMbs ++ [mb] })).setCmd { c with phase := 1, aux := cf c 0 1 }

/-- The live requests that are bound to a slot, in the table's order. -/
abbrev liveOn (s : State) (n : Nat) : List Nat := (s.req.table.filter (fun p => p.2.modelSlot = n && reqLive p.2.state)).map (·.1)

/-- MODEL_EVICT in its turn, of a slot number in range: by the slot's state, its pin, and the requests bound to it where none is forced. -/
theorem exec_modelEvict_due {s : State} {mb : Nat} {c : MbCommand} (h : Due s mb 0x71 c) (hn : cf c 0 1 < 16) :
    exec (.modelEvict mb) s = .next (State.settlePump (
      if (s.mslot (cf c 0 1)).state = .empty then s.begin.complete c St.badState []
      else if (s.mslot (cf c 0 1)).state = .evicting then evictWaits s.begin mb c
      else if (s.mslot (cf c 0 1)).pinned then s.begin.complete c St.badState []
      else if (s.mslot (cf c 0 1)).state = .loading then (evictWaits s.begin mb c).failLoad (cf c 0 1) St.cancelled
      else if bit (cf c 1 1) 0 = true ∨ boundTo s (cf c 0 1) = false then
        ((liveOn s.begin (cf c 0 1)).foldl (fun t k => t.closeReq k St.modelEvicted 0) (evictWaits s.begin mb c)).startEvict (cf c 0 1)
      else s.begin.complete c St.busy [])) := by
  obtain ⟨hc, hu, ht⟩ := h
  have hbound : boundTo s.begin (cf c 0 1) = boundTo s (cf c 0 1) := rfl
  change execModelEvict mb s = _
  rw [execModelEvict, runL_fresh _ hc hu ht]
  dsimp only
  rw [need_of (decide_eq_true hn), ok_bind, mslot_begin, hbound]
  split_ifs with _ _ _ _ hfree
  · rfl
  · rfl
  · rfl
  · rfl
  · rw [need_of (by simpa using hfree)]
    rfl
  · rw [need_not (by simpa using hfree)]
    rfl

/-! ## MODEL_SLOT_EMPTY (R289, R295) -/

/-- A slot is EMPTY: nothing of its quarantine, its fault count and its pin is left, and the MODEL_EVICTs that waited for it are complete. -/
def slotEmptied (s : State) (n : Nat) : State :=
  (s.mslot n).evictMbs.foldl (fun t mb => match t.cmdAt mb [0x71] with | none => t | some c => t.complete c St.ok [])
    ((((s.modMslot n (fun _ => {})).onPlan (fun p =>
      { p with quar := setDel n p.quar, faultRun := tabDel n p.faultRun, repairing := setDel n p.repairing })).onCfg
        (fun g => { g with pins := setDel n g.pins })).onCfgNext (fun g => { g with pins := setDel n g.pins }))

/-- A slot being evicted with nothing left becomes EMPTY, and a load that waited for it goes on in it. -/
theorem exec_modelSlotEmpty_bare {s : State} {n : Nat} (hw : settlesLong s = true ∧ s.sceolUp = true)
    (hm : (s.mslot n).state = .evicting ∨ (s.mslot n).state = .broken) (hg : (s.mslot n).info.granules = 0)
    (hf : s.tier.fills.any (fun f => f.slotOf = some n) = false) :
    exec (.modelSlotEmpty n) s = .next (match (s.mslot n).loadNext with
      | none => slotEmptied s n
      | some x => (slotEmptied s n).loadInto n x.1 x.2) := by
  change execModelSlotEmpty n s = _
  rw [execModelSlotEmpty, if_neg (by rcases hm with hm | hm <;> simp only [hw, hm, hg, hf] <;> decide)]
  rfl

/-! ## MODEL_PIN, MODEL_UNPIN and MODEL_RELEASE (R110, R289) -/

/-- A class-I command of a model slot whose number is in range: done where its condition holds, BAD_STATE where it does not. -/
theorem runI_onSlot {s : State} {mb op : Nat} {c : MbCommand} (p : MbCommand → State → Bool) (f : MbCommand → State → State)
    (h : Asked s mb op c) (hn : cf c 0 1 < 16) :
    runI s mb op (fun c s => do
      need (cf c 0 1 < 16) St.badArgument
      need (p c s) St.badState
      .ok (f c s, [])) = if p c s then (f c s).complete c St.ok [] else s.complete c St.badState [] := by
  obtain ⟨hc, hu, ht⟩ := h
  rw [runI_asked _ hc hu ht, need_of (decide_eq_true hn), ok_bind]
  cases p c s <;> rfl

/-- A pin is set or cleared for the next configuration, of a slot that is not EMPTY. -/
theorem runI_pins {s : State} {mb op : Nat} {c : MbCommand} (f : Nat → List Nat → List Nat) (h : Asked s mb op c) (hn : cf c 0 1 < 16) :
    runI s mb op (fun c s => do
      need (cf c 0 1 < 16) St.badArgument
      need ((s.mslot (cf c 0 1)).state ≠ .empty) St.badState
      .ok (s.onCfgNext (fun g => { g with pins := f (cf c 0 1) g.pins }), [])) =
      if (s.mslot (cf c 0 1)).state ≠ .empty then (s.onCfgNext (fun g => { g with pins := f (cf c 0 1) g.pins })).complete c St.ok []
      else s.complete c St.badState [] := by
  rw [runI_onSlot (fun c s => (s.mslot (cf c 0 1)).state ≠ .empty)
    (fun c s => s.onCfgNext (fun g => { g with pins := f (cf c 0 1) g.pins })) h hn]
  simp only [decide_eq_true_iff]

section
variable {s : State} {mb : Nat} {c : MbCommand} (hn : cf c 0 1 < 16)
include hn

theorem exec_modelPin_asked (h : Asked s mb 0x72 c) : exec (.modelPin mb) s = .next (
    if (s.mslot (cf c 0 1)).state ≠ .empty then (s.onCfgNext (fun g => { g with pins := setAdd (cf c 0 1) g.pins })).complete c St.ok []
    else s.complete c St.badState []) :=
  congrArg Host.Outcome.next (runI_pins setAdd h hn)

theorem exec_modelUnpin_asked (h : Asked s mb 0x73 c) : exec (.modelUnpin mb) s = .next (
    if (s.mslot (cf c 0 1)).state ≠ .empty then (s.onCfgNext (fun g => { g with pins := setDel (cf c 0 1) g.pins })).complete c St.ok []
    else s.complete c St.badState []) :=
  congrArg Host.Outcome.next (runI_pins setDel h hn)

/-- A quarantine ends with its fault count; a release in a commit window is noted for plan k+2 (R38). -/
theorem exec_modelRelease_asked (h : Asked s mb 0x74 c) : exec (.modelRelease mb) s = .next (
    if s.plan.quar.contains (cf c 0 1) then
      (s.onPlan (fun p => { p with
        quar := setDel (cf c 0 1) p.quar, faultRun := tabDel (cf c 0 1) p.faultRun
        released := if s.tick.inCommit then setAdd (cf c 0 1) p.released else p.released })).complete c St.ok []
    else s.complete c St.badState []) :=
  congrArg Host.Outcome.next (runI_onSlot (fun c s => s.plan.quar.contains (cf c 0 1)) (fun c s => s.onPlan (fun p => { p with
    quar := setDel (cf c 0 1) p.quar, faultRun := tabDel (cf c 0 1) p.faultRun
    released := if s.tick.inCommit then setAdd (cf c 0 1) p.released else p.released })) h hn)

end

/-! ## The obligation -/

/-- Settles O30: each clause is one outcome of its command's equation. -/
theorem modelSlots : Obligations.ModelSlots := by
  unfold Obligations.ModelSlots
  refine ⟨?starts, ?outOfPlace, ?inUse, ?outOfRange, ?readFails, ?headerFails, ?loading, ?noSpace, ?taken, ?evictsFirst, ?noVictim,
    ?resident, ?completes, ?loadFails, ?evicts, ?bound, ?joins, ?cancels, ?refused, ?emptied, ?goesOn, ?pins, ?unpins, ?releases,
    ?noPin, ?noUnpin, ?noRelease⟩
  case starts =>
    intro s mb c h hn hp he
    rw [exec_modelLoad_due h, if_neg (by omega), if_neg (by simp [hp]), if_neg (fun hx => he.elim hx.1 hx.2)]
  case outOfPlace =>
    intro s mb c h hn hp
    rw [exec_modelLoad_due h, if_neg (by omega), if_pos hp]
  case inUse =>
    intro s mb c h hn hp he
    rw [exec_modelLoad_due h, if_neg (by omega), if_neg (by simp [hp]), if_pos ⟨by omega, he⟩]
  case outOfRange =>
    intro s mb c h hn
    rw [exec_modelLoad_due h, if_pos hn]
  case readFails => exact fun s mb c r hc hw hph hr => exec_modelHeaderReadDone_failed hc hw hph hr
  case headerFails =>
    intro s u mb c r hc hw hph hr hu hst
    rw [exec_modelHeaderReadDone_read hc hw hph hr hu, if_pos hst]
  case loading =>
    rintro s u mb n c r i hc hw hph hr hu hst hn rfl hroom
    obtain ⟨hexec, hcu⟩ := exec_modelHeaderReadDone_slot hc hw hph hr hu hst hn
    rw [hexec, loadInto_asked hcu, if_neg hroom.not_gt]
  case noSpace =>
    rintro s u mb n c r i hc hw hph hr hu hst hn rfl hroom
    obtain ⟨hexec, hcu⟩ := exec_modelHeaderReadDone_slot hc hw hph hr hu hst hn
    rw [hexec, loadInto_asked hcu, if_pos hroom]
  case taken =>
    intro s u mb c r hc hw hph hr hu hst hn he
    rw [exec_modelHeaderReadDone_passed hc hw hph hr hu hst, takeSlot_taken hn he]
  case evictsFirst =>
    intro s u mb k c r hc hw hph hr hu hst hany hnone hk
    rw [exec_modelHeaderReadDone_passed hc hw hph hr hu hst, takeSlot_full hany hnone, hk]
  case noVictim =>
    intro s u mb c r hc hw hph hr hu hst hany hnone hk
    rw [exec_modelHeaderReadDone_passed hc hw hph hr hu hst, takeSlot_full hany hnone, hk]
  case resident =>
    rintro s n r m q rfl hw hl hd hst hq hmb
    rw [exec_modelLoadComplete_placed hw hl hd hst hq, hmb, Option.bind_none, Option.elim_none]
  case completes =>
    rintro s n mb c r m q rfl hw hl hd hst hq hmb hc
    rw [exec_modelLoadComplete_placed hw hl hd hst hq, hmb, Option.bind_some, hc, Option.elim_some]
  case loadFails =>
    rintro s n r m rfl hw hl hd hst
    exact exec_modelLoadComplete_fails hw hl hd hst
  case evicts =>
    rintro s u mb c m h hn rfl hm hpin hfree rfl
    simp [exec_modelEvict_due h hn, hm, hpin, hfree, liveOn, evictWaits]
  case bound =>
    rintro s mb c m h hn rfl hm hpin hforce hbound
    simp [exec_modelEvict_due h hn, hm, hpin, hforce, hbound]
  case joins =>
    rintro s mb c m h hn rfl hm
    simp [exec_modelEvict_due h hn, hm]
  case cancels =>
    rintro s mb c m h hn rfl ⟨hm, hpin⟩
    simp [exec_modelEvict_due h hn, hm, hpin]
  case refused =>
    rintro s mb c m h hn rfl (hm | ⟨hm, hpin⟩)
    · simp [exec_modelEvict_due h hn, hm]
    · simp [exec_modelEvict_due h hn, hm, hpin]
  case emptied =>
    rintro s n m rfl hw hm hg hf hnext
    rw [exec_modelSlotEmpty_bare hw hm hg hf, hnext]
    rfl
  case goesOn =>
    rintro s n x m i rfl hw hm hg hf hnext
    rw [exec_modelSlotEmpty_bare hw hm hg hf, hnext]
    rfl
  case pins =>
    intro s mb c h hn he
    rw [exec_modelPin_asked hn h, if_pos he]
  case unpins =>
    intro s mb c h hn he
    rw [exec_modelUnpin_asked hn h, if_pos he]
  case releases =>
    intro s mb c h hn hq
    rw [exec_modelRelease_asked hn h, if_pos hq]
  case noPin =>
    intro s mb c h hn he
    rw [exec_modelPin_asked hn h, if_neg (not_not.2 he)]
  case noUnpin =>
    intro s mb c h hn he
    rw [exec_modelUnpin_asked hn h, if_neg (not_not.2 he)]
  case noRelease =>
    intro s mb c h hn hq
    rw [exec_modelRelease_asked hn h, if_neg (ne_true_of_eq_false hq)]

end Sys2Proof.Laws
end

section
/-! PROOFS. What holds of every command and of every step (R1, R26, R364, Table 15-9; logs 1, 5, 6 and 7), and what the device memory reads
after a write (log 5). -/

namespace Sys2Proof.Laws

open Sys2Proof Sys2Proof.Machine
set_option deprecated.oldSectionVars true

/-! ## Every command -/

/-- Every command keeps the variant, the queue, the count of free values drawn and the invariant: each by the law of its own meaning. -/
theorem exec_keeps : ∀ (c : Instr) (s : State), KeepsO s (exec c s)
  | .tickEdge, s => execTickEdge_k s (.refl s)
  | .commitOpen, s => execCommitOpen_k s (.refl s)
  | .commitGathersDone .., s => execCommitGathersDone_k _ s (.refl s)
  | .budgetWindowStart .., s => execBudgetWindowStart_k _ s (.refl s)
  | .deadlineExpiry .., s => execDeadlineExpiry_k _ s (.refl s)
  | .holdExpiry .., s => execHoldExpiry_k _ s (.refl s)
  | .ttlExpiry .., s => execTtlExpiry_k _ s (.refl s)
  | .importTimeout .., s => execImportTimeout_k _ _ s (.refl s)
  | .resumeComplete .., s => execResumeComplete_k _ s (.refl s)
  | .submissionRingDoorbell .., s => execSubmissionRingDoorbell_k _ _ _ _ _ _ s (.refl s)
  | .streamCreditDoorbell .., s => execStreamCreditDoorbell_k _ _ _ _ _ s (.refl s)
  | .mbDoorbell .., s => execMbDoorbell_k _ _ _ _ _ s (.refl s)
  | .submit .., s => execSubmit_k _ _ s (.refl s)
  | .identify .., s => execIdentify_k _ s (.refl s)
  | .deviceState .., s => execDeviceState_k _ s (.refl s)
  | .warmReset .., s => execWarmReset_k _ s (.refl s)
  | .eventRead .., s => execEventRead_k _ s (.refl s)
  | .powerConfig .., s => execPowerConfig_k _ s (.refl s)
  | .abort .., s => execAbort_k _ s (.refl s)
  | .tickConfig .., s => execTickConfig_k _ s (.refl s)
  | .groupConfigJoin .., s => execGroupConfigJoin_k _ _ s (.refl s)
  | .groupConfigLeave .., s => execGroupConfigLeave_k _ s (.refl s)
  | .tenantConfig .., s => execTenantConfig_k _ s (.refl s)
  | .domainConfig .., s => execDomainConfig_k _ s (.refl s)
  | .ringRegister .., s => execRingRegister_k _ s (.refl s)
  | .ringRelease .., s => execRingRelease_k _ s (.refl s)
  | .reqCancel .., s => execReqCancel_k _ s (.refl s)
  | .reqPause .., s => execReqPause_k _ s (.refl s)
  | .reqResume .., s => execReqResume_k _ s (.refl s)
  | .reqDraft .., s => execReqDraft_k _ _ s (.refl s)
  | .reqQuery .., s => execReqQuery_k _ s (.refl s)
  | .reqMigrate .., s => execReqMigrate_k _ s (.refl s)
  | .recover .., s => execRecover_k _ s (.refl s)
  | .recoverEntry .., s => execRecoverEntry_k _ _ s (.refl s)
  | .planConfig .., s => execPlanConfig_k _ s (.refl s)
  | .bankConfig .., s => execBankConfig_k _ s (.refl s)
  | .matrixConfig .., s => execMatrixConfig_k _ s (.refl s)
  | .quantConfig .., s => execQuantConfig_k _ s (.refl s)
  | .storeConfig .., s => execStoreConfig_k _ s (.refl s)
  | .tierConfig .., s => execTierConfig_k _ s (.refl s)
  | .gelconConfig .., s => execGelconConfig_k _ s (.refl s)
  | .gelconQuarantineRelease .., s => execGelconQuarantineRelease_k _ s (.refl s)
  | .gelconSpareAssign .., s => execGelconSpareAssign_k _ s (.refl s)
  | .hostConfig .., s => execHostConfig_k _ s (.refl s)
  | .modelConfig .., s => execModelConfig_k _ s (.refl s)
  | .sceolConfig .., s => execSceolConfig_k _ s (.refl s)
  | .tierRegister .., s => execTierRegister_k _ s (.refl s)
  | .tierRelease .., s => execTierRelease_k _ s (.refl s)
  | .pin .., s => execPin_k _ s (.refl s)
  | .unpin .., s => execUnpin_k _ s (.refl s)
  | .promote .., s => execPromote_k _ s (.refl s)
  | .demote .., s => execDemote_k _ s (.refl s)
  | .drop .., s => execDrop_k _ s (.refl s)
  | .parkNow .., s => execParkNow_k _ s (.refl s)
  | .prefixProbe .., s => execPrefixProbe_k _ _ s (.refl s)
  | .modelLoad .., s => execModelLoad_k _ s (.refl s)
  | .modelHeaderReadDone .., s => execModelHeaderReadDone_k _ _ s (.refl s)
  | .modelLoadComplete .., s => execModelLoadComplete_k _ _ s (.refl s)
  | .modelEvict .., s => execModelEvict_k _ s (.refl s)
  | .modelSlotEmpty .., s => execModelSlotEmpty_k _ s (.refl s)
  | .modelPin .., s => execModelPin_k _ s (.refl s)
  | .modelUnpin .., s => execModelUnpin_k _ s (.refl s)
  | .modelRelease .., s => execModelRelease_k _ s (.refl s)
  | .alloyLoad .., s => execAlloyLoad_k _ _ s (.refl s)
  | .alloyGenResident .., s => execAlloyGenResident_k _ _ _ s (.refl s)
  | .alloyRetire .., s => execAlloyRetire_k _ s (.refl s)
  | .statsRead .., s => execStatsRead_k _ _ s (.refl s)
  | .calRead .., s => execCalRead_k _ _ s (.refl s)
  | .calWrite .., s => execCalWrite_k _ _ s (.refl s)
  | .fwStage .., s => execFwStage_k _ _ s (.refl s)
  | .fwActivateNextReset .., s => execFwActivateNextReset_k _ s (.refl s)
  | .fwActivateLive .., s => execFwActivateLive_k _ s (.refl s)
  | .standbyCaughtUp .., s => execStandbyCaughtUp_k _ _ s (.refl s)
  | .activationHandover, s => execActivationHandover_k s (.refl s)
  | .probationEnd, s => execProbationEnd_k s (.refl s)
  | .formerActiveStandby .., s => execFormerActiveStandby_k _ s (.refl s)
  | .samplerRowMerge .., s => execSamplerRowMerge_k _ _ s (.refl s)
  | .treeBuild .., s => execTreeBuild_k _ s (.refl s)
  | .kernelStart .., s => execKernelStart_k _ _ _ _ s (.refl s)
  | .kernelEnd .., s => execKernelEnd_k _ _ _ _ s (.refl s)
  | .preempt .., s => execPreempt_k _ _ s (.refl s)
  | .jobResume .., s => execJobResume_k _ s (.refl s)
  | .buNop .., s => execBuNop_k _ _ _ s (.refl s)
  | .qload .., s => execQload_k _ _ _ _ s (.refl s)
  | .gload .., s => execGload_k _ _ _ _ s (.refl s)
  | .tload .., s => execTload_k _ _ _ _ s (.refl s)
  | .aclr .., s => execAclr_k _ _ _ s (.refl s)
  | .pass .., s => execPass_k _ _ _ _ s (.refl s)
  | .drain .., s => execDrain_k _ _ _ _ s (.refl s)
  | .copy .., s => execCopy_k _ _ _ _ _ s (.refl s)
  | .gather .., s => execGather_k _ _ _ _ _ s (.refl s)
  | .fill .., s => execFill_k _ _ _ s (.refl s)
  | .scrub .., s => execScrub_k _ _ _ _ s (.refl s)
  | .tlogrd .., s => execTlogrd_k _ _ _ _ s (.refl s)
  | .kvflush .., s => execKvflush_k _ _ _ _ s (.refl s)
  | .appendBufferWriteback .., s => execAppendBufferWriteback_k _ _ s (.refl s)
  | .layerCombine .., s => execLayerCombine_k _ _ _ _ s (.refl s)
  | .bankRefresh .., s => execBankRefresh_k _ _ s (.refl s)
  | .stackHotChange .., s => execStackHotChange_k _ _ s (.refl s)
  | .patrolScrub .., s => execPatrolScrub_k _ _ _ s (.refl s)
  | .mxNop .., s => execMxNop_k _ _ _ s (.refl s)
  | .iload .., s => execIload_k _ _ _ s (.refl s)
  | .gopen .., s => execGopen_k _ _ _ s (.refl s)
  | .mpass .., s => execMpass_k _ _ _ _ s (.refl s)
  | .gclose .., s => execGclose_k _ _ _ s (.refl s)
  | .gfree .., s => execGfree_k _ _ _ s (.refl s)
  | .apass .., s => execApass_k _ _ _ _ _ _ _ s (.refl s)
  | .spload .., s => execSpload_k _ _ _ s (.refl s)
  | .spinv .., s => execSpinv_k _ _ _ s (.refl s)
  | .gsave .., s => execGsave_k _ _ _ s (.refl s)
  | .grstr .., s => execGrstr_k _ _ _ s (.refl s)
  | .ingotFetchIssue .., s => execIngotFetchIssue_k _ _ _ s (.refl s)
  | .ingotFetchDone .., s => execIngotFetchDone_k _ _ _ s (.refl s)
  | .vectorChain .., s => execVectorChain_k _ s (.refl s)
  | .functionTableLoad .., s => execFunctionTableLoad_k _ _ _ _ s (.refl s)
  | .rowReduction .., s => execRowReduction_k _ _ _ _ _ _ s (.refl s)
  | .storeReserve .., s => execStoreReserve_k _ _ _ s (.refl s)
  | .storeReserveRetry, s => execStoreReserveRetry_k s (.refl s)
  | .storeRelease .., s => execStoreRelease_k _ _ s (.refl s)
  | .storePoisonedRead .., s => execStorePoisonedRead_k _ _ _ s (.refl s)
  | .storePatrol .., s => execStorePatrol_k _ s (.refl s)
  | .semSignal .., s => execSemSignal_k _ _ _ s (.refl s)
  | .semWait .., s => execSemWait_k _ _ _ _ s (.refl s)
  | .semWaitSatisfied .., s => execSemWaitSatisfied_k _ s (.refl s)
  | .semRead .., s => execSemRead_k _ s (.refl s)
  | .hubDieFailed .., s => execHubDieFailed_k _ _ s (.refl s)
  | .storeRestripe, s => execStoreRestripe_k s (.refl s)
  | .sync .., s => execSync_k _ _ s (.refl s)
  | .alignmentRestored .., s => execAlignmentRestored_k _ s (.refl s)
  | .tickMasterRecompute .., s => execTickMasterRecompute_k _ s (.refl s)
  | .vote .., s => execVote_k _ _ _ s (.refl s)
  | .voteCutoff, s => execVoteCutoff_k s (.refl s)
  | .commitSet .., s => execCommitSet_k _ _ _ s (.refl s)
  | .csetReq .., s => execCsetReq_k _ _ _ s (.refl s)
  | .shardPlan .., s => execShardPlan_k _ _ _ s (.refl s)
  | .actData .., s => execActData_k _ _ s (.refl s)
  | .shipOpen .., s => execShipOpen_k _ _ s (.refl s)
  | .shipGrant .., s => execShipGrant_k _ _ s (.refl s)
  | .shipData .., s => execShipData_k _ _ _ s (.refl s)
  | .shipWindowAdvance .., s => execShipWindowAdvance_k _ _ s (.refl s)
  | .shipDone .., s => execShipDone_k _ _ _ s (.refl s)
  | .shipEnd .., s => execShipEnd_k _ _ _ s (.refl s)
  | .shipUnclaimedTimeout .., s => execShipUnclaimedTimeout_k _ _ s (.refl s)
  | .shipmentApply .., s => execShipmentApply_k _ s (.refl s)
  | .mgmt .., s => execMgmt_k _ _ _ s (.refl s)
  | .err .., s => execErr_k _ _ s (.refl s)
  | .packetForward .., s => execPacketForward_k _ _ _ _ s (.refl s)
  | .flitData .., s => execFlitData_k _ _ _ s (.refl s)
  | .flitIdle .., s => execFlitIdle_k _ _ _ s (.refl s)
  | .flitCredit .., s => execFlitCredit_k _ _ _ s (.refl s)
  | .flitNak .., s => execFlitNak_k _ _ _ s (.refl s)
  | .flitVcReset .., s => execFlitVcReset_k _ _ _ s (.refl s)
  | .flitIdent .., s => execFlitIdent_k _ _ _ _ s (.refl s)
  | .flitLane .., s => execFlitLane_k _ _ _ s (.refl s)
  | .nakRepeat .., s => execNakRepeat_k _ _ s (.refl s)
  | .resendTimeout .., s => execResendTimeout_k _ _ s (.refl s)
  | .ackTimer .., s => execAckTimer_k _ _ s (.refl s)
  | .creditReturnTimer .., s => execCreditReturnTimer_k _ _ s (.refl s)
  | .partnerViolation .., s => execPartnerViolation_k _ _ _ _ _ s (.refl s)
  | .portTrained .., s => execPortTrained_k _ _ _ s (.refl s)
  | .laneRetire .., s => execLaneRetire_k _ _ _ _ s (.refl s)
  | .laneRetrain .., s => execLaneRetrain_k _ _ _ _ _ s (.refl s)
  | .gelconPortDown .., s => execGelconPortDown_k _ _ s (.refl s)
  | .hostPortDown .., s => execHostPortDown_k _ _ _ s (.refl s)
  | .hostPortUp .., s => execHostPortUp_k _ _ _ _ s (.refl s)
  | .hostDmaFail .., s => execHostDmaFail_k _ _ _ _ s (.refl s)
  | .atsInvalidation .., s => execAtsInvalidation_k _ _ _ s (.refl s)
  | .flushReadComplete .., s => execFlushReadComplete_k _ _ s (.refl s)
  | .msixTableWrite .., s => execMsixTableWrite_k _ _ s (.refl s)
  | .debugWindowAccess .., s => execDebugWindowAccess_k _ _ _ s (.refl s)
  | .registerWrite .., s => execRegisterWrite_k _ _ _ _ s (.refl s)
  | .ppsEdge .., s => execPpsEdge_k _ s (.refl s)
  | .referenceLost .., s => execReferenceLost_k _ s (.refl s)
  | .referenceRestored .., s => execReferenceRestored_k _ s (.refl s)
  | .governorStepDown .., s => execGovernorStepDown_k _ _ s (.refl s)
  | .overcurrentStep .., s => execOvercurrentStep_k _ s (.refl s)
  | .overcurrentHalt .., s => execOvercurrentHalt_k _ s (.refl s)
  | .thermalAlert .., s => execThermalAlert_k _ _ _ s (.refl s)
  | .thermalThrottleStep .., s => execThermalThrottleStep_k _ _ _ s (.refl s)
  | .thermalTrip .., s => execThermalTrip_k _ _ _ s (.refl s)
  | .dramOvertempPowerOff .., s => execDramOvertempPowerOff_k _ _ _ s (.refl s)
  | .powerOn .., s => execPowerOn_k _ s (.refl s)
  | .firmwareVerified .., s => execFirmwareVerified_k _ _ _ s (.refl s)
  | .pwrGood .., s => execPwrGood_k _ s (.refl s)
  | .pwrGoodTimeout .., s => execPwrGoodTimeout_k _ s (.refl s)
  | .bootStageDone .., s => execBootStageDone_k _ _ s (.refl s)
  | .resetN .., s => execResetN_k _ _ _ s (.refl s)
  | .warmResetN .., s => execWarmResetN_k _ s (.refl s)
  | .warmResetComplete .., s => execWarmResetComplete_k _ _ s (.refl s)
  | .main48Loss .., s => execMain48Loss_k _ s (.refl s)
  | .aux12Loss .., s => execAux12Loss_k _ s (.refl s)
  | .controlHeartbeatTimeout .., s => execControlHeartbeatTimeout_k _ s (.refl s)
  | .servingHeartbeatTimeout .., s => execServingHeartbeatTimeout_k _ s (.refl s)
  | .controlTakeover, s => execControlTakeover_k s (.refl s)
  | .orphanEnter, s => execOrphanEnter_k s (.refl s)
  | .leaseRenew .., s => execLeaseRenew_k _ s (.refl s)
  | .leaseExpiry .., s => execLeaseExpiry_k _ s (.refl s)
  | .leaseReclaim .., s => execLeaseReclaim_k _ s (.refl s)
  | .i3cWrite .., s => execI3cWrite_k _ s (.refl s)
  | .i3cRead .., s => execI3cRead_k _ s (.refl s)
  | .uncorrectableData .., s => execUncorrectableData_k _ _ _ _ _ _ s (.refl s)
  | .ingotRepairDone .., s => execIngotRepairDone_k _ _ _ _ _ s (.refl s)
  | .brokenSlotTimeout .., s => execBrokenSlotTimeout_k _ s (.refl s)
  | .rebuildCommit .., s => execRebuildCommit_k _ s (.refl s)
  | .spareRowSwap .., s => execSpareRowSwap_k _ _ _ s (.refl s)
  | .spareColumnSwap .., s => execSpareColumnSwap_k _ _ _ s (.refl s)
  | .spareBankCopyDone .., s => execSpareBankCopyDone_k _ _ _ s (.refl s)
  | .tsvSpareSwitch .., s => execTsvSpareSwitch_k _ _ s (.refl s)
  | .bankRetire .., s => execBankRetire_k _ _ _ s (.refl s)
  | .clusterPairFailed .., s => execClusterPairFailed_k _ _ s (.refl s)
  | .clmapSwitch, s => execClmapSwitch_k s (.refl s)
  | .demotionComplete .., s => execDemotionComplete_k _ _ s (.refl s)
  | .demotionFail .., s => execDemotionFail_k _ s (.refl s)
  | .promotionComplete .., s => execPromotionComplete_k _ _ s (.refl s)
  | .tier2ReadFail .., s => execTier2ReadFail_k _ s (.refl s)
  | .publishRewriteDone .., s => execPublishRewriteDone_k _ s (.refl s)
  | .granuleFillDone .., s => execGranuleFillDone_k _ s (.refl s)
  | .dieRebootedHealthy .., s => execDieRebootedHealthy_k _ _ s (.refl s)
  | .thermalThresholdLeft .., s => execThermalThresholdLeft_k _ _ _ s (.refl s)
  | .snapshotReadable .., s => execSnapshotReadable_k _ s (.refl s)
  | .fwStageVerified .., s => execFwStageVerified_k _ _ s (.refl s)
  | .calRecordSwitched, s => execCalRecordSwitched_k s (.refl s)
  | .measurementUpdate .., s => execMeasurementUpdate_k _ _ _ _ _ _ _ s (.refl s)

/-- Settles O4: every command's meaning is a next state, whatever it changes there. -/
theorem everyCommandAnswersNext : Obligations.EveryCommandAnswersNext := by
  intro c s
  cases c <;> exact ⟨_, rfl⟩

/-- Settles O5, from what every command keeps. -/
theorem queueAndVariantKept : Obligations.QueueAndVariantKept := by
  intro c s t ht
  have hk := exec_keeps c s t ht
  exact ⟨hk.pending, hk.variant, hk.freeCtr⟩

/-! ## Every step -/

/-- With a command at the front of the queue, a step runs it on the queue's rest. -/
theorem step_cons {c : Instr} {rest : List Instr} {s : State} (h : s.pending = c :: rest) : step s = exec c { s with pending := rest } := by
  unfold step
  rw [h]

/-- With an empty queue, a step idles. -/
theorem step_nil {s : State} (h : s.pending = []) : step s = .next (idle s) := by
  unfold step
  rw [h]

/-- The invariant speaks neither of the queue nor of the tick. -/
theorem inv_withPending {s : State} (q : List Instr) (h : Inv s) : Inv { s with pending := q } := h

/-- Settles O1, from the equations of a step. -/
theorem stepRunsFrontCommand : Obligations.StepRunsFrontCommand :=
  ⟨fun _ _ _ => step_cons, fun _ => step_nil⟩

/-- Settles O2: both memories and the event queue are empty at reset, and the misuse log has its 16 zero entries. -/
theorem invariantAtReset : Obligations.InvariantAtReset :=
  ⟨⟨rfl, rfl⟩, Nat.zero_le _, rfl⟩

/-- Settles O3, by cases on the queue: an idle nanosecond touches nothing that the invariant speaks of, and a command keeps it. -/
theorem invariantKeptByEveryStep : Obligations.InvariantKeptByEveryStep := by
  intro s t hi ht
  cases hq : s.pending with
  | nil =>
    rw [step_nil hq] at ht
    cases ht
    exact hi
  | cons c rest =>
    rw [step_cons hq] at ht
    exact (exec_keeps c _ t ht).inv (inv_withPending rest hi)

/-- Settles O6: the front command answers a next state, and keeps the rest of the queue. -/
theorem stepConsumesOneCommand : Obligations.StepConsumesOneCommand := by
  intro s c rest hq
  obtain ⟨t, ht⟩ := everyCommandAnswersNext c { s with pending := rest }
  have hk := exec_keeps c _ t ht
  exact ⟨t, (step_cons hq).trans ht, hk.pending, hk.variant⟩

/-! ## The device memory -/

/-- Bytes written at an address read back whole. -/
theorem readN_writeN (bs : List Byte) (a : Nat) {m : Memory} (h : m.wf = true) : (m.writeN a bs).readN a bs.length = bs := by
  induction bs generalizing a m with
  | nil => rfl
  | cons b r ih =>
    have hb : (m.writeN a (b :: r)).read a = b := by
      rw [Memory.writeN, read_writeN_out r (a + 1) a (wf_write a b h) (.inl (Nat.lt_succ_self a)), read_write a a b h, if_pos rfl]
    have hr : (m.writeN a (b :: r)).readN (a + 1) r.length = r := ih (a + 1) (wf_write a b h)
    rw [List.length_cons, Memory.readN, hb, hr]

/-- Settles O9, from the laws of the memory. -/
theorem readAfterWrite : Obligations.ReadAfterWrite := by
  refine ⟨fun m a x b h => ⟨wf_write a b h, ?_⟩, fun m a x bs h hx => ⟨wf_writeN bs a h, read_writeN_out bs a x h hx⟩,
    fun m a bs h => readN_writeN bs a h, fun m a n x h => ⟨wf_clear a n h, read_clear m a n x⟩⟩
  rw [read_write a x b h]
  simp only [eq_comm]

end Sys2Proof.Laws
end

section
/-! PROOFS. Completions, events and misuse (R346, R347, R351, R355, R364): what each leaves in the mailbox, in the misuse log and at the
interrupts, and that nothing else changes. -/

namespace Sys2Proof.Laws

open Sys2Proof Sys2Proof.Machine
set_option deprecated.oldSectionVars true

/-! ## Lengths of what is written -/

@[simp] theorem leBytes_len (n v : Nat) : (leBytes n v).length = n := by
  induction n generalizing v with
  | zero => rfl
  | succ n ih => simp [leBytes, ih]

@[simp] theorem slice_len (b : List Byte) (off n : Nat) : (slice b off n).length = n := by
  simp [slice]

/-- The first n bytes of a shorter list are the list and zeros. -/
theorem slice_zero_of_le {b : List Byte} {n : Nat} (h : b.length ≤ n) : slice b 0 n = b ++ List.replicate (n - b.length) 0 := by
  simp [slice, List.take_of_length_le h]

theorem completionBytes_length (c : MbCommand) (status now : Nat) (data : List Byte) : (completionBytes c status now data).length = 252 := by
  simp [completionBytes]

theorem eventBytes_length (e : EventRec) : (eventBytes e).length = 16 := by
  simp [eventBytes]

theorem mem_setAdd {n x : Nat} {l : List Nat} : n ∈ setAdd x l ↔ n = x ∨ n ∈ l := by
  unfold setAdd
  by_cases hx : x ∈ l
  · have hn : n = x → n ∈ l := by rintro rfl; exact hx
    simp only [List.contains_iff_mem.2 hx, if_true]
    tauto
  · simp only [List.contains_eq_mem, hx, decide_false, Bool.false_eq_true, if_false, List.mem_append, List.mem_singleton]
    tauto

/-! ## Vectors 0 and 1 (R346, R347) -/

section
variable {s : State} {v p : Nat}

theorem portUp_of_lowPort (h : s.lowPort = some p) : s.portUp p = true := by
  unfold State.lowPort at h
  simpa using List.find?_some h

/-- Between commit windows a vector of the lowest port that is up is sent through it at once. -/
theorem raiseLow_sent (h : s.lowPort = some p) (hc : s.tick.inCommit = false) : s.raiseLow v = s.sendVector v p := by
  simp [State.raiseLow, State.raiseVector, State.noPort, State.livePort, h, hc, portUp_of_lowPort h]

/-- Within a window it is due once, after the window's writes. -/
theorem raiseLow_due (h : s.lowPort = some p) (hc : s.tick.inCommit = true) (hw : s.host.windowVectors.any (fun q => q.1 = v) = false) :
    s.raiseLow v = s.onHost (fun x => { x with windowVectors := x.windowVectors ++ [(v, p)] }) := by
  simp only [State.raiseLow, State.raiseVector, h, hc, hw, Bool.true_or, if_true, Bool.false_eq_true, if_false, Option.getD_some]

/-- What a vector unmasked, masked or due leaves at the interrupts, where only the mailbox has changed before. -/
theorem onMb_raiseLow_unmasked (f : MbUnit → MbUnit) (h : s.lowPort = some p) (hc : s.tick.inCommit = false)
    (hm : (tabGetD v ({} : MsixEntry) s.host.msix).masked = false) :
    ((s.onMb f).raiseLow v).host = { s.host with raised := s.host.raised ++ [(v, p)] } := by
  rw [raiseLow_sent (s := s.onMb f) h hc]
  simp [State.sendVector, hm]

theorem onMb_raiseLow_masked (f : MbUnit → MbUnit) (h : s.lowPort = some p) (hc : s.tick.inCommit = false)
    (hm : (tabGetD v ({} : MsixEntry) s.host.msix).masked = true) :
    ((s.onMb f).raiseLow v).host = { s.host with pba := setAdd v s.host.pba } := by
  rw [raiseLow_sent (s := s.onMb f) h hc]
  simp [State.sendVector, hm]

theorem onMb_raiseLow_due (f : MbUnit → MbUnit) (h : s.lowPort = some p) (hc : s.tick.inCommit = true)
    (hw : s.host.windowVectors.any (fun q => q.1 = v) = false) :
    ((s.onMb f).raiseLow v).host = { s.host with windowVectors := s.host.windowVectors ++ [(v, p)] } := by
  rw [raiseLow_due (s := s.onMb f) h hc hw]
  rfl

/-- Raising a vector leaves the misuse log and its count. -/
theorem raiseLow_misuse (s : State) (v : Nat) :
    (s.raiseLow v).host.misuseLog = s.host.misuseLog ∧ (s.raiseLow v).host.misuseCount = s.host.misuseCount := by
  unfold State.raiseLow State.raiseVector State.sendVector
  split
  · split <;> exact ⟨rfl, rfl⟩
  · split <;> exact ⟨rfl, rfl⟩

end

/-! ## The mailbox after each -/

theorem complete_mb (s : State) (c : MbCommand) (status : Nat) (data : List Byte) :
    (s.complete c status data).mb = { s.mb with
      bytes := Memory.writeN s.mb.bytes (256 * c.slot + 4) (completionBytes c status s.now data)
      done := setAdd c.slot s.mb.done
      outstanding := s.mb.outstanding.filter (fun x => x.slot ≠ c.slot) } := by
  simp [State.complete, mbOff, Nat.mul_comm]

theorem postEvent_mb (s : State) (code a b : Nat) :
    (s.postEvent code a b).mb = { s.mb with
      events := (if 1024 ≤ s.mb.events.length then s.mb.events.drop 1 else s.mb.events) ++
        [{ code := code, arg16 := a % 2 ^ 16, arg32 := b % 2 ^ 32, stamp := s.tick.iv }]
      lost := s.mb.lost || decide (1024 ≤ s.mb.events.length)
      eventLost := if 1024 ≤ s.mb.events.length then (s.mb.eventLost + 1) % 2 ^ 64 else s.mb.eventLost
      eventCount := (s.mb.eventCount + 1) % 2 ^ 32 } := by
  simp [State.postEvent, two32, two64, inc64, State.now]

theorem misuse_mb (s : State) (stamp value cause port target : Nat) :
    (s.misuse stamp value cause port target).mb = { s.mb with eventCount := (s.mb.eventCount + 1) % 2 ^ 32 } := by
  simp [State.misuse, two32]

/-- The misuse log and its count after a misused doorbell (R351, Table 15-9). -/
theorem misuse_logged (s : State) (stamp value cause port target : Nat) :
    (s.misuse stamp value cause port target).host.misuseLog =
        s.host.misuseLog.set (s.host.misuseCount % 16) (misuseEntry stamp value cause port target) ∧
      (s.misuse stamp value cause port target).host.misuseCount = (s.host.misuseCount + 1) % 2 ^ 64 :=
  raiseLow_misuse _ 0

/-! ## The obligations -/

/-- Settles O10: the slot's 252 bytes are written whole, and nothing outside them; the bit, the queue of commands and vector 1 follow. -/
theorem completionWritesSlot : Obligations.CompletionWritesSlot := by
  refine ⟨fun s c status data hw _ hd => ⟨fun x hx => ?_, ?_⟩, fun s c status n data => ⟨?_, fun x => ?_⟩, ?_⟩
  · rw [complete_mb]
    exact read_writeN_out _ _ x hw (by rw [completionBytes_length]; omega)
  · have hread := readN_writeN (completionBytes c status s.now data) (256 * c.slot + 4) hw
    rw [completionBytes_length] at hread
    rw [complete_mb, hread, completionBytes, slice_zero_of_le hd]
    simp only [List.append_assoc]
  · rw [complete_mb]
    exact mem_setAdd
  · rw [complete_mb]
    simp
  · intro s c status p data hp hc hm
    exact congrArg HostUnit.raised (onMb_raiseLow_unmasked _ hp hc hm)

/-- Settles O11: each of the three is a change of the mailbox or of the misuse log, and a vector raised. -/
theorem completionFrame : Obligations.CompletionFrame := by
  refine ⟨?_, ?_, fun s v cause port target => by rw [misuse_mb]⟩
  · rintro s t c st d code a b v cause port target (rfl | rfl | rfl)
    · simp [State.complete]
    · simp
    · simp
  · rintro s t code a b v cause port target (rfl | rfl)
    · simp [postEvent_mb]
    · simp [misuse_mb]

/-- Settles O14, from the log and the mailbox that misuse leaves. -/
theorem misuseIsLogged : Obligations.MisuseIsLogged := by
  intro s stamp value cause port target i hl hi
  obtain ⟨hlog, hcount⟩ := misuse_logged s stamp value cause port target
  refine ⟨?_, hcount, by rw [misuse_mb], misuse_req .., by rw [misuse_mb], by rw [misuse_mb], misuse_start ..⟩
  rw [hlog]
  by_cases h : i = s.host.misuseCount % 16
  · subst h
    simp [nth, hl, hi]
  · simp [nth, h, List.getElem?_set_ne (Ne.symm h)]

/-! ## IDENTIFY, EVENT_READ and REQ_QUERY -/

/-- EVENT_READ in its turn: with a count from 1 to 13 the oldest records leave the queue and are returned, or the command is refused. -/
theorem exec_eventRead_asked {s : State} {mb : Nat} {c : MbCommand} (h : Asked s mb 0x04 c) :
    exec (.eventRead mb) s = .next (
      if inRange (cf c 0 1) 1 13 then
        (s.onMb (fun m => { m with events := m.events.drop (cf c 0 1), lost := false })).complete c St.ok
          (leBytes 1 (s.mb.events.take (cf c 0 1)).length ++ leBytes 1 (b2n s.mb.lost) ++ leBytes 2 0 ++ leBytes 4 (s.mb.events.drop (cf c 0 1)).length
            ++ leBytes 8 0 ++ (s.mb.events.take (cf c 0 1)).flatMap eventBytes)
      else s.complete c St.badArgument []) := by
  obtain ⟨hc, hu, ht⟩ := h
  have hrun : exec (.eventRead mb) s = .next (answer s c (do
      need (inRange (cf c 0 1) 1 13) St.badArgument
      .ok (s.onMb (fun m => { m with events := s.mb.events.drop (cf c 0 1), lost := false }),
        leBytes 1 (s.mb.events.take (cf c 0 1)).length ++ leBytes 1 (b2n s.mb.lost) ++ leBytes 2 0 ++ leBytes 4 (s.mb.events.drop (cf c 0 1)).length
          ++ leBytes 8 0 ++ (s.mb.events.take (cf c 0 1)).flatMap eventBytes))) :=
    congrArg Host.Outcome.next (runI_asked _ hc hu ht)
  rw [hrun]
  split
  · next hok =>
    rw [need_of hok, ok_bind, answer_ok]
    rfl
  · next hok => rw [need_not (Bool.not_eq_true _ ▸ hok), error_bind, answer_error]

theorem inRange_iff {v lo hi : Nat} : inRange v lo hi = true ↔ lo ≤ v ∧ v ≤ hi := by
  simp [inRange]

/-- IDENTIFY in its turn. -/
theorem exec_identify_asked {s : State} {mb : Nat} {c : MbCommand} (h : Asked s mb 0x01 c) :
    exec (.identify mb) s = .next (s.complete c St.ok (
      leBytes 2 (identityOf s) ++ leBytes 6 0 ++ leBytes 8 s.mb.serial ++ leBytes 4 (runVersion s 0) ++ leBytes 4 (runVersion s 1) ++ leBytes 4 s.mb.capGen)) := by
  obtain ⟨hc, hu, ht⟩ := h
  exact congrArg Host.Outcome.next (runI_asked _ hc hu ht)

/-- What REQ_QUERY returns of a request (Table 16-3). -/
def queryData (r : Request) : List Byte :=
  leBytes 1 (reqCode r.state) ++ leBytes 1 r.priority ++ leBytes 2 (flagsWord r.flags) ++ leBytes 4 r.committedLen ++ leBytes 4 r.nextSeq ++ leBytes 4 r.newCount
    ++ leBytes 4 r.creditCount ++ leBytes 1 r.withheld

/-- REQ_QUERY of a slot whose entry of the last edge is the admission it names. -/
theorem exec_reqQuery_found {s : State} {mb : Nat} {c : MbCommand} {r : Request} (h : Asked s mb 0x44 c)
    (hr : tabGet (cf c 0 4) s.req.edgeTable = some r) (hn : namesReq c r = true) :
    exec (.reqQuery mb) s = .next (s.complete c St.ok (queryData r)) := by
  obtain ⟨hc, hu, ht⟩ := h
  refine congrArg Host.Outcome.next ((runI_asked _ hc hu ht).trans ?_)
  simp only [hr, hn, if_true]
  rfl

/-- REQ_QUERY of a slot that holds no entry, or another admission. -/
theorem exec_reqQuery_closed {s : State} {mb : Nat} {c : MbCommand} (h : Asked s mb 0x44 c)
    (hr : (tabGet (cf c 0 4) s.req.edgeTable).any (namesReq c) = false) :
    exec (.reqQuery mb) s = .next (s.complete c St.reqClosed []) := by
  obtain ⟨hc, hu, ht⟩ := h
  refine congrArg Host.Outcome.next ((runI_asked _ hc hu ht).trans ?_)
  cases he : tabGet (cf c 0 4) s.req.edgeTable with
  | none => rfl
  | some r =>
    rw [he, Option.any_some] at hr
    simp only [hr, Bool.false_eq_true, if_false]
    rfl

/-- Settles O12, from the mailbox that an event leaves, the three ways in which vector 0 is raised, and EVENT_READ's two outcomes. -/
theorem eventsArePosted : Obligations.EventsArePosted := by
  refine ⟨?_, ?_, ?_, ?_, ?_, fun e => ⟨rfl, eventBytes_length e⟩, ?_, ?_⟩
  · intro s code a b h
    simp [postEvent_mb, Nat.not_le.2 h]
  · intro s code a b h
    simp [postEvent_mb, h]
  · intro s code a b p hp hc hm
    exact congrArg HostUnit.raised (onMb_raiseLow_unmasked _ hp hc hm)
  · intro s code a b p hp hc hw
    exact congrArg HostUnit.windowVectors (onMb_raiseLow_due _ hp hc hw)
  · intro s code a b p hp hc hm
    have hh : (s.postEvent code a b).host = _ := onMb_raiseLow_masked _ hp hc hm
    rw [hh]
    exact ⟨rfl, rfl⟩
  · intro s mb c h hm
    rw [exec_eventRead_asked h, if_pos (inRange_iff.2 hm)]
  · intro s mb c h hm
    rw [exec_eventRead_asked h, if_neg (fun hr => hm (inRange_iff.1 hr))]

/-- Settles O16, from the equation of each of the three commands. -/
theorem reportCommands : Obligations.ReportCommands := by
  refine ⟨fun s mb c h => exec_identify_asked h, fun s mb c r h hr hn => exec_reqQuery_found h hr hn, fun s mb c h hr => exec_reqQuery_closed h hr, ?_⟩
  rintro s mb n c h ⟨rfl, hm⟩
  rw [exec_eventRead_asked h, if_pos (inRange_iff.2 hm), List.length_take, List.length_drop]

end Sys2Proof.Laws
end

section
/-! PROOFS. MB_DOORBELL (R341, R349, R351, R356, R357, R359; log 26): which writes ring a slot, and what becomes of a slot that is rung. -/

namespace Sys2Proof.Laws

open Sys2Proof Sys2Proof.Machine
set_option deprecated.oldSectionVars true

/-! ## A slot that is rung (R356, R357) -/

section
variable {s : State} {slot stamp port arrival : Nat}

theorem takeDoorbell_busy (h : s.mb.outstanding.any (fun x => x.slot = slot) = true) :
    s.takeDoorbell slot stamp port arrival = s.onMb (fun m => { m with busyDoorbells := (m.busyDoorbells + 1) % 2 ^ 64 }) := by
  simp only [State.takeDoorbell, h, if_true]
  rfl

theorem takeDoorbell_passes {c : MbCommand} (h : s.mb.outstanding.any (fun x => x.slot = slot) = false)
    (hc : c = { commandOf (s.mbBytes slot) slot stamp port with arrival := arrival }) (hok : commandCheck s (s.mbBytes slot) = St.ok) :
    s.takeDoorbell slot stamp port arrival =
      (s.onMb (fun m => { m with done := setDel slot m.done })).onMb (fun m => { m with outstanding := m.outstanding ++ [c] }) := by
  subst hc
  simp only [State.takeDoorbell, h, hok, Bool.false_eq_true, if_false, if_true]

theorem takeDoorbell_fails {c : MbCommand} (h : s.mb.outstanding.any (fun x => x.slot = slot) = false)
    (hc : c = { commandOf (s.mbBytes slot) slot stamp port with arrival := arrival }) (hbad : commandCheck s (s.mbBytes slot) ≠ St.ok) :
    s.takeDoorbell slot stamp port arrival =
      (s.onMb (fun m => { m with done := setDel slot m.done })).complete c (commandCheck s (s.mbBytes slot)) [] := by
  subst hc
  simp only [State.takeDoorbell, h, hbad, Bool.false_eq_true, if_false]

end

/-! ## The write (R341, R351, R353, R359) -/

section
variable {s : State} {port : Nat} (t offset width : Nat) {v : BitVec 32}

/-- Sceol takes commands neither during a warm reset nor in OFF. -/
theorem running_of_sceolUp (h : s.sceolUp = true) : s.start.warmRunning = false ∧ s.start.state ≠ .off := by
  simp only [State.sceolUp, Bool.and_eq_true, Bool.not_eq_true', decide_eq_true_eq] at h
  exact ⟨h.1.2, h.2⟩

/-- A write that the device does not take: its port is not reached, a warm reset runs, or the device is OFF. -/
theorem exec_mbDoorbell_unreached (h : s.barUp port = false ∨ s.start.warmRunning = true ∨ s.start.state = .off) :
    exec (.mbDoorbell t port offset width v) s = .next (s.atTime t) := by
  have hif : (!s.barUp port || s.start.warmRunning || decide (s.start.state = .off)) = true := by
    rcases h with h | h | h <;> simp [h]
  exact congrArg Host.Outcome.next (if_pos hif)

/-- A write that the device takes is misuse, rings a slot, or stays latched. -/
theorem exec_mbDoorbell_reached (h : s.barUp port = true) (hw : s.start.warmRunning = false) (ho : s.start.state ≠ .off) :
    exec (.mbDoorbell t port offset width v) s = .next (
      if width ≠ 4 || offset ≠ 0x20000 then (s.atTime t).misuse t v.toNat 5 port (v.toNat % 256)
      else if v.toNat / 256 ≠ 0 then (s.atTime t).misuse t v.toNat 6 port (v.toNat % 256)
      else if s.sceolUp then (s.atTime t).arrive.takeDoorbell v.toNat t port s.host.arrivals
      else (s.atTime t).arrive.onMb (fun m => { m with latched := m.latched ++ [(v.toNat, t, port, s.host.arrivals)] })) := by
  have hif : (!s.barUp port || s.start.warmRunning || decide (s.start.state = .off)) = false := by simp [h, hw, ho]
  exact congrArg Host.Outcome.next (if_neg (ne_true_of_eq_false hif))

/-- A well-formed write with a control die active rings the slot that it names. -/
theorem exec_mbDoorbell_rings (h : s.barUp port = true) (hu : s.sceolUp = true) (hv : v.toNat < 256) :
    exec (.mbDoorbell t port 0x20000 4 v) s = .next ((s.atTime t).arrive.takeDoorbell v.toNat t port s.host.arrivals) := by
  obtain ⟨hw, ho⟩ := running_of_sceolUp hu
  rw [exec_mbDoorbell_reached t _ _ h hw ho, Nat.div_eq_of_lt hv, hu]
  rfl

end

/-! ## The obligation -/

/-- Settles O13: a write that is taken is misuse, rings a slot or is latched, and a slot that is rung is busy, takes its command or
refuses it. Neither the passage of Invar nor the count of arrivals concerns the checks. -/
theorem doorbellIsTaken : Obligations.DoorbellIsTaken := by
  refine ⟨?_, ?_, ?_, ?_, ?_, ?_, fun s t port offset width v h => exec_mbDoorbell_unreached t offset width h⟩
  · intro s t port v c hb hu hv hf hc hok
    rw [exec_mbDoorbell_rings t hb hu hv]
    exact congrArg Host.Outcome.next (takeDoorbell_passes (s := (s.atTime t).arrive) hf hc hok)
  · intro s t port v c hb hu hv hf hc hbad
    rw [exec_mbDoorbell_rings t hb hu hv]
    exact congrArg Host.Outcome.next (takeDoorbell_fails (s := (s.atTime t).arrive) hf hc hbad)
  · intro s t port v hb hu hv hf
    rw [exec_mbDoorbell_rings t hb hu hv]
    exact congrArg Host.Outcome.next (takeDoorbell_busy (s := (s.atTime t).arrive) hf)
  · intro s t port v hb hu hw ho hv
    rw [exec_mbDoorbell_reached t _ _ hb hw ho, Nat.div_eq_of_lt hv, hu]
    rfl
  · intro s t port offset width v hb hw ho h
    rw [exec_mbDoorbell_reached t _ _ hb hw ho, if_pos (by simpa using h)]
  · intro s t port v hb hw ho hv
    have hq : v.toNat / 256 ≠ 0 := by omega
    rw [exec_mbDoorbell_reached t _ _ hb hw ho, if_neg (by simp), if_pos hq]

end Sys2Proof.Laws
end

section
/-! PROOFS. DEVICE_STATE (R404, Table 18-2), WARM_RESET (R360, R376) and ABORT (R361). -/

namespace Sys2Proof.Laws

open Sys2Proof Sys2Proof.Machine
set_option deprecated.oldSectionVars true

/-! ## Commands that are due -/

section
variable {s t : State} {mb op : Nat} {c : MbCommand}

/-- A class-L command that is due comes to the state in which its body has started it. -/
theorem runL_started {f : MbCommand → State → Except Nat State} (h : Due s mb op c) (hf : f c s.begin = .ok t) : runL s mb op f = t := by
  obtain ⟨hc, hu, hd⟩ := h
  rw [runL_fresh f hc hu hd, hf]

/-- One whose body fails a check completes with its status. -/
theorem runL_failed {f : MbCommand → State → Except Nat State} {e : Nat} (h : Due s mb op c) (hf : f c s.begin = .error e) :
    runL s mb op f = s.begin.complete c e [] := by
  obtain ⟨hc, hu, hd⟩ := h
  rw [runL_fresh f hc hu hd, hf]

end

/-! ## DEVICE_STATE (Table 18-2) -/

section
variable {s t : State} {mb n : Nat} {c : MbCommand}

theorem exec_deviceState_moves (h : Due s mb 0x02 c) (ht : deviceTo s.begin (cf c 0 1) = .ok t) :
    exec (.deviceState mb) s = .next (t.complete c St.ok (leBytes 1 (devCode t.start.state))) :=
  congrArg Host.Outcome.next (runL_started h (by rw [ht]; rfl))

theorem exec_deviceState_refused {e : Nat} (h : Due s mb 0x02 c) (he : deviceTo s.begin (cf c 0 1) = .error e) :
    exec (.deviceState mb) s = .next (s.begin.complete c e []) :=
  congrArg Host.Outcome.next (runL_failed h (by rw [he]; rfl))

/-- The current state is reached from itself. -/
theorem deviceTo_same (h : n = devCode s.start.state) : deviceTo s n = .ok s := by
  simp only [deviceTo, h, if_true]

theorem deviceTo_serve (h : s.start.state = .ready ∨ s.start.state = .maintenance) : deviceTo s 4 = .ok s.serve := by
  rcases h with h | h <;> simp [deviceTo, h, devCode]

/-- Serving starts in SERVING with no part marked failed, and in DEGRADED otherwise. -/
theorem deviceTo_serving (h : s.start.state = .ready ∨ s.start.state = .maintenance) (hd : degraded s = false) :
    deviceTo s 4 = .ok ((s.onStart (fun x => { x with state := .serving })).onTick (fun k => { k with everServing := true })) := by
  simp [deviceTo_serve h, State.serve, hd]

theorem deviceTo_degraded (h : s.start.state = .ready ∨ s.start.state = .maintenance) (hd : degraded s = true) :
    deviceTo s 4 = .ok (s.onStart (fun x => { x with state := .degraded })) := by
  simp [deviceTo_serve h, State.serve, hd]

theorem deviceTo_readyToMaintenance (h : s.start.state = .ready) : deviceTo s 6 = .ok (s.onStart (fun x => { x with state := .maintenance })) := by
  simp [deviceTo, h, devCode]

theorem deviceTo_maintenanceToReady (h : s.start.state = .maintenance) : deviceTo s 3 = .ok s.enterReady := by
  simp [deviceTo, h, devCode]

/-- SERVING and DEGRADED are left for READY or MAINTENANCE once every request is FREE. -/
theorem deviceTo_leaveToReady (h : s.start.state = .serving ∨ s.start.state = .degraded) (hf : anyRequest s (fun _ => true) = false) :
    deviceTo s 3 = .ok s.enterReady := by
  rcases h with h | h <;> simp [deviceTo, h, devCode, hf]

theorem deviceTo_leaveToMaintenance (h : s.start.state = .serving ∨ s.start.state = .degraded) (hf : anyRequest s (fun _ => true) = false) :
    deviceTo s 6 = .ok (s.onStart (fun x => { x with state := .maintenance })) := by
  rcases h with h | h <;> simp [deviceTo, h, devCode, hf]

theorem deviceTo_busy (h : s.start.state = .serving ∨ s.start.state = .degraded) (hn : n = 3 ∨ n = 6)
    (hb : anyRequest s (fun _ => true) = true) : deviceTo s n = .error St.busy := by
  rcases h with h | h <;> rcases hn with rfl | rfl <;> simp [deviceTo, h, devCode, hb]

/-- The transitions of Table 18-2 that a command may ask for, with the code of the state asked for. -/
def deviceMoves : List (DevState × Nat) :=
  [(.ready, 4), (.ready, 6), (.maintenance, 4), (.maintenance, 3), (.serving, 3), (.serving, 6), (.degraded, 3), (.degraded, 6)]

theorem deviceTo_other (hn : n ≠ devCode s.start.state) (h : (s.start.state, n) ∉ deviceMoves) : deviceTo s n = .error St.badState := by
  unfold deviceTo
  rw [if_neg hn]
  cases hs : s.start.state with
  | ready | maintenance | serving | degraded =>
    simp only [hs, deviceMoves, List.mem_cons, Prod.mk.injEq, reduceCtorEq, true_and, false_and, or_false, false_or, List.not_mem_nil, not_or] at h
    simp only [h, if_false]
  | off | boot | train | safeHalt => rfl

end

/-- Settles O32, from what deviceTo answers for each pair of states. -/
theorem deviceStateAndReset : Obligations.DeviceStateAndReset := by
  refine ⟨?_, ?_, ?_, ?_, ?_, ?_, ?_, ?_, ?_⟩
  · intro s mb c h hn
    exact exec_deviceState_moves h (deviceTo_same hn)
  · intro s mb c h hs hn hd
    exact exec_deviceState_moves h (hn ▸ deviceTo_serving hs hd)
  · intro s mb c h hs hn hd
    exact exec_deviceState_moves h (hn ▸ deviceTo_degraded hs hd)
  · intro s mb c h hs hn
    exact exec_deviceState_moves h (hn ▸ deviceTo_readyToMaintenance hs)
  · intro s mb c h hs hn
    exact exec_deviceState_moves h (hn ▸ deviceTo_maintenanceToReady hs)
  · intro s mb c h hs hn hf
    exact exec_deviceState_moves h (hn ▸ deviceTo_leaveToReady hs hf)
  · intro s mb c h hs hn hf
    exact exec_deviceState_moves h (hn ▸ deviceTo_leaveToMaintenance hs hf)
  · intro s mb c h hs hn hb
    exact exec_deviceState_refused h (deviceTo_busy hs hn hb)
  · intro s mb c h hn hm
    exact exec_deviceState_refused h (deviceTo_other hn hm)

/-! ## ABORT (R361) -/

/-- The commands that ABORT may name by their tag (R361). -/
def abortTarget (s : State) (c : MbCommand) : Option MbCommand :=
  s.mb.outstanding.find? (fun x => x.tag = cf c 0 1 && [0x70, 0x75, 0xA0, 0x91].contains x.opcode)

section
variable {s : State} {mb : Nat} {c x : MbCommand}

theorem exec_abort_found (h : Due s mb 0x06 c) (hx : abortTarget s c = some x) :
    exec (.abort mb) s = .next ((s.begin.undo x).complete c St.ok []) := by
  obtain ⟨hc, hu, hd⟩ := h
  refine congrArg Host.Outcome.next ((runT_due _ hc hu hd).trans ?_)
  unfold abortTarget at hx
  simp only [begin_mb, hx, answer_ok]

theorem exec_abort_notFound (h : Due s mb 0x06 c) (hx : abortTarget s c = none) :
    exec (.abort mb) s = .next (s.begin.complete c St.notFound []) := by
  obtain ⟨hc, hu, hd⟩ := h
  refine congrArg Host.Outcome.next ((runT_due _ hc hu hd).trans ?_)
  unfold abortTarget at hx
  simp only [begin_mb, hx, answer_error]

end

/-! ### What undoing a long command comes to, by its phase and opcode -/

section
variable {s : State} {x : MbCommand}

theorem undo_notStarted (h : x.phase = 0) : s.undo x = s.complete x St.cancelled [] := by
  simp [State.undo, h]

theorem undo_fwStage (hp : x.phase = 1) (ho : x.opcode = 0xA0) :
    s.undo x = (((s.setOther {}).onMb (fun m => { m with staging := none })).capChanged).complete x St.cancelled [] := by
  simp [State.undo, hp, ho]

theorem undo_calWrite (hp : x.phase = 1) (ho : x.opcode = 0x91) :
    s.undo x = (s.onMb (fun m => { m with calWrite := none })).complete x St.cancelled [] := by
  simp [State.undo, hp, ho]

theorem undo_alloyLoad (hp : x.phase = 1) (ho : x.opcode = 0x75) : s.undo x = s.freeGen (x.aux % 4096) (x.aux / 4096) none St.cancelled := by
  simp [State.undo, hp, ho]

theorem undo_modelLoad {p : Nat × ModelSlot} (hp : x.phase = 2) (ho : x.opcode = 0x70)
    (hs : s.models.slots.find? (fun p => p.2.state = .loading && p.2.loadMb = some x.slot) = some p) :
    s.undo x = s.failLoad p.1 St.cancelled := by
  simp only [State.undo, hp, ho, hs, if_true]
  rfl

end

/-- Settles O33, from WARM_RESET's start, ABORT's two outcomes and what undoing each long command comes to. -/
theorem resetAndAbort : Obligations.ResetAndAbort :=
  ⟨fun _ _ _ h => congrArg Host.Outcome.next (runL_started h rfl), fun _ _ _ _ h hx => exec_abort_found h hx,
    fun _ _ _ h hx => exec_abort_notFound h hx, fun _ _ hp => undo_notStarted hp, fun _ _ hp ho => undo_fwStage hp ho,
    fun _ _ hp ho => undo_calWrite hp ho, fun _ _ hp ho => undo_alloyLoad hp ho, fun _ _ _ hp ho hs => undo_modelLoad hp ho hs⟩

end Sys2Proof.Laws
end

section
/-! PROOFS. Counters and the Calibration Record that the host reads and writes, and firmware images staged, verified and activated (R349, R367,
R368, R407, R408, R413 to R417, R433; logs 27, 43 and 48). -/

namespace Sys2Proof.Laws

open Sys2Proof Sys2Proof.Machine
set_option deprecated.oldSectionVars true

/-! ## STATS_READ and CAL_READ (R349, R413, R433) -/

/-- What STATS_READ comes to once its turn has come: its three checks, then the block in the host's buffer. -/
def statsAnswer (s : State) (ok : Bool) (c : MbCommand) : Except Nat (State × List Byte) :=
  (blockRecords (s.tel.readable.getD {}) (cf c 0 2)).elim (.error St.badArgument) fun r =>
    if cf c 4 4 < 32 + r.1 * r.2.length then .error St.badLength
    else if !ok then .error St.badAddress
    else
      let b := statsBlock (s.tel.readable.getD {}) (cf c 0 2) r.1 r.2
      .ok (s.bufferWrite c.port (cf c 8 8) b, leBytes 4 b.length ++ leBytes 4 0 ++ leBytes 8 (s.tel.readable.getD {}).tick)

section
variable {s : State} {mb : Nat} {c : MbCommand} {ok : Bool} {r : Nat × List (List Byte)}

theorem exec_statsRead_noPort (mb : Nat) (ok : Bool) (h : s.noPort = true) : exec (.statsRead mb ok) s = .next s :=
  congrArg Host.Outcome.next (if_pos h)

theorem exec_statsRead_asked (h : Asked s mb 0x80 c) (hp : s.noPort = false) :
    exec (.statsRead mb ok) s = .next (answer s c (statsAnswer s ok c)) := by
  obtain ⟨hc, hu, ht⟩ := h
  refine congrArg Host.Outcome.next ((if_neg (ne_true_of_eq_false hp)).trans ((runI_asked _ hc hu ht).trans ?_))
  unfold statsAnswer
  dsimp only
  cases blockRecords (s.tel.readable.getD {}) (cf c 0 2) with
  | none => rfl
  | some r => rfl

theorem statsAnswer_noBlock (h : blockRecords (s.tel.readable.getD {}) (cf c 0 2) = none) : statsAnswer s ok c = .error St.badArgument := by
  simp [statsAnswer, h]

theorem statsAnswer_short (h : blockRecords (s.tel.readable.getD {}) (cf c 0 2) = some r) (hl : cf c 4 4 < 32 + r.1 * r.2.length) :
    statsAnswer s ok c = .error St.badLength := by
  simp [statsAnswer, h, hl]

theorem statsAnswer_unwritten (h : blockRecords (s.tel.readable.getD {}) (cf c 0 2) = some r) (hl : 32 + r.1 * r.2.length ≤ cf c 4 4) :
    statsAnswer s false c = .error St.badAddress := by
  simp [statsAnswer, h, Nat.not_lt.2 hl]

theorem statsAnswer_written (h : blockRecords (s.tel.readable.getD {}) (cf c 0 2) = some r) (hl : 32 + r.1 * r.2.length ≤ cf c 4 4) :
    statsAnswer s true c = .ok (s.bufferWrite c.port (cf c 8 8) (statsBlock (s.tel.readable.getD {}) (cf c 0 2) r.1 r.2),
      leBytes 4 (statsBlock (s.tel.readable.getD {}) (cf c 0 2) r.1 r.2).length ++ leBytes 4 0 ++ leBytes 8 (s.tel.readable.getD {}).tick) := by
  simp [statsAnswer, h, Nat.not_lt.2 hl]

theorem exec_calRead_noPort (mb : Nat) (ok : Bool) (h : s.noPort = true) : exec (.calRead mb ok) s = .next s :=
  congrArg Host.Outcome.next (if_pos h)

theorem exec_calRead_asked (h : Asked s mb 0x90 c) (hp : s.noPort = false) :
    exec (.calRead mb ok) s = .next (answer s c (do
      need (s.start.record.length ≤ cf c 4 4) St.badLength
      need ok St.badAddress
      .ok (s.bufferWrite c.port (cf c 8 8) s.start.record, leBytes 4 s.start.record.length))) := by
  obtain ⟨hc, hu, ht⟩ := h
  exact congrArg Host.Outcome.next ((if_neg (ne_true_of_eq_false hp)).trans (runI_asked _ hc hu ht))

end

/-! ## What the start of a window leaves (log 1) -/

@[simp] theorem otherImage_begin (s : State) : otherImage s.begin = otherImage s := rfl
@[simp] theorem fwBusy_begin (s : State) : fwBusy s.begin = fwBusy s := rfl

/-! ## CAL_WRITE and CAL_RECORD_SWITCHED (R417; log 43) -/

section
variable {s : State} {mb : Nat} {c : MbCommand} {b : List Byte}

theorem exec_calWrite_starts (h : Due s mb 0x91 c) (hs : s.start.state = .maintenance) (hw : s.mb.calWrite = none)
    (hok : calOk s.mb.serial (b.take (cf c 4 4)) = true) :
    exec (.calWrite mb (some b)) s = .next (((s.begin.hostRead c.port (cf c 8 8) (cf c 4 4)).onMb (fun m =>
      { m with calWrite := some (mb, (b.take (cf c 4 4)).take (field (b.take (cf c 4 4)) 20 4)) })).setCmd { c with phase := 1 }) :=
  congrArg Host.Outcome.next (runL_started h (by simp [hs, hw, hok]))

theorem exec_calWrite_badImage (h : Due s mb 0x91 c) (hs : s.start.state = .maintenance) (hw : s.mb.calWrite = none)
    (hbad : calOk s.mb.serial (b.take (cf c 4 4)) = false) : exec (.calWrite mb (some b)) s = .next (s.begin.complete c St.badImage []) :=
  congrArg Host.Outcome.next (runL_failed h (by simp [hs, hw, hbad]))

theorem exec_calWrite_badState {b : Option (List Byte)} (h : Due s mb 0x91 c) (hs : s.start.state ≠ .maintenance) :
    exec (.calWrite mb b) s = .next (s.begin.complete c St.badState []) :=
  congrArg Host.Outcome.next (runL_failed h (by simp [hs]))

theorem exec_calWrite_busy {b : Option (List Byte)} (h : Due s mb 0x91 c) (hs : s.start.state = .maintenance) (hw : s.mb.calWrite.isSome = true) :
    exec (.calWrite mb b) s = .next (s.begin.complete c St.busy []) :=
  congrArg Host.Outcome.next (runL_failed h (by simp [hs, hw]))

theorem exec_calWrite_unread (h : Due s mb 0x91 c) (hs : s.start.state = .maintenance) (hw : s.mb.calWrite = none) :
    exec (.calWrite mb none) s = .next (s.begin.complete c St.badAddress []) :=
  congrArg Host.Outcome.next (runL_failed h (by simp [hs, hw]))

/-- The record that a CAL_WRITE has written comes in force, and its command completes. -/
theorem exec_calRecordSwitched_due (hl : settlesLong s = true) (hu : s.sceolUp = true) (hw : s.mb.calWrite = some (mb, b))
    (hc : s.cmdAt mb [0x91] = some c) :
    exec .calRecordSwitched s = .next (((s.onStart (fun x => { x with
        record := b
        calStat := (x.calStat &&& ~~~0x10#32) ||| BitVec.ofNat 32 (16 * b2n (!calHas s.mb.serial b 5 0)) })).onMb
      (fun m => { m with calWrite := none })).complete c St.ok []) := by
  refine congrArg Host.Outcome.next ?_
  have hcmd (f : StartUnit → StartUnit) (g : MbUnit → MbUnit) (hg : (g s.mb).outstanding = s.mb.outstanding) :
      ((s.onStart f).onMb g).cmdAt mb [0x91] = some c := by
    rw [← hc]
    simp [State.cmdAt, hg]
  simp only [hw, hl, hu, Bool.and_self, Bool.not_true, Bool.false_eq_true, if_false, hcmd]

end

/-! ## FW_STAGE and FW_STAGE_VERIFIED (R367, R407; log 43) -/

section
variable {s : State} {mb : Nat} {c : MbCommand} {r : FwRead} {i : FwImage}

theorem exec_fwStage_starts (h : Due s mb 0xA0 c) (hl : cf c 4 4 ≤ 268435456) (hb : fwBusy s = false) (hr : r.readFail = false) :
    exec (.fwStage mb r) s = .next (((s.begin.hostRead c.port (cf c 8 8) (cf c 4 4)).onMb (fun m =>
      { m with staging := some (mb, { fwImageOf r with valid := fwVerified s.begin r }) })).setCmd { c with phase := 1 }) :=
  congrArg Host.Outcome.next (runL_started h (by simp [hl, hb, hr]))

theorem exec_fwStage_badLength (h : Due s mb 0xA0 c) (hl : 268435456 < cf c 4 4) :
    exec (.fwStage mb r) s = .next (s.begin.complete c St.badLength []) :=
  congrArg Host.Outcome.next (runL_failed h (by simp [Nat.not_le.2 hl]))

theorem exec_fwStage_busy (h : Due s mb 0xA0 c) (hl : cf c 4 4 ≤ 268435456) (hb : fwBusy s = true) :
    exec (.fwStage mb r) s = .next (s.begin.complete c St.busy []) :=
  congrArg Host.Outcome.next (runL_failed h (by simp [hl, hb]))

theorem exec_fwStage_unread (h : Due s mb 0xA0 c) (hl : cf c 4 4 ≤ 268435456) (hb : fwBusy s = false) (hr : r.readFail = true) :
    exec (.fwStage mb r) s = .next (s.begin.complete c St.badAddress []) :=
  congrArg Host.Outcome.next (runL_failed h (by simp [hl, hb, hr]))

/-- The state in which a staged image has been written to the other flash and its staging is over. -/
def stageEnded (s : State) (i : FwImage) : State := ((s.setOther i).onMb (fun m => { m with staging := none })).capChanged

/-- Neither the pointer nor a command is touched by it. -/
theorem stageEnded_mb (s : State) (i : FwImage) :
    (stageEnded s i).mb.bootB = s.mb.bootB ∧ (stageEnded s i).mb.outstanding = s.mb.outstanding := by
  unfold stageEnded State.capChanged State.setOther
  simp only [postEvent_mb, onMb_mb]
  split <;> exact ⟨rfl, rfl⟩

theorem stageEnded_cmdAt (s : State) (i : FwImage) (mb : Nat) (l : List Nat) : (stageEnded s i).cmdAt mb l = s.cmdAt mb l := by
  unfold State.cmdAt
  rw [(stageEnded_mb s i).2]

/-- The end of a staging: a good image is kept and its command completes; a bad one is left invalid and its command fails. -/
theorem exec_fwStageVerified_due (intact flashOk : Bool) (hl : settlesLong s = true) (hu : s.sceolUp = true) (hw : s.mb.staging = some (mb, i))
    (hc : s.cmdAt mb [0xA0] = some c) :
    exec (.fwStageVerified intact flashOk) s = .next (
      if flashOk && intact && i.valid then
        (stageEnded s i).complete c St.ok (leBytes 1 (b2n (!s.mb.bootB)) ++ leBytes 3 0 ++ leBytes 4 i.version)
      else (stageEnded s {}).complete c (if flashOk then St.badSignature else St.faultFlash) []) := by
  refine congrArg Host.Outcome.next ?_
  have hcmd (j : FwImage) : (((s.setOther j).onMb (fun m => { m with staging := none })).capChanged).cmdAt mb [0xA0] = some c :=
    (stageEnded_cmdAt s j mb _).trans hc
  have hboot (j : FwImage) : (((s.setOther j).onMb (fun m => { m with staging := none })).capChanged).mb.bootB = s.mb.bootB :=
    (stageEnded_mb s j).1
  simp only [hw, hl, hu, Bool.and_self, Bool.not_true, Bool.false_eq_true, if_false, hcmd, hboot]
  split
  · rfl
  · rfl

end

/-! ## FW_ACTIVATE (R368, R408; log 43) -/

section
variable {s : State} {mb : Nat} {c : MbCommand}

/-- FW_ACTIVATE with a mode other than 0. -/
theorem exec_fwActivateNextReset_due (h : Due s mb 0xA1 c) (hm : cf c 0 1 ≠ 0) :
    exec (.fwActivateNextReset mb) s = .next (runL s mb 0xA1 (fun c s => do
      need (cf c 0 1 = 1) St.badArgument
      need (otherImage s).valid St.notFound
      need (!fwBusy s) St.busy
      .ok ((s.moveBoot false).complete c St.ok [2]))) := by
  refine congrArg Host.Outcome.next ?_
  simp only [h.1, if_neg hm]

/-- FW_ACTIVATE with mode 0. -/
theorem exec_fwActivateLive_due (h : Due s mb 0xA1 c) (hm : cf c 0 1 = 0) :
    exec (.fwActivateLive mb) s = .next (runL s mb 0xA1 (fun c s => do
      need (s.faults.ctFailed.isEmpty && s.faults.ctStandby) St.badState
      need (otherImage s).valid St.notFound
      need (!fwBusy s) St.busy
      .ok (((s.onMb (fun m => { m with act := .booting, actMb := mb, actSince := s.now, actTicks := 0 })).onFaults
        (fun f => { f with ctStandby := false })).setCmd { c with phase := 1 }))) := by
  refine congrArg Host.Outcome.next ?_
  simp only [h.1, if_neg (not_not.2 hm)]

end

/-! ## Live activation (R368, Table 16-8) -/

section
variable {s : State} {t : Nat}

/-- The standby is one again unless it has failed. -/
def standbyBack (s : State) : State := s.onFaults (fun f => { f with ctStandby := !f.ctFailed.contains (1 - f.ctActive) })

theorem exec_standbyCaughtUp_inTime (h : s.mb.act = .booting) (ht : t ≤ s.mb.actSince + 30000000000) :
    exec (.standbyCaughtUp t true) s = .next (((standbyBack (s.atTime t)).runsImage (1 - s.faults.ctActive) (!s.mb.bootB)).onMb
      (fun m => { m with act := .caughtUp, actSince := t })) := by
  refine congrArg Host.Outcome.next ((if_neg (not_not.2 h)).trans (if_pos ?_))
  simpa using ht

theorem exec_standbyCaughtUp_fails {ok : Bool} (h : s.mb.act = .booting) (ht : ok = false ∨ s.mb.actSince + 30000000000 < t) (hu : s.sceolUp = true) :
    exec (.standbyCaughtUp t ok) s = .next (standbyBack (s.atTime t)).endActivation := by
  refine congrArg Host.Outcome.next ((if_neg (not_not.2 h)).trans ((if_neg ?_).trans (if_pos hu)))
  rcases ht with ht | ht
  · simp [ht]
  · simpa using fun _ => ht

/-- What every operation of a fold leaves alone, the fold leaves alone. -/
theorem foldl_leaves {α β : Type} (g : State → β) {f : State → α → State} (hf : ∀ t x, g (f t x) = g t) (l : List α) (s : State) :
    g (l.foldl f s) = g s := by
  induction l generalizing s with
  | nil => rfl
  | cons x r ih => exact (ih (f s x)).trans (hf s x)

/-- Measuring components touches neither the mailbox nor the faults. -/
theorem measureBoot_mb (s : State) (l : List (Nat × BitVec 384)) : (s.measureBoot l).mb = s.mb :=
  foldl_leaves (fun t => t.mb) (fun t _ => onStart_mb t _) l s

theorem measureBoot_faults (s : State) (l : List (Nat × BitVec 384)) : (s.measureBoot l).faults = s.faults :=
  foldl_leaves (fun t => t.faults) (fun t _ => onStart_faults t _) l s

theorem exec_activationHandover_ready (h : s.mb.act = .caughtUp) (hto : s.faults.takeover = none) (hs : s.faults.ctStandby = true)
    (he : edgeSince s s.mb.actSince = true) :
    ∃ l, exec .activationHandover s = .next ((((s.onFaults (fun f => { f with ctActive := 1 - f.ctActive })).onMb (fun m =>
      { m with act := .probation, actTicks := 0 })).postEvent St.controlFailover 0 1).measureBoot l) := by
  refine ⟨_, congrArg Host.Outcome.next (if_pos ?_)⟩
  simp [h, hto, hs, he]

theorem exec_probationEnd_over (h : s.mb.act = .probation) (hk : 1000 ≤ s.mb.actTicks) (hto : s.faults.takeover = none) :
    exec .probationEnd s = .next (((s.moveBoot true).onMb (fun m => { m with act := .formerBooting })).onFaults (fun f => { f with ctStandby := false })) := by
  refine congrArg Host.Outcome.next (if_pos ?_)
  simp [h, hk, hto]

theorem exec_formerActiveStandby_back (h : s.mb.act = .formerBooting) (hf : s.faults.ctFailed.contains (1 - s.faults.ctActive) = false)
    (hu : s.sceolUp = true) :
    exec (.formerActiveStandby t) s = .next ((((s.atTime t).runsImage (1 - s.faults.ctActive) s.mb.bootB).onFaults
      (fun f => { f with ctStandby := true })).endActivation) := by
  have hif : (decide (s.mb.act ≠ .formerBooting) || s.faults.ctFailed.contains (1 - s.faults.ctActive)) = false := by rw [hf, h]; rfl
  exact congrArg Host.Outcome.next ((if_neg (ne_true_of_eq_false hif)).trans (if_pos hu))

end

/-! ## The obligation -/

/-- Settles O34, form by form. -/
theorem firmwareAndCalibration : Obligations.FirmwareAndCalibration := by
  refine ⟨?statsWritten, ?statsShort, ?statsUnwritten, ?statsNoBlock, ?noPort, ?calUnwritten, ?calWritten, ?calShort,
    fun s mb c b h hs hw hok => exec_calWrite_starts h hs hw hok, fun s mb c b h hs hw hbad => exec_calWrite_badImage h hs hw hbad,
    fun s mb c b h hs => exec_calWrite_badState h hs, fun s mb c b h hs hw => exec_calWrite_busy h hs hw,
    fun s mb c h hs hw => exec_calWrite_unread h hs hw, fun s mb c r h hl hb hr => exec_fwStage_starts h hl hb hr,
    fun s mb c r h hl => exec_fwStage_badLength h hl, fun s mb c r h hl hb => exec_fwStage_busy h hl hb,
    fun s mb c r h hl hb hr => exec_fwStage_unread h hl hb hr, ?nextMoves, ?nextInvalid, ?nextBusy, ?nextMode, ?liveInvalid, ?liveBusy, ?liveStarts,
    ?liveState, ?caughtUp, fun s t ok h ht hu => exec_standbyCaughtUp_fails h ht hu, ?handover,
    fun s h hk hto => exec_probationEnd_over h hk hto, fun s t h hf hu => exec_formerActiveStandby_back h hf hu, ?stagedGood, ?stagedInvalid, ?stagedFlash,
    fun s mb c b hl hu hw hc => exec_calRecordSwitched_due hl hu hw hc⟩
  case statsWritten =>
    intro s mb c r h hp hr hl
    rw [exec_statsRead_asked h hp, statsAnswer_written hr hl, answer_ok]
  case statsShort =>
    intro s mb c r h hp hr hl
    rw [exec_statsRead_asked h hp, statsAnswer_short hr hl, answer_error]
  case statsUnwritten =>
    intro s mb c r h hp hr hl
    rw [exec_statsRead_asked h hp, statsAnswer_unwritten hr hl, answer_error]
  case statsNoBlock =>
    intro s mb c ok h hp hr
    rw [exec_statsRead_asked h hp, statsAnswer_noBlock hr, answer_error]
  case noPort =>
    intro s mb ok h
    exact ⟨exec_statsRead_noPort mb ok h, exec_calRead_noPort mb ok h⟩
  case calUnwritten =>
    intro s mb c h hp hl
    rw [exec_calRead_asked h hp, need_of (decide_eq_true hl), ok_bind, need_false, error_bind, answer_error]
  case calWritten =>
    intro s mb c h hp hl
    rw [exec_calRead_asked h hp, need_of (decide_eq_true hl), ok_bind, need_true, ok_bind, answer_ok]
  case calShort =>
    intro s mb c ok h hp hl
    rw [exec_calRead_asked h hp, need_not (decide_eq_false (Nat.not_le.2 hl)), error_bind, answer_error]
  case nextMoves =>
    intro s mb c h hm hv hb
    exact (exec_fwActivateNextReset_due h (by omega)).trans (congrArg Host.Outcome.next (runL_started h (by simp [hm, hv, hb])))
  case nextInvalid =>
    intro s mb c h hm hv
    exact (exec_fwActivateNextReset_due h (by omega)).trans (congrArg Host.Outcome.next (runL_failed h (by simp [hm, hv])))
  case nextBusy =>
    intro s mb c h hm hv hb
    exact (exec_fwActivateNextReset_due h (by omega)).trans (congrArg Host.Outcome.next (runL_failed h (by simp [hm, hv, hb])))
  case nextMode =>
    intro s mb c h hm
    have hne : cf c 0 1 ≠ 1 := by omega
    exact (exec_fwActivateNextReset_due h (by omega)).trans (congrArg Host.Outcome.next (runL_failed h (by simp [hne])))
  case liveInvalid =>
    intro s mb c h hm hf hs hv
    exact (exec_fwActivateLive_due h hm).trans (congrArg Host.Outcome.next (runL_failed h (by simp [hf, hs, hv])))
  case liveBusy =>
    intro s mb c h hm hf hs hv hb
    exact (exec_fwActivateLive_due h hm).trans (congrArg Host.Outcome.next (runL_failed h (by simp [hf, hs, hv, hb])))
  case liveStarts =>
    intro s mb c h hm hf hs hv hb
    exact (exec_fwActivateLive_due h hm).trans (congrArg Host.Outcome.next (runL_started h (by simp [hf, hs, hv, hb])))
  case liveState =>
    intro s mb c h hm hf
    have hbad : (s.faults.ctFailed.isEmpty && s.faults.ctStandby) = false := by rcases hf with hf | hf <;> simp [hf]
    exact (exec_fwActivateLive_due h hm).trans (congrArg Host.Outcome.next (runL_failed h (by simp only [begin_faults, hbad, need_false, error_bind])))
  case caughtUp =>
    intro s t h ht
    exact ⟨_, exec_standbyCaughtUp_inTime h ht, rfl, rfl, rfl, rfl⟩
  case handover =>
    intro s h hto hs he
    obtain ⟨l, hl⟩ := exec_activationHandover_ready h hto hs he
    refine ⟨_, hl, ?_⟩
    simp [measureBoot_mb, measureBoot_faults, postEvent_mb]
  case stagedGood =>
    intro s mb c i hl hu hw hv hc
    rw [exec_fwStageVerified_due true true hl hu hw hc, hv]
    rfl
  case stagedInvalid =>
    intro s mb c i hl hu hw hv hc
    rw [exec_fwStageVerified_due true true hl hu hw hc, hv]
    rfl
  case stagedFlash =>
    intro s mb c i hl hu hw hc
    rw [exec_fwStageVerified_due true false hl hu hw hc]
    rfl

end Sys2Proof.Laws
end

section
/-! PROOFS. Control and serving dies that fail, are succeeded and come back, the Sentinels' lease and their I3C registers (R396 to R401, R425,
R435; logs 27 and 42): an equation for each command by what it needs to act. -/

namespace Sys2Proof.Laws

open Sys2Proof Sys2Proof.Machine
set_option deprecated.oldSectionVars true

section
variable {s : State} {t d n : Nat}

/-! ## Heartbeats (R397, R399, R401) -/

theorem exec_controlHeartbeatTimeout_declares (hl : leaseLive s t = true) (hp : s.faults.takeover = none) (ho : s.start.state ≠ .off) :
    exec (.controlHeartbeatTimeout t) s = .next ((s.atTime t).controlDieFails s.faults.ctActive) :=
  congrArg Host.Outcome.next (if_pos (by simp [hl, hp, ho]))

theorem exec_controlHeartbeatTimeout_ignored (h : leaseLive s t = false ∨ s.faults.takeover.isSome = true) :
    exec (.controlHeartbeatTimeout t) s = .next (s.atTime t) := by
  refine congrArg Host.Outcome.next (if_neg ?_)
  rcases h with h | h
  · simp [h]
  · simp [Option.isSome_iff_ne_none.1 h]

theorem exec_servingHeartbeatTimeout_declares (hl : leaseLive s t = true) (hr : s.tick.running = true) :
    exec (.servingHeartbeatTimeout t) s = .next ((s.atTime t).servingDieFails s.faults.svActive) :=
  congrArg Host.Outcome.next (if_pos (by simp [hl, hr]))

theorem exec_servingHeartbeatTimeout_ignored (h : leaseLive s t = false ∨ s.tick.running = false) :
    exec (.servingHeartbeatTimeout t) s = .next (s.atTime t) := by
  refine congrArg Host.Outcome.next (if_neg ?_)
  rcases h with h | h <;> simp [h]

/-! ## Promotion and ORPHAN (R359, R398, R400) -/

/-- A promotion that has been declared, with a die in standby: it happens at an edge, by the Sentinel that holds the lease or in ORPHAN. -/
theorem exec_controlTakeover_standby (hd : s.faults.takeover = some d) (hn : standbyDie s = some n) :
    exec .controlTakeover s = .next (
      if edgeSince s d && (holderUp s || s.faults.orphan) then
        ((((((s.onFaults (fun f => { f with
          ctActive := n, takeover := none, orphan := false, controlLost := false, ctStandby := !f.ctFailed.contains (1 - n) })).takeLatched).reissueAll.postEvent St.controlFailover 0 0).endActivation).portsChanged).noteSentinel)
      else s) := by
  refine congrArg Host.Outcome.next ?_
  simp only [hd, hn]

theorem exec_controlTakeover_none (h : s.faults.takeover = none ∨ standbyDie s = none) : exec .controlTakeover s = .next s := by
  refine congrArg Host.Outcome.next ?_
  rcases h with h | h
  · simp only [h]
  · simp only [h]
    cases s.faults.takeover <;> rfl

/-- A loss of control that has been declared, with no die in standby: ORPHAN is entered at an edge, once. -/
theorem exec_orphanEnter_alone (hd : s.faults.takeover = some d) (hn : standbyDie s = none) :
    exec .orphanEnter s = .next (
      if edgeSince s d && !s.faults.orphan then
        ((((s.onFaults (fun f => { f with orphan := true, controlLost := true })).postEvent St.controlLost 0 0).portsChanged).noteSentinel)
      else s) := by
  refine congrArg Host.Outcome.next ?_
  simp only [hd, hn]

theorem exec_orphanEnter_none (h : s.faults.takeover = none ∨ (standbyDie s).isSome = true) : exec .orphanEnter s = .next s := by
  refine congrArg Host.Outcome.next ?_
  rcases h with h | h
  · simp only [h]
  · obtain ⟨n, hn⟩ := Option.isSome_iff_exists.1 h
    simp only [hn]
    cases s.faults.takeover <;> rfl

/-- Before the edge after its declaration a promotion changes nothing. -/
theorem exec_controlTakeover_early (hd : s.faults.takeover = some d) (he : edgeSince s d = false) : exec .controlTakeover s = .next s := by
  cases hn : standbyDie s with
  | none => exact exec_controlTakeover_none (.inr hn)
  | some n => rw [exec_controlTakeover_standby hd hn, he, Bool.false_and, if_neg Bool.false_ne_true]

theorem exec_orphanEnter_early (hd : s.faults.takeover = some d) (he : edgeSince s d = false) : exec .orphanEnter s = .next s := by
  cases hn : standbyDie s with
  | none => rw [exec_orphanEnter_alone hd hn, he, Bool.false_and, if_neg Bool.false_ne_true]
  | some n => exact exec_orphanEnter_none (.inr (by rw [hn]; rfl))

/-- With the Sentinel that holds the lease gone, nobody promotes outside ORPHAN. -/
theorem exec_controlTakeover_unheld (hh : holderUp s = false) (ho : s.faults.orphan = false) : exec .controlTakeover s = .next s := by
  cases hd : s.faults.takeover with
  | none => exact exec_controlTakeover_none (.inl hd)
  | some d =>
    cases hn : standbyDie s with
    | none => exact exec_controlTakeover_none (.inr hn)
    | some n => rw [exec_controlTakeover_standby hd hn, hh, ho, Bool.or_false, Bool.and_false, if_neg Bool.false_ne_true]

/-- ORPHAN is entered once. -/
theorem exec_orphanEnter_again (ho : s.faults.orphan = true) : exec .orphanEnter s = .next s := by
  cases hd : s.faults.takeover with
  | none => exact exec_orphanEnter_none (.inl hd)
  | some d =>
    cases hn : standbyDie s with
    | none => rw [exec_orphanEnter_alone hd hn, ho, Bool.not_true, Bool.and_false, if_neg Bool.false_ne_true]
    | some n => exact exec_orphanEnter_none (.inr (by rw [hn]; rfl))

/-! ## Dies that reboot healthy (R397, R399) -/

/-- The state in which a die has rebooted once. -/
def rebootNoted (s : State) (code : Nat) : State := s.onFaults (fun f => { f with rebooted := f.rebooted ++ [code] })

theorem exec_dieRebootedHealthy_control (hd : d < 2) (hf : d ∈ s.faults.ctFailed) (hr : 34 + d ∉ s.faults.rebooted)
    (hi : 34 + d ∉ isolatedDies s.store.failed) :
    exec (.dieRebootedHealthy t (34 + d)) s = .next (((rebootNoted (s.atTime t) (34 + d)).onFaults (fun f =>
      { f with ctFailed := setDel d f.ctFailed, ctStandby := true })).capChanged) := by
  have hcode : 34 + d = 34 ∨ 34 + d = 35 := by omega
  refine congrArg Host.Outcome.next ((if_neg ?_).trans ((if_pos ?_).trans ?_))
  · simp [hr, hi]
  · simpa [hf] using hcode
  · rw [Nat.add_sub_cancel_left]
    rfl

theorem exec_dieRebootedHealthy_serving (hd : d < 2) (hf : d ∈ s.faults.svFailed) (hr : 36 + d ∉ s.faults.rebooted)
    (hi : 36 + d ∉ isolatedDies s.store.failed) :
    exec (.dieRebootedHealthy t (36 + d)) s = .next (((rebootNoted (s.atTime t) (36 + d)).onFaults (fun f =>
      { f with svFailed := setDel d f.svFailed, svStandby := true })).capChanged) := by
  have hcode : 36 + d = 36 ∨ 36 + d = 37 := by omega
  refine congrArg Host.Outcome.next ((if_neg ?_).trans ((if_neg ?_).trans ((if_pos ?_).trans ?_)))
  · simp [hr, hi]
  · have hno : ¬ (36 + d = 34 ∨ 36 + d = 35) := by omega
    simp [hno]
  · simpa [hf] using hcode
  · rw [Nat.add_sub_cancel_left]
    rfl

theorem exec_dieRebootedHealthy_ignored {code : Nat} (h : code ∈ s.faults.rebooted ∨ code ∈ isolatedDies s.store.failed) :
    exec (.dieRebootedHealthy t code) s = .next (s.atTime t) :=
  congrArg Host.Outcome.next (if_pos (by simpa using h))

/-! ## The lease (R401) -/

theorem exec_leaseRenew_live (h : leaseLive s t = true) :
    exec (.leaseRenew t) s = .next ((s.atTime t).onFaults (fun f =>
      { f with lease1 := f.lease1 && !f.reclaim, reclaim := false, leaseUntil := t + 50000000 })) :=
  congrArg Host.Outcome.next (if_pos h)

theorem exec_leaseRenew_lapsed (h : leaseLive s t = false) : exec (.leaseRenew t) s = .next (s.atTime t) :=
  congrArg Host.Outcome.next (if_neg (ne_true_of_eq_false h))

theorem exec_leaseExpiry_passes (ht : s.faults.leaseUntil ≤ t) (hu : sentinelUp s (b2n (!s.faults.lease1)) = true) :
    exec (.leaseExpiry t) s = .next ((s.atTime t).onFaults (fun f =>
      { f with lease1 := !f.lease1, reclaim := false, leaseUntil := t + 50000000 })) :=
  congrArg Host.Outcome.next (if_pos (Bool.and_eq_true_iff.2 ⟨decide_eq_true ht, hu⟩))

theorem exec_leaseExpiry_stays (h : t < s.faults.leaseUntil ∨ sentinelUp s (b2n (!s.faults.lease1)) = false) :
    exec (.leaseExpiry t) s = .next (s.atTime t) := by
  refine congrArg Host.Outcome.next (if_neg (ne_true_of_eq_false ((Bool.and_eq_false_iff ..).2 ?_)))
  exact h.imp (fun ht => decide_eq_false (Nat.not_le.2 ht)) id

theorem exec_leaseReclaim_asks (hl : s.faults.lease1 = true) (hu : sentinelUp s 0 = true) :
    exec (.leaseReclaim t) s = .next ((s.atTime t).onFaults (fun f => { f with reclaim := true })) :=
  congrArg Host.Outcome.next (if_pos (Bool.and_eq_true_iff.2 ⟨hl, hu⟩))

theorem exec_leaseReclaim_ignored (h : s.faults.lease1 = false ∨ sentinelUp s 0 = false) : exec (.leaseReclaim t) s = .next (s.atTime t) :=
  congrArg Host.Outcome.next (if_neg (ne_true_of_eq_false ((Bool.and_eq_false_iff ..).2 h)))

/-! ## I3C and the snapshot (R425, R435) -/

theorem exec_i3c_up (i n : Nat) (h : holderUp s = true) :
    exec (.i3cWrite i) s = .next (s.onStart (fun x => { x with i3cIndex := i % 256 })) ∧
      exec (.i3cRead n) s = .next (s.answerWith (slice (sentinelBytes s) s.start.i3cIndex n)) := by
  have hup : (!holderUp s) = false := by rw [h]; rfl
  exact ⟨congrArg Host.Outcome.next (if_neg (ne_true_of_eq_false hup)), congrArg Host.Outcome.next (if_neg (ne_true_of_eq_false hup))⟩

theorem exec_i3c_gone (i n : Nat) (h : holderUp s = false) : exec (.i3cWrite i) s = .next s ∧ exec (.i3cRead n) s = .next s := by
  have hgone : (!holderUp s) = true := by rw [h]; rfl
  exact ⟨congrArg Host.Outcome.next (if_pos hgone), congrArg Host.Outcome.next (if_pos hgone)⟩

theorem sentinelUp_iff (s : State) (n : Nat) : sentinelUp s n = true ↔ n ∉ s.faults.hxFailed ∧ s.start.state ≠ .off := by
  simp [sentinelUp]

theorem exec_snapshotReadable_frozen {x : Snapshot} (h : s.tel.frozen = some x) :
    exec (.snapshotReadable t) s = .next ((s.atTime t).onTel (fun k => { k with readable := some x, frozen := none })) := by
  refine congrArg Host.Outcome.next ((if_pos (Option.isSome_of_eq_some h)).trans ?_)
  rw [← h]
  rfl

theorem exec_snapshotReadable_none (h : s.tel.frozen = none) : exec (.snapshotReadable t) s = .next (s.atTime t) :=
  congrArg Host.Outcome.next (if_neg (by simp [h]))

end

/-- Settles O59, form by form. -/
theorem controlAndSentinels : Obligations.ControlAndSentinels := by
  refine ⟨fun s t ⟨hl, hp, ho⟩ => exec_controlHeartbeatTimeout_declares hl hp ho, fun s t h => exec_controlHeartbeatTimeout_ignored h,
    fun s t ⟨hl, hr⟩ => exec_servingHeartbeatTimeout_declares hl hr, fun s t h => exec_servingHeartbeatTimeout_ignored h,
    ?promoted, fun s d hd he => ⟨exec_controlTakeover_early hd he, exec_orphanEnter_early hd he⟩, ?unpromoted, ?orphan, ?orphanNot,
    fun s t h => exec_leaseRenew_live h, fun s t h => exec_leaseRenew_lapsed h, fun s t ⟨ht, hu⟩ => exec_leaseExpiry_passes ht hu,
    fun s t ⟨hl, hu⟩ => exec_leaseReclaim_asks hl hu, fun s i n h => exec_i3c_up i n h, fun s i n h => exec_i3c_gone i n h,
    fun s t d ⟨hd, hf, hr⟩ hi => exec_dieRebootedHealthy_control hd hf hr hi, fun s t d ⟨hd, hf, hr⟩ hi => exec_dieRebootedHealthy_serving hd hf hr hi,
    fun s t c h => exec_dieRebootedHealthy_ignored h, fun s t x h => exec_snapshotReadable_frozen h, fun s t h => exec_snapshotReadable_none h,
    fun s t h => exec_leaseExpiry_stays h, fun s t h => exec_leaseReclaim_ignored h, sentinelUp_iff⟩
  case promoted =>
    rintro s d n hd hn ⟨he, hh⟩
    rw [exec_controlTakeover_standby hd hn, if_pos (by simpa [he] using hh)]
  case unpromoted =>
    rintro s (h | h | ⟨hh, ho⟩)
    · exact exec_controlTakeover_none (.inl h)
    · exact exec_controlTakeover_none (.inr h)
    · exact exec_controlTakeover_unheld hh ho
  case orphan =>
    rintro s d hd hn ⟨he, ho⟩
    rw [exec_orphanEnter_alone hd hn, if_pos (by simp [he, ho])]
  case orphanNot =>
    rintro s (h | h)
    · exact exec_orphanEnter_none (.inl h)
    · exact exec_orphanEnter_again h

end Sys2Proof.Laws
end

section
/-! PROOFS. Uncorrectable data, repairs of ingots, sparing, and pairs and banks that go out of service (R384 to R388, R391 to R395; logs 41 and 42):
an equation for each command by what it needs to act. -/

namespace Sys2Proof.Laws

open Sys2Proof Sys2Proof.Machine
set_option deprecated.oldSectionVars true

/-! ## UNCORRECTABLE_DATA (R384) -/

/-- An address lies in tier 1 on a healthy stack of the device (R258). -/
abbrev InTier1 (s : State) (a : Nat) : Prop :=
  stackBase 0 ≤ a ∧ (granuleOf a).1 < 16 ∧ (granuleOf a).2 < banksOf s.variant * 32768 ∧ (granuleOf a).1 ∉ s.faults.clFailed

/-- What every class has in common: the address is recorded, the stack's count rises, and the attempts that read it are poisoned. -/
def lossNoted (s : State) (a : Nat) (rs : List Nat) : State :=
  (((s.onFaults (fun f => { f with lastUncorr := a % two64 })).countStack (granuleOf a).1 (fun c => { c with uncorrectable := inc64 c.uncorrectable })).onPlan
    (fun u => { u with attempts := markAttempts rs (fun a => { a with poisoned := true }) u.attempts }))

section
variable {s : State} {t a n : Nat} {k : UncorrKind} {lost : Bool} {rs : List Nat}

theorem exec_uncorrectableData_refused
    (h : a < stackBase 0 ∨ 16 ≤ (granuleOf a).1 ∨ banksOf s.variant * 32768 ≤ (granuleOf a).2 ∨ (granuleOf a).1 ∈ s.faults.clFailed) :
    exec (.uncorrectableData t k a n lost rs) s = .next (s.atTime t) := by
  refine congrArg Host.Outcome.next (if_pos ?_)
  simp only [Bool.or_eq_true, decide_eq_true_eq, List.contains_iff_mem, or_assoc]
  exact h

/-- What the class of the data makes of its loss. -/
def lossByClass (u : State) (k : UncorrKind) (a n : Nat) (lost : Bool) : State :=
  match k with
  | .ingot => u.notePoison n (granuleOf a).1 (match frameOf u n (granuleOf a).1 (granuleOf a).2 with | none => (granuleOf a).2 | some x => x.2.granule)
  | .manager => if lost then u.controlDieFails u.faults.ctActive else u
  | .commitLog => if lost then u.controlDieFails u.faults.ctActive else u
  | k => u.noteLoss (.data k n lost)

theorem exec_uncorrectableData_noted (h : InTier1 s a) :
    exec (.uncorrectableData t k a n lost rs) s = .next (lossByClass (lossNoted (s.atTime t) a rs) k a n lost) := by
  obtain ⟨hb, hc, hg, hf⟩ := h
  refine congrArg Host.Outcome.next ((if_neg ?_).trans ?_)
  · simp only [Bool.or_eq_true, decide_eq_true_eq, List.contains_iff_mem, or_assoc]
    rintro (h | h | h | h)
    · exact absurd hb (Nat.not_le.2 h)
    · exact absurd hc (Nat.not_lt.2 h)
    · exact absurd hg (Nat.not_lt.2 h)
    · exact hf h
  · cases k <;> rfl

/-- A class whose loss changes requests or page groups waits for a commit window. -/
theorem lossByClass_waits (u : State) (hk : k ≠ .ingot ∧ k ≠ .manager ∧ k ≠ .commitLog) : lossByClass u k a n lost = u.noteLoss (.data k n lost) := by
  obtain ⟨hi, hm, hc⟩ := hk
  cases k with
  | ingot => exact absurd rfl hi
  | manager => exact absurd rfl hm
  | commitLog => exact absurd rfl hc
  | page | tableEntry | pageList | auxBlock | estimates | draft => rfl

theorem noteLoss_window {u : State} (l : LossDue) (h : u.tick.inCommit = true) : u.noteLoss l = u.applyLoss l := if_pos h

theorem noteLoss_waits {u : State} (l : LossDue) (h : u.tick.inCommit = false) :
    u.noteLoss l = u.onFaults (fun f => { f with lossDue := f.lossDue ++ [l] }) := if_neg (ne_true_of_eq_false h)

/-- Of data lost, a page is rebuilt, and anything else is an object of a request. -/
theorem applyLoss_data (u : State) (k : UncorrKind) (n : Nat) (lost : Bool) :
    u.applyLoss (.data k n lost) = if k = .page then u.losePage n else u.loseObject k n lost := by
  cases k <;> rfl

end

/-! ## Repairs (R385, R386) -/

section
variable {s : State} {m cl g : Nat} {ok : Bool} {b : List (BitVec 8)}

theorem exec_ingotRepairDone_ignored (h : (cl, g) ∉ (s.mslot m).poisoned ∨ s.clusterUp cl = false) :
    exec (.ingotRepairDone m cl g ok b) s = .next s := by
  refine congrArg Host.Outcome.next (if_pos ?_)
  rcases h with h | h <;> simp [h]

/-- A repair that counts is of a poisoned frame of a RESIDENT slot on a cluster in service. -/
theorem repair_counts (hp : (cl, g) ∈ (s.mslot m).poisoned) (hm : (s.mslot m).state = .resident) (hu : s.clusterUp cl = true) :
    ¬ (!(s.mslot m).poisoned.contains (cl, g) || decide ((s.mslot m).state ≠ .resident) || !s.clusterUp cl) = true := by
  simp [hp, hm, hu]

theorem exec_ingotRepairDone_failed (hp : (cl, g) ∈ (s.mslot m).poisoned) (hm : (s.mslot m).state = .resident) (hu : s.clusterUp cl = true)
    (hw : settlesLong s = true) (ho : s.faults.orphan = false) :
    exec (.ingotRepairDone m cl g false b) s =
      .next ((s.modMslot m (fun m => { m with state := .broken, brokenAt := s.tick.index })).postEvent St.modelBroken m 0) :=
  congrArg Host.Outcome.next ((if_neg (repair_counts hp hm hu)).trans ((if_neg Bool.false_ne_true).trans (if_pos (by simp [hw, ho]))))

/-- The state in which the frame has been written back, in a spare row where it has been poisoned before. -/
def repairWritten (s : State) (cl g : Nat) (b : List Byte) : State :=
  (if 2 ≤ poisonings s cl g then s.useSpareRow cl (g / 32768) (g % 32768) else s).putBytes (granAddr cl g 0) b

theorem exec_ingotRepairDone_written (hp : (cl, g) ∈ (s.mslot m).poisoned) (hm : (s.mslot m).state = .resident) (hu : s.clusterUp cl = true)
    (hr : s.tick.running = true) (hw : s.tick.inCommit = false) :
    exec (.ingotRepairDone m cl g true b) s = .next (if frameAgrees (repairWritten s cl g b) m cl g then
      ((repairWritten s cl g b).modMslot m (fun x => { x with poisoned := (s.mslot m).poisoned.filter (fun x => x ≠ (cl, g)) })).onPlan (fun p =>
        { p with repairing := if ((s.mslot m).poisoned.filter (fun x => x ≠ (cl, g))).isEmpty then setDel m p.repairing else p.repairing })
      else repairWritten s cl g b) :=
  congrArg Host.Outcome.next ((if_neg (repair_counts hp hm hu)).trans ((if_pos rfl).trans (if_pos (by simp [hr, hw]))))

theorem exec_brokenSlotTimeout_due (hw : s.tick.inCommit = true) (hm : (s.mslot m).state = .broken) (ht : (s.mslot m).brokenAt + 200 ≤ s.tick.index) :
    exec (.brokenSlotTimeout m) s =
      .next ((s.req.table.filter (fun p => p.2.modelSlot = m && reqLive p.2.state)).foldl (fun t p => t.closeSoon p.1 St.faultModel) s) :=
  congrArg Host.Outcome.next (if_pos (by simp [hw, hm, ht]))

theorem exec_brokenSlotTimeout_early (h : (s.mslot m).state ≠ .broken ∨ s.tick.index < (s.mslot m).brokenAt + 200) :
    exec (.brokenSlotTimeout m) s = .next s := by
  refine congrArg Host.Outcome.next (if_neg ?_)
  simp only [Bool.and_eq_true, decide_eq_true_eq]
  rintro ⟨⟨_, hm⟩, ht⟩
  exact h.elim (fun h => h hm) (fun h => absurd ht (Nat.not_le.2 h))

end

/-! ## Sparing (R391 to R393) -/

section
variable {s : State} {st b r n l : Nat}

/-- Outside ORPHAN mode a sparing that is called for is made. -/
theorem sparing_made {ok : Bool} (f : State → State) (hok : ok = true) (ho : s.faults.orphan = false) : s.sparing ok f = f s := by
  simp [State.sparing, hok, ho]

theorem sparing_not {ok : Bool} (f : State → State) (hok : ok = false) : s.sparing ok f = s := by
  simp [State.sparing, hok]

theorem exec_spareRowSwap_inUse (ho : s.faults.orphan = false) (hb : bankInUse s st b = true) (hr : r < 32768) :
    exec (.spareRowSwap st b r) s = .next (s.useSpareRow st b r) :=
  congrArg Host.Outcome.next (sparing_made _ (by simp [hb, hr]) ho)

theorem exec_spareColumnSwap_inUse (ho : s.faults.orphan = false) (hb : bankInUse s st b = true) (hr : r < 64)
    (hl : (s.faults.spareCols.filter (fun c => c.1 = st && c.2.1 = b)).length < 4) :
    exec (.spareColumnSwap st b r) s = .next (s.onFaults (fun f => { f with spareCols := f.spareCols ++ [(st, b, r)] })) :=
  congrArg Host.Outcome.next ((sparing_made _ (by simp [hb, hr]) ho).trans (if_pos hl))

/-- A bank has 32,768 rows. -/
theorem exec_spareSwaps_outside (hr : 32768 ≤ r) : exec (.spareRowSwap st b r) s = .next s ∧ exec (.spareColumnSwap st b r) s = .next s := by
  have hrow : ¬ r < 32768 := Nat.not_lt.2 hr
  have hcol : ¬ r < 64 := by omega
  exact ⟨congrArg Host.Outcome.next (sparing_not _ (by simp [hrow])), congrArg Host.Outcome.next (sparing_not _ (by simp [hcol]))⟩

theorem exec_spareBankCopyDone_first (ho : s.faults.orphan = false) (hb : bankInUse s st b = true) (hn : n < 2) (hs : s.faults.spareBanks = [])
    (hw : s.faults.bankSwaps = []) :
    exec (.spareBankCopyDone st b n) s = .next (s.onFaults (fun f => { f with bankSwaps := [(st, b, n)] })) := by
  refine congrArg Host.Outcome.next ((sparing_made _ (by simp [hb, hn]) ho).trans ((if_pos (by simp [hs, hw])).trans ?_))
  simp [State.onFaults, hw]

theorem exec_tsvSpareSwitch_inUse (ho : s.faults.orphan = false) (hb : bankInUse s st 0 = true) (hl : l < 4608) (hw : s.tick.inCommit = true) :
    exec (.tsvSpareSwitch st l) s = .next (if (s.faults.tsvSpares.filter (fun x => x = (st, l / 64))).length < 2 then
      (s.onFaults (fun f => { f with tsvSpares := f.tsvSpares ++ [(st, l / 64)] })).noteSpares st else s.failPair st) :=
  congrArg Host.Outcome.next (sparing_made _ (by simp [hb, hl, hw]) ho)

theorem exec_bankRetire_inUse (t : Nat) (ho : s.faults.orphan = false) (hb : bankInUse s st b = true) (hr : (st, b) ∉ s.faults.retiredBanks) :
    exec (.bankRetire t st b) s = .next (if poolBanks s.variant ≤ b then (s.atTime t).failPair st else (s.atTime t).retireBank st b) :=
  congrArg Host.Outcome.next (sparing_made (s := s.atTime t) _ (by simp [hb, hr]) ho)

end

/-! ## CLMAP_SWITCH (R395) -/

section
variable {s : State}

theorem exec_clmapSwitch_none (h : s.faults.remapDue = none) : exec .clmapSwitch s = .next s := by
  refine congrArg Host.Outcome.next ?_
  simp only [h]

/-- The shards of the lost clusters are placed on the stacks that the new map gives them. -/
theorem exec_clmapSwitch_places {map : List Nat} (h : s.faults.remapDue = some map) :
    exec .clmapSwitch s = .next ((s.faults.clsToPlace.foldl (fun t c => (((t.models.slots.filter (fun m => m.2.state = .resident)).foldl (fun u m =>
      u.moveShard { stack := nth t.faults.clmap c c, dest := nth map c c } c m.1) t).moveAlloys { stack := nth t.faults.clmap c c, dest := nth map c c } c))
        s).onFaults (fun f => { f with clsToPlace := [] })) := by
  refine congrArg Host.Outcome.next ?_
  simp only [h]

theorem exec_clmapSwitch_placed {map : List Nat} (h : s.faults.remapDue = some map) (hc : s.faults.clsToPlace = []) :
    exec .clmapSwitch s = .next s := by
  rw [exec_clmapSwitch_places h, hc, List.foldl_nil]
  simp only [State.onFaults, ← hc]

end

/-! ## The obligation -/

/-- Settles O60, form by form. -/
theorem dataFaultsAndSpares : Obligations.DataFaultsAndSpares := by
  refine ⟨?byClass, ?waits, ?inWindow, fun s t a n k lost rs h => exec_uncorrectableData_refused h, ?repairFails, ?repairWrites,
    fun s m cl g ok b h => exec_ingotRepairDone_ignored h, fun s m hw ⟨hm, ht⟩ => exec_brokenSlotTimeout_due hw hm ht,
    fun s m h => exec_brokenSlotTimeout_early h, fun s h => rfl, ?swaps, fun s st b n ho ⟨hb, hn⟩ ⟨hs, hw⟩ => exec_spareBankCopyDone_first ho hb hn hs hw,
    fun s st l ho ⟨hb, hl, hw⟩ => exec_tsvSpareSwitch_inUse ho hb hl hw, fun s t st b ho ⟨hb, hr⟩ => exec_bankRetire_inUse t ho hb hr,
    fun s t p => rfl, fun s h => exec_clmapSwitch_none h, fun s map h => exec_clmapSwitch_places h, fun s map h hc => exec_clmapSwitch_placed h hc⟩
  case byClass =>
    rintro s u t a n lost rs h rfl
    exact ⟨exec_uncorrectableData_noted h, exec_uncorrectableData_noted h, exec_uncorrectableData_noted h⟩
  case waits =>
    rintro s u t a n k lost rs h rfl hk hw
    have hout : (lossNoted (s.atTime t) a rs).tick.inCommit = false := hw
    rw [exec_uncorrectableData_noted h, lossByClass_waits _ hk, noteLoss_waits _ hout]
    rfl
  case inWindow =>
    rintro s u t a n k lost rs h rfl hk hw
    have hin : (lossNoted (s.atTime t) a rs).tick.inCommit = true := hw
    rw [exec_uncorrectableData_noted h, lossByClass_waits _ hk, noteLoss_window _ hin, applyLoss_data]
    rfl
  case repairFails =>
    rintro s m cl g b ⟨hp, hm⟩ ⟨hu, hw, hb, ho⟩
    exact exec_ingotRepairDone_failed hp hm hu (by simp [settlesLong, hw, hb]) ho
  case repairWrites =>
    rintro s u m cl g b ⟨hp, hm⟩ ⟨hu, hr, hw⟩ rfl
    exact exec_ingotRepairDone_written hp hm hu hr hw
  case swaps =>
    intro s st b r ho hb
    exact ⟨fun hr => exec_spareRowSwap_inUse ho hb hr, fun hr hl => exec_spareColumnSwap_inUse ho hb hr hl, fun hr => exec_spareSwaps_outside hr⟩

end Sys2Proof.Laws
end

section
/-! PROOFS. Host ports that go down and come up, transfers that fail, flush reads and the MSI-X table (R339, R344, R345, R347, R349, R350, R353, R375;
log 27): an equation for each command. -/

namespace Sys2Proof.Laws

open Sys2Proof Sys2Proof.Machine
set_option deprecated.oldSectionVars true

/-! ## Ports down and up (R349, R350, R353) -/

/-- A change of a port that leaves whether it is up leaves it of every port. -/
theorem portUp_modHport (s : State) (p q : Nat) {f : HostPort → HostPort} (hf : ∀ h, (f h).up = h.up) : (s.modHport p f).portUp q = s.portUp q := by
  simp only [State.portUp, State.hport, State.modHport, onHost_host, nth, List.getElem?_modify]
  cases s.host.ports[q]? with
  | none => rfl
  | some h =>
    by_cases hpq : p = q
    · simp [hpq, hf]
    · simp [hpq]

/-- What the cause of a port's going down takes away: a reset or a loss of bus mastering its memory enable, a reset or a loss of the link its
BAR0. -/
def portCut (c : PortCause) (h : HostPort) : HostPort :=
  { h with memEnable := h.memEnable && !(c = .reset || c = .busMaster), bar := h.bar && !(c = .reset || c = .link) }

section
variable {s : State} {t p g l : Nat} {c : PortCause}

theorem exec_hostPortDown (s : State) (t p : Nat) (c : PortCause) :
    exec (.hostPortDown t p c) s = .next ((((s.atTime t).modHport p (portCut c)).declareDown p).noteSingle) := by
  cases c <;> rfl

theorem portUp_portCut : ((s.atTime t).modHport p (portCut c)).portUp p = s.portUp p :=
  portUp_modHport _ p p (fun _ => rfl)

/-- A port that is up is declared down. -/
theorem exec_hostPortDown_up (h : s.portUp p = true) :
    exec (.hostPortDown t p c) s = .next ((((((((s.atTime t).modHport p (portCut c)).serveTier.modHport p (fun h =>
      { h with up := false, declared := true, flushes := [], cache := [] })).onHost (fun h => { h with rebind := true })).noteSingle).portsChanged).capChanged).noteSingle) := by
  rw [exec_hostPortDown, State.declareDown, if_pos (portUp_portCut.trans h)]

theorem exec_hostPortDown_down (h : s.portUp p = false) :
    exec (.hostPortDown t p c) s = .next (((s.atTime t).modHport p (portCut c)).noteSingle) := by
  rw [exec_hostPortDown, State.declareDown, if_neg (ne_true_of_eq_false (portUp_portCut.trans h))]

/-- A port that trains has its BAR0 and its memory enable, at a rate and a width. -/
def portTrains (s : State) (p g l : Nat) : State :=
  (s.serveTier.modHport p (fun h => { h with bar := true, memEnable := true, gts := g, lanes := l })).noteSingle

theorem exec_hostPortUp_trains (hm : mayTrain s p = true) (hl : linkOk g l = true) :
    exec (.hostPortUp t p g l) s = .next (if bit s.regs.hxCtl.toNat p then
      ((((portTrains (s.atTime t) p g l).modHport p (fun h => { h with up := true })).onHost (fun h => { h with rejoin := h.rejoin || s.noPort })).portsChanged).capChanged
      else portTrains (s.atTime t) p g l) :=
  congrArg Host.Outcome.next (if_pos (by simp [hm, hl]))

theorem exec_hostPortUp_ignored (h : mayTrain s p = false ∨ linkOk g l = false) : exec (.hostPortUp t p g l) s = .next (s.atTime t) :=
  congrArg Host.Outcome.next (if_neg (by rcases h with h | h <;> simp [h]))

end

/-! ## Flush reads and the MSI-X table (R345, R347) -/

section
variable {s : State} {t p : Nat}

theorem exec_flushReadComplete_returns {k z : Nat} {l : List (Nat × Nat)} (hp : s.portUp p = true) (hl : (s.hport p).flushes = (k, z) :: l) :
    exec (.flushReadComplete t p) s = .next (((((s.atTime t).modHport p (fun h => { h with flushes := l })).closeTransit .host (64 + p)).onReq (fun r =>
      { r with log := r.log.map (fun w => if w.port = p && w.issued ≤ k then { w with confirmed := true } else w) })).onHost (fun h =>
      { h with posted := h.posted.filter (fun w => !(w.port = p && w.issued ≤ k)) })) := by
  refine congrArg Host.Outcome.next ?_
  simp only [portUp_atTime, hport_atTime, hp, hl, Bool.not_true, Bool.false_eq_true, if_false]

theorem exec_flushReadComplete_none (h : s.portUp p = false ∨ (s.hport p).flushes = []) : exec (.flushReadComplete t p) s = .next (s.atTime t) := by
  refine congrArg Host.Outcome.next ?_
  simp only [portUp_atTime, hport_atTime]
  rcases h with h | h
  · simp only [h, Bool.not_false, if_true]
  · simp only [h, ite_self]

theorem exec_msixTableWrite_reached {a : Nat} {v : BitVec 32} (hb : s.barAny = true) (hw : s.start.warmRunning = false) :
    exec (.msixTableWrite a v) s = .next (s.msixWrite a v.toNat) :=
  congrArg Host.Outcome.next (if_neg (by simp [hb, hw]))

theorem exec_msixTableWrite_unreached {a : Nat} {v : BitVec 32} (h : s.barAny = false ∨ s.start.warmRunning = true) :
    exec (.msixTableWrite a v) s = .next s :=
  congrArg Host.Outcome.next (if_pos (by rcases h with h | h <;> simp [h]))

end

/-! ## The obligation -/

/-- Settles O55, form by form; what becomes of a transfer that fails is its row of Table 15-4, kind by kind. -/
theorem hostPorts : Obligations.HostPorts := by
  refine ⟨?down, fun s t p c h => exec_hostPortDown_down h, ?upEnabled, ?upOnly, fun s t p g l h => exec_hostPortUp_ignored h,
    fun s t n q => ⟨rfl, rfl, rfl, rfl, rfl, rfl, rfl⟩, fun s t p page => rfl, fun s t p k z l hp hl => exec_flushReadComplete_returns hp hl,
    fun s t p h => exec_flushReadComplete_none h, fun s a v ⟨hb, hw⟩ => exec_msixTableWrite_reached hb hw,
    fun s a v h => exec_msixTableWrite_unreached h⟩
  case down =>
    rintro s u t p c h rfl
    exact exec_hostPortDown_up h
  case upEnabled =>
    rintro s u t p g l ⟨hm, hl⟩ hb rfl
    rw [exec_hostPortUp_trains hm hl, if_pos hb]
    rfl
  case upOnly =>
    rintro s t p g l ⟨hm, hl⟩ hb
    rw [exec_hostPortUp_trains hm hl, if_neg (ne_true_of_eq_false hb)]
    rfl

end Sys2Proof.Laws
end

section
/-! PROOFS. The timers of a Gelcon link, what a violation of Table 14-10 costs its port (R312, R315, R317, R330), and ports that train, lose and
regain lanes, and fall (R322, R328, R329, R337; log 11): an equation for each command in each case. -/

namespace Sys2Proof.Laws

open Sys2Proof Sys2Proof.Machine
set_option deprecated.oldSectionVars true

/-! ## Timers (R312, R314, R315) -/

section
variable {s : State} {t p : Nat}

theorem exec_nakRepeat_due (hw : (s.gport p).nakWait = true) (ht : (s.gport p).trained = true) (hn : (s.gport p).nakAt + 1000 ≤ (s.atTime t).now) :
    exec (.nakRepeat t p) s = .next ((s.atTime t).sendNak p 0 0) :=
  congrArg Host.Outcome.next (if_pos (by simp only [gport_atTime, hw, ht, hn, decide_true, Bool.and_self]))

theorem exec_nakRepeat_idle (h : (s.gport p).nakWait = false ∨ (s.atTime t).now < (s.gport p).nakAt + 1000) :
    exec (.nakRepeat t p) s = .next (s.atTime t) := by
  refine congrArg Host.Outcome.next (if_neg ?_)
  rw [gport_atTime]
  rcases h with h | h
  · simp [h]
  · simp [Nat.not_le.mpr h]

theorem exec_resendTimeout_due {f : Flit} {l : List Flit} (hr : (s.gport p).resend = f :: l) (ha : (s.gport p).ackAt + 4000 ≤ (s.atTime t).now) :
    exec (.resendTimeout t p) s = .next ((s.atTime t).resendFrom p f.seq) := by
  refine congrArg Host.Outcome.next ?_
  simp only [gport_atTime, hr]
  exact if_pos ha

theorem exec_resendTimeout_idle (h : (s.gport p).resend = [] ∨ (s.atTime t).now < (s.gport p).ackAt + 4000) :
    exec (.resendTimeout t p) s = .next (s.atTime t) := by
  refine congrArg Host.Outcome.next ?_
  rw [gport_atTime]
  rcases hr : (s.gport p).resend with _ | ⟨f, l⟩
  · rfl
  · exact if_neg (by simpa [hr] using h)

theorem exec_ackTimer (s : State) (t p : Nat) :
    exec (.ackTimer t p) s = .next (if (s.gport p).trained then (s.atTime t).sendAck p else s.atTime t) := rfl

theorem exec_creditReturnTimer (s : State) (t p : Nat) :
    exec (.creditReturnTimer t p) s =
      .next (if (s.gport p).trained then ((s.atTime t).draw.modPort p (lendPool s.freeCtr)).returnCredits p else s.atTime t) := rfl

end

/-! ## Violations (R317, R330, Table 14-10) -/

section
variable {s : State} {t p c v : Nat} {k : Packet}

/-- Of the causes with an ERR, 8 answers alone. -/
theorem badPacket_answered : s.badPacket p 8 k = s.sendErr k 8 := rfl

/-- Any other but 0 discards the packet's stream and counts as well. -/
theorem badPacket_counted (h0 : c ≠ 0) (h8 : c ≠ 8) :
    s.badPacket p c k = ((s.sendErr k c).resyncVc p (2 * (k.tc % 4) + k.hop % 2)).violate p := by
  rw [State.badPacket, if_neg (by simp [h0, h8])]

theorem exec_partnerViolation_dead (h : (s.gport p).trained = false ∨ (s.gport p).quarantined = true) :
    exec (.partnerViolation t p c v k) s = .next (s.atTime t) :=
  congrArg Host.Outcome.next (if_pos (by rw [gport_atTime]; rcases h with h | h <;> simp [h]))

/-- What each cause of Table 14-10 does at a live port. -/
theorem exec_partnerViolation_live (h : (s.gport p).trained = true ∧ (s.gport p).quarantined = false) :
    exec (.partnerViolation t p c v k) s = .next (
      if c = 0 then (s.atTime t).gap p
      else if c = 1 then
        if 8 ≤ v then s.atTime t else (((s.atTime t).modPort p (modVc v (fun v => { v with dropping := true }))).sendNak p 1 v).violate p
      else if c = 7 || c = 10 then (s.atTime t).violate p
      else if c ≤ 9 then (s.atTime t).badPacket p c k
      else s.atTime t) :=
  congrArg Host.Outcome.next (if_neg (by simp [h]))

/-- A violation raises the port's count of them, and that of its window, which starts anew once it has run out. -/
def violationCounted (s : State) (p : Nat) : State :=
  (s.countPort p (fun c => { c with violations := inc64 c.violations })).modPort p (fun g =>
    if g.violStart + rf s.regs.glViol 31 16 * 1000000 ≤ s.now then { g with viol := 1, violStart := s.now } else { g with viol := g.viol + 1 })

theorem violate_eq (s : State) (p : Nat) :
    s.violate p =
      if rf s.regs.glViol 7 0 < ((violationCounted s p).gport p).viol ∧ ((violationCounted s p).gport p).quarantined = false then
        (((violationCounted s p).portFalls p (fun g => { g with quarantined := true, trained := false })).countPort p
          (fun c => { c with quarantines := (c.quarantines + 1) % 256 })).postEvent St.gelconQuarantine p 0
      else violationCounted s p :=
  if_congr (by simp only [Bool.and_eq_true, decide_eq_true_eq, Bool.not_eq_true']; exact Iff.rfl) rfl rfl

end

/-- Settles O53, timer by timer and cause by cause. -/
theorem linkTimersAndViolations : Obligations.LinkTimersAndViolations := by
  refine ⟨fun s t p ⟨hw, ht⟩ hn => exec_nakRepeat_due hw ht hn, fun s t p h => exec_nakRepeat_idle h, fun s t p f l hr ha => exec_resendTimeout_due hr ha,
    fun s t p h => exec_resendTimeout_idle h, ?trained, ?untrained, ?causes, fun s t p c v k h => exec_partnerViolation_dead h, ?violation⟩
  case trained =>
    intro s t p h
    rw [exec_ackTimer, exec_creditReturnTimer, if_pos h, if_pos h]
    exact ⟨rfl, rfl⟩
  case untrained =>
    intro s t p h
    rw [exec_ackTimer, exec_creditReturnTimer, h]
    exact ⟨rfl, rfl⟩
  case causes =>
    intro s t p c v k h
    refine ⟨exec_partnerViolation_live h, exec_partnerViolation_live h, exec_partnerViolation_live h, exec_partnerViolation_live h, fun hv => ?_, fun hc => ?_⟩
    · rw [exec_partnerViolation_live h, if_neg (by decide), if_pos rfl, if_neg (Nat.not_le.mpr hv)]
    · have hcases : (c ≠ 0 ∧ c ≠ 8) ∧ c ≠ 1 ∧ ¬(decide (c = 7) || decide (c = 10)) = true ∧ c ≤ 9 := by
        revert hc; revert c; decide
      obtain ⟨⟨h0, h8⟩, h1, h7, h9⟩ := hcases
      rw [exec_partnerViolation_live h, if_neg h0, if_neg h1, if_neg h7, if_pos h9, badPacket_counted h0 h8]
  case violation =>
    rintro s u p rfl
    exact violate_eq s p

/-! ## Lanes (R328) -/

section
variable {s : State} {t p l f c : Nat}

theorem exec_laneRetire_retires (hl : bit (maskNext (s.gport p)) l = true) (hp : l < portLanes p) (hc : c = 0 ∨ 16 < c) :
    exec (.laneRetire t p ⟨l, c⟩ f) s = .next ((((((s.atTime t).modPort p (fun g => { g with retired := setAdd l g.retired })).countPort p
      (fun c => { c with laneRetirements := (c.laneRetirements + 1) % 65536 })).sendPlain p 6 (laneData (maskNext (s.gport p) - 2 ^ l) f)).setLanes p
        (maskNext (s.gport p) - 2 ^ l) f)) :=
  congrArg Host.Outcome.next (if_pos (by simpa [hl, hp] using hc))

theorem exec_laneRetire_keeps (h : bit (maskNext (s.gport p)) l = false ∨ (0 < c ∧ c ≤ 16)) :
    exec (.laneRetire t p ⟨l, c⟩ f) s = .next (s.atTime t) := by
  refine congrArg Host.Outcome.next (if_neg ?_)
  rw [gport_atTime]
  rcases h with h | ⟨hpos, hle⟩
  · simp [h]
  · simp [Nat.pos_iff_ne_zero.mp hpos, Nat.not_lt.mpr hle]

/-- A lane that passes rejoins the mask that is to be, which has it already where its retirement has been taken back. -/
def rejoined (g : Port) (l : Nat) : Nat := if bit (maskNext g) l then maskNext g else maskNext g + 2 ^ l

/-- The port with the lane no longer retired. -/
def unretired (s : State) (p l : Nat) : State := s.modPort p (fun g => { g with retired := setDel l g.retired })

theorem exec_laneRetrain_passes (hr : (s.gport p).retired.contains l = true) (hp : (s.gport p).trained = true ∧ (s.gport p).quarantined = false) :
    exec (.laneRetrain t p l f true) s = .next ((((unretired (s.atTime t) p l).sendPlain p 6 (laneData (rejoined (s.gport p) l) f)).setLanes p
      (rejoined (s.gport p) l) f).sendPlain p 5 (ownIdent (unretired (s.atTime t) p l) p)) :=
  congrArg Host.Outcome.next (if_pos (by simp only [gport_atTime, hr, hp, Bool.and_self, Bool.not_false]))

theorem exec_laneRetrain_keeps {ok : Bool} (h : ok = false ∨ (s.gport p).retired.contains l = false) :
    exec (.laneRetrain t p l f ok) s = .next (s.atTime t) :=
  congrArg Host.Outcome.next (if_neg (by rw [gport_atTime]; rcases h with h | h <;> simp only [h, Bool.false_and, Bool.and_false, Bool.false_eq_true, not_false_eq_true]))

/-- A new mask holds at once where an active lane has come to its frame count, and takes the port down where it is 0. -/
theorem setLanes_eq {u : State} {m : Nat} (hu : u = s.modPort p (fun g => { g with laneAt := some (m, f) })) :
    s.setLanes p m f =
      if m = 0 then u.portFalls p (fun g => { g with trained := false, laneMask := 0, laneAt := none })
      else if (u.gport p).frames.any (fun x => bit (u.gport p).laneMask x.1 && !frameBehind x.2 f) then
        u.modPort p (fun g => { g with laneMask := m, laneAt := none })
      else u := by
  have hat : (u.gport p).laneAt = some (m, f) := by rw [hu, gport_modPort_self]
  rw [State.setLanes, ← hu, State.takeMask, hat]

end

/-! ## Training, and a port that falls (R322, R329, R337) -/

section
variable {s : State} {t p : Nat}

/-- A port as training leaves it: on its mask of lanes, with fresh counts and the violations of its window kept. -/
def trainedPort (old : Port) (p m : Nat) : Port :=
  { trained := true, laneMask := m, cabled := popCount m 4, viol := old.viol, violStart := old.violStart,
    retired := (List.range (portLanes p)).filter (fun l => !bit m l), vcs := freshVcs }

theorem exec_portTrained_trains {lanes : Nat} (hp : p < portCount s.variant) (hm : lanes % 2 ^ portLanes p ≠ 0) (hg : bit s.regs.glCtl.toNat 0 = true)
    (hq : (s.gport p).quarantined = false) (hd : linkDieBad s p = false) (ho : s.start.state ≠ .off) :
    exec (.portTrained t p lanes) s =
      .next (((s.atTime t).portFalls p (fun _ => trainedPort (s.gport p) p (lanes % 2 ^ portLanes p))).sendPlain p 5 (ownIdent (s.atTime t) p)) :=
  congrArg Host.Outcome.next (if_pos (by simp [hp, hm, hg, hq, hd, ho]))

theorem exec_portTrained_ignored {lanes : Nat} (h : portCount s.variant ≤ p ∨ lanes % 2 ^ portLanes p = 0 ∨ (s.gport p).quarantined = true) :
    exec (.portTrained t p lanes) s = .next (s.atTime t) := by
  refine congrArg Host.Outcome.next (if_neg ?_)
  rcases h with h | h | h
  · simp [Nat.not_lt.mpr h]
  · simp [h]
  · simp [h]

theorem exec_gelconPortDown (s : State) (t p : Nat) :
    exec (.gelconPortDown t p) s =
      .next (if (s.gport p).trained then (s.atTime t).portFalls p (fun g => { g with trained := false, laneMask := 0 }) else s.atTime t) := rfl

end

/-- Settles O54, command by command. -/
theorem portsAndLanes : Obligations.PortsAndLanes := by
  refine ⟨?trains, fun s t p lanes h => exec_portTrained_ignored h, fun s t p l f c ⟨hl, hp⟩ hc => exec_laneRetire_retires hl hp hc,
    fun s t p l f c h => exec_laneRetire_keeps h, ?rejoins, fun s t p l f ok h => exec_laneRetrain_keeps h, ?falls, ?stays, ?back,
    fun s u p m f hu => setLanes_eq hu⟩
  case trains =>
    rintro s t p lanes m g hp ⟨rfl, hm⟩ hg ⟨hq, hd, ho⟩ rfl
    exact exec_portTrained_trains hp hm hg hq hd ho
  case rejoins =>
    rintro s u t p l f hr hp hb rfl
    rw [exec_laneRetrain_passes hr hp, rejoined, if_neg (ne_true_of_eq_false hb), unretired]
  case back =>
    rintro s u t p l f hr hp hb rfl
    rw [exec_laneRetrain_passes hr hp, rejoined, if_pos hb, unretired]
  case falls =>
    intro s t p h
    rw [exec_gelconPortDown, if_pos h]
  case stays =>
    intro s t p h
    rw [exec_gelconPortDown, if_neg (ne_true_of_eq_false h)]

end Sys2Proof.Laws
end

section
/-! PROOFS. Flits (R309 to R312, R314, R315, R317, R322, R328, R330; logs 11, 12): what a flit comes to by its FEC count, its CRC, its type and its
sequence number, and what the good ones of each type do. -/

namespace Sys2Proof.Laws

open Sys2Proof Sys2Proof.Machine
set_option deprecated.oldSectionVars true

/-! ## What a flit comes to -/

section
variable {s : State} {t p ft : Nat} {f : FlitIn} {k : State → State}

/-- A port that takes flits: trained, and not quarantined. -/
abbrev Listens (s : State) (p : Nat) : Prop := (s.gport p).trained = true ∧ (s.gport p).quarantined = false

theorem flitIn_deaf (h : (s.gport p).trained = false ∨ (s.gport p).quarantined = true) : s.flitIn p ft f k = s := by
  rw [State.flitIn, if_pos (by rcases h with h | h <;> simp [h])]

/-- A sequenced flit of the expected number is taken in order, another waits while a lane is behind it and is a gap where none is; one that
is not sequenced has its effect. -/
def goodFlit (s : State) (p ft : Nat) (f : FlitIn) (k : State → State) : State :=
  if !sequenced ft then k (flitFields s p f)
  else if flSeq f.bytes = ((flitSeen s p f).gport p).expect then ((flitFields s p f).accept p f.bytes).flitBody p f.bytes
  else if laneBehind ((flitSeen s p f).gport p) f.frame then
    (flitSeen s p f).modPort p (fun g => { g with held := g.held ++ [(f.frame, f.bytes)] })
  else (flitSeen s p f).gap p

theorem flitIn_listens (h : Listens s p) :
    s.flitIn p ft f k =
      if 0 < f.fec.2 then flitSeen s p f
      else if !flCrcOk f.bytes then ((flitSeen s p f).countPort p (fun c => { c with crcErrors := inc64 c.crcErrors })).gap p
      else if 7 ≤ flType f.bytes then (flitSeen s p f).violate p
      else if flType f.bytes ≠ ft then flitSeen s p f
      else afterFlit p (goodFlit s p ft f k) := by
  obtain ⟨ht, hq⟩ := h
  rw [State.flitIn, if_neg (by simp [ht, hq])]
  rfl

theorem flitIn_uncorrectable (h : Listens s p) (he : 0 < f.fec.2) : s.flitIn p ft f k = flitSeen s p f := by
  rw [flitIn_listens h, if_pos he]

theorem flitIn_badCrc (h : Listens s p) (he : f.fec.2 = 0) (hc : flCrcOk f.bytes = false) :
    s.flitIn p ft f k = ((flitSeen s p f).countPort p (fun c => { c with crcErrors := inc64 c.crcErrors })).gap p := by
  rw [flitIn_listens h, if_neg (by simp [he]), if_pos (by simp [hc])]

/-- With a good CRC the type decides. -/
theorem flitIn_sound (h : Listens s p) (he : f.fec.2 = 0) (hc : flCrcOk f.bytes = true) :
    s.flitIn p ft f k =
      if 7 ≤ flType f.bytes then (flitSeen s p f).violate p
      else if flType f.bytes ≠ ft then flitSeen s p f
      else afterFlit p (goodFlit s p ft f k) := by
  rw [flitIn_listens h, if_neg (by simp [he]), if_neg (by simp [hc])]

theorem flitIn_reserved (h : Listens s p) (he : f.fec.2 = 0) (hc : flCrcOk f.bytes = true) (hty : 7 ≤ flType f.bytes) :
    s.flitIn p ft f k = (flitSeen s p f).violate p := by
  rw [flitIn_sound h he hc, if_pos hty]

theorem flitIn_otherType (h : Listens s p) (he : f.fec.2 = 0) (hc : flCrcOk f.bytes = true) (hty : flType f.bytes < 7) (hne : flType f.bytes ≠ ft) :
    s.flitIn p ft f k = flitSeen s p f := by
  rw [flitIn_sound h he hc, if_neg (Nat.not_le.mpr hty), if_pos hne]

theorem flitIn_good (hft : ft < 7) (h : FlitGood s p ft f) : s.flitIn p ft f k = afterFlit p (goodFlit s p ft f k) := by
  obtain ⟨hl, he, hc, hty⟩ := h
  rw [flitIn_sound hl he hc, hty, if_neg (Nat.not_le.mpr hft), if_neg (by simp)]

/-- A good flit without a sequence number delivers its fields and what its type carries. -/
theorem flitIn_unsequenced (hft : ft < 7) (hs : sequenced ft = false) (h : FlitGood s p ft f) :
    s.flitIn p ft f k = afterFlit p (k (flitFields s p f)) := by
  rw [flitIn_good hft h, goodFlit, hs]
  rfl

/-- A good sequenced flit in its turn is accepted with what it carries. -/
theorem flitIn_inOrder (hft : ft < 7) (hs : sequenced ft = true) (h : FlitComes s p ft f) :
    s.flitIn p ft f k = afterFlit p (((flitFields s p f).accept p f.bytes).flitBody p f.bytes) := by
  obtain ⟨hg, hseq⟩ := h
  rw [flitIn_good hft hg, goodFlit, hs, if_neg (by simp), if_pos hseq]

theorem flitIn_waits (hft : ft < 7) (hs : sequenced ft = true) (h : FlitGood s p ft f) (hseq : flSeq f.bytes ≠ ((flitSeen s p f).gport p).expect)
    (hb : laneBehind ((flitSeen s p f).gport p) f.frame = true) :
    s.flitIn p ft f k = afterFlit p ((flitSeen s p f).modPort p (fun g => { g with held := g.held ++ [(f.frame, f.bytes)] })) := by
  rw [flitIn_good hft h, goodFlit, hs, if_neg (by simp), if_neg hseq, if_pos hb]

theorem flitIn_gap (hft : ft < 7) (hs : sequenced ft = true) (h : FlitGood s p ft f) (hseq : flSeq f.bytes ≠ ((flitSeen s p f).gport p).expect)
    (hb : laneBehind ((flitSeen s p f).gport p) f.frame = false) :
    s.flitIn p ft f k = afterFlit p ((flitSeen s p f).gap p) := by
  rw [flitIn_good hft h, goodFlit, hs, if_neg (by simp), if_neg hseq, if_neg (ne_true_of_eq_false hb)]

/-- What every flit comes to whatever its type and its effect, the seven flit commands do. -/
theorem exec_flit_of_flitIn {u : State} (tags : List (BitVec 8)) (h : ∀ ft k, (s.atTime t).flitIn p ft f k = u) :
    exec (.flitData t p f) s = .next u ∧ exec (.flitIdle t p f) s = .next u ∧ exec (.flitCredit t p f) s = .next u ∧
      exec (.flitNak t p f) s = .next u ∧ exec (.flitVcReset t p f) s = .next u ∧ exec (.flitLane t p f) s = .next u ∧
      exec (.flitIdent t p f tags) s = .next u :=
  ⟨congrArg Host.Outcome.next (h 1 _), congrArg Host.Outcome.next (h 0 _), congrArg Host.Outcome.next (h 2 _), congrArg Host.Outcome.next (h 3 _),
    congrArg Host.Outcome.next (h 4 _), congrArg Host.Outcome.next (h 6 _), congrArg Host.Outcome.next (h 5 _)⟩

end

/-! ## What a sequenced flit carries (R314, R315, R317) -/

section
variable {s : State} {t p : Nat} {f : FlitIn} {b : List Byte}

/-- The credit counts of the eight virtual channels that a FLIT_CREDIT gives. -/
def creditsTaken (d : List Byte) (g : Port) : Port :=
  (List.range 8).foldl (fun g n => modVc n (fun v => { v with allowed := field d (2 * n) 2 }) g) g

theorem flitBody_data (h : flType b = 1) : s.flitBody p b = s.dataFlit p b := by
  rw [State.flitBody, if_pos h]

theorem flitBody_credit (h : flType b = 2) :
    s.flitBody p b = if allZero ((flData b).drop 16) then s.modPort p (creditsTaken (flData b)) else s.violate p := by
  rw [State.flitBody, if_neg (by simp [h]), if_pos h]
  rfl

theorem flitBody_vcReset (h : flType b = 4) :
    s.flitBody p b =
      if allZero ((flData b).drop 1) && field (flData b) 0 1 < 8 then
        s.modPort p (modVc (field (flData b) 0 1) (restartReceive (field (flData b) 0 1)))
      else s.violate p := by
  rw [State.flitBody, if_neg (by simp [h]), if_neg (by simp [h])]
  rfl

theorem exec_flitData_comes (h : FlitComes (s.atTime t) p 1 f) :
    exec (.flitData t p f) s = .next (afterFlit p (((flitFields (s.atTime t) p f).accept p f.bytes).dataFlit p f.bytes)) := by
  obtain ⟨hgood, -⟩ := id h
  obtain ⟨-, -, -, hty⟩ := hgood
  exact congrArg Host.Outcome.next ((flitIn_inOrder (by decide) (by decide) h).trans (congrArg (afterFlit p) (flitBody_data hty)))

theorem exec_flitCredit_comes (h : FlitComes (s.atTime t) p 2 f) :
    exec (.flitCredit t p f) s = .next (afterFlit p (
      if allZero ((flData f.bytes).drop 16) then ((flitFields (s.atTime t) p f).accept p f.bytes).modPort p (creditsTaken (flData f.bytes))
      else ((flitFields (s.atTime t) p f).accept p f.bytes).violate p)) := by
  obtain ⟨hgood, -⟩ := id h
  obtain ⟨-, -, -, hty⟩ := hgood
  exact congrArg Host.Outcome.next ((flitIn_inOrder (by decide) (by decide) h).trans (congrArg (afterFlit p) (flitBody_credit hty)))

theorem exec_flitVcReset_comes (h : FlitComes (s.atTime t) p 4 f) :
    exec (.flitVcReset t p f) s = .next (afterFlit p (
      if allZero ((flData f.bytes).drop 1) && field (flData f.bytes) 0 1 < 8 then
        ((flitFields (s.atTime t) p f).accept p f.bytes).modPort p (modVc (field (flData f.bytes) 0 1) (restartReceive (field (flData f.bytes) 0 1)))
      else ((flitFields (s.atTime t) p f).accept p f.bytes).violate p)) := by
  obtain ⟨hgood, -⟩ := id h
  obtain ⟨-, -, -, hty⟩ := hgood
  exact congrArg Host.Outcome.next ((flitIn_inOrder (by decide) (by decide) h).trans (congrArg (afterFlit p) (flitBody_vcReset hty)))

end

/-! ## What the others carry (R312, R322, R328, Table 14-10) -/

section
variable {s : State} {t p : Nat} {f : FlitIn}

theorem exec_flitIdle_good (h : FlitGood (s.atTime t) p 0 f) :
    exec (.flitIdle t p f) s = .next (afterFlit p (flitFields (s.atTime t) p f)) :=
  congrArg Host.Outcome.next (flitIn_unsequenced (by decide) (by decide) h)

/-- A virtual channel's sender starts anew: its flits that wait go, and the receiver is told. -/
def sendRestarted (u : State) (p n : Nat) : State :=
  (u.modPort p (fun g => { modVc n (restartSend n) g with txq := g.txq.filter (fun f => !(f.ftype = 1 && f.vc = n)) })).queueFlits p
    [{ ftype := 4, data := leBytes 1 n }]

/-- What a FLIT_NAK with clean reserved bytes does, by its cause. -/
def nakTaken (p : Nat) (d : List Byte) (u : State) : State :=
  if field d 0 1 = 1 && field d 1 1 < 8 then sendRestarted u p (field d 1 1)
  else if field d 0 1 = 0 then u.resendFrom p (field d 2 2 % 4096)
  else u

theorem exec_flitNak_good (h : FlitGood (s.atTime t) p 3 f) :
    exec (.flitNak t p f) s = .next (afterFlit p (
      if allZero ((flData f.bytes).drop 4) then nakTaken p (flData f.bytes) (flitFields (s.atTime t) p f) else (flitFields (s.atTime t) p f).violate p)) :=
  congrArg Host.Outcome.next (flitIn_unsequenced (by decide) (by decide) h)

/-- What a FLIT_LANE with clean reserved bytes does: the port takes the mask it names, and answers one that is not its own. -/
def laneTaken (p m frame : Nat) (u : State) : State :=
  if m = maskNext (u.gport p) then u.setLanes p m frame else (u.sendPlain p 6 (laneData m frame)).setLanes p m frame

theorem exec_flitLane_good (h : FlitGood (s.atTime t) p 6 f) :
    exec (.flitLane t p f) s = .next (afterFlit p (
      if allZero ((flData f.bytes).drop 5) then
        laneTaken p (field (flData f.bytes) 0 1 % 2 ^ portLanes p) (field (flData f.bytes) 1 4) (flitFields (s.atTime t) p f)
      else (flitFields (s.atTime t) p f).violate p)) :=
  congrArg Host.Outcome.next (flitIn_unsequenced (by decide) (by decide) h)

/-- The port with its peer's IDENT taken. -/
def identTaken (u : State) (p : Nat) (d : List Byte) : State :=
  u.modPort p (fun g => { g with up := g.laneMask ≠ 0, miscabled := false, peer := field d 0 2 % 512 })

theorem exec_flitIdent_good {tags : List (BitVec 8)} (h : FlitGood (s.atTime t) p 5 f) {u : State} (hu : u = flitFields (s.atTime t) p f) :
    exec (.flitIdent t p f tags) s = .next (afterFlit p (
      if tagsOk u p (flData f.bytes) tags && identOk u p (flData f.bytes) then
        if (u.gport p).up then identTaken u p (flData f.bytes) else (identTaken u p (flData f.bytes)).reportPorts
      else u.miscable p)) := by
  subst hu
  exact congrArg Host.Outcome.next (flitIn_unsequenced (by decide) (by decide) h)

end

/-! ## Flits that wait, and gaps (R311, R312) -/

section
variable {s : State} {p n : Nat} {h : Nat × List (BitVec 8)}

theorem drainHeld_expected (hf : (s.gport p).held.find? (fun h => flSeq h.2 = (s.gport p).expect) = some h) :
    drainHeld p (n + 1) s = drainHeld p n ((s.modPort p (fun g => { g with held := g.held.erase h })).inOrderFlit p h.2) := by
  simp only [drainHeld, hf]

theorem drainHeld_late (hn : (s.gport p).held.find? (fun h => flSeq h.2 = (s.gport p).expect) = none)
    (hf : (s.gport p).held.find? (fun h => !laneBehind (s.gport p) h.1) = some h) :
    drainHeld p (n + 1) s = drainHeld p n ((s.modPort p (fun g => { g with held := g.held.erase h })).gap p) := by
  simp only [drainHeld, hn, hf]

theorem gap_waiting (h : (s.gport p).nakWait = true) : s.gap p = s := if_pos h

theorem gap_first (h : (s.gport p).nakWait = false) :
    s.gap p = ((s.countPort p (fun c => { c with seqGaps := inc64 c.seqGaps })).modPort p (fun g => { g with nakWait := true })).sendNak p 0 0 :=
  if_neg (ne_true_of_eq_false h)

end

/-! ## The obligation -/

/-- Settles O52: by what a flit comes to, then type by type. -/
theorem flits : Obligations.Flits := by
  refine ⟨?data, ?idle, ?credit, ?vcReset, ?creditDirty, ?vcResetDirty, ?nakDirty, ?laneDirty, ?nakResend, ?nakRestart, ?identBad, ?identUp,
    ?identDown, ?laneSame, ?laneOther, fun s t p f tags h => exec_flit_of_flitIn tags (fun ft k => flitIn_deaf h),
    fun s t p f tags h he => exec_flit_of_flitIn tags (fun ft k => flitIn_uncorrectable h he), ?badCrc, ?reserved, ?otherType, ?waits, ?gap,
    fun s p n h hf => drainHeld_expected hf, fun s p n h hn hf => drainHeld_late hn hf, fun s p h => gap_waiting h, fun s p h => gap_first h⟩
  case data =>
    rintro s u t p f h rfl
    exact exec_flitData_comes h
  case idle =>
    rintro s u t p f h rfl
    exact exec_flitIdle_good h
  case credit =>
    rintro s u t p f h hz rfl
    rw [exec_flitCredit_comes h, if_pos hz]
    rfl
  case vcReset =>
    rintro s u t p f h ⟨hz, hn⟩ rfl
    rw [exec_flitVcReset_comes h, if_pos (by rw [hz, Bool.true_and]; exact decide_eq_true hn)]
  case creditDirty =>
    rintro s u t p f h hz rfl
    rw [exec_flitCredit_comes h, if_neg (ne_true_of_eq_false hz)]
  case vcResetDirty =>
    rintro s u t p f h hd rfl
    have hdirty : ¬(allZero ((flData f.bytes).drop 1) && decide (field (flData f.bytes) 0 1 < 8)) = true := by
      rcases hd with hz | hn
      · rw [hz, Bool.false_and]
        exact Bool.false_ne_true
      · rw [decide_eq_false (Nat.not_lt.mpr hn), Bool.and_false]
        exact Bool.false_ne_true
    rw [exec_flitVcReset_comes h, if_neg hdirty]
  case nakDirty =>
    rintro s u t p f h hz rfl
    rw [exec_flitNak_good h, if_neg (ne_true_of_eq_false hz)]
  case laneDirty =>
    rintro s u t p f h hz rfl
    rw [exec_flitLane_good h, if_neg (ne_true_of_eq_false hz)]
  case nakResend =>
    rintro s u t p f h hz h0 rfl
    rw [exec_flitNak_good h, if_pos hz, nakTaken, if_neg (by simp [h0]), if_pos h0]
  case nakRestart =>
    rintro s u t p n f h hz ⟨h1, rfl, hn⟩ rfl
    rw [exec_flitNak_good h, if_pos hz, nakTaken, if_pos (by simp [h1, hn])]
    rfl
  case identBad =>
    intro s u t p f tags h hu hbad
    rw [exec_flitIdent_good h hu, if_neg (by rcases hbad with hb | hb <;> simp [hb])]
  case identUp =>
    rintro s u t p f tags h hu ⟨ht, hi⟩ hup
    rw [exec_flitIdent_good h hu, if_pos (by simp [ht, hi]), if_pos hup]
    rfl
  case identDown =>
    rintro s u t p f tags h hu ⟨ht, hi⟩ hup
    rw [exec_flitIdent_good h hu, if_pos (by simp [ht, hi]), if_neg (ne_true_of_eq_false hup)]
    rfl
  case laneSame =>
    rintro s u t p f h hz rfl hm
    rw [exec_flitLane_good h, if_pos hz, laneTaken, if_pos hm, hm]
  case laneOther =>
    rintro s u t p m f h hz rfl ⟨rfl, hm⟩
    rw [exec_flitLane_good h, if_pos hz, laneTaken, if_neg hm]
  case badCrc =>
    rintro s u t p f tags h ⟨he, hc⟩ rfl
    exact exec_flit_of_flitIn tags (fun ft k => flitIn_badCrc h he hc)
  case reserved =>
    rintro s t p f tags h ⟨he, hc, hty⟩
    exact exec_flit_of_flitIn tags (fun ft k => flitIn_reserved h he hc hty)
  case otherType =>
    rintro s u t p f tags h ⟨he, hc, hty⟩ rfl
    have hother : ∀ ft k, flType f.bytes ≠ ft → (s.atTime t).flitIn p ft f k = flitSeen (s.atTime t) p f :=
      fun ft k hne => flitIn_otherType h he hc hty hne
    exact ⟨fun hne => congrArg Host.Outcome.next (hother 1 _ hne), fun hne => congrArg Host.Outcome.next (hother 0 _ hne),
      fun hne => congrArg Host.Outcome.next (hother 2 _ hne), fun hne => congrArg Host.Outcome.next (hother 3 _ hne),
      fun hne => congrArg Host.Outcome.next (hother 4 _ hne), fun hne => congrArg Host.Outcome.next (hother 6 _ hne),
      fun hne => congrArg Host.Outcome.next (hother 5 _ hne)⟩
  case waits =>
    rintro s u t p ft f h rfl hseq hb
    refine ⟨?_, ?_, ?_⟩
    all_goals
      rintro rfl
      exact congrArg Host.Outcome.next (flitIn_waits (by decide) (by decide) h hseq hb)
  case gap =>
    rintro s u t p ft f h rfl hseq hb
    refine ⟨?_, ?_, ?_⟩
    all_goals
      rintro rfl
      exact congrArg Host.Outcome.next (flitIn_gap (by decide) (by decide) h hseq hb)

end Sys2Proof.Laws
end

section
/-! PROOFS. Shipments (R332 to R335, R73, Table 14-10; log 24): what each packet of one does at its receiver and its sender, and what the commit and
the timers do with it. -/

namespace Sys2Proof.Laws

open Sys2Proof Sys2Proof.Machine
set_option deprecated.oldSectionVars true

/-! ## Packets of a shipment -/

section
variable {s : State} {t port : Nat} {p : Packet} {ptype : Nat} {x : Shipment}

/-- A packet for this device has its type's effect at its time. -/
theorem receive_forUs (f : State → State) (h : ForUs s port p ptype) : (s.atTime t).receive port p ptype f = f (s.atTime t) := by
  obtain ⟨⟨hty, hm⟩, hl, hc, hd⟩ := h
  exact receive_taken f (s := s.atTime t) hty (.inl hm) hl hc hd

section
variable {h : Nat} {side : Bool} (k : State → Shipment → State)

theorem shipPacket_found (hs : s.ship? h = some x) (ho : x.outgoing = side) : s.shipPacket port p h side k = k s x := by
  simp only [State.shipPacket, hs, ho, if_true]

theorem shipPacket_otherSide (hs : s.ship? h = some x) (ho : x.outgoing ≠ side) : s.shipPacket port p h side k = s.badPacket port 9 p := by
  simp only [State.shipPacket, hs, ho, if_false]

theorem shipPacket_none (hs : s.ship? h = none) : s.shipPacket port p h side k = s.badPacket port 9 p := by
  simp only [State.shipPacket, hs]

end

/-! ## SHIP_OPEN (R332, R334) -/

/-- The shipment that a SHIP_OPEN opens, unclaimed. -/
def openedShip (p : Packet) (now : Nat) : Shipment :=
  { handle := field p.payload 0 8, modelFp := BitVec.ofNat 256 (field p.payload 8 32), cfmt := field p.payload 40 1, blocks := field p.payload 44 4,
    openedAt := now, tc := p.tc }

theorem shipOpenOk_eq_not (p : Packet) :
    shipOpenOk p = !(field p.payload 0 8 = 0 || !allZero (slice p.payload 41 3) || !allZero (slice p.payload 48 16) ||
      !inRange (field p.payload 44 4) 1 16383 || !inRange (field p.payload 40 1) 1 2) := by
  simp only [shipOpenOk, ne_eq, decide_not, Bool.not_or, Bool.not_not]

theorem exec_shipOpen_forUs (h : ForUs s port p 0x20) :
    exec (.shipOpen t ⟨port, p⟩) s = .next (
      if !shipOpenOk p then s.atTime t
      else if 4096 ≤ (s.gelcon.ships.filter (fun x => !x.outgoing)).length || (s.ship? (field p.payload 0 8)).isSome then
        (s.atTime t).sendEnd p.src (field p.payload 0 8) p.tc 4
      else (s.atTime t).onGelcon (fun g => { g with ships := g.ships ++ [openedShip p (s.atTime t).now] })) := by
  rw [shipOpenOk_eq_not, Bool.not_not]
  exact congrArg Host.Outcome.next (receive_forUs _ h)

/-! ## SHIP_GRANT (R334) -/

theorem exec_shipGrant_unknown (h : ForUs s port p 0x21) (hs : s.ship? (field p.payload 0 8) = none) :
    exec (.shipGrant t ⟨port, p⟩) s = .next ((s.atTime t).badPacket port 9 p) := by
  refine congrArg Host.Outcome.next ((receive_forUs _ h).trans ?_)
  simp only [shipAt_atTime, hs]

theorem exec_shipGrant_notSent (h : ForUs s port p 0x21) (hs : s.ship? (field p.payload 0 8) = some x) (hx : x.outgoing = false ∨ x.slot = none) :
    exec (.shipGrant t ⟨port, p⟩) s = .next ((s.atTime t).badPacket port 9 p) := by
  have hnone : (if x.outgoing then x.slot else none) = none := by
    rcases hx with hx | hx <;> simp [hx]
  refine congrArg Host.Outcome.next ((receive_forUs _ h).trans ?_)
  simp only [shipAt_atTime, hs, hnone]

/-- The first body offset that a SHIP_GRANT asks for: where the window opens on, or the first of what is granted again. -/
def grantFrom (p : Packet) (x : Shipment) (i : ModelInfo) (stop : Nat) : Nat :=
  if stop ≤ x.landed then field p.payload 8 4 * blockBytes i else max x.landed (field p.payload 8 4 * blockBytes i)

/-- The shipment once what a SHIP_GRANT asks for has been sent. -/
def grantSent (p : Packet) (x : Shipment) (stop : Nat) : Shipment :=
  { x with landed := max x.landed stop, windowEnd := stop, firstBlock := if x.landed = 0 then field p.payload 8 4 else x.firstBlock }

/-- The origin sends what a SHIP_GRANT asks for up to an offset, and SHIP_DONE after the last block. -/
def grantAnswered (s : State) (p : Packet) (x : Shipment) (r : Request) (i : ModelInfo) (stop : Nat) : State :=
  let y := grantSent p x stop
  let u := (s.setShip y).sendMsg p.src 0x22 x.tc (grantFrom p x i stop) (field p.payload 0 8) false
    (outBytes s i r (grantFrom p x i stop) (stop - grantFrom p x i stop))
  if y.landed = x.blocks * blockBytes i then u.sendDone i r y p.src y.firstBlock else u

theorem exec_shipGrant_origin {n : Nat} {r : Request} {i : ModelInfo} (h : ForUs s port p 0x21) (hs : s.ship? (field p.payload 0 8) = some x)
    (ho : x.outgoing = true) (hn : x.slot = some n) (hr : s.req? n = some r) (hi : i = (s.mslot r.modelSlot).info) :
    exec (.shipGrant t ⟨port, p⟩) s =
      .next (grantAnswered (s.atTime t) p x r i (min (field p.payload 16 8) (x.blocks * blockBytes i))) := by
  subst hi
  have hsent : (if x.outgoing then x.slot else none) = some n := by rw [ho, hn, if_pos rfl]
  refine congrArg Host.Outcome.next ((receive_forUs _ h).trans ?_)
  simp only [shipAt_atTime, hs, hsent, req_atTime, hr]
  rfl

/-! ## SHIP_DATA (R334, Table 14-10) -/

/-- SHIP_DATA for a claimed shipment of this device lands inside its window. -/
theorem exec_shipData_found (h : ForUs s port p 0x22) (hs : s.ship? p.handle = some x) (ho : x.outgoing = false) :
    exec (.shipData t port p) s = .next (
      if x.firstBlock * blockBytes (shipModel s x) ≤ p.addr && p.addr + p.payload.length ≤ x.windowEnd && x.slot.isSome then
        (s.atTime t).setShip { x with body := Memory.writeN x.body p.addr p.payload, got := x.got ++ [(p.addr, p.addr + p.payload.length)] }
      else (s.atTime t).badPacket port 9 p) :=
  congrArg Host.Outcome.next ((receive_forUs _ h).trans (shipPacket_found _ hs ho))

theorem exec_shipData_outside (h : ForUs s port p 0x22) (hs : s.ship? p.handle = some x)
    (hx : x.outgoing = true ∨ p.addr < x.firstBlock * blockBytes (shipModel s x) ∨ x.windowEnd < p.addr + p.payload.length ∨ x.slot = none) :
    exec (.shipData t port p) s = .next ((s.atTime t).badPacket port 9 p) := by
  cases ho : x.outgoing with
  | true => exact congrArg Host.Outcome.next ((receive_forUs _ h).trans (shipPacket_otherSide _ hs (by simp [ho])))
  | false =>
    rw [exec_shipData_found h hs ho, if_neg]
    rcases hx with hx | hx | hx | hx
    · exact absurd hx (by simp [ho])
    · simp [Nat.not_le.mpr hx]
    · simp [Nat.not_le.mpr hx]
    · simp [hx]

theorem exec_shipData_unknown (h : ForUs s port p 0x22) (hs : s.ship? p.handle = none) :
    exec (.shipData t port p) s = .next ((s.atTime t).badPacket port 9 p) :=
  congrArg Host.Outcome.next ((receive_forUs _ h).trans (shipPacket_none _ hs))

/-! ## SHIP_DONE (R335) -/

/-- The shipment with the CRCs that a SHIP_DONE brings. -/
def crcsTaken (p : Packet) (x : Shipment) : Shipment :=
  { x with crcs := (List.range (field p.payload 12 4)).foldl (fun l k => tabPut (field p.payload 8 4 + k) (field p.payload (16 + 4 * k) 4) l) x.crcs }

/-- Up to where the blocks of a SHIP_DONE have come without a hole. -/
def doneCovered (s : State) (p : Packet) (x : Shipment) : Nat :=
  coveredTo x.got x.got.length (max (field p.payload 8 4 * blockBytes (shipModel s x)) (x.firstBlock * blockBytes (shipModel s x)))

/-- Up to where they are to come. -/
def doneStop (s : State) (p : Packet) (x : Shipment) : Nat :=
  min x.grantEnd ((field p.payload 8 4 + field p.payload 12 4) * blockBytes (shipModel s x))

/-- SHIP_DONE of a claimed shipment verifies it, asks for what has not come, or fails it. -/
theorem exec_shipDone_claimed (h : ForUs s port p 0x23) (hs : s.ship? (field p.payload 0 8) = some x) (ho : x.outgoing = false)
    (hc : x.slot.isSome = true) (hn : inRange (field p.payload 12 4) 1 1020 = true) :
    exec (.shipDone t port p) s = .next (
      if doneCovered s p x < doneStop s p x then
        if x.regrants < 3 then
          ((s.atTime t).setShip { crcsTaken p x with regrants := x.regrants + 1 }).sendGrant { crcsTaken p x with regrants := x.regrants + 1 }
            (doneCovered s p x / blockBytes (shipModel s x))
        else (s.atTime t).failShip (crcsTaken p x) 1
      else ((s.atTime t).setShip (crcsTaken p x)).tryVerify x.handle) := by
  have hclaimed : ¬x.slot.isNone = true := by simpa [Option.isSome_iff_ne_none] using hc
  exact congrArg Host.Outcome.next ((receive_forUs _ h).trans ((shipPacket_found (s := s.atTime t) _ hs ho).trans
    ((if_neg hclaimed).trans (if_neg (by simp [hn])))))

theorem exec_shipDone_unknown (h : ForUs s port p 0x23) (hs : s.ship? (field p.payload 0 8) = none) :
    exec (.shipDone t port p) s = .next ((s.atTime t).badPacket port 9 p) :=
  congrArg Host.Outcome.next ((receive_forUs _ h).trans (shipPacket_none _ hs))

/-! ## SHIP_END (R335, R381) -/

theorem exec_shipEnd_unknown (h : ForUs s port p 0x24) (hs : s.ship? (field p.payload 0 8) = none) :
    exec (.shipEnd t port p) s = .next ((s.atTime t).badPacket port 9 p) := by
  refine congrArg Host.Outcome.next ((receive_forUs _ h).trans ?_)
  simp only [shipAt_atTime, hs]

theorem exec_shipEnd_unclaimed (h : ForUs s port p 0x24) (hs : s.ship? (field p.payload 0 8) = some x) (hx : x.slot = none) :
    exec (.shipEnd t port p) s = .next ((s.atTime t).dropShip (field p.payload 0 8)) := by
  refine congrArg Host.Outcome.next ((receive_forUs _ h).trans ?_)
  simp only [shipAt_atTime, hs, hx]

theorem exec_shipEnd_claimed {n : Nat} (h : ForUs s port p 0x24) (hs : s.ship? (field p.payload 0 8) = some x) (hx : x.slot = some n) :
    exec (.shipEnd t port p) s = .next (
      if x.outgoing then ((s.atTime t).dropShip (field p.payload 0 8)).shipResult n (field p.payload 8 1)
      else ((s.atTime t).dropShip (field p.payload 0 8)).failImport n) := by
  refine congrArg Host.Outcome.next ((receive_forUs _ h).trans ?_)
  simp only [shipAt_atTime, hs, hx]

end

/-! ## Windows, time limits and application (R73, R334, R335) -/

section
variable {s : State} {t h upto n : Nat} {x : Shipment} {r : Request}

theorem exec_shipWindowAdvance_lands (hs : s.ship? h = some x) (hn : x.slot = some n) (ho : x.outgoing = false) (hr : s.req? n = some r)
    (hw : s.tick.running = true ∧ s.tick.inCommit = false) (hu : x.landed ≤ upto ∧ upto ≤ coveredTo x.got x.got.length x.landed) :
    exec (.shipWindowAdvance h upto) s =
      .next (((s.landBytes (shipModel s x) r x x.landed (upto - x.landed)).moveWindow { x with landed := upto }).tryVerify h) := by
  refine congrArg Host.Outcome.next ?_
  simp only [hs, hn, hr]
  exact if_pos (by simp [hw, ho, hu])

/-- An unclaimed shipment that this device receives fails at its time limit. -/
theorem exec_shipUnclaimedTimeout_open (hs : s.ship? h = some x) :
    exec (.shipUnclaimedTimeout t h) s = .next (
      if x.slot.isNone && !x.outgoing && x.openedAt + rf s.regs.glShip 31 16 * 1000000 ≤ t then (s.atTime t).failShip x 3 else s.atTime t) := by
  refine congrArg Host.Outcome.next ?_
  rw [shipAt_atTime, hs]
  rfl

theorem exec_ship_none (hs : s.ship? h = none) :
    exec (.shipUnclaimedTimeout t h) s = .next (s.atTime t) ∧ exec (.shipWindowAdvance h upto) s = .next s ∧ exec (.shipmentApply h) s = .next s := by
  refine ⟨congrArg Host.Outcome.next ?_, congrArg Host.Outcome.next ?_, congrArg Host.Outcome.next ?_⟩ <;> simp only [shipAt_atTime, hs]

/-- A verified shipment is applied: its request prefills from what was shipped. -/
theorem exec_shipmentApply_applies {len : Nat} (hs : s.ship? h = some x) (hn : x.slot = some n) (hr : s.req? n = some r) (hw : s.tick.inCommit = true)
    (hv : x.verified = true ∧ x.verifiedAt < s.tick.commitOpenAt) (hq : r.state = .importing ∧ r.migrating = false ∧ n ∉ s.req.unsettled)
    (hl : len = 128 * (x.grantEnd / blockBytes (shipModel s x))) :
    exec (.shipmentApply h) s = .next ((((s.modReq n (fun q => { q with state := .prefilling, committedLen := max q.committedLen len })).markPublish n
      (128 * x.firstBlock) len).dropShip h).sendEnd (shipSender h) h x.tc 0) := by
  subst hl
  refine congrArg Host.Outcome.next ?_
  simp only [hs, hn, hr]
  exact if_pos (by simp [hw, hv, hq])

end

/-- Settles O51, packet by packet, then what the commit and the timers do. -/
theorem shipmentsArrive : Obligations.ShipmentsArrive := by
  refine ⟨?opens, ?refused, ?malformed, ?unknown, fun s t port p x h hs hx => exec_shipGrant_notSent h hs hx, ?grant, ?data,
    fun s t port p x h hs hx => exec_shipData_outside h hs hx, fun s t port p h hs => exec_shipData_unknown h hs,
    fun s h upto n x r hs ⟨hn, ho⟩ hr hw hu => exec_shipWindowAdvance_lands hs hn ho hr hw hu, ?verifies, ?regrants, ?fails,
    fun s t port p x h hs hx => exec_shipEnd_unclaimed h hs hx, fun s t port n p x h hs hx => exec_shipEnd_claimed h hs hx, ?lapses, ?standing,
    fun s t h upto hs => exec_ship_none hs, fun s h n x r len hs hn hr hw hv hq hl => exec_shipmentApply_applies hs hn hr hw hv hq hl⟩
  case opens =>
    intro s t port p h hok hroom hs
    rw [exec_shipOpen_forUs h, if_neg (by simp [hok]), if_neg (by simp [hroom, hs])]
    rfl
  case refused =>
    intro s t port p h hok hfull
    rw [exec_shipOpen_forUs h, if_neg (by simp [hok]), if_pos (by rcases hfull with hfull | hs <;> simp [*])]
  case malformed =>
    intro s t port p h hok
    rw [exec_shipOpen_forUs h, if_pos (by simp [hok])]
  case unknown =>
    intro s t port p x hs
    exact ⟨fun h => exec_shipGrant_unknown h hs, fun h => exec_shipDone_unknown h hs, fun h => exec_shipEnd_unknown h hs⟩
  case grant =>
    rintro s u t port p x y n lo stop r i h hs ⟨ho, hn⟩ hr ⟨hi, rfl⟩ rfl rfl rfl
    exact exec_shipGrant_origin h hs ho hn hr hi
  case data =>
    rintro s t port p x h hs ⟨ho, hc⟩ ⟨hlo, hhi⟩
    rw [exec_shipData_found h hs ho, if_pos (by simp [hlo, hhi, hc])]
  case verifies =>
    rintro s t port p x y n h hs ⟨ho, hc⟩ ⟨rfl, hn⟩ rfl hcov
    rw [exec_shipDone_claimed h hs ho hc hn, if_neg (show ¬doneCovered s p x < doneStop s p x from Nat.not_lt.mpr hcov)]
    rfl
  case regrants =>
    rintro s t port p x y n c h hs ⟨ho, hc⟩ ⟨rfl, hn⟩ ⟨rfl, hcov⟩ hr rfl
    rw [exec_shipDone_claimed h hs ho hc hn, if_pos (show doneCovered s p x < doneStop s p x from hcov), if_pos hr]
    rfl
  case fails =>
    rintro s t port p x y n h hs ⟨ho, hc⟩ ⟨rfl, hn⟩ hcov hr rfl
    rw [exec_shipDone_claimed h hs ho hc hn, if_pos (show doneCovered s p x < doneStop s p x from hcov), if_neg (Nat.not_lt.mpr hr)]
    rfl
  case lapses =>
    rintro s t h x hs ⟨hn, ho⟩ hlate
    rw [exec_shipUnclaimedTimeout_open hs, if_pos (by simp [hn, ho, hlate])]
  case standing =>
    intro s t h x hs hx
    have hstands : ¬(x.slot.isNone && !x.outgoing && decide (x.openedAt + rf s.regs.glShip 31 16 * 1000000 ≤ t)) = true := by
      rcases hx with hc | hearly
      · obtain ⟨n, hn⟩ := Option.isSome_iff_exists.mp hc
        simp [hn]
      · simp [Nat.not_le.mpr hearly]
    rw [exec_shipUnclaimedTimeout_open hs, if_neg hstands]

end Sys2Proof.Laws
end

section
/-! PROOFS. GELCON_CONFIG's actions on a quarantined port and a spare lane (R331, R362), and GROUP_CONFIG (R27, R48; log 14): each command as its
checks and its effect, then case by case. -/

namespace Sys2Proof.Laws

open Sys2Proof Sys2Proof.Machine
set_option deprecated.oldSectionVars true

/-! ## GELCON_CONFIG, actions 1 and 2 (R331, R362) -/

section
variable {s : State} {mb : Nat} {c : MbCommand}

theorem portCount_le (v : Variant) : portCount v ≤ 21 := by
  cases v <;> decide

/-- What action 1 comes to. -/
def releaseBody (c : MbCommand) (s : State) : Except Nat (State × List Byte) := do
  need (entryCount c = 0) St.badArgument
  need (cf c 1 1 < 21) St.badArgument
  need (cf c 1 1 < portCount s.variant) St.unsupportedUnit
  need (s.gport (cf c 1 1)).quarantined St.badState
  .ok (s.releaseQuarantine (cf c 1 1), [])

theorem exec_gelconQuarantineRelease_asked (h : Asked s mb 0x56 c) (ha : cf c 0 1 = 1) :
    exec (.gelconQuarantineRelease mb) s = .next (answer s c (releaseBody c s)) := by
  obtain ⟨hc, hu, ht⟩ := h
  refine congrArg Host.Outcome.next ?_
  rw [hc]
  exact (if_pos ha).trans (runI_asked releaseBody hc hu ht)

/-- Action 1 on a port that the device has turns on whether it is quarantined. -/
theorem releaseBody_ofPort (he : entryCount c = 0) (hp : cf c 1 1 < portCount s.variant) :
    releaseBody c s = (do need (s.gport (cf c 1 1)).quarantined St.badState; .ok (s.releaseQuarantine (cf c 1 1), [])) := by
  have h21 : cf c 1 1 < 21 := Nat.lt_of_lt_of_le hp (portCount_le _)
  rw [releaseBody, need_of (decide_eq_true he), ok_bind, need_of (decide_eq_true h21), ok_bind, need_of (decide_eq_true hp), ok_bind]

theorem releaseBody_noPort (he : entryCount c = 0) (hp : 21 ≤ cf c 1 1) : releaseBody c s = .error St.badArgument := by
  rw [releaseBody, need_of (decide_eq_true he), ok_bind, need_not (decide_eq_false (Nat.not_lt.mpr hp)), error_bind]

/-- What action 2 comes to. -/
def spareBody (c : MbCommand) (s : State) : Except Nat (State × List Byte) := do
  need (entryCount c = 0) St.badArgument
  need (hasGlobal s.variant) St.unsupportedUnit
  need (inRange (cf c 1 1) 93 95 && cf c 2 1 ≤ 95) St.badArgument
  .ok (s.onGelcon (fun g => { g with spares := tabPut (cf c 1 1) (cf c 2 1) g.spares }), [])

theorem exec_gelconSpareAssign_asked (h : Asked s mb 0x56 c) (ha : cf c 0 1 = 2) :
    exec (.gelconSpareAssign mb) s = .next (answer s c (spareBody c s)) := by
  obtain ⟨hc, hu, ht⟩ := h
  refine congrArg Host.Outcome.next ?_
  rw [hc]
  exact (if_pos ha).trans (runI_asked spareBody hc hu ht)

theorem spareBody_assigns (he : entryCount c = 0) (hv : s.variant = .xf) (hr : 93 ≤ cf c 1 1 ∧ cf c 1 1 ≤ 95 ∧ cf c 2 1 ≤ 95) :
    spareBody c s = .ok (s.onGelcon (fun g => { g with spares := tabPut (cf c 1 1) (cf c 2 1) g.spares }), []) := by
  have hglobal : hasGlobal s.variant = true := by rw [hv]; rfl
  have hrange : (inRange (cf c 1 1) 93 95 && decide (cf c 2 1 ≤ 95)) = true := by simpa [inRange, and_assoc] using hr
  rw [spareBody, need_of (decide_eq_true he), ok_bind, need_of hglobal, ok_bind, need_of hrange, ok_bind]

theorem spareBody_noGlobal (he : entryCount c = 0) (hv : s.variant ≠ .xf) : spareBody c s = .error St.unsupportedUnit := by
  have hglobal : hasGlobal s.variant = false := by
    revert hv
    cases s.variant <;> simp [hasGlobal]
  rw [spareBody, need_of (decide_eq_true he), ok_bind, need_not hglobal, error_bind]

end

/-! ## GROUP_CONFIG (R27, R48; log 14) -/

section
variable {s : State} {mb gt : Nat} {c : MbCommand}

@[simp] theorem capChanged_capGen (s : State) : s.capChanged.mb.capGen = (s.mb.capGen + 2) % 2 ^ 32 := by
  rw [State.capChanged, postEvent_mb]
  rfl

@[simp] theorem complete_capGen (s : State) (c : MbCommand) (st : Nat) (d : List Byte) : (s.complete c st d).mb.capGen = s.mb.capGen := by
  rw [complete_mb]

/-- The group's number is set, and the capability generation tells of it. -/
def groupNamed (s : State) (n : Nat) : State := (s.onTick (fun k => { k with group := n, groupSet := true })).capChanged

/-- The device is in the group, its own master until SYNC names one; one join after SERVING has been entered steps Invar to the group's time. -/
def groupJoined (gt : Nat) (s : State) : State :=
  s.onTick (fun k => { k with
    inGroup := true, gridSynced := false, master := memberNo s, isMaster := false, syncRuns := [], syncSeen := [], syncGaps := [], masterMisses := 0
    votes := [], syncFit := [], groupsSeen := [], lowGroup := 32, alignedRun := 0
    joinStepped := k.joinStepped || k.everServing
    iv := if gt < two64 && !(k.everServing && k.joinStepped) then gt else k.iv })

/-- The device as a GROUP_CONFIG that names a group leaves it. -/
def groupTaken (gt : Nat) (c : MbCommand) (s : State) : State :=
  if bit (cf c 1 1) 0 then groupJoined gt (groupNamed s (cf c 0 1)) else groupNamed s (cf c 0 1)

/-- What a GROUP_CONFIG that names a group comes to. -/
def joinBody (gt : Nat) (c : MbCommand) (s : State) : Except Nat (State × List Byte) := do
  need (cf c 0 1 < 32) St.badArgument
  need (!s.tick.inGroup && (!bit (cf c 1 1) 0 || mayJoin s)) St.badState
  .ok (groupTaken gt c s, leBytes 2 (identityOf (groupTaken gt c s)))

theorem exec_groupConfigJoin_asked (h : Asked s mb 0x11 c) (hn : cf c 0 1 < 32) :
    exec (.groupConfigJoin mb gt) s = .next (answer s c (joinBody gt c s)) := by
  obtain ⟨hc, hu, ht⟩ := h
  have hnames : ¬cf c 0 1 = 255 := fun h255 => absurd (h255 ▸ hn) (by decide)
  refine congrArg Host.Outcome.next ?_
  rw [hc]
  exact (if_neg hnames).trans (runI_asked (joinBody gt) hc hu ht)

/-- Outside a group it sets the group's number, and joins where it is to and may. -/
theorem exec_groupConfigJoin_takes (h : Asked s mb 0x11 c) (hn : cf c 0 1 < 32) (hout : s.tick.inGroup = false)
    (hj : bit (cf c 1 1) 0 = false ∨ mayJoin s = true) :
    exec (.groupConfigJoin mb gt) s = .next ((groupTaken gt c s).complete c St.ok (leBytes 2 (identityOf (groupTaken gt c s)))) := by
  have hmay : (!s.tick.inGroup && (!bit (cf c 1 1) 0 || mayJoin s)) = true := by
    rcases hj with hj | hj <;> simp [hout, hj]
  rw [exec_groupConfigJoin_asked h hn, joinBody, need_of (decide_eq_true hn), ok_bind, need_of hmay, ok_bind, answer_ok]

theorem exec_groupConfigJoin_member (h : Asked s mb 0x11 c) (hn : cf c 0 1 < 32) (hin : s.tick.inGroup = true) :
    exec (.groupConfigJoin mb gt) s = .next (s.complete c St.badState []) := by
  rw [exec_groupConfigJoin_asked h hn, joinBody, need_of (decide_eq_true hn), ok_bind, need_not (by simp [hin]), error_bind, answer_error]

@[simp] theorem groupNamed_tick (s : State) (n : Nat) : (groupNamed s n).tick = { s.tick with group := n, groupSet := true } := by
  simp [groupNamed]

@[simp] theorem groupNamed_start (s : State) (n : Nat) : (groupNamed s n).start = s.start := by
  simp [groupNamed]

@[simp] theorem groupNamed_capGen (s : State) (n : Nat) : (groupNamed s n).mb.capGen = (s.mb.capGen + 2) % 2 ^ 32 := by
  simp [groupNamed]

@[simp] theorem memberNo_groupNamed (s : State) (n : Nat) : memberNo (groupNamed s n) = memberNo s := by
  simp [memberNo]

/-- The device out of its group, alone and aligned. -/
def groupLeft (s : State) : State :=
  (s.onTick (fun k => { k with
    inGroup := false, group := 31, groupSet := false, settling := [], isMaster := false, master := 0, aligned := true, alignedRun := 0
    syncRuns := [], syncSeen := [], syncGaps := [], masterMisses := 0, votes := [], votingOpen := false, gridSynced := true })).capChanged

/-- What a GROUP_CONFIG with 0xFF comes to. -/
def leaveBody (c : MbCommand) (s : State) : Except Nat (State × List Byte) := do
  need (!bit (cf c 1 1) 0) St.badArgument
  need s.tick.inGroup St.badState
  .ok (groupLeft s, leBytes 2 (identityOf (groupLeft s)))

theorem exec_groupConfigLeave_asked (h : Asked s mb 0x11 c) (hn : cf c 0 1 = 255) :
    exec (.groupConfigLeave mb) s = .next (answer s c (leaveBody c s)) := by
  obtain ⟨hc, hu, ht⟩ := h
  refine congrArg Host.Outcome.next ?_
  rw [hc]
  exact (if_neg (not_not.2 hn)).trans (runI_asked leaveBody hc hu ht)

theorem exec_groupConfigLeave_member (h : Asked s mb 0x11 c) (hn : cf c 0 1 = 255) (hj : bit (cf c 1 1) 0 = false) (hin : s.tick.inGroup = true) :
    exec (.groupConfigLeave mb) s = .next ((groupLeft s).complete c St.ok (leBytes 2 (identityOf (groupLeft s)))) := by
  rw [exec_groupConfigLeave_asked h hn, leaveBody, need_of (by simp [hj]), ok_bind, need_of hin, ok_bind, answer_ok]

theorem exec_groupConfigLeave_alone (h : Asked s mb 0x11 c) (hn : cf c 0 1 = 255) (hj : bit (cf c 1 1) 0 = false) (hout : s.tick.inGroup = false) :
    exec (.groupConfigLeave mb) s = .next (s.complete c St.badState []) := by
  rw [exec_groupConfigLeave_asked h hn, leaveBody, need_of (by simp [hj]), ok_bind, need_not hout, error_bind, answer_error]

end

/-! ## The obligation -/

/-- Settles O21, action by action. -/
theorem gelconActionsAndGroup : Obligations.GelconActionsAndGroup := by
  refine ⟨?released, ?notQuarantined, ?noPort, ?assigned, ?noGlobal, ?named, ?joined, fun s mb gt c h hn hin => exec_groupConfigJoin_member h hn hin, ?left,
    fun s mb c h hn hj hout => exec_groupConfigLeave_alone h hn hj hout⟩
  case released =>
    intro s mb c h ha he hp hq
    rw [exec_gelconQuarantineRelease_asked h ha, releaseBody_ofPort he hp, need_of hq, ok_bind, answer_ok, State.releaseQuarantine]
  case notQuarantined =>
    intro s mb c h ha he hp hq
    rw [exec_gelconQuarantineRelease_asked h ha, releaseBody_ofPort he hp, need_not hq, error_bind, answer_error]
  case noPort =>
    intro s mb c h ha he hp
    rw [exec_gelconQuarantineRelease_asked h ha, releaseBody_noPort he hp, answer_error]
  case assigned =>
    intro s mb c h ha he hv hr
    rw [exec_gelconSpareAssign_asked h ha, spareBody_assigns he hv hr, answer_ok]
  case noGlobal =>
    intro s mb c h ha he hv
    rw [exec_gelconSpareAssign_asked h ha, spareBody_noGlobal he hv, answer_error]
  case named =>
    intro s mb gt c h hn hj hout
    refine ⟨_, exec_groupConfigJoin_takes h hn hout (.inl hj), ?_⟩
    have htaken : groupTaken gt c s = groupNamed s (cf c 0 1) := if_neg (ne_true_of_eq_false hj)
    rw [complete_tick, complete_capGen, htaken, groupNamed_tick, groupNamed_capGen]
    exact ⟨rfl, hout, rfl, rfl⟩
  case joined =>
    intro s mb gt c h hn hj hout hmay hgt
    refine ⟨_, exec_groupConfigJoin_takes h hn hout (.inr hmay), ?_⟩
    have htaken : groupTaken gt c s = groupJoined gt (groupNamed s (cf c 0 1)) := if_pos hj
    have hfits : gt < two64 := hgt
    rw [complete_tick, complete_capGen, htaken, groupJoined, onTick_tick, onTick_mb, groupNamed_tick, groupNamed_capGen, memberNo_groupNamed]
    refine ⟨rfl, rfl, ?_, rfl, rfl, rfl, rfl, rfl⟩
    cases s.tick.everServing <;> cases s.tick.joinStepped <;> simp [hfits]
  case left =>
    intro s mb c h hn hj hin
    refine ⟨_, exec_groupConfigLeave_member h hn hj hin, ?_⟩
    rw [complete_tick, complete_capGen, groupLeft, capChanged_tick, capChanged_capGen, onTick_tick, onTick_mb]
    exact ⟨rfl, rfl, rfl, rfl⟩

end Sys2Proof.Laws
end

section
/-! PROOFS. TIER_REGISTER and TIER_RELEASE (R283, R294): an equation for a region's number in use, one for a number that is not, one for a
release, and each form derived from them. -/

namespace Sys2Proof.Laws

open Sys2Proof Sys2Proof.Machine

/-! ## TIER_REGISTER -/

/-- The rules of R283 for a region on its own, as TIER_REGISTER's fields give it. -/
theorem regionOk_iff {kind offset length host : Nat} : regionOk kind offset length host = true ↔
    kind ≤ 1 ∧ offset % 2097152 = 0 ∧ length % 2097152 = 0 ∧ host % 2097152 = 0 ∧ 0 < length ∧ offset + length ≤ 2 ^ 44 := by
  simp [regionOk, and_assoc]

/-- The region that TIER_REGISTER's fields describe (Table 16-3). -/
def askedRegion (c : MbCommand) : Region :=
  { number := cf c 0 1, isFixed := cf c 1 1 = 1, draining := bit (cf c 2 1) 0, offset := cf c 8 8, length := cf c 16 8, hostAddr := cf c 24 8 }

/-- A command's fields name a region's own place, which TIER_REGISTER cannot change (R283). -/
def samePlace (c : MbCommand) (r : Region) : Bool := r.offset = cf c 8 8 && r.length = cf c 16 8 && r.hostAddr = cf c 24 8

theorem samePlace_iff {c : MbCommand} {r : Region} :
    samePlace c r = true ↔ r.offset = cf c 8 8 ∧ r.length = cf c 16 8 ∧ r.hostAddr = cf c 24 8 := by
  simp [samePlace, and_assoc]

/-- The asked region overlaps one that is registered. -/
def overlapsRegion (s : State) (c : MbCommand) : Bool :=
  s.tier.regions.any (fun r => cf c 8 8 < r.offset + r.length && r.offset < cf c 8 8 + cf c 16 8)

/-- The asked region is registered, with its free granules (R283). -/
def withAsked (s : State) (c : MbCommand) : State :=
  s.onTier (fun t => { t with regions := t.regions ++ [askedRegion c], t2Free := t.t2Free + regionFree (askedRegion c) })

/-- The region r with the asked draining flag, under its number, and the free granules that follow (R283). -/
def withDraining (s : State) (c : MbCommand) (r : Region) : State :=
  s.onTier (fun t => { t with
    regions := t.regions.map (fun (x : Region) => if x.number = cf c 0 1 then { r with draining := bit (cf c 2 1) 0 } else x)
    t2Free := t.t2Free + regionRoom s { r with draining := bit (cf c 2 1) 0 } - regionRoom s r })

section
variable {s : State} {mb : Nat} {c : MbCommand} (h : Asked s mb 0x60 c)
include h

theorem exec_tierRegister_numberTooHigh (hn : 64 ≤ cf c 0 1) : exec (.tierRegister mb) s = .next (s.complete c St.badArgument []) := by
  obtain ⟨hc, hu, ht⟩ := h
  refine congrArg Host.Outcome.next ((runI_asked _ hc hu ht).trans ?_)
  dsimp only
  rw [need_not (decide_eq_false hn.not_gt), error_bind, answer_error]

variable (hn : cf c 0 1 < 64)
include hn

/-- A number in use: the flag changes where the place is the same. -/
theorem exec_tierRegister_used {r : Region} (hr : regionOf s (cf c 0 1) = some r) : exec (.tierRegister mb) s = .next (
    if samePlace c r = true then (withDraining s c r).complete c St.ok [] else s.complete c St.busy []) := by
  obtain ⟨hc, hu, ht⟩ := h
  have hfind : s.tier.regions.find? (fun r => r.number = cf c 0 1) = some r := hr
  refine congrArg Host.Outcome.next ((runI_asked _ hc hu ht).trans ?_)
  dsimp only
  rw [need_of (decide_eq_true hn), ok_bind, hfind]
  change answer s c (need (samePlace c r) St.busy >>= fun _ => .ok (withDraining s c r, [])) = _
  cases samePlace c r <;> rfl

/-- An unused number: the region's own rules, then the overlap, then the region. -/
theorem exec_tierRegister_unused (hr : regionOf s (cf c 0 1) = none) : exec (.tierRegister mb) s = .next (
    if regionOk (cf c 1 1) (cf c 8 8) (cf c 16 8) (cf c 24 8) = false then s.complete c St.badArgument []
    else if overlapsRegion s c = true then s.complete c St.badArgument []
    else (withAsked s c).complete c St.ok []) := by
  obtain ⟨hc, hu, ht⟩ := h
  have hfind : s.tier.regions.find? (fun r => r.number = cf c 0 1) = none := hr
  refine congrArg Host.Outcome.next ((runI_asked _ hc hu ht).trans ?_)
  dsimp only
  rw [need_of (decide_eq_true hn), ok_bind, hfind]
  change answer s c (do
    need (regionOk (cf c 1 1) (cf c 8 8) (cf c 16 8) (cf c 24 8)) St.badArgument
    need (!overlapsRegion s c) St.badArgument
    .ok (withAsked s c, [])) = _
  cases regionOk (cf c 1 1) (cf c 8 8) (cf c 16 8) (cf c 24 8) with
  | false => rfl
  | true => cases overlapsRegion s c <;> rfl

end

/-! ## TIER_RELEASE -/

@[simp] theorem regionOf_begin (s : State) (n : Nat) : regionOf s.begin n = regionOf s n := rfl
@[simp] theorem regionUsed_begin (s : State) (r : Region) : regionUsed s.begin r = regionUsed s r := rfl
@[simp] theorem holdsImage_begin (s : State) (r : Region) : holdsImage s.begin r = holdsImage s r := rfl

/-- A region holds a live granule or an image, which keep it registered (R283, R294). -/
def regionHeld (s : State) (r : Region) : Bool := !(regionUsed s r = 0 && !holdsImage s r)

theorem regionHeld_iff {s : State} {r : Region} : regionHeld s r = true ↔ regionUsed s r ≠ 0 ∨ holdsImage s r = true := by
  simp [regionHeld, or_iff_not_imp_left]

section
variable {s : State} {mb : Nat} {c : MbCommand} (h : Due s mb 0x61 c)
include h

theorem exec_tierRelease_unknown (hr : regionOf s (cf c 0 1) = none) : exec (.tierRelease mb) s = .next (s.begin.complete c St.notFound []) := by
  obtain ⟨hc, hu, ht⟩ := h
  have hfind : s.begin.tier.regions.find? (fun r => r.number = cf c 0 1) = none := hr
  refine congrArg Host.Outcome.next ((runT_due _ hc hu ht).trans ?_)
  rw [hfind]
  rfl

/-- A region that is registered is freed unless it is held. -/
theorem exec_tierRelease_known {r : Region} (hr : regionOf s (cf c 0 1) = some r) : exec (.tierRelease mb) s = .next (
    if regionHeld s r = true then s.begin.complete c St.badState []
    else (s.begin.onTier (fun t => { t with
      regions := t.regions.filter (fun x => x.number ≠ cf c 0 1), t2Free := t.t2Free - regionRoom s.begin r })).complete c St.ok []) := by
  obtain ⟨hc, hu, ht⟩ := h
  have hfind : s.begin.tier.regions.find? (fun r => r.number = cf c 0 1) = some r := hr
  refine congrArg Host.Outcome.next ((runT_due _ hc hu ht).trans ?_)
  rw [hfind]
  dsimp only
  rw [regionUsed_begin, holdsImage_begin, regionHeld]
  cases decide (regionUsed s r = 0) && !holdsImage s r <;> rfl

end

/-! ## The obligation -/

/-- Settles O27: each clause is one outcome of its command's equation. -/
theorem tierRegions : Obligations.TierRegions := by
  unfold Obligations.TierRegions
  refine ⟨?registers, ?badRegion, ?overlap, ?numberTooHigh, ?draining, ?otherPlace, ?releases, ?held, ?unknown⟩
  case registers =>
    rintro s mb c g h rfl hn hr hok hfree
    have hfree' : overlapsRegion s c = false := hfree
    rw [exec_tierRegister_unused h hn hr, if_neg (by simp [regionOk_iff.2 hok]), if_neg (ne_true_of_eq_false hfree')]
    rfl
  case badRegion =>
    intro s mb c h hn hr hbad
    rw [exec_tierRegister_unused h hn hr, if_pos (Bool.eq_false_iff.2 (mt regionOk_iff.1 hbad))]
  case overlap =>
    intro s mb c h hn hr hover
    have hover' : overlapsRegion s c = true := hover
    rw [exec_tierRegister_unused h hn hr, if_pos hover', ite_self]
  case numberTooHigh =>
    intro s mb c h hn
    exact exec_tierRegister_numberTooHigh h hn
  case draining =>
    intro s mb c r h hn hr hsame
    rw [exec_tierRegister_used h hn hr, if_pos (samePlace_iff.2 hsame)]
    rfl
  case otherPlace =>
    intro s mb c r h hn hr hother
    rw [exec_tierRegister_used h hn hr, if_neg (by rw [samePlace_iff]; tauto)]
  case releases =>
    intro s mb c r h hr hused himage
    rw [exec_tierRelease_known h hr, if_neg (by simp [regionHeld_iff, hused, himage])]
  case held =>
    intro s mb c r h hr hheld
    rw [exec_tierRelease_known h hr, if_pos (regionHeld_iff.2 hheld)]
  case unknown =>
    intro s mb c h hr
    exact exec_tierRelease_unknown h hr

end Sys2Proof.Laws
end
